-- ==== Sys2Proof/Word.lean ====
section
/-! DEFINITION. The word types of the node: registers and system time are bit vectors (R8, R11), and nothing else is. -/

namespace Sys2Proof

/-- A register word: every register window takes 32-bit accesses only (R8). -/
abbrev Word := BitVec 32

/-- A byte of scratchpad, plug, cell or frame. -/
abbrev Byte := BitVec 8

/-- System time in units of 2^-29 s (R11); also a due key of the time domain. -/
abbrev SysTime := BitVec 64

end Sys2Proof
end

