-- ==== Sys2Proof/Syntax.lean ====
section
/-! DEFINITION. The commands of the block: one constructor per row of spec/opcode_table.json, rows with operands
first, each part in the table's order, with the row's operands and whatever of the world outside the node the row's rule names (a level, a time, a frame). -/

namespace Sys2Proof

/-- The exception causes of Table 08-3; `access` says whether a bank that is not On was the reason. -/
inductive Exc where
  | illegal | align | access (offBank : Bool) | store | stack | watchdog | budget
deriving DecidableEq, Repr

/-- The channel an INSERT or CANCEL names: N, or bits [5:0] of a register (R317). -/
inductive ChanSel where
  | num (c : Fin 64)
  | reg (r : Fin 32)
deriving DecidableEq, Repr

/-- What Kindling samples at one instant of K1: the jumpers, bit 0 HALF, 1 open, and the three codes (R41, R47). -/
structure Sample where
  jumpers : BitVec 7
  cls : BitVec 12
  keyHi : BitVec 12
  keyLo : BitVec 12
deriving DecidableEq, Repr

/-- The defects of R402. -/
inductive Defect where
  | los | lol | oof | lof | deg | rdiSf | rdiSd
deriving DecidableEq, Repr

/-- A defect that clears, and the power received then [0.1 dBm] (R402). -/
structure Cleared where
  defect : Defect
  power : BitVec 16
deriving DecidableEq, Repr

/-- The doorbell a DOORBELL rings, and whether a lower-numbered Ember rings it in the same cycle (R322, R326). -/
structure Bell where
  number : Fin 4
  met : Bool
deriving DecidableEq, Repr

/-- A command. -/
inductive Instr where
  -- Power, reset and Kindling (chapters 1 to 3)
  /-- R101: VBULK held at or above 16.5 V for 100 ms after a low supply or a completed PWRFAIL sequence starts a power-on reset. -/
  | powerOn (low : Bool) (vbulk : BitVec 16) (vaux conv : Bool) (off : BitVec 64) (resetLow holdLow : Bool)
  /-- R127: After a page swap the node runs the shortened Kindling phases within 400 ms while outputs, time and ring keep running. -/
  | warmRestart (fails : List (Nat × Nat)) (rewriteBad : BitVec 2) (bad : Option (Fin 64))
  /-- R106: Kindling tests PLUG_DET_N and samples the straps and coding resistors until a consistent set is accepted or it enters Caldera. -/
  | k1 (sets : Vector (Vector Sample 8) 4)
  /-- R109: Kindling marches or zero-fills every scratchpad bank according to the reset kind and MARCH strap. -/
  | k2 (fails : List (Nat × Nat))
  /-- R111: Kindling reads the plug and identity copies, chooses the copy in force, checks the address and applies spare-row repair. -/
  | k3 (bad : BitVec 2)
  /-- R119: Kindling loads the channel table and fail states, the microcode and tables, and rebuilds the AWQ and custody state. -/
  | k5 (bad : Option (Fin 64))
  /-- R73: PWRFAIL assertion drains store buffers, stops new acceptance and starts the timed shutdown sequence. -/
  | pwrfail (vbulk : BitVec 16)
  /-- R54: PLUG_DET_N low for 1 ms makes the node treat the plug as present. -/
  | plugInserted (mem : List (Nat × Byte)) (rdid rdsr : Byte)
  /-- R58: PLUG_HOLD_N returning high starts the node with reset kind RESET_N. -/
  | plugHoldRelease (patch : List (Nat × Byte))
  -- Barrier and MFE (chapter 2)
  /-- R89: The MFE carries out a HELLO, clears its completion store and reports its ROM versions. -/
  | hello (f : List Byte)
  /-- R81: The MFE stores fail levels and HV_ENABLE, moving outputs only in the cases listed. -/
  | failstate (f : List Byte)
  /-- R94: The MFE stores or replaces a scheduled entry for an output, or refuses it. -/
  | schedule (f : List Byte)
  /-- R94: The MFE removes a scheduled entry named by tag, or refuses it as too late. -/
  | barrierCancel (f : List Byte)
  /-- R94: The MFE changes the named outputs at once, leaving their schedules intact. -/
  | setNow (f : List Byte)
  /-- R85: The MFE sets or slews its time copy from a TIME frame and declares or drops SYNC. -/
  | timeFrame (f : List Byte) (transit : Nat)
  /-- R81: The MFE takes an output or input configuration item from the channel table. -/
  | config (f : List Byte)
  /-- R88: The MFE answers a QUERY with the report of its item and index without changing anything. -/
  | barrierQuery (f : List Byte)
  /-- R83: The MFE applies its fail state and discards its whole schedule. -/
  | failnow (f : List Byte)
  /-- R96: At a scheduled entry's gate time the MFE switches the output and reports an HV_EVENT. -/
  | gate (i : Fin 12)
  /-- R84: The MFE opens an output whose peak or windowed RMS current exceeds its limit and reports it. -/
  | overcurrent (i : Fin 12)
  /-- R97: An HVI ON edge is confirmed one period after its first sample above 60 V and reported, updating operate-time learning. -/
  | hviOn (i : Fin 4) (first : SysTime) (later : List SysTime) (below : Option (SysTime × SysTime))
  /-- R97: An HVI input with no sample above 60 V for 12 ms turns OFF and is reported. -/
  | hviOff (i : Fin 4) (last : SysTime)
  /-- R91: A received COMPLETION ends its request, or is discarded as late, unknown or duplicate. -/
  | completion (atMfe : Bool) (f : List Byte)
  /-- R80: A received STATUS frame updates MFE flags and levels and may trigger a handshake. -/
  | statusFrame (f : List Byte)
  /-- R99: A received TEETH frame delivers mains teeth with their times to wheels 0–2. -/
  | teeth (f : List Byte)
  /-- R230: A received HV_EVENT retires the matching forwarded entry or delivers an HVI edge to channels 60–63. -/
  | hvEvent (f : List Byte)
  /-- R100: A received MEASURE frame updates a phase's RMS, frequency and presence. -/
  | measure (f : List Byte)
  /-- R98: A received OPTIME frame updates BAR.OPTIME_n. -/
  | optime (f : List Byte)
  /-- R90: A request without completion is retransmitted 40 µs after each transmission, up to three times. -/
  | retransmission (atMfe : Bool) (seq : BitVec 16)
  /-- R90: A request with no completion 200 µs after first transmission fails and is returned to its issuer. -/
  | requestTimeout (atMfe : Bool) (seq : BitVec 16)
  /-- R93: A write of BAR.MBX_TXCTL.GO sends a CONFIG or QUERY mailbox request. -/
  | mailboxRequest (v : Word)
  -- Plug, images, page swap (chapters 4, 8, 14)
  /-- R160: A write of PLG.CTL.GO starts a plug transfer between plug and scratchpad. -/
  | transfer (v : Word)
  -- Time (chapter 5)
  /-- R186: A PPS_IN rising edge is stamped and accepted or rejected. -/
  | ppsInEdge (t : SysTime)
  /-- R186: TIME.SRC_CMD GO with PATH 0 labels the last PPS edge. -/
  | srcLabel (v : Word)
  /-- R187: TIME.SRC_CMD GO with PATH 1 submits a soft-path edge time and label. -/
  | softSubmission (v : Word)
  /-- R198: A write of TIME.LEAP_CMD.ANNOUNCE adds or withdraws a pending leap on a master. -/
  | announce (v : Word)
  -- Channels (chapter 6)
  /-- R317: The INSERT instruction performs a list INSERT and returns its status. -/
  | insert (e : Fin 4) (d a b t : Fin 32) (ch : ChanSel)
  /-- R317: The CANCEL instruction performs a list CANCEL by tag and returns its status. -/
  | cancel (e : Fin 4) (d t : Fin 32) (ch : ChanSel)
  /-- R214: A write of CH.CTL.FLUSH removes every list entry that has not begun. -/
  | flush (c : Fin 64)
  /-- R206: A write of CH.CTL enables or reconfigures a channel subject to its checks. -/
  | channelEnable (c : Fin 64) (v : Word)
  /-- R218: A list entry whose fire time is reached executes its action. -/
  | dueKey (c : Fin 64)
  /-- R225: An HV entry whose gate time comes within the lead is sent to the MFE as SCHEDULE. -/
  | forward (c : Fin 64)
  /-- R227: An HV entry becomes fixed 100 µs before its gate time. -/
  | hvEntryBegin (c : Fin 64)
  /-- R232: A PULSE or PWM period boundary applies shadow values and counts the pulse train. -/
  | periodBoundary (c : Fin 64)
  /-- R238: A write of PG.CFG.APPLY requests a new pattern configuration at the next frame boundary. -/
  | apply (g : Fin 3)
  /-- R236: A write of PG.PLANES pushes two planes, waits for room or is discarded. -/
  | planesWrite (g : Fin 3) (v : Word)
  /-- R237: At a plane's end the shifter takes the next plane, holds on underrun, or applies a pending configuration. -/
  | planeBoundary (g : Fin 3)
  /-- R240: A qualified input edge sets the mode's results, feeds wheels or writes an edge-log record. -/
  | edge (c : Fin 64) (level : Bool) (t : SysTime)
  -- Angle engine (chapter 7)
  /-- R249: A wheel processes a tooth: matching, synchronisation, revolution count and prediction refresh. -/
  | tooth (w : Fin 8)
  /-- R253: No tooth for STALL takes a wheel to STOPPED. -/
  | stall (w : Fin 8)
  /-- R250: A write of WHL.SYN_HI queues a synthetic tooth or refuses it. -/
  | syntheticToothPush (w : Fin 8) (hi : Word)
  /-- R250: A write of WHL.CTL.FIFO_FLUSH discards every queued synthetic tooth. -/
  | fifoFlush (w : Fin 8)
  /-- R253: A write of WHL.CTL.RESYNC sends the wheel to SEEKING. -/
  | resync (w : Fin 8)
  /-- R248: A write of WHL.CTL enables or reconfigures a wheel subject to its checks. -/
  | wheelEnable (w : Fin 8) (v : Word)
  /-- R262: The periodic check arms a wheel-domain head within its arming window with a predicted fire time. -/
  | headArming (c : Fin 64)
  -- Embers and Hearth (chapter 8)
  /-- R275: A buffered store drains to its target, or faults at drain. -/
  | storeDrain (e : Fin 4) (dual : BitVec 9) (others : List (BitVec 9))
  /-- R281: An Ember drains its buffer, records EPC and CAUSE and enters the exception handler. -/
  | exception (e : Fin 4) (c : Exc) (addr : Word)
  /-- R279: An instruction stalled for 2^20 cycles is abandoned with a WATCHDOG exception. -/
  | watchdog (e : Fin 4)
  /-- R290: A task first exceeding its budget raises BUDGET_WARN and the BUDGET exception. -/
  | budgetWarn (e : Fin 4)
  /-- R290: A second budget excess in one run aborts the task. -/
  | budgetAbort (e : Fin 4)
  /-- R288: A write of 1 to HRT.READY makes a slot ready or sets RERUN. -/
  | ready (m : BitVec 64)
  /-- R288: A write of 1 to HRT.UNREADY withdraws a READY slot or clears RERUN. -/
  | unready (m : BitVec 64)
  /-- R282: A write of EMB.CTL.RESTART returns a STOPPED Ember to IDLE. -/
  | restart (e : Fin 4)
  /-- R293: A Hearth timer reaching its due time sets its event, readies its task and reloads its period. -/
  | timerFire (i : Fin 16)
  -- The instructions of an Ember, executed by Ember `e` (chapter 9)
  /-- R308: Loads an immediate into a register. -/
  | movi (e : Fin 4) (d : Fin 32) (imm : Word)
  /-- R308: Copies one register to another. -/
  | mov (e : Fin 4) (d a : Fin 32)
  /-- R308: Does nothing for one cycle. -/
  | nop (e : Fin 4)
  /-- R308: Adds two registers and sets flags. -/
  | add (e : Fin 4) (d a b : Fin 32)
  /-- R308: Adds an immediate to a register and sets flags. -/
  | addi (e : Fin 4) (d a : Fin 32) (imm : Word)
  /-- R308: Adds two registers with carry. -/
  | adc (e : Fin 4) (d a b : Fin 32)
  /-- R308: Adds an immediate with carry. -/
  | adci (e : Fin 4) (d a : Fin 32) (imm : Word)
  /-- R308: Subtracts two registers. -/
  | sub (e : Fin 4) (d a b : Fin 32)
  /-- R308: Subtracts an immediate. -/
  | subi (e : Fin 4) (d a : Fin 32) (imm : Word)
  /-- R308: Subtracts registers with borrow. -/
  | sbc (e : Fin 4) (d a b : Fin 32)
  /-- R308: Subtracts an immediate with borrow. -/
  | sbci (e : Fin 4) (d a : Fin 32) (imm : Word)
  /-- R308: Bitwise AND of two registers. -/
  | and (e : Fin 4) (d a b : Fin 32)
  /-- R308: Bitwise AND with an immediate. -/
  | andi (e : Fin 4) (d a : Fin 32) (imm : Word)
  /-- R308: Bitwise OR of two registers. -/
  | or (e : Fin 4) (d a b : Fin 32)
  /-- R308: Bitwise OR with an immediate. -/
  | ori (e : Fin 4) (d a : Fin 32) (imm : Word)
  /-- R308: Bitwise XOR of two registers. -/
  | xor (e : Fin 4) (d a b : Fin 32)
  /-- R308: Bitwise XOR with an immediate. -/
  | xori (e : Fin 4) (d a : Fin 32) (imm : Word)
  /-- R308: AND with the complement of a register. -/
  | andn (e : Fin 4) (d a b : Fin 32)
  /-- R308: AND with the complement of an immediate. -/
  | andni (e : Fin 4) (d a : Fin 32) (imm : Word)
  /-- R308: Sets flags from a register subtraction without writing. -/
  | cmp (e : Fin 4) (a b : Fin 32)
  /-- R308: Sets flags from an immediate subtraction without writing. -/
  | cmpi (e : Fin 4) (a : Fin 32) (imm : Word)
  /-- R308: Sets flags from a register AND without writing. -/
  | tst (e : Fin 4) (a b : Fin 32)
  /-- R308: Sets flags from an immediate AND without writing. -/
  | tsti (e : Fin 4) (a : Fin 32) (imm : Word)
  /-- R308: Signed minimum of two registers. -/
  | min (e : Fin 4) (d a b : Fin 32)
  /-- R308: Signed minimum with an immediate. -/
  | mini (e : Fin 4) (d a : Fin 32) (imm : Word)
  /-- R308: Signed maximum of two registers. -/
  | max (e : Fin 4) (d a b : Fin 32)
  /-- R308: Signed maximum with an immediate. -/
  | maxi (e : Fin 4) (d a : Fin 32) (imm : Word)
  /-- R308: Unsigned minimum of two registers. -/
  | minu (e : Fin 4) (d a b : Fin 32)
  /-- R308: Unsigned minimum with an immediate. -/
  | minui (e : Fin 4) (d a : Fin 32) (imm : Word)
  /-- R308: Unsigned maximum of two registers. -/
  | maxu (e : Fin 4) (d a b : Fin 32)
  /-- R308: Unsigned maximum with an immediate. -/
  | maxui (e : Fin 4) (d a : Fin 32) (imm : Word)
  /-- R309: Logical shift left by a register amount. -/
  | lsl (e : Fin 4) (d a b : Fin 32)
  /-- R309: Logical shift left by an immediate amount. -/
  | lsli (e : Fin 4) (d a k : Fin 32)
  /-- R309: Logical shift right by a register amount. -/
  | lsr (e : Fin 4) (d a b : Fin 32)
  /-- R309: Logical shift right by an immediate amount. -/
  | lsri (e : Fin 4) (d a k : Fin 32)
  /-- R309: Arithmetic shift right by a register amount. -/
  | asr (e : Fin 4) (d a b : Fin 32)
  /-- R309: Arithmetic shift right by an immediate amount. -/
  | asri (e : Fin 4) (d a k : Fin 32)
  /-- R309: Rotate right by a register amount. -/
  | ror (e : Fin 4) (d a b : Fin 32)
  /-- R309: Rotate right by an immediate amount. -/
  | rori (e : Fin 4) (d a k : Fin 32)
  /-- R309: Extracts a bit field. -/
  | bfx (e : Fin 4) (d a pos len1 : Fin 32)
  /-- R309: Inserts a bit field. -/
  | bfi (e : Fin 4) (d a pos len1 : Fin 32)
  /-- R309: Counts leading zeros. -/
  | clz (e : Fin 4) (d a : Fin 32)
  /-- R309: Counts one bits. -/
  | popc (e : Fin 4) (d a : Fin 32)
  /-- R310: 32-bit multiply. -/
  | mul (e : Fin 4) (d a b : Fin 32)
  /-- R310: Unsigned 64-bit multiply into a pair. -/
  | mulu (e : Fin 4) (d a b : Fin 32)
  /-- R310: Signed 64-bit multiply into a pair. -/
  | muls (e : Fin 4) (d a b : Fin 32)
  /-- R311: Performs n restoring division steps. -/
  | dstep (e : Fin 4) (d a : Fin 32) (n : Fin 64)
  /-- R312: CORDIC FN 0 computes cosine and sine of an angle in turns. -/
  | sincos (e : Fin 4) (d a : Fin 32)
  /-- R312: CORDIC FN 1 computes angle and magnitude of a vector. -/
  | atan2 (e : Fin 4) (d a b : Fin 32)
  /-- R312: CORDIC FN 2 computes a square root. -/
  | sqrt (e : Fin 4) (d a : Fin 32)
  /-- R313: Loads from scratchpad, control store or a register window. -/
  | ld (e : Fin 4) (d a : Fin 32) (imm : Word) (size : Fin 4) (signed : Bool) (others : BitVec 9)
  /-- R313: Enters a store into the store buffer. -/
  | st (e : Fin 4) (a b : Fin 32) (imm : Word) (size : Fin 4)
  /-- R314: Waits until the Ember's store buffer is empty. -/
  | fence (e : Fin 4)
  /-- R315: Reads system time into a register pair. -/
  | time (e : Fin 4) (d : Fin 32)
  /-- R315: Reads the Ember's identity and state fields. -/
  | who (e : Fin 4) (d : Fin 32)
  /-- R318: Pushes plane pairs into a pattern group's FIFO, waiting for room. -/
  | shift (e : Fin 4) (d : Fin 32) (g : Fin 3) (a : Fin 32) (n1 : Fin 8)
  /-- R319: Reads a wheel's interpolated position. -/
  | wpos (e : Fin 4) (d : Fin 32) (w : Fin 8)
  /-- R319: Returns a wheel's predicted time for a key. -/
  | wpred (e : Fin 4) (d b : Fin 32) (w : Fin 8)
  /-- R320: Sends a CONFIG or QUERY mailbox request from registers. -/
  | bsend (e : Fin 4) (d a : Fin 32) (type : Byte)
  /-- R321: Drains the buffer and starts a Geyser channel at a descriptor. -/
  | gstart (e : Fin 4) (d : Fin 32) (g : Fin 8) (a : Fin 32)
  /-- R322: Drains the buffer and sets a doorbell bit with an arrival strobe. -/
  | doorbell (e : Fin 4) (d : Bell)
  /-- R323: Ends the task on the Ember. -/
  | yield (e : Fin 4)
  /-- R324: Waits until an absolute or relative system time. -/
  | wait (e : Fin 4) (a : Fin 32) (fn : Fin 256)
  /-- R325: Conditional branch to a control-store address. -/
  | b (e : Fin 4) (c : Fin 16) (t : BitVec 13)
  /-- R325: Conditional call pushing the return address. -/
  | call (e : Fin 4) (c : Fin 16) (t : BitVec 13)
  /-- R325: Jumps to the address in a register. -/
  | jr (e : Fin 4) (a : Fin 32)
  /-- R325: Returns to the address popped from the return stack. -/
  | ret (e : Fin 4)
  /-- R323: Pops a shadow frame and returns from an interrupt. -/
  | reti (e : Fin 4)
  /-- R323: Returns from an exception to EMB.EPC. -/
  | eret (e : Fin 4)
  /-- R325: Branches if a register is zero. -/
  | bz (e : Fin 4) (a : Fin 32) (t : BitVec 13)
  /-- R325: Branches if a register is not zero. -/
  | bnz (e : Fin 4) (a : Fin 32) (t : BitVec 13)
  /-- R325: Decrements a register and branches if not zero. -/
  | dbnz (e : Fin 4) (a : Fin 32) (t : BitVec 13)
  -- Interrupt controller, scratchpad, Geyser (chapters 10, 11)
  /-- R332: A write of IC.LAT_SET sets a source's latch bit and gives an arrival strobe. -/
  | latSet (i : Fin 4) (v : Word)
  /-- R351: A corrected scratchpad word is written back when its bank is next free. -/
  | writeBack (a : Word)
  /-- R359: A write of SPM.POWER changes a bank's power state. -/
  | powerWrite (hi : Bool) (v : Word) (reached : Nat)
  /-- R359: A waking bank becomes On after its delay and any zero fill. -/
  | bankOn (b : Fin 17)
  /-- R362: A write of SPM.MARCH_CTL.GO marches the named banks. -/
  | march (preserve : Bool) (banks : BitVec 17)
  /-- R362: The last bank's march ends, repairs are applied and interrupt 125 is strobed. -/
  | marchDone (fails : List (Nat × Nat))
  /-- R368: A write of GSR.CTL.GO checks the first descriptor and starts a Geyser channel. -/
  | geyserGo (g : Fin 8)
  /-- R373: A write of GSR.CTL.RESUME restarts a stopped or aborted channel from its kept position. -/
  | resume (g : Fin 8)
  /-- R376: A write of GSR.CTL.ABORT stops a channel at its next element boundary. -/
  | abort (g : Fin 8) (moved : Nat)
  /-- R370: A descriptor's last write is performed, setting DONE or END and reading any chained descriptor. -/
  | descriptorComplete (g : Fin 8)
  /-- R372: A Geyser bus error stops every running channel and sets BUSERR. -/
  | busStop (g : Fin 8) (moved : List Nat)
  -- Ring and lines (chapter 12)
  /-- R389: A port takes a received frame: alignment, frame number, ring control, time transfer and slots. -/
  | frameReceived (p : Fin 4) (full : Bool) (stamp : SysTime) (power : BitVec 16) (f : List (Nat × Byte)) (bad : List Nat) (corr : Nat)
  /-- R386: A node builds a frame for transmission, with election, cells, slots and any page change. -/
  | frameBuilt (p : Fin 4) (stamp : SysTime) (slips : List (Fin 4))
  /-- R402: A port declares LOS, LOL, OOF, LOF, DEG or RDI when its condition holds. -/
  | defectDeclared (p : Fin 4) (d : Defect) (power : BitVec 16)
  /-- R402: A port clears a defect when its clearing condition holds. -/
  | defectCleared (p : Fin 4) (d : Cleared)
  /-- R398: A port advances through T1 to T4 and UP as training conditions are met. -/
  | trainingStep (p : Fin 4)
  /-- R398: T3 not completed within 1000 ms returns the link to half rate. -/
  | fallback (p : Fin 4)
  /-- R399: A write of LINE.CTL.RETRAIN, or SF held 1 ms, sends an UP port back to T1. -/
  | retrain (p : Fin 4) (write : Bool)
  /-- R396: An elastic store out of range is re-centred. -/
  | slip (p : Fin 2) (fill : BitVec 16)
  /-- R397: The master's frame aligner moves its delay by one frame. -/
  | masterSlip (p : Fin 2) (again : Bool) (align : BitVec 16)
  /-- R406: A port becoming unfit, after WRAP_HOLD where it applies, wraps the node at that port. -/
  | wrap (p : Fin 2)
  /-- R408: The wait-to-restore timer ends and WTR_DONE is sent. -/
  | wtrDone (p : Fin 2)
  /-- R408: After agreement the node unwraps at its next multiframe boundary. -/
  | unwrap (p : Fin 2)
  /-- R413: A write of RING.CTL.BYPASS_REQ sends LEAVING and withdraws insertion. -/
  | bypassReq (v : Word)
  -- TSI, Flue, performance (chapter 13)
  /-- R428: An access to TSI.CM_DATA reads or writes a connection-memory entry. -/
  | cmData (write : Bool) (v : Word)
  /-- R438: A FLUE port frame is sent on TXD at each drop-port frame start. -/
  | txdFrame (p : Fin 2)
  /-- R440: A FLUE RXD frame is taken whole into span bytes and PORT cells, or discarded on CRC. -/
  | rxdFrame (p : Fin 2) (b : List Byte)
  /-- R448: A write of PERF.SEL copies the selected bin into PERF.D0–D10. -/
  | perfSel (v : Word)
  -- The work engine (chapter 14)
  /-- R459: A write of WRK.OR_CMD.GO checks, holds or commits a new work item. -/
  | origination (v : Word)
  /-- R474: Peat finishes writing and verifying a journal or custody record, which then takes effect. -/
  | recordCommit (fails : Fin 3)
  /-- R465: The retry timer resends an OFFER or QUERY to a target. -/
  | retry (slot : Fin 2048) (t : Fin 128)
  /-- R465: The poll timer resends an OFFER to an ACCEPTED target. -/
  | poll (slot : Fin 2048) (t : Fin 128)
  /-- R465: An item's offer lifetime ends and its OFFERED targets move to QUERYING. -/
  | expires (slot : Fin 2048)
  /-- R468: A write of WRK.ABANDON sets every non-final target of that address to ABANDONED. -/
  | abandon (v : Word)
  -- Faults, Caldera and Sinter (chapter 15)
  /-- R488: Half of a pending entry's escalation time passes and WARNED is set. -/
  | warned (i : Fin 8)
  /-- R490: A pending CONTAINED entry's timer expires and a FATAL copy is logged. -/
  | escalation (i : Fin 8)
  /-- R489: A write of FLT.ACK frees a matching pending entry. -/
  | ack (v : Word)
  /-- R495: A write of FLT.INJ.ARM arms a checker for injection, or is refused. -/
  | arm (v : Word)
  /-- R492: A parity error in the collector's own state takes the node straight to Caldera. -/
  | selfParity (off : BitVec 16)
  /-- R500: A FATAL fault halts the Embers, sets fail states, leaves the ring and writes a capture record. -/
  | caldera (bad : Bool)
  /-- R509: The TAP instruction resumes a frozen node's clocks. -/
  | sinterResume (frzHigh : Bool)
  /-- R511: The TAP instruction reads a word of captured state by segment and word. -/
  | sinterRead (seg word : BitVec 16)
  /-- R512: The TAP instruction reads or writes one scratchpad word while frozen. -/
  | memacc (write : Bool) (addr : BitVec 20) (data : BitVec 64)
  /-- R508: The TAP instruction drives output boundary cells while frozen. -/
  | extest (pins shift : BitVec 149)
  /-- R508: The TAP instruction samples and preloads the boundary-scan register. -/
  | samplePreload (pins shift : BitVec 149)
  -- Register accesses (chapter 0)
  /-- R9: A read of an RL field latches its partner registers for the reading master. -/
  | latchedRead (m : Fin 11) (a : Word)
  /-- R6: A read of an RC field returns and clears it. -/
  | clearingRead (m : Fin 11) (a : Word)
  /-- R294: A write to a register with no row of its own sets, W1S-sets or W1C-clears its fields. -/
  | registerWrite (m : Fin 11) (a v : Word)
  -- Rows that close the table
  /-- R80: An interruption of L1–N longer than the HV-side hold-up resets or unpowers the MFE, which leaves every output open and stops sending frames. -/
  | mfeSupplyLost (unpowered : Bool)
  /-- R99: The MFE tracker dates a zero crossing of a sampled phase, updates its phase angle and presence, and emits that phase's teeth and MEASURE report. -/
  | mainsZeroCrossing (p : Fin 3) (t : SysTime) (rms freq : BitVec 16) (thd : Byte) (cycle : Word)
  /-- R80: Every 250 µs from boot the MFE sends a STATUS frame with its flags, output levels and HVI levels. -/
  | statusFrameSend (temp : Byte) (overtemp : Bool)
  /-- R78: The bypass supervisor senses the switch reach the inserted or bypass position, after which the node transmits T1 frames with INSERTING or its transmitters go dark. -/
  | switchPosition (inserted : Bool)
  /-- R417: Launch power outside Table 12-2 for 10 ms while a port transmits sets LINE.EVENT.TX_FAIL and raises the CONTAINED TX_FAIL fault. -/
  | txFail (p : Fin 4) (power : BitVec 16)
  /-- R475: An applied journal record becomes spent when system time reaches DUE + 2^29 or its wheel passes REV by 2, and is freed unless it is a watermark record. -/
  | spent (slot : Fin 4096)
  -- ROWS WITHOUT OPERANDS
  -- Power, reset and Kindling (chapters 1 to 3)
  /-- R102: A qualified low on RESET_N outside Caldera and plug hold stops acceptance, completes records in flight and resets the node within 3 ms. -/
  | resetN
  /-- R31: RESET_N high for 10 µs after being held low lets Kindling begin K0. -/
  | resetNRelease
  /-- R101: A qualified RESET_N while in Caldera performs a Caldera-exit reset. -/
  | calderaExit
  /-- R104: Kindling qualifies power, locks the PLLs, switches on PVDD and VIO and loads system time from the RTC. -/
  | k0
  /-- R106: The plug not shown present within 100 ms of K1 start raises PLUG_ABSENT and enters Caldera. -/
  | plugAbsent
  /-- R114: Kindling verifies both image copies, selects one and fixes the run level. -/
  | k4
  /-- R121: Kindling runs the MFE handshake and decides whether the MFE ROM is accepted. -/
  | k6
  /-- R122: The barrier link not up within 300 ms of K6 start ends K6 with HV_PENDING set. -/
  | mfeAbsent
  /-- R123: Kindling starts the heartbeat and monitor receivers and observes the ring before requesting insertion. -/
  | k7
  /-- R126: On insertion or K7 budget expiry the node releases the Embers, sends SET_NOW, starts the work engine and shows run. -/
  | k8
  /-- R73: At 20 ms after PWRFAIL, Hearth halts each Ember and Peat writes the shutdown record. -/
  | pwrfailHalt
  /-- R73: At 21 ms after PWRFAIL the heartbeat and barrier TIME frames stop and the logic side is held in reset. -/
  | pwrfailHeartbeatStop
  /-- R55: The plug becoming absent after K3 outside hold and Caldera stops plug accesses and raises a FATAL fault. -/
  | plugRemoved
  /-- R57: PLUG_HOLD_N low for 10 µs drains the node, sets Caldera outputs, closes bypass, halts Embers and releases the plug. -/
  | plugHold
  /-- R77: The supervisor seeing no heartbeat edge for 2 ms de-energises the coil and the switch goes to bypass. -/
  | heartbeatLost
  /-- R78: With heartbeat present 10 ms and an insertion request, the supervisor energises the coil and the switch inserts. -/
  | coilEnergise
  /-- R78: Switch position disagreeing with coil drive for 12 ms raises a TIMEOUT fault. -/
  | switchMismatch
  -- Barrier and MFE (chapter 2)
  /-- R80: The MFE boots within 200 ms of L1–N rising and begins sending STATUS frames. -/
  | mfeBoot
  /-- R79: The MFE seeing no valid frame for 1 ms discards its schedule and holds outputs. -/
  | mfeHeartbeatLost
  /-- R79: At the end of the 100 ms hold the MFE applies its last fail state, or opens every output. -/
  | mfeHoldEnd
  /-- R92: No valid frame for 1 ms declares the barrier link down and fails outstanding requests. -/
  | linkDown
  /-- R81: The node runs HELLO, TIME, CONFIG, FAILSTATE and SET_NOW with the MFE when the link comes up or RESTARTED is seen. -/
  | handshake
  -- Plug, images, page swap (chapters 4, 8, 14)
  /-- R161: A plug transfer ends, setting RESULT and raising interrupt 92. -/
  | transferEnd
  /-- R165: A node named in the ROSTER refuses an image OFFER or becomes its receiver. -/
  | imageOffer
  /-- R166: A receiver writes a lacking chunk into its inactive copy and records it held. -/
  | chunk
  /-- R166: The distributor takes a receiver's STATUS cell and records its NEED, STAGED, REFUSED or ARMED state. -/
  | imageStatus
  /-- R173: A ROSTER node lacking a newer beaconed image requests every chunk from the beacon's origin. -/
  | beacon
  /-- R166: The distributor sends its OFFER each second and a round of missing chunks. -/
  | offerRound
  /-- R166: A receiver still needing chunks sends a NEED STATUS each second. -/
  | needReport
  /-- R168: When all ROSTER nodes report or STAGE_LIMIT passes, the distributor chooses ACT and originates ACTIVATE_IMAGE items. -/
  | arming
  /-- R170: At ACT minus 10 s an armed node loads the staged microcode and TSI page into the inactive pages. -/
  | preload
  /-- R297: SWAPWAIT before an armed window Hearth stops dispatch and lets tasks and handlers finish. -/
  | draining
  /-- R298: At the window's frame boundary a quiescent node swaps control-store and connection pages, or abandons the swap. -/
  | pageSwap
  -- Time (chapter 5)
  /-- R186: A source with no edge or submission for its limit becomes invalid. -/
  | sourceInvalid
  /-- R185: A filtered offset above 1 ms at the end of a filter period steps system time. -/
  | step
  /-- R182: A filtered offset within ±1 µs for 2 s moves the time state to LOCKED. -/
  | locked
  /-- R182: HOLD_MAX hours in HOLDOVER move the time state to FREE. -/
  | holdoverExpired
  /-- R200: At each system second boundary the node sets SECOND, pulses PPS_OUT, writes the RTC, applies leaps and classifies line seconds. -/
  | second
  /-- R201: REF absent or out of range raises a FATAL clock fault. -/
  | refFail
  /-- R201: The core PLL losing lock raises a FATAL clock fault. -/
  | coreUnlock
  /-- R201: The auxiliary PLL losing lock raises a FATAL clock fault. -/
  | auxUnlock
  /-- R201: A missing or out-of-range RTC tick raises RTC_FAIL and stops RTC writes. -/
  | rtcFail
  -- Embers and Hearth (chapter 8)
  /-- R339: An eligible Ember takes a presented source, pushing a shadow frame and marking it in service. -/
  | interrupt
  /-- R289: Hearth dispatches the chosen ready slot to an idle Ember. -/
  | dispatch
  /-- R285: The scrubber reads and parity-checks one word of the active page every 16 384 cycles. -/
  | scrub
  /-- R286: A word with a parity error is rewritten from the plug and waiting Embers continue. -/
  | csScrubbed
  /-- R286: A word not rewritten within 100 µs raises a FATAL control-store fault. -/
  | csUncorr
  -- Ring and lines (chapter 12)
  /-- R411: The ring line requests insertion when its observation conditions hold. -/
  | insertionRequest
  /-- R412: No port UP 5 s after insertion withdraws the request and starts a backoff. -/
  | insertFailed
  /-- R412: The insertion backoff expires and insertion may be requested again. -/
  | backoff
  -- TSI, Flue, performance (chapter 13)
  /-- R429: A write of TSI.CTL.SWAP requests a connection-page swap at frame F. -/
  | swap
  /-- R431: A write of TSI.CTL.COPY starts copying the active page into standby. -/
  | copy
  /-- R431: The page copy ends and COPY_BUSY clears. -/
  | copyDone
  /-- R429: A write of TSI.CTL.CANCEL withdraws a pending swap. -/
  | swapCancel
  /-- R446: A performance bin closes 10 s after its interval and BIN records are queued. -/
  | binClose
  -- The work engine (chapter 14)
  /-- R459: A held origination not served within WRK.HOLD is refused. -/
  | custodyFull
  /-- R462: A target takes a work OFFER and accepts, defers, refuses or reports it. -/
  | offer
  /-- R465: The originator takes a REPORT and moves the target's custody state. -/
  | report
  /-- R464: A target answers a QUERY with the item's state or NOT_HELD. -/
  | query
  /-- R470: The head item inserts an event-list entry when within its horizon. -/
  | chInsert
  /-- R470: The head item cancels an event-list entry when within its horizon. -/
  | chCancel
  /-- R471: The head item writes a value and due time into the value table. -/
  | setValue
  /-- R169: The head item arms, disarms or finds no staged image. -/
  | activateImage
  /-- R470: A blocked head item is tried again when its list frees or each millisecond. -/
  | headRetry
  -- Faults, Caldera and Sinter (chapter 15)
  /-- R486: The collector accepts a fault message, logs and counts it and queues its report. -/
  | faultMessage
  /-- R487: A write of FLT.CTL.CLEAR_FIRST clears the first-error capture. -/
  | clearFirst
  /-- R494: An FLT_N pulse in pulse mode ends after PULSE_MS. -/
  | pulseEnd
  /-- R505: FRZ_N held low stops the clocks in order, bypass first if FRZB is fitted. -/
  | freeze
  /-- R508: The TAP instruction selects the one-bit bypass register. -/
  | bypass
  -- Rows that close the table
  /-- R85: Every 250 µs the logic side sends a TIME frame stamped with the system time at which its comma leaves. -/
  | timeFrameSend
  /-- R197: The RTC's supercapacitor falls too low to keep counting and the RTC sets RTC_LOST. -/
  | rtcLost
  /-- R199: PPS_OUT returns low when its pulse width set by TIME.CTL.PPS_OUT_WIDTH has elapsed. -/
  | ppsOutFall
  /-- R173: Every 10 s a node running a DISTRIBUTE image queues a BEACON cell carrying its running SEQUENCE and run level. -/
  | beaconSend
deriving DecidableEq, Repr

end Sys2Proof
end

