-- ==== Sys2Proof/Config.lean ====
section
/-! DEFINITION. What the spec leaves to the implementation or leaves open. Each is an opaque constant: no
proof can see a value of it (log entries 4, 5, 6, 7). -/

namespace Sys2Proof.Config

/-- The module serial number, a factory value (Table 01-16). -/
opaque moduleSerial : BitVec 64

/-- Where the free-running cycle counter of clock domain `d` starts (R181). -/
opaque domainPhase (d : Nat) : BitVec 16

/-- The counter of domain `d`, whose clock is slower than CORE's and in no fixed ratio to it, adds one in CORE cycle `cycle`. -/
opaque domainTicks (d cycle : Nat) : Bool

/-- Domain `d` takes a new sample of system time in CORE cycle `cycle` (R181). -/
opaque domainSamples (d cycle : Nat) : Bool

/-- A value the spec leaves open, fresh for each `n`. -/
opaque freeValue (n : Nat) : BitVec 64

/-- A byte of scratchpad with no defined content (R359): address and the draw it belongs to. -/
opaque freeByte (n addr : Nat) : Byte

/-- Where CORDIC's result for these operands falls within the accuracy of Table 09-6. -/
opaque cordicError (result : Nat) (a b : Word) : BitVec 64

/-- The frequency correction [0.001 ppm] of the critically damped loop of this bandwidth [mHz] after a sample of the offset, from
the correction before it (R184). -/
opaque loopFreq (bandwidth : Nat) (offset before : Int) : Int

/-- The filter of R184 over the samples of one filter period, newest first. -/
opaque timeFilter (samples : List Int) : Int

end Sys2Proof.Config
end

