-- ==== Sys2Proof/Machine/Tab.lean ====
section
/-! DEFINITION. Sparse data by key in one canonical form: a list of key and value pairs, keys strictly
rising, no entry equal to what an unlisted key reads as. Scratchpad, plug, registers, control store
and connection memory are all held so. -/

namespace Sys2Proof.Machine

variable {α : Type} [DecidableEq α]

/-- What key `k` holds; an unlisted key reads `d`. -/
def tabGet (d : α) (t : List (Nat × α)) (k : Nat) : α :=
  match t with
  | [] => d
  | e :: t => if e.1 = k then e.2 else tabGet d t k

/-- Put one entry at its place among rising keys. -/
def tabInsert (t : List (Nat × α)) (k : Nat) (v : α) : List (Nat × α) :=
  match t with
  | [] => [(k, v)]
  | e :: t => if k < e.1 then (k, v) :: e :: t else e :: tabInsert t k v

/-- Drop the entry of `k`. -/
def tabErase (t : List (Nat × α)) (k : Nat) : List (Nat × α) :=
  t.filter (fun e => decide (e.1 ≠ k))

/-- Key `k` now holds `v`; writing what an unlisted key reads as removes the entry. -/
def tabSet (d : α) (t : List (Nat × α)) (k : Nat) (v : α) : List (Nat × α) :=
  if v = d then tabErase t k else tabInsert (tabErase t k) k v

/-- Keys strictly rising above `lo` (none: from 0). -/
def tabRising : Option Nat → List (Nat × α) → Bool
  | _, [] => true
  | lo, e :: t => (match lo with | none => true | some l => decide (l < e.1)) && tabRising (some e.1) t

/-- The canonical form. -/
def tabWf (d : α) (t : List (Nat × α)) : Bool :=
  tabRising none t && t.all (fun e => decide (e.2 ≠ d))

/-- Set a run of consecutive keys from a list of values. -/
def tabSetRun (d : α) (t : List (Nat × α)) (k : Nat) : List α → List (Nat × α)
  | [] => t
  | v :: vs => tabSetRun d (tabSet d t k v) (k + 1) vs

/-- Read a run of `n` consecutive keys. -/
def tabGetRun (d : α) (t : List (Nat × α)) (k n : Nat) : List α :=
  (List.range n).map fun i => tabGet d t (k + i)

/-- Drop every entry with a key in `[lo, hi)`: the whole range reads `d`. -/
def tabClear (t : List (Nat × α)) (lo hi : Nat) : List (Nat × α) :=
  t.filter (fun e => decide (e.1 < lo ∨ hi ≤ e.1))

/-- Keys `lo` onwards hold the values of a list, whatever they held before. -/
def tabSplice (d : α) (t : List (Nat × α)) (lo : Nat) (vs : List α) : List (Nat × α) :=
  t.filter (fun e => decide (e.1 < lo)) ++
  ((vs.zipIdx lo).map (fun p => (p.2, p.1))).filter (fun e => decide (e.2 ≠ d)) ++
  t.filter (fun e => decide (lo + vs.length ≤ e.1))

end Sys2Proof.Machine
end

