-- ==== Sys2Proof/Machine/Field.lean ====
section
/-! DEFINITION. A register field as the field tables give it (R6): its place, its access code, its
reset value. -/

namespace Sys2Proof.Machine

/-- The access codes of Table 00-3. -/
inductive Access where
  | ro | rw | wo | w1s | w1c | rc | rl
deriving DecidableEq, Repr

/-- One row of a register field table: bits `[hi:lo]` of the register at `addr`. -/
structure Field where
  addr : Nat
  hi : Nat
  lo : Nat
  acc : Access
  reset : Nat
deriving DecidableEq, Repr

/-- The field's width in bits. -/
def Field.width (f : Field) : Nat := f.hi + 1 - f.lo

/-- The field's bits of a register word. -/
def Field.mask (f : Field) : Word := BitVec.ofNat 32 ((2 ^ f.width - 1) * 2 ^ f.lo)

/-- The field's value in a word. -/
def Field.of (f : Field) (w : Word) : Nat := (w.toNat / 2 ^ f.lo) % 2 ^ f.width

/-- A word with the field replaced by `v`, taken modulo the field's width. -/
def Field.into (f : Field) (v : Nat) (w : Word) : Word :=
  (w &&& ~~~f.mask) ||| BitVec.ofNat 32 ((v % 2 ^ f.width) * 2 ^ f.lo)

/-- The register file: words by address, an unlisted register reads 0 (a register whose reset value is
not 0 is listed at reset). -/
abbrev Regs := List (Nat × Word)

def regGet (r : Regs) (f : Field) : Nat := f.of (tabGet 0 r f.addr)

def regPut (r : Regs) (f : Field) (v : Nat) : Regs := tabSet 0 r f.addr (f.into v (tabGet 0 r f.addr))

/-- One register of a window: its fields, for each of its `count` instances `stride` bytes apart. -/
structure RegRow where
  addr : Nat
  count : Nat
  stride : Nat
  fields : Nat → List Field

/-- The instance of row `r` that stands at address `a`. -/
def RegRow.instance? (r : RegRow) (a : Nat) : Option Nat :=
  let i := (a - r.addr) / r.stride
  if r.addr ≤ a ∧ (a - r.addr) % r.stride = 0 ∧ i < r.count then some i else none

/-- The fields of the register at address `a`; none where the window holds no register. -/
def findReg (rows : List RegRow) (a : Nat) : Option (List Field) :=
  match rows with
  | [] => none
  | r :: rs => match r.instance? a with
    | some i => some (r.fields i)
    | none => findReg rs a

/-- The word a list of fields holds after reset. -/
def resetWord (fs : List Field) : Word := fs.foldl (fun w f => f.into f.reset w) 0

end Sys2Proof.Machine
end

