-- ==== Sys2Proof/Machine/Fields.lean ====
section
/-! DEFINITION. Every field of every register of the spec's tables (R51, R93, R131, R160, R202, R205, R209,
R224, R234, R242, R247, R259, R263, R267, R282, R291, R293, R299, R344, R364, R376, R415, R432, R448, R449, R478,
R479, R513), and the sixteen windows of chapter 17 as lists of registers. `n` is the instance. -/

namespace Sys2Proof.Machine.F

/-! ## Window 0x40000000 -/

/-! HRT_STATUS (R299, chapter 08) -/
def HRT_STATUS_DRAINING : Field := ⟨0x40000000, 16, 16, .ro, 0⟩
def HRT_STATUS_EMBER : Field := ⟨0x40000000, 15, 0, .ro, 0⟩

/-! HRT_EXC_VEC (R299, chapter 08) -/
def HRT_EXC_VEC_ENTRY : Field := ⟨0x40000004, 12, 0, .rw, 0⟩

/-! HRT_SWAP (R299, chapter 08) -/
def HRT_SWAP_SWAPWAIT : Field := ⟨0x40000008, 31, 16, .rw, 512⟩
def HRT_SWAP_LAST_ABANDONED : Field := ⟨0x40000008, 3, 3, .ro, 0⟩
def HRT_SWAP_PRELOADED : Field := ⟨0x40000008, 2, 2, .ro, 0⟩
def HRT_SWAP_ACTIVE_PAGE : Field := ⟨0x40000008, 0, 0, .ro, 0⟩

/-! HRT_CNT (R299, chapter 08) -/
def HRT_CNT_COALESCED : Field := ⟨0x4000000C, 31, 16, .rc, 0⟩
def HRT_CNT_ABORTED : Field := ⟨0x4000000C, 15, 0, .rc, 0⟩

/-! HRT_READY (R299, chapter 08) -/
def HRT_READY_READY (n : Nat) : Field := ⟨0x40000010 + 0x4 * n, 31, 0, .w1s, 0⟩

/-! HRT_UNREADY (R299, chapter 08) -/
def HRT_UNREADY_READY (n : Nat) : Field := ⟨0x40000018 + 0x4 * n, 31, 0, .w1c, 0⟩

/-! HRT_RUNNING (R299, chapter 08) -/
def HRT_RUNNING_RUNNING (n : Nat) : Field := ⟨0x40000020 + 0x4 * n, 31, 0, .ro, 0⟩

/-! HRT_TMR_EVENT (R299, chapter 08) -/
def HRT_TMR_EVENT_FIRED : Field := ⟨0x40000028, 15, 0, .w1c, 0⟩

/-! HRT_DOORBELL (R299, chapter 08) -/
def HRT_DOORBELL_RUNG : Field := ⟨0x4000002C, 3, 0, .w1c, 0⟩

/-! EMB_CTL (R282, chapter 08) -/
def EMB_CTL_RESTART (n : Nat) : Field := ⟨0x40000040 + 0x20 * n, 0, 0, .wo, 0⟩

/-! EMB_STATE (R282, chapter 08) -/
def EMB_STATE_SLOT (n : Nat) : Field := ⟨0x40000044 + 0x20 * n, 29, 24, .ro, 0⟩
def EMB_STATE_IN_TASK (n : Nat) : Field := ⟨0x40000044 + 0x20 * n, 23, 23, .ro, 0⟩
def EMB_STATE_EXC_ACTIVE (n : Nat) : Field := ⟨0x40000044 + 0x20 * n, 22, 22, .ro, 0⟩
def EMB_STATE_NEST (n : Nat) : Field := ⟨0x40000044 + 0x20 * n, 21, 19, .ro, 0⟩
def EMB_STATE_SBUF (n : Nat) : Field := ⟨0x40000044 + 0x20 * n, 18, 15, .ro, 0⟩
def EMB_STATE_PC (n : Nat) : Field := ⟨0x40000044 + 0x20 * n, 12, 0, .ro, 0⟩

/-! EMB_EPC (R282, chapter 08) -/
def EMB_EPC_FLAGS (n : Nat) : Field := ⟨0x40000048 + 0x20 * n, 19, 16, .rw, 0⟩
def EMB_EPC_PC (n : Nat) : Field := ⟨0x40000048 + 0x20 * n, 12, 0, .rw, 0⟩

/-! EMB_CAUSE (R282, chapter 08) -/
def EMB_CAUSE_CAUSE (n : Nat) : Field := ⟨0x4000004C + 0x20 * n, 7, 0, .ro, 0⟩

/-! EMB_EADDR (R282, chapter 08) -/
def EMB_EADDR_ADDR (n : Nat) : Field := ⟨0x40000050 + 0x20 * n, 31, 0, .ro, 0⟩

/-! EMB_RUNCYC (R282, chapter 08) -/
def EMB_RUNCYC_CYCLES (n : Nat) : Field := ⟨0x40000054 + 0x20 * n, 31, 0, .ro, 0⟩

/-! TSK_CFG (R291, chapter 08) -/
def TSK_CFG_AFFINITY (n : Nat) : Field := ⟨0x40000100 + 0x10 * n, 23, 20, .rw, 0xF⟩
def TSK_CFG_PRIO (n : Nat) : Field := ⟨0x40000100 + 0x10 * n, 18, 16, .rw, 7⟩
def TSK_CFG_ENTRY (n : Nat) : Field := ⟨0x40000100 + 0x10 * n, 12, 0, .rw, 0⟩

/-! TSK_BUDGET (R291, chapter 08) -/
def TSK_BUDGET_BUDGET (n : Nat) : Field := ⟨0x40000104 + 0x10 * n, 23, 0, .rw, 0⟩

/-! TSK_ARG (R291, chapter 08) -/
def TSK_ARG_ARG (n : Nat) : Field := ⟨0x40000108 + 0x10 * n, 31, 0, .rw, 0⟩

/-! TSK_STAT (R291, chapter 08) -/
def TSK_STAT_RUNS (n : Nat) : Field := ⟨0x4000010C + 0x10 * n, 31, 16, .ro, 0⟩
def TSK_STAT_LAST_EMBER (n : Nat) : Field := ⟨0x4000010C + 0x10 * n, 11, 10, .ro, 0⟩
def TSK_STAT_ABORTED (n : Nat) : Field := ⟨0x4000010C + 0x10 * n, 9, 9, .w1c, 0⟩
def TSK_STAT_RERUN (n : Nat) : Field := ⟨0x4000010C + 0x10 * n, 8, 8, .ro, 0⟩
def TSK_STAT_STATE (n : Nat) : Field := ⟨0x4000010C + 0x10 * n, 1, 0, .ro, 0⟩

/-! TMR_CTL (R293, chapter 08) -/
def TMR_CTL_EN (n : Nat) : Field := ⟨0x40000600 + 0x10 * n, 31, 31, .rw, 0⟩
def TMR_CTL_TASK_EN (n : Nat) : Field := ⟨0x40000600 + 0x10 * n, 30, 30, .rw, 0⟩
def TMR_CTL_TASK (n : Nat) : Field := ⟨0x40000600 + 0x10 * n, 21, 16, .rw, 0⟩
def TMR_CTL_MISSED (n : Nat) : Field := ⟨0x40000600 + 0x10 * n, 15, 0, .rc, 0⟩

/-! TMR_DUE_LO (R293, chapter 08) -/
def TMR_DUE_LO_DUE (n : Nat) : Field := ⟨0x40000604 + 0x10 * n, 31, 0, .rl, 0⟩

/-! TMR_DUE_HI (R293, chapter 08) -/
def TMR_DUE_HI_DUE (n : Nat) : Field := ⟨0x40000608 + 0x10 * n, 31, 0, .rw, 0⟩

/-! TMR_PERIOD (R293, chapter 08) -/
def TMR_PERIOD_PERIOD (n : Nat) : Field := ⟨0x4000060C + 0x10 * n, 31, 0, .rw, 0⟩

/-! ## Window 0x40010000 -/

/-! IC_PEND (R344, chapter 10) -/
def IC_PEND_P (n : Nat) : Field := ⟨0x40010000 + 0x4 * n, 31, 0, .ro, 0⟩

/-! IC_EN_SET (R344, chapter 10) -/
def IC_EN_SET_EN (n : Nat) : Field := ⟨0x40010010 + 0x4 * n, 31, 0, .w1s, 0⟩

/-! IC_EN_CLR (R344, chapter 10) -/
def IC_EN_CLR_EN (n : Nat) : Field := ⟨0x40010020 + 0x4 * n, 31, 0, .w1c, 0⟩

/-! IC_LAT_SET (R344, chapter 10) -/
def IC_LAT_SET_L (n : Nat) : Field := ⟨0x40010030 + 0x4 * n, 31, 0, .w1s, 0⟩

/-! IC_LAT_CLR (R344, chapter 10) -/
def IC_LAT_CLR_L (n : Nat) : Field := ⟨0x40010040 + 0x4 * n, 31, 0, .w1c, 0⟩

/-! IC_ARRIVED (R344, chapter 10) -/
def IC_ARRIVED_ARR (n : Nat) : Field := ⟨0x40010050 + 0x4 * n, 31, 0, .w1c, 0⟩

/-! IC_INSERV (R344, chapter 10) -/
def IC_INSERV_INS (n : Nat) : Field := ⟨0x40010060 + 0x4 * n, 31, 0, .ro, 0⟩

/-! IC_CNT (R344, chapter 10) -/
def IC_CNT_C3 (n : Nat) : Field := ⟨0x40010080 + 0x4 * n, 29, 24, .rc, 0⟩
def IC_CNT_C2 (n : Nat) : Field := ⟨0x40010080 + 0x4 * n, 21, 16, .rc, 0⟩
def IC_CNT_C1 (n : Nat) : Field := ⟨0x40010080 + 0x4 * n, 13, 8, .rc, 0⟩
def IC_CNT_C0 (n : Nat) : Field := ⟨0x40010080 + 0x4 * n, 5, 0, .rc, 0⟩

/-! IC_SRC (R344, chapter 10) -/
def IC_SRC_ROUTE (n : Nat) : Field := ⟨0x40010100 + 0x4 * n, 11, 8, .rw, 0⟩
def IC_SRC_PRIO (n : Nat) : Field := ⟨0x40010100 + 0x4 * n, 2, 0, .rw, 0⟩

/-! IC_ECTL (R344, chapter 10) -/
def IC_ECTL_MODE (n : Nat) : Field := ⟨0x40010300 + 0x20 * n, 31, 31, .rw, 0⟩
def IC_ECTL_SCAN_ENTRY (n : Nat) : Field := ⟨0x40010300 + 0x20 * n, 28, 16, .rw, 0⟩
def IC_ECTL_VBASE (n : Nat) : Field := ⟨0x40010300 + 0x20 * n, 12, 7, .rw, 0⟩
def IC_ECTL_CEIL (n : Nat) : Field := ⟨0x40010300 + 0x20 * n, 2, 0, .rw, 0⟩

/-! IC_ESTAT (R344, chapter 10) -/
def IC_ESTAT_LAST_VALID (n : Nat) : Field := ⟨0x40010304 + 0x20 * n, 23, 23, .ro, 0⟩
def IC_ESTAT_LAST (n : Nat) : Field := ⟨0x40010304 + 0x20 * n, 22, 16, .ro, 0⟩
def IC_ESTAT_LEVEL (n : Nat) : Field := ⟨0x40010304 + 0x20 * n, 2, 0, .ro, 0⟩

/-! IC_ETAKEN (R344, chapter 10) -/
def IC_ETAKEN_TAKEN (n : Nat) : Field := ⟨0x40010308 + 0x20 * n, 31, 0, .ro, 0⟩

/-! IC_SCAN0 (R344, chapter 10) -/
def IC_SCAN0_SCAN (n : Nat) : Field := ⟨0x40010310 + 0x20 * n, 31, 0, .ro, 0⟩

/-! IC_SCAN1 (R344, chapter 10) -/
def IC_SCAN1_SCAN (n : Nat) : Field := ⟨0x40010314 + 0x20 * n, 31, 0, .ro, 0⟩

/-! IC_SCAN2 (R344, chapter 10) -/
def IC_SCAN2_SCAN (n : Nat) : Field := ⟨0x40010318 + 0x20 * n, 31, 0, .ro, 0⟩

/-! IC_SCAN3 (R344, chapter 10) -/
def IC_SCAN3_SCAN (n : Nat) : Field := ⟨0x4001031C + 0x20 * n, 31, 0, .ro, 0⟩

/-! ## Window 0x40020000 -/

/-! CH_CTL (R205, chapter 06) -/
def CH_CTL_MODE (n : Nat) : Field := ⟨0x40020000 + 0x100 * n, 31, 24, .rw, 0⟩
def CH_CTL_DOMAIN (n : Nat) : Field := ⟨0x40020000 + 0x100 * n, 23, 23, .rw, 0⟩
def CH_CTL_WHEEL (n : Nat) : Field := ⟨0x40020000 + 0x100 * n, 22, 20, .rw, 0⟩
def CH_CTL_FAIL_LEVEL (n : Nat) : Field := ⟨0x40020000 + 0x100 * n, 19, 19, .rw, 0⟩
def CH_CTL_FAIL_HIZ (n : Nat) : Field := ⟨0x40020000 + 0x100 * n, 18, 18, .rw, 0⟩
def CH_CTL_FLUSH (n : Nat) : Field := ⟨0x40020000 + 0x100 * n, 2, 2, .wo, 0⟩
def CH_CTL_EN (n : Nat) : Field := ⟨0x40020000 + 0x100 * n, 0, 0, .rw, 0⟩

/-! CH_STATUS (R205, chapter 06) -/
def CH_STATUS_CFG_BAD (n : Nat) : Field := ⟨0x40020004 + 0x100 * n, 31, 31, .ro, 0⟩
def CH_STATUS_CFG_REFUSED (n : Nat) : Field := ⟨0x40020004 + 0x100 * n, 30, 30, .ro, 0⟩
def CH_STATUS_COUNT (n : Nat) : Field := ⟨0x40020004 + 0x100 * n, 13, 8, .ro, 0⟩
def CH_STATUS_LEVEL (n : Nat) : Field := ⟨0x40020004 + 0x100 * n, 7, 7, .ro, 0⟩
def CH_STATUS_AT_FAIL (n : Nat) : Field := ⟨0x40020004 + 0x100 * n, 6, 6, .ro, 1⟩
def CH_STATUS_HEAD_WAIT (n : Nat) : Field := ⟨0x40020004 + 0x100 * n, 5, 5, .ro, 0⟩
def CH_STATUS_HEAD_FIXED (n : Nat) : Field := ⟨0x40020004 + 0x100 * n, 4, 4, .ro, 0⟩
def CH_STATUS_HEAD_BEGUN (n : Nat) : Field := ⟨0x40020004 + 0x100 * n, 3, 3, .ro, 0⟩
def CH_STATUS_HEAD_BAD (n : Nat) : Field := ⟨0x40020004 + 0x100 * n, 2, 2, .ro, 0⟩
def CH_STATUS_RUNNING (n : Nat) : Field := ⟨0x40020004 + 0x100 * n, 1, 1, .ro, 0⟩
def CH_STATUS_ACTIVE (n : Nat) : Field := ⟨0x40020004 + 0x100 * n, 0, 0, .ro, 0⟩

/-! CH_EVENT (R209, chapter 06) -/
def CH_EVENT_EV (n : Nat) : Field := ⟨0x40020008 + 0x100 * n, 11, 0, .w1c, 0⟩

/-! CH_IEN (R209, chapter 06) -/
def CH_IEN_EN (n : Nat) : Field := ⟨0x4002000C + 0x100 * n, 11, 0, .rw, 0⟩

/-! CH_CFG0 (R205, chapter 06) -/
def CH_CFG0_FILT (n : Nat) : Field := ⟨0x40020010 + 0x100 * n, 31, 16, .rw, 0⟩
def CH_CFG0_INVERT (n : Nat) : Field := ⟨0x40020010 + 0x100 * n, 3, 3, .rw, 0⟩
def CH_CFG0_EDGE (n : Nat) : Field := ⟨0x40020010 + 0x100 * n, 1, 0, .rw, 0⟩

/-! CH_CFG1 (R205, chapter 06) -/
def CH_CFG1_V (n : Nat) : Field := ⟨0x40020014 + 0x100 * n, 31, 0, .rw, 0⟩

/-! CH_CFG2 (R205, chapter 06) -/
def CH_CFG2_V (n : Nat) : Field := ⟨0x40020018 + 0x100 * n, 31, 0, .rw, 0⟩

/-! CH_CFG3 (R205, chapter 06) -/
def CH_CFG3_V (n : Nat) : Field := ⟨0x4002001C + 0x100 * n, 31, 0, .rw, 0⟩

/-! CH_CAP_LO (R242, chapter 06) -/
def CH_CAP_LO_CAP (n : Nat) : Field := ⟨0x40020028 + 0x100 * n, 31, 0, .rl, 0⟩

/-! CH_CAP_HI (R242, chapter 06) -/
def CH_CAP_HI_CAP (n : Nat) : Field := ⟨0x4002002C + 0x100 * n, 31, 0, .ro, 0⟩

/-! CH_RES0 (R242, chapter 06) -/
def CH_RES0_RES0 (n : Nat) : Field := ⟨0x40020030 + 0x100 * n, 31, 0, .ro, 0⟩

/-! CH_RES1 (R242, chapter 06) -/
def CH_RES1_RES1 (n : Nat) : Field := ⟨0x40020034 + 0x100 * n, 31, 0, .ro, 0⟩

/-! CH_SNAP_LO (R242, chapter 06) -/
def CH_SNAP_LO_SNAP (n : Nat) : Field := ⟨0x40020038 + 0x100 * n, 31, 0, .rl, 0⟩

/-! CH_SNAP_HI (R242, chapter 06) -/
def CH_SNAP_HI_SNAP (n : Nat) : Field := ⟨0x4002003C + 0x100 * n, 31, 0, .ro, 0⟩

/-! CH_SNAPV (R242, chapter 06) -/
def CH_SNAPV_VALUE (n : Nat) : Field := ⟨0x40020040 + 0x100 * n, 31, 0, .ro, 0⟩

/-! CH_HEAD_KEY_LO (R224, chapter 06) -/
def CH_HEAD_KEY_LO_KEY (n : Nat) : Field := ⟨0x40020044 + 0x100 * n, 31, 0, .rl, 0⟩

/-! CH_HEAD_KEY_HI (R224, chapter 06) -/
def CH_HEAD_KEY_HI_KEY (n : Nat) : Field := ⟨0x40020048 + 0x100 * n, 31, 0, .ro, 0⟩

/-! CH_HEAD_ACT (R224, chapter 06) -/
def CH_HEAD_ACT_ACTION (n : Nat) : Field := ⟨0x4002004C + 0x100 * n, 31, 0, .ro, 0⟩

/-! CH_HEAD_TAG (R224, chapter 06) -/
def CH_HEAD_TAG_TAG (n : Nat) : Field := ⟨0x40020050 + 0x100 * n, 31, 0, .ro, 0⟩

/-! CH_HEAD_FIRE_LO (R224, chapter 06) -/
def CH_HEAD_FIRE_LO_FIRE (n : Nat) : Field := ⟨0x40020054 + 0x100 * n, 31, 0, .ro, 0⟩

/-! CH_HEAD_FIRE_HI (R224, chapter 06) -/
def CH_HEAD_FIRE_HI_FIRE (n : Nat) : Field := ⟨0x40020058 + 0x100 * n, 31, 0, .ro, 0⟩

/-! CH_ELOG_WR (R244, chapter 06) -/
def CH_ELOG_WR_WR (n : Nat) : Field := ⟨0x4002005C + 0x100 * n, 11, 0, .ro, 0⟩

/-! CH_ELOG_RD (R244, chapter 06) -/
def CH_ELOG_RD_RD (n : Nat) : Field := ⟨0x40020060 + 0x100 * n, 11, 0, .rw, 0⟩

/-! CH_CNT_A (R205, chapter 06) -/
def CH_CNT_A_LATE (n : Nat) : Field := ⟨0x40020064 + 0x100 * n, 31, 16, .rc, 0⟩
def CH_CNT_A_FULL (n : Nat) : Field := ⟨0x40020064 + 0x100 * n, 15, 0, .rc, 0⟩

/-! CH_CNT_B (R205, chapter 06) -/
def CH_CNT_B_LOST (n : Nat) : Field := ⟨0x40020068 + 0x100 * n, 31, 16, .rc, 0⟩
def CH_CNT_B_HV_FALLBACK (n : Nat) : Field := ⟨0x40020068 + 0x100 * n, 15, 0, .rc, 0⟩

/-! CHA_PEND (R209, chapter 06) -/
def CHA_PEND_P (n : Nat) : Field := ⟨0x40024000 + 0x4 * n, 31, 0, .ro, 0⟩

/-! PG_CFG (R234, chapter 06) -/
def PG_CFG_APPLY (n : Nat) : Field := ⟨0x40024020 + 0x20 * n, 31, 31, .wo, 0⟩
def PG_CFG_EN (n : Nat) : Field := ⟨0x40024020 + 0x20 * n, 30, 30, .rw, 0⟩
def PG_CFG_LOW_WATER (n : Nat) : Field := ⟨0x40024020 + 0x20 * n, 12, 8, .rw, 0⟩
def PG_CFG_DEPTH (n : Nat) : Field := ⟨0x40024020 + 0x20 * n, 4, 0, .rw, 0⟩

/-! PG_T0 (R234, chapter 06) -/
def PG_T0_T0 (n : Nat) : Field := ⟨0x40024024 + 0x20 * n, 31, 0, .rw, 0⟩

/-! PG_PLANES (R234, chapter 06) -/
def PG_PLANES_PAIR (n : Nat) : Field := ⟨0x40024028 + 0x20 * n, 31, 0, .wo, 0⟩

/-! PG_STATUS (R234, chapter 06) -/
def PG_STATUS_FULL (n : Nat) : Field := ⟨0x4002402C + 0x20 * n, 12, 12, .ro, 0⟩
def PG_STATUS_PENDING (n : Nat) : Field := ⟨0x4002402C + 0x20 * n, 11, 11, .ro, 0⟩
def PG_STATUS_HOLDING (n : Nat) : Field := ⟨0x4002402C + 0x20 * n, 10, 10, .ro, 1⟩
def PG_STATUS_PLANE (n : Nat) : Field := ⟨0x4002402C + 0x20 * n, 9, 5, .ro, 0⟩
def PG_STATUS_FILL (n : Nat) : Field := ⟨0x4002402C + 0x20 * n, 4, 0, .ro, 0⟩

/-! PG_CNT (R234, chapter 06) -/
def PG_CNT_UNDERRUN (n : Nat) : Field := ⟨0x40024030 + 0x20 * n, 31, 16, .rc, 0⟩
def PG_CNT_DISCARDED (n : Nat) : Field := ⟨0x40024030 + 0x20 * n, 15, 0, .rc, 0⟩

/-! ## Window 0x40030000 -/

/-! WHL_CTL (R247, chapter 07) -/
def WHL_CTL_SOURCE (n : Nat) : Field := ⟨0x40030000 + 0x100 * n, 25, 24, .rw, (if n < 3 then 0 else 3)⟩
def WHL_CTL_SRC_CH (n : Nat) : Field := ⟨0x40030000 + 0x100 * n, 21, 16, .rw, 0⟩
def WHL_CTL_PATTERN (n : Nat) : Field := ⟨0x40030000 + 0x100 * n, 12, 12, .rw, 0⟩
def WHL_CTL_TABLE (n : Nat) : Field := ⟨0x40030000 + 0x100 * n, 10, 8, .rw, 0⟩
def WHL_CTL_FIFO_FLUSH (n : Nat) : Field := ⟨0x40030000 + 0x100 * n, 2, 2, .wo, 0⟩
def WHL_CTL_RESYNC (n : Nat) : Field := ⟨0x40030000 + 0x100 * n, 1, 1, .wo, 0⟩
def WHL_CTL_EN (n : Nat) : Field := ⟨0x40030000 + 0x100 * n, 0, 0, .rw, 0⟩

/-! WHL_STATUS (R257, chapter 07) -/
def WHL_STATUS_CFG_BAD (n : Nat) : Field := ⟨0x40030004 + 0x100 * n, 31, 31, .ro, 0⟩
def WHL_STATUS_CFG_REFUSED (n : Nat) : Field := ⟨0x40030004 + 0x100 * n, 30, 30, .ro, 0⟩
def WHL_STATUS_FILL (n : Nat) : Field := ⟨0x40030004 + 0x100 * n, 26, 16, .ro, 0⟩
def WHL_STATUS_ERRS (n : Nat) : Field := ⟨0x40030004 + 0x100 * n, 15, 12, .ro, 0⟩
def WHL_STATUS_REV_EST (n : Nat) : Field := ⟨0x40030004 + 0x100 * n, 9, 9, .ro, 0⟩
def WHL_STATUS_PREDICTING (n : Nat) : Field := ⟨0x40030004 + 0x100 * n, 8, 8, .ro, 0⟩
def WHL_STATUS_SYNC (n : Nat) : Field := ⟨0x40030004 + 0x100 * n, 2, 0, .ro, 0⟩

/-! WHL_EVENT (R267, chapter 07) -/
def WHL_EVENT_EV (n : Nat) : Field := ⟨0x40030008 + 0x100 * n, 8, 0, .w1c, 0⟩

/-! WHL_IEN (R267, chapter 07) -/
def WHL_IEN_EN (n : Nat) : Field := ⟨0x4003000C + 0x100 * n, 8, 0, .rw, 0⟩

/-! WHL_CFG0 (R251, chapter 07) -/
def WHL_CFG0_INDEX_CH (n : Nat) : Field := ⟨0x40030010 + 0x100 * n, 23, 18, .rw, 0⟩
def WHL_CFG0_SYNC (n : Nat) : Field := ⟨0x40030010 + 0x100 * n, 17, 16, .rw, 0⟩
def WHL_CFG0_MISSING (n : Nat) : Field := ⟨0x40030010 + 0x100 * n, 15, 14, .rw, 0⟩
def WHL_CFG0_FEATURE (n : Nat) : Field := ⟨0x40030010 + 0x100 * n, 13, 12, .rw, 0⟩
def WHL_CFG0_N (n : Nat) : Field := ⟨0x40030010 + 0x100 * n, 10, 0, .rw, 0⟩

/-! WHL_CFG1 (R251, chapter 07) -/
def WHL_CFG1_OFFSET (n : Nat) : Field := ⟨0x40030014 + 0x100 * n, 19, 0, .rw, 0⟩

/-! WHL_CFG2 (R251, chapter 07) -/
def WHL_CFG2_WIDTH (n : Nat) : Field := ⟨0x40030018 + 0x100 * n, 27, 20, .rw, 0⟩
def WHL_CFG2_EXTRA_ANGLE (n : Nat) : Field := ⟨0x40030018 + 0x100 * n, 19, 0, .rw, 0⟩

/-! WHL_CFG3 (R257, chapter 07) -/
def WHL_CFG3_CONFIRM (n : Nat) : Field := ⟨0x4003001C + 0x100 * n, 27, 24, .rw, 1⟩
def WHL_CFG3_ORDER (n : Nat) : Field := ⟨0x4003001C + 0x100 * n, 23, 23, .rw, 0⟩
def WHL_CFG3_MAX_SKIP (n : Nat) : Field := ⟨0x4003001C + 0x100 * n, 22, 20, .rw, 0⟩
def WHL_CFG3_ERR_LIMIT (n : Nat) : Field := ⟨0x4003001C + 0x100 * n, 19, 16, .rw, 4⟩
def WHL_CFG3_SPAN (n : Nat) : Field := ⟨0x4003001C + 0x100 * n, 14, 8, .rw, 1⟩
def WHL_CFG3_TOL (n : Nat) : Field := ⟨0x4003001C + 0x100 * n, 7, 0, .rw, 64⟩

/-! WHL_CFG4 (R257, chapter 07) -/
def WHL_CFG4_STALL (n : Nat) : Field := ⟨0x40030020 + 0x100 * n, 31, 0, .rw, 0⟩

/-! WHL_CFG5 (R261, chapter 07) -/
def WHL_CFG5_ARM (n : Nat) : Field := ⟨0x40030024 + 0x100 * n, 31, 0, .rw, 0x100000⟩

/-! WHL_CFG6 (R261, chapter 07) -/
def WHL_CFG6_MARK_EN (n : Nat) : Field := ⟨0x40030028 + 0x100 * n, 31, 31, .rw, 0⟩
def WHL_CFG6_MARK_ANGLE (n : Nat) : Field := ⟨0x40030028 + 0x100 * n, 19, 0, .rw, 0⟩

/-! WHL_REV (R259, chapter 07) -/
def WHL_REV_REV (n : Nat) : Field := ⟨0x4003002C + 0x100 * n, 31, 0, .rw, 0⟩

/-! WHL_POS_ANG (R259, chapter 07) -/
def WHL_POS_ANG_VALID (n : Nat) : Field := ⟨0x40030030 + 0x100 * n, 31, 31, .rl, 0⟩
def WHL_POS_ANG_ANGLE (n : Nat) : Field := ⟨0x40030030 + 0x100 * n, 19, 0, .rl, 0⟩

/-! WHL_POS_REV (R259, chapter 07) -/
def WHL_POS_REV_REV (n : Nat) : Field := ⟨0x40030034 + 0x100 * n, 31, 0, .ro, 0⟩

/-! WHL_TOOTH_LO (R259, chapter 07) -/
def WHL_TOOTH_LO_TIME (n : Nat) : Field := ⟨0x40030038 + 0x100 * n, 31, 0, .rl, 0⟩

/-! WHL_TOOTH_HI (R259, chapter 07) -/
def WHL_TOOTH_HI_TIME (n : Nat) : Field := ⟨0x4003003C + 0x100 * n, 31, 0, .ro, 0⟩

/-! WHL_TOOTH_POS (R259, chapter 07) -/
def WHL_TOOTH_POS_INDEX (n : Nat) : Field := ⟨0x40030040 + 0x100 * n, 30, 20, .ro, 0⟩
def WHL_TOOTH_POS_ANGLE (n : Nat) : Field := ⟨0x40030040 + 0x100 * n, 19, 0, .ro, 0⟩

/-! WHL_PERIOD_LO (R259, chapter 07) -/
def WHL_PERIOD_LO_PERIOD (n : Nat) : Field := ⟨0x40030044 + 0x100 * n, 31, 0, .rl, 0⟩

/-! WHL_PERIOD_HI (R259, chapter 07) -/
def WHL_PERIOD_HI_PERIOD (n : Nat) : Field := ⟨0x40030048 + 0x100 * n, 31, 0, .ro, 0⟩

/-! WHL_SYN_LO (R250, chapter 07) -/
def WHL_SYN_LO_V (n : Nat) : Field := ⟨0x4003004C + 0x100 * n, 31, 0, .wo, 0⟩

/-! WHL_SYN_HI (R250, chapter 07) -/
def WHL_SYN_HI_V (n : Nat) : Field := ⟨0x40030050 + 0x100 * n, 31, 0, .wo, 0⟩

/-! WHL_FIFO_CFG (R250, chapter 07) -/
def WHL_FIFO_CFG_START_VALID (n : Nat) : Field := ⟨0x40030054 + 0x100 * n, 31, 31, .rw, 0⟩
def WHL_FIFO_CFG_START_INDEX (n : Nat) : Field := ⟨0x40030054 + 0x100 * n, 26, 16, .rw, 0⟩
def WHL_FIFO_CFG_LOW_WATER (n : Nat) : Field := ⟨0x40030054 + 0x100 * n, 10, 0, .rw, 0⟩

/-! WHL_CNT_A (R267, chapter 07) -/
def WHL_CNT_A_TOOTH_ERR (n : Nat) : Field := ⟨0x40030058 + 0x100 * n, 31, 16, .rc, 0⟩
def WHL_CNT_A_SKIPPED (n : Nat) : Field := ⟨0x40030058 + 0x100 * n, 15, 0, .rc, 0⟩

/-! WHL_CNT_B (R267, chapter 07) -/
def WHL_CNT_B_LOST (n : Nat) : Field := ⟨0x4003005C + 0x100 * n, 31, 16, .rc, 0⟩
def WHL_CNT_B_FIFO_REJECT (n : Nat) : Field := ⟨0x4003005C + 0x100 * n, 15, 0, .rc, 0⟩

/-! PH_CFG (R263, chapter 07) -/
def PH_CFG_EN (n : Nat) : Field := ⟨0x40030800 + 0x20 * n, 31, 31, .rw, 0⟩
def PH_CFG_FILTER (n : Nat) : Field := ⟨0x40030800 + 0x20 * n, 19, 16, .rw, 0⟩
def PH_CFG_MUL (n : Nat) : Field := ⟨0x40030800 + 0x20 * n, 15, 8, .rw, 1⟩
def PH_CFG_B (n : Nat) : Field := ⟨0x40030800 + 0x20 * n, 6, 4, .rw, 0⟩
def PH_CFG_A (n : Nat) : Field := ⟨0x40030800 + 0x20 * n, 2, 0, .rw, 0⟩

/-! PH_RAW (R263, chapter 07) -/
def PH_RAW_PHI (n : Nat) : Field := ⟨0x40030804 + 0x20 * n, 31, 0, .ro, 0⟩

/-! PH_FILT (R263, chapter 07) -/
def PH_FILT_FILT (n : Nat) : Field := ⟨0x40030808 + 0x20 * n, 31, 0, .ro, 0⟩

/-! PH_MINMAX (R263, chapter 07) -/
def PH_MINMAX_MIN (n : Nat) : Field := ⟨0x4003080C + 0x20 * n, 31, 16, .rc, 0x7FFF⟩
def PH_MINMAX_MAX (n : Nat) : Field := ⟨0x4003080C + 0x20 * n, 15, 0, .rc, 0x8000⟩

/-! PH_WIN (R263, chapter 07) -/
def PH_WIN_HI (n : Nat) : Field := ⟨0x40030810 + 0x20 * n, 31, 16, .rw, 0⟩
def PH_WIN_LO (n : Nat) : Field := ⟨0x40030810 + 0x20 * n, 15, 0, .rw, 0⟩

/-! PH_COUNT (R263, chapter 07) -/
def PH_COUNT_MISSED (n : Nat) : Field := ⟨0x40030814 + 0x20 * n, 31, 16, .rc, 0⟩
def PH_COUNT_SAMPLES (n : Nat) : Field := ⟨0x40030814 + 0x20 * n, 15, 0, .rc, 0⟩

/-! TBL_COUNT (R252, chapter 07) -/
def TBL_COUNT_COUNT (n : Nat) : Field := ⟨0x40030900 + 0x4 * n, 9, 0, .rw, 0⟩

/-! TBL_ANGLE (R252, chapter 07) -/
def TBL_ANGLE_ANGLE (n : Nat) : Field := ⟨0x40034000 + 0x4 * n, 19, 0, .rw, 0⟩

/-! ## Window 0x40040000 -/

/-! GSR_CTL (R376, chapter 11) -/
def GSR_CTL_GO (n : Nat) : Field := ⟨0x40040000 + 0x40 * n, 31, 31, .wo, 0⟩
def GSR_CTL_RESUME (n : Nat) : Field := ⟨0x40040000 + 0x40 * n, 30, 30, .wo, 0⟩
def GSR_CTL_ABORT (n : Nat) : Field := ⟨0x40040000 + 0x40 * n, 29, 29, .wo, 0⟩

/-! GSR_DESC (R376, chapter 11) -/
def GSR_DESC_ADDR (n : Nat) : Field := ⟨0x40040004 + 0x40 * n, 31, 0, .rw, 0⟩

/-! GSR_STATUS (R376, chapter 11) -/
def GSR_STATUS_STATE (n : Nat) : Field := ⟨0x40040008 + 0x40 * n, 31, 28, .ro, 0⟩
def GSR_STATUS_REASON (n : Nat) : Field := ⟨0x40040008 + 0x40 * n, 23, 16, .ro, 0⟩
def GSR_STATUS_DESCS (n : Nat) : Field := ⟨0x40040008 + 0x40 * n, 15, 0, .ro, 0⟩

/-! GSR_CUR (R376, chapter 11) -/
def GSR_CUR_ADDR (n : Nat) : Field := ⟨0x4004000C + 0x40 * n, 31, 0, .ro, 0⟩

/-! GSR_POS0 (R376, chapter 11) -/
def GSR_POS0_I1 (n : Nat) : Field := ⟨0x40040010 + 0x40 * n, 31, 16, .rl, 0⟩
def GSR_POS0_I0 (n : Nat) : Field := ⟨0x40040010 + 0x40 * n, 15, 0, .rl, 0⟩

/-! GSR_POS1 (R376, chapter 11) -/
def GSR_POS1_I2 (n : Nat) : Field := ⟨0x40040014 + 0x40 * n, 15, 0, .ro, 0⟩

/-! GSR_RATE (R376, chapter 11) -/
def GSR_RATE_BURST (n : Nat) : Field := ⟨0x40040018 + 0x40 * n, 23, 16, .rw, 16⟩
def GSR_RATE_RATE (n : Nat) : Field := ⟨0x40040018 + 0x40 * n, 8, 0, .rw, 256⟩

/-! GSR_EVENT (R376, chapter 11) -/
def GSR_EVENT_REFUSED (n : Nat) : Field := ⟨0x4004001C + 0x40 * n, 3, 3, .w1c, 0⟩
def GSR_EVENT_STOPPED (n : Nat) : Field := ⟨0x4004001C + 0x40 * n, 2, 2, .w1c, 0⟩
def GSR_EVENT_END (n : Nat) : Field := ⟨0x4004001C + 0x40 * n, 1, 1, .w1c, 0⟩
def GSR_EVENT_DONE (n : Nat) : Field := ⟨0x4004001C + 0x40 * n, 0, 0, .w1c, 0⟩

/-! GSR_IEN (R376, chapter 11) -/
def GSR_IEN_IEN (n : Nat) : Field := ⟨0x40040020 + 0x40 * n, 3, 0, .rw, 0⟩

/-! GSR_CYC (R376, chapter 11) -/
def GSR_CYC_CYCLES (n : Nat) : Field := ⟨0x40040024 + 0x40 * n, 31, 0, .rc, 0⟩

/-! GSR_GSTATUS (R376, chapter 11) -/
def GSR_GSTATUS_BUSERR : Field := ⟨0x40040200, 31, 31, .w1c, 0⟩
def GSR_GSTATUS_STOPPED_MASK : Field := ⟨0x40040200, 23, 16, .ro, 0⟩
def GSR_GSTATUS_ERR_CH : Field := ⟨0x40040200, 15, 12, .ro, 0xF⟩
def GSR_GSTATUS_ERR_TYPE : Field := ⟨0x40040200, 8, 8, .ro, 0⟩
def GSR_GSTATUS_RUNNING : Field := ⟨0x40040200, 7, 0, .ro, 0⟩

/-! GSR_ERR_ADDR (R376, chapter 11) -/
def GSR_ERR_ADDR_ADDR : Field := ⟨0x40040204, 31, 0, .ro, 0⟩

/-! ## Window 0x40050000 -/

/-! SPM_ARB (R364, chapter 11) -/
def SPM_ARB_RR : Field := ⟨0x40050000, 15, 0, .rw, 0xFFFF⟩

/-! SPM_RRCOUNT_LO (R364, chapter 11) -/
def SPM_RRCOUNT_LO_COUNT : Field := ⟨0x40050004, 31, 0, .rw, 0⟩

/-! SPM_RRCOUNT_HI (R364, chapter 11) -/
def SPM_RRCOUNT_HI_COUNT_8 : Field := ⟨0x40050008, 3, 0, .rw, 0⟩

/-! SPM_POWER_LO (R364, chapter 11) -/
def SPM_POWER_LO_STATE : Field := ⟨0x40050010, 31, 0, .rw, 0⟩

/-! SPM_POWER_HI (R364, chapter 11) -/
def SPM_POWER_HI_STATE_16 : Field := ⟨0x40050014, 1, 0, .rw, 0⟩

/-! SPM_PSTAT (R364, chapter 11) -/
def SPM_PSTAT_ON : Field := ⟨0x40050018, 16, 0, .ro, 0x1FFFF⟩

/-! SPM_RETAIN (R364, chapter 11) -/
def SPM_RETAIN_RETAIN : Field := ⟨0x4005001C, 16, 0, .rw, 0⟩

/-! SPM_CONFLICT (R364, chapter 11) -/
def SPM_CONFLICT_ODD (n : Nat) : Field := ⟨0x40050020 + 0x4 * n, 31, 16, .rc, 0⟩
def SPM_CONFLICT_EVEN (n : Nat) : Field := ⟨0x40050020 + 0x4 * n, 15, 0, .rc, 0⟩

/-! SPM_CONFLICT5 (R364, chapter 11) -/
def SPM_CONFLICT5_Z : Field := ⟨0x40050034, 31, 0, .ro, 0⟩

/-! SPM_ECC_CNT (R364, chapter 11) -/
def SPM_ECC_CNT_UNCORR : Field := ⟨0x40050040, 31, 16, .rc, 0⟩
def SPM_ECC_CNT_CORR : Field := ⟨0x40050040, 15, 0, .rc, 0⟩

/-! SPM_ECC_ADDR (R364, chapter 11) -/
def SPM_ECC_ADDR_ADDR : Field := ⟨0x40050044, 31, 0, .ro, 0⟩

/-! SPM_WIN_BASE (R364, chapter 11) -/
def SPM_WIN_BASE_BASE (n : Nat) : Field := ⟨0x40050080 + 0x8 * n, 19, 0, .rw, 0⟩

/-! SPM_WIN_CTL (R364, chapter 11) -/
def SPM_WIN_CTL_EN (n : Nat) : Field := ⟨0x40050084 + 0x8 * n, 31, 31, .rw, 0⟩
def SPM_WIN_CTL_BAD (n : Nat) : Field := ⟨0x40050084 + 0x8 * n, 30, 30, .ro, 0⟩
def SPM_WIN_CTL_SIZE (n : Nat) : Field := ⟨0x40050084 + 0x8 * n, 3, 0, .rw, 0⟩

/-! SPM_MARCH_CTL (R364, chapter 11) -/
def SPM_MARCH_CTL_GO : Field := ⟨0x40050100, 31, 31, .wo, 0⟩
def SPM_MARCH_CTL_PRESERVE : Field := ⟨0x40050100, 30, 30, .rw, 1⟩
def SPM_MARCH_CTL_BANKS : Field := ⟨0x40050100, 16, 0, .rw, 0⟩

/-! SPM_MARCH_STATUS (R364, chapter 11) -/
def SPM_MARCH_STATUS_BUSY : Field := ⟨0x40050104, 31, 31, .ro, 0⟩
def SPM_MARCH_STATUS_FOUND : Field := ⟨0x40050104, 7, 0, .ro, 0⟩

/-! SPM_MARCH_SKIP (R364, chapter 11) -/
def SPM_MARCH_SKIP_SKIPPED : Field := ⟨0x40050108, 16, 0, .ro, 0⟩

/-! SPM_MARCH_LAST (R364, chapter 11) -/
def SPM_MARCH_LAST_BANK : Field := ⟨0x4005010C, 20, 16, .ro, 0⟩
def SPM_MARCH_LAST_ROW : Field := ⟨0x4005010C, 5, 0, .ro, 0⟩

/-! SPM_REPAIR (R364, chapter 11) -/
def SPM_REPAIR_SECOND (n : Nat) : Field := ⟨0x40050140 + 0x4 * n, 31, 16, .ro, 0xFFFF⟩
def SPM_REPAIR_FIRST (n : Nat) : Field := ⟨0x40050140 + 0x4 * n, 15, 0, .ro, 0xFFFF⟩

/-! ## Window 0x40060000 -/

/-! LINE_CTL (R415, chapter 12) -/
def LINE_CTL_EN (n : Nat) : Field := ⟨0x40060000 + 0x100 * n, 8, 8, .rw, (if n < 2 then 1 else 0)⟩
def LINE_CTL_FORCE_WRAP (n : Nat) : Field := ⟨0x40060000 + 0x100 * n, 7, 7, .rw, 0⟩
def LINE_CTL_WRAP_ON_DEG (n : Nat) : Field := ⟨0x40060000 + 0x100 * n, 6, 6, .rw, 0⟩
def LINE_CTL_RETRAIN (n : Nat) : Field := ⟨0x40060000 + 0x100 * n, 5, 5, .wo, 0⟩
def LINE_CTL_HALF_REQ (n : Nat) : Field := ⟨0x40060000 + 0x100 * n, 4, 4, .rw, 0⟩
def LINE_CTL_DEG_M (n : Nat) : Field := ⟨0x40060000 + 0x100 * n, 3, 0, .rw, 7⟩

/-! LINE_STATUS (R415, chapter 12) -/
def LINE_STATUS_STATE (n : Nat) : Field := ⟨0x40060004 + 0x100 * n, 31, 28, .ro, 0⟩
def LINE_STATUS_RATE (n : Nat) : Field := ⟨0x40060004 + 0x100 * n, 27, 26, .ro, 0⟩
def LINE_STATUS_WRAPPED (n : Nat) : Field := ⟨0x40060004 + 0x100 * n, 25, 25, .ro, 0⟩
def LINE_STATUS_WTR_RUNNING (n : Nat) : Field := ⟨0x40060004 + 0x100 * n, 24, 24, .ro, 0⟩
def LINE_STATUS_NBR_VALID (n : Nat) : Field := ⟨0x40060004 + 0x100 * n, 23, 23, .ro, 0⟩
def LINE_STATUS_NBR_ADDR (n : Nat) : Field := ⟨0x40060004 + 0x100 * n, 22, 16, .ro, 0⟩
def LINE_STATUS_NBR_NOT_NODE (n : Nat) : Field := ⟨0x40060004 + 0x100 * n, 15, 15, .ro, 0⟩
def LINE_STATUS_RDI_SD (n : Nat) : Field := ⟨0x40060004 + 0x100 * n, 8, 8, .ro, 0⟩
def LINE_STATUS_RDI_SF (n : Nat) : Field := ⟨0x40060004 + 0x100 * n, 7, 7, .ro, 0⟩
def LINE_STATUS_DEG (n : Nat) : Field := ⟨0x40060004 + 0x100 * n, 6, 6, .ro, 0⟩
def LINE_STATUS_LOF (n : Nat) : Field := ⟨0x40060004 + 0x100 * n, 5, 5, .ro, 0⟩
def LINE_STATUS_OOF (n : Nat) : Field := ⟨0x40060004 + 0x100 * n, 4, 4, .ro, 0⟩
def LINE_STATUS_LOL (n : Nat) : Field := ⟨0x40060004 + 0x100 * n, 3, 3, .ro, 0⟩
def LINE_STATUS_LOS (n : Nat) : Field := ⟨0x40060004 + 0x100 * n, 2, 2, .ro, 0⟩
def LINE_STATUS_LEAVING_RX (n : Nat) : Field := ⟨0x40060004 + 0x100 * n, 1, 1, .ro, 0⟩
def LINE_STATUS_LEADER (n : Nat) : Field := ⟨0x40060004 + 0x100 * n, 0, 0, .ro, 0⟩

/-! LINE_EVENT (R415, chapter 12) -/
def LINE_EVENT_FN_JUMP (n : Nat) : Field := ⟨0x40060008 + 0x100 * n, 7, 7, .w1c, 0⟩
def LINE_EVENT_TX_FAIL (n : Nat) : Field := ⟨0x40060008 + 0x100 * n, 6, 6, .w1c, 0⟩
def LINE_EVENT_SLIP (n : Nat) : Field := ⟨0x40060008 + 0x100 * n, 5, 5, .w1c, 0⟩
def LINE_EVENT_TRAIN (n : Nat) : Field := ⟨0x40060008 + 0x100 * n, 4, 4, .w1c, 0⟩
def LINE_EVENT_NEIGHBOUR (n : Nat) : Field := ⟨0x40060008 + 0x100 * n, 3, 3, .w1c, 0⟩
def LINE_EVENT_WRAP (n : Nat) : Field := ⟨0x40060008 + 0x100 * n, 2, 2, .w1c, 0⟩
def LINE_EVENT_STATE (n : Nat) : Field := ⟨0x40060008 + 0x100 * n, 1, 1, .w1c, 0⟩
def LINE_EVENT_DEFECT (n : Nat) : Field := ⟨0x40060008 + 0x100 * n, 0, 0, .w1c, 0⟩

/-! LINE_IEN (R415, chapter 12) -/
def LINE_IEN_IEN (n : Nat) : Field := ⟨0x4006000C + 0x100 * n, 7, 0, .rw, 0⟩

/-! LINE_POWER (R415, chapter 12) -/
def LINE_POWER_RX (n : Nat) : Field := ⟨0x40060010 + 0x100 * n, 31, 16, .ro, 0x8000⟩
def LINE_POWER_TX (n : Nat) : Field := ⟨0x40060010 + 0x100 * n, 15, 0, .ro, 0x8000⟩

/-! LINE_TAP (R415, chapter 12) -/
def LINE_TAP_POWER (n : Nat) : Field := ⟨0x40060014 + 0x100 * n, 31, 16, .ro, 0x8000⟩
def LINE_TAP_INSERTING_SEEN (n : Nat) : Field := ⟨0x40060014 + 0x100 * n, 3, 3, .ro, 0⟩
def LINE_TAP_LEAVING_SEEN (n : Nat) : Field := ⟨0x40060014 + 0x100 * n, 2, 2, .ro, 0⟩
def LINE_TAP_TAP_RATE (n : Nat) : Field := ⟨0x40060014 + 0x100 * n, 1, 0, .ro, 0⟩

/-! LINE_FEC_CORR (R415, chapter 12) -/
def LINE_FEC_CORR_CORR (n : Nat) : Field := ⟨0x40060018 + 0x100 * n, 31, 0, .ro, 0⟩

/-! LINE_FEC_UNCORR (R415, chapter 12) -/
def LINE_FEC_UNCORR_UNCORR (n : Nat) : Field := ⟨0x4006001C + 0x100 * n, 31, 0, .ro, 0⟩

/-! LINE_CNT_A (R415, chapter 12) -/
def LINE_CNT_A_OOF (n : Nat) : Field := ⟨0x40060020 + 0x100 * n, 31, 16, .rc, 0⟩
def LINE_CNT_A_SLIPS (n : Nat) : Field := ⟨0x40060020 + 0x100 * n, 15, 0, .rc, 0⟩

/-! LINE_CNT_B (R415, chapter 12) -/
def LINE_CNT_B_TRAIN_RUNS (n : Nat) : Field := ⟨0x40060024 + 0x100 * n, 31, 16, .rc, 0⟩
def LINE_CNT_B_FALLBACKS (n : Nat) : Field := ⟨0x40060024 + 0x100 * n, 15, 0, .rc, 0⟩

/-! LINE_DEG_THR (R415, chapter 12) -/
def LINE_DEG_THR_THR (n : Nat) : Field := ⟨0x40060028 + 0x100 * n, 31, 0, .rw, 0x80000⟩

/-! LINE_TIMERS (R415, chapter 12) -/
def LINE_TIMERS_WRAP_HOLD (n : Nat) : Field := ⟨0x4006002C + 0x100 * n, 31, 24, .rw, 2⟩
def LINE_TIMERS_WTR (n : Nat) : Field := ⟨0x4006002C + 0x100 * n, 23, 12, .rw, 10⟩
def LINE_TIMERS_WTR_INS (n : Nat) : Field := ⟨0x4006002C + 0x100 * n, 11, 0, .rw, 1⟩

/-! LINE_ELASTIC (R415, chapter 12) -/
def LINE_ELASTIC_FILL (n : Nat) : Field := ⟨0x40060030 + 0x100 * n, 15, 0, .ro, 0⟩

/-! RING_STATUS (R415, chapter 12) -/
def RING_STATUS_INSERT : Field := ⟨0x40060400, 31, 28, .ro, 0⟩
def RING_STATUS_SW_INSERTED : Field := ⟨0x40060400, 27, 27, .ro, 0⟩
def RING_STATUS_COIL : Field := ⟨0x40060400, 26, 26, .ro, 0⟩
def RING_STATUS_HEARTBEAT : Field := ⟨0x40060400, 25, 25, .ro, 0⟩
def RING_STATUS_FREQ_MASTER : Field := ⟨0x40060400, 24, 24, .ro, 0⟩
def RING_STATUS_TX_W : Field := ⟨0x40060400, 23, 22, .ro, 0⟩
def RING_STATUS_TX_E : Field := ⟨0x40060400, 21, 20, .ro, 0⟩
def RING_STATUS_ISOLATED : Field := ⟨0x40060400, 19, 19, .ro, 0⟩
def RING_STATUS_WRAP_W : Field := ⟨0x40060400, 18, 18, .ro, 0⟩
def RING_STATUS_WRAP_E : Field := ⟨0x40060400, 17, 17, .ro, 0⟩

/-! RING_CTL (R415, chapter 12) -/
def RING_CTL_BYPASS_REQ : Field := ⟨0x40060404, 0, 0, .rw, 0⟩

/-! RING_FRAME_LO (R415, chapter 12) -/
def RING_FRAME_LO_N : Field := ⟨0x40060408, 31, 0, .rl, 0⟩

/-! RING_FRAME_HI (R415, chapter 12) -/
def RING_FRAME_HI_N : Field := ⟨0x4006040C, 15, 0, .ro, 0⟩

/-! RING_ALIGN (R415, chapter 12) -/
def RING_ALIGN_EAST_GOING : Field := ⟨0x40060410, 31, 16, .ro, 0⟩
def RING_ALIGN_WEST_GOING : Field := ⟨0x40060410, 15, 0, .ro, 0⟩

/-! RING_CNT (R415, chapter 12) -/
def RING_CNT_INSERT_FAILS : Field := ⟨0x40060414, 31, 16, .rc, 0⟩
def RING_CNT_MASTER_SLIPS : Field := ⟨0x40060414, 15, 0, .rc, 0⟩

/-! RING_BACKOFF (R415, chapter 12) -/
def RING_BACKOFF_SECONDS : Field := ⟨0x40060418, 11, 0, .ro, 0⟩

/-! ## Window 0x40070000 -/

/-! TSI_CTL (R432, chapter 13) -/
def TSI_CTL_SWAP : Field := ⟨0x40070000, 31, 31, .wo, 0⟩
def TSI_CTL_COPY : Field := ⟨0x40070000, 30, 30, .wo, 0⟩
def TSI_CTL_CANCEL : Field := ⟨0x40070000, 29, 29, .wo, 0⟩

/-! TSI_STATUS (R432, chapter 13) -/
def TSI_STATUS_ACTIVE_PAGE : Field := ⟨0x40070004, 31, 31, .ro, 0⟩
def TSI_STATUS_SWAP_PENDING : Field := ⟨0x40070004, 30, 30, .ro, 0⟩
def TSI_STATUS_COPY_BUSY : Field := ⟨0x40070004, 29, 29, .ro, 0⟩
def TSI_STATUS_PRELOADED : Field := ⟨0x40070004, 28, 28, .ro, 0⟩
def TSI_STATUS_LAST_REFUSED : Field := ⟨0x40070004, 27, 27, .ro, 0⟩
def TSI_STATUS_LAST_CANCELLED : Field := ⟨0x40070004, 26, 26, .ro, 0⟩
def TSI_STATUS_WRITE_REFUSED : Field := ⟨0x40070004, 25, 25, .ro, 0⟩

/-! TSI_SWAP_FRAME_LO (R432, chapter 13) -/
def TSI_SWAP_FRAME_LO_F : Field := ⟨0x40070008, 31, 0, .rw, 0⟩

/-! TSI_SWAP_FRAME_HI (R432, chapter 13) -/
def TSI_SWAP_FRAME_HI_F : Field := ⟨0x4007000C, 15, 0, .rw, 0⟩

/-! TSI_CFG (R432, chapter 13) -/
def TSI_CFG_REVERT : Field := ⟨0x40070010, 15, 0, .rw, 8000⟩

/-! TSI_CM_ADDR (R432, chapter 13) -/
def TSI_CM_ADDR_PAGE : Field := ⟨0x40070014, 31, 31, .rw, 0⟩
def TSI_CM_ADDR_AUTOINC : Field := ⟨0x40070014, 30, 30, .rw, 0⟩
def TSI_CM_ADDR_PORT : Field := ⟨0x40070014, 17, 16, .rw, 0⟩
def TSI_CM_ADDR_SLOT : Field := ⟨0x40070014, 13, 0, .rw, 0⟩

/-! TSI_CM_DATA (R432, chapter 13) -/
def TSI_CM_DATA_ENTRY : Field := ⟨0x40070018, 31, 0, .rw, 0⟩

/-! TSI_COUNT (R432, chapter 13) -/
def TSI_COUNT_REFUSED : Field := ⟨0x4007001C, 31, 16, .ro, 0⟩
def TSI_COUNT_FAIL : Field := ⟨0x4007001C, 15, 0, .ro, 0⟩

/-! TSI_CNT (R432, chapter 13) -/
def TSI_CNT_BUF_SLIPS : Field := ⟨0x40070020, 31, 16, .rc, 0⟩
def TSI_CNT_PSWITCH : Field := ⟨0x40070020, 15, 0, .rc, 0⟩

/-! TSI_CNT_U (R432, chapter 13) -/
def TSI_CNT_U_UNCORR : Field := ⟨0x40070024, 31, 0, .rc, 0⟩

/-! PERF_CFG (R448, chapter 13) -/
def PERF_CFG_SES_THR : Field := ⟨0x40070100, 31, 16, .rw, 1000⟩

/-! PERF_SEL (R448, chapter 13) -/
def PERF_SEL_PORT : Field := ⟨0x40070104, 9, 8, .rw, 0⟩
def PERF_SEL_KIND : Field := ⟨0x40070104, 7, 7, .rw, 0⟩
def PERF_SEL_INDEX : Field := ⟨0x40070104, 4, 0, .rw, 0⟩

/-! PERF_D0 (R448, chapter 13) -/
def PERF_D0_VALID : Field := ⟨0x40070110, 31, 31, .ro, 0⟩
def PERF_D0_SUSPECT : Field := ⟨0x40070110, 30, 30, .ro, 0⟩
def PERF_D0_PARTIAL : Field := ⟨0x40070110, 29, 29, .ro, 0⟩
def PERF_D0_CURRENT : Field := ⟨0x40070110, 28, 28, .ro, 0⟩

/-! PERF_D1 (R448, chapter 13) -/
def PERF_D1_START : Field := ⟨0x40070114, 31, 0, .ro, 0⟩

/-! PERF_D2_6 (R448, chapter 13) -/
def PERF_D2_6_SECONDS (n : Nat) : Field := ⟨0x40070118 + 0x4 * n, 31, 0, .ro, 0⟩

/-! PERF_D7 (R448, chapter 13) -/
def PERF_D7_UNCORR : Field := ⟨0x4007012C, 31, 0, .ro, 0⟩

/-! PERF_D8 (R448, chapter 13) -/
def PERF_D8_CORR : Field := ⟨0x40070130, 31, 0, .ro, 0⟩

/-! PERF_D9 (R448, chapter 13) -/
def PERF_D9_SLIPS : Field := ⟨0x40070134, 31, 16, .ro, 0⟩
def PERF_D9_OOF : Field := ⟨0x40070134, 15, 0, .ro, 0⟩

/-! PERF_D10 (R448, chapter 13) -/
def PERF_D10_TRAIN_RUNS : Field := ⟨0x40070138, 15, 0, .ro, 0⟩

/-! ## Window 0x40080000 -/

/-! FLUE_PCFG (R449, chapter 13) -/
def FLUE_PCFG_MODE (n : Nat) : Field := ⟨0x40080000 + 0x4 * n, 1, 0, .rw, 0⟩

/-! FLUE_STATUS (R449, chapter 13) -/
def FLUE_STATUS_RUNNING : Field := ⟨0x40080008, 31, 31, .ro, 0⟩
def FLUE_STATUS_APPQ_STOPPED : Field := ⟨0x40080008, 30, 30, .ro, 0⟩
def FLUE_STATUS_NO_LINE : Field := ⟨0x40080008, 29, 29, .ro, 1⟩
def FLUE_STATUS_RPT_FILL : Field := ⟨0x40080008, 21, 16, .ro, 0⟩
def FLUE_STATUS_PQ0_FILL : Field := ⟨0x40080008, 12, 8, .ro, 0⟩
def FLUE_STATUS_PQ1_FILL : Field := ⟨0x40080008, 4, 0, .ro, 0⟩

/-! FLUE_QUOTA (R449, chapter 13) -/
def FLUE_QUOTA_QUOTA : Field := ⟨0x4008000C, 4, 0, .rw, 4⟩

/-! FLUE_APPQ_BASE (R449, chapter 13) -/
def FLUE_APPQ_BASE_BASE : Field := ⟨0x40080010, 19, 0, .rw, 0⟩

/-! FLUE_APPQ_CTL (R449, chapter 13) -/
def FLUE_APPQ_CTL_EN : Field := ⟨0x40080014, 31, 31, .rw, 0⟩
def FLUE_APPQ_CTL_SIZE : Field := ⟨0x40080014, 3, 0, .rw, 4⟩

/-! FLUE_APPQ_WR (R449, chapter 13) -/
def FLUE_APPQ_WR_WR : Field := ⟨0x40080018, 7, 0, .rw, 0⟩

/-! FLUE_APPQ_RD (R449, chapter 13) -/
def FLUE_APPQ_RD_RD : Field := ⟨0x4008001C, 7, 0, .ro, 0⟩

/-! FLUE_CNT_A (R449, chapter 13) -/
def FLUE_CNT_A_CELL_CRC : Field := ⟨0x40080020, 31, 16, .rc, 0⟩
def FLUE_CNT_A_HOPS_EXPIRED : Field := ⟨0x40080020, 15, 0, .rc, 0⟩

/-! FLUE_CNT_B (R449, chapter 13) -/
def FLUE_CNT_B_RPT_LOST : Field := ⟨0x40080024, 31, 16, .rc, 0⟩
def FLUE_CNT_B_PORT_LOST : Field := ⟨0x40080024, 15, 0, .rc, 0⟩

/-! FLUE_CNT_C (R449, chapter 13) -/
def FLUE_CNT_C_RXD_CRC1 : Field := ⟨0x40080028, 31, 16, .rc, 0⟩
def FLUE_CNT_C_RXD_CRC0 : Field := ⟨0x40080028, 15, 0, .rc, 0⟩

/-! FLUE_CNT_D (R449, chapter 13) -/
def FLUE_CNT_D_INSERTED : Field := ⟨0x4008002C, 31, 0, .rc, 0⟩

/-! FLUE_EVENT (R449, chapter 13) -/
def FLUE_EVENT_RPT_LOST (n : Nat) : Field := ⟨0x40080030 + 0x8 * n, 4, 4, .w1c, 0⟩
def FLUE_EVENT_APPQ_STOPPED (n : Nat) : Field := ⟨0x40080030 + 0x8 * n, 3, 3, .w1c, 0⟩
def FLUE_EVENT_APPQ_EMPTY (n : Nat) : Field := ⟨0x40080030 + 0x8 * n, 2, 2, .w1c, 0⟩
def FLUE_EVENT_PORT_LOST (n : Nat) : Field := ⟨0x40080030 + 0x8 * n, 1, 1, .w1c, 0⟩
def FLUE_EVENT_RXD_CRC (n : Nat) : Field := ⟨0x40080030 + 0x8 * n, 0, 0, .w1c, 0⟩

/-! FLUE_IEN (R449, chapter 13) -/
def FLUE_IEN_IEN (n : Nat) : Field := ⟨0x40080034 + 0x8 * n, 4, 0, .rw, 0⟩

/-! ## Window 0x40090000 -/

/-! WRK_CFG (R478, chapter 14) -/
def WRK_CFG_HORIZON : Field := ⟨0x40090000, 31, 16, .rw, 7200⟩
def WRK_CFG_HREV : Field := ⟨0x40090000, 15, 8, .rw, 1⟩
def WRK_CFG_QUOTA : Field := ⟨0x40090000, 4, 0, .rw, 1⟩

/-! WRK_TIMERS (R478, chapter 14) -/
def WRK_TIMERS_RETRY : Field := ⟨0x40090004, 31, 16, .rw, 200⟩
def WRK_TIMERS_POLL : Field := ⟨0x40090004, 15, 0, .rw, 60⟩

/-! WRK_HOLD (R478, chapter 14) -/
def WRK_HOLD_HOLD : Field := ⟨0x40090008, 15, 0, .rw, 1000⟩

/-! WRK_OR_TGT (R478, chapter 14) -/
def WRK_OR_TGT_TKIND : Field := ⟨0x40090010, 9, 8, .rw, 0⟩
def WRK_OR_TGT_TID : Field := ⟨0x40090010, 6, 0, .rw, 0⟩

/-! WRK_OR_ACT (R478, chapter 14) -/
def WRK_OR_ACT_CHANNEL : Field := ⟨0x40090014, 15, 8, .rw, 0⟩
def WRK_OR_ACT_ACTION : Field := ⟨0x40090014, 7, 0, .rw, 0⟩

/-! WRK_OR_DUE_LO (R478, chapter 14) -/
def WRK_OR_DUE_LO_DUE : Field := ⟨0x40090018, 31, 0, .rw, 0⟩

/-! WRK_OR_DUE_HI (R478, chapter 14) -/
def WRK_OR_DUE_HI_DUE : Field := ⟨0x4009001C, 31, 0, .rw, 0⟩

/-! WRK_OR_ARG0 (R478, chapter 14) -/
def WRK_OR_ARG0_ARG : Field := ⟨0x40090020, 31, 0, .rw, 0⟩

/-! WRK_OR_ARG1 (R478, chapter 14) -/
def WRK_OR_ARG1_ARG : Field := ⟨0x40090024, 31, 0, .rw, 0⟩

/-! WRK_OR_ARG2_LO (R478, chapter 14) -/
def WRK_OR_ARG2_LO_ARG2 : Field := ⟨0x40090028, 31, 0, .rw, 0⟩

/-! WRK_OR_ARG2_HI (R478, chapter 14) -/
def WRK_OR_ARG2_HI_ARG2 : Field := ⟨0x4009002C, 31, 0, .rw, 0⟩

/-! WRK_OR_LIFE (R478, chapter 14) -/
def WRK_OR_LIFE_LIFE : Field := ⟨0x40090030, 31, 0, .rw, 0⟩

/-! WRK_OR_CMD (R478, chapter 14) -/
def WRK_OR_CMD_GO : Field := ⟨0x40090034, 31, 31, .wo, 0⟩

/-! WRK_OR_STATUS (R478, chapter 14) -/
def WRK_OR_STATUS_STATE : Field := ⟨0x40090038, 31, 28, .ro, 0⟩
def WRK_OR_STATUS_REASON : Field := ⟨0x40090038, 7, 0, .ro, 0⟩

/-! WRK_OR_SEQ (R478, chapter 14) -/
def WRK_OR_SEQ_SEQUENCE : Field := ⟨0x4009003C, 31, 0, .ro, 0⟩

/-! WRK_AWQ (R478, chapter 14) -/
def WRK_AWQ_ACCEPTED : Field := ⟨0x40090040, 28, 16, .ro, 0⟩
def WRK_AWQ_USED : Field := ⟨0x40090040, 12, 0, .ro, 0⟩

/-! WRK_CUST (R478, chapter 14) -/
def WRK_CUST_LIVE : Field := ⟨0x40090044, 27, 16, .ro, 0⟩
def WRK_CUST_UNACCEPTED : Field := ⟨0x40090044, 11, 0, .ro, 0⟩

/-! WRK_HEAD (R478, chapter 14) -/
def WRK_HEAD_BLOCKED : Field := ⟨0x40090048, 31, 31, .ro, 0⟩
def WRK_HEAD_WAITING : Field := ⟨0x40090048, 30, 30, .ro, 0⟩
def WRK_HEAD_CHANNEL : Field := ⟨0x40090048, 5, 0, .ro, 0⟩

/-! WRK_EPOCH (R478, chapter 14) -/
def WRK_EPOCH_EPOCH : Field := ⟨0x4009004C, 15, 0, .ro, 0⟩

/-! WRK_NEXT_SEQ (R478, chapter 14) -/
def WRK_NEXT_SEQ_SEQUENCE : Field := ⟨0x40090050, 31, 0, .ro, 0⟩

/-! WRK_EVENT (R478, chapter 14) -/
def WRK_EVENT_CR_LOST : Field := ⟨0x40090060, 10, 10, .w1c, 0⟩
def WRK_EVENT_TARGET_REFUSED : Field := ⟨0x40090060, 9, 9, .w1c, 0⟩
def WRK_EVENT_ORIG_REFUSED : Field := ⟨0x40090060, 8, 8, .w1c, 0⟩
def WRK_EVENT_HEAD_BLOCKED : Field := ⟨0x40090060, 4, 4, .w1c, 0⟩
def WRK_EVENT_VALUE : Field := ⟨0x40090060, 3, 3, .w1c, 0⟩
def WRK_EVENT_LAPSED : Field := ⟨0x40090060, 2, 2, .w1c, 0⟩
def WRK_EVENT_RETIRED : Field := ⟨0x40090060, 1, 1, .w1c, 0⟩
def WRK_EVENT_ORIG_DONE : Field := ⟨0x40090060, 0, 0, .w1c, 0⟩

/-! WRK_IEN (R478, chapter 14) -/
def WRK_IEN_IEN_HI : Field := ⟨0x40090064, 10, 8, .rw, 0⟩
def WRK_IEN_IEN_LO : Field := ⟨0x40090064, 4, 0, .rw, 0⟩

/-! WRK_CR_BASE (R478, chapter 14) -/
def WRK_CR_BASE_BASE : Field := ⟨0x40090070, 19, 0, .rw, 0⟩

/-! WRK_CR_CTL (R478, chapter 14) -/
def WRK_CR_CTL_EN : Field := ⟨0x40090074, 31, 31, .rw, 0⟩
def WRK_CR_CTL_SIZE : Field := ⟨0x40090074, 3, 0, .rw, 6⟩

/-! WRK_CR_WR (R478, chapter 14) -/
def WRK_CR_WR_WR : Field := ⟨0x40090078, 9, 0, .ro, 0⟩

/-! WRK_CR_RD (R478, chapter 14) -/
def WRK_CR_RD_RD : Field := ⟨0x4009007C, 9, 0, .rw, 0⟩

/-! WRK_VAL_BASE (R478, chapter 14) -/
def WRK_VAL_BASE_BASE : Field := ⟨0x40090080, 19, 0, .rw, 0x76000⟩

/-! WRK_VAL_LAST (R478, chapter 14) -/
def WRK_VAL_LAST_INDEX : Field := ⟨0x40090084, 7, 0, .ro, 0⟩

/-! WRK_CNT_A (R478, chapter 14) -/
def WRK_CNT_A_CELL_CRC : Field := ⟨0x40090090, 31, 16, .rc, 0⟩
def WRK_CNT_A_HOPS_EXPIRED : Field := ⟨0x40090090, 15, 0, .rc, 0⟩

/-! WRK_CNT_B (R478, chapter 14) -/
def WRK_CNT_B_DUPLICATES : Field := ⟨0x40090094, 31, 16, .rc, 0⟩
def WRK_CNT_B_CR_LOST : Field := ⟨0x40090094, 15, 8, .rc, 0⟩
def WRK_CNT_B_DEFERRED : Field := ⟨0x40090094, 7, 0, .rc, 0⟩

/-! WRK_CNT_C (R478, chapter 14) -/
def WRK_CNT_C_ORIG_REFUSED : Field := ⟨0x40090098, 31, 16, .rc, 0⟩
def WRK_CNT_C_LAPSED : Field := ⟨0x40090098, 15, 0, .rc, 0⟩

/-! WRK_CNT_D (R478, chapter 14) -/
def WRK_CNT_D_INSERTED : Field := ⟨0x4009009C, 31, 0, .rc, 0⟩

/-! WRK_ABANDON (R478, chapter 14) -/
def WRK_ABANDON_GO : Field := ⟨0x400900A0, 31, 31, .wo, 0⟩
def WRK_ABANDON_NODE : Field := ⟨0x400900A0, 6, 0, .rw, 0⟩

/-! ## Window 0x400A0000 -/

/-! PEAT_STATUS (R479, chapter 14) -/
def PEAT_STATUS_QUEUED : Field := ⟨0x400A0000, 31, 29, .ro, 0⟩
def PEAT_STATUS_DRAINING : Field := ⟨0x400A0000, 28, 28, .ro, 0⟩
def PEAT_STATUS_JRNL_FREE : Field := ⟨0x400A0000, 12, 0, .ro, 4096⟩

/-! PEAT_REBUILD (R479, chapter 14) -/
def PEAT_REBUILD_JRNL_INVALID : Field := ⟨0x400A0004, 31, 16, .ro, 0⟩
def PEAT_REBUILD_CUST_INVALID : Field := ⟨0x400A0004, 15, 0, .ro, 0⟩

/-! PEAT_CNT (R479, chapter 14) -/
def PEAT_CNT_REWRITES : Field := ⟨0x400A0008, 31, 16, .rc, 0⟩
def PEAT_CNT_COMMITS : Field := ⟨0x400A0008, 15, 0, .rc, 0⟩

/-! ## Window 0x400B0000 -/

/-! TIME_NOW_LO (R202, chapter 05) -/
def TIME_NOW_LO_NOW : Field := ⟨0x400B0000, 31, 0, .rl, 0⟩

/-! TIME_NOW_HI (R202, chapter 05) -/
def TIME_NOW_HI_NOW : Field := ⟨0x400B0004, 31, 0, .ro, 0⟩

/-! TIME_STATUS (R202, chapter 05) -/
def TIME_STATUS_MASTER_CLASS : Field := ⟨0x400B0008, 31, 28, .ro, 0xF⟩
def TIME_STATUS_MASTER_ADDR : Field := ⟨0x400B0008, 27, 21, .ro, 0⟩
def TIME_STATUS_HOPS : Field := ⟨0x400B0008, 20, 14, .ro, 0⟩
def TIME_STATUS_IS_MASTER : Field := ⟨0x400B0008, 13, 13, .ro, 0⟩
def TIME_STATUS_TIME_PORT : Field := ⟨0x400B0008, 12, 12, .ro, 0⟩
def TIME_STATUS_OWN_CLASS : Field := ⟨0x400B0008, 11, 8, .ro, 0xF⟩
def TIME_STATUS_SRC_OK : Field := ⟨0x400B0008, 7, 7, .ro, 0⟩
def TIME_STATUS_RTC_LOST : Field := ⟨0x400B0008, 6, 6, .ro, 0⟩
def TIME_STATUS_LEAP_PENDING : Field := ⟨0x400B0008, 5, 5, .ro, 0⟩
def TIME_STATUS_VALID : Field := ⟨0x400B0008, 4, 4, .ro, 0⟩
def TIME_STATUS_STATE : Field := ⟨0x400B0008, 2, 0, .ro, 0⟩

/-! TIME_CTL (R202, chapter 05) -/
def TIME_CTL_HOLD_MAX : Field := ⟨0x400B000C, 31, 24, .rw, 24⟩
def TIME_CTL_PPS_OUT_WIDTH : Field := ⟨0x400B000C, 4, 3, .rw, 0⟩
def TIME_CTL_PPS_OUT_EN : Field := ⟨0x400B000C, 2, 2, .rw, 1⟩
def TIME_CTL_SRC_EN : Field := ⟨0x400B000C, 1, 0, .rw, 0⟩

/-! TIME_OFFSET (R202, chapter 05) -/
def TIME_OFFSET_OFFSET : Field := ⟨0x400B0010, 31, 0, .ro, 0⟩

/-! TIME_FREQ (R202, chapter 05) -/
def TIME_FREQ_FREQ : Field := ⟨0x400B0014, 31, 0, .ro, 0⟩

/-! TIME_PPS_IN_LO (R202, chapter 05) -/
def TIME_PPS_IN_LO_EDGE : Field := ⟨0x400B0018, 31, 0, .rl, 0⟩

/-! TIME_PPS_IN_HI (R202, chapter 05) -/
def TIME_PPS_IN_HI_EDGE : Field := ⟨0x400B001C, 31, 0, .ro, 0⟩

/-! TIME_SRC_EDGE_LO (R202, chapter 05) -/
def TIME_SRC_EDGE_LO_EDGE : Field := ⟨0x400B0020, 31, 0, .rw, 0⟩

/-! TIME_SRC_EDGE_HI (R202, chapter 05) -/
def TIME_SRC_EDGE_HI_EDGE : Field := ⟨0x400B0024, 31, 0, .rw, 0⟩

/-! TIME_SRC_LABEL (R202, chapter 05) -/
def TIME_SRC_LABEL_LABEL : Field := ⟨0x400B0028, 31, 0, .rw, 0⟩

/-! TIME_SRC_CMD (R202, chapter 05) -/
def TIME_SRC_CMD_GO : Field := ⟨0x400B002C, 31, 31, .wo, 0⟩
def TIME_SRC_CMD_PATH : Field := ⟨0x400B002C, 7, 7, .rw, 0⟩
def TIME_SRC_CMD_LEAP60 : Field := ⟨0x400B002C, 6, 6, .rw, 0⟩
def TIME_SRC_CMD_ACC : Field := ⟨0x400B002C, 4, 0, .rw, 0⟩

/-! TIME_ASYM (R202, chapter 05) -/
def TIME_ASYM_EAST : Field := ⟨0x400B0030, 31, 16, .rw, 0⟩
def TIME_ASYM_WEST : Field := ⟨0x400B0030, 15, 0, .rw, 0⟩

/-! TIME_SPAN_E (R202, chapter 05) -/
def TIME_SPAN_E_DELAY : Field := ⟨0x400B0034, 31, 0, .ro, 0xFFFFFFFF⟩

/-! TIME_SPAN_W (R202, chapter 05) -/
def TIME_SPAN_W_DELAY : Field := ⟨0x400B0038, 31, 0, .ro, 0xFFFFFFFF⟩

/-! TIME_BEST (R202, chapter 05) -/
def TIME_BEST_BEST : Field := ⟨0x400B003C, 31, 0, .ro, 0xF0000000⟩

/-! TIME_UTC (R202, chapter 05) -/
def TIME_UTC_LEAP_DIR : Field := ⟨0x400B0040, 17, 16, .ro, 0⟩
def TIME_UTC_OFFSET : Field := ⟨0x400B0040, 15, 0, .ro, 0⟩

/-! TIME_LEAP_LO (R202, chapter 05) -/
def TIME_LEAP_LO_S_L : Field := ⟨0x400B0044, 31, 0, .rl, 0⟩

/-! TIME_LEAP_HI (R202, chapter 05) -/
def TIME_LEAP_HI_S_L : Field := ⟨0x400B0048, 31, 0, .rw, 0⟩

/-! TIME_LEAP_CMD (R202, chapter 05) -/
def TIME_LEAP_CMD_ANNOUNCE : Field := ⟨0x400B004C, 31, 31, .wo, 0⟩
def TIME_LEAP_CMD_DIR : Field := ⟨0x400B004C, 1, 0, .rw, 0⟩

/-! TIME_EVENT (R202, chapter 05) -/
def TIME_EVENT_SECOND : Field := ⟨0x400B0050, 6, 6, .w1c, 0⟩
def TIME_EVENT_LEAP_CHANGED : Field := ⟨0x400B0050, 5, 5, .w1c, 0⟩
def TIME_EVENT_SRC_CHANGED : Field := ⟨0x400B0050, 4, 4, .w1c, 0⟩
def TIME_EVENT_PORT_CHANGED : Field := ⟨0x400B0050, 3, 3, .w1c, 0⟩
def TIME_EVENT_STATE_CHANGED : Field := ⟨0x400B0050, 2, 2, .w1c, 0⟩
def TIME_EVENT_STEPPED : Field := ⟨0x400B0050, 1, 1, .w1c, 0⟩
def TIME_EVENT_MASTER_CHANGED : Field := ⟨0x400B0050, 0, 0, .w1c, 0⟩

/-! TIME_STEP (R202, chapter 05) -/
def TIME_STEP_STEP : Field := ⟨0x400B0054, 31, 0, .ro, 0⟩

/-! TIME_RTC (R202, chapter 05) -/
def TIME_RTC_SECONDS : Field := ⟨0x400B0058, 31, 0, .ro, 0⟩

/-! TIME_PPS_COMP (R202, chapter 05) -/
def TIME_PPS_COMP_COMP : Field := ⟨0x400B005C, 31, 0, .rw, 0⟩

/-! TIME_CNT (R202, chapter 05) -/
def TIME_CNT_TT_BAD : Field := ⟨0x400B0060, 31, 16, .rc, 0⟩
def TIME_CNT_SRC_REJECTS : Field := ⟨0x400B0060, 15, 0, .rc, 0⟩

/-! ## Window 0x400C0000 -/

/-! BAR_STATUS (R93, chapter 02) -/
def BAR_STATUS_MFE_ROM : Field := ⟨0x400C0000, 31, 24, .ro, 0⟩
def BAR_STATUS_OUTSTANDING : Field := ⟨0x400C0000, 12, 8, .ro, 0⟩
def BAR_STATUS_HV_ENABLED : Field := ⟨0x400C0000, 4, 4, .ro, 0⟩
def BAR_STATUS_FAILSTATE_SENT : Field := ⟨0x400C0000, 3, 3, .ro, 0⟩
def BAR_STATUS_MFE_SYNC : Field := ⟨0x400C0000, 2, 2, .ro, 0⟩
def BAR_STATUS_LINK_UP : Field := ⟨0x400C0000, 1, 1, .ro, 0⟩
def BAR_STATUS_HELLO_DONE : Field := ⟨0x400C0000, 0, 0, .ro, 0⟩

/-! BAR_SUPPLY (R93, chapter 02) -/
def BAR_SUPPLY_VBULK : Field := ⟨0x400C0004, 31, 16, .ro, 0⟩
def BAR_SUPPLY_PWRFAIL : Field := ⟨0x400C0004, 2, 2, .ro, 0⟩
def BAR_SUPPLY_VAUX_OK : Field := ⟨0x400C0004, 1, 1, .ro, 0⟩
def BAR_SUPPLY_CONV_OK : Field := ⟨0x400C0004, 0, 0, .ro, 0⟩

/-! BAR_CNT_A (R93, chapter 02) -/
def BAR_CNT_A_RETRIES : Field := ⟨0x400C0008, 31, 16, .rc, 0⟩
def BAR_CNT_A_CRC_ERR : Field := ⟨0x400C0008, 15, 0, .rc, 0⟩

/-! BAR_CNT_B (R93, chapter 02) -/
def BAR_CNT_B_LATE : Field := ⟨0x400C000C, 31, 16, .rc, 0⟩
def BAR_CNT_B_TIMEOUTS : Field := ⟨0x400C000C, 15, 0, .rc, 0⟩

/-! BAR_MBX_TX (R93, chapter 02) -/
def BAR_MBX_TX_DATA (n : Nat) : Field := ⟨0x400C0020 + 0x4 * n, 31, 0, .rw, 0⟩

/-! BAR_MBX_TXCTL (R93, chapter 02) -/
def BAR_MBX_TXCTL_BUSY : Field := ⟨0x400C0038, 31, 31, .ro, 0⟩
def BAR_MBX_TXCTL_GO : Field := ⟨0x400C0038, 30, 30, .wo, 0⟩
def BAR_MBX_TXCTL_RESULT : Field := ⟨0x400C0038, 23, 16, .ro, 0⟩
def BAR_MBX_TXCTL_TYPE : Field := ⟨0x400C0038, 7, 0, .rw, 8⟩

/-! BAR_MBX_RX (R93, chapter 02) -/
def BAR_MBX_RX_DATA (n : Nat) : Field := ⟨0x400C0040 + 0x4 * n, 31, 0, .ro, 0⟩

/-! BAR_MAINS_A (R93, chapter 02) -/
def BAR_MAINS_A_FREQ (n : Nat) : Field := ⟨0x400C0060 + 0x8 * n, 31, 16, .ro, 0⟩
def BAR_MAINS_A_RMS (n : Nat) : Field := ⟨0x400C0060 + 0x8 * n, 15, 0, .ro, 0⟩

/-! BAR_MAINS_B (R93, chapter 02) -/
def BAR_MAINS_B_FREQ_OK (n : Nat) : Field := ⟨0x400C0064 + 0x8 * n, 1, 1, .ro, 0⟩
def BAR_MAINS_B_PRESENT (n : Nat) : Field := ⟨0x400C0064 + 0x8 * n, 0, 0, .ro, 0⟩

/-! BAR_OPTIME (R93, chapter 02) -/
def BAR_OPTIME_RELEASE (n : Nat) : Field := ⟨0x400C0080 + 0x4 * n, 31, 16, .ro, 0⟩
def BAR_OPTIME_OPERATE (n : Nat) : Field := ⟨0x400C0080 + 0x4 * n, 15, 0, .ro, 0⟩

/-! BAR_HVI (R93, chapter 02) -/
def BAR_HVI_DEADZONE : Field := ⟨0x400C00B0, 7, 4, .ro, 0⟩
def BAR_HVI_STATE : Field := ⟨0x400C00B0, 3, 0, .ro, 0⟩

/-! ## Window 0x400D0000 -/

/-! FLT_STATUS (R513, chapter 15) -/
def FLT_STATUS_PENDING : Field := ⟨0x400D0000, 19, 16, .ro, 0⟩
def FLT_STATUS_ACK_MISS : Field := ⟨0x400D0000, 11, 11, .ro, 0⟩
def FLT_STATUS_WARN : Field := ⟨0x400D0000, 10, 10, .ro, 0⟩
def FLT_STATUS_FIRST_VALID : Field := ⟨0x400D0000, 9, 9, .ro, 0⟩
def FLT_STATUS_FIRST_RETAINED : Field := ⟨0x400D0000, 8, 8, .ro, 0⟩
def FLT_STATUS_PULSE : Field := ⟨0x400D0000, 1, 1, .ro, 0⟩
def FLT_STATUS_FLTN_LOW : Field := ⟨0x400D0000, 0, 0, .ro, 1⟩

/-! FLT_CFG (R513, chapter 15) -/
def FLT_CFG_ESC_MS : Field := ⟨0x400D0004, 31, 16, .rw, 250⟩
def FLT_CFG_PULSE_MS : Field := ⟨0x400D0004, 15, 8, .rw, 20⟩
def FLT_CFG_FREEZE_ON_FATAL : Field := ⟨0x400D0004, 2, 2, .rw, 0⟩
def FLT_CFG_STICKY_CONTAINED : Field := ⟨0x400D0004, 1, 1, .rw, 1⟩
def FLT_CFG_STICKY_CORRECTED : Field := ⟨0x400D0004, 0, 0, .rw, 0⟩

/-! FLT_CTL (R513, chapter 15) -/
def FLT_CTL_CLEAR_FIRST : Field := ⟨0x400D0008, 31, 31, .wo, 0⟩
def FLT_CTL_DRIVE : Field := ⟨0x400D0008, 0, 0, .rw, 0⟩

/-! FLT_STICKY (R513, chapter 15) -/
def FLT_STICKY_CONTAINED : Field := ⟨0x400D000C, 1, 1, .w1c, 0⟩
def FLT_STICKY_CORRECTED : Field := ⟨0x400D000C, 0, 0, .w1c, 0⟩

/-! FLT_ACK (R513, chapter 15) -/
def FLT_ACK_GO : Field := ⟨0x400D0010, 31, 31, .wo, 0⟩
def FLT_ACK_ENTRY : Field := ⟨0x400D0010, 18, 16, .wo, 0⟩
def FLT_ACK_TAG : Field := ⟨0x400D0010, 15, 0, .wo, 0⟩

/-! FLT_LOG_HEAD (R513, chapter 15) -/
def FLT_LOG_HEAD_COUNT : Field := ⟨0x400D0014, 20, 16, .ro, 0⟩
def FLT_LOG_HEAD_NEWEST : Field := ⟨0x400D0014, 3, 0, .ro, 0⟩

/-! FLT_CNT_A (R513, chapter 15) -/
def FLT_CNT_A_CORRECTED : Field := ⟨0x400D0020, 31, 16, .rc, 0⟩
def FLT_CNT_A_CONTAINED : Field := ⟨0x400D0020, 15, 0, .rc, 0⟩

/-! FLT_CNT_B (R513, chapter 15) -/
def FLT_CNT_B_ESCALATED : Field := ⟨0x400D0024, 31, 16, .rc, 0⟩
def FLT_CNT_B_DROPPED : Field := ⟨0x400D0024, 15, 0, .rc, 0⟩

/-! FLT_INJ (R513, chapter 15) -/
def FLT_INJ_ARM : Field := ⟨0x400D0030, 31, 31, .rw, 0⟩
def FLT_INJ_DONE : Field := ⟨0x400D0030, 30, 30, .ro, 0⟩
def FLT_INJ_CONTINUOUS : Field := ⟨0x400D0030, 29, 29, .rw, 0⟩
def FLT_INJ_FATAL_OK : Field := ⟨0x400D0030, 28, 28, .rw, 0⟩
def FLT_INJ_BITS : Field := ⟨0x400D0030, 25, 24, .rw, 1⟩
def FLT_INJ_CHECKER : Field := ⟨0x400D0030, 23, 16, .rw, 0⟩
def FLT_INJ_SEL : Field := ⟨0x400D0030, 15, 0, .rw, 0⟩

/-! FLT_INJ_ADDR (R513, chapter 15) -/
def FLT_INJ_ADDR_ADDR : Field := ⟨0x400D0034, 31, 0, .rw, 0⟩

/-! FLT_PEND_MSG_LO (R513, chapter 15) -/
def FLT_PEND_MSG_LO_MSG (n : Nat) : Field := ⟨0x400D0040 + 0x10 * n, 31, 0, .rl, 0⟩

/-! FLT_PEND_MSG_HI (R513, chapter 15) -/
def FLT_PEND_MSG_HI_MSG (n : Nat) : Field := ⟨0x400D0044 + 0x10 * n, 31, 0, .ro, 0⟩

/-! FLT_PEND_STATE (R513, chapter 15) -/
def FLT_PEND_STATE_VALID (n : Nat) : Field := ⟨0x400D0048 + 0x10 * n, 31, 31, .ro, 0⟩
def FLT_PEND_STATE_WARNED (n : Nat) : Field := ⟨0x400D0048 + 0x10 * n, 30, 30, .ro, 0⟩
def FLT_PEND_STATE_TAG (n : Nat) : Field := ⟨0x400D0048 + 0x10 * n, 15, 0, .ro, 0⟩

/-! FLT_PEND_LEFT (R513, chapter 15) -/
def FLT_PEND_LEFT_MS (n : Nat) : Field := ⟨0x400D004C + 0x10 * n, 15, 0, .ro, 0⟩

/-! FLT_FIRST_0 (R513, chapter 15) -/
def FLT_FIRST_0_W : Field := ⟨0x400D0100, 31, 0, .rl, 0⟩

/-! FLT_FIRST_1_7 (R513, chapter 15) -/
def FLT_FIRST_1_7_W (n : Nat) : Field := ⟨0x400D0104 + 0x4 * n, 31, 0, .ro, 0⟩

/-! FLT_LOG_0 (R513, chapter 15) -/
def FLT_LOG_0_W (n : Nat) : Field := ⟨0x400D0400 + 0x20 * n, 31, 0, .rl, 0⟩

/-! FLT_LOG_1 (R513, chapter 15) -/
def FLT_LOG_1_W (n : Nat) : Field := ⟨0x400D0404 + 0x20 * n, 31, 0, .ro, 0⟩

/-! FLT_LOG_2 (R513, chapter 15) -/
def FLT_LOG_2_W (n : Nat) : Field := ⟨0x400D0408 + 0x20 * n, 31, 0, .ro, 0⟩

/-! FLT_LOG_3 (R513, chapter 15) -/
def FLT_LOG_3_W (n : Nat) : Field := ⟨0x400D040C + 0x20 * n, 31, 0, .ro, 0⟩

/-! FLT_LOG_4 (R513, chapter 15) -/
def FLT_LOG_4_W (n : Nat) : Field := ⟨0x400D0410 + 0x20 * n, 31, 0, .ro, 0⟩

/-! FLT_LOG_5 (R513, chapter 15) -/
def FLT_LOG_5_W (n : Nat) : Field := ⟨0x400D0414 + 0x20 * n, 31, 0, .ro, 0⟩

/-! FLT_LOG_6 (R513, chapter 15) -/
def FLT_LOG_6_W (n : Nat) : Field := ⟨0x400D0418 + 0x20 * n, 31, 0, .ro, 0⟩

/-! FLT_LOG_7 (R513, chapter 15) -/
def FLT_LOG_7_W (n : Nat) : Field := ⟨0x400D041C + 0x20 * n, 31, 0, .ro, 0⟩

/-! ## Window 0x400E0000 -/

/-! KIN_STATUS (R131, chapter 03) -/
def KIN_STATUS_PHASE : Field := ⟨0x400E0000, 31, 28, .ro, 0⟩
def KIN_STATUS_RESET_KIND : Field := ⟨0x400E0000, 27, 26, .ro, 0⟩
def KIN_STATUS_RETURNED : Field := ⟨0x400E0000, 7, 7, .ro, 0⟩
def KIN_STATUS_INSERTED : Field := ⟨0x400E0000, 6, 6, .ro, 0⟩
def KIN_STATUS_HV_PENDING : Field := ⟨0x400E0000, 5, 5, .ro, 0⟩
def KIN_STATUS_HV_REFUSED : Field := ⟨0x400E0000, 4, 4, .ro, 0⟩
def KIN_STATUS_EMULATED : Field := ⟨0x400E0000, 3, 3, .ro, 0⟩
def KIN_STATUS_IDENT_COPY : Field := ⟨0x400E0000, 2, 2, .ro, 0⟩
def KIN_STATUS_IMAGE_COPY : Field := ⟨0x400E0000, 0, 0, .ro, 0⟩

/-! KIN_IMAGE_SEQ (R131, chapter 03) -/
def KIN_IMAGE_SEQ_SEQUENCE : Field := ⟨0x400E0004, 31, 0, .ro, 0⟩

/-! KIN_COPY (R131, chapter 03) -/
def KIN_COPY_VERDICT (n : Nat) : Field := ⟨0x400E0008 + 0x4 * n, 31, 24, .ro, 0xFF⟩
def KIN_COPY_LEVEL_LO (n : Nat) : Field := ⟨0x400E0008 + 0x4 * n, 23, 20, .ro, 0⟩
def KIN_COPY_LEVEL_HI (n : Nat) : Field := ⟨0x400E0008 + 0x4 * n, 19, 16, .ro, 0⟩

/-! KIN_REPAIR (R131, chapter 03) -/
def KIN_REPAIR_FOUND : Field := ⟨0x400E0010, 31, 24, .ro, 0⟩
def KIN_REPAIR_BANKS : Field := ⟨0x400E0010, 16, 0, .ro, 0⟩

/-! KIN_TIME0 (R131, chapter 03) -/
def KIN_TIME0_END_K1 : Field := ⟨0x400E0020, 31, 16, .ro, 0⟩
def KIN_TIME0_END_K0 : Field := ⟨0x400E0020, 15, 0, .ro, 0⟩

/-! KIN_TIME1 (R131, chapter 03) -/
def KIN_TIME1_END_K3 : Field := ⟨0x400E0024, 31, 16, .ro, 0⟩
def KIN_TIME1_END_K2 : Field := ⟨0x400E0024, 15, 0, .ro, 0⟩

/-! KIN_TIME2 (R131, chapter 03) -/
def KIN_TIME2_END_K5 : Field := ⟨0x400E0028, 31, 16, .ro, 0⟩
def KIN_TIME2_END_K4 : Field := ⟨0x400E0028, 15, 0, .ro, 0⟩

/-! KIN_TIME3 (R131, chapter 03) -/
def KIN_TIME3_END_K7 : Field := ⟨0x400E002C, 31, 16, .ro, 0⟩
def KIN_TIME3_END_K6 : Field := ⟨0x400E002C, 15, 0, .ro, 0⟩

/-! PLG_ADDR (R160, chapter 04) -/
def PLG_ADDR_ADDR : Field := ⟨0x400E0040, 19, 0, .rw, 0⟩

/-! PLG_SPAD (R160, chapter 04) -/
def PLG_SPAD_SPAD : Field := ⟨0x400E0044, 19, 0, .rw, 0⟩

/-! PLG_CTL (R160, chapter 04) -/
def PLG_CTL_GO : Field := ⟨0x400E0048, 31, 31, .wo, 0⟩
def PLG_CTL_DIR : Field := ⟨0x400E0048, 30, 30, .rw, 0⟩
def PLG_CTL_LEN : Field := ⟨0x400E0048, 12, 0, .rw, 0⟩

/-! PLG_STATUS (R160, chapter 04) -/
def PLG_STATUS_BUSY : Field := ⟨0x400E004C, 31, 31, .ro, 0⟩
def PLG_STATUS_RESULT : Field := ⟨0x400E004C, 23, 16, .ro, 0⟩
def PLG_STATUS_DONE : Field := ⟨0x400E004C, 12, 0, .ro, 0⟩

/-! PLG_DIST_STATE (R160, chapter 04) -/
def PLG_DIST_STATE_ROLE : Field := ⟨0x400E0050, 31, 28, .ro, 0⟩
def PLG_DIST_STATE_STATE : Field := ⟨0x400E0050, 27, 24, .ro, 0⟩
def PLG_DIST_STATE_REFUSAL : Field := ⟨0x400E0050, 23, 16, .ro, 0⟩
def PLG_DIST_STATE_CHUNKS : Field := ⟨0x400E0050, 15, 0, .ro, 0⟩

/-! PLG_DIST_SEQ (R160, chapter 04) -/
def PLG_DIST_SEQ_SEQUENCE : Field := ⟨0x400E0054, 31, 0, .ro, 0⟩

/-! PLG_DIST_ACT_LO (R160, chapter 04) -/
def PLG_DIST_ACT_LO_ACT : Field := ⟨0x400E0058, 31, 0, .rl, 0⟩

/-! PLG_DIST_ACT_HI (R160, chapter 04) -/
def PLG_DIST_ACT_HI_ACT : Field := ⟨0x400E005C, 31, 0, .ro, 0⟩

/-! PLG_DIST_ROSTER (R160, chapter 04) -/
def PLG_DIST_ROSTER_STAGED (n : Nat) : Field := ⟨0x400E0060 + 0x4 * n, 31, 0, .ro, 0⟩

/-! ## Window 0x400F0000 -/

/-! IDENT_MODULE (R51, chapter 01) -/
def IDENT_MODULE_MAKER : Field := ⟨0x400F0000, 31, 24, .ro, 1⟩
def IDENT_MODULE_MFE_ROM : Field := ⟨0x400F0000, 23, 16, .ro, 0⟩
def IDENT_MODULE_RUN_LEVEL : Field := ⟨0x400F0000, 15, 12, .ro, 0⟩
def IDENT_MODULE_NATIVE_LEVEL : Field := ⟨0x400F0000, 11, 8, .ro, 3⟩
def IDENT_MODULE_REV : Field := ⟨0x400F0000, 7, 0, .ro, 0x43⟩

/-! IDENT_STRAPS (R51, chapter 01) -/
def IDENT_STRAPS_FAIL1 : Field := ⟨0x400F0004, 6, 6, .ro, 0⟩
def IDENT_STRAPS_FAIL0 : Field := ⟨0x400F0004, 5, 5, .ro, 0⟩
def IDENT_STRAPS_FLTM : Field := ⟨0x400F0004, 4, 4, .ro, 0⟩
def IDENT_STRAPS_MARCH : Field := ⟨0x400F0004, 3, 3, .ro, 0⟩
def IDENT_STRAPS_TMC : Field := ⟨0x400F0004, 2, 2, .ro, 0⟩
def IDENT_STRAPS_FRZB : Field := ⟨0x400F0004, 1, 1, .ro, 0⟩
def IDENT_STRAPS_HALF : Field := ⟨0x400F0004, 0, 0, .ro, 0⟩

/-! IDENT_CODES (R51, chapter 01) -/
def IDENT_CODES_ADDRESS : Field := ⟨0x400F0008, 22, 16, .ro, 0⟩
def IDENT_CODES_KEY_LO : Field := ⟨0x400F0008, 11, 8, .ro, 0⟩
def IDENT_CODES_KEY_HI : Field := ⟨0x400F0008, 6, 4, .ro, 0⟩
def IDENT_CODES_CLASS : Field := ⟨0x400F0008, 2, 0, .ro, 0⟩

/-! IDENT_RAW (R51, chapter 01) -/
def IDENT_RAW_KEY_HI_CODE : Field := ⟨0x400F000C, 27, 16, .ro, 0⟩
def IDENT_RAW_KEY_LO_CODE : Field := ⟨0x400F000C, 11, 0, .ro, 0⟩

/-! IDENT_CLASS_RAW (R51, chapter 01) -/
def IDENT_CLASS_RAW_CLASS_CODE : Field := ⟨0x400F0010, 11, 0, .ro, 0⟩

/-! IDENT_SERIAL_LO (R51, chapter 01) -/
def IDENT_SERIAL_LO_SERIAL : Field := ⟨0x400F0014, 31, 0, .rl, 0⟩

/-! IDENT_SERIAL_HI (R51, chapter 01) -/
def IDENT_SERIAL_HI_SERIAL : Field := ⟨0x400F0018, 31, 0, .ro, 0⟩

/-! IDENT_PLUG (R51, chapter 01) -/
def IDENT_PLUG_WP_OPEN : Field := ⟨0x400F001C, 2, 2, .ro, 0⟩
def IDENT_PLUG_HOLD : Field := ⟨0x400F001C, 1, 1, .ro, 0⟩
def IDENT_PLUG_PRESENT : Field := ⟨0x400F001C, 0, 0, .ro, 0⟩

/-- The registers of the HRT window. -/
def hrtRows : List RegRow := [
  ⟨0x40000000, 1, 4, fun _ => [HRT_STATUS_DRAINING, HRT_STATUS_EMBER]⟩,
  ⟨0x40000004, 1, 4, fun _ => [HRT_EXC_VEC_ENTRY]⟩,
  ⟨0x40000008, 1, 4, fun _ => [HRT_SWAP_SWAPWAIT, HRT_SWAP_LAST_ABANDONED, HRT_SWAP_PRELOADED, HRT_SWAP_ACTIVE_PAGE]⟩,
  ⟨0x4000000C, 1, 4, fun _ => [HRT_CNT_COALESCED, HRT_CNT_ABORTED]⟩,
  ⟨0x40000010, 2, 0x4, fun n => [HRT_READY_READY n]⟩,
  ⟨0x40000018, 2, 0x4, fun n => [HRT_UNREADY_READY n]⟩,
  ⟨0x40000020, 2, 0x4, fun n => [HRT_RUNNING_RUNNING n]⟩,
  ⟨0x40000028, 1, 4, fun _ => [HRT_TMR_EVENT_FIRED]⟩,
  ⟨0x4000002C, 1, 4, fun _ => [HRT_DOORBELL_RUNG]⟩,
  ⟨0x40000040, 4, 0x20, fun n => [EMB_CTL_RESTART n]⟩,
  ⟨0x40000044, 4, 0x20, fun n => [EMB_STATE_SLOT n, EMB_STATE_IN_TASK n, EMB_STATE_EXC_ACTIVE n, EMB_STATE_NEST n, EMB_STATE_SBUF n, EMB_STATE_PC n]⟩,
  ⟨0x40000048, 4, 0x20, fun n => [EMB_EPC_FLAGS n, EMB_EPC_PC n]⟩,
  ⟨0x4000004C, 4, 0x20, fun n => [EMB_CAUSE_CAUSE n]⟩,
  ⟨0x40000050, 4, 0x20, fun n => [EMB_EADDR_ADDR n]⟩,
  ⟨0x40000054, 4, 0x20, fun n => [EMB_RUNCYC_CYCLES n]⟩,
  ⟨0x40000100, 64, 0x10, fun n => [TSK_CFG_AFFINITY n, TSK_CFG_PRIO n, TSK_CFG_ENTRY n]⟩,
  ⟨0x40000104, 64, 0x10, fun n => [TSK_BUDGET_BUDGET n]⟩,
  ⟨0x40000108, 64, 0x10, fun n => [TSK_ARG_ARG n]⟩,
  ⟨0x4000010C, 64, 0x10, fun n => [TSK_STAT_RUNS n, TSK_STAT_LAST_EMBER n, TSK_STAT_ABORTED n, TSK_STAT_RERUN n, TSK_STAT_STATE n]⟩,
  ⟨0x40000600, 16, 0x10, fun n => [TMR_CTL_EN n, TMR_CTL_TASK_EN n, TMR_CTL_TASK n, TMR_CTL_MISSED n]⟩,
  ⟨0x40000604, 16, 0x10, fun n => [TMR_DUE_LO_DUE n]⟩,
  ⟨0x40000608, 16, 0x10, fun n => [TMR_DUE_HI_DUE n]⟩,
  ⟨0x4000060C, 16, 0x10, fun n => [TMR_PERIOD_PERIOD n]⟩]

/-- The registers of the IC window. -/
def icRows : List RegRow := [
  ⟨0x40010000, 4, 0x4, fun n => [IC_PEND_P n]⟩,
  ⟨0x40010010, 4, 0x4, fun n => [IC_EN_SET_EN n]⟩,
  ⟨0x40010020, 4, 0x4, fun n => [IC_EN_CLR_EN n]⟩,
  ⟨0x40010030, 4, 0x4, fun n => [IC_LAT_SET_L n]⟩,
  ⟨0x40010040, 4, 0x4, fun n => [IC_LAT_CLR_L n]⟩,
  ⟨0x40010050, 4, 0x4, fun n => [IC_ARRIVED_ARR n]⟩,
  ⟨0x40010060, 4, 0x4, fun n => [IC_INSERV_INS n]⟩,
  ⟨0x40010080, 32, 0x4, fun n => [IC_CNT_C3 n, IC_CNT_C2 n, IC_CNT_C1 n, IC_CNT_C0 n]⟩,
  ⟨0x40010100, 128, 0x4, fun n => [IC_SRC_ROUTE n, IC_SRC_PRIO n]⟩,
  ⟨0x40010300, 4, 0x20, fun n => [IC_ECTL_MODE n, IC_ECTL_SCAN_ENTRY n, IC_ECTL_VBASE n, IC_ECTL_CEIL n]⟩,
  ⟨0x40010304, 4, 0x20, fun n => [IC_ESTAT_LAST_VALID n, IC_ESTAT_LAST n, IC_ESTAT_LEVEL n]⟩,
  ⟨0x40010308, 4, 0x20, fun n => [IC_ETAKEN_TAKEN n]⟩,
  ⟨0x40010310, 4, 0x20, fun n => [IC_SCAN0_SCAN n]⟩,
  ⟨0x40010314, 4, 0x20, fun n => [IC_SCAN1_SCAN n]⟩,
  ⟨0x40010318, 4, 0x20, fun n => [IC_SCAN2_SCAN n]⟩,
  ⟨0x4001031C, 4, 0x20, fun n => [IC_SCAN3_SCAN n]⟩]

/-- The registers of the CH window. -/
def chRows : List RegRow := [
  ⟨0x40020000, 64, 0x100, fun n => [CH_CTL_MODE n, CH_CTL_DOMAIN n, CH_CTL_WHEEL n, CH_CTL_FAIL_LEVEL n, CH_CTL_FAIL_HIZ n, CH_CTL_FLUSH n, CH_CTL_EN n]⟩,
  ⟨0x40020004, 64, 0x100, fun n => [CH_STATUS_CFG_BAD n, CH_STATUS_CFG_REFUSED n, CH_STATUS_COUNT n, CH_STATUS_LEVEL n, CH_STATUS_AT_FAIL n, CH_STATUS_HEAD_WAIT n, CH_STATUS_HEAD_FIXED n, CH_STATUS_HEAD_BEGUN n, CH_STATUS_HEAD_BAD n, CH_STATUS_RUNNING n, CH_STATUS_ACTIVE n]⟩,
  ⟨0x40020008, 64, 0x100, fun n => [CH_EVENT_EV n]⟩,
  ⟨0x4002000C, 64, 0x100, fun n => [CH_IEN_EN n]⟩,
  ⟨0x40020010, 64, 0x100, fun n => [CH_CFG0_FILT n, CH_CFG0_INVERT n, CH_CFG0_EDGE n]⟩,
  ⟨0x40020014, 64, 0x100, fun n => [CH_CFG1_V n]⟩,
  ⟨0x40020018, 64, 0x100, fun n => [CH_CFG2_V n]⟩,
  ⟨0x4002001C, 64, 0x100, fun n => [CH_CFG3_V n]⟩,
  ⟨0x40020028, 64, 0x100, fun n => [CH_CAP_LO_CAP n]⟩,
  ⟨0x4002002C, 64, 0x100, fun n => [CH_CAP_HI_CAP n]⟩,
  ⟨0x40020030, 64, 0x100, fun n => [CH_RES0_RES0 n]⟩,
  ⟨0x40020034, 64, 0x100, fun n => [CH_RES1_RES1 n]⟩,
  ⟨0x40020038, 64, 0x100, fun n => [CH_SNAP_LO_SNAP n]⟩,
  ⟨0x4002003C, 64, 0x100, fun n => [CH_SNAP_HI_SNAP n]⟩,
  ⟨0x40020040, 64, 0x100, fun n => [CH_SNAPV_VALUE n]⟩,
  ⟨0x40020044, 64, 0x100, fun n => [CH_HEAD_KEY_LO_KEY n]⟩,
  ⟨0x40020048, 64, 0x100, fun n => [CH_HEAD_KEY_HI_KEY n]⟩,
  ⟨0x4002004C, 64, 0x100, fun n => [CH_HEAD_ACT_ACTION n]⟩,
  ⟨0x40020050, 64, 0x100, fun n => [CH_HEAD_TAG_TAG n]⟩,
  ⟨0x40020054, 64, 0x100, fun n => [CH_HEAD_FIRE_LO_FIRE n]⟩,
  ⟨0x40020058, 64, 0x100, fun n => [CH_HEAD_FIRE_HI_FIRE n]⟩,
  ⟨0x4002005C, 64, 0x100, fun n => [CH_ELOG_WR_WR n]⟩,
  ⟨0x40020060, 64, 0x100, fun n => [CH_ELOG_RD_RD n]⟩,
  ⟨0x40020064, 64, 0x100, fun n => [CH_CNT_A_LATE n, CH_CNT_A_FULL n]⟩,
  ⟨0x40020068, 64, 0x100, fun n => [CH_CNT_B_LOST n, CH_CNT_B_HV_FALLBACK n]⟩,
  ⟨0x40024000, 2, 0x4, fun n => [CHA_PEND_P n]⟩,
  ⟨0x40024020, 3, 0x20, fun n => [PG_CFG_APPLY n, PG_CFG_EN n, PG_CFG_LOW_WATER n, PG_CFG_DEPTH n]⟩,
  ⟨0x40024024, 3, 0x20, fun n => [PG_T0_T0 n]⟩,
  ⟨0x40024028, 3, 0x20, fun n => [PG_PLANES_PAIR n]⟩,
  ⟨0x4002402C, 3, 0x20, fun n => [PG_STATUS_FULL n, PG_STATUS_PENDING n, PG_STATUS_HOLDING n, PG_STATUS_PLANE n, PG_STATUS_FILL n]⟩,
  ⟨0x40024030, 3, 0x20, fun n => [PG_CNT_UNDERRUN n, PG_CNT_DISCARDED n]⟩]

/-- The registers of the WHL window. -/
def whlRows : List RegRow := [
  ⟨0x40030000, 8, 0x100, fun n => [WHL_CTL_SOURCE n, WHL_CTL_SRC_CH n, WHL_CTL_PATTERN n, WHL_CTL_TABLE n, WHL_CTL_FIFO_FLUSH n, WHL_CTL_RESYNC n, WHL_CTL_EN n]⟩,
  ⟨0x40030004, 8, 0x100, fun n => [WHL_STATUS_CFG_BAD n, WHL_STATUS_CFG_REFUSED n, WHL_STATUS_FILL n, WHL_STATUS_ERRS n, WHL_STATUS_REV_EST n, WHL_STATUS_PREDICTING n, WHL_STATUS_SYNC n]⟩,
  ⟨0x40030008, 8, 0x100, fun n => [WHL_EVENT_EV n]⟩,
  ⟨0x4003000C, 8, 0x100, fun n => [WHL_IEN_EN n]⟩,
  ⟨0x40030010, 8, 0x100, fun n => [WHL_CFG0_INDEX_CH n, WHL_CFG0_SYNC n, WHL_CFG0_MISSING n, WHL_CFG0_FEATURE n, WHL_CFG0_N n]⟩,
  ⟨0x40030014, 8, 0x100, fun n => [WHL_CFG1_OFFSET n]⟩,
  ⟨0x40030018, 8, 0x100, fun n => [WHL_CFG2_WIDTH n, WHL_CFG2_EXTRA_ANGLE n]⟩,
  ⟨0x4003001C, 8, 0x100, fun n => [WHL_CFG3_CONFIRM n, WHL_CFG3_ORDER n, WHL_CFG3_MAX_SKIP n, WHL_CFG3_ERR_LIMIT n, WHL_CFG3_SPAN n, WHL_CFG3_TOL n]⟩,
  ⟨0x40030020, 8, 0x100, fun n => [WHL_CFG4_STALL n]⟩,
  ⟨0x40030024, 8, 0x100, fun n => [WHL_CFG5_ARM n]⟩,
  ⟨0x40030028, 8, 0x100, fun n => [WHL_CFG6_MARK_EN n, WHL_CFG6_MARK_ANGLE n]⟩,
  ⟨0x4003002C, 8, 0x100, fun n => [WHL_REV_REV n]⟩,
  ⟨0x40030030, 8, 0x100, fun n => [WHL_POS_ANG_VALID n, WHL_POS_ANG_ANGLE n]⟩,
  ⟨0x40030034, 8, 0x100, fun n => [WHL_POS_REV_REV n]⟩,
  ⟨0x40030038, 8, 0x100, fun n => [WHL_TOOTH_LO_TIME n]⟩,
  ⟨0x4003003C, 8, 0x100, fun n => [WHL_TOOTH_HI_TIME n]⟩,
  ⟨0x40030040, 8, 0x100, fun n => [WHL_TOOTH_POS_INDEX n, WHL_TOOTH_POS_ANGLE n]⟩,
  ⟨0x40030044, 8, 0x100, fun n => [WHL_PERIOD_LO_PERIOD n]⟩,
  ⟨0x40030048, 8, 0x100, fun n => [WHL_PERIOD_HI_PERIOD n]⟩,
  ⟨0x4003004C, 8, 0x100, fun n => [WHL_SYN_LO_V n]⟩,
  ⟨0x40030050, 8, 0x100, fun n => [WHL_SYN_HI_V n]⟩,
  ⟨0x40030054, 8, 0x100, fun n => [WHL_FIFO_CFG_START_VALID n, WHL_FIFO_CFG_START_INDEX n, WHL_FIFO_CFG_LOW_WATER n]⟩,
  ⟨0x40030058, 8, 0x100, fun n => [WHL_CNT_A_TOOTH_ERR n, WHL_CNT_A_SKIPPED n]⟩,
  ⟨0x4003005C, 8, 0x100, fun n => [WHL_CNT_B_LOST n, WHL_CNT_B_FIFO_REJECT n]⟩,
  ⟨0x40030800, 4, 0x20, fun n => [PH_CFG_EN n, PH_CFG_FILTER n, PH_CFG_MUL n, PH_CFG_B n, PH_CFG_A n]⟩,
  ⟨0x40030804, 4, 0x20, fun n => [PH_RAW_PHI n]⟩,
  ⟨0x40030808, 4, 0x20, fun n => [PH_FILT_FILT n]⟩,
  ⟨0x4003080C, 4, 0x20, fun n => [PH_MINMAX_MIN n, PH_MINMAX_MAX n]⟩,
  ⟨0x40030810, 4, 0x20, fun n => [PH_WIN_HI n, PH_WIN_LO n]⟩,
  ⟨0x40030814, 4, 0x20, fun n => [PH_COUNT_MISSED n, PH_COUNT_SAMPLES n]⟩,
  ⟨0x40030900, 8, 0x4, fun n => [TBL_COUNT_COUNT n]⟩,
  ⟨0x40034000, 4096, 0x4, fun n => [TBL_ANGLE_ANGLE n]⟩]

/-- The registers of the GSR window. -/
def gsrRows : List RegRow := [
  ⟨0x40040000, 8, 0x40, fun n => [GSR_CTL_GO n, GSR_CTL_RESUME n, GSR_CTL_ABORT n]⟩,
  ⟨0x40040004, 8, 0x40, fun n => [GSR_DESC_ADDR n]⟩,
  ⟨0x40040008, 8, 0x40, fun n => [GSR_STATUS_STATE n, GSR_STATUS_REASON n, GSR_STATUS_DESCS n]⟩,
  ⟨0x4004000C, 8, 0x40, fun n => [GSR_CUR_ADDR n]⟩,
  ⟨0x40040010, 8, 0x40, fun n => [GSR_POS0_I1 n, GSR_POS0_I0 n]⟩,
  ⟨0x40040014, 8, 0x40, fun n => [GSR_POS1_I2 n]⟩,
  ⟨0x40040018, 8, 0x40, fun n => [GSR_RATE_BURST n, GSR_RATE_RATE n]⟩,
  ⟨0x4004001C, 8, 0x40, fun n => [GSR_EVENT_REFUSED n, GSR_EVENT_STOPPED n, GSR_EVENT_END n, GSR_EVENT_DONE n]⟩,
  ⟨0x40040020, 8, 0x40, fun n => [GSR_IEN_IEN n]⟩,
  ⟨0x40040024, 8, 0x40, fun n => [GSR_CYC_CYCLES n]⟩,
  ⟨0x40040200, 1, 4, fun _ => [GSR_GSTATUS_BUSERR, GSR_GSTATUS_STOPPED_MASK, GSR_GSTATUS_ERR_CH, GSR_GSTATUS_ERR_TYPE, GSR_GSTATUS_RUNNING]⟩,
  ⟨0x40040204, 1, 4, fun _ => [GSR_ERR_ADDR_ADDR]⟩]

/-- The registers of the SPM window. -/
def spmRows : List RegRow := [
  ⟨0x40050000, 1, 4, fun _ => [SPM_ARB_RR]⟩,
  ⟨0x40050004, 1, 4, fun _ => [SPM_RRCOUNT_LO_COUNT]⟩,
  ⟨0x40050008, 1, 4, fun _ => [SPM_RRCOUNT_HI_COUNT_8]⟩,
  ⟨0x40050010, 1, 4, fun _ => [SPM_POWER_LO_STATE]⟩,
  ⟨0x40050014, 1, 4, fun _ => [SPM_POWER_HI_STATE_16]⟩,
  ⟨0x40050018, 1, 4, fun _ => [SPM_PSTAT_ON]⟩,
  ⟨0x4005001C, 1, 4, fun _ => [SPM_RETAIN_RETAIN]⟩,
  ⟨0x40050020, 5, 0x4, fun n => [SPM_CONFLICT_ODD n, SPM_CONFLICT_EVEN n]⟩,
  ⟨0x40050034, 1, 4, fun _ => [SPM_CONFLICT5_Z]⟩,
  ⟨0x40050040, 1, 4, fun _ => [SPM_ECC_CNT_UNCORR, SPM_ECC_CNT_CORR]⟩,
  ⟨0x40050044, 1, 4, fun _ => [SPM_ECC_ADDR_ADDR]⟩,
  ⟨0x40050080, 8, 0x8, fun n => [SPM_WIN_BASE_BASE n]⟩,
  ⟨0x40050084, 8, 0x8, fun n => [SPM_WIN_CTL_EN n, SPM_WIN_CTL_BAD n, SPM_WIN_CTL_SIZE n]⟩,
  ⟨0x40050100, 1, 4, fun _ => [SPM_MARCH_CTL_GO, SPM_MARCH_CTL_PRESERVE, SPM_MARCH_CTL_BANKS]⟩,
  ⟨0x40050104, 1, 4, fun _ => [SPM_MARCH_STATUS_BUSY, SPM_MARCH_STATUS_FOUND]⟩,
  ⟨0x40050108, 1, 4, fun _ => [SPM_MARCH_SKIP_SKIPPED]⟩,
  ⟨0x4005010C, 1, 4, fun _ => [SPM_MARCH_LAST_BANK, SPM_MARCH_LAST_ROW]⟩,
  ⟨0x40050140, 17, 0x4, fun n => [SPM_REPAIR_SECOND n, SPM_REPAIR_FIRST n]⟩]

/-- The registers of the LINE window. -/
def lineRows : List RegRow := [
  ⟨0x40060000, 4, 0x100, fun n => [LINE_CTL_EN n, LINE_CTL_FORCE_WRAP n, LINE_CTL_WRAP_ON_DEG n, LINE_CTL_RETRAIN n, LINE_CTL_HALF_REQ n, LINE_CTL_DEG_M n]⟩,
  ⟨0x40060004, 4, 0x100, fun n => [LINE_STATUS_STATE n, LINE_STATUS_RATE n, LINE_STATUS_WRAPPED n, LINE_STATUS_WTR_RUNNING n, LINE_STATUS_NBR_VALID n, LINE_STATUS_NBR_ADDR n, LINE_STATUS_NBR_NOT_NODE n, LINE_STATUS_RDI_SD n, LINE_STATUS_RDI_SF n, LINE_STATUS_DEG n, LINE_STATUS_LOF n, LINE_STATUS_OOF n, LINE_STATUS_LOL n, LINE_STATUS_LOS n, LINE_STATUS_LEAVING_RX n, LINE_STATUS_LEADER n]⟩,
  ⟨0x40060008, 4, 0x100, fun n => [LINE_EVENT_FN_JUMP n, LINE_EVENT_TX_FAIL n, LINE_EVENT_SLIP n, LINE_EVENT_TRAIN n, LINE_EVENT_NEIGHBOUR n, LINE_EVENT_WRAP n, LINE_EVENT_STATE n, LINE_EVENT_DEFECT n]⟩,
  ⟨0x4006000C, 4, 0x100, fun n => [LINE_IEN_IEN n]⟩,
  ⟨0x40060010, 4, 0x100, fun n => [LINE_POWER_RX n, LINE_POWER_TX n]⟩,
  ⟨0x40060014, 4, 0x100, fun n => [LINE_TAP_POWER n, LINE_TAP_INSERTING_SEEN n, LINE_TAP_LEAVING_SEEN n, LINE_TAP_TAP_RATE n]⟩,
  ⟨0x40060018, 4, 0x100, fun n => [LINE_FEC_CORR_CORR n]⟩,
  ⟨0x4006001C, 4, 0x100, fun n => [LINE_FEC_UNCORR_UNCORR n]⟩,
  ⟨0x40060020, 4, 0x100, fun n => [LINE_CNT_A_OOF n, LINE_CNT_A_SLIPS n]⟩,
  ⟨0x40060024, 4, 0x100, fun n => [LINE_CNT_B_TRAIN_RUNS n, LINE_CNT_B_FALLBACKS n]⟩,
  ⟨0x40060028, 4, 0x100, fun n => [LINE_DEG_THR_THR n]⟩,
  ⟨0x4006002C, 4, 0x100, fun n => [LINE_TIMERS_WRAP_HOLD n, LINE_TIMERS_WTR n, LINE_TIMERS_WTR_INS n]⟩,
  ⟨0x40060030, 4, 0x100, fun n => [LINE_ELASTIC_FILL n]⟩,
  ⟨0x40060400, 1, 4, fun _ => [RING_STATUS_INSERT, RING_STATUS_SW_INSERTED, RING_STATUS_COIL, RING_STATUS_HEARTBEAT, RING_STATUS_FREQ_MASTER, RING_STATUS_TX_W, RING_STATUS_TX_E, RING_STATUS_ISOLATED, RING_STATUS_WRAP_W, RING_STATUS_WRAP_E]⟩,
  ⟨0x40060404, 1, 4, fun _ => [RING_CTL_BYPASS_REQ]⟩,
  ⟨0x40060408, 1, 4, fun _ => [RING_FRAME_LO_N]⟩,
  ⟨0x4006040C, 1, 4, fun _ => [RING_FRAME_HI_N]⟩,
  ⟨0x40060410, 1, 4, fun _ => [RING_ALIGN_EAST_GOING, RING_ALIGN_WEST_GOING]⟩,
  ⟨0x40060414, 1, 4, fun _ => [RING_CNT_INSERT_FAILS, RING_CNT_MASTER_SLIPS]⟩,
  ⟨0x40060418, 1, 4, fun _ => [RING_BACKOFF_SECONDS]⟩]

/-- The registers of the TSI window. -/
def tsiRows : List RegRow := [
  ⟨0x40070000, 1, 4, fun _ => [TSI_CTL_SWAP, TSI_CTL_COPY, TSI_CTL_CANCEL]⟩,
  ⟨0x40070004, 1, 4, fun _ => [TSI_STATUS_ACTIVE_PAGE, TSI_STATUS_SWAP_PENDING, TSI_STATUS_COPY_BUSY, TSI_STATUS_PRELOADED, TSI_STATUS_LAST_REFUSED, TSI_STATUS_LAST_CANCELLED, TSI_STATUS_WRITE_REFUSED]⟩,
  ⟨0x40070008, 1, 4, fun _ => [TSI_SWAP_FRAME_LO_F]⟩,
  ⟨0x4007000C, 1, 4, fun _ => [TSI_SWAP_FRAME_HI_F]⟩,
  ⟨0x40070010, 1, 4, fun _ => [TSI_CFG_REVERT]⟩,
  ⟨0x40070014, 1, 4, fun _ => [TSI_CM_ADDR_PAGE, TSI_CM_ADDR_AUTOINC, TSI_CM_ADDR_PORT, TSI_CM_ADDR_SLOT]⟩,
  ⟨0x40070018, 1, 4, fun _ => [TSI_CM_DATA_ENTRY]⟩,
  ⟨0x4007001C, 1, 4, fun _ => [TSI_COUNT_REFUSED, TSI_COUNT_FAIL]⟩,
  ⟨0x40070020, 1, 4, fun _ => [TSI_CNT_BUF_SLIPS, TSI_CNT_PSWITCH]⟩,
  ⟨0x40070024, 1, 4, fun _ => [TSI_CNT_U_UNCORR]⟩,
  ⟨0x40070100, 1, 4, fun _ => [PERF_CFG_SES_THR]⟩,
  ⟨0x40070104, 1, 4, fun _ => [PERF_SEL_PORT, PERF_SEL_KIND, PERF_SEL_INDEX]⟩,
  ⟨0x40070110, 1, 4, fun _ => [PERF_D0_VALID, PERF_D0_SUSPECT, PERF_D0_PARTIAL, PERF_D0_CURRENT]⟩,
  ⟨0x40070114, 1, 4, fun _ => [PERF_D1_START]⟩,
  ⟨0x40070118, 5, 0x4, fun n => [PERF_D2_6_SECONDS n]⟩,
  ⟨0x4007012C, 1, 4, fun _ => [PERF_D7_UNCORR]⟩,
  ⟨0x40070130, 1, 4, fun _ => [PERF_D8_CORR]⟩,
  ⟨0x40070134, 1, 4, fun _ => [PERF_D9_SLIPS, PERF_D9_OOF]⟩,
  ⟨0x40070138, 1, 4, fun _ => [PERF_D10_TRAIN_RUNS]⟩]

/-- The registers of the FLUE window. -/
def flueRows : List RegRow := [
  ⟨0x40080000, 2, 0x4, fun n => [FLUE_PCFG_MODE n]⟩,
  ⟨0x40080008, 1, 4, fun _ => [FLUE_STATUS_RUNNING, FLUE_STATUS_APPQ_STOPPED, FLUE_STATUS_NO_LINE, FLUE_STATUS_RPT_FILL, FLUE_STATUS_PQ0_FILL, FLUE_STATUS_PQ1_FILL]⟩,
  ⟨0x4008000C, 1, 4, fun _ => [FLUE_QUOTA_QUOTA]⟩,
  ⟨0x40080010, 1, 4, fun _ => [FLUE_APPQ_BASE_BASE]⟩,
  ⟨0x40080014, 1, 4, fun _ => [FLUE_APPQ_CTL_EN, FLUE_APPQ_CTL_SIZE]⟩,
  ⟨0x40080018, 1, 4, fun _ => [FLUE_APPQ_WR_WR]⟩,
  ⟨0x4008001C, 1, 4, fun _ => [FLUE_APPQ_RD_RD]⟩,
  ⟨0x40080020, 1, 4, fun _ => [FLUE_CNT_A_CELL_CRC, FLUE_CNT_A_HOPS_EXPIRED]⟩,
  ⟨0x40080024, 1, 4, fun _ => [FLUE_CNT_B_RPT_LOST, FLUE_CNT_B_PORT_LOST]⟩,
  ⟨0x40080028, 1, 4, fun _ => [FLUE_CNT_C_RXD_CRC1, FLUE_CNT_C_RXD_CRC0]⟩,
  ⟨0x4008002C, 1, 4, fun _ => [FLUE_CNT_D_INSERTED]⟩,
  ⟨0x40080030, 2, 0x8, fun n => [FLUE_EVENT_RPT_LOST n, FLUE_EVENT_APPQ_STOPPED n, FLUE_EVENT_APPQ_EMPTY n, FLUE_EVENT_PORT_LOST n, FLUE_EVENT_RXD_CRC n]⟩,
  ⟨0x40080034, 2, 0x8, fun n => [FLUE_IEN_IEN n]⟩]

/-- The registers of the WRK window. -/
def wrkRows : List RegRow := [
  ⟨0x40090000, 1, 4, fun _ => [WRK_CFG_HORIZON, WRK_CFG_HREV, WRK_CFG_QUOTA]⟩,
  ⟨0x40090004, 1, 4, fun _ => [WRK_TIMERS_RETRY, WRK_TIMERS_POLL]⟩,
  ⟨0x40090008, 1, 4, fun _ => [WRK_HOLD_HOLD]⟩,
  ⟨0x40090010, 1, 4, fun _ => [WRK_OR_TGT_TKIND, WRK_OR_TGT_TID]⟩,
  ⟨0x40090014, 1, 4, fun _ => [WRK_OR_ACT_CHANNEL, WRK_OR_ACT_ACTION]⟩,
  ⟨0x40090018, 1, 4, fun _ => [WRK_OR_DUE_LO_DUE]⟩,
  ⟨0x4009001C, 1, 4, fun _ => [WRK_OR_DUE_HI_DUE]⟩,
  ⟨0x40090020, 1, 4, fun _ => [WRK_OR_ARG0_ARG]⟩,
  ⟨0x40090024, 1, 4, fun _ => [WRK_OR_ARG1_ARG]⟩,
  ⟨0x40090028, 1, 4, fun _ => [WRK_OR_ARG2_LO_ARG2]⟩,
  ⟨0x4009002C, 1, 4, fun _ => [WRK_OR_ARG2_HI_ARG2]⟩,
  ⟨0x40090030, 1, 4, fun _ => [WRK_OR_LIFE_LIFE]⟩,
  ⟨0x40090034, 1, 4, fun _ => [WRK_OR_CMD_GO]⟩,
  ⟨0x40090038, 1, 4, fun _ => [WRK_OR_STATUS_STATE, WRK_OR_STATUS_REASON]⟩,
  ⟨0x4009003C, 1, 4, fun _ => [WRK_OR_SEQ_SEQUENCE]⟩,
  ⟨0x40090040, 1, 4, fun _ => [WRK_AWQ_ACCEPTED, WRK_AWQ_USED]⟩,
  ⟨0x40090044, 1, 4, fun _ => [WRK_CUST_LIVE, WRK_CUST_UNACCEPTED]⟩,
  ⟨0x40090048, 1, 4, fun _ => [WRK_HEAD_BLOCKED, WRK_HEAD_WAITING, WRK_HEAD_CHANNEL]⟩,
  ⟨0x4009004C, 1, 4, fun _ => [WRK_EPOCH_EPOCH]⟩,
  ⟨0x40090050, 1, 4, fun _ => [WRK_NEXT_SEQ_SEQUENCE]⟩,
  ⟨0x40090060, 1, 4, fun _ => [WRK_EVENT_CR_LOST, WRK_EVENT_TARGET_REFUSED, WRK_EVENT_ORIG_REFUSED, WRK_EVENT_HEAD_BLOCKED, WRK_EVENT_VALUE, WRK_EVENT_LAPSED, WRK_EVENT_RETIRED, WRK_EVENT_ORIG_DONE]⟩,
  ⟨0x40090064, 1, 4, fun _ => [WRK_IEN_IEN_HI, WRK_IEN_IEN_LO]⟩,
  ⟨0x40090070, 1, 4, fun _ => [WRK_CR_BASE_BASE]⟩,
  ⟨0x40090074, 1, 4, fun _ => [WRK_CR_CTL_EN, WRK_CR_CTL_SIZE]⟩,
  ⟨0x40090078, 1, 4, fun _ => [WRK_CR_WR_WR]⟩,
  ⟨0x4009007C, 1, 4, fun _ => [WRK_CR_RD_RD]⟩,
  ⟨0x40090080, 1, 4, fun _ => [WRK_VAL_BASE_BASE]⟩,
  ⟨0x40090084, 1, 4, fun _ => [WRK_VAL_LAST_INDEX]⟩,
  ⟨0x40090090, 1, 4, fun _ => [WRK_CNT_A_CELL_CRC, WRK_CNT_A_HOPS_EXPIRED]⟩,
  ⟨0x40090094, 1, 4, fun _ => [WRK_CNT_B_DUPLICATES, WRK_CNT_B_CR_LOST, WRK_CNT_B_DEFERRED]⟩,
  ⟨0x40090098, 1, 4, fun _ => [WRK_CNT_C_ORIG_REFUSED, WRK_CNT_C_LAPSED]⟩,
  ⟨0x4009009C, 1, 4, fun _ => [WRK_CNT_D_INSERTED]⟩,
  ⟨0x400900A0, 1, 4, fun _ => [WRK_ABANDON_GO, WRK_ABANDON_NODE]⟩]

/-- The registers of the PEAT window. -/
def peatRows : List RegRow := [
  ⟨0x400A0000, 1, 4, fun _ => [PEAT_STATUS_QUEUED, PEAT_STATUS_DRAINING, PEAT_STATUS_JRNL_FREE]⟩,
  ⟨0x400A0004, 1, 4, fun _ => [PEAT_REBUILD_JRNL_INVALID, PEAT_REBUILD_CUST_INVALID]⟩,
  ⟨0x400A0008, 1, 4, fun _ => [PEAT_CNT_REWRITES, PEAT_CNT_COMMITS]⟩]

/-- The registers of the TIME window. -/
def timeRows : List RegRow := [
  ⟨0x400B0000, 1, 4, fun _ => [TIME_NOW_LO_NOW]⟩,
  ⟨0x400B0004, 1, 4, fun _ => [TIME_NOW_HI_NOW]⟩,
  ⟨0x400B0008, 1, 4, fun _ => [TIME_STATUS_MASTER_CLASS, TIME_STATUS_MASTER_ADDR, TIME_STATUS_HOPS, TIME_STATUS_IS_MASTER, TIME_STATUS_TIME_PORT, TIME_STATUS_OWN_CLASS, TIME_STATUS_SRC_OK, TIME_STATUS_RTC_LOST, TIME_STATUS_LEAP_PENDING, TIME_STATUS_VALID, TIME_STATUS_STATE]⟩,
  ⟨0x400B000C, 1, 4, fun _ => [TIME_CTL_HOLD_MAX, TIME_CTL_PPS_OUT_WIDTH, TIME_CTL_PPS_OUT_EN, TIME_CTL_SRC_EN]⟩,
  ⟨0x400B0010, 1, 4, fun _ => [TIME_OFFSET_OFFSET]⟩,
  ⟨0x400B0014, 1, 4, fun _ => [TIME_FREQ_FREQ]⟩,
  ⟨0x400B0018, 1, 4, fun _ => [TIME_PPS_IN_LO_EDGE]⟩,
  ⟨0x400B001C, 1, 4, fun _ => [TIME_PPS_IN_HI_EDGE]⟩,
  ⟨0x400B0020, 1, 4, fun _ => [TIME_SRC_EDGE_LO_EDGE]⟩,
  ⟨0x400B0024, 1, 4, fun _ => [TIME_SRC_EDGE_HI_EDGE]⟩,
  ⟨0x400B0028, 1, 4, fun _ => [TIME_SRC_LABEL_LABEL]⟩,
  ⟨0x400B002C, 1, 4, fun _ => [TIME_SRC_CMD_GO, TIME_SRC_CMD_PATH, TIME_SRC_CMD_LEAP60, TIME_SRC_CMD_ACC]⟩,
  ⟨0x400B0030, 1, 4, fun _ => [TIME_ASYM_EAST, TIME_ASYM_WEST]⟩,
  ⟨0x400B0034, 1, 4, fun _ => [TIME_SPAN_E_DELAY]⟩,
  ⟨0x400B0038, 1, 4, fun _ => [TIME_SPAN_W_DELAY]⟩,
  ⟨0x400B003C, 1, 4, fun _ => [TIME_BEST_BEST]⟩,
  ⟨0x400B0040, 1, 4, fun _ => [TIME_UTC_LEAP_DIR, TIME_UTC_OFFSET]⟩,
  ⟨0x400B0044, 1, 4, fun _ => [TIME_LEAP_LO_S_L]⟩,
  ⟨0x400B0048, 1, 4, fun _ => [TIME_LEAP_HI_S_L]⟩,
  ⟨0x400B004C, 1, 4, fun _ => [TIME_LEAP_CMD_ANNOUNCE, TIME_LEAP_CMD_DIR]⟩,
  ⟨0x400B0050, 1, 4, fun _ => [TIME_EVENT_SECOND, TIME_EVENT_LEAP_CHANGED, TIME_EVENT_SRC_CHANGED, TIME_EVENT_PORT_CHANGED, TIME_EVENT_STATE_CHANGED, TIME_EVENT_STEPPED, TIME_EVENT_MASTER_CHANGED]⟩,
  ⟨0x400B0054, 1, 4, fun _ => [TIME_STEP_STEP]⟩,
  ⟨0x400B0058, 1, 4, fun _ => [TIME_RTC_SECONDS]⟩,
  ⟨0x400B005C, 1, 4, fun _ => [TIME_PPS_COMP_COMP]⟩,
  ⟨0x400B0060, 1, 4, fun _ => [TIME_CNT_TT_BAD, TIME_CNT_SRC_REJECTS]⟩]

/-- The registers of the BAR window. -/
def barRows : List RegRow := [
  ⟨0x400C0000, 1, 4, fun _ => [BAR_STATUS_MFE_ROM, BAR_STATUS_OUTSTANDING, BAR_STATUS_HV_ENABLED, BAR_STATUS_FAILSTATE_SENT, BAR_STATUS_MFE_SYNC, BAR_STATUS_LINK_UP, BAR_STATUS_HELLO_DONE]⟩,
  ⟨0x400C0004, 1, 4, fun _ => [BAR_SUPPLY_VBULK, BAR_SUPPLY_PWRFAIL, BAR_SUPPLY_VAUX_OK, BAR_SUPPLY_CONV_OK]⟩,
  ⟨0x400C0008, 1, 4, fun _ => [BAR_CNT_A_RETRIES, BAR_CNT_A_CRC_ERR]⟩,
  ⟨0x400C000C, 1, 4, fun _ => [BAR_CNT_B_LATE, BAR_CNT_B_TIMEOUTS]⟩,
  ⟨0x400C0020, 6, 0x4, fun n => [BAR_MBX_TX_DATA n]⟩,
  ⟨0x400C0038, 1, 4, fun _ => [BAR_MBX_TXCTL_BUSY, BAR_MBX_TXCTL_GO, BAR_MBX_TXCTL_RESULT, BAR_MBX_TXCTL_TYPE]⟩,
  ⟨0x400C0040, 6, 0x4, fun n => [BAR_MBX_RX_DATA n]⟩,
  ⟨0x400C0060, 3, 0x8, fun n => [BAR_MAINS_A_FREQ n, BAR_MAINS_A_RMS n]⟩,
  ⟨0x400C0064, 3, 0x8, fun n => [BAR_MAINS_B_FREQ_OK n, BAR_MAINS_B_PRESENT n]⟩,
  ⟨0x400C0080, 12, 0x4, fun n => [BAR_OPTIME_RELEASE n, BAR_OPTIME_OPERATE n]⟩,
  ⟨0x400C00B0, 1, 4, fun _ => [BAR_HVI_DEADZONE, BAR_HVI_STATE]⟩]

/-- The registers of the FLT window. -/
def fltRows : List RegRow := [
  ⟨0x400D0000, 1, 4, fun _ => [FLT_STATUS_PENDING, FLT_STATUS_ACK_MISS, FLT_STATUS_WARN, FLT_STATUS_FIRST_VALID, FLT_STATUS_FIRST_RETAINED, FLT_STATUS_PULSE, FLT_STATUS_FLTN_LOW]⟩,
  ⟨0x400D0004, 1, 4, fun _ => [FLT_CFG_ESC_MS, FLT_CFG_PULSE_MS, FLT_CFG_FREEZE_ON_FATAL, FLT_CFG_STICKY_CONTAINED, FLT_CFG_STICKY_CORRECTED]⟩,
  ⟨0x400D0008, 1, 4, fun _ => [FLT_CTL_CLEAR_FIRST, FLT_CTL_DRIVE]⟩,
  ⟨0x400D000C, 1, 4, fun _ => [FLT_STICKY_CONTAINED, FLT_STICKY_CORRECTED]⟩,
  ⟨0x400D0010, 1, 4, fun _ => [FLT_ACK_GO, FLT_ACK_ENTRY, FLT_ACK_TAG]⟩,
  ⟨0x400D0014, 1, 4, fun _ => [FLT_LOG_HEAD_COUNT, FLT_LOG_HEAD_NEWEST]⟩,
  ⟨0x400D0020, 1, 4, fun _ => [FLT_CNT_A_CORRECTED, FLT_CNT_A_CONTAINED]⟩,
  ⟨0x400D0024, 1, 4, fun _ => [FLT_CNT_B_ESCALATED, FLT_CNT_B_DROPPED]⟩,
  ⟨0x400D0030, 1, 4, fun _ => [FLT_INJ_ARM, FLT_INJ_DONE, FLT_INJ_CONTINUOUS, FLT_INJ_FATAL_OK, FLT_INJ_BITS, FLT_INJ_CHECKER, FLT_INJ_SEL]⟩,
  ⟨0x400D0034, 1, 4, fun _ => [FLT_INJ_ADDR_ADDR]⟩,
  ⟨0x400D0040, 8, 0x10, fun n => [FLT_PEND_MSG_LO_MSG n]⟩,
  ⟨0x400D0044, 8, 0x10, fun n => [FLT_PEND_MSG_HI_MSG n]⟩,
  ⟨0x400D0048, 8, 0x10, fun n => [FLT_PEND_STATE_VALID n, FLT_PEND_STATE_WARNED n, FLT_PEND_STATE_TAG n]⟩,
  ⟨0x400D004C, 8, 0x10, fun n => [FLT_PEND_LEFT_MS n]⟩,
  ⟨0x400D0100, 1, 4, fun _ => [FLT_FIRST_0_W]⟩,
  ⟨0x400D0104, 7, 0x4, fun n => [FLT_FIRST_1_7_W n]⟩,
  ⟨0x400D0400, 16, 0x20, fun n => [FLT_LOG_0_W n]⟩,
  ⟨0x400D0404, 16, 0x20, fun n => [FLT_LOG_1_W n]⟩,
  ⟨0x400D0408, 16, 0x20, fun n => [FLT_LOG_2_W n]⟩,
  ⟨0x400D040C, 16, 0x20, fun n => [FLT_LOG_3_W n]⟩,
  ⟨0x400D0410, 16, 0x20, fun n => [FLT_LOG_4_W n]⟩,
  ⟨0x400D0414, 16, 0x20, fun n => [FLT_LOG_5_W n]⟩,
  ⟨0x400D0418, 16, 0x20, fun n => [FLT_LOG_6_W n]⟩,
  ⟨0x400D041C, 16, 0x20, fun n => [FLT_LOG_7_W n]⟩]

/-- The registers of the KIN window. -/
def kinRows : List RegRow := [
  ⟨0x400E0000, 1, 4, fun _ => [KIN_STATUS_PHASE, KIN_STATUS_RESET_KIND, KIN_STATUS_RETURNED, KIN_STATUS_INSERTED, KIN_STATUS_HV_PENDING, KIN_STATUS_HV_REFUSED, KIN_STATUS_EMULATED, KIN_STATUS_IDENT_COPY, KIN_STATUS_IMAGE_COPY]⟩,
  ⟨0x400E0004, 1, 4, fun _ => [KIN_IMAGE_SEQ_SEQUENCE]⟩,
  ⟨0x400E0008, 2, 0x4, fun n => [KIN_COPY_VERDICT n, KIN_COPY_LEVEL_LO n, KIN_COPY_LEVEL_HI n]⟩,
  ⟨0x400E0010, 1, 4, fun _ => [KIN_REPAIR_FOUND, KIN_REPAIR_BANKS]⟩,
  ⟨0x400E0020, 1, 4, fun _ => [KIN_TIME0_END_K1, KIN_TIME0_END_K0]⟩,
  ⟨0x400E0024, 1, 4, fun _ => [KIN_TIME1_END_K3, KIN_TIME1_END_K2]⟩,
  ⟨0x400E0028, 1, 4, fun _ => [KIN_TIME2_END_K5, KIN_TIME2_END_K4]⟩,
  ⟨0x400E002C, 1, 4, fun _ => [KIN_TIME3_END_K7, KIN_TIME3_END_K6]⟩,
  ⟨0x400E0040, 1, 4, fun _ => [PLG_ADDR_ADDR]⟩,
  ⟨0x400E0044, 1, 4, fun _ => [PLG_SPAD_SPAD]⟩,
  ⟨0x400E0048, 1, 4, fun _ => [PLG_CTL_GO, PLG_CTL_DIR, PLG_CTL_LEN]⟩,
  ⟨0x400E004C, 1, 4, fun _ => [PLG_STATUS_BUSY, PLG_STATUS_RESULT, PLG_STATUS_DONE]⟩,
  ⟨0x400E0050, 1, 4, fun _ => [PLG_DIST_STATE_ROLE, PLG_DIST_STATE_STATE, PLG_DIST_STATE_REFUSAL, PLG_DIST_STATE_CHUNKS]⟩,
  ⟨0x400E0054, 1, 4, fun _ => [PLG_DIST_SEQ_SEQUENCE]⟩,
  ⟨0x400E0058, 1, 4, fun _ => [PLG_DIST_ACT_LO_ACT]⟩,
  ⟨0x400E005C, 1, 4, fun _ => [PLG_DIST_ACT_HI_ACT]⟩,
  ⟨0x400E0060, 4, 0x4, fun n => [PLG_DIST_ROSTER_STAGED n]⟩]

/-- The registers of the IDENT window. -/
def identRows : List RegRow := [
  ⟨0x400F0000, 1, 4, fun _ => [IDENT_MODULE_MAKER, IDENT_MODULE_MFE_ROM, IDENT_MODULE_RUN_LEVEL, IDENT_MODULE_NATIVE_LEVEL, IDENT_MODULE_REV]⟩,
  ⟨0x400F0004, 1, 4, fun _ => [IDENT_STRAPS_FAIL1, IDENT_STRAPS_FAIL0, IDENT_STRAPS_FLTM, IDENT_STRAPS_MARCH, IDENT_STRAPS_TMC, IDENT_STRAPS_FRZB, IDENT_STRAPS_HALF]⟩,
  ⟨0x400F0008, 1, 4, fun _ => [IDENT_CODES_ADDRESS, IDENT_CODES_KEY_LO, IDENT_CODES_KEY_HI, IDENT_CODES_CLASS]⟩,
  ⟨0x400F000C, 1, 4, fun _ => [IDENT_RAW_KEY_HI_CODE, IDENT_RAW_KEY_LO_CODE]⟩,
  ⟨0x400F0010, 1, 4, fun _ => [IDENT_CLASS_RAW_CLASS_CODE]⟩,
  ⟨0x400F0014, 1, 4, fun _ => [IDENT_SERIAL_LO_SERIAL]⟩,
  ⟨0x400F0018, 1, 4, fun _ => [IDENT_SERIAL_HI_SERIAL]⟩,
  ⟨0x400F001C, 1, 4, fun _ => [IDENT_PLUG_WP_OPEN, IDENT_PLUG_HOLD, IDENT_PLUG_PRESENT]⟩]

/-- The registers of window number `w`, address bits [19:16] (R538). -/
def windowRows (w : Nat) : List RegRow :=
  match w with
  | 0 => hrtRows
  | 1 => icRows
  | 2 => chRows
  | 3 => whlRows
  | 4 => gsrRows
  | 5 => spmRows
  | 6 => lineRows
  | 7 => tsiRows
  | 8 => flueRows
  | 9 => wrkRows
  | 10 => peatRows
  | 11 => timeRows
  | 12 => barRows
  | 13 => fltRows
  | 14 => kinRows
  | 15 => identRows
  | _ => []

/-- The fields of the register at `a`. -/
def fieldsAt (a : Nat) : Option (List Field) :=
  if 0x40000000 ≤ a ∧ a < 0x40100000 then findReg (windowRows ((a - 0x40000000) / 0x10000)) a else none

/-- The registers whose reset value is not 0, by rising address; wheels 0–2 hold the fixed mains values of
R265, the ring ports' LINE.CTL.EN is 1. Every word is `resetWord` of the register's fields. -/
def resetRegs : Regs :=
  [(0x40000008, 0x02000000)] ++
  (List.range 64).map (fun n => (0x40000100 + 0x10 * n, 0x00F70000)) ++
  (List.range 64).map (fun n => (0x40020004 + 0x100 * n, 0x40)) ++
  (List.range 3).map (fun n => (0x4002402C + 0x20 * n, 0x400)) ++
  ((List.range 8).map (fun n =>
    (if n < 3 then [(0x40030010 + 0x100 * n, (0x21018 : Word)), (0x40030014 + 0x100 * n, 0x5555)]
      else [(0x40030000 + 0x100 * n, 0x03000000)]) ++
    [(0x4003001C + 0x100 * n, 0x01040140), (0x40030024 + 0x100 * n, 0x00100000)])).flatten ++
  ((List.range 4).map (fun n => [(0x40030800 + 0x20 * n, (0x100 : Word)), (0x4003080C + 0x20 * n, 0x7FFF8000)])).flatten ++
  (List.range 8).map (fun n => (0x40040018 + 0x40 * n, 0x00100100)) ++
  [(0x40040200, 0xF000), (0x40050000, 0xFFFF), (0x40050018, 0x1FFFF), (0x40050100, 0x40000000)] ++
  (List.range 17).map (fun n => (0x40050140 + 4 * n, 0xFFFFFFFF)) ++
  ((List.range 4).map (fun n =>
    (if n < 2 then [(0x40060000 + 0x100 * n, (0x107 : Word))] else [(0x40060000 + 0x100 * n, 0x7)]) ++
    [(0x40060010 + 0x100 * n, 0x80008000), (0x40060014 + 0x100 * n, 0x80000000),
     (0x40060028 + 0x100 * n, 0x80000), (0x4006002C + 0x100 * n, 0x0200A001)])).flatten ++
  [(0x40070010, 0x1F40), (0x40070100, 0x03E80000), (0x40080008, 0x20000000), (0x4008000C, 0x4),
   (0x40080014, 0x4), (0x40090000, 0x1C200101), (0x40090004, 0x00C8003C), (0x40090008, 0x3E8),
   (0x40090074, 0x6), (0x40090080, 0x76000), (0x400A0000, 0x1000), (0x400B0008, 0xF0000F00),
   (0x400B000C, 0x18000004), (0x400B0034, 0xFFFFFFFF), (0x400B0038, 0xFFFFFFFF), (0x400B003C, 0xF0000000),
   (0x400C0038, 0x8), (0x400D0000, 0x1), (0x400D0004, 0x00FA1402), (0x400D0030, 0x01000000),
   (0x400E0008, 0xFF000000), (0x400E000C, 0xFF000000), (0x400F0000, 0x01000343)]


end Sys2Proof.Machine.F
end

