-- ==== Sys2Proof/Machine/State.lean ====
section
/-! DEFINITION. The state of the node as plain data, block by block. A register field stands in the register file
`regs` (one home, by address) unless it only shows state held here in another shape; the reset state
is the node right after a power-on reset, before K0. Every reset value that the spec does not give is
named in log entries 1–3, 104 and 110. -/

namespace Sys2Proof.Machine

/-- The node has no fault outcome: every fault it can have is a message to its collector (R482) and a
next state. -/
inductive Fault where
deriving DecidableEq, Repr

/-- Why a command is refused. -/
inductive Refusal where
  /-- raised by Dispatch for a row with no meaning yet; safe: the machine stops -/
  | notModelled (mnemonic : String)
  /-- raised by a meaning whose command is not well formed (WellFormed.lean): a list operand of another
  length than the spec's; safe: such a command cannot arrive -/
  | illFormed (command : String)
deriving DecidableEq, Repr


/-! ## Faults (chapter 15) -/

/-- A fault record (R482, R483). MESSAGE's ADDRESS field is the low half of `address`. -/
structure FaultRec where
  source : BitVec 8
  injected : Bool
  cls : BitVec 2
  kind : BitVec 5
  reason : BitVec 8
  detail : BitVec 24
  address : Word
  master : BitVec 8
  access : BitVec 8
  escalated : Bool
  first : Bool
  tsInvalid : Bool
  collectorSelf : Bool
  time : SysTime
  ext : BitVec 16
deriving DecidableEq, Repr

/-- An entry of the pending table (R488): time left, and half the time it was given, in units of 2^-29 s. -/
structure PendEntry where
  record : FaultRec
  tag : BitVec 16
  warned : Bool
  left : Nat
  half : Nat
deriving DecidableEq, Repr

/-- The fault collector (R485–R494). -/
structure Collector where
  /-- messages waiting, at most 32, in the order they are taken, each with the CORE cycle it arrived in -/
  queue : List (Nat × FaultRec)
  /-- CONTAINED and FATAL messages their blocks hold until the queue has room -/
  held : List (Nat × FaultRec)
  log : Vector (Option FaultRec) 16
  first : Option FaultRec
  pend : Vector (Option PendEntry) 8
  /-- the last tag given -/
  tag : BitVec 16
  /-- pulse mode: a pulse is running, and the CORE cycle it ends at -/
  pulse : Bool
  pulseEnd : Nat
  /-- the FATAL fault that takes the node to Caldera, first accepted (R499) -/
  cause : Option FaultRec
  /-- faults accepted outside K8 since the last reset (R442) -/
  early : Nat
deriving DecidableEq, Repr

/-! ## Interrupt controller (chapter 10) -/

/-- Enables, latch bits and arrivals, bit `s` for source `s` (R331, R332, R334). Priorities, routes and
counters stand in the register file; in-service marks stand in the Embers' shadow frames. -/
structure IntCtl where
  en : BitVec 128
  lat : BitVec 128
  arrived : BitVec 128
deriving DecidableEq, Repr

/-! ## Embers and Hearth (chapters 8, 9) -/

/-- The flags (R270). -/
structure Flags where
  z : Bool
  n : Bool
  c : Bool
  v : Bool
deriving DecidableEq, Repr

/-- One buffered store of `size` bytes (R274). -/
structure StoreEntry where
  addr : Word
  size : Nat
  data : BitVec 64
deriving DecidableEq, Repr

/-- A shadow frame (R287, R339): the source taken and its level with it. -/
structure Frame where
  pc : BitVec 13
  flags : Flags
  inTask : Bool
  budgetRunning : Bool
  source : Nat
  level : Nat
deriving DecidableEq, Repr

/-- Why an Ember's instruction is waiting (Table 08-1); `addr` is the data address WATCHDOG reports. -/
structure Stall where
  addr : Word
  cycles : Nat
  inShift : Bool
deriving DecidableEq, Repr

/-- One Ember (R270). EPC, CAUSE, EADDR and RUNCYC stand in the register file. -/
structure Ember where
  w : Vector Word 32
  flags : Flags
  /-- the instruction to execute next -/
  pc : BitVec 13
  /-- address of the last retired instruction (EMB.STATE.PC) -/
  lastPc : BitVec 13
  /-- return stack, newest first, at most 8 -/
  rstack : List (BitVec 13)
  /-- store buffer, oldest first, at most 8 -/
  sbuf : List StoreEntry
  /-- shadow stack, newest first, at most 4 -/
  frames : List Frame
  inTask : Bool
  excActive : Bool
  halted : Bool
  stopped : Bool
  slot : Fin 64
  /-- BUDGET fell due while EXC_ACTIVE was 1 (R290) -/
  budgetHeld : Bool
  /-- first excess of this run has been raised -/
  overran : Bool
  /-- the allowance has been renewed for this run -/
  renewed : Bool
  /-- register-window stores made before the last RETI and not drained yet (R278) -/
  retiWait : Nat
  /-- the target of a WAIT in progress (R324) -/
  waiting : Option SysTime
  stall : Option Stall
  /-- the Ember waits for its control-store word to be scrubbed (R286) -/
  scrubWait : Bool
  /-- the address of the first store found faulty at a drain since the last boundary (R280) -/
  storeFault : Option Word
deriving DecidableEq, Repr

/-- The state of a task slot (R288). -/
inductive SlotState where
  | idle | ready | running
deriving DecidableEq, Repr

/-- One task slot; its configuration stands in the register file. `since` orders ready slots. -/
structure Slot where
  st : SlotState
  rerun : Bool
  since : Nat
  /-- the budget the running task was dispatched with (Table 08-5) -/
  budget : Nat
deriving DecidableEq, Repr

/-- A word of the active page found with a parity error and not yet rewritten: its number, the cycle it was found in, and
whether CS_UNCORR has been raised for it (R286). -/
structure BadWord where
  word : Nat
  foundAt : Nat
  failed : Bool
deriving DecidableEq, Repr

/-- Hearth beyond its registers: slots, timers' due times, the drain, the scrubber. -/
structure Hearth where
  slots : Vector Slot 64
  /-- the next READY order number -/
  order : Nat
  /-- low word stored by the last write of TMR.DUE_LO, per timer -/
  dueLo : Vector Word 16
  draining : Bool
  /-- control store: key page·8192 + word, 96-bit microwords (08.5) -/
  cs : List (Nat × BitVec 96)
  /-- K5 has loaded or checked the active page since the last reset: the scrubber runs (R285) -/
  loaded : Bool
  scrubAt : Nat
  scrubBad : List BadWord
  /-- the software timers stand: Hearth is halted (R296) -/
  timersStopped : Bool
deriving DecidableEq, Repr

/-! ## Scratchpad and Geyser (chapter 11) -/

/-- What SECDED finds in a word that is not sound. -/
inductive Ecc where
  | single | double
deriving DecidableEq, Repr

/-- A bank on its way to On (R359). -/
inductive Wake where
  | fromRetention | fromOff
deriving DecidableEq, Repr

structure Scratchpad where
  /-- bytes by address, below 0x8_4000; an unlisted byte reads 0 -/
  mem : List (Nat × Byte)
  /-- words by address with bits in error -/
  ecc : List (Nat × Option Ecc)
  /-- corrected words waiting for their bank (R351) -/
  writeBacks : List Nat
  wake : Vector (Option Wake) 17
  /-- CORE cycle of the write that began the wake -/
  wakeAt : Vector Nat 17
  /-- the march in progress (R362): banks whose turn is to come, the bank held and the cycle its march ends, PRESERVE as GO
  found it, the banks marched, and the rows found failing so far, as (bank, row) -/
  marching : BitVec 17
  marchBank : Option Nat
  marchEnd : Nat
  marchPreserve : Bool
  marched : BitVec 17
  marchRows : List (Nat × Nat)
  /-- per bank in counted round-robin: the master granted last, the cycles of its run, and the cycle its grant ended (R355) -/
  lastGrant : Vector Nat 17
  grantRun : Vector Nat 17
  grantEnd : Vector Nat 17
  /-- per bank: the Ember, and the engine, granted last (R354) -/
  lastEmber : Vector Nat 17
  lastEngine : Vector Nat 17
deriving DecidableEq, Repr

/-- GSR.STATUS.STATE (R376). -/
inductive GState where
  | idle | running | stopped | aborted | refused
deriving DecidableEq, Repr

/-- A descriptor as read from scratchpad (R365). -/
structure Desc where
  irqDone : Bool
  chain : Bool
  reshuffle : Nat
  esize : Nat
  reservedSet : Bool
  next : Nat
  src : Nat
  dst : Nat
  c0 : Nat
  c1 : Nat
  c2 : Nat
  ss0 : Int
  ss1 : Int
  ss2 : Int
  ds0 : Int
  ds1 : Int
  ds2 : Int
deriving DecidableEq, Repr

/-- One Geyser channel: `pos` counts the elements of the blocks already written whole, `ins` are the inputs read of the block
at `pos`, `outs` its outputs still to be written (R370), and `credit` is in 1/256 cycles. -/
structure GChan where
  st : GState
  desc : Option Desc
  pos : Nat
  ins : List Nat
  outs : List Nat
  credit : Int
deriving DecidableEq, Repr

/-! ## The node as a whole (chapters 1, 2, 3, 15) -/

/-- KIN.STATUS.PHASE (Table 03-9). -/
inductive Phase where
  | k0 | k1 | k2 | k3 | k4 | k5 | k6 | k7 | k8 | caldera | hold
deriving DecidableEq, Repr

/-- The reset kinds of R101. -/
inductive ResetKind where
  | powerOn | resetN | calderaExit | warm
deriving DecidableEq, Repr

/-- How far the PWRFAIL sequence of Table 02-4 has come. -/
inductive PwrStep where
  | none | running | halted | stopped | complete
deriving DecidableEq, Repr

/-- The RUN indicator (Table 01-2). -/
inductive RunLamp where
  | off | greenFlash | green | amber | red
deriving DecidableEq, Repr

/-- The freeze state (R504–R510). -/
inductive FreezeState where
  | running | frozen
deriving DecidableEq, Repr

/-- Identity in force, read at K3 (R113). -/
structure Identity where
  address : BitVec 8
  epoch : BitVec 16
  plugSerial : BitVec 64
  groups : BitVec 64
  sequence : Word
  /-- repair map: up to two rows per bank -/
  repair : List (Nat × Nat)
deriving DecidableEq, Repr

/-- Node-wide state: pins, phase, power, supervisor, freeze. -/
structure Node where
  phase : Phase
  kind : ResetKind
  /-- the logic side is held in reset: RESET_N low (R31) or Table 02-4 step 8 -/
  heldInReset : Bool
  resetLow : Bool
  holdLow : Bool
  plugPresent : Bool
  /-- a freeze requested before the core PLL has locked: K0 takes it (R504) -/
  frzLow : Bool
  pwr : PwrStep
  coreFailed : Bool
  auxFailed : Bool
  rtcFailed : Bool
  freeze : FreezeState
  /-- bypass-first order, freeze-on-fatal, MEMACC write performed, RESUME_REFUSED (segment 0x0000) -/
  frzBypassFirst : Bool
  frzOnFatal : Bool
  memaccWritten : Bool
  resumeRefused : Bool
  /-- phase before Caldera, and what Table 15-6 has done -/
  calderaFrom : Phase
  calderaCause : BitVec 8
  calderaStep : Nat
  afterFreeze : Bool
  /-- TAP instruction register, boundary cells, Sinter address, memory register (R508–R512) -/
  tapIr : BitVec 8
  boundary : BitVec 149
  preload : BitVec 149
  sinterSeg : BitVec 16
  sinterWord : BitVec 16
  sinterData : BitVec 64
  memacc : BitVec 96
  /-- heartbeat to the bypass supervisor (R76) -/
  heartbeat : Bool
  /-- Kindling: rows K2 found failing, copies excluded by a return from K5, identity in force -/
  badRows : List (Nat × Nat)
  excludedA : Bool
  excludedB : Bool
  ident : Identity
  /-- VIO and PVDD on (Table 01-7) -/
  vio : Bool
  pvdd : Bool
  /-- V24 is present, and the field outputs of CH32–CH47 that overtemperature has turned off (R29); set by the world outside -/
  v24 : Bool
  hot : BitVec 16
  /-- K3 has chosen an identity copy since the last start-up (R108) -/
  identChosen : Bool
  /-- MFE_ROM of the selected copy (R121) -/
  mfeRoms : List Byte
  /-- Kindling has raised a FATAL fault and goes no further -/
  kinHalted : Bool
  /-- K5 has applied the LV and field fail states (Table 01-7) -/
  lvOn : Bool
  /-- CORE cycles: start of K0 and the time counted before it (Table 03-9), start of the present phase -/
  k0At : Nat
  k0Lead : Nat
  phaseAt : Nat
  /-- system time of PWRFAIL and the records completed at step 2 (Table 04-13) -/
  pwrAt : SysTime
  pwrRecords : Nat
  /-- CORE cycle of PWRFAIL, from which Table 02-4 counts, and whether the shutdown record is written -/
  pwrCycle : Nat
  pwrLogged : Bool
  /-- CORE cycle the heartbeat started in; the heartbeat ran when the clocks stopped -/
  hbAt : Nat
  hbFrozen : Bool
  /-- K6 of a warm restart has sent FAILSTATE (R127) -/
  hvSent : Bool
  /-- what Capture-IR loaded last (R508) -/
  tapOut : BitVec 8
deriving DecidableEq, Repr

/-- The bypass supervisor and its switch (R76–R78, R411). No reset of the node touches it. -/
structure Supervisor where
  /-- it sees no heartbeat -/
  hbLost : Bool
  coil : Bool
  /-- the sensed switch is in its inserted position -/
  switchIn : Bool
  /-- the node is inserted: the switch is in and EAST or WEST is UP (R411) -/
  inserted : Bool
  /-- CORE cycle of the last change of the coil drive or of the switch -/
  changedAt : Nat
deriving DecidableEq, Repr

/-! ## Report cells (R441–R443) -/

/-- A report record: RKIND, PART and bytes 6–27. -/
structure Report where
  rkind : BitVec 8
  part : BitVec 8
  body : List Byte
deriving DecidableEq, Repr

/-- Flue's report queue and what it counts between records. -/
structure Reports where
  /-- cells to insert, at most 32, oldest first -/
  queue : List Report
  /-- START, BIN and STATE records waiting for room, oldest first -/
  waiting : List Report
  suppressed : Nat
  /-- (source, reason) of CORRECTED faults already queued in this 15-minute interval -/
  seen : List (Nat × Nat)
  /-- RPT_LOST has been raised in this second -/
  lostRaised : Bool
  correctedSinceState : Nat
  lapsedSinceState : Nat
  refusedSinceState : Nat
deriving DecidableEq, Repr

/-! ## Channel array (chapter 6) -/

/-- How far an HV entry has been handed to the MFE (R225, R228). -/
inductive Fwd where
  | no | sent | refused
deriving DecidableEq, Repr

/-- One event-list entry (R210) and what the array holds beside it. -/
structure Entry where
  key : BitVec 64
  action : Word
  tag : Word
  /-- wheel domain: the armed fire time (R221); none in the time domain, where it is the key -/
  fire : Option SysTime
  fixed : Bool
  /-- R228: it had not been forwarded, or its SCHEDULE had been refused or had failed, at the moment it began -/
  fall : Bool
  /-- R226: the compensation and gate time last forwarded, or fixed at the beginning -/
  comp : Option Nat
  gate : Option SysTime
  fwd : Fwd
  begun : Bool
  /-- LEVEL has taken the entry's level; it stays until its HV_EVENT (R230) -/
  done : Bool
  /-- put behind system time by a step, an enable or a prediction: counts as late (R220, R222, R223) -/
  behind : Bool
  bad : Bool
deriving DecidableEq, Repr

/-- A running PULSE or PWM output (R232). `due` is the end of the period, in units of CORE time. -/
structure Wave where
  period : Nat
  high : Nat
  due : Nat
  /-- periods left; 0 is without end -/
  count : Nat
deriving DecidableEq, Repr

/-- One channel. CTL, CFG0–CFG3 (CFG1 and CFG2 of PULSE and PWM are the shadow values), results, events and
counters stand in the register file. -/
structure Chan where
  list : List Entry
  /-- the count c of R213 -/
  tags : BitVec 24
  /-- HIZ is the last level action -/
  hiz : Bool
  wave : Option Wave
  /-- PERIOD and HIGH in force -/
  period : Nat
  high : Nat
  update : Bool
  newHigh : Option Nat
  newCount : Option Nat
  /-- edges since enable, the COUNT counter, the last qualified edge, rising and falling edges -/
  edges : Word
  counter : Word
  prevEdge : Option SysTime
  riseAt : Option SysTime
  fallAt : Option SysTime
  /-- pattern: the channel takes its bit, and INVERT in force (R238) -/
  joined : Bool
  inverted : Bool
  /-- channel table LINK, NOM_OPERATE, NOM_RELEASE (Table 04-9) -/
  link : Byte
  nomOperate : BitVec 16
  nomRelease : BitVec 16
  /-- R129: the channel-table entry taken once the list is empty -/
  newConfig : Option (List Byte)
deriving DecidableEq, Repr

/-- A pattern group (R234). The shadow values stand in the register file. -/
structure Group where
  fifo : List (BitVec 16)
  /-- configuration in force -/
  depth : Nat
  lowWater : Nat
  t0 : Nat
  pending : Bool
  /-- the plane being shown, its index, and its end in units of CORE time -/
  shown : BitVec 16
  plane : Nat
  due : Nat
  holding : Bool
  /-- a first plane has been taken since EN -/
  started : Bool
  /-- a configuration took effect and no plane has been taken since: the next one is plane 0 (R237, R238) -/
  fresh : Bool
deriving DecidableEq, Repr

/-! ## Angle engine (chapter 7) -/

/-- What reaches a wheel: a tooth or an edge of its index channel (R249, R254). -/
structure WheelIn where
  time : SysTime
  flag : Bool
  level : Bool
  index : Bool
deriving DecidableEq, Repr

/-- A queued synthetic tooth; `start` is its index under R260. -/
structure SynTooth where
  time : SysTime
  ref : Bool
  start : Option (Nat × Word)
deriving DecidableEq, Repr

/-- A matched tooth of the history (07.5). -/
structure Matched where
  time : SysTime
  pos : BitVec 52
  index : Nat
deriving DecidableEq, Repr

/-- WHL.STATUS.SYNC (Table 07-5). -/
inductive Sync where
  | off | stopped | seeking | provisional | synced
deriving DecidableEq, Repr

/-- A tooth being processed: its time, its flag, its width, whether an index edge came between it and the tooth before, and
the newest index edge before it. -/
structure ToothIn where
  time : SysTime
  flag : Bool
  width : Nat
  indexed : Bool
  edge : Option SysTime
deriving DecidableEq, Repr

structure Wheel where
  sync : Sync
  /-- teeth waiting, at most 8 -/
  inbox : List WheelIn
  fifo : List SynTooth
  /-- matched teeth since the reference, newest first, at most 128 -/
  hist : List Matched
  /-- the last teeth processed, newest first: time and width -/
  raw : List (SysTime × Nat)
  /-- a wide-tooth wheel's tooth not yet ended -/
  open_ : Option ToothIn
  /-- an index edge came since the last tooth, and the time of the newest one -/
  indexed : Bool
  indexAt : Option SysTime
  /-- references confirmed, and a tooth was passed over since the last -/
  confirmed : Nat
  passed : Bool
  /-- system time of the last arrival, for STALL -/
  seen : SysTime
  /-- the count written while EN was 0, until the first reference takes it -/
  fresh : Bool
  /-- last reference held while SYNCED, and the revolution time last shown (R255) -/
  lastRef : Option (SysTime × Word)
  lastPeriod : Nat
  /-- SYNCED has been left since the last recognised reference -/
  left : Bool
  /-- revolution of the last MARK -/
  markRev : Option Word
  synLo : Word
  /-- CFG3–CFG6 in force: a write takes effect from the next tooth (R248) -/
  cfg3 : Word
  cfg4 : Word
  cfg5 : Word
  cfg6 : Word
deriving DecidableEq, Repr

/-- A phase unit: its filter holds a sample; FILT lies inside the window. -/
structure PhaseUnit where
  primed : Bool
  inside : Bool
deriving DecidableEq, Repr

/-! ## Barrier link and MFE (chapter 2) -/

/-- Who issued a DOWN request. -/
inductive Issuer where
  | handshake
  | schedule (chan : Nat) (tag : Word)
  | cancel (chan : Nat) (tag : Word)
  | setNow
  | mailbox
  | failnow
deriving DecidableEq, Repr

/-- A request and its transmissions; times count CORE cycles (R90). -/
structure Request where
  seq : BitVec 16
  type : Byte
  /-- bytes 6–29 -/
  payload : List Byte
  issuer : Issuer
  sends : Nat
  first : Nat
  last : Nat
deriving DecidableEq, Repr

/-- Where the handshake of R81 stands. -/
inductive Handshake where
  | idle | hello | sync | config (i : Nat) | failstate | setNow
deriving DecidableEq, Repr

/-- The logic side of the link. -/
structure Barrier where
  /-- requests outstanding, at most 16, oldest first, and those behind the limit -/
  outs : List Request
  waiting : List Request
  nextSeq : BitVec 16
  /-- the 64 SEQ values sent last, newest first, each with whether it failed -/
  sent : List (BitVec 16 × Bool)
  /-- UP requests carried out: SEQ and completion status, newest first, at most 64 -/
  store : List (BitVec 16 × Byte)
  step : Handshake
  /-- a CONFIG of this handshake was not completed OK -/
  configBad : Bool
  /-- a request of the handshake failed: it starts again from HELLO (R81) -/
  again : Bool
  /-- Kindling has accepted the MFE's ROM (R121) -/
  romOk : Bool
  /-- the ROM versions of the last HELLO completion -/
  roms : List Byte
  /-- the last STATUS frame: flags and output levels; none since the link came up -/
  status : Option (Byte × BitVec 16)
  /-- CORE cycle of the last valid frame -/
  heard : Nat
  /-- the stamp of the last TIME frame sent (R85) -/
  timeSent : Option SysTime
  /-- the 32 bytes of the last frame sent on the DOWN channel (Table 02-5) -/
  line : List Byte
deriving DecidableEq, Repr

/-- A scheduled entry in the MFE (R94). -/
structure MfeEntry where
  tag : Word
  level : Bool
  gate : SysTime
  seq : BitVec 16
deriving DecidableEq, Repr

/-- One HV output in the MFE. Times are in units of 10 µs. -/
structure HvOut where
  level : Bool
  sched : List MfeEntry
  /-- opened under R84 -/
  tripped : Bool
  paired : Byte
  nomOperate : BitVec 16
  nomRelease : BitVec 16
  operate : Option Nat
  release : Option Nat
  /-- the gate a measurement is running from (R98) -/
  onGate : Option SysTime
  offGate : Option SysTime
deriving DecidableEq, Repr

/-- One HV input in the MFE. -/
structure HvIn where
  level : Bool
  feed : Byte
  deadzone : Bool
  edge : Option SysTime
deriving DecidableEq, Repr

/-- One sampled phase (R99, R100). `angle` is the tracker's tooth count since the positive-going crossing. -/
structure MainsPhase where
  rms : BitVec 16
  freq : BitVec 16
  thd : Byte
  present : Bool
  freqOk : Bool
  /-- teeth sent since the MFE's reset, wrapping -/
  teeth : Word
  /-- date of the last positive-going zero crossing -/
  cross : Option SysTime
deriving DecidableEq, Repr

/-- An UP request outstanding or waiting behind the limit of 16 (R90), or a report held for another try (R92). -/
structure UpReq where
  seq : BitVec 16
  type : Byte
  payload : List Byte
  sends : Nat
  first : Nat
  last : Nat
deriving DecidableEq, Repr

/-- The mains front end. -/
structure Mfe where
  powered : Bool
  /-- versions the ROM reproduces, native first -/
  roms : List Byte
  restarted : Bool
  /-- a valid frame has come within 1 ms -/
  link : Bool
  /-- the copy of system time, the offset last measured, and the two runs of R85 -/
  time : Option SysTime
  offset : Int
  inRun : Nat
  outRun : Nat
  sync : Bool
  /-- fail levels and HV_ENABLE of the last FAILSTATE since its own reset -/
  fail : Option (BitVec 12)
  enable : Bool
  failHeld : Bool
  /-- the 100 ms hold of R79 runs since this reading of the MFE's clock -/
  hold : Option Nat
  outs : Vector HvOut 12
  ins : Vector HvIn 4
  phases : Vector MainsPhase 3
  /-- completions by SEQ, newest first, at most 64: bytes 6–29 -/
  store : List (BitVec 16 × List Byte)
  nextSeq : BitVec 16
  ups : List UpReq
  waiting : List UpReq
  heldUps : List UpReq
  crcErr : BitVec 16
  retries : BitVec 16
  lost : BitVec 16
  resets : BitVec 16
  overtemp : Bool
  temp : Byte
  /-- bytes 6–29 of the last STATUS frame sent -/
  statusSent : List Byte
  /-- the 32 bytes of the last frame sent on the UP channel (Table 02-5) -/
  line : List Byte
  /-- the MFE's own clock, in units of 2^-29 s, and its reading at the last valid DOWN frame -/
  clock : Nat
  heard : Nat
deriving DecidableEq, Repr

/-! ## Time unit (chapter 5) -/

/-- What the time unit holds of one port, 0 EAST, 1 WEST, 2 DROP0, 3 DROP1 (R189–R191). -/
structure SpanTime where
  /-- TX_PREV of the field received last -/
  txPrev : Option SysTime
  /-- fields discarded in a row -/
  bad : Nat
  /-- number and arrival stamp of the frame received last -/
  arrival : Option (BitVec 16 × SysTime)
  /-- departure stamps of the last 16 frames, newest first -/
  departs : List (BitVec 16 × SysTime)
  /-- (T2 − T1) + (T4 − T3), and theta in 1/(2·10^10) units, of this filter period's frames -/
  delays : List Int
  thetas : List Int
  /-- theta as filtered at the end of the last filter period -/
  filtered : Option Int
  /-- BEST of the field received since the last election; none where the port gives no reference -/
  best : Option (BitVec 32)
  /-- frames still to send with STEPPED set -/
  stepLeft : Nat
deriving DecidableEq, Repr

/-- The time unit beyond its registers. Times "at" count CORE cycles; offsets are in 1/(2·10^10) units. -/
structure TimeUnit where
  spans : Vector SpanTime 4
  /-- the own source: last accepted edge, last edge, stamp waiting for its label, label before it, counts -/
  edgeAt : Option Nat
  edgeSeen : Nat
  stamp : Option SysTime
  label : Option Word
  good : Nat
  rejects : Nat
  /-- the previous accepted submission: offset in units and ACC -/
  soft : Option (Int × Nat)
  softAt : Nat
  badSoft : Nat
  /-- path and ACC of the source's last accepted sample -/
  path : Bool
  acc : Nat
  srcOffset : Option Int
  /-- source samples beyond 1 ms in a row, and the offset a step is due for (R185) -/
  agree : Nat
  stepDue : Option Int
  inSince : Option Nat
  outSince : Option Nat
  lockedSeen : Bool
  holdAt : Nat
  hasRef : Bool
  /-- own GEN, and the GEN last heard of each address with the cycle it changed (R193, R194) -/
  gen : Byte
  gens : List (Nat × Byte × Nat)
  port : Option (Fin 4)
  stepAt : Option Nat
  steerAt : Nat
  /-- the system second last begun -/
  second : Nat
  /-- LEAP_LO and LEAP_HI as written -/
  leapLo : Word
  leapHi : Word
  /-- offset last received, the table's entry last taken, and the image's LEAPS table -/
  received : Option Int
  taken : Option Int
  leaps : List (Nat × Int)
  ppsOut : Bool
  ppsEnd : Nat
  /-- the RTC in units of 2^-29 s, and its RTC_LOST flag -/
  rtc : BitVec 64
  rtcLost : Bool
  /-- the time was set from the monitor taps since insertion ended (R195) -/
  coarse : Bool
deriving DecidableEq, Repr


/-! ## Performance counts (13.8) -/

/-- One system second of a port, waiting 10 s for its classification (R445, R446). -/
structure Second where
  /-- the UTC second count -/
  c : Int
  ns : Bool
  ses : Bool
  es : Bool
  ds : Bool
  uncorr : Nat
  corr : Nat
  slips : Nat
  oof : Nat
  trains : Nat
deriving DecidableEq, Repr

/-- A bin of the interval from `start` to `stop`; `corr` counts symbols. -/
structure Bin where
  start : Int
  stop : Int
  suspect : Bool
  partial_ : Bool
  counted : Bool
  es : Nat
  ses : Nat
  uas : Nat
  ds : Nat
  ns : Nat
  uncorr : Nat
  corr : Nat
  slips : Nat
  oof : Nat
  trains : Nat
deriving DecidableEq, Repr

/-- The counts of one port. -/
structure PortPerf where
  now15 : Bin
  /-- closed 15-minute bins, newest first, at most 16 -/
  hist15 : List Bin
  now24 : Bin
  prev24 : Option Bin
  waiting : List Second
  unavail : Bool
  /-- the second in progress: counts, SF seen, port enabled throughout, node inserted at some time, T4 or UP throughout -/
  uncorr : Nat
  corr : Nat
  slips : Nat
  oof : Nat
  trains : Nat
  sf : Bool
  enabled : Bool
  inserted : Bool
  up : Bool
deriving DecidableEq, Repr

/-! ## Slots and the connection memory (13.1–13.3) -/

structure Tsi where
  /-- connection memory: key (page·4 + port)·16384 + slot -/
  cm : List (Nat × Word)
  /-- entries with bits in error -/
  ecc : List (Nat × Option Ecc)
  /-- PROTECTED entries of the active page, key port·16384 + slot: on the alternate, and frames the primary has been live -/
  prot : List (Nat × (Bool × Nat))
  /-- the page each output port builds from -/
  page : Vector Bool 4
  /-- a pending swap's frame, and whether it is an image activation's -/
  swap : Option Nat
  swapImage : Bool
  /-- the CORE cycle a copy began -/
  copy : Option Nat
  /-- since the last load or swap: CM_ENTRY_BAD raised; the entries CM_UNCORR was raised for, by key -/
  badRaised : Bool
  uncorrRaised : List Nat
deriving DecidableEq, Repr

/-! ## Flue (13.5–13.7) -/

structure Flue where
  /-- the queues of cells from RXD: 24-byte payloads -/
  pq : Vector (List (List Byte)) 2
  /-- cells waiting for TXD -/
  txq : Vector (List (List Byte)) 2
  /-- span bytes received at EAST and WEST and their validity; span bytes for the next frame -/
  spanRx : Vector (List Byte) 2
  spanOk : Vector Bool 2
  spanTx : Vector (List Byte) 2
  seq : Byte
  credit : Nat
  /-- faults raised in this second: RXD_CRC per port, CELL_CRC -/
  rxdRaised : Vector Bool 2
  cellRaised : Bool
  /-- the port frame sent last on TXD -/
  txd : Vector (List Byte) 2
deriving DecidableEq, Repr

/-! ## Ring line (chapter 12) -/

/-- A received frame: its bytes by offset (unlisted: 0), its uncorrectable codewords, its rate. -/
structure RxFrame where
  bytes : List (Nat × Byte)
  bad : List Nat
  full : Bool
  /-- a frame has already been built from it in the other direction -/
  taken : Bool
deriving DecidableEq, Repr

/-- One optical port beyond its registers: 0 EAST, 1 WEST, 2 DROP0, 3 DROP1. Times "at" count CORE cycles. -/
structure Port where
  rx : Option RxFrame
  /-- the frame built for transmission, and what left the port -/
  built : List (Nat × Byte)
  tx : List (Nat × Byte)
  builtNum : Option (BitVec 48)
  /-- the number expected next, correct numbers in a row that differ from it, the last number received right -/
  expect : Option (BitVec 48)
  jumps : Nat
  rxNum : Option (BitVec 48)
  /-- the number sent last -/
  txNum : Option (BitVec 48)
  /-- frames left with FN_JUMP set -/
  jumpLeft : Nat
  /-- alignment patterns wrong, and right, in a row; OOF and in-frame since -/
  wrong : Nat
  right : Nat
  oofAt : Option Nat
  inFrameAt : Option Nat
  /-- training: TRAIN_SEQ, COUNT, SEL_FULL, last received OFFER_FULL, RX_OK, ADAPTED, STEP, COUNT; runs; entry to the step -/
  seq : BitVec 16
  count : Nat
  selFull : Bool
  rxOffer : Bool
  rxOk : Bool
  rxAdapted : Bool
  rxStep : Nat
  rxCount : Nat
  validRun : Nat
  setRun : Nat
  sentRun : Nat
  /-- corrected symbols of the last frames in frame, newest first, at most 80 -/
  adapt : List Nat
  fallback : Bool
  clash : Bool
  stepAt : Nat
  /-- RDI_SF and RDI_SD set, and clear, in a row of valid fields -/
  rdiSfRun : Nat
  rdiSfClear : Nat
  rdiSdRun : Nat
  rdiSdClear : Nat
  /-- SF or RDI_SF has held since -/
  failAt : Option Nat
  leavingAt : Option Nat
  /-- has reached UP since the node inserted; was fit since, with this neighbour -/
  everUp : Bool
  fitWith : Option (BitVec 8)
  /-- wait to restore runs since; WTR_DONE sent; received in a row -/
  wtrAt : Option Nat
  wtrDone : Bool
  wtrDoneRun : Nat
  degRun : Nat
  cleanRun : Nat
  /-- corrected symbols and uncorrectable codewords of the last complete second, for the ring control -/
  secCorr : Nat
  secUncorr : Nat
  /-- a tap's flags: last seen -/
  insertingSeen : Option Nat
  leavingSeen : Option Nat
  /-- slots now carrying FAIL, and REFUSED, fill made here -/
  fails : Nat
  refused : Nat
deriving DecidableEq, Repr

structure Ring where
  ports : Vector Port 4
  perf : Vector PortPerf 4
  /-- TIME.STATUS.VALID has been 0 in the interval (R447) -/
  dip : Bool
  /-- the monitor receivers run since -/
  monitorAt : Option Nat
  tapFramed : Bool
  /-- insertion is requested of the supervisor; the switch reached the inserted position; sending INSERTING -/
  requested : Bool
  switchAt : Option Nat
  inserting : Bool
  /-- sending LEAVING; frames of it left before BYPASS_REQ withdraws the request -/
  leaving : Bool
  leaveFrames : Option Nat
  /-- insertion failures in a row, and the end of the backoff -/
  failures : Nat
  backoffEnd : Option Nat
deriving DecidableEq, Repr


/-! ## Plug, Peat, the work engine and image delivery (chapters 4, 14) -/

/-- A plug transfer in progress (R160): as written at GO. -/
structure Transfer where
  toPlug : Bool
  addr : Nat
  spad : Nat
  len : Nat
deriving DecidableEq, Repr

/-- The key plug: its memory, what it answers to RDID and RDSR, the transfer in progress. -/
structure Plug where
  /-- bytes by address; an unlisted byte reads 0x00 -/
  mem : List (Nat × Byte)
  rdid : Byte
  rdsr : Byte
  xfer : Option Transfer
deriving DecidableEq, Repr

/-- A work item (R452). -/
structure Item where
  origin : BitVec 8
  epoch : BitVec 16
  seq : Word
  tkind : BitVec 8
  tid : BitVec 8
  action : BitVec 8
  channel : BitVec 8
  due : BitVec 64
  arg0 : Word
  arg1 : Word
  arg2 : BitVec 64
deriving DecidableEq, Repr

/-- A journal record in its slot: accepted, committed by Peat, applied, marked, spent (R462–R475). -/
structure JRec where
  slot : Nat
  item : Item
  order : Word
  time : SysTime
  committed : Bool
  /-- its action has been carried out; the mark is not yet written -/
  marking : Bool
  applied : Bool
  result : Byte
  spent : Bool
  /-- to be applied again after a reset (R473) -/
  again : Bool
deriving DecidableEq, Repr

/-- A target's custody state (Table 14-5). -/
inductive TState where
  | offered | accepted | querying | applied | refused | lapsed | abandoned
deriving DecidableEq, Repr

/-- One target of a custody entry: CORE cycles of the last cell queued for it, and of its last OFFER inserted. -/
structure Target where
  node : Nat
  st : TState
  sentAt : Option Nat
  offerAt : Nat
deriving DecidableEq, Repr

/-- A custody record in its slot. -/
structure CRec where
  slot : Nat
  item : Item
  expires : Word
  set : BitVec 128
  targets : List Target
  /-- originated by the image rules (R168), not through WRK.OR_CMD -/
  inner : Bool
  committed : Bool
  /-- every target is final; the mark is not yet written -/
  ended : Bool
  released : Bool
deriving DecidableEq, Repr

/-- What Peat writes next (R474). -/
inductive PeatJob where
  | journal (slot : Nat)
  | applied (slot : Nat)
  | custody (slot : Nat)
  | released (slot : Nat)
deriving DecidableEq, Repr

/-- An origin as a target knows it: E(o) and W(o). -/
structure Origin where
  node : Nat
  epoch : BitVec 16
  w : Option Word
deriving DecidableEq, Repr

/-- The work engine and Peat. Times "At" count CORE cycles. -/
structure Work where
  awq : List JRec
  cust : List CRec
  origins : List Origin
  orderNext : Word
  /-- work cells taken off the ring, or delivered inside, and not yet acted on -/
  inbox : List (List Byte)
  /-- cells to insert -/
  reports : List (List Byte)
  queries : List (List Byte)
  offers : List (List Byte)
  images : List (List Byte)
  /-- a HELD origination: cycle and system second of its GO -/
  hold : Option (Nat × Nat)
  /-- ACTIVATE_IMAGE items the image rules still have to originate: node, image SEQUENCE, ACT (R168) -/
  arming : List (Nat × Word × BitVec 64)
  /-- records queued or being written, at most 4, and marks behind them -/
  peat : List PeatJob
  peatWait : List PeatJob
  /-- the head was tried last at; COUNT of its list then -/
  tryAt : Nat
  tryCount : Nat
  /-- the head is a SET_VALUE whose write failed -/
  valueHeld : Bool
  /-- AWQ_FULL and CELL_CRC raised in this second -/
  fullRaised : Bool
  cellRaised : Bool
  /-- the running image's group masks, 64 -/
  groups : List (BitVec 128)
deriving DecidableEq, Repr

/-- An image served: from the inactive copy, or the running one (R163, R173). -/
structure Serve where
  seq : Word
  /-- nodes to serve, and those that have reported STAGED, REFUSED -/
  roster : BitVec 128
  staged : BitVec 128
  refused : BitVec 128
  /-- chunks still to send in this round, and those reported missing since -/
  round : BitVec 5462
  needed : BitVec 5462
  /-- cycle of the first OFFER, of the last -/
  firstAt : Option Nat
  offerAt : Option Nat
  armed : Bool
deriving DecidableEq, Repr

/-- Image delivery (04.10). ROLE, STATE, SEQUENCE, ACT and the roster reports stand in the register file. -/
structure Dist where
  /-- image cells received and not yet acted on -/
  inbox : List (List Byte)
  /-- reception: distributor, IMAGE_LEN, chunks held, cycle of the last NEED -/
  origin : BitVec 8
  len : Nat
  chunks : BitVec 5462
  needAt : Option Nat
  /-- sequences refused until reset with their code; the sequence whose check failed once -/
  refusals : List (Word × Byte)
  failedOnce : Option Word
  serve : Option Serve
  catchUp : Option Serve
  beaconAt : Option Nat
  /-- system second K8 was entered -/
  k8At : Nat
  /-- the window the drain under way is for -/
  window : Option Nat
  /-- a swap has taken place and its warm restart is due -/
  warmDue : Bool
deriving DecidableEq, Repr


/-! ## The whole node -/

/-- The state of the node. -/
structure State where
  /-- every register field, by address (R538) -/
  regs : Regs
  /-- system time (R179) -/
  now : SysTime
  /-- CORE cycles since the model's first state (R181) -/
  cycles : Nat
  /-- RL latches: key latch set·2^32 + address of the partner (R9, R295); unlisted: not latched since reset -/
  latches : List (Nat × Option Word)
  node : Node
  sup : Supervisor
  col : Collector
  ic : IntCtl
  hrt : Hearth
  emb : Vector Ember 4
  spm : Scratchpad
  gsr : Vector GChan 8
  rep : Reports
  chan : Vector Chan 64
  grp : Vector Group 3
  whl : Vector Wheel 8
  ph : Vector PhaseUnit 4
  bar : Barrier
  mfe : Mfe
  tim : TimeUnit
  tsi : Tsi
  flue : Flue
  ring : Ring
  plug : Plug
  work : Work
  dist : Dist
  /-- the model's own: how many free values have been drawn (log entry 4) -/
  free : Nat
  /-- commands waiting, first in first out -/
  pending : List Instr
deriving DecidableEq, Repr

def Flags.reset : Flags := ⟨false, false, false, false⟩

def Ember.reset : Ember :=
  { w := Vector.replicate 32 0, flags := Flags.reset, pc := 0, lastPc := 0, rstack := [], sbuf := [],
    frames := [], inTask := false, excActive := false, halted := true, stopped := false, slot := 0,
    budgetHeld := false, overran := false, renewed := false, retiWait := 0, waiting := none, stall := none,
    scrubWait := false, storeFault := none }

def Slot.reset : Slot := ⟨.idle, false, 0, 0⟩

def Hearth.reset : Hearth :=
  { slots := Vector.replicate 64 Slot.reset, order := 0, dueLo := Vector.replicate 16 0, draining := false,
    cs := [], loaded := false, scrubAt := 0, scrubBad := [], timersStopped := false }

def Collector.reset : Collector :=
  { queue := [], held := [], log := Vector.replicate 16 none, first := none, pend := Vector.replicate 8 none,
    tag := 0, pulse := false, pulseEnd := 0, cause := none, early := 0 }

def IntCtl.reset : IntCtl := ⟨0, 0, 0⟩

def Scratchpad.reset : Scratchpad :=
  { mem := [], ecc := [], writeBacks := [], wake := Vector.replicate 17 none, wakeAt := Vector.replicate 17 0, marching := 0,
    marchBank := none, marchEnd := 0, marchPreserve := true, marched := 0, marchRows := [],
    lastGrant := Vector.replicate 17 0, grantRun := Vector.replicate 17 0, grantEnd := Vector.replicate 17 0,
    lastEmber := Vector.replicate 17 0, lastEngine := Vector.replicate 17 4 }

def GChan.reset : GChan := ⟨.idle, none, 0, [], [], 0⟩

def Identity.reset : Identity := ⟨0, 0, 0, 0, 0, []⟩

def Reports.reset : Reports := ⟨[], [], 0, [], false, 0, 0, 0⟩

/-- The node right after a power-on reset: K0, nothing sampled, nothing inserted (R101, Table 03-1). -/
def Node.reset : Node :=
  { phase := .k0, kind := .powerOn, heldInReset := false, resetLow := false, holdLow := false,
    plugPresent := false, frzLow := false, pwr := .none, coreFailed := false, auxFailed := false,
    rtcFailed := false, freeze := .running, frzBypassFirst := false, frzOnFatal := false,
    memaccWritten := false, resumeRefused := false, calderaFrom := .k0, calderaCause := 0, calderaStep := 0,
    afterFreeze := false, tapIr := 0xFF, boundary := 0, preload := 0, sinterSeg := 0, sinterWord := 0,
    sinterData := 0, memacc := 0, heartbeat := false,
    badRows := [], excludedA := false, excludedB := false, ident := Identity.reset, vio := true,
    pvdd := true, v24 := false, hot := 0, identChosen := false, mfeRoms := [], kinHalted := false, lvOn := false, k0At := 0, k0Lead := 53687091, phaseAt := 0, pwrAt := 0,
    pwrRecords := 0, pwrCycle := 0, pwrLogged := false, hbAt := 0, hbFrozen := false, hvSent := false, tapOut := 0 }

def Supervisor.reset : Supervisor := ⟨true, false, false, false, 0⟩

def Chan.reset : Chan :=
  { list := [], tags := 0, hiz := false, wave := none, period := 0, high := 0, update := false, newHigh := none,
    newCount := none, edges := 0, counter := 0, prevEdge := none, riseAt := none, fallAt := none, joined := false,
    inverted := false, link := 0xFF, nomOperate := 0, nomRelease := 0, newConfig := none }

def Group.reset : Group :=
  { fifo := [], depth := 0, lowWater := 0, t0 := 0, pending := false, shown := 0, plane := 0, due := 0,
    holding := true, started := false, fresh := true }

def Wheel.reset : Wheel :=
  { sync := .off, inbox := [], fifo := [], hist := [], raw := [], open_ := none, indexed := false, indexAt := none, confirmed := 0,
    passed := false, seen := 0, fresh := true, lastRef := none, lastPeriod := 0, left := false, markRev := none,
    synLo := 0, cfg3 := 0, cfg4 := 0, cfg5 := 0, cfg6 := 0 }

def Barrier.reset : Barrier :=
  { outs := [], waiting := [], nextSeq := 0, sent := [], store := [], step := .idle, configBad := false, again := false,
    romOk := false, roms := [], status := none, heard := 0, timeSent := none, line := [] }

def HvOut.reset : HvOut :=
  { level := false, sched := [], tripped := false, paired := 0xFF, nomOperate := 0, nomRelease := 0,
    operate := none, release := none, onGate := none, offGate := none }

def HvIn.reset : HvIn := ⟨false, 0xFF, false, none⟩

def MainsPhase.reset : MainsPhase := ⟨0, 0, 0, false, false, 0, none⟩

/-- The MFE right after its own reset (R79, R85, R89). -/
def Mfe.reset : Mfe :=
  { powered := false, roms := [0x24], restarted := true, link := false, time := none, offset := 0, inRun := 0, outRun := 0,
    sync := false, fail := none, enable := false, failHeld := false, hold := none,
    outs := Vector.replicate 12 HvOut.reset, ins := Vector.replicate 4 HvIn.reset,
    phases := Vector.replicate 3 MainsPhase.reset, store := [], nextSeq := 0, ups := [], waiting := [], heldUps := [],
    crcErr := 0, retries := 0, lost := 0, resets := 0, overtemp := false, temp := 0, statusSent := [], line := [], clock := 0,
    heard := 0 }

def SpanTime.reset : SpanTime := ⟨none, 0, none, [], [], [], none, none, 0⟩

def TimeUnit.reset : TimeUnit :=
  { spans := Vector.replicate 4 SpanTime.reset, edgeAt := none, edgeSeen := 0, stamp := none, label := none, good := 0,
    rejects := 0, soft := none, softAt := 0, badSoft := 0, path := false, acc := 0, srcOffset := none, agree := 0,
    stepDue := none, inSince := none, outSince := none, lockedSeen := false, holdAt := 0, hasRef := false, gen := 0,
    gens := [], port := none, stepAt := none, steerAt := 0, second := 0, leapLo := 0, leapHi := 0, received := none,
    taken := none, leaps := [], ppsOut := false, ppsEnd := 0, rtc := 0, rtcLost := true, coarse := false }

def Bin.reset : Bin := ⟨0, 0, false, true, false, 0, 0, 0, 0, 0, 0, 0, 0, 0, 0⟩

def PortPerf.reset : PortPerf :=
  { now15 := { Bin.reset with stop := 900 }, hist15 := [], now24 := { Bin.reset with stop := 86400 }, prev24 := none, waiting := [], unavail := false,
    uncorr := 0, corr := 0, slips := 0, oof := 0, trains := 0, sf := false, enabled := false, inserted := false, up := false }

def Tsi.reset : Tsi :=
  { cm := [], ecc := [], prot := [], page := Vector.replicate 4 false, swap := none, swapImage := false, copy := none,
    badRaised := false, uncorrRaised := [] }

def Flue.reset : Flue :=
  { pq := Vector.replicate 2 [], txq := Vector.replicate 2 [], spanRx := Vector.replicate 2 [],
    spanOk := Vector.replicate 2 false, spanTx := Vector.replicate 2 [], seq := 0, credit := 0,
    rxdRaised := Vector.replicate 2 false, cellRaised := false, txd := Vector.replicate 2 [] }

def Port.reset : Port :=
  { rx := none, built := [], tx := [], builtNum := none, expect := none, jumps := 0, rxNum := none, txNum := none, jumpLeft := 0, wrong := 0,
    right := 0, oofAt := none, inFrameAt := none, seq := 0, count := 0, selFull := false, rxOffer := false, rxOk := false,
    rxAdapted := false, rxStep := 0, rxCount := 0, validRun := 0, setRun := 0, sentRun := 0, adapt := [], fallback := false,
    clash := false, stepAt := 0, rdiSfRun := 0, rdiSfClear := 0, rdiSdRun := 0, rdiSdClear := 0, failAt := none,
    leavingAt := none, everUp := false, fitWith := none, wtrAt := none, wtrDone := false, wtrDoneRun := 0, degRun := 0,
    cleanRun := 0, secCorr := 0, secUncorr := 0, insertingSeen := none, leavingSeen := none, fails := 0, refused := 0 }

def Ring.reset : Ring :=
  { ports := Vector.replicate 4 Port.reset, perf := Vector.replicate 4 PortPerf.reset, dip := true, monitorAt := none,
    tapFramed := false, requested := false, switchAt := none, inserting := false, leaving := false, leaveFrames := none,
    failures := 0, backoffEnd := none }

def Plug.reset : Plug := { mem := [], rdid := 0, rdsr := 0, xfer := none }

def Work.reset : Work :=
  { awq := [], cust := [], origins := [], orderNext := 0, inbox := [], reports := [], queries := [], offers := [], images := [],
    hold := none, arming := [], peat := [], peatWait := [], tryAt := 0, tryCount := 0, valueHeld := false,
    fullRaised := false, cellRaised := false, groups := [] }

def Dist.reset : Dist :=
  { inbox := [], origin := 0, len := 0, chunks := 0, needAt := none, refusals := [], failedOnce := none, serve := none,
    catchUp := none, beaconAt := none, k8At := 0, window := none, warmDue := false }

def State.reset : State :=
  { regs := F.resetRegs, now := 0, cycles := 0, latches := [], node := Node.reset, sup := Supervisor.reset, col := Collector.reset,
    ic := IntCtl.reset, hrt := Hearth.reset, emb := Vector.replicate 4 Ember.reset,
    spm := Scratchpad.reset, gsr := Vector.replicate 8 GChan.reset, rep := Reports.reset,
    chan := Vector.replicate 64 Chan.reset, grp := Vector.replicate 3 Group.reset,
    whl := Vector.replicate 8 Wheel.reset, ph := Vector.replicate 4 ⟨false, false⟩, bar := Barrier.reset,
    mfe := Mfe.reset, tim := TimeUnit.reset, tsi := Tsi.reset, flue := Flue.reset, ring := Ring.reset,
    plug := Plug.reset, work := Work.reset, dist := Dist.reset, free := 0,
    pending := [] }

end Sys2Proof.Machine
end

