-- ==== Sys2Proof/Machine/Ops.lean ====
section
/-! DEFINITION. The named operations every block shares: register fields, saturating counters, event bits
and interrupt strobes (R331, R332), fault messages (R482–R485), report records (R443), bytes. -/

namespace Sys2Proof.Machine

abbrev Result := Host.Outcome State Fault Refusal

/-! ## Register fields -/

def State.get (s : State) (f : Field) : Nat := regGet s.regs f

def State.bit (s : State) (f : Field) : Bool := decide (s.get f ≠ 0)

def State.put (f : Field) (v : Nat) (s : State) : State := { s with regs := regPut s.regs f v }

def State.putBit (f : Field) (b : Bool) (s : State) : State := s.put f b.toNat

/-- The whole stored word of the register at `a`. -/
def State.reg (s : State) (a : Nat) : Word := tabGet 0 s.regs a

def State.putReg (a : Nat) (w : Word) (s : State) : State := { s with regs := tabSet 0 s.regs a w }

/-- Add `n` to a counting field that stops at its greatest value. -/
def State.count (f : Field) (n : Nat) (s : State) : State :=
  s.put f (min (s.get f + n) (2 ^ f.width - 1))

/-- Add `n` to a field that wraps. -/
def State.wrap (f : Field) (n : Nat) (s : State) : State := s.put f (s.get f + n)

/-- Set bit `b` of a field of event bits. -/
def State.setBitOf (f : Field) (b : Nat) (s : State) : State :=
  if (s.get f).testBit b then s else s.put f (s.get f + 2 ^ b)

/-- Do `f` for each of a list, in order. -/
def State.each {α : Type} (l : List α) (f : α → State → State) (s : State) : State :=
  l.foldl (fun s a => f a s) s

/-- Apply `f` when `c` holds. -/
def State.when (c : Bool) (f : State → State) (s : State) : State := if c then f s else s

/-! ## Bytes -/

/-- `n` bytes of `v`, least significant first (R10: scratchpad, plug, barrier). -/
def leBytes (n v : Nat) : List Byte := (List.range n).map fun i => BitVec.ofNat 8 (v / 256 ^ i)

/-- `n` bytes of `v`, most significant first (R10: ring and drop ports). -/
def beBytes (n v : Nat) : List Byte := (leBytes n v).reverse

def ofLe : List Byte → Nat
  | [] => 0
  | b :: bs => b.toNat + 256 * ofLe bs

def ofBe (l : List Byte) : Nat := ofLe l.reverse

/-- Bytes `off` to `off + n - 1` of a block; what lies beyond it reads 0. -/
def slice (l : List Byte) (off n : Nat) : List Byte :=
  (List.range n).map fun i => l.getD (off + i) 0

/-- Byte `i` of a frame, a cell or a record. -/
def byteAt (f : List Byte) (i : Nat) : Byte := f.getD i 0

def leAt (l : List Byte) (off n : Nat) : Nat := ofLe (slice l off n)

def beAt (l : List Byte) (off n : Nat) : Nat := ofBe (slice l off n)

/-- Serial-number arithmetic (RFC 1982) on `n` bits: `a` is newer than `b`. -/
def newer (n a b : Nat) : Bool :=
  let d := (a + 2 ^ n - b % 2 ^ n) % 2 ^ n
  d != 0 && decide (d < 2 ^ (n - 1))

/-! ## Interrupt strobes (R330–R332) -/

def reservedSource (src : Nat) : Bool := src == 103 || src == 126 || src == 127

/-- The arrival counter of a source (Table 10-3). -/
def cntField (src : Nat) : Field :=
  ⟨0x40010080 + 4 * (src / 4), 8 * (src % 4) + 5, 8 * (src % 4), .rc, 0⟩

/-- One arrival strobe: the ARRIVED bit is set and the counter adds one, stopping at 63. -/
def State.strobe (src : Nat) (s : State) : State :=
  if reservedSource src then s
  else { s.count (cntField src) 1 with ic := { s.ic with arrived := s.ic.arrived ||| BitVec.twoPow 128 src } }

/-- One strobe of a latched source. -/
def State.interrupt (src : Nat) (s : State) : State :=
  if reservedSource src then s
  else (({ s with ic := { s.ic with lat := s.ic.lat ||| BitVec.twoPow 128 src } } : State)).strobe src

/-- Set event bit `b`; an enabled bit contributes to the source's level and gives a strobe. -/
def State.event (ev ien : Field) (b src : Nat) (s : State) : State :=
  (s.setBitOf ev b).when ((s.get ien).testBit b) (State.strobe src)

/-- As `event`, for a one-bit event field whose enable is bit `b` of another. -/
def State.eventBit (ev ien : Field) (b src : Nat) (s : State) : State :=
  (s.put ev 1).when ((s.get ien).testBit b) (State.strobe src)

/-! ## Fault messages -/

/-- What a block says of a fault; the collector adds the stamp. -/
structure FaultSpec where
  src : BitVec 8
  kind : BitVec 5
  cls : BitVec 2
  reason : BitVec 8 := 0
  detail : BitVec 24 := 0
  addr : Word := 0
  master : BitVec 8 := 0x0E
  access : BitVec 8 := 0x0F
  injected : Bool := false

def corrected : BitVec 2 := 0
def contained : BitVec 2 := 1
def fatal : BitVec 2 := 2

/-- The kinds of Table 15-3. -/
def kPARITY : BitVec 5 := 0x01
def kECC_CORR : BitVec 5 := 0x02
def kECC_UNCORR : BitVec 5 := 0x03
def kBUS_ERR : BitVec 5 := 0x04
def kALIGN : BitVec 5 := 0x05
def kTIMEOUT : BitVec 5 := 0x06
def kLATE_COMPLETION : BitVec 5 := 0x07
def kQUEUE_FULL : BitVec 5 := 0x08
def kOVERLAP : BitVec 5 := 0x09
def kBUDGET_OVERRUN : BitVec 5 := 0x0A
def kACCESS_OFF_BANK : BitVec 5 := 0x0B
def kCRC : BitVec 5 := 0x0C
def kPROTOCOL : BitVec 5 := 0x0D
def kLOSS_OF_SYNC : BitVec 5 := 0x0E
def kCLOCK_FAIL : BitVec 5 := 0x0F
def kCOMPAT : BitVec 5 := 0x10
def kWATCHDOG : BitVec 5 := 0x11
def kSWAP_TIMEOUT : BitVec 5 := 0x12
def kJOURNAL_FULL : BitVec 5 := 0x13
def kPOWER : BitVec 5 := 0x15
def kDEFECT : BitVec 5 := 0x16

/-- A detail of up to three bytes, first named lowest (DEDUCED, log entry 12). -/
def detail3 (a : Nat) (b : Nat := 0) (c : Nat := 0) : BitVec 24 :=
  BitVec.ofNat 24 (a % 256 + 256 * (b % 256) + 65536 * (c % 256))

/-- The default class of a kind (Table 15-3); a kind the table does not list is FATAL. -/
def defaultClass (k : BitVec 5) : BitVec 2 :=
  if k = kPARITY ∨ k = kCLOCK_FAIL then fatal
  else if k = kECC_UNCORR ∨ k = kBUS_ERR ∨ k = kALIGN ∨ k = kBUDGET_OVERRUN ∨ k = kACCESS_OFF_BANK ∨ k = kPROTOCOL ∨
    k = kCOMPAT ∨ k = kWATCHDOG ∨ k = kSWAP_TIMEOUT then contained
  else if k = 0 ∨ k = 0x14 ∨ 0x16 < k.toNat then fatal
  else corrected

/-- The clock domain a fault source stamps in (Table 05-1): 0 CORE, 1 AUX, 2–5 the ports' LINE domains, 6 the bypass
supervisor's oscillator, 7 REF. -/
def domainOf (src : BitVec 8) : Nat :=
  if src = 0x14 ∨ src = 0x16 ∨ src = 0x17 then 1
  else if 0x0C ≤ src.toNat ∧ src.toNat ≤ 0x0F then src.toNat - 0x0A
  else if src = 0x19 then 6
  else if src = 0x1B then 7
  else 0

/-- The free-running counter of a domain other than CORE, by CORE cycle: it never runs back (log entry 6). -/
def domainCount (d : Nat) : Nat → BitVec 16
  | 0 => Config.domainPhase d
  | c + 1 => domainCount d c + if Config.domainTicks d c then 1 else 0

/-- How far the sample of system time in a domain other than CORE lies behind in CORE cycle `c`: at most 3 units, and the sample
itself never runs back (R181, log entry 6). -/
def domainLag (d c : Nat) : Nat := ([0, 1, 2].find? fun k => decide (c ≤ k) || Config.domainSamples d (c - k)).getD 3

/-- Bits [15:0] of a stamp of source `src`. -/
def State.stampExt (src : BitVec 8) (s : State) : BitVec 16 :=
  if domainOf src = 0 then Config.domainPhase 0 + BitVec.ofNat 16 s.cycles else domainCount (domainOf src) s.cycles

/-- Bits [79:16] of a stamp of source `src`: exact for a CORE-domain source. -/
def State.stampTime (src : BitVec 8) (s : State) : SysTime :=
  if domainOf src = 0 then s.now else s.now - BitVec.ofNat 64 (domainLag (domainOf src) s.cycles)

/-- The record of a fault, stamped when its source detects it (R181, R483). -/
def State.recordOf (s : State) (f : FaultSpec) : FaultRec :=
  { source := f.src, injected := f.injected, cls := f.cls, kind := f.kind, reason := f.reason,
    detail := f.detail, address := f.addr, master := f.master, access := f.access, escalated := false,
    first := false, tsInvalid := s.node.coreFailed || s.node.auxFailed, collectorSelf := false,
    time := s.stampTime f.src, ext := s.stampExt f.src }

/-- Place a message among those waiting: earlier arrival first, then ascending SOURCE (R485). -/
def queueInsert (q : List (Nat × FaultRec)) (e : Nat × FaultRec) : List (Nat × FaultRec) :=
  match q with
  | [] => [e]
  | x :: q => if x.1 = e.1 ∧ e.2.source.toNat < x.2.source.toNat then e :: x :: q else x :: queueInsert q e

/-- Send a record to the collector: a CORRECTED message that finds the queue of 32 full is dropped and
counted, any other is held by its block (R485). -/
def State.sendRecord (r : FaultRec) (s : State) : State :=
  if s.col.queue.length < 32 then
    { s with col := { s.col with queue := queueInsert s.col.queue (s.cycles, r) } }
  else if r.cls = corrected then s.count F.FLT_CNT_B_DROPPED 1
  else { s with col := { s.col with held := s.col.held ++ [(s.cycles, r)] } }

/-- Raise a fault. -/
def State.raise (f : FaultSpec) (s : State) : State := s.sendRecord (s.recordOf f)

/-! ## Report records (R443) -/

/-- Records that wait enter the queue in order while it has room. -/
def State.admitReports (s : State) : State :=
  let n := 32 - s.rep.queue.length
  { s with rep := { s.rep with queue := s.rep.queue ++ s.rep.waiting.take n,
                               waiting := s.rep.waiting.drop n } }

/-- Queue a START, BIN or STATE record: never discarded; a waiting STATE record is replaced. -/
def State.queueReport (r : Report) (s : State) : State :=
  let w := if r.rkind = 0x04 then s.rep.waiting.filter (fun x => decide (x.rkind ≠ 0x04)) else s.rep.waiting
  ({ s with rep := { s.rep with waiting := w ++ [r] } } : State).admitReports

/-! ## When a command acts -/

/-- The node can write the plug: it is there, and its supply is on (R36). -/
def State.plugReachable (s : State) : Bool := s.node.plugPresent && s.node.pvdd

/-- The node's own clocks run: not frozen (R505, R506), not held in reset (R31, Table 02-4 step 8). -/
def State.clocked (s : State) : Bool :=
  decide (s.node.freeze = .running) && !s.node.heldInReset

/-- The blocks that Caldera and plug hold stop are running (R57, R500). -/
def State.live (s : State) : Bool :=
  s.clocked && decide (s.node.phase ≠ .caldera) && decide (s.node.phase ≠ .hold)

def State.inK8 (s : State) : Bool := s.live && decide (s.node.phase = .k8)

/-- The next state of a command that acts only when `c` holds; otherwise it is no occurrence and
nothing changes (log entry 8). -/
def actWhen (c : Bool) (f : State → State) (s : State) : Result := .next (if c then f s else s)

/-- Draw a free value (log entry 4). -/
def State.draw (s : State) : BitVec 64 × State := (Config.freeValue s.free, { s with free := s.free + 1 })

/-- A write with no effect of its own: RW fields are set, W1S bits set, W1C bits cleared. -/
def writePlain (fs : List Field) (v : Word) (s : State) : State :=
  s.each fs fun f s => match f.acc with
    | .rw => s.put f (f.of v)
    | .w1s => s.put f (s.get f ||| f.of v)
    | .w1c => s.put f (s.get f - (s.get f &&& f.of v))
    | _ => s

end Sys2Proof.Machine
end

