-- ==== Sys2Proof/Machine/Barrier.lean ====
section
/-! DEFINITION. The logic side of the barrier link (02.6): frames and their CRC, issuing requests, what a
failed request does to its issuer. -/

namespace Sys2Proof.Machine

/-! ## Frames (R86, R87) -/

def crc16Step (c : BitVec 16) (b : Byte) : BitVec 16 :=
  (List.range 8).foldl (fun c _ => if c.msb then (c <<< 1) ^^^ 0x1021 else c <<< 1) (c ^^^ (b.zeroExtend 16 <<< 8))

/-- CRC-16/CCITT: initial value 0xFFFF, no reflection, no final XOR. -/
def crc16 (l : List Byte) : BitVec 16 := l.foldl crc16Step 0xFFFF

/-- The frame's CRC over bytes 0–29 is right. -/
def frameOk (f : List Byte) : Bool := (crc16 (f.take 30)).toNat == leAt f 30 2

def fType (f : List Byte) : Byte := byteAt f 0
def fSeq (f : List Byte) : BitVec 16 := BitVec.ofNat 16 (leAt f 2 2)
def fRef (f : List Byte) : BitVec 16 := BitVec.ofNat 16 (leAt f 4 2)
def fPayload (f : List Byte) : List Byte := slice f 6 24

/-- The 32 bytes of a frame (Table 02-5): bit 7 of FLAGS is RETX, the payload is padded with 0x00. -/
def barFrame (type : Byte) (retx : Bool) (seq ref : BitVec 16) (payload : List Byte) : List Byte :=
  let body := [type, if retx then 0x80 else 0] ++ leBytes 2 seq.toNat ++ leBytes 2 ref.toNat ++ slice payload 0 24
  body ++ leBytes 2 (crc16 body).toNat

/-- Keep an item under its SEQ, the most recent SEQ first (R89). -/
def keepSeq {α : Type} (q : BitVec 16) (x : α) : List (BitVec 16 × α) → List (BitVec 16 × α)
  | [] => [(q, x)]
  | y :: l => if newer 16 y.1.toNat q.toNat then y :: keepSeq q x l else (q, x) :: y :: l

def tHELLO : Byte := 0x01
def tFAILSTATE : Byte := 0x02
def tSCHEDULE : Byte := 0x03
def tCANCEL : Byte := 0x04
def tSET_NOW : Byte := 0x05
def tTIME : Byte := 0x06
def tCONFIG : Byte := 0x07
def tQUERY : Byte := 0x08
def tFAILNOW : Byte := 0x09
def tCOMPLETION : Byte := 0x81
def tSTATUS : Byte := 0x82
def tTEETH : Byte := 0x83
def tHV_EVENT : Byte := 0x84
def tMEASURE : Byte := 0x85
def tOPTIME : Byte := 0x86

/-- Completion statuses (Table 02-7). -/
def stOK : Byte := 0x00
def stOK_ABSENT : Byte := 0x01
def stTOO_LATE : Byte := 0x02
def stFULL : Byte := 0x03
def stDISABLED : Byte := 0x04
def stNOT_SYNCED : Byte := 0x05
def stBAD_REQUEST : Byte := 0x06

/-- Microseconds in CORE cycles, rounded up. -/
def usCycles (us : Nat) : Nat := (us * 536870912 + 999999) / 1000000

/-- Microseconds in units of system time, rounded down. -/
def usUnits (us : Nat) : Nat := us * 536870912 / 1000000

/-! ## Requests -/

def State.setBar (b : Barrier) (s : State) : State := { s with bar := b }

def State.linkUp (s : State) : Bool := s.bit F.BAR_STATUS_LINK_UP

def barFault (kind : BitVec 5) (detail : BitVec 24) (s : State) : State :=
  s.raise { src := 0x16, kind := kind, cls := defaultClass kind, detail := detail }

/-- Change the entry of channel `c` that carries `tag`. -/
def State.modEntry (c : Nat) (tag : Word) (f : Entry → Entry) (s : State) : State :=
  if h : c < 64 then
    { s with chan := s.chan.set c { s.chan[c] with list := s.chan[c].list.map fun e => if e.tag = tag then f e else e } }
  else s

/-- A mailbox request ends (R93). On a failure there are no completion bytes, and MBX_RX keeps what it held
(DESIGN CHOICE, log entry 105). -/
def endMailbox (result : Nat) (s : State) : State :=
  ((s.put F.BAR_MBX_TXCTL_RESULT result).put F.BAR_MBX_TXCTL_BUSY 0).interrupt 96

/-- A handshake whose request failed starts again (R81): the HANDSHAKE command sends the HELLO. -/
def handshakeAgain (s : State) : State := s.setBar { s.bar with step := .idle, again := true }

/-- A failed request goes back to the block that issued it (R90, R92). -/
def returnFailed (i : Issuer) (s : State) : State :=
  match i with
  | .handshake => handshakeAgain s
  | .schedule c tag => s.modEntry c tag fun e => { e with fwd := .refused }
  | .mailbox => endMailbox 0xFF s
  | _ => s

/-- A frame leaves on the DOWN channel. -/
def sendDown (type : Byte) (retx : Bool) (seq ref : BitVec 16) (payload : List Byte) (s : State) : State :=
  s.setBar { s.bar with line := barFrame type retx seq ref payload }

/-- First transmission of a request: it takes the next SEQ. -/
def transmit (r : Request) (s : State) : State :=
  let b := s.bar
  let q := b.nextSeq
  let r := { r with seq := q, sends := 1, first := s.cycles, last := s.cycles }
  sendDown r.type false q 0 r.payload
    (s.setBar { b with outs := b.outs ++ [r], nextSeq := q + 1, sent := ((q, false) :: b.sent).take 64 })

/-- A request may be sent: fewer than 16 are outstanding, and none but a HELLO, or the FAILNOW of R83, before the
HELLO completes (R89, R90; DEDUCED, log entry 105). -/
def State.maySend (type : Byte) (s : State) : Bool :=
  decide (s.bar.outs.length < 16) && (decide (s.bar.step ≠ .hello) || type == tHELLO || type == tFAILNOW)

/-- 250 µs remain before the gate time of a SCHEDULE, so that its first transmission may start (R95). -/
def State.leadOk (gate : Nat) (s : State) : Bool := decide (s.now.toNat + usUnits 250 ≤ gate)

/-- A waiting request may still be sent: any but a SCHEDULE too near its gate. -/
def Request.inTime (r : Request) (s : State) : Bool := r.type != tSCHEDULE || s.leadOk (leAt r.payload 2 8)

/-- Issue a request; with the link down it fails at once (R92). -/
def barSend (type : Byte) (payload : List Byte) (i : Issuer) (s : State) : State :=
  let r : Request := ⟨0, type, slice payload 0 24, i, 0, 0, 0⟩
  if !s.linkUp then returnFailed i s
  else if s.maySend type then transmit r s
  else s.setBar { s.bar with waiting := s.bar.waiting ++ [r] }

/-- Requests that wait are sent, oldest first of those that may go, while there is room. A SCHEDULE that has waited
until less than 250 µs before its gate fails instead (R95; DEDUCED, log entry 105). -/
def sendWaiting : Nat → State → State
  | 0, s => s
  | k + 1, s => match s.bar.waiting.find? fun r => s.maySend r.type with
    | none => s
    | some r =>
      let s := s.setBar { s.bar with waiting := s.bar.waiting.erase r }
      sendWaiting k (if r.inTime s then transmit r s else returnFailed r.issuer s)

/-! ## Requests of the channel array -/

/-- SCHEDULE: output, level, gate time, tag (Table 02-6). -/
def sendSchedule (c : Nat) (level : Bool) (gate : SysTime) (tag : Word) (s : State) : State :=
  barSend tSCHEDULE ([BitVec.ofNat 8 (c - 48), BitVec.ofNat 8 level.toNat] ++ leBytes 8 gate.toNat ++ leBytes 4 tag.toNat)
    (.schedule c tag) s

def sendCancel (c : Nat) (tag : Word) (s : State) : State :=
  barSend tCANCEL (BitVec.ofNat 8 (c - 48) :: (List.replicate 9 0 ++ leBytes 4 tag.toNat)) (.cancel c tag) s

def sendSetNow (mask levels : Nat) (i : Issuer) (s : State) : State :=
  barSend tSET_NOW (leBytes 2 mask ++ leBytes 2 levels) i s

end Sys2Proof.Machine
end

