-- ==== Sys2Proof/Machine/Faults.lean ====
section
/-! DEFINITION. The fault collector (chapter 15): acceptance, log, first-error capture, pending table and
escalation, FLT_N, injection. -/

namespace Sys2Proof.Machine

/-! ## Records as bytes and words -/

/-- The 64-bit message of a record (Table 15-1). -/
def FaultRec.message (r : FaultRec) : BitVec 64 :=
  r.source ++ BitVec.ofBool r.injected ++ r.cls ++ r.kind ++ r.address.extractLsb' 0 16 ++ r.detail ++ r.reason

def FaultRec.flagsByte (r : FaultRec) : Nat :=
  r.escalated.toNat + 2 * r.first.toNat + 4 * r.tsInvalid.toNat + 8 * r.collectorSelf.toNat

/-- The 32 bytes of a fault record (Table 15-2). -/
def FaultRec.bytes (r : FaultRec) : List Byte :=
  leBytes 8 r.message.toNat ++ leBytes 4 r.address.toNat ++
  [r.master, r.access, BitVec.ofNat 8 r.flagsByte, 0] ++
  leBytes 8 r.time.toNat ++ leBytes 2 r.ext.toNat ++ List.replicate 6 0

/-- Word `i` of the record as a register reads it (R513). -/
def FaultRec.word (r : FaultRec) (i : Nat) : Word := BitVec.ofNat 32 (leAt r.bytes (4 * i) 4)

/-! ## Injection (R495–R498) -/

/-- A checker over a SECDED code, where BITS may be 2 (R495). -/
def secdedChecker (c : Nat) : Bool := c == 1 || c == 4 || c == 5 || c == 7

/-- How many instances SEL may name (Table 15-5); a checker without SEL takes any. -/
def checkerInstances : Nat → Option Nat
  | 1 => some 17 | 2 => some 2 | 3 => some 4 | 4 => some 64 | 5 => some 8 | 6 => some 65536
  | 7 => some 2 | 8 => some 65536 | 9 => some 4 | 10 => some 2 | 11 => some 2 | 12 => some 2
  | 13 => some 65536 | 14 => some 65536 | _ => none

/-- Arming this checker can raise a FATAL fault (R497). -/
def fatalChecker (c : Nat) (continuous : Bool) : Bool :=
  c == 3 || c == 6 || c == 14 || (c == 13 && continuous)

/-- How many check bits checker `c`, instance `sel` inverts on the check made now: 0 when it is not armed. -/
def State.injectBits (c sel : Nat) (s : State) : Nat :=
  let usesSel := checkerInstances c != some 65536
  if s.bit F.FLT_INJ_ARM && s.get F.FLT_INJ_CHECKER == c && (!usesSel || s.get F.FLT_INJ_SEL == sel)
  then (if secdedChecker c then max 1 (s.get F.FLT_INJ_BITS) else 1) else 0

/-- A check has been made with inverted bits: a one-shot arming clears and DONE sets. -/
def State.injectDone (s : State) : State :=
  if s.bit F.FLT_INJ_CONTINUOUS then s else (s.put F.FLT_INJ_ARM 0).put F.FLT_INJ_DONE 1

/-- The check of checker `c`, instance `sel`: the inverted bits and the state after it. -/
def State.inject (c sel : Nat) (s : State) : Nat × State :=
  let n := s.injectBits c sel
  (n, if n = 0 then s else s.injectDone)

/-- A write of FLT.INJ (R495, R498). -/
def writeInj (v : Word) (s : State) : State :=
  let c := F.FLT_INJ_CHECKER.of v
  let cont := F.FLT_INJ_CONTINUOUS.of v != 0
  let bits := F.FLT_INJ_BITS.of v
  let okInst := match checkerInstances c with | some n => decide (F.FLT_INJ_SEL.of v < n) | none => false
  let ok := s.inK8 && okInst && bits != 3 && (bits != 2 || secdedChecker c) &&
    (!fatalChecker c cont || F.FLT_INJ_FATAL_OK.of v != 0)
  let s := [F.FLT_INJ_CONTINUOUS, F.FLT_INJ_FATAL_OK, F.FLT_INJ_BITS, F.FLT_INJ_CHECKER, F.FLT_INJ_SEL].foldl
    (fun s f => s.put f (f.of v)) s
  if F.FLT_INJ_ARM.of v = 0 then s.put F.FLT_INJ_ARM 0
  else if ok then (s.put F.FLT_INJ_ARM 1).put F.FLT_INJ_DONE 0
  else (s.put F.FLT_INJ_ARM 0).raise
    { src := 0x00, kind := kPROTOCOL, cls := corrected, reason := 0x02, detail := detail3 c }

/-! ## Acceptance (R486–R494) -/

/-- Write a record into the next entry of the log, overwriting the oldest. -/
def State.logRecord (r : FaultRec) (s : State) : State :=
  let k := if s.get F.FLT_LOG_HEAD_COUNT = 0 then 0 else (s.get F.FLT_LOG_HEAD_NEWEST + 1) % 16
  let s := (s.put F.FLT_LOG_HEAD_NEWEST k).put F.FLT_LOG_HEAD_COUNT (min 16 (s.get F.FLT_LOG_HEAD_COUNT + 1))
  { s with col := { s.col with log := s.col.log.setIfInBounds k (some r) } }

/-- The first-error capture takes a copy of the record if it holds none (R487). -/
def State.captureFirst (r : FaultRec) (s : State) : State :=
  if s.bit F.FLT_STATUS_FIRST_VALID then s
  else ({ s with col := { s.col with first := some { r with first := true } } } : State).put
    F.FLT_STATUS_FIRST_VALID 1

/-- A FATAL fault accepted: the first is the cause (R499). -/
def State.takeCause (r : FaultRec) (s : State) : State :=
  match s.col.cause with
  | some _ => s
  | none => { s with col := { s.col with cause := some r } }

/-- The bytes 6–27 of a FAULT report record (Table 13-7). -/
def faultReport (r : FaultRec) (suppressed : Nat) : Report :=
  { rkind := 0x02, part := 0,
    body := beBytes 8 r.message.toNat ++ beBytes 8 r.time.toNat ++ beBytes 2 r.ext.toNat ++
      beBytes 2 (min suppressed 0xFFFF) ++ [0, 0] }

/-- Whether a fault is one of the cases of R442. -/
def State.reportable (s : State) (r : FaultRec) : Bool :=
  r.cls != corrected || r.source == 0x18 ||
  (r.source == 0x12 && decide (0x20 ≤ r.reason.toNat ∧ r.reason.toNat ≤ 0x24)) ||
  !(s.rep.seen.contains (r.source.toNat, r.reason.toNat))

/-- Queue a FAULT record, or count it lost (R442, R443). -/
def State.reportFault (r : FaultRec) (s : State) : State :=
  if !s.reportable r then s
  else
    let s := { s with rep := { s.rep with seen := (r.source.toNat, r.reason.toNat) :: s.rep.seen } }
    if s.rep.queue.length ≤ 24 then
      { s with rep := { s.rep with queue := s.rep.queue ++ [faultReport r s.rep.suppressed], suppressed := 0 } }
    else
      let s := s.count F.FLUE_CNT_B_RPT_LOST 1
      let s := s.eventBit (F.FLUE_EVENT_RPT_LOST 0) (F.FLUE_IEN_IEN 0) 4 86
      let s := { s with rep := { s.rep with suppressed := min 0xFFFF (s.rep.suppressed + 1) } }
      if s.rep.lostRaised then s
      else ({ s with rep := { s.rep with lostRaised := true } } : State).raise
        { src := 0x11, kind := kQUEUE_FULL, cls := corrected, reason := 0x03,
          detail := BitVec.ofNat 24 (s.get F.FLUE_CNT_B_RPT_LOST) }

/-- Milliseconds in units of 2^-29 s, rounded down. -/
def msUnits (ms : Nat) : Nat := ms * 536870912 / 1000

/-- The escalation time in force (FLT.CFG.ESC_MS; 0 acts as 1). -/
def State.escUnits (s : State) : Nat := msUnits (max 1 (s.get F.FLT_CFG_ESC_MS))

/-- An escalated copy is logged and becomes the fault that takes the node to Caldera (R490). -/
def State.escalate (r : FaultRec) (s : State) : State :=
  let r' := { r with cls := fatal, escalated := true, time := s.now,
                     ext := s.stampExt 0x00 }
  let s := ((s.logRecord r').count F.FLT_CNT_B_ESCALATED 1).captureFirst r'
  let s := s.takeCause r'
  s.when (decide (s.node.phase = .k8)) (State.reportFault r')

/-- The first free entry of the pending table. -/
def freeEntry (p : Vector (Option PendEntry) 8) : Option (Fin 8) :=
  (List.finRange 8).find? fun i => p[i].isNone

/-- A CONTAINED fault takes an entry of the pending table, or escalates at once (R488). -/
def State.pendFault (r : FaultRec) (s : State) : State :=
  match freeEntry s.col.pend with
  | none => s.escalate r
  | some i =>
    let t := s.col.tag + 1
    { s with col := { s.col with
        tag := t
        pend := s.col.pend.set i (some { record := r, tag := t, warned := false, left := s.escUnits, half := s.escUnits / 2 }) } }

/-- STICKY bits and the start of a pulse (R493, R494): in pulse mode (FLTM fitted) each fault that sets
a STICKY bit starts a pulse. -/
def State.stickyFault (r : FaultRec) (s : State) : State :=
  let hit (bit cfg : Field) (s : State) : State :=
    if s.bit cfg then
      let pulses := decide (s.node.phase = .k8) && !s.bit F.IDENT_STRAPS_FLTM
      let e := s.cycles + msUnits (max 20 (s.get F.FLT_CFG_PULSE_MS))
      if pulses then { s.put bit 1 with col := { s.col with pulse := true, pulseEnd := e } } else s.put bit 1
    else s
  if r.cls = contained then hit F.FLT_STICKY_CONTAINED F.FLT_CFG_STICKY_CONTAINED s
  else if r.cls = corrected then hit F.FLT_STICKY_CORRECTED F.FLT_CFG_STICKY_CORRECTED s
  else s

/-- What the collector does for a message it accepts (R486–R488, R493, R499). -/
def State.acceptRecord (r : FaultRec) (s : State) : State :=
  let s := (s.logRecord r)
  let s := if r.cls = corrected then (s.count F.FLT_CNT_A_CORRECTED 1).interrupt 100
    else if r.cls = contained then (s.count F.FLT_CNT_A_CONTAINED 1).interrupt 101 else s
  let s := s.when (r.cls == corrected) fun s =>
    { s with rep := { s.rep with correctedSinceState := min 0xFFFF (s.rep.correctedSinceState + 1) } }
  let s := s.when (r.cls != corrected) (State.captureFirst r)
  let s := if s.node.phase = .k8 then (s.stickyFault r).reportFault r
    else
      let s := s.stickyFault r
      { s with col := { s.col with early := s.col.early + 1 } }
  if r.cls = contained then s.pendFault r
  else if r.cls = corrected then s
  else s.takeCause r

/-- One CORE cycle of acceptance: the first message waiting, then a held one moves up (R485). -/
def State.acceptNext (s : State) : State :=
  match s.col.queue with
  | [] => s
  | e :: q =>
    let s := match s.col.held with
      | [] => { s with col := { s.col with queue := q } }
      | h :: hs => { s with col := { s.col with queue := queueInsert q h, held := hs } }
    s.acceptRecord e.2

/-- Escalation timers count: K8 only, and not from step 4 of Table 02-4, in plug hold or frozen (R491). -/
def State.escRuns (s : State) : Bool :=
  s.inK8 && (s.node.pwr == .none || s.node.pwr == .running)

/-- FLT_N is driven low (Table 01-7, R493, R494). -/
def State.fltnLow (s : State) : Bool :=
  if s.node.phase = .k8 then
    if s.bit F.IDENT_STRAPS_FLTM then
      s.col.pend.toList.any Option.isSome || s.bit F.FLT_STICKY_CONTAINED || s.bit F.FLT_STICKY_CORRECTED
    else s.col.pulse || s.bit F.FLT_CTL_DRIVE
  else true

/-! ## The commands -/

/-- FAULT_MESSAGE (R486). -/
def execFaultMessage (s : State) : Result :=
  actWhen s.clocked State.acceptNext s

/-- WARNED (R488): half of entry `i`'s escalation time remains. -/
def execWarned (i : Fin 8) (s : State) : Result :=
  actWhen s.escRuns (fun s =>
    match s.col.pend[i] with
    | none => s
    | some e =>
      if e.warned ∨ e.half < e.left then s
      else
        let e' := { e with warned := true }
        ({ s with col := { s.col with pend := s.col.pend.set i (some e') } } : State).interrupt 102) s

/-- ESCALATION (R490): entry `i`'s timer has expired. -/
def execEscalation (i : Fin 8) (s : State) : Result :=
  actWhen s.escRuns (fun s =>
    match s.col.pend[i] with
    | none => s
    | some e =>
      if e.left ≠ 0 then s
      else ({ s with col := { s.col with pend := s.col.pend.set i none } } : State).escalate e.record) s

/-- A write of FLT.ACK (R489). -/
def writeAck (v : Word) (s : State) : State :=
  if F.FLT_ACK_GO.of v = 0 then s
  else
    let i : Fin 8 := Fin.ofNat 8 (F.FLT_ACK_ENTRY.of v)
    match s.col.pend[i] with
    | none => s.put F.FLT_STATUS_ACK_MISS 1
    | some e =>
      if e.tag.toNat = F.FLT_ACK_TAG.of v then
        ({ s with col := { s.col with pend := s.col.pend.set i none } } : State).put F.FLT_STATUS_ACK_MISS 0
      else s.put F.FLT_STATUS_ACK_MISS 1

/-- ACK (R489). -/
def execAck (v : Word) (s : State) : Result := actWhen s.clocked (writeAck v) s

/-- A write of FLT.CTL (R487, R494). -/
def writeFltCtl (v : Word) (s : State) : State :=
  let s := s.put F.FLT_CTL_DRIVE (F.FLT_CTL_DRIVE.of v)
  if F.FLT_CTL_CLEAR_FIRST.of v = 0 then s
  else (s.put F.FLT_STATUS_FIRST_VALID 0).put F.FLT_STATUS_FIRST_RETAINED 0

/-- CLEAR_FIRST (R487): the other bits of the write leave DRIVE as it stands. -/
def execClearFirst (s : State) : Result :=
  actWhen s.clocked (fun s => (s.put F.FLT_STATUS_FIRST_VALID 0).put F.FLT_STATUS_FIRST_RETAINED 0) s

/-- PULSE_END (R494): the pulse has lasted its PULSE_MS. -/
def execPulseEnd (s : State) : Result :=
  actWhen (s.clocked && s.col.pulse && decide (s.col.pulseEnd ≤ s.cycles)) (fun s => { s with col := { s.col with pulse := false } }) s

/-- ARM (R495): a write of FLT.INJ with ARM 1. -/
def execArm (v : Word) (s : State) : Result :=
  actWhen s.clocked (writeInj (F.FLT_INJ_ARM.into 1 v)) s

/-- SELF_PARITY (R492): the collector's own state at register offset `off` fails its parity; it is the
cause before any message accepted in the same cycle (R499). -/
def execSelfParity (off : BitVec 16) (s : State) : Result :=
  actWhen s.clocked (fun s =>
    let (n, s) := s.inject 0x0E 0
    let r := { s.recordOf { src := 0x00, kind := kPARITY, cls := fatal, reason := 0x01,
                            detail := BitVec.ofNat 24 off.toNat, injected := n != 0 } with
               collectorSelf := true }
    ((s.logRecord r).captureFirst r).takeCause r) s

end Sys2Proof.Machine
end

