-- ==== Sys2Proof/Machine/Scratch.lean ====
section
/-! DEFINITION. Scratchpad (11.1–11.8): banks, circular windows, SECDED, arbitration, power states, the march on
request and soft repair. -/

namespace Sys2Proof.Machine

/-- The seventeen banks end here (Table 11-1). -/
def spmTop : Nat := 0x84000

def bankOf (a : Nat) : Nat := a / 0x8000

def bankLo (b : Nat) : Nat := 0x8000 * b

def bankHi (b : Nat) : Nat := min spmTop (0x8000 * b + 0x8000)

/-! ## Windows (R358) -/

/-- The buffer of enabled window `w`: base and size. -/
def State.window? (w : Nat) (s : State) : Option (Nat × Nat) :=
  if s.bit (F.SPM_WIN_CTL_EN w) then some (s.get (F.SPM_WIN_BASE_BASE w), 2 ^ s.get (F.SPM_WIN_CTL_SIZE w)) else none

/-- Where an access to `a` is performed: an access to a fold region is performed one buffer lower. -/
def State.fold (a : Nat) (s : State) : Nat :=
  match (List.range 8).findSome? (fun w => match s.window? w with
    | some (b, n) => if b + n ≤ a ∧ a < b + 2 * n then some (a - n) else none
    | none => none) with
  | some a' => a'
  | none => a

/-- An enabling write is allowed (R358). -/
def State.windowOk (w k : Nat) (s : State) : Bool :=
  let b := s.get (F.SPM_WIN_BASE_BASE w)
  let n := 2 ^ k
  decide (6 ≤ k ∧ k ≤ 14) && b % n == 0 && decide (b + 2 * n ≤ spmTop) &&
  bankOf b == bankOf (b + 2 * n - 1) &&
  (List.range 8).all fun v => v == w || match s.window? v with
    | none => true
    | some (b', n') => decide (b + 2 * n ≤ b' ∨ b' + 2 * n' ≤ b)

/-- A write of SPM.WIN_CTL_w. -/
def writeWinCtl (w : Nat) (v : Word) (s : State) : State :=
  let k := (F.SPM_WIN_CTL_SIZE w).of v
  let s := (s.put (F.SPM_WIN_CTL_SIZE w) k).put (F.SPM_WIN_CTL_EN w) 0
  if (F.SPM_WIN_CTL_EN w).of v = 0 then s
  else if s.windowOk w k then (s.put (F.SPM_WIN_CTL_EN w) 1).put (F.SPM_WIN_CTL_BAD w) 0
  else s.put (F.SPM_WIN_CTL_BAD w) 1

/-! ## Access (R351–R353, R360) -/

def State.bankOn (b : Nat) (s : State) : Bool := (s.get F.SPM_PSTAT_ON).testBit b

/-- How an access to a word ended. -/
inductive Acc where
  | ok | off | uncorr
deriving DecidableEq, Repr

/-- Bits of the word at `wa` that one check finds wrong: its own and those injected (R496). -/
def State.eccCheck (wa : Nat) (s : State) : Nat × Bool × State :=
  let own := match tabGet none s.spm.ecc wa with
    | none => 0
    | some .single => 1
    | some .double => 2
  let (inj, s) := s.inject 0x01 (bankOf wa)
  (own + inj, inj != 0, s)

/-- A fault of scratchpad about an access by master `m` (R378). -/
def State.spmFault (kind : BitVec 5) (cls : BitVec 2) (reason : BitVec 8) (a m acc : Nat) (withAcc injected : Bool)
    (s : State) : State :=
  s.raise { src := 0x0B, kind := kind, cls := cls, reason := reason,
            detail := detail3 (bankOf a) m (if withAcc then acc else 0),
            addr := BitVec.ofNat 32 a, master := BitVec.ofNat 8 m, access := BitVec.ofNat 8 acc,
            injected := injected }

/-- The SECDED check of the word that holds `a`, read by master `m` with access type `acc`. -/
def State.checkWord (a m acc : Nat) (s : State) : Acc × State :=
  let wa := a / 8 * 8
  let (n, inj, s) := s.eccCheck wa
  if n = 0 then (.ok, s)
  else if n = 1 then
    let s := (s.count F.SPM_ECC_CNT_CORR 1).put F.SPM_ECC_ADDR_ADDR wa
    let s := { s with spm := { s.spm with writeBacks := if s.spm.writeBacks.contains wa then s.spm.writeBacks
                                                        else s.spm.writeBacks ++ [wa] } }
    (.ok, s.spmFault kECC_CORR corrected 0x01 a m acc false inj)
  else (.uncorr, (s.count F.SPM_ECC_CNT_UNCORR 1).spmFault kECC_UNCORR contained 0x02 a m acc true inj)

def State.bytesAt (a n : Nat) (s : State) : List Byte := tabGetRun 0 s.spm.mem a n

/-- An access to a bank that is not On is not performed; it names the master unless that is an Ember (R360). -/
def State.offAccess (a m acc : Nat) (s : State) : State :=
  s.when (decide (4 ≤ m)) (State.spmFault kACCESS_OFF_BANK contained 0x03 a m acc true false)

/-- Master `m` reads `n` aligned bytes at scratchpad address `a`. -/
def State.spmRead (m a n : Nat) (s : State) : Acc × Nat × State :=
  let p := s.fold a
  if !s.bankOn (bankOf p) then (.off, 0, s.offAccess a m 0)
  else
    let (st, s) := s.checkWord p m 0
    (st, ofLe (s.bytesAt p n), s)

/-- Store bytes at `p`, with fresh check bits for the word: marks and a waiting write-back go. -/
def State.spmStore (p : Nat) (bs : List Byte) (s : State) : State :=
  let wa := p / 8 * 8
  { s with spm := { s.spm with
      mem := tabSetRun 0 s.spm.mem p bs
      ecc := tabErase s.spm.ecc wa
      writeBacks := s.spm.writeBacks.filter (fun x => decide (x ≠ wa)) } }

/-- Master `m` writes the low `n` bytes of `v` at `a`: fewer than eight are a read-modify-write (R352). -/
def State.spmWrite (m a n v : Nat) (s : State) : Acc × State :=
  let p := s.fold a
  if !s.bankOn (bankOf p) then (.off, s.offAccess a m (if n = 8 then 1 else 2))
  else if n = 8 then (.ok, s.spmStore p (leBytes 8 v))
  else
    match s.checkWord p m 2 with
    | (.ok, s) => (.ok, s.spmStore p (leBytes n v))
    | (st, s) => (st, s)

/-- Master `m` reads `n` bytes as whole doublewords covering them; the first failure ends the read. -/
def State.spmReadBlock (m a : Nat) : (words : Nat) → State → Acc × List Byte × State
  | 0, s => (.ok, [], s)
  | k + 1, s =>
    match s.spmRead m a 8 with
    | (.ok, v, s) =>
      match State.spmReadBlock m (a + 8) k s with
      | (st, bs, s) => (st, leBytes 8 v ++ bs, s)
    | (st, _, s) => (st, [], s)

/-- Master `m` writes bytes one doubleword at a time from an aligned address. -/
def State.spmWriteBlock (m a : Nat) : (bs : List (List Byte)) → State → Acc × State
  | [], s => (.ok, s)
  | w :: ws, s =>
    match s.spmWrite m a 8 (ofLe w) with
    | (.ok, s) => State.spmWriteBlock m (a + 8) ws s
    | (st, s) => (st, s)

/-! ## Arbitration (R354–R357) -/

/-- The next requester after `after` in rotating order of `n` masters starting at `lo`. -/
def rotPick (lo n after : Nat) (req : Nat → Bool) : Option Nat :=
  ((List.range n).map fun i => lo + (after - lo + 1 + i) % n).find? req

/-- COUNT of master `m` (R355). -/
def State.grantCount (m : Nat) (s : State) : Nat :=
  if m = 8 then s.get F.SPM_RRCOUNT_HI_COUNT_8 else (s.get F.SPM_RRCOUNT_LO_COUNT / 16 ^ m) % 16

/-- The march engine holds bank `b` alone while it marches it (R356, R362). -/
def State.marchHolds (b : Nat) (s : State) : Bool := s.spm.marchBank == some b

/-- Bank `b` is in counted round-robin: as SPM.ARB says, and bank 16's port B always (R354–R356). -/
def State.counted (b : Nat) (s : State) : Bool := b == 16 || (s.get F.SPM_ARB_RR).testBit b

/-- Counted round-robin among masters `lo` to 8: the holder that has gone on requesting keeps its grant up to COUNT + 1
cycles. -/
def State.pickCounted (lo b : Nat) (req : Nat → Bool) (s : State) : Option Nat :=
  let h := s.spm.lastGrant.toList.getD b 0
  let run := s.spm.grantRun.toList.getD b 0
  if req h && decide (lo ≤ h) && decide (0 < run ∧ run < s.grantCount h + 1 ∧ s.cycles ≤ s.spm.grantEnd.toList.getD b 0) then some h
  else rotPick lo (9 - lo) (max lo h) req

/-- The master bank `b` grants in one cycle to the port that serves master `m`, among the requesters. -/
def State.pickGrant (b m : Nat) (req : Nat → Bool) (s : State) : Option Nat :=
  let embers := rotPick 0 4 (s.spm.lastEmber.toList.getD b 0) req
  if b = 16 then (if m < 4 then embers else s.pickCounted 4 b req)
  else if s.counted b then s.pickCounted 0 b req
  else match embers with
    | some e => some e
    | none => rotPick 4 5 (max 4 (s.spm.lastEngine.toList.getD b 0)) req

/-- The conflict counter of master `m` (Table 11-4). -/
def conflictField (m : Nat) : Field :=
  if m % 2 = 0 then F.SPM_CONFLICT_EVEN (m / 2) else F.SPM_CONFLICT_ODD (m / 2)

/-- Bank `b` has granted master `g` an access of `cyc` cycles. -/
def State.noteGrant (b g cyc : Nat) (s : State) : State :=
  let x := s.spm
  let on := x.lastGrant.toList.getD b 0 == g && decide (s.cycles ≤ x.grantEnd.toList.getD b 0)
  let run := (if on then x.grantRun.toList.getD b 0 else 0) + cyc
  let x := if s.counted b && (b != 16 || decide (4 ≤ g)) then
      { x with lastGrant := x.lastGrant.setIfInBounds b g, grantRun := x.grantRun.setIfInBounds b run,
               grantEnd := x.grantEnd.setIfInBounds b (s.cycles + cyc) }
    else x
  { s with spm := if g < 4 then { x with lastEmber := x.lastEmber.setIfInBounds b g }
                  else { x with lastEngine := x.lastEngine.setIfInBounds b g } }

/-- One cycle of arbitration for bank `b`: master `m` requests an access of `cyc` cycles, two where it is a
read-modify-write, and so do the masters of `others`. Whether `m` is granted; every requester of the port that is not counts
each cycle it waits, and so does `m` at a bank that is being marched (R357, R362). For an Ember at bank 16, a master of port B
among `others` is one that has the word locked by a read-modify-write (R356). -/
def State.grant (b m cyc : Nat) (others : BitVec 9) (s : State) : Bool × State :=
  let samePort (x : Nat) : Bool := b != 16 || (decide (x < 4) == decide (m < 4))
  let locked : Bool := b == 16 && decide (m < 4) && (others >>> 4 != 0)
  let waits (x : Nat) : Bool := samePort x && (x == m || others.getLsbD x)
  let req (x : Nat) : Bool := waits x && !(x == m && locked)
  let conflicts (g : Option Nat) (k : Nat) (s : State) : State :=
    s.each (List.range 9) fun x s => s.when (waits x && some x != g) (State.count (conflictField x) k)
  if s.marchHolds b then (false, conflicts none 1 s)
  else match s.pickGrant b m req with
    | none => (false, conflicts none 1 s)
    | some g => (g == m, conflicts (some g) (if g = m then cyc else 1) (s.noteGrant b g (if g = m then cyc else 1)))

/-- The target of a store: the scratchpad bank it reaches, or 17 for the register windows (R275). -/
def State.targetOf (t : StoreEntry) (s : State) : Nat :=
  if t.addr.toNat < spmTop then bankOf (s.fold t.addr.toNat) else 17

/-- The Embers that request bank `b`: with a load that waits there, or a store that waits to drain. -/
def State.requests (b : Nat) (s : State) : BitVec 9 :=
  (List.finRange 4).foldl (fun r (e : Fin 4) =>
    let m := s.emb[e]
    let load := match m.stall with
      | some x => !x.inShift && decide (x.addr.toNat < spmTop) && bankOf (s.fold x.addr.toNat) == b
      | none => false
    if load || m.sbuf.any fun t => s.targetOf t == b then r ||| BitVec.twoPow 9 e else r) 0

/-! ## Power (R359) -/

/-- POWER of bank `b`. -/
def powerField (b : Nat) : Field :=
  if b = 16 then F.SPM_POWER_HI_STATE_16 else ⟨0x40050010, 2 * b + 1, 2 * b, .rw, 0⟩

/-- A bank's content and marks go. -/
def State.clearBank (b : Nat) (s : State) : State :=
  { s with spm := { s.spm with
      mem := tabClear s.spm.mem (bankLo b) (bankHi b)
      ecc := tabClear s.spm.ecc (bankLo b) (bankHi b)
      writeBacks := s.spm.writeBacks.filter (fun x => decide (x < bankLo b ∨ bankHi b ≤ x)) } }

def State.setOn (b : Nat) (on : Bool) (s : State) : State :=
  let w := s.get F.SPM_PSTAT_ON
  let cleared := if w.testBit b then w - 2 ^ b else w
  s.put F.SPM_PSTAT_ON (if on then cleared + 2 ^ b else cleared)

/-- What an abandoned wake from Off leaves: zero up to the words reached, no defined content after. -/
def State.undefineBank (b reached : Nat) (s : State) : State :=
  let lo := bankLo b + min (8 * reached) (bankHi b - bankLo b)
  let vs := (List.range (bankHi b - lo)).map fun i => Config.freeByte s.free (lo + i)
  { s with spm := { s.spm with mem := tabSplice 0 s.spm.mem lo vs }, free := s.free + 1 }

/-- A bank asked for state `q` (Table 11-3); `reached` words were zeroed if its wake is abandoned. -/
def powerBank (b q reached : Nat) (s : State) : State :=
  let setWake (w : Option Wake) (s : State) : State :=
    { s with spm := { s.spm with wake := s.spm.wake.setIfInBounds b w, wakeAt := s.spm.wakeAt.setIfInBounds b s.cycles } }
  match s.get (powerField b), q with
  | 0, 1 =>
    let waking := s.spm.wake.toList.getD b none
    let s := ((s.put (powerField b) 1).setOn b false)
    let s := setWake none s
    if waking = some .fromOff then (s.clearBank b).undefineBank b reached else s
  | 0, 2 => setWake none (((s.put (powerField b) 2).setOn b false).clearBank b)
  | 1, 0 => setWake (some .fromRetention) (s.put (powerField b) 0)
  | 1, 2 => (s.put (powerField b) 2).clearBank b
  | 2, 0 => setWake (some .fromOff) (s.put (powerField b) 0)
  | _, _ => s

/-- A write of SPM.POWER_LO, or of SPM.POWER_HI when `hi`. -/
def writePower (hi : Bool) (v : Word) (reached : Nat) (s : State) : State :=
  if hi then powerBank 16 (F.SPM_POWER_HI_STATE_16.of v) reached s
  else s.each (List.range 16) fun b => powerBank b (v.toNat / 4 ^ b % 4) reached

/-- POWER_WRITE (R359). -/
def execPowerWrite (hi : Bool) (v : Word) (reached : Nat) (s : State) : Result :=
  actWhen s.clocked (writePower hi v reached) s

/-- A waking bank becomes On after its delay and any zero fill. -/
def wakeBank (b : Fin 17) (s : State) : State :=
  match s.spm.wake[b] with
  | none => s
  | some w =>
    let s := { s with spm := { s.spm with wake := s.spm.wake.set b none } }
    (s.when (w == .fromOff) (State.clearBank b)).setOn b true

/-- Cycles from the write to On (Table 11-3): the delay, and from Off the fill of every word and spare row. -/
def wakeCycles (b : Fin 17) : Wake → Nat
  | .fromRetention => 537
  | .fromOff => 537 + (if b.val = 16 then 2048 else 4096)

/-- BANK_ON (R359). -/
def execBankOn (b : Fin 17) (s : State) : Result :=
  let due := match s.spm.wake[b] with
    | none => false
    | some w => decide (s.spm.wakeAt[b] + wakeCycles b w ≤ s.cycles)
  actWhen (s.clocked && due) (wakeBank b) s

/-- WRITE_BACK (R351): a corrected word is written back when its bank is free; while the march has the bank it waits. -/
def execWriteBack (a : Word) (s : State) : Result :=
  actWhen (s.clocked && s.spm.writeBacks.contains a.toNat && s.bankOn (bankOf a.toNat) && !s.marchHolds (bankOf a.toNat)) (fun s =>
    { s with spm := { s.spm with
        ecc := tabErase s.spm.ecc a.toNat
        writeBacks := s.spm.writeBacks.filter (fun x => decide (x ≠ a.toNat)) } }) s

/-! ## March on request (R362, R363) -/

/-- A failing row is mapped to a free spare, or stays in use unrepaired (R363). -/
def repairRow (b row : Nat) (s : State) : State :=
  let s := (s.count F.SPM_MARCH_STATUS_FOUND 1).put F.SPM_MARCH_LAST_BANK b |>.put F.SPM_MARCH_LAST_ROW row
  let addr := BitVec.ofNat 32 (bankLo b + 0x200 * row)
  let used (s : State) : State :=
    (s.setBitOf F.KIN_REPAIR_BANKS b).raise
      { src := 0x0B, kind := kECC_CORR, cls := corrected, reason := 0x04, detail := detail3 b row, addr := addr,
        master := 9, access := 3 }
  if s.get (F.SPM_REPAIR_FIRST b) = 0xFFFF then used (s.put (F.SPM_REPAIR_FIRST b) row)
  else if s.get (F.SPM_REPAIR_SECOND b) = 0xFFFF then used (s.put (F.SPM_REPAIR_SECOND b) row)
  else s.raise { src := 0x0B, kind := kECC_UNCORR, cls := contained, reason := 0x05, detail := detail3 b row,
                 addr := addr, master := 9, access := 3 }

/-- Words of bank `b` that a preserving march reads as uncorrectable. -/
def State.uncorrWords (b : Nat) (s : State) : List Nat :=
  (s.spm.ecc.filter fun e => decide (e.2 = some Ecc.double ∧ bankLo b ≤ e.1 ∧ e.1 < bankHi b)).map Prod.fst

/-- Cycles the march of bank `b` takes: one operation a cycle (R362). -/
def marchCycles (b : Nat) (preserve : Bool) : Nat := (bankHi b - bankLo b) / 8 * (if preserve then 9 else 10)

/-- A row is found failing: once in a march. -/
def foundRow (b row : Nat) (s : State) : State :=
  if s.spm.marchRows.contains (b, row) then s
  else
    let s : State := { s with spm := { s.spm with marchRows := (b, row) :: s.spm.marchRows } }
    repairRow b row s

/-- The engine takes bank `b`. Nothing reaches the bank until its march ends, so what the march leaves is there from now on:
zero where it is destructive; where it preserves, the content, and each uncorrectable word, rewritten with its stored bits,
fails its row and raises SPM_UNCORR (R363). -/
def marchTake (b : Nat) (s : State) : State :=
  let s : State := { s with spm := { s.spm with
    marchBank := some b, marchEnd := s.cycles + marchCycles b s.spm.marchPreserve, marched := s.spm.marched ||| BitVec.twoPow 17 b } }
  if s.spm.marchPreserve then
    s.each (s.uncorrWords b) fun w s => foundRow b ((w - bankLo b) / 0x200) (s.spmFault kECC_UNCORR contained 0x02 w 9 3 true false)
  else s.clearBank b

/-- The turn passes to the next of the banks; one that is not On is skipped. -/
def marchNext : List Nat → State → State
  | [], s => { s with spm := { s.spm with marchBank := none } }
  | b :: bs, s =>
    let s : State := { s with spm := { s.spm with marching := s.spm.marching &&& ~~~BitVec.twoPow 17 b } }
    if s.bankOn b then marchTake b s else marchNext bs (s.setBitOf F.SPM_MARCH_SKIP_SKIPPED b)

/-- The banks whose turn is to come, ascending. -/
def State.marchLeft (s : State) : List Nat := (List.range 17).filter fun b => s.spm.marching.getLsbD b

/-- One CORE cycle of the march engine: a bank's march ends when its time is over. -/
def tickMarch (s : State) : State :=
  if s.spm.marchBank.isSome ∧ s.spm.marchEnd ≤ s.cycles then marchNext s.marchLeft s else s

/-- A write of SPM.MARCH_CTL: GO while BUSY is ignored, and a march runs as GO found PRESERVE and BANKS. -/
def writeMarch (v : Word) (s : State) : State :=
  let busy := s.bit F.SPM_MARCH_STATUS_BUSY
  let preserve := F.SPM_MARCH_CTL_PRESERVE.of v
  let s := (s.put F.SPM_MARCH_CTL_PRESERVE preserve).put F.SPM_MARCH_CTL_BANKS (F.SPM_MARCH_CTL_BANKS.of v)
  if F.SPM_MARCH_CTL_GO.of v = 0 || busy then s
  else
    let s := ((s.put F.SPM_MARCH_STATUS_BUSY 1).put F.SPM_MARCH_STATUS_FOUND 0).put F.SPM_MARCH_SKIP_SKIPPED 0
    let s : State := { s with spm := { s.spm with
      marching := BitVec.ofNat 17 (F.SPM_MARCH_CTL_BANKS.of v), marchPreserve := preserve != 0, marched := 0, marchRows := [] } }
    marchNext s.marchLeft s

/-- MARCH (R362): a write of SPM.MARCH_CTL with GO 1. -/
def execMarch (preserve : Bool) (banks : BitVec 17) (s : State) : Result :=
  actWhen s.clocked (writeMarch
    (F.SPM_MARCH_CTL_GO.into 1 (F.SPM_MARCH_CTL_PRESERVE.into preserve.toNat (F.SPM_MARCH_CTL_BANKS.into banks.toNat 0)))) s

/-- The time of the last bank's march is over. -/
def State.marchOver (s : State) : Bool :=
  s.bit F.SPM_MARCH_STATUS_BUSY && s.spm.marching == 0 && (s.spm.marchBank.isNone || decide (s.spm.marchEnd ≤ s.cycles))

/-- MARCH_DONE (R362, R363): the last bank's march ends. `fails`: the rows the march found failing by their reads, as
(bank, row). -/
def execMarchDone (fails : List (Nat × Nat)) (s : State) : Result :=
  actWhen (s.clocked && s.marchOver) (fun s =>
    let s := s.each (fails.filter fun x => s.spm.marched.getLsbD x.1) fun x => foundRow x.1 x.2
    let s : State := { s with spm := { s.spm with marchBank := none, marched := 0, marchRows := [] } }
    (s.put F.SPM_MARCH_STATUS_BUSY 0).interrupt 125) s

end Sys2Proof.Machine
end

