-- ==== Sys2Proof/Machine/Frac.lean ====
section
/-! DEFINITION. Exact fractions for the angle engine's divisions (R258): an integer over a positive natural
number. -/

namespace Sys2Proof.Machine

structure Frac where
  num : Int
  den : Nat
deriving DecidableEq, Repr

def Frac.ofInt (n : Int) : Frac := ⟨n, 1⟩

def Frac.add (x y : Frac) : Frac := ⟨x.num * y.den + y.num * x.den, x.den * y.den⟩

def Frac.neg (x : Frac) : Frac := ⟨-x.num, x.den⟩

def Frac.sub (x y : Frac) : Frac := x.add y.neg

def Frac.mul (x y : Frac) : Frac := ⟨x.num * y.num, x.den * y.den⟩

/-- Division by a fraction that is not 0. -/
def Frac.div (x y : Frac) : Frac := ⟨x.num * y.den * y.num.sign, x.den * y.num.natAbs⟩

def Frac.lt (x y : Frac) : Bool := decide (x.num * y.den < y.num * x.den)

def Frac.le (x y : Frac) : Bool := decide (x.num * y.den ≤ y.num * x.den)

def Frac.min (x y : Frac) : Frac := if x.le y then x else y

def Frac.max (x y : Frac) : Frac := if x.le y then y else x

def Frac.abs (x : Frac) : Frac := ⟨x.num.natAbs, x.den⟩

def Frac.floor (x : Frac) : Int := x.num.fdiv x.den

/-- The nearest integer, halves upwards. -/
def Frac.round (x : Frac) : Int := (2 * x.num + x.den).fdiv (2 * x.den)

end Sys2Proof.Machine
end

