-- ==== Sys2Proof/Machine/Wheel.lean ====
section
/-! DEFINITION. Wheels as the angle engine sees them: patterns (07.3), what a wheel knows of its motion,
prediction and position (R258). -/

namespace Sys2Proof.Machine

def State.setW (w : Fin 8) (x : Wheel) (s : State) : State := { s with whl := s.whl.set w x }

def State.modW (w : Fin 8) (f : Wheel → Wheel) (s : State) : State := s.setW w (f s.whl[w])

/-! ## Pattern (07.3, R265) -/

/-- CFG0–CFG2 and the source: wheels 0–2 hold the fixed mains values. -/
def State.whlCfg0 (w : Fin 8) (s : State) : Word := if w.val < 3 then 0x00021018 else s.reg (0x40030010 + 0x100 * w)
def State.whlCfg1 (w : Fin 8) (s : State) : Word := if w.val < 3 then 0x00005555 else s.reg (0x40030014 + 0x100 * w)
def State.whlCfg2 (w : Fin 8) (s : State) : Word := if w.val < 3 then 0 else s.reg (0x40030018 + 0x100 * w)
def State.source (w : Fin 8) (s : State) : Nat := if w.val < 3 then 0 else s.get (F.WHL_CTL_SOURCE w)
def State.synthetic (w : Fin 8) (s : State) : Bool := s.source w == 2

/-- The pattern of a wheel, read from its registers. -/
structure Pattern where
  sync : Nat
  feature : Nat
  missing : Nat
  n : Nat
  offset : Nat
  width : Nat
  extra : Nat
  /-- the tooth table used, if the pattern is a table -/
  table : Option Nat

/-- The tooth table a wheel's pattern is read from. -/
def State.patternTable (w : Fin 8) (s : State) : Option Nat :=
  if 3 ≤ w.val ∧ s.get (F.WHL_CTL_PATTERN w) = 1 then some (s.get (F.WHL_CTL_TABLE w)) else none

/-- Only a regular pattern carries a feature (07.3). -/
def State.pattern (w : Fin 8) (s : State) : Pattern :=
  { sync := (F.WHL_CFG0_SYNC w).of (s.whlCfg0 w),
    feature := if (s.patternTable w).isSome then 0 else (F.WHL_CFG0_FEATURE w).of (s.whlCfg0 w),
    missing := (F.WHL_CFG0_MISSING w).of (s.whlCfg0 w), n := (F.WHL_CFG0_N w).of (s.whlCfg0 w),
    offset := (F.WHL_CFG1_OFFSET w).of (s.whlCfg1 w), width := (F.WHL_CFG2_WIDTH w).of (s.whlCfg2 w),
    extra := (F.WHL_CFG2_EXTRA_ANGLE w).of (s.whlCfg2 w),
    table := s.patternTable w }

/-- The angle of regular tooth `k`. -/
def Pattern.angle (p : Pattern) (k : Nat) : Nat := (k * 2 ^ 20 / p.n + p.offset) % 2 ^ 20

/-- The angles of tooth table `t` (R252). -/
def State.tableAngles (t : Nat) (s : State) : List Nat :=
  (List.range (s.get (F.TBL_COUNT_COUNT t))).map fun i => s.get (F.TBL_ANGLE_ANGLE (512 * t + i))

def ascending : List Nat → Bool
  | a :: b :: l => decide (a < b) && ascending (b :: l)
  | _ => true

/-- R252: a table is valid when its count is 1 to 512 and its angles are strictly ascending. -/
def State.tableValid (t : Nat) (s : State) : Bool :=
  let n := s.get (F.TBL_COUNT_COUNT t)
  decide (1 ≤ n) && decide (n ≤ 512) && ascending (s.tableAngles t)

/-- The present teeth: angle and pattern index. -/
def State.teeth (w : Fin 8) (s : State) : List (Nat × Nat) :=
  let p := s.pattern w
  match p.table with
  | some t => (s.tableAngles t).zipIdx
  | none =>
    let m := if p.feature = 2 then p.missing else 0
    let reg := (List.range (p.n - m)).map fun k => (p.angle k, k)
    if p.feature = 1 then (p.extra, p.n) :: reg else reg

/-- The pattern index of the reference tooth. -/
def Pattern.refIndex (p : Pattern) : Nat := if p.table = none ∧ p.feature = 1 then p.n else 0

/-- The angle of pattern index `i`; an absent regular tooth has the angle of its place (R260). -/
def State.toothAngle (w : Fin 8) (i : Nat) (s : State) : Nat :=
  (((s.teeth w).find? fun x => x.2 == i).map Prod.fst).getD ((s.pattern w).angle i)

def posOf (rev : Word) (angle : Nat) : BitVec 52 := BitVec.ofNat 52 (rev.toNat * 2 ^ 20 + angle)

def posRev (p : BitVec 52) : Word := p.extractLsb' 20 32

def posAngle (p : BitVec 52) : Nat := p.toNat % 2 ^ 20

/-- A difference of positions, read as a signed number (07.1). -/
def posDiff (x y : BitVec 52) : Int := (x - y).toInt

/-- The tooth of least angle among those above `a`. -/
def leastAbove (a : Option Nat) (teeth : List (Nat × Nat)) : Option (Nat × Nat) :=
  teeth.foldl (fun best x =>
    if (match a with | none => true | some a => decide (a < x.1)) && (match best with | none => true | some b => decide (x.1 < b.1))
    then some x else best) none

/-- The next present tooth after position `p`: its position and index (R246, R254). -/
def nextTooth (teeth : List (Nat × Nat)) (p : BitVec 52) : Option (BitVec 52 × Nat) :=
  match leastAbove (some (posAngle p)) teeth with
  | some (a, i) => some (posOf (posRev p) a, i)
  | none => match leastAbove none teeth with
    | some (a, i) => some (posOf (posRev p + 1) a, i)
    | none => none

/-- The `k`-th present tooth after position `p`. -/
def passTeeth (teeth : List (Nat × Nat)) : Nat → BitVec 52 → BitVec 52
  | 0, p => p
  | k + 1, p => match nextTooth teeth p with
    | some (q, _) => passTeeth teeth k q
    | none => p

/-! ## Motion, prediction, position (R258) -/

def timeDiff (x y : SysTime) : Int := (x.toNat : Int) - y.toNat

/-- The speed between two matched teeth; none unless time has passed. -/
def speed (x y : Matched) : Option Frac :=
  let dt := timeDiff x.time y.time
  if 0 < dt then some ⟨posDiff x.pos y.pos, dt.toNat⟩ else none

/-- Speed in AU per unit, and acceleration. -/
def State.motion (w : Fin 8) (s : State) : Option (Frac × Frac) :=
  let x := s.whl[w]
  let k := min ((F.WHL_CFG3_SPAN w).of x.cfg3) (x.hist.length - 1)
  match x.hist[0]?, x.hist[k]? with
  | some a, some b => match speed a b with
    | none => none
    | some w0 =>
      if (F.WHL_CFG3_ORDER w).of x.cfg3 = 0 then some (w0, .ofInt 0)
      else match x.hist[2 * k]? with
        | none => some (w0, .ofInt 0)
        | some c => match speed b c with
          | none => some (w0, .ofInt 0)
          | some w1 =>
            let acc := (w0.sub w1).div (Frac.div (.ofInt (timeDiff a.time c.time)) (.ofInt 2))
            some (w0.add (acc.mul (Frac.div (.ofInt (timeDiff a.time b.time)) (.ofInt 2))), acc)
  | _, _ => none

/-- Positions of the queued synthetic teeth, each the next present tooth after the one before it; those before
any tooth of known position have none. -/
def queuedTeeth (angle : Nat → Nat) (teeth : List (Nat × Nat)) : Option (BitVec 52) → List SynTooth → List Matched
  | _, [] => []
  | last, t :: ts =>
    let here : Option (BitVec 52 × Nat) := match t.start with
      | some (i, rev) => some (posOf rev (angle i), i)
      | none => last.bind fun p => nextTooth teeth p
    match here with
    | none => queuedTeeth angle teeth none ts
    | some (p, i) => ⟨t.time, p, i⟩ :: queuedTeeth angle teeth (some p) ts

/-- Teeth held or queued, oldest first. -/
def State.known (w : Fin 8) (s : State) : List Matched :=
  let x := s.whl[w]
  x.hist.reverse ++
    (if s.synthetic w then queuedTeeth (fun i => s.toothAngle w i) (s.teeth w) ((x.hist.head?).map Matched.pos) x.fifo else [])

/-- The first two neighbours of a list that satisfy `p`. -/
def bracket (p : Matched → Matched → Bool) : List Matched → Option (Matched × Matched)
  | x :: y :: l => if p x y then some (x, y) else bracket p (y :: l)
  | _ => none

/-- WHL.STATUS.PREDICTING (R253). -/
def State.predicting (w : Fin 8) (s : State) : Bool :=
  s.live && s.whl[w].sync == .synced && decide (2 ≤ (s.known w).length)

/-- predict(x): the time at which the wheel reaches position `x`, if the wheel gives it. -/
def State.predict (w : Fin 8) (x : BitVec 52) (s : State) : Option SysTime :=
  let l := s.known w
  let viaMotion : Option SysTime := match s.whl[w].hist with
    | [] => none
    | n :: _ => match s.motion w with
      | none => none
      | some (wn, a) =>
        if wn.num = 0 then none
        else
          let tau := (Frac.ofInt (posDiff x n.pos)).div wn
          let c := (a.mul (tau.mul tau)).div (wn.mul (.ofInt 2))
          let lim := tau.abs.div (.ofInt 4)
          let c := Frac.max lim.neg (Frac.min lim c)
          some (BitVec.ofInt 64 (n.time.toNat + (tau.sub c).round))
  if !s.predicting w then none
  else if s.synthetic w then
    match bracket (fun p q => decide (0 ≤ posDiff x p.pos) && decide (0 ≤ posDiff q.pos x)) l with
    | some (p, q) => some (BitVec.ofInt 64 (p.time.toNat +
        (Frac.div (.ofInt (posDiff x p.pos * timeDiff q.time p.time)) (.ofInt (posDiff q.pos p.pos))).round))
    | none => match l.getLast? with
      | none => none
      | some z => if 0 < posDiff x z.pos then none else viaMotion
  else viaMotion

/-- Extrapolation from the newest matched tooth to time `u`, as an offset from its position. -/
def State.extrapolate (w : Fin 8) (u : SysTime) (s : State) : Option Frac :=
  match s.whl[w].hist with
  | [] => none
  | n :: _ => match s.motion w with
    | none => none
    | some (wn, a) =>
      let d := Frac.ofInt (timeDiff u n.time)
      some ((wn.mul d).add ((a.mul (d.mul d)).div (.ofInt 2)))

/-- position(u) as a base position and an offset from it. -/
def State.positionAt (w : Fin 8) (u : SysTime) (s : State) : Option (BitVec 52 × Frac) :=
  match bracket (fun p q => decide (p.time.toNat ≤ u.toNat) && decide (u.toNat ≤ q.time.toNat)) (s.known w) with
  | some (p, q) =>
    let dt := timeDiff q.time p.time
    some (p.pos, if 0 < dt then ⟨timeDiff u p.time * posDiff q.pos p.pos, dt.toNat⟩ else .ofInt 0)
  | none => match s.whl[w].hist with
    | [] => none
    | n :: _ => match s.extrapolate w u, nextTooth (s.teeth w) n.pos with
      | some d, some (p, _) => some (n.pos, Frac.min d (.ofInt (posDiff p n.pos - 1)))
      | some d, none => some (n.pos, d)
      | none, _ => none

/-- position(u), whole AU. -/
def State.position (w : Fin 8) (u : SysTime) (s : State) : Option (BitVec 52) :=
  (s.positionAt w u).map fun (p, d) => p + BitVec.ofInt 52 d.floor

/-- The revolution time at the present speed, 2^20 / wn. -/
def State.revTime (w : Fin 8) (s : State) : Nat :=
  match s.motion w with
  | none => 0
  | some (wn, _) => if wn.num = 0 then 0 else ((Frac.ofInt (2 ^ 20)).div wn).round.toNat

end Sys2Proof.Machine
end

