-- ==== Sys2Proof/Machine/Channel.lean ====
section
/-! DEFINITION. Event lists of the channel array (06.3–06.6): order, list operations, arming, execution, HV
entries. -/

namespace Sys2Proof.Machine

def State.setC (c : Fin 64) (x : Chan) (s : State) : State := { s with chan := s.chan.set c x }

def State.modC (c : Fin 64) (f : Chan → Chan) (s : State) : State := s.setC c (f s.chan[c])

def State.chEvent (c : Fin 64) (b : Nat) (s : State) : State := s.event (F.CH_EVENT_EV c) (F.CH_IEN_EN c) b c

def chanFault (kind : BitVec 5) (cls : BitVec 2) (reason : BitVec 8) (n : Nat) (injected : Bool) (s : State) : State :=
  s.raise { src := 0x08, kind := kind, cls := cls, reason := reason, detail := detail3 n, injected := injected }

/-! ## Modes (R203, R207) -/

def State.mode (c : Fin 64) (s : State) : Nat := s.get (F.CH_CTL_MODE c)
def State.chEn (c : Fin 64) (s : State) : Bool := s.bit (F.CH_CTL_EN c)
def State.wheelDomain (c : Fin 64) (s : State) : Bool := s.bit (F.CH_CTL_DOMAIN c)
def State.chWheel (c : Fin 64) (s : State) : Fin 8 := Fin.ofNat 8 (s.get (F.CH_CTL_WHEEL c))
def isHv (c : Fin 64) : Bool := decide (48 ≤ c.val) && decide (c.val < 60)

def mCOMPARE : Nat := 0x01
def mPULSE : Nat := 0x02
def mPWM : Nat := 0x03
def mPATTERN : Nat := 0x04
def mCAPTURE : Nat := 0x10
def mPERIOD : Nat := 0x11
def mDUTY : Nat := 0x12
def mCOUNT : Nat := 0x13
def mTOOTH : Nat := 0x14
def mEDGELOG : Nat := 0x15

def inputMode (m : Nat) : Bool := decide (0x10 ≤ m) && decide (m ≤ 0x15)
def waveMode (m : Nat) : Bool := m == mPULSE || m == mPWM

/-- Table 06-1. -/
def modeValid (c : Fin 64) (m : Nat) : Bool :=
  m == 0 ||
  (if c.val < 48 then decide (m ≤ 4) || inputMode m
   else if c.val < 60 then m == mCOMPARE
   else inputMode m && m != mTOOTH)

/-- Lists are executed: in K8, and through a warm restart (R207, R208). -/
def State.listsRun (s : State) : Bool := s.live && (s.node.phase == .k8 || s.node.kind == .warm)

def State.chRuns (c : Fin 64) (s : State) : Bool := s.listsRun && s.chEn c && s.mode c != 0

/-! ## Entries (R210, R211) -/

def Entry.op (e : Entry) : Nat := e.action.toNat % 16
def Entry.arg (e : Entry) : Nat := e.action.toNat / 256
def Entry.level (e : Entry) : Bool := e.op == 2
def Entry.mark (e : Entry) : Bool := e.op == 0
def newEntry (key : BitVec 64) (action tag : Word) : Entry :=
  { key := key, action := action, tag := tag, fire := none, fixed := false, fall := false, comp := none, gate := none, fwd := .no,
    begun := false, done := false, behind := false, bad := false }

/-- The operations a mode accepts, and the reserved bits of the action word (Table 06-7). -/
def actionOk (c : Fin 64) (m : Nat) (a : Word) : Bool :=
  let op := a.toNat % 16
  let opOk :=
    if op = 0 then true
    else if op ≤ 2 then m == mCOMPARE
    else if op ≤ 4 then m == mCOMPARE && decide (c.val < 48)
    else if op ≤ 7 then waveMode m
    else op == 8 && inputMode m
  opOk && !a.getLsbD 7 && (!a.getLsbD 4 || (isHv c && (op == 1 || op == 2)))

/-- Order of keys (R212): unsigned in the time domain; by revolution from the wheel's present one, then angle. -/
def State.keyLess (c : Fin 64) (a b : BitVec 64) (s : State) : Bool :=
  if !s.wheelDomain c then decide (a.toNat < b.toNat)
  else
    let now := s.reg (0x4003002C + 0x100 * (s.chWheel c))
    let ra := (a.extractLsb' 32 32 - now).toInt
    let rb := (b.extractLsb' 32 32 - now).toInt
    decide (ra < rb) || (ra == rb && decide ((a.extractLsb' 0 20).toNat < (b.extractLsb' 0 20).toNat))

/-- A wheel key has the right form and lies within 2^30 revolutions (R210, R212). -/
def State.keyInRange (c : Fin 64) (k : BitVec 64) (s : State) : Bool :=
  !s.wheelDomain c ||
  (k.extractLsb' 20 12 == 0 &&
   decide ((k.extractLsb' 32 32 - s.reg (0x4003002C + 0x100 * (s.chWheel c))).toInt.natAbs ≤ 2 ^ 30))

/-- A new entry goes after those that hold its key (R212). -/
def placeEntry (less : BitVec 64 → BitVec 64 → Bool) (e : Entry) : List Entry → List Entry
  | [] => [e]
  | x :: l => if less e.key x.key then e :: x :: l else x :: placeEntry less e l

/-- The position a wheel-domain key names. -/
def keyPos (k : BitVec 64) : BitVec 52 := posOf (k.extractLsb' 32 32) (k.extractLsb' 0 20).toNat

/-- An entry's fire time; none while it waits (R218, R221). -/
def State.fireOf (c : Fin 64) (e : Entry) (s : State) : Option SysTime :=
  if s.wheelDomain c then e.fire else some e.key

/-! ## Gate times of HV entries (R226) -/

/-- Compensation of `v` units of 10 µs. -/
def compUnits (v : Nat) : Nat := (v * 10 * 2 ^ 29 + 500000) / 1000000

def State.compOf (c : Fin 64) (e : Entry) (s : State) : Nat :=
  match e.comp with
  | some k => k
  | none =>
    if !e.action.getLsbD 4 then 0
    else
      let n := c.val - 48
      let learned := if e.level then s.get (F.BAR_OPTIME_OPERATE n) else s.get (F.BAR_OPTIME_RELEASE n)
      let nominal := if e.level then s.chan[c].nomOperate.toNat else s.chan[c].nomRelease.toNat
      compUnits (if learned ≠ 0 then learned else nominal)

/-- Gate times in list order, never decreasing. A MARK, which is not switched, gives none but raises those after it to its
fire time; an entry that waits has none; one that has begun keeps its own (R227). -/
def State.gatesFrom (c : Fin 64) (s : State) : Nat → List Entry → List (Entry × Option Nat)
  | _, [] => []
  | lo, e :: l =>
    if e.mark then (e, none) :: s.gatesFrom c (max lo (((s.fireOf c e).map BitVec.toNat).getD 0)) l
    else match e.gate, s.fireOf c e with
      | some g, _ =>
        let g := if e.begun then g.toNat else max lo g.toNat
        (e, some g) :: s.gatesFrom c (max lo g) l
      | none, none => (e, none) :: s.gatesFrom c lo l
      | none, some f =>
        let g := max lo (f.toNat - s.compOf c e)
        (e, some g) :: s.gatesFrom c g l

def State.gates (c : Fin 64) (s : State) : List (Entry × Option Nat) := s.gatesFrom c 0 s.chan[c].list

/-- 100 µs, after which an HV entry is fixed (R227). -/
def beginUnits : Nat := usUnits 100

/-- An entry has begun: at its fire time, or 100 µs before the gate time on an HV channel (R221, R227). -/
def State.hasBegun (c : Fin 64) (e : Entry) (gate : Option Nat) (s : State) : Bool :=
  e.bad || e.begun || e.done ||
  (s.chRuns c &&
    (if isHv c && !e.mark then match gate with
      | some g => decide (g ≤ s.now.toNat + beginUnits)
      | none => false
    else match s.fireOf c e with
      | some f => decide (f.toNat ≤ s.now.toNat)
      | none => false))

/-! ## Arming the head (R221, R222, R262) -/

/-- Take a predicted fire time for the head. -/
def Entry.arm (e : Entry) (t now : SysTime) : Entry :=
  { e with fire := some t, fixed := e.action.getLsbD 5, behind := e.behind || decide (t.toNat < now.toNat) }

/-- A refreshed gate of a forwarded entry that moves by more than 1 µs is forwarded again (R227). -/
def reforward (c : Fin 64) (s : State) : State :=
  match s.chan[c].list with
  | e :: l => match e.gate, e.fire with
    | some g, some f =>
      let g' := f.toNat - s.compOf c e
      if isHv c ∧ e.fwd = .sent ∧ e.begun = false ∧ 537 < ((g' : Int) - g.toNat).natAbs then
        let e' := { e with gate := some (BitVec.ofNat 64 g') }
        sendSchedule c e.level (BitVec.ofNat 64 g') e.tag (s.modC c fun x => { x with list := e' :: l })
      else s
    | _, _ => s
  | [] => s

/-- The head has begun. -/
def State.headBegun (c : Fin 64) (s : State) : Bool :=
  match s.gates c with
  | x :: _ => s.hasBegun c x.1 x.2
  | [] => false

/-- Arm, refresh or fix the head of a wheel-domain channel; one that has begun stands (R221). -/
def armHead (c : Fin 64) (s : State) : State :=
  if !s.wheelDomain c || !s.live then s
  else match s.chan[c].list with
    | [] => s
    | e :: l =>
      let w := s.chWheel c
      let set (e : Entry) : State := s.modC c fun x => { x with list := e :: l }
      match e.fire with
      | none =>
        match s.position w s.now, s.predict w (keyPos e.key) with
        | some p, some t =>
          if posDiff (keyPos e.key) p ≤ ((F.WHL_CFG5_ARM w).of s.whl[w].cfg5 : Int) then reforward c (set (e.arm t s.now)) else s
        | _, _ => s
      | some _ =>
        if e.fixed || s.headBegun c || e.action.getLsbD 5 then s
        else match s.predict w (keyPos e.key) with
          | some t => reforward c (set (e.arm t s.now))
          | none => set { e with fixed := true }

/-- The channels of a wheel. -/
def State.channelsOf (w : Fin 8) (s : State) : List (Fin 64) :=
  (List.finRange 64).filter fun c => s.wheelDomain c && s.chWheel c == w

def armHeads (w : Fin 8) (s : State) : State := s.each (s.channelsOf w) armHead

/-- Predictions stop: an armed head keeps its fire time and becomes fixed (R222). -/
def fixHeads (w : Fin 8) (s : State) : State :=
  s.each (s.channelsOf w) fun c s => match s.chan[c].list with
    | e :: l => if e.fire.isSome then s.modC c fun x => { x with list := { e with fixed := true } :: l } else s
    | [] => s

/-! ## Enabling (R206, R207, R223), and a new configuration that waits (R129) -/

/-- The fail level of an HV output: the FAIL straps may override the image's (Table 01-9). -/
def State.hvFail (n : Nat) (s : State) : Bool :=
  match s.get F.IDENT_STRAPS_FAIL1, s.get F.IDENT_STRAPS_FAIL0 with
  | 1, 1 => s.bit (F.CH_CTL_FAIL_LEVEL (48 + n))
  | 1, _ => false
  | _, 1 => true
  | _, _ => decide (n < 6)

/-- The shortest high or low time of a channel's class (Table 06-2). -/
def minTime (c : Fin 64) : Nat := if c.val < 32 then 16 else 26844

/-- The HV path is in use: HV_ENABLED and the link up (R228, R229). -/
def State.hvPath (s : State) : Bool := s.bit F.BAR_STATUS_HV_ENABLED && s.linkUp

/-- The levels a SET_NOW of the handshake, or of K8 entry, carries: LEVEL, or the fail level of a channel held
at its fail state (R81, R207, R229). -/
def State.hvLevels (s : State) : Nat :=
  (List.finRange 12).foldl (fun w (n : Fin 12) =>
    let c : Fin 64 := Fin.ofNat 64 (48 + n.val)
    if (if s.chRuns c then s.bit (F.CH_STATUS_LEVEL c) else s.hvFail n) then w + 2 ^ n.val else w) 0

/-- An HV channel enabled or disabled: its output goes to LEVEL, or to its fail level (R207, R231). -/
def setHvOutput (c : Fin 64) (s : State) : State :=
  if isHv c ∧ s.hvPath ∧ s.inK8 then
    let b := 2 ^ (c.val - 48)
    sendSetNow b (s.hvLevels &&& b) .setNow s
  else s

/-- The checks of Table 06-11 on a channel's configuration. -/
def State.chanCfgOk (c : Fin 64) (m : Nat) (s : State) : Bool :=
  let edge := s.get (F.CH_CFG0_EDGE c)
  let c1 := s.get (F.CH_CFG1_V c)
  let c2 := s.get (F.CH_CFG2_V c)
  if inputMode m then
    edge != 3 && (m != mPERIOD || decide (edge ≤ 1)) &&
    (m != mEDGELOG ||
      (decide (3 ≤ c2 % 16) && decide (c2 % 16 ≤ 12) && c1 % 8 == 0 && decide (c1 + 8 * 2 ^ (c2 % 16) ≤ spmTop)))
  else if waveMode m then
    let t := minTime c
    let ok (n : Nat) : Bool := n == 0 || decide (t ≤ n)
    ok c1 && ok c2 && ok (c1 - c2)
  else true

/-- The records an edge log holds. -/
def State.logHeld (c : Fin 64) (s : State) : Nat :=
  let n := 2 ^ (s.get (F.CH_CFG2_V c) % 16)
  (s.get (F.CH_ELOG_WR_WR c) + n - s.get (F.CH_ELOG_RD_RD c) % n) % n

/-- LOG is set whenever the number of records held changes to THRESH or more (R244). -/
def logChanged (c : Fin 64) (before : Nat) (s : State) : State :=
  let h := s.logHeld c
  s.when (h != before && decide (s.get (F.CH_CFG3_V c) ≤ h)) (State.chEvent c 7)

/-- The edge log starts empty (R244, R208). -/
def restartLog (c : Fin 64) (s : State) : State :=
  let t := (s.put (F.CH_ELOG_WR_WR c) 0).put (F.CH_ELOG_RD_RD c) 0
  if s.mode c = mEDGELOG then logChanged c (s.logHeld c) t else t

/-- EN = 1 takes effect. The WHEEL check concerns wheel-domain channels, and every 3-bit number names a wheel
(DEDUCED, log entry 20). -/
def State.chanEnableOk (c : Fin 64) (s : State) : Bool :=
  let m := s.mode c
  modeValid c m && !(inputMode m && s.wheelDomain c) && s.chanCfgOk c m

/-- Entries whose fire time has passed count as late, as after a forward step (R220, R223). -/
def markBehind (c : Fin 64) (s : State) : State :=
  let late (e : Entry) : Bool := match s.fireOf c e with
    | some f => decide (f.toNat < s.now.toNat)
    | none => false
  s.modC c fun x => { x with list := x.list.map fun e => { e with behind := e.behind || late e } }

/-- EN goes from 0 to 1 (R242, R244). -/
def enableChan (c : Fin 64) (s : State) : State :=
  let s := s.put (F.CH_CTL_EN c) 1
  let s := restartLog c ((s.put (F.CH_RES0_RES0 c) 0).put (F.CH_RES1_RES1 c) 0)
  let s := s.modC c fun x => { x with edges := 0, counter := 0, prevEdge := none, riseAt := none, fallAt := none }
  let s := s.modC c fun x => if s.mode c = mPATTERN then x else { x with inverted := s.bit (F.CH_CFG0_INVERT c) }
  armHead c (setHvOutput c (markBehind c s))

/-- A forwarded entry that is taken out of the list, or of execution, is cancelled in the MFE (R214). -/
def cancelForwarded (c : Fin 64) (e : Entry) (s : State) : State :=
  s.when (isHv c && e.fwd == .sent && !e.done) (sendCancel c e.tag)

/-- A kept entry counts as never forwarded; one that has begun keeps its gate (R207, R229). -/
def Entry.unforwarded (e : Entry) : Entry :=
  if e.begun then { e with fwd := .no } else { e with fwd := .no, gate := none, comp := none }

/-- EN goes from 1 to 0 (R207): the list is kept and not executed, so the MFE's copies of its entries are cancelled, but for
one whose gate has passed, which waits for its report; a waveform ends (log entry 108). -/
def disableChan (c : Fin 64) (s : State) : State :=
  let s := s.each s.chan[c].list (cancelForwarded c)
  let s := s.modC c fun x => { x with
    wave := none, list := x.list.map fun e => if isHv c && !e.done then e.unforwarded else e }
  setHvOutput c (s.put (F.CH_CTL_EN c) 0)

/-- EN = 1 is asked of a channel. -/
def tryEnable (c : Fin 64) (s : State) : Bool × State :=
  if s.chEn c then (true, s)
  else if s.chanEnableOk c then (true, enableChan c s)
  else (false, s.put (F.CH_STATUS_CFG_BAD c) 1)

/-- The defined bits of CFG`i` in mode `m` (Table 06-11). -/
def cfgMask (c : Fin 64) (m i : Nat) : Word :=
  match i with
  | 0 => if isHv c then 0 else 0xFFFF000B
  | 1 => if isHv c then 0xFFFF else if waveMode m ∨ m = mCOUNT ∨ m = mEDGELOG then 0xFFFFFFFF else 0
  | 2 => if waveMode m then 0xFFFFFFFF else if m = mCOUNT then 3 else if m = mEDGELOG then 0xF else 0
  | 3 => if m = mEDGELOG then 0xFFFFFFFF else 0
  | _ => 0

/-- A channel-table entry (Table 04-9) loaded with EN 0 (R208). -/
def loadChannel (c : Fin 64) (b : List Byte) (s : State) : State :=
  let flags := (byteAt b 1).toNat
  let s := (((s.put (F.CH_CTL_EN c) 0).put (F.CH_CTL_MODE c) (byteAt b 0).toNat).put (F.CH_CTL_DOMAIN c) flags).put
    (F.CH_CTL_WHEEL c) (flags / 2)
  let s := (s.put (F.CH_CTL_FAIL_LEVEL c) (flags / 16)).put (F.CH_CTL_FAIL_HIZ c) (if c.val < 48 then flags / 32 else 0)
  let cfg (i : Nat) (s : State) : State :=
    s.putReg (0x40020010 + 0x100 * c + 4 * i) (BitVec.ofNat 32 (leAt b (8 + 4 * i) 4) &&& cfgMask c (s.mode c) i)
  let s := s.each (List.range 6) cfg
  s.modC c fun x => { x with link := byteAt b 2, nomOperate := BitVec.ofNat 16 (leAt b 4 2),
                             nomRelease := BitVec.ofNat 16 (leAt b 6 2), wave := none, update := false, newConfig := none }

/-- The list is empty: a new configuration that waited for it is taken (R129), and the channel enabled in K8 (R208). -/
def takeNewConfig (c : Fin 64) (s : State) : State :=
  match s.chan[c].newConfig with
  | none => s
  | some b =>
    let s := loadChannel c b s
    if s.mode c = 0 ∨ s.inK8 = false then s else (tryEnable c s).2

/-! ## Removing entries -/

/-- The list becomes `l`: EMPTY when that leaves nothing, and a new or replaced head is armed (R221). -/
def setList (c : Fin 64) (l : List Entry) (s : State) : State :=
  let was := s.chan[c].list
  let s := s.modC c fun x => { x with list := l }
  let s := s.when (!was.isEmpty && l.isEmpty) (State.chEvent c 2)
  if was.head? = l.head? then s else if l.isEmpty then takeNewConfig c s else armHead c s

/-! ## List operations (R213–R215, Table 06-8) -/

def lOK : Nat := 0x00
def lOK_REPLACED : Nat := 0x01
def lFULL : Nat := 0x02
def lRANGE : Nat := 0x03
def lBAD_ACTION : Nat := 0x04
def lBAD_TAG : Nat := 0x05
def lDISABLED : Nat := 0x06
def lBEGUN : Nat := 0x07
def lABSENT : Nat := 0x08

/-- The entry that carries a tag, with its gate. -/
def State.tagged (c : Fin 64) (tag : Word) (s : State) : Option (Entry × Option Nat) :=
  if tag = 0 then none else (s.gates c).find? fun x => x.1.tag == tag

def State.listClosed (c : Fin 64) (s : State) : Bool := !s.chEn c || s.mode c == 0 || !s.inK8

/-- The status INSERT returns. -/
def State.insertStatus (c : Fin 64) (key : BitVec 64) (action tag : Word) (s : State) : Nat :=
  let old := s.tagged c tag
  if s.listClosed c then lDISABLED
  else if tag.getLsbD 31 then lBAD_TAG
  else if !actionOk c (s.mode c) action then lBAD_ACTION
  else if !s.keyInRange c key then lRANGE
  else match old with
    | some (e, g) => if s.hasBegun c e g then lBEGUN else lOK_REPLACED
    | none => if 32 ≤ s.chan[c].list.length then lFULL else lOK

/-- The tag an entry takes: the array's own on HV channels (R213). -/
def assignTag (c : Fin 64) (tag : Word) (s : State) : Word × State :=
  if tag = 0 ∧ isHv c then
    (BitVec.ofNat 32 (0x80000000 + c.val * 2 ^ 24) ||| s.chan[c].tags.zeroExtend 32,
     s.modC c fun x => { x with tags := x.tags + 1 })
  else (tag, s)

/-- The entries as a new head leaves them: only the head is armed, so one displaced from it waits again, unless it has begun
(R221). -/
def State.disarmed (c : Fin 64) (s : State) : List Entry :=
  (s.gates c).map fun x => if s.hasBegun c x.1 x.2 then x.1 else { x.1 with fire := none, fixed := false }

/-- The list with `e` sorted in, without the entry tagged `out` that it replaces. -/
def State.withEntry (c : Fin 64) (e : Entry) (out : Option Word) (s : State) : List Entry :=
  let kept := s.chan[c].list.filter fun x => some x.tag != out
  let sorted (l : List Entry) : List Entry := placeEntry (fun a b => s.keyLess c a b) e l
  if (sorted kept).head? = kept.head? then sorted kept
  else sorted ((s.disarmed c).filter fun x => some x.tag != out)

/-- INSERT (R214): the status and the state after it. -/
def listInsert (c : Fin 64) (key : BitVec 64) (action tag : Word) (s : State) : Nat × State :=
  let st := s.insertStatus c key action tag
  if st = lFULL then (st, (s.count (F.CH_CNT_A_FULL c) 1).chEvent c 3)
  else if st ≠ lOK ∧ st ≠ lOK_REPLACED then (st, s)
  else
    let s' := match s.tagged c tag with
      | some (e, _) => cancelForwarded c e s
      | none => s
    let (t, s') := assignTag c tag s'
    (st, setList c (s.withEntry c (newEntry key action t) (if st = lOK then none else some tag)) s')

/-- The status CANCEL returns. -/
def State.cancelStatus (c : Fin 64) (tag : Word) (s : State) : Nat :=
  if s.listClosed c then lDISABLED
  else match s.tagged c tag with
    | some (e, g) => if s.hasBegun c e g then lBEGUN else lOK
    | none => lABSENT

/-- CANCEL (R214). -/
def listCancel (c : Fin 64) (tag : Word) (s : State) : Nat × State :=
  let st := s.cancelStatus c tag
  match s.tagged c tag with
  | some (e, _) =>
    if st = lOK then (st, setList c (s.chan[c].list.filter fun x => x.tag != tag) (cancelForwarded c e s)) else (st, s)
  | none => (st, s)

/-- CH.CTL.FLUSH: every entry that has not begun goes, and a bad head with them (R214, R245). -/
def flushList (c : Fin 64) (s : State) : State :=
  let stays (x : Entry × Option Nat) : Bool := !x.1.bad && s.hasBegun c x.1 x.2
  let gone := (s.gates c).filter fun x => !stays x
  setList c (((s.gates c).filter stays).map Prod.fst) (s.each gone fun x => cancelForwarded c x.1)

/-! ## Fail state and terminals (R207, R211) -/

/-- CH.STATUS.AT_FAIL: the terminal is held at its fail state. -/
def State.atFail (c : Fin 64) (s : State) : Bool :=
  decide (c.val < 60) &&
  (if isHv c then !s.chRuns c || !s.bit F.BAR_STATUS_HV_ENABLED
   else if s.node.phase == .caldera || s.node.phase == .hold then true
   else if s.mode c = mPATTERN then
     !s.listsRun || !s.chan[c].joined || !((s.grp[c.val / 16]?).map Group.started).getD false
   else if inputMode (s.mode c) then false
   else !s.chRuns c)

/-- A FIELD output that is off: V24 is absent, or its terminal is over temperature (R29). -/
def State.fieldOff (c : Fin 64) (s : State) : Bool :=
  decide (32 ≤ c.val) && (!s.node.v24 || s.node.hot.getLsbD (c.val - 32))

/-- What drives the terminal of a channel 0–47: none is high impedance, or output off (R203, R211, R232, R237); so is
every terminal until K5 has applied the fail states (Table 01-7). -/
def State.drive (c : Fin 64) (s : State) : Option Bool :=
  let x := s.chan[c]
  if !s.node.lvOn || s.fieldOff c then none
  else if s.atFail c then (if s.bit (F.CH_CTL_FAIL_HIZ c) then none else some (s.bit (F.CH_CTL_FAIL_LEVEL c)))
  else if inputMode (s.mode c) then none
  else if s.mode c = mPATTERN then
    (s.grp[c.val / 16]?).map fun g => g.shown.getLsbD (c.val % 16) != x.inverted
  else match if waveMode (s.mode c) then x.wave else none with
    | some v => some (decide (v.period ≤ v.high ∨ (s.cycles + v.period < v.due + v.high)) != x.inverted)
    | none => if x.hiz then none else some (s.bit (F.CH_STATUS_LEVEL c) != x.inverted)

end Sys2Proof.Machine
end

