-- ==== Sys2Proof/Machine/Crc.lean ====
section
/-! DEFINITION. CRC-32C of the plug and of cells (R154), and the CRC-8 of frame numbers (R388). -/

namespace Sys2Proof.Machine

def crc32cStep (c : Word) (b : Byte) : Word :=
  (List.range 8).foldl (fun c _ => if c.getLsbD 0 then (c >>> 1) ^^^ 0x82F63B78 else c >>> 1) (c ^^^ b.zeroExtend 32)

/-- CRC-32C: polynomial 0x1EDC6F41 reflected, initial value and final XOR all ones. -/
def crc32c (l : List Byte) : Word := ~~~ (l.foldl crc32cStep 0xFFFFFFFF)

def crc8Step (c b : Byte) : Byte :=
  (List.range 8).foldl (fun c _ => if c.msb then (c <<< 1) ^^^ 0x07 else c <<< 1) (c ^^^ b)

/-- CRC-8: polynomial 0x07, initial value 0. -/
def crc8 (l : List Byte) : Byte := l.foldl crc8Step 0

/-- The big-endian CRC-32C of `l`, as cells and ring fields carry it. -/
def crcBe (l : List Byte) : List Byte := beBytes 4 (crc32c l).toNat

/-- A block of `n` bytes followed by its big-endian CRC is right. -/
def crcBeOk (n : Nat) (l : List Byte) : Bool := (crc32c (slice l 0 n)).toNat == beAt l n 4

/-- A block of `n` bytes followed by its little-endian CRC is right. -/
def crcLeOk (n : Nat) (l : List Byte) : Bool := (crc32c (slice l 0 n)).toNat == leAt l n 4

end Sys2Proof.Machine
end

