-- ==== Sys2Proof/Machine/Perf.lean ====
section
/-! DEFINITION. Performance counts (13.8): how a second is classified, the bins, their close, PERF.SEL. Also the
per-second counts and runs of a port that DEG rests on (R403). -/

namespace Sys2Proof.Machine

def State.modRing (f : Ring → Ring) (s : State) : State := { s with ring := f s.ring }

def State.modPort (p : Fin 4) (f : Port → Port) (s : State) : State :=
  s.modRing fun r => { r with ports := r.ports.set p (f r.ports[p]) }

def State.modPerf (p : Fin 4) (f : PortPerf → PortPerf) (s : State) : State :=
  s.modRing fun r => { r with perf := r.perf.set p (f r.perf[p]) }

def State.port (p : Fin 4) (s : State) : Port := s.ring.ports[p]

/-- LINE.STATUS.STATE. -/
def State.lineState (p : Fin 4) (s : State) : Nat := s.get (F.LINE_STATUS_STATE p)

def lDARK : Nat := 0
def lMONITOR : Nat := 1
def lT1 : Nat := 2
def lT2 : Nat := 3
def lT3 : Nat := 4
def lT4 : Nat := 5
def lUP : Nat := 6

/-- SF: any of LOS, LOL and LOF (R402). -/
def State.sf (p : Fin 4) (s : State) : Bool :=
  s.bit (F.LINE_STATUS_LOS p) || s.bit (F.LINE_STATUS_LOL p) || s.bit (F.LINE_STATUS_LOF p)

/-- Free of every defect of Table 12-6. -/
def State.clean (p : Fin 4) (s : State) : Bool :=
  !s.sf p && !s.bit (F.LINE_STATUS_OOF p) && !s.bit (F.LINE_STATUS_DEG p) && !s.bit (F.LINE_STATUS_RDI_SF p) &&
  !s.bit (F.LINE_STATUS_RDI_SD p)

/-- The port runs: EAST and WEST always, a drop port with LINE.CTL.EN = 1. -/
def State.portEnabled (p : Fin 4) (s : State) : Bool := decide (p.val < 2) || s.bit (F.LINE_CTL_EN p)

/-- The port is in T4 or UP. -/
def State.carrying (p : Fin 4) (s : State) : Bool := decide (s.lineState p = lT4) || decide (s.lineState p = lUP)

/-- The UTC second count of system second `sec` (R198). -/
def State.utcCount (sec : Nat) (s : State) : Int := (sec : Int) - (BitVec.ofNat 16 (s.get F.TIME_UTC_OFFSET)).toInt

/-! ## Classification (R445, R446) -/

/-- Add to a bin what second `x` counts. -/
def Bin.add (b : Bin) (x : Second) (unavail : Bool) : Bin :=
  let n (c : Bool) : Nat := (c && !x.ns && !unavail).toNat
  { b with counted := b.counted || !x.ns, ns := b.ns + x.ns.toNat, uas := b.uas + (unavail && !x.ns).toNat,
           es := b.es + n x.es, ses := b.ses + n x.ses, ds := b.ds + n x.ds, uncorr := b.uncorr + x.uncorr,
           corr := b.corr + x.corr, slips := b.slips + x.slips, oof := b.oof + x.oof, trains := b.trains + x.trains }

/-- Ten seconds in a row from `l`, NS seconds aside, all with `p`. -/
def tenOf (p : Second → Bool) (l : List Second) : Bool :=
  let l := (l.filter fun x => !x.ns).take 10
  l.length == 10 && l.all p

/-- Unavailability at second `x`, with the seconds after it in sight. -/
def unavailAt (before : Bool) (x : Second) (rest : List Second) : Bool :=
  if x.ns then before
  else if before then !(!x.ses && tenOf (fun y => !y.ses) (x :: rest))
  else x.ses && tenOf (fun y => y.ses) (x :: rest)

/-- Classify the oldest waiting second. -/
def PortPerf.classify (q : PortPerf) : PortPerf :=
  match q.waiting with
  | [] => q
  | x :: rest =>
    let u := unavailAt q.unavail x rest
    { q with waiting := rest, unavail := u, now15 := q.now15.add x u, now24 := q.now24.add x u }

/-- Classify the waiting seconds until `n` remain. -/
def PortPerf.classifyTo (n : Nat) : Nat → PortPerf → PortPerf
  | 0, q => q
  | k + 1, q => if n < q.waiting.length then PortPerf.classifyTo n k q.classify else q

/-- The second in progress on port `p` ends; it was UTC second `c`. One in which SF held is neither degraded nor clean (R416). -/
def portSecond (c : Int) (p : Fin 4) (s : State) : State :=
  let q := s.ring.perf[p]
  let half := s.get (F.LINE_STATUS_RATE p) == 1
  let ns := !q.enabled || (decide (p.val < 2) && !q.inserted)
  let thr := max 1 (s.get F.PERF_CFG_SES_THR)
  let corr := if half then 2 * q.corr else q.corr
  let steady := q.up && !q.sf
  let degraded := steady && (decide (0 < q.uncorr) || decide (s.get (F.LINE_DEG_THR_THR p) < corr))
  let x : Second :=
    { c := c, ns := ns, ses := !ns && (q.sf || decide (thr ≤ q.uncorr)), es := !ns && (q.sf || decide (0 < q.uncorr)),
      ds := degraded, uncorr := q.uncorr, corr := q.corr, slips := q.slips, oof := q.oof, trains := q.trains }
  let sat (n : Nat) : Nat := min n (2 ^ 32 - 1)
  let s := (s.put (F.LINE_FEC_CORR_CORR p) (sat q.corr)).put (F.LINE_FEC_UNCORR_UNCORR p) (sat q.uncorr)
  let s := s.modPort p fun o =>
    { o with degRun := if degraded then o.degRun + 1 else 0, cleanRun := if steady && !degraded then o.cleanRun + 1 else 0,
             secCorr := q.corr, secUncorr := q.uncorr }
  let next := PortPerf.classifyTo 10 20 { q with waiting := q.waiting ++ [x] }
  let sf := s.sf p
  let en := s.portEnabled p
  let up := s.carrying p
  s.modPerf p fun _ =>
    { next with uncorr := 0, corr := 0, slips := 0, oof := 0, trains := 0, sf := sf, enabled := en,
                inserted := s.sup.inserted, up := up }

/-- The second in progress ends on every port; RXD_CRC, CELL_CRC and RPT_LOST may be raised again. -/
def secondEnds (c : Int) (valid : Bool) (s : State) : State :=
  let s := s.each (List.finRange 4) (portSecond c)
  let s := s.modRing fun r => { r with dip := r.dip || !valid }
  { s with flue := { s.flue with rxdRaised := Vector.replicate 2 false, cellRaised := false },
           rep := { s.rep with lostRaised := false, seen := if (c + 1) % 900 = 0 then [] else s.rep.seen } }

/-! ## Closing (R446, R447) -/

def field (n v : Nat) : List Byte := beBytes n (min v (256 ^ n - 1))

/-- The two parts of a BIN record (Table 13-7). -/
def binReports (p : Fin 4) (kind : Nat) (b : Bin) : List Report :=
  let head : List Byte := [BitVec.ofNat 8 (p.val + 4 * kind + 8 * b.suspect.toNat + 16 * b.partial_.toNat), 0] ++
    beBytes 4 (BitVec.ofInt 32 b.start).toNat
  [{ rkind := 0x03, part := 0x01,
     body := head ++ field 3 b.es ++ field 3 b.ses ++ field 3 b.uas ++ field 3 b.ds ++ field 3 b.ns ++ [0] },
   { rkind := 0x03, part := 0x11,
     body := head ++ field 4 b.uncorr ++ field 4 (b.corr / 1024) ++ field 2 b.slips ++ field 2 b.oof ++
       field 2 b.trains ++ [0, 0] }]

/-- A new bin from `start`. -/
def Bin.fresh (start stop : Int) (suspect partial_ : Bool) : Bin :=
  { start := start, stop := stop, suspect := suspect, partial_ := partial_, counted := false, es := 0, ses := 0, uas := 0,
    ds := 0, ns := 0, uncorr := 0, corr := 0, slips := 0, oof := 0, trains := 0 }

/-- Close port `p`'s 15-minute bin; the next begins at `start`. -/
def close15 (suspect partial_ : Bool) (start : Int) (p : Fin 4) (s : State) : State :=
  let q := s.ring.perf[p]
  let b := { q.now15 with suspect := q.now15.suspect || s.ring.dip || suspect }
  let s := s.modPerf p fun q => { q with hist15 := (b :: q.hist15).take 16, now15 := Bin.fresh start (start + 900) false partial_ }
  if b.counted then s.each (binReports p 0 b) State.queueReport else s

def close24 (suspect partial_ : Bool) (start : Int) (p : Fin 4) (s : State) : State :=
  let q := s.ring.perf[p]
  let b := { q.now24 with suspect := q.now24.suspect || s.ring.dip || suspect }
  let s := s.modPerf p fun q => { q with prev24 := some b, now24 := Bin.fresh start (start + 86400) false partial_ }
  if b.counted then s.each (binReports p 1 b) State.queueReport else s

/-- The end of an interval of `n` seconds that holds `c`. -/
def intervalStart (n c : Int) : Int := c.fdiv n * n

/-- The day's bin keeps what the 15-minute bin that closes has noted of VALID. -/
def dayDip (s : State) : State :=
  s.modRing fun r => { r with perf := r.perf.map fun x => { x with now24 := { x.now24 with suspect := x.now24.suspect || r.dip } } }

/-- BIN_CLOSE (R446): the bins whose interval ended 10 s ago close. -/
def closeDue (c : Int) (valid : Bool) (s : State) : State :=
  let q := s.ring.perf[(0 : Fin 4)]
  if q.now15.stop + 10 ≤ c then
    let s := s.each (List.finRange 4) (close15 false false q.now15.stop)
    let s := if q.now24.stop + 10 ≤ c then s.each (List.finRange 4) (close24 false false q.now24.stop) else dayDip s
    (s.modRing fun r => { r with dip := !valid }).interrupt 85
  else s

/-- A step of system time (R447): `before` is the UTC second in progress, `after` the one it leads to. -/
def stepPerf (forward : Bool) (before after : Int) (valid : Bool) (s : State) : State :=
  if forward then
    let s := secondEnds before valid s
    let q := s.ring.perf[(0 : Fin 4)]
    if q.now15.stop ≤ after then
      let s := s.modRing fun r => { r with perf := r.perf.map fun x => PortPerf.classifyTo 0 20 x }
      let s := s.each (List.finRange 4) (close15 true true (intervalStart 900 after))
      let s := if q.now24.stop ≤ after then s.each (List.finRange 4) (close24 true true (intervalStart 86400 after)) else dayDip s
      let s := s.modRing fun r => { r with dip := !valid }
      ({ s with rep := { s.rep with seen := [] } } : State).interrupt 85
    else s
  else
    let back (n : Int) (b : Bin) : Bin := { b with suspect := true, stop := intervalStart n after + n }
    s.modRing fun r => { r with perf := r.perf.map fun x => { x with now15 := back 900 x.now15, now24 := back 86400 x.now24 } }

/-- Every bin cleared (R446); the current bins are begun late. -/
def resetBins (c : Int) (s : State) : State :=
  let a := intervalStart 900 c
  let b := intervalStart 86400 c
  s.modRing fun r => { r with perf := r.perf.map fun _ =>
    { PortPerf.reset with now15 := Bin.fresh a (a + 900) false true, now24 := Bin.fresh b (b + 86400) false true }, dip := true }

/-! ## PERF.SEL (R448) -/

def selectedBin (p : Fin 4) (kind index : Nat) (s : State) : Option (Bin × Bool) :=
  let q := s.ring.perf[p]
  let dip := s.ring.dip
  let cur (b : Bin) : Option (Bin × Bool) := some ({ b with suspect := b.suspect || dip }, true)
  if kind = 0 then
    if index = 0 then cur q.now15 else q.hist15[index - 1]?.map fun b => (b, false)
  else if index = 0 then cur q.now24
  else if index = 1 then q.prev24.map fun b => (b, false)
  else none

/-- The words D0–D10 of a bin. -/
def binWords (b : Bin) (current : Bool) : List Nat :=
  let sat (n v : Nat) : Nat := min v (2 ^ n - 1)
  [2 ^ 31 + b.suspect.toNat * 2 ^ 30 + b.partial_.toNat * 2 ^ 29 + current.toNat * 2 ^ 28,
   (BitVec.ofInt 32 b.start).toNat, b.es, b.ses, b.uas, b.ds, b.ns, sat 32 b.uncorr, sat 32 (b.corr / 1024),
   sat 16 b.slips * 65536 + sat 16 b.oof, sat 16 b.trains]

/-- A write of PERF.SEL copies the selected bin into D0–D10. -/
def writePerfSel (v : Word) (s : State) : State :=
  let port := F.PERF_SEL_PORT.of v
  let kind := F.PERF_SEL_KIND.of v
  let index := F.PERF_SEL_INDEX.of v
  let s := ((s.put F.PERF_SEL_PORT port).put F.PERF_SEL_KIND kind).put F.PERF_SEL_INDEX index
  let words := match selectedBin (Fin.ofNat 4 port) kind index s with
    | some (b, cur) => binWords b cur
    | none => List.replicate 11 0
  s.each words.zipIdx fun p s => s.putReg (0x40070110 + 4 * p.2) (BitVec.ofNat 32 p.1)

/-- PERF_SEL (R448). -/
def execPerfSel (v : Word) (s : State) : Result := actWhen s.clocked (writePerfSel v) s

end Sys2Proof.Machine
end

