-- ==== Sys2Proof/Machine/Tsi.lean ====
section
/-! DEFINITION. The connection memory (13.1, 13.3): entries, microcode access, page swaps, copies, loading. -/

namespace Sys2Proof.Machine

def State.modTsi (f : Tsi → Tsi) (s : State) : State := { s with tsi := f s.tsi }

def slots : Nat := 12800

/-- The key of an entry. -/
def cmKey (page : Bool) (port slot : Nat) : Nat := (page.toNat * 4 + port) * 16384 + slot

/-- A connection-memory entry (Table 13-1). -/
structure CmEntry where
  mode : Nat
  src : Nat
  slot : Nat
  alt : Nat

def CmEntry.ofWord (w : Word) : CmEntry :=
  ⟨(w.extractLsb' 30 2).toNat, (w.extractLsb' 28 2).toNat, (w.extractLsb' 14 14).toNat, (w.extractLsb' 0 14).toNat⟩

/-- A bad entry (R419). -/
def CmEntry.bad (e : CmEntry) : Bool :=
  e.mode == 3 || (e.mode != 0 && decide (slots ≤ e.slot)) || (e.mode == 2 && decide (slots ≤ e.alt))

/-- An entry as it acts: a bad one is IDLE. -/
def CmEntry.acting (w : Word) : CmEntry :=
  let e := CmEntry.ofWord w
  if e.bad then { e with mode := 0 } else e

def State.activePage (s : State) : Bool := s.bit F.TSI_STATUS_ACTIVE_PAGE

def tsiFault (kind : BitVec 5) (cls : BitVec 2) (reason : BitVec 8) (detail : Nat) (injected : Bool) (s : State) : State :=
  s.raise { src := 0x10, kind := kind, cls := cls, reason := reason, detail := BitVec.ofNat 24 detail, injected := injected }

/-- Page, port and slot of an entry in 24 bits (log entry 12). -/
def cmDetail (page : Bool) (port slot : Nat) : Nat := page.toNat + 16 * port + 256 * slot

/-- CM_ENTRY_BAD, the first per load or swap. -/
def noteBad (port slot : Nat) (w : Word) (s : State) : State :=
  if (CmEntry.ofWord w).bad ∧ s.tsi.badRaised = false then
    tsiFault kPROTOCOL corrected 0x03 (port + 256 * slot) false (s.modTsi fun t => { t with badRaised := true })
  else s

/-- Put an entry into a page. -/
def putEntry (page : Bool) (port slot : Nat) (w : Word) (s : State) : State :=
  let k := cmKey page port slot
  noteBad port slot w (s.modTsi fun t => { t with cm := tabSet 0 t.cm k w, ecc := tabSet none t.ecc k none })

/-! ## Microcode access (R428) -/

/-- The port and slot TSI.CM_ADDR names. -/
def State.cmPort (s : State) : Nat := s.get F.TSI_CM_ADDR_PORT
def State.cmSlot (s : State) : Nat := s.get F.TSI_CM_ADDR_SLOT

/-- What TSI.CM_DATA reads. -/
def State.cmData (s : State) : Word :=
  if slots ≤ s.cmSlot then 0
  else tabGet 0 s.tsi.cm (cmKey (s.bit F.TSI_CM_ADDR_PAGE == s.activePage) s.cmPort s.cmSlot)

/-- Each access advances SLOT where AUTOINC is set. -/
def cmAdvance (s : State) : State :=
  if s.bit F.TSI_CM_ADDR_AUTOINC then s.put F.TSI_CM_ADDR_SLOT (if s.cmSlot = 12799 then 0 else s.cmSlot + 1) else s

/-- A read of TSI.CM_DATA. A standby entry that a copy in progress may not have reached reads as either. -/
def readCmData (s : State) : Word × State :=
  let v := s.cmData
  if s.tsi.copy.isSome ∧ s.bit F.TSI_CM_ADDR_PAGE = false ∧ s.cmSlot < slots then
    let (d, s) := s.draw
    (if d.getLsbD 0 then tabGet 0 s.tsi.cm (cmKey s.activePage s.cmPort s.cmSlot) else v, cmAdvance s)
  else (v, cmAdvance s)

/-- A write of TSI.CM_DATA. -/
def writeCmData (v : Word) (s : State) : State :=
  let s :=
    if s.bit F.TSI_STATUS_SWAP_PENDING ∨ s.bit F.TSI_STATUS_COPY_BUSY then s.put F.TSI_STATUS_WRITE_REFUSED 1
    else if s.bit F.TSI_STATUS_PRELOADED then tsiFault kPROTOCOL corrected 0x04 0 false s
    else if slots ≤ s.cmSlot then s
    else putEntry (!s.activePage) s.cmPort s.cmSlot v (s.put F.TSI_STATUS_WRITE_REFUSED 0)
  cmAdvance s

/-- CM_DATA (R428): a read, or a write of `v`. -/
def execCmData (write : Bool) (v : Word) (s : State) : Result :=
  actWhen s.clocked (fun s => if write then writeCmData v s else (readCmData s).2) s

/-! ## Swaps (R429–R432) -/

/-- RING.FRAME: the number being sent at OE, or at OW when OE is not UP. -/
def State.ringFrame (s : State) : Nat :=
  let p : Fin 4 := if s.lineState 0 = lUP then 0 else 1
  ((s.port p).txNum.getD 0).toNat

def swapRefused (s : State) : State := tsiFault kPROTOCOL corrected 0x05 0 false (s.put F.TSI_STATUS_LAST_REFUSED 1)

def State.cmBusy (s : State) : Bool :=
  s.bit F.TSI_STATUS_PRELOADED || s.bit F.TSI_STATUS_SWAP_PENDING || s.bit F.TSI_STATUS_COPY_BUSY

/-- A request for a swap at frame SWAP_FRAME. -/
def requestSwap (s : State) : State :=
  let f := s.get F.TSI_SWAP_FRAME_HI_F * 2 ^ 32 + s.get F.TSI_SWAP_FRAME_LO_F
  let n := s.ringFrame
  if s.cmBusy ∨ f < n + 2 ∨ n + 2 ^ 20 < f then swapRefused s
  else
    let s := ((s.put F.TSI_STATUS_SWAP_PENDING 1).put F.TSI_STATUS_LAST_REFUSED 0).put F.TSI_STATUS_LAST_CANCELLED 0
    s.modTsi fun t => { t with swap := some f, swapImage := false }

/-- No output port has changed page since the swap was requested. -/
def State.swapUntouched (s : State) : Bool := s.tsi.page.toList.all (· == s.activePage)

/-- A pending microcode swap is withdrawn. -/
def dropSwap (s : State) : State :=
  (s.put F.TSI_STATUS_SWAP_PENDING 0).modTsi fun t => { t with swap := none, page := Vector.replicate 4 s.activePage }

def cancelSwap (s : State) : State :=
  if s.tsi.swap.isSome ∧ s.tsi.swapImage = false ∧ s.swapUntouched then dropSwap s else s

def requestCopy (s : State) : State :=
  if s.cmBusy then swapRefused s
  else ((s.put F.TSI_STATUS_COPY_BUSY 1).put F.TSI_STATUS_LAST_REFUSED 0).modTsi fun t => { t with copy := some s.cycles }

/-- A write of TSI.CTL. -/
def writeTsiCtl (v : Word) (s : State) : State :=
  let s := if F.TSI_CTL_CANCEL.of v = 0 then s else cancelSwap s
  let s := if F.TSI_CTL_SWAP.of v = 0 then s else requestSwap s
  if F.TSI_CTL_COPY.of v = 0 then s else requestCopy s

/-- SWAP (R429). -/
def execSwap (s : State) : Result := actWhen s.clocked requestSwap s

/-- SWAP_CANCEL (R429). -/
def execSwapCancel (s : State) : Result := actWhen s.clocked cancelSwap s

/-- COPY (R431). -/
def execCopy (s : State) : Result := actWhen s.clocked requestCopy s

/-- The entries of one page, with their keys within the page. -/
def pageOf (cm : List (Nat × Word)) (page : Bool) : List (Nat × Word) :=
  cm.filterMap fun e => if e.1 / 65536 = page.toNat then some (e.1 % 65536, e.2) else none

/-- Replace a page's entries. -/
def setPage (page : Bool) (entries : List (Nat × Word)) (s : State) : State :=
  s.modTsi fun t =>
    let other := t.cm.filter fun e => decide (e.1 / 65536 ≠ page.toNat)
    { t with cm := entries.foldl (fun cm e => tabSet 0 cm (page.toNat * 65536 + e.1) e.2) other,
             ecc := t.ecc.filter fun e => decide (e.1 / 65536 ≠ page.toNat) }

/-- COPY_DONE (R431): one entry per cycle, 51 200 entries. -/
def execCopyDone (s : State) : Result :=
  actWhen s.clocked (fun s => match s.tsi.copy with
    | none => s
    | some c => if s.cycles < c + 51200 then s
      else setPage (!s.activePage) (pageOf s.tsi.cm s.activePage)
        ((s.put F.TSI_STATUS_COPY_BUSY 0).modTsi fun t => { t with copy := none })) s

/-- LINE.CTL.EN of each drop port an entry of the active page names is set (R432). -/
def enableDrops (s : State) : State :=
  let used (p : Nat) : Bool := (pageOf s.tsi.cm s.activePage).any fun e =>
    let c := CmEntry.acting e.2
    c.mode != 0 && (e.1 / 16384 == p || c.src == p || (c.mode == 2 && Nat.xor c.src 1 == p))
  let turn (p : Fin 4) (s : State) : State :=
    if used p ∧ s.bit (F.LINE_CTL_EN p) = false then
      (s.put (F.LINE_CTL_EN p) 1).modPerf p fun q =>
        { q with enabled := false, now15 := { q.now15 with partial_ := true }, now24 := { q.now24 with partial_ := true } }
    else s
  turn 3 (turn 2 s)

/-- Every output port has changed page: the active page is the other one, and a preload in it stands by no longer. -/
def swapDone (s : State) : State :=
  let s := if s.tsi.swapImage then s.put F.TSI_STATUS_PRELOADED 0 else s
  let s := (s.put F.TSI_STATUS_ACTIVE_PAGE (!s.activePage).toNat).put F.TSI_STATUS_SWAP_PENDING 0
  let s := s.modTsi fun t => { t with swap := none, swapImage := false, prot := [], page := Vector.replicate 4 s.activePage,
                                      badRaised := false, uncorrRaised := [] }
  enableDrops (s.interrupt 84)

/-- The port sends something. -/
def State.transmitting (p : Fin 4) (s : State) : Bool := decide (lT1 ≤ s.lineState p)

/-- Port `p` begins frame `n`: it changes page at the first frame numbered F or more. -/
def portSwap (p : Fin 4) (n : Nat) (s : State) : State :=
  match s.tsi.swap with
  | none => s
  | some f =>
    if n < f ∨ s.tsi.page[p] ≠ s.activePage then s
    else
      let s := s.modTsi fun t => { t with page := t.page.set p (!s.activePage) }
      if (List.finRange 4).all (fun q => !s.transmitting q || s.tsi.page[q] != s.activePage) then swapDone s else s

/-! ## Loading (R427) -/

/-- Load a TSI_PAGE section's entries into a page: every other entry takes its reset value. -/
def loadPage (page : Bool) (entries : List (Nat × Nat × Word)) (s : State) : State :=
  let s := setPage page [] (s.modTsi fun t => { t with badRaised := false, uncorrRaised := [] })
  s.each entries fun e s => if e.1 < 4 ∧ e.2.1 < slots then putEntry page e.1 e.2.1 e.2.2 s else s

/-- K5 (R427): both pages IDLE, the section in page 0, page 0 active. -/
def loadPages (entries : List (Nat × Nat × Word)) (s : State) : State :=
  let s := s.modTsi fun _ => Tsi.reset
  loadPage false entries (s.putReg 0x40070004 0)

end Sys2Proof.Machine
end

