-- ==== Sys2Proof/Machine/Flue.lean ====
section
/-! DEFINITION. Flue (13.5–13.7): the cells of the line channel, the report and application queues, the FLUE0 and
FLUE1 ports. -/

namespace Sys2Proof.Machine

def State.modFlue (f : Flue → Flue) (s : State) : State := { s with flue := f s.flue }

/-- This node's address. -/
def State.address (s : State) : Nat := s.node.ident.address.toNat % 128

def flueFault (kind : BitVec 5) (cls : BitVec 2) (reason : BitVec 8) (detail : Nat) (injected : Bool) (s : State) : State :=
  s.raise { src := 0x11, kind := kind, cls := cls, reason := reason, detail := BitVec.ofNat 24 detail, injected := injected }

def emptyLine : List Byte := List.replicate 32 0

/-- A line cell of 28 bytes with its CRC (Table 13-5). -/
def lineCell (b : List Byte) : List Byte := slice b 0 28 ++ crcBe (slice b 0 28)

/-- FLUE.QUOTA in force: 0 acts as 1, above 16 as 16. -/
def State.flueQuota (s : State) : Nat := max 1 (min 16 (s.get F.FLUE_QUOTA_QUOTA))

/-! ## The application queue (R444) -/

def State.appSize (s : State) : Nat :=
  let n := s.get F.FLUE_APPQ_CTL_SIZE
  2 ^ (if 2 ≤ n ∧ n ≤ 8 then n else 4)

/-- Entries held. -/
def State.appHeld (s : State) : Nat :=
  let n := s.appSize
  (s.get F.FLUE_APPQ_WR_WR + n - s.get F.FLUE_APPQ_RD_RD % n) % n

def State.appReady (s : State) : Bool := s.bit F.FLUE_APPQ_CTL_EN && decide (s.appHeld ≠ 0)

/-- Advance APPQ_RD; APPQ_EMPTY is set when the queue becomes empty. -/
def appAdvance (s : State) : State :=
  let s := s.put F.FLUE_APPQ_RD_RD ((s.get F.FLUE_APPQ_RD_RD + 1) % s.appSize)
  if s.appHeld = 0 then s.eventBit (F.FLUE_EVENT_APPQ_EMPTY 0) (F.FLUE_IEN_IEN 0) 2 86 else s

/-- The next application cell's payload: entries of a hardware kind are discarded, a failed read stops the queue. -/
def appTake : Nat → State → Option (List Byte) × State
  | 0, s => (none, s)
  | k + 1, s =>
    if !s.appReady then (none, s)
    else
      let i := s.get F.FLUE_APPQ_RD_RD % s.appSize
      match s.spmReadBlock 8 (s.get F.FLUE_APPQ_BASE_BASE / 32 * 32 + 32 * i) 3 with
      | (.ok, b, s) =>
        let s := appAdvance s
        if (b.getD 0 0).toNat < 0x80 then appTake k (flueFault kPROTOCOL corrected 0x04 i false s) else (some b, s)
      | (a, _, s) =>
        let s := (s.put F.FLUE_APPQ_CTL_EN 0).put F.FLUE_STATUS_APPQ_STOPPED 1
        let s := s.eventBit (F.FLUE_EVENT_APPQ_STOPPED 0) (F.FLUE_IEN_IEN 0) 3 86
        (none, flueFault (if a = .off then kACCESS_OFF_BANK else kECC_UNCORR) contained 0x05 i false s)

/-- The cell at the head of the first queue that holds one: report, app, port 0, port 1. -/
def takeCell (s : State) : Option (Byte × List Byte) × State :=
  match s.rep.queue with
  | r :: q =>
    (some (0x01, [r.rkind, r.part] ++ slice r.body 0 22), ({ s with rep := { s.rep with queue := q } } : State).admitReports)
  | [] => match appTake 256 s with
    | (some b, s) => (some (0x01, b), s)
    | (none, s) => match s.flue.pq[(0 : Fin 2)], s.flue.pq[(1 : Fin 2)] with
      | c :: q, _ => (some (0x02, c), s.modFlue fun f => { f with pq := f.pq.set 0 q })
      | [], c :: q => (some (0x02, c), s.modFlue fun f => { f with pq := f.pq.set 1 q })
      | [], [] => (none, s)

/-! ## The line channel (R435, R436) -/

/-- A non-empty cell sent at a port goes to the FLUE ports in LINE mode: twelve for the next port frame, twelve
waiting (R440). -/
def toTxd (c : List Byte) (s : State) : State :=
  s.each (List.finRange 2) fun p s =>
    if s.get (F.FLUE_PCFG_MODE p) ≠ 2 then s
    else if 24 ≤ (s.flue.txq[p]).length then
      (s.count F.FLUE_CNT_B_PORT_LOST 1).eventBit (F.FLUE_EVENT_PORT_LOST p) (F.FLUE_IEN_IEN p) 1 (86 + p)
    else s.modFlue fun f => { f with txq := f.txq.set p (f.txq[p] ++ [c]) }

/-- CELL_CRC, the first per second. -/
def cellCrcFault (dir : Nat) (injected : Bool) (s : State) : State :=
  if s.flue.cellRaised then s
  else flueFault kCRC corrected 0x02 dir injected (s.modFlue fun f => { f with cellRaised := true })

/-- LINE_CELL (R436): one cell position of a frame built in direction `dir` (0 east-going, 1 west-going); `open_`
holds when the port is UP and not wrapped. Answers the cell sent. -/
def lineCellStep (dir : Nat) (open_ : Bool) (c : List Byte) (s : State) : List Byte × State :=
  let type := byteAt c 0
  let (inj, s) := if type = 0 then (0, s) else s.inject 0x0A dir
  let (c, freed, s) : List Byte × Bool × State :=
    if type = 0 then (emptyLine, false, s)
    else if !crcBeOk 28 c || inj != 0 then (emptyLine, false, cellCrcFault dir (inj != 0) (s.count F.FLUE_CNT_A_CELL_CRC 1))
    else if (byteAt c 1).toNat % 128 = s.address then (emptyLine, true, s)
    else
      let h := byteAt c 2 + 1
      if h = 255 then (emptyLine, false, s.count F.FLUE_CNT_A_HOPS_EXPIRED 1)
      else (lineCell (slice c 0 2 ++ [h] ++ slice c 3 25), false, s)
  if byteAt c 0 = 0 ∧ freed = false ∧ 0 < s.flue.credit ∧ open_ then
    match takeCell s with
    | (none, s) => (c, s)
    | (some (t, payload), s) =>
      let cell := lineCell ([t, BitVec.ofNat 8 s.address, 0, s.flue.seq] ++ slice payload 0 24)
      (cell, (s.modFlue fun f => { f with credit := f.credit - 1, seq := f.seq + 1 }).count F.FLUE_CNT_D_INSERTED 1)
  else (c, s)

/-- The six positions in order. -/
def lineCells (dir : Nat) (open_ : Bool) : List (List Byte) → State → List Byte × State
  | [], s => ([], s)
  | c :: cs, s =>
    let (c, s) := lineCellStep dir open_ c s
    let s := if open_ ∧ byteAt c 0 ≠ 0 then toTxd c s else s
    let (rest, s) := lineCells dir open_ cs s
    (c ++ rest, s)

/-! ## FLUE0 and FLUE1 (R438–R440) -/

/-- The mode in force; 3 acts as 0. -/
def State.flueMode (p : Fin 2) (s : State) : Nat := let m := s.get (F.FLUE_PCFG_MODE p); if m = 3 then 0 else m

/-- The span bytes received at EAST, or WEST, are valid (R434). -/
def State.spanValid (p : Fin 2) (s : State) : Bool :=
  let q : Fin 4 := p.castLE (by decide)
  s.flue.spanOk[p] && s.lineState q == lUP && !s.bit (F.LINE_STATUS_WRAPPED q)

/-- A TXD port frame of 459 bytes (Table 13-6). -/
def txdFrame (p : Fin 2) (s : State) : List Byte :=
  let m := s.flueMode p
  let head (b2 : Nat) : List Byte :=
    beBytes 2 (s.ringFrame % 65536) ++ [BitVec.ofNat 8 b2, BitVec.ofNat 8 (s.address + 128 * (!s.sup.inserted).toNat)]
  let body (b : List Byte) : List Byte := b ++ crcBe b
  let frame : List Byte :=
    if m = 1 then
      body (head ((s.spanValid 0).toNat + 2 * (s.spanValid 1).toNat) ++ slice s.flue.spanRx[0] 0 48 ++ slice s.flue.spanRx[1] 0 48)
    else if m = 2 then
      let cells := (s.flue.txq[p]).take 12
      body (head cells.length ++ slice cells.flatten 0 384)
    else head 0
  slice frame 0 459

/-- TXD_FRAME (R438): a port frame begins. -/
def execTxdFrame (p : Fin 2) (s : State) : Result :=
  actWhen (s.live && s.bit F.FLUE_STATUS_RUNNING) (fun s =>
    let f := txdFrame p s
    s.modFlue fun x => { x with txd := x.txd.set p f, txq := x.txq.set p ((x.txq[p]).drop 12) }) s

/-- A cell from RXD enters the port's queue of 16. -/
def queuePortCell (p : Fin 2) (c : List Byte) (s : State) : State :=
  if 16 ≤ (s.flue.pq[p]).length then
    (s.count F.FLUE_CNT_B_PORT_LOST 1).eventBit (F.FLUE_EVENT_PORT_LOST p) (F.FLUE_IEN_IEN p) 1 (86 + p)
  else s.modFlue fun f => { f with pq := f.pq.set p (f.pq[p] ++ [c]) }

/-- An RXD frame with a wrong CRC. -/
def rxdBad (p : Fin 2) (injected : Bool) (s : State) : State :=
  let s := s.count (if p = 0 then F.FLUE_CNT_C_RXD_CRC0 else F.FLUE_CNT_C_RXD_CRC1) 1
  let s := s.eventBit (F.FLUE_EVENT_RXD_CRC p) (F.FLUE_IEN_IEN p) 0 (86 + p)
  if s.flue.rxdRaised[p] then s
  else flueFault kCRC corrected 0x01 p injected (s.modFlue fun f => { f with rxdRaised := f.rxdRaised.set p true })

/-- What a right RXD frame carries. -/
def rxdTake (p : Fin 2) (m : Nat) (b : List Byte) (s : State) : State :=
  if m = 1 then s.modFlue fun f => { f with spanTx := (f.spanTx.set 0 (slice b 4 48)).set 1 (slice b 52 48) }
  else
    let n := min 4 (byteAt b 2).toNat
    s.each ((List.range n).map fun i => slice b (4 + 32 * i + 4) 24) (queuePortCell p)

/-- RXD_FRAME (R440): 459 bytes received on a FLUE port. -/
def execRxdFrame (p : Fin 2) (b : List Byte) (s : State) : Result :=
  if b.length ≠ 459 then .refused (.illFormed "RXD_FRAME")
  else
    actWhen (s.live && s.bit F.FLUE_STATUS_RUNNING && decide (s.flueMode p ≠ 0)) (fun s =>
      let m := s.flueMode p
      let (inj, s) := s.inject 0x0C p
      let n := if m = 1 then 100 else 388
      if !crcBeOk n b || inj != 0 then rxdBad p (inj != 0) s else rxdTake p m b s) s

/-! ## Registers (Table 13-9) -/

def liveFlue (off : Nat) (s : State) : Option Word :=
  if off = 8 then
    let w := F.FLUE_STATUS_NO_LINE.into (!s.sup.inserted).toNat (s.reg 0x40080008)
    let w := F.FLUE_STATUS_RPT_FILL.into s.rep.queue.length w
    some (F.FLUE_STATUS_PQ0_FILL.into (s.flue.pq[(0 : Fin 2)]).length (F.FLUE_STATUS_PQ1_FILL.into (s.flue.pq[(1 : Fin 2)]).length w))
  else none

def writeFlue (off : Nat) (v : Word) (s : State) : Option State :=
  if off = 0x14 then
    let s := (s.put F.FLUE_APPQ_CTL_EN (F.FLUE_APPQ_CTL_EN.of v)).put F.FLUE_APPQ_CTL_SIZE (F.FLUE_APPQ_CTL_SIZE.of v)
    some (if F.FLUE_APPQ_CTL_EN.of v = 1 then s.put F.FLUE_STATUS_APPQ_STOPPED 0 else s)
  else none

end Sys2Proof.Machine
end

