-- ==== Sys2Proof/Machine/ControlStore.lean ====
section
/-! DEFINITION. The control store (08.5): two pages of 8192 microwords, their parity. -/

namespace Sys2Proof.Machine

/-- Even parity of a group of bits (R302). -/
def evenOnes (v : BitVec 96) (lo n : Nat) : Bool :=
  ((List.range n).filter fun i => v.getLsbD (lo + i)).length % 2 == 0

/-- P0, P1 and P2 of a stored microword are right (Table 09-1). -/
def parityOk (v : BitVec 96) : Bool :=
  let ok (p lo n : Nat) : Bool := evenOnes v lo n == !v.getLsbD p
  ok 95 0 32 && ok 94 32 32 && ok 93 64 29

/-- The key of word `i` of page `p`. -/
def csKey (p i : Nat) : Nat := p * 8192 + i

def State.csWord (p i : Nat) (s : State) : BitVec 96 := tabGet 0 s.hrt.cs (csKey p i)

/-- The parity check of word `i` of page `p`, with injection on the word FLT.INJ_ADDR names (R285, R495). -/
def State.csCheck (p i : Nat) (s : State) : Bool × State :=
  let n := if s.get F.FLT_INJ_ADDR_ADDR = i then s.injectBits 0x02 p else 0
  if n = 0 then (parityOk (s.csWord p i), s) else (!parityOk (s.csWord p i), s.injectDone)

/-- Word `i` of the active page is bad: Peat is to rewrite it (R286). -/
def noteBadWord (i : Nat) (s : State) : State :=
  if s.hrt.scrubBad.any fun b => b.word == i then s
  else { s with hrt := { s.hrt with scrubBad := s.hrt.scrubBad ++ [⟨i, s.cycles, false⟩] } }

/-! ## Microwords (R301, R302, Table 09-1) -/

/-- The fields of a microword; one that an instruction does not use is 0. -/
structure Micro where
  op : Nat
  d : Nat := 0
  a : Nat := 0
  b : Nat := 0
  c : Nat := 0
  sz : Nat := 0
  imm : Word := 0
  t : BitVec 13 := 0
  e : Nat := 0
  n : Nat := 0
  fn : Nat := 0
deriving DecidableEq, Repr

/-- The word of an instruction over registers alone, and of one with an immediate. -/
def Micro.regs (op : Nat) (d a b : Fin 32) : Micro := { op := op, d := d, a := a, b := b }

def Micro.immed (op : Nat) (d a : Fin 32) (imm : Word) : Micro := { op := op, d := d, a := a, imm := imm }

/-- Bits [92:0] of the word. -/
def Micro.bits (m : Micro) : BitVec 93 :=
  BitVec.ofNat 8 m.op ++ BitVec.ofNat 5 m.d ++ BitVec.ofNat 5 m.a ++ BitVec.ofNat 5 m.b ++ BitVec.ofNat 4 m.c ++
    BitVec.ofNat 2 m.sz ++ m.imm ++ m.t ++ BitVec.ofNat 5 m.e ++ BitVec.ofNat 6 m.n ++ BitVec.ofNat 8 m.fn

/-- The word with its parity bits, each of which makes an even number of ones (R302). -/
def Micro.word (m : Micro) : BitVec 96 :=
  let v : BitVec 96 := m.bits.zeroExtend 96
  let p (lo n : Nat) : BitVec 1 := BitVec.ofBool (!evenOnes v lo n)
  p 0 32 ++ p 32 32 ++ p 64 29 ++ m.bits

/-- The word at address `pc` of the active page, parity aside. -/
def State.fetched (pc : BitVec 13) (s : State) : BitVec 93 :=
  (s.csWord (s.get F.HRT_SWAP_ACTIVE_PAGE) pc.toNat).extractLsb' 0 93

/-! ## Legal words (R301, R303, Table 09-1) -/

/-- Field of `n` bits at `lo` of a microword. -/
def mfield (w : BitVec 96) (lo n : Nat) : Nat := w.toNat / 2 ^ lo % 2 ^ n

/-- The fields of Table 09-1 an opcode's row uses, as places; none for an opcode chapter 9 does not define. -/
def microFields (op : Nat) : Option (List (Nat × Nat)) :=
  let d := (80, 5)
  let a := (75, 5)
  let b := (70, 5)
  let c := (66, 4)
  let sz := (64, 2)
  let imm := (32, 32)
  let t := (19, 13)
  let e := (14, 5)
  let n := (8, 6)
  let fn := (0, 8)
  if op = 0x01 then some [d, imm]
  else if op = 0x02 ∨ op = 0x26 ∨ op = 0x27 then some [d, a]
  else if op = 0x03 ∨ op = 0x62 ∨ op = 0x7E ∨ (0x83 ≤ op ∧ op ≤ 0x85) then some []
  else if op = 0x18 ∨ op = 0x19 then some [a, b]
  else if op = 0x38 ∨ op = 0x39 then some [a, imm]
  else if (0x10 ≤ op ∧ op ≤ 0x1D) ∨ (0x20 ≤ op ∧ op ≤ 0x23) ∨ (0x50 ≤ op ∧ op ≤ 0x52) then some [d, a, b]
  else if (0x30 ≤ op ∧ op ≤ 0x3D) ∨ (0x40 ≤ op ∧ op ≤ 0x43) ∨ op = 0x24 ∨ op = 0x25 ∨ op = 0x78 then some [d, a, imm]
  else if op = 0x54 ∨ op = 0x7A then some [d, a, n]
  else if op = 0x58 then some [d, a, b, fn]
  else if op = 0x60 then some [d, a, sz, imm, fn]
  else if op = 0x61 then some [a, b, sz, imm]
  else if op = 0x68 ∨ op = 0x69 then some [d]
  else if op = 0x70 then some [d, a, b, e, n, imm, fn]
  else if op = 0x71 then some [d, e, n, imm, fn]
  else if op = 0x72 then some [d, a, n, fn]
  else if op = 0x74 then some [d, n]
  else if op = 0x75 then some [d, b, n]
  else if op = 0x7C then some [n]
  else if op = 0x7F then some [a, fn]
  else if op = 0x80 ∨ op = 0x81 then some [c, t]
  else if op = 0x82 then some [a]
  else if 0x86 ≤ op ∧ op ≤ 0x88 then some [a, t]
  else none

/-- The ranges the rows of chapter 9 give: even pairs, FN, N, subfields of IMM, registers up to W31, condition 15. -/
def microRange (op : Nat) (w : BitVec 96) : Bool :=
  let d := mfield w 80 5
  let a := mfield w 75 5
  let b := mfield w 70 5
  let sz := mfield w 64 2
  let imm := mfield w 32 32
  let n := mfield w 8 6
  let fn := mfield w 0 8
  if 0x40 ≤ op ∧ op ≤ 0x43 then decide (imm < 32)
  else if op = 0x24 ∨ op = 0x25 then decide (imm < 0x2000 ∧ imm / 32 % 8 = 0 ∧ imm % 32 + imm / 256 + 1 ≤ 32)
  else if op = 0x51 ∨ op = 0x52 ∨ op = 0x68 then decide (d % 2 = 0)
  else if op = 0x54 then decide (d % 2 = 0 ∧ 1 ≤ n ∧ n ≤ 32)
  else if op = 0x58 then decide ((fn = 0 ∧ d % 2 = 0 ∧ b = 0) ∨ (fn = 1 ∧ d % 2 = 0) ∨ (fn = 2 ∧ b = 0))
  else if op = 0x60 then decide ((fn = 0 ∨ (fn = 1 ∧ sz < 2)) ∧ (sz = 3 → d % 2 = 0))
  else if op = 0x61 then decide (sz = 3 → b % 2 = 0)
  else if op = 0x70 ∨ op = 0x71 then
    decide ((fn = 0 ∧ imm = 0 ∨ fn = 1 ∧ n = 0 ∧ imm < 32) ∧ (op = 0x70 → b % 2 = 0))
  else if op = 0x72 then decide (n ≤ 2 ∧ 1 ≤ fn ∧ fn ≤ 8 ∧ a + fn ≤ 32)
  else if op = 0x74 then decide (d % 2 = 0 ∧ n ≤ 7)
  else if op = 0x75 then decide (d % 2 = 0 ∧ b % 2 = 0 ∧ n ≤ 7)
  else if op = 0x78 then decide (a ≤ 26 ∧ imm < 256)
  else if op = 0x7A then decide (n ≤ 7)
  else if op = 0x7C then decide (n ≤ 3)
  else if op = 0x7F then decide (fn = 1 ∨ (fn = 0 ∧ a % 2 = 0))
  else if op = 0x80 ∨ op = 0x81 then decide (mfield w 66 4 ≠ 15)
  else true

/-- The word raises no ILLEGAL of its own: OP is defined, every field its row does not use is 0, every other is in range. -/
def microLegal (w : BitVec 96) : Bool :=
  match microFields (mfield w 85 8) with
  | none => false
  | some fs =>
    ((List.range 85).all fun i => !w.getLsbD i || fs.any fun f => decide (f.1 ≤ i ∧ i < f.1 + f.2)) &&
      microRange (mfield w 85 8) w

end Sys2Proof.Machine
end

