-- ==== Sys2Proof/Machine/Image.lean ====
section
/-! DEFINITION. The plug's memory and an image copy in it: header, directory, sections, verdict (04.3–04.6, R114), the
commit block. -/

namespace Sys2Proof.Machine

/-! ## Plug memory -/

/-- `n` bytes of the plug from address `a`. -/
def State.plugBytes (a n : Nat) (s : State) : List Byte := tabGetRun 0 s.plug.mem a n

/-- A little-endian field of the plug. -/
def State.plugLe (a n : Nat) (s : State) : Nat := ofLe (s.plugBytes a n)

/-- A WRITE reaches the memory while the plug is present and powered and its write protection is lifted (R133, R135). -/
def State.plugWrites (s : State) : Bool := s.plugReachable

/-- One WRITE command to the plug. -/
def writePlug (a : Nat) (bs : List Byte) (s : State) : State :=
  if s.plugWrites then { s with plug := { s.plug with mem := tabSetRun 0 s.plug.mem a bs } } else s

/-! ## Copies (Table 04-2) -/

/-- Base of a copy: `false` copy A, `true` copy B. -/
def copyBase (c : Bool) : Nat := if c then 0x42000 else 0x2000

/-- A little-endian field of a copy. -/
def State.copyLe (c : Bool) (off n : Nat) (s : State) : Nat := s.plugLe (copyBase c + off) n

def State.copyBytes (c : Bool) (off n : Nat) (s : State) : List Byte := s.plugBytes (copyBase c + off) n

/-- The CRC-32C of `n` bytes of a copy stands little-endian at `at_`. -/
def State.copyCrc (c : Bool) (off n at_ : Nat) (s : State) : Bool :=
  (crc32c (s.copyBytes c off n)).toNat == s.copyLe c at_ 4

def State.imageSeq (c : Bool) (s : State) : Nat := s.copyLe c 0x48 4

/-- The selected copy (KIN.STATUS.IMAGE_COPY), and the inactive one. -/
def State.selected (s : State) : Bool := s.bit F.KIN_STATUS_IMAGE_COPY
def State.inactive (s : State) : Bool := !s.selected

inductive Commit where
  | committed | staged | neither
deriving DecidableEq, Repr

/-- The commit state of a copy (R144). -/
def State.commitOf (c : Bool) (s : State) : Commit :=
  if !s.copyCrc c 0 0x3C 0x3C || s.copyLe c 4 4 != s.imageSeq c then .neither
  else if s.copyLe c 0 4 = 0x3C3CA5A5 then .committed
  else if s.copyLe c 0 4 = 0x3C3C5A5A then .staged
  else .neither

/-- A commit block (Table 04-4). -/
def commitBlock (commit seq act source : Nat) : List Byte :=
  let b := leBytes 4 commit ++ leBytes 4 seq ++ leBytes 8 act ++ leBytes 1 source ++ List.replicate 43 0
  b ++ leBytes 4 (crc32c b).toNat

/-- Write a copy's commit block. -/
def writeCommit (c : Bool) (commit seq act source : Nat) (s : State) : State :=
  writePlug (copyBase c) (commitBlock commit seq act source) s

/-- Rewrite a copy's commit block with another COMMIT and ACT_SECOND, every other field kept. -/
def rewriteCommit (c : Bool) (commit act : Nat) (s : State) : State :=
  writeCommit c commit (s.copyLe c 4 4) act (s.copyLe c 0x10 1) s

/-! ## Header and directory (R143–R146) -/

/-- A directory entry (Table 04-6). -/
structure Section where
  type : Nat
  version : Nat
  offset : Nat
  length : Nat
  crc : Nat

def State.headerOk (c : Bool) (s : State) : Bool :=
  s.copyLe c 0x40 4 == 0x4D495A44 && s.copyLe c 0x44 2 == 1 && s.copyLe c 0x46 2 == 0xC0 && s.copyCrc c 0x40 0xBC 0xFC

def State.dirCount (c : Bool) (s : State) : Nat := s.copyLe c 0x6C 2

/-- Directory entry `i`. -/
def State.entry (c : Bool) (i : Nat) (s : State) : Section :=
  let b := s.copyBytes c (0x100 + 16 * i) 16
  ⟨leAt b 0 2, leAt b 2 2, leAt b 4 4, leAt b 8 4, leAt b 12 4⟩

def State.sections (c : Bool) (s : State) : List Section :=
  (List.range (min 64 (s.dirCount c))).map fun i => s.entry c i

/-- The bytes of a section. -/
def State.body (c : Bool) (e : Section) (s : State) : List Byte := s.copyBytes c e.offset e.length

def State.sectionCrc (c : Bool) (e : Section) (s : State) : Bool := (crc32c (s.body c e)).toNat == e.crc

/-- A length within Table 04-7. -/
def lengthOk (type n : Nat) : Bool :=
  match type with
  | 1 => n == 98304
  | 2 => n == 64
  | 3 => n == 2048
  | 4 => n == 256
  | 5 => decide (16 ≤ n ∧ n ≤ 16424)
  | 6 => decide (8 ≤ n ∧ n ≤ 8 + 8 * 12288) && n % 8 == 0
  | 7 => n == 1024
  | 8 => n == 2048
  | 9 => decide (8 ≤ n ∧ n ≤ 8 + 16 * 64) && n % 16 == 8
  | 10 => decide (9 ≤ n ∧ n ≤ 131080)
  | _ => false

def knownType (t : Nat) : Bool := decide (1 ≤ t ∧ t ≤ 10)

/-- A directory index that names a section of type `t`, or 0xFFFF where `none` is allowed. -/
def indexOk (l : List Section) (i t : Nat) (optional : Bool) : Bool :=
  (optional && i == 0xFFFF) || (match l[i]? with
    | some e => e.type == t
    | none => false)

/-- A personality set (Table 04-8) names sections of the right types, and its start tasks are within limits. -/
def psetOk (l : List Section) (b : List Byte) : Bool :=
  let ix (k : Nat) : Nat := leAt b (2 * k) 2
  indexOk l (ix 0) 1 false && indexOk l (ix 1) 3 false && indexOk l (ix 2) 4 true && indexOk l (ix 3) 5 true &&
  indexOk l (ix 4) 6 true && indexOk l (ix 5) 7 true && indexOk l (ix 6) 8 true && indexOk l (ix 7) 9 true &&
  (List.range 8).all (fun k => indexOk l (ix (8 + k)) 10 true) &&
  (List.range 8).all fun k =>
    let prio := (byteAt b (32 + 4 * k + 2)).toNat
    prio == 0xFF || (decide (prio ≤ 7) && decide (leAt b (32 + 4 * k) 2 ≤ 8191) && decide ((byteAt b (32 + 4 * k + 3)).toNat < 16))

/-- SOURCE bytes of a WHEELS section. -/
def wheelsOk (b : List Byte) : Bool :=
  (List.range 8).all fun i => if i < 3 then byteAt b (32 * i) == 0 else byteAt b (32 * i) != 0

/-- The tooth tables of a TEETH section: the angles of each; none where the section breaks R151. -/
def teethTables : Nat → List Byte → Option (List (List Nat))
  | 0, [] => some []
  | 0, _ => none
  | k + 1, b =>
    let n := leAt b 0 2
    let angles := (List.range n).map fun i => leAt b (4 + 4 * i) 4
    let rising := (angles.zip (angles.drop 1)).all fun p => decide (p.1 < p.2)
    if b.length < 4 + 4 * n ∨ n = 0 ∨ 512 < n ∨ angles.any (fun a => decide (2 ^ 20 ≤ a)) ∨ rising = false then none
    else (teethTables k (b.drop (4 + 4 * n))).map fun l => angles :: l

def teethOf (b : List Byte) : Option (List (List Nat)) :=
  let n := (byteAt b 0).toNat
  if n = 0 ∨ 8 < n then none else teethTables n (b.drop 8)

/-- The entries of a TSI_PAGE section: port, slot, word. -/
def pageEntries (b : List Byte) : List (Nat × Nat × Word) :=
  (List.range ((b.length - 8) / 8)).map fun i =>
    let e := slice b (8 + 8 * i) 8
    ((byteAt e 0).toNat, leAt e 2 2, BitVec.ofNat 32 (leAt e 4 4))

def pageOk (b : List Byte) : Bool :=
  let l := pageEntries b
  let key (e : Nat × Nat × Word) : Nat := e.1 * 65536 + e.2.1
  leAt b 0 4 == l.length && l.all (fun e => decide (e.1 < 4) && decide (e.2.1 < slots)) &&
    (l.zip (l.drop 1)).all fun p => decide (key p.1 < key p.2)

/-- The entries of a LEAPS section: system second and offset. -/
def leapEntries (b : List Byte) : List (Nat × Int) :=
  (List.range ((b.length - 8) / 16)).map fun i =>
    let e := slice b (8 + 16 * i) 16
    (leAt e 0 8, (BitVec.ofNat 32 (leAt e 8 4)).toInt)

/-- R146 tests the COUNT of a LEAPS section against its length and nothing else: entries out of order are no fault (DESIGN CHOICE, log
entry 114). -/
def leapsOk (b : List Byte) : Bool := leAt b 0 4 == (leapEntries b).length

def dataOk (b : List Byte) : Bool :=
  leAt b 0 4 % 8 == 0 && decide (leAt b 0 4 + (b.length - 8) ≤ 0x84000)

/-- What R146 asks of a section's content. -/
def contentOk (l : List Section) (e : Section) (b : List Byte) : Bool :=
  match e.type with
  | 2 => psetOk l b
  | 4 => wheelsOk b
  | 5 => (teethOf b).isSome
  | 6 => pageOk b
  | 9 => leapsOk b
  | 10 => dataOk b
  | _ => true

/-- No two sections overlap. -/
def disjoint (l : List Section) : Bool :=
  let n := l.length
  (List.range n).all fun i => (List.range n).all fun j =>
    match l[i]?, l[j]? with
    | some a, some b => decide (j ≤ i) || decide (a.offset + a.length ≤ b.offset) || decide (b.offset + b.length ≤ a.offset)
    | _, _ => true

/-- PSET of CLASS band `band`. -/
def State.pset (c : Bool) (band : Nat) (s : State) : Nat := s.copyLe c (0xA8 + 2 * band) 2

/-- The directory is well formed (R146). -/
def State.directoryOk (c : Bool) (s : State) : Bool :=
  let n := s.dirCount c
  let len := s.copyLe c 0x68 4
  let l := s.sections c
  decide (1 ≤ n) && decide (n ≤ 64) && decide (len ≤ 0x3FFC0) && s.copyCrc c 0x100 (16 * n) 0xB8 &&
  l.all (fun e => e.offset % 8 == 0 && decide (0x100 + 16 * n ≤ e.offset) && decide (e.offset + e.length ≤ 0x40 + len)) &&
  disjoint l &&
  l.all (fun e => !knownType e.type || (e.version == 1 && lengthOk e.type e.length)) &&
  (List.range 8).all (fun k => indexOk l (s.pset c k) 2 true) &&
  l.all fun e => contentOk l e (s.body c e)

/-! ## Verdicts (Table 03-7) -/

inductive Verdict where
  | selected | acceptable | headerBad | notCommitted | staged | sectionBad | levelBelow | levelAbove | descriptorBad
  | noPersonality | loadFailed
deriving DecidableEq, Repr

def Verdict.code : Verdict → Nat
  | .selected => 0 | .acceptable => 1 | .headerBad => 2 | .notCommitted => 3 | .staged => 4 | .sectionBad => 5
  | .levelBelow => 6 | .levelAbove => 7 | .descriptorBad => 8 | .noPersonality => 9 | .loadFailed => 10

def State.levelLo (c : Bool) (s : State) : Nat := s.copyLe c 0x4C 1
def State.levelHi (c : Bool) (s : State) : Nat := s.copyLe c 0x4D 1

/-- The MFE ROM versions a copy lists. -/
def State.romList (c : Bool) (s : State) : List Byte := (s.copyBytes c 0x50 8).filter fun b => b != 0

/-- CLASS band (IDENT.CODES). -/
def State.band (s : State) : Nat := s.get F.IDENT_CODES_CLASS

/-- The checks of a copy's content, after header and commit state: directory, sections, levels, personality. -/
def State.contentVerdict (c : Bool) (s : State) : Verdict :=
  if !s.directoryOk c || !(s.sections c).all (fun e => s.sectionCrc c e) then .sectionBad
  else if s.levelHi c < s.levelLo c ∨ (s.romList c).isEmpty then .descriptorBad
  else if s.levelHi c < 1 then .levelBelow
  else if 3 < s.levelLo c then .levelAbove
  else if s.pset c s.band = 0xFFFF then .noPersonality
  else .acceptable

/-- The verdict of R114. -/
def State.verdict (c : Bool) (s : State) : Verdict :=
  if !s.headerOk c then .headerBad
  else match s.commitOf c with
    | .staged => .staged
    | .neither => .notCommitted
    | .committed => s.contentVerdict c

/-! ## The chosen personality set -/

/-- The bytes of the personality set of a copy for this node's CLASS band. -/
def State.personality (c : Bool) (s : State) : List Byte := s.body c (s.entry c (s.pset c s.band))

/-- Directory index `k` of the personality set (Table 04-8): 0 MICROCODE to 7 LEAPS, 8–15 DATA. -/
def State.psetIndex (c : Bool) (k : Nat) (s : State) : Nat := leAt (s.personality c) (2 * k) 2

/-- The section the personality set names at `k`, if any. -/
def State.psetSection (c : Bool) (k : Nat) (s : State) : Option Section :=
  let i := s.psetIndex c k
  if i = 0xFFFF then none else some (s.entry c i)

/-- The microwords of a MICROCODE section (R149). -/
def microwords (b : List Byte) : List (BitVec 96) :=
  (List.range 8192).map fun i => BitVec.ofNat 96 (leAt b (12 * i) 12)

/-- Microword `i` as the selected copy holds it. -/
def State.imageWord (i : Nat) (s : State) : BitVec 96 :=
  match s.psetSection s.selected 0 with
  | some e => BitVec.ofNat 96 (s.copyLe s.selected (e.offset + 12 * i) 12)
  | none => 0

/-- Load a control-store page from a MICROCODE section of copy `c`. -/
def loadMicrocode (page : Nat) (c : Bool) (e : Section) (s : State) : State :=
  { s with hrt := { s.hrt with cs := tabSplice 0 s.hrt.cs (csKey page 0) (microwords (s.body c e)) } }

/-- The 128-bit group masks of a GROUPS section (R153). -/
def groupMasks (b : List Byte) : List (BitVec 128) :=
  (List.range 64).map fun g => BitVec.ofNat 128 (leAt b (16 * g) 16)

end Sys2Proof.Machine
end

