-- ==== Sys2Proof/Machine/Work.lean ====
section
/-! DEFINITION. The work engine (chapter 14): items and cells, acceptance at a target, custody at the originator, the
records of Peat. -/

namespace Sys2Proof.Machine

def State.modWork (f : Work → Work) (s : State) : State := { s with work := f s.work }

def wrkFault (kind : BitVec 5) (reason : BitVec 8) (detail : Nat) (s : State) : State :=
  s.raise { src := 0x12, kind := kind, cls := corrected, reason := reason, detail := BitVec.ofNat 24 detail }

/-- WRK.EVENT bits 0–7, and 8–15 (R478). -/
def State.wrkEvent (f : Field) (b : Nat) (s : State) : State :=
  if b < 8 then s.eventBit f F.WRK_IEN_IEN_LO b 89 else s.eventBit f F.WRK_IEN_IEN_HI (b - 8) 90

/-- The work engine accepts, applies and offers: K8, outside the PWRFAIL sequence (R457). -/
def State.working (s : State) : Bool := s.inK8 && decide (s.node.pwr = .none)

/-! ## Counts shown -/

def TState.final : TState → Bool
  | .applied | .refused | .lapsed | .abandoned => true
  | _ => false

def TState.unaccepted : TState → Bool
  | .offered | .querying => true
  | _ => false

/-- Items accepted and not applied. -/
def State.notApplied (s : State) : Nat := (s.work.awq.filter fun r => !r.applied).length

/-- WRK.AWQ, WRK.CUST and PEAT.STATUS follow the records held; source 88 rises with the first item not applied. -/
def showWork (s : State) : State :=
  let was := s.bit F.WRK_AWQ_ACCEPTED
  let live := s.work.cust.filter fun r => !r.released
  let s := (s.put F.WRK_AWQ_ACCEPTED s.notApplied).put F.WRK_AWQ_USED s.work.awq.length
  let s := s.put F.WRK_CUST_LIVE live.length
  let s := s.put F.WRK_CUST_UNACCEPTED (live.filter fun r => r.targets.any fun t => t.st.unaccepted).length
  let s := (s.put F.PEAT_STATUS_QUEUED s.work.peat.length).put F.PEAT_STATUS_JRNL_FREE (4096 - s.work.awq.length)
  s.when (!was && s.bit F.WRK_AWQ_ACCEPTED) (State.strobe 88)

/-! ## Cells (Table 14-2) -/

/-- A work-channel cell of 60 bytes with its CRC. -/
def workCell (b : List Byte) : List Byte := slice b 0 60 ++ crcBe (slice b 0 60)

def cOFFER : Byte := 0x01
def cREPORT : Byte := 0x02
def cQUERY : Byte := 0x03

def offerCell (i : Item) (dst : Nat) (pred : Word) : List Byte :=
  workCell ([cOFFER, i.origin, BitVec.ofNat 8 dst, 0] ++ beBytes 2 i.epoch.toNat ++ beBytes 4 i.seq.toNat ++ [i.tkind, i.tid] ++
    beBytes 4 pred.toNat ++ beBytes 8 i.due.toNat ++ [i.action, i.channel, 0, 0] ++ beBytes 4 i.arg0.toNat ++
    beBytes 4 i.arg1.toNat ++ beBytes 8 i.arg2.toNat)

def reportCell (own : Nat) (i : Item) (state reason result : Byte) : List Byte :=
  workCell ([cREPORT, BitVec.ofNat 8 own, i.origin, state] ++ beBytes 2 i.epoch.toNat ++ beBytes 4 i.seq.toNat ++ [reason, result])

def queryCell (i : Item) (dst : Nat) : List Byte :=
  workCell ([cQUERY, i.origin, BitVec.ofNat 8 dst, 0] ++ beBytes 2 i.epoch.toNat ++ beBytes 4 i.seq.toNat)

def cellEpoch (c : List Byte) : BitVec 16 := BitVec.ofNat 16 (beAt c 4 2)
def cellSeq (c : List Byte) : Word := BitVec.ofNat 32 (beAt c 6 4)
def cellTo (c : List Byte) : Nat := (byteAt c 2).toNat % 128
def cellFrom (c : List Byte) : Nat := (byteAt c 1).toNat % 128

/-- The item an OFFER carries. -/
def offerItem (c : List Byte) : Item :=
  { origin := BitVec.ofNat 8 (cellFrom c), epoch := cellEpoch c, seq := cellSeq c, tkind := byteAt c 10 &&& 3, tid := byteAt c 11,
    action := byteAt c 24, channel := byteAt c 25, due := BitVec.ofNat 64 (beAt c 16 8), arg0 := BitVec.ofNat 32 (beAt c 28 4),
    arg1 := BitVec.ofNat 32 (beAt c 32 4), arg2 := BitVec.ofNat 64 (beAt c 36 8) }

/-- A cell goes to its queue; one for this node itself is delivered inside (R457). -/
def sendWork (c : List Byte) (s : State) : State :=
  if cellTo c = s.address then s.modWork fun w => { w with inbox := w.inbox ++ [c] }
  else if byteAt c 0 = cREPORT then s.modWork fun w => { w with reports := w.reports ++ [c] }
  else if byteAt c 0 = cQUERY then s.modWork fun w => { w with queries := w.queries ++ [c] }
  else s.modWork fun w => { w with offers := w.offers ++ [c] }

def sendReport (i : Item) (state reason result : Byte) (s : State) : State :=
  sendWork (reportCell s.address i state reason result) s

/-! ## Actions (Table 14-1) -/

def aINSERT : BitVec 8 := 1
def aCANCEL : BitVec 8 := 2
def aVALUE : BitVec 8 := 3
def aIMAGE : BitVec 8 := 4

/-- Action, channel and tag keep Table 14-1. -/
def actionFields (i : Item) : Bool :=
  if i.action = aINSERT then decide (i.channel.toNat < 64) && !i.arg1.getLsbD 31
  else if i.action = aCANCEL then decide (i.channel.toNat < 64) && i.arg1 != 0
  else if i.action = aVALUE then true
  else i.action == aIMAGE && i.channel == 0

/-! ## Records (Tables 14-6, 14-7) -/

def journalBytes (r : JRec) : List Byte :=
  let i := r.item
  let b := [0xA1, i.origin] ++ leBytes 2 i.epoch.toNat ++ leBytes 4 i.seq.toNat ++ leBytes 4 r.order.toNat ++
    [i.tkind, i.tid, i.action, i.channel] ++ leBytes 8 i.due.toNat ++ leBytes 4 i.arg0.toNat ++ leBytes 4 i.arg1.toNat ++
    leBytes 8 i.arg2.toNat ++ leBytes 8 r.time.toNat ++ leBytes 8 0
  b ++ leBytes 4 0 ++ leBytes 4 (crc32c b).toNat

def custodyBytes (r : CRec) : List Byte :=
  let i := r.item
  let b := [0xC1, i.tkind] ++ leBytes 2 i.epoch.toNat ++ leBytes 4 i.seq.toNat ++ [i.tid, i.action, i.channel, 0] ++
    leBytes 4 r.expires.toNat ++ leBytes 8 i.due.toNat ++ leBytes 4 i.arg0.toNat ++ leBytes 4 i.arg1.toNat ++
    leBytes 8 i.arg2.toNat ++ leBytes 16 r.set.toNat
  b ++ leBytes 4 0 ++ leBytes 4 (crc32c b).toNat

def journalBase : Nat := 0x82000
def custodyBase : Nat := 0xC2000

/-- The lowest-numbered of `n` slots that is not in use. -/
def freeSlot (n : Nat) (used : List Nat) : Option Nat := (List.range n).find? fun i => !used.contains i

def State.journalSlot (s : State) : Option Nat := freeSlot 4096 (s.work.awq.map JRec.slot)

/-- A free custody record; at most 2047 may be LIVE (R475). -/
def State.custodySlot (s : State) : Option Nat :=
  if 2047 ≤ (s.work.cust.filter fun r => !r.released).length then none else freeSlot 2048 (s.work.cust.map CRec.slot)

def modJournal (slot : Nat) (f : JRec → JRec) (s : State) : State :=
  s.modWork fun w => { w with awq := w.awq.map fun r => if r.slot = slot then f r else r }

def modCustody (slot : Nat) (f : CRec → CRec) (s : State) : State :=
  s.modWork fun w => { w with cust := w.cust.map fun r => if r.slot = slot then f r else r }

/-- The newest of two. -/
def newest (n : Nat) (best : Option Nat) (x : Nat) : Option Nat :=
  match best with
  | none => some x
  | some b => if newer n x b then some x else some b

/-- The watermark record of its origin (R475). -/
def watermark (l : List JRec) (r : JRec) : Bool :=
  let mine := l.filter fun x => x.committed && x.item.origin == r.item.origin
  let epoch := mine.foldl (fun b x => newest 16 b x.item.epoch.toNat) none
  let seq := (mine.filter fun x => some x.item.epoch.toNat == epoch).foldl (fun b x => newest 32 b x.item.seq.toNat) none
  some r.item.epoch.toNat == epoch && some r.item.seq.toNat == seq

/-- Journal records that have become free leave the AWQ. -/
def sweepJournal (l : List JRec) : List JRec :=
  l.filter fun r => !(r.committed && r.applied && r.spent) || watermark l r

/-- RELEASED custody records leave the log, but for the one of the node's epoch with the newest SEQUENCE, from which R476
continues (DEDUCED, log entry 112). -/
def sweepCustody (epoch : BitVec 16) (l : List CRec) : List CRec :=
  let mine (r : CRec) : Bool := r.item.epoch == epoch
  let seq := (l.filter fun r => r.committed && mine r).foldl (fun b r => newest 32 b r.item.seq.toNat) none
  l.filter fun r => !r.released || (mine r && some r.item.seq.toNat == seq)

/-- The custody log keeps only what R475 keeps. -/
def State.sweepLog (s : State) : State := s.modWork fun w => { w with cust := sweepCustody s.node.ident.epoch w.cust }

/-- Peat takes a record: at most four are queued, the rest wait. -/
def queuePeat (j : PeatJob) (s : State) : State :=
  s.modWork fun w => if w.peat.length < 4 then { w with peat := w.peat ++ [j] } else { w with peatWait := w.peatWait ++ [j] }

/-! ## At the target (R462–R464) -/

def State.originOf (o : BitVec 8) (s : State) : Option Origin := s.work.origins.find? fun x => x.node == o.toNat

def setOrigin (o : Origin) (s : State) : State :=
  s.modWork fun w => { w with origins := o :: w.origins.filter fun x => x.node != o.node }

/-- STATE and RESULT of a record held, or of one freed: none while its commit is in flight. -/
def State.reportOf (i : Item) (s : State) : Option (Byte × Byte) :=
  match s.work.awq.find? fun r => r.item.origin == i.origin && r.item.epoch == i.epoch && r.item.seq == i.seq with
  | none => some (2, 0)
  | some r => if !r.committed then none else if r.applied then some (2, r.result) else some (1, 0)

/-- Report the state of an item already accepted. -/
def reportState (i : Item) (s : State) : State :=
  match s.reportOf i with
  | some (st, res) => sendReport i st 0 res s
  | none => s

def defer (i : Item) (reason : Byte) (s : State) : State := (sendReport i 4 reason 0 s).count F.WRK_CNT_B_DEFERRED 1

/-- AWQ_FULL, the first per second. -/
def awqFull (i : Item) (s : State) : State :=
  if s.work.fullRaised then s
  else wrkFault kJOURNAL_FULL 0x01 i.origin.toNat (s.modWork fun w => { w with fullRaised := true })

/-- The rest of R462, once E(o) is `e`: `w` is W(o). -/
def acceptOffer (i : Item) (w : Option Word) (pred : Word) (s : State) : State :=
  let known : Bool := match w with
    | some x => !newer 32 i.seq.toNat x.toNat
    | none => false
  let behind : Bool := pred != 0 && (match w with
    | some x => newer 32 pred.toNat x.toNat
    | none => true)
  if known then (reportState i s).count F.WRK_CNT_B_DUPLICATES 1
  else if i.tkind = 1 ∧ s.node.ident.groups.getLsbD i.tid.toNat = false then sendReport i 3 0x01 0 s
  else if !actionFields i ∨ i.tkind = 3 then sendReport i 3 0x02 0 s
  else if behind then defer i 0x10 s
  else match s.journalSlot with
    | none => defer i 0x11 (awqFull i s)
    | some slot =>
      if 4 ≤ s.work.peat.length then defer i 0x11 s
      else
        let order := s.work.orderNext
        let r : JRec := { slot := slot, item := i, order := order, time := 0, committed := false, marking := false,
                          applied := false, result := 0, spent := false, again := false }
        let s := setOrigin ⟨i.origin.toNat, i.epoch, some i.seq⟩ s
        showWork (queuePeat (.journal slot) (s.modWork fun w => { w with awq := w.awq ++ [r], orderNext := order + 1 }))

/-- R462 for one OFFER cell. -/
def takeOffer (c : List Byte) (s : State) : State :=
  let i := offerItem c
  let pred := BitVec.ofNat 32 (beAt c 12 4)
  match s.originOf i.origin with
  | none => acceptOffer i none pred (setOrigin ⟨i.origin.toNat, i.epoch, none⟩ s)
  | some o =>
    if newer 16 o.epoch.toNat i.epoch.toNat then sendReport i 3 0x03 0 s
    else if o.epoch ≠ i.epoch then acceptOffer i none pred (setOrigin ⟨i.origin.toNat, i.epoch, none⟩ s)
    else acceptOffer i o.w pred s

/-- R464 for one QUERY cell. -/
def takeQuery (c : List Byte) (s : State) : State :=
  let i := offerItem c
  match s.originOf i.origin with
  | none => sendReport i 5 0 0 s
  | some o =>
    let held : Bool := match o.w with
      | some x => o.epoch == i.epoch && !newer 32 i.seq.toNat x.toNat
      | none => false
    if held then reportState i s else sendReport i 5 0 0 s

/-- The first cell of a type taken and not yet acted on, removed. -/
def popWork (type : Byte) (s : State) : Option (List Byte × State) :=
  match s.work.inbox.find? fun c => byteAt c 0 == type with
  | none => none
  | some c => some (c, s.modWork fun w => { w with inbox := w.inbox.erase c })

/-- The first taken cell of a type is acted on. -/
def onCell (type : Byte) (f : List Byte → State → State) (s : State) : Result :=
  actWhen s.working (fun s => match popWork type s with
    | none => s
    | some (c, s) => f c s) s

/-- OFFER (R462). -/
def execOffer (s : State) : Result := onCell cOFFER takeOffer s

/-- QUERY (R464). -/
def execQuery (s : State) : Result := onCell cQUERY takeQuery s

/-! ## At the originator (R461, R465–R468) -/

/-- PRED of an item for target `t` (R461). -/
def State.predOf (i : Item) (t : Nat) (s : State) : Word :=
  let l := s.work.cust.filter fun r => !r.released && newer 32 i.seq.toNat r.item.seq.toNat &&
    r.targets.any fun x => x.node == t && x.st.unaccepted
  BitVec.ofNat 32 ((l.foldl (fun b r => newest 32 b r.item.seq.toNat) none).getD 0)

def modTarget (slot t : Nat) (f : Target → Target) (s : State) : State :=
  modCustody slot (fun r => { r with targets := r.targets.map fun x => if x.node = t then f x else x }) s

/-- An OFFER for one target is queued; one for this node itself goes at once. -/
def queueOffer (r : CRec) (t : Nat) (s : State) : State :=
  let s := modTarget r.slot t (fun x => { x with sentAt := some s.cycles, offerAt := if t = s.address then s.cycles else x.offerAt }) s
  sendWork (offerCell r.item t (s.predOf r.item t)) s

/-- Offer a committed item to every target still OFFERED. -/
def offerAll (r : CRec) (s : State) : State :=
  s.each (r.targets.filter fun t => t.st == .offered) fun t => queueOffer r t.node

/-- The number of records of the completion ring (Table 14-9). -/
def State.crSize (s : State) : Nat :=
  let n := s.get F.WRK_CR_CTL_SIZE
  2 ^ (if 2 ≤ n ∧ n ≤ 10 then n else 6)

/-- The completion record of an ended entry (R467). -/
def writeCompletion (r : CRec) (s : State) : State :=
  if s.bit F.WRK_CR_CTL_EN = false then s
  else
    let n := s.crSize
    let wr := s.get F.WRK_CR_WR_WR
    if (wr + 1) % n = s.get F.WRK_CR_RD_RD then
      (s.count F.WRK_CNT_B_CR_LOST 1).wrkEvent F.WRK_EVENT_CR_LOST 10
    else
      let num (st : TState) : Nat := (r.targets.filter fun t => t.st == st).length
      let lo := leBytes 4 r.item.seq.toNat ++ [num .applied, num .refused, num .lapsed, num .abandoned].map (BitVec.ofNat 8)
      match s.spmWriteBlock 6 (s.get F.WRK_CR_BASE_BASE / 16 * 16 + 16 * wr) [lo, leBytes 8 s.now.toNat] with
      | (.ok, s) => s.put F.WRK_CR_WR_WR ((wr + 1) % n)
      | (_, s) => s.put F.WRK_CR_CTL_EN 0

/-- An entry whose targets are all final ends (R467). -/
def endEntry (slot : Nat) (s : State) : State :=
  match s.work.cust.find? fun r => r.slot == slot with
  | none => s
  | some r =>
    if r.ended ∨ !r.committed ∨ !(r.targets.all fun t => t.st.final) then s
    else
      let has (st : TState) : Bool := r.targets.any fun t => t.st == st
      let s := modCustody slot (fun r => { r with ended := true }) s
      let s := if has .lapsed then s.wrkEvent F.WRK_EVENT_LAPSED 2 else s.wrkEvent F.WRK_EVENT_RETIRED 1
      let s := s.when (has .refused) (State.wrkEvent F.WRK_EVENT_TARGET_REFUSED 9)
      queuePeat (.released slot) (writeCompletion r s)

/-- A target takes a new state; LAPSED counts. -/
def setTarget (slot t : Nat) (st : TState) (s : State) : State :=
  let s := modTarget slot t (fun x => { x with st := st }) s
  if st = .lapsed then
    let s := s.count F.WRK_CNT_C_LAPSED 1
    { s with rep := { s.rep with lapsedSinceState := min 0xFFFF (s.rep.lapsedSinceState + 1) } }
  else s

/-- Where a REPORT's STATE moves a target (Table 14-5); none: it does not fit. -/
def TState.after (st : TState) (report : Byte) : Option TState :=
  match st, report with
  | .offered, 1 => some .accepted
  | .offered, 2 => some .applied
  | .offered, 3 => some .refused
  | .accepted, 2 => some .applied
  | .querying, 1 => some .accepted
  | .querying, 2 => some .applied
  | .querying, 3 => some .refused
  | .querying, 5 => some .lapsed
  | _, _ => none

/-- R465 for one REPORT cell. -/
def takeReport (c : List Byte) (s : State) : State :=
  match s.work.cust.find? fun r => r.committed && !r.ended && r.item.epoch == cellEpoch c && r.item.seq == cellSeq c with
  | none => s
  | some r => match r.targets.find? fun t => t.node == cellFrom c with
    | none => s
    | some t => match t.st.after (byteAt c 3) with
      | none => s
      | some st => showWork (endEntry r.slot (setTarget r.slot t.node st (modTarget r.slot t.node (fun x =>
          { x with sentAt := some s.cycles }) s)))

/-- REPORT (R465). -/
def execReport (s : State) : Result := onCell cREPORT takeReport s

def State.retryTime (s : State) : Nat := max 1 (s.get F.WRK_TIMERS_RETRY) * 536870912 / 1000
def State.pollTime (s : State) : Nat := max 1 (s.get F.WRK_TIMERS_POLL) * 536870912

/-- The record in a custody slot, while it is served, and one of its targets. -/
def State.served (slot t : Nat) (s : State) : Option (CRec × Target) :=
  match s.work.cust.find? fun r => r.slot == slot && r.committed && !r.ended with
  | none => none
  | some r => (r.targets.find? fun x => x.node == t).map fun x => (r, x)

def dueSince (c : Option Nat) (n : Nat) (s : State) : Bool :=
  match c with
  | some c => decide (c + n ≤ s.cycles)
  | none => true

/-- RETRY (Table 14-5): the next OFFER, or QUERY, to target `t` of the entry in `slot`. -/
def execRetry (slot : Fin 2048) (t : Fin 128) (s : State) : Result :=
  actWhen s.working (fun s => match s.served slot t with
    | none => s
    | some (r, x) =>
      if x.st = .offered ∧ dueSince x.sentAt s.retryTime s then queueOffer r x.node s
      else if x.st = .querying ∧ x.offerAt + 5368709 ≤ s.cycles ∧ dueSince x.sentAt s.retryTime s then
        sendWork (queryCell r.item x.node) (modTarget r.slot x.node (fun x => { x with sentAt := some s.cycles }) s)
      else s) s

/-- POLL (Table 14-5): the next OFFER to an ACCEPTED target. -/
def execPoll (slot : Fin 2048) (t : Fin 128) (s : State) : Result :=
  actWhen s.working (fun s => match s.served slot t with
    | none => s
    | some (r, x) => if x.st = .accepted ∧ dueSince x.sentAt s.pollTime s then queueOffer r x.node s else s) s

/-- EXPIRES (Table 14-5): OFFERED targets move to QUERYING; their waiting OFFERs go. -/
def execExpires (slot : Fin 2048) (s : State) : Result :=
  actWhen s.working (fun s =>
    match s.work.cust.find? fun r => r.slot == slot.val && r.committed && !r.ended with
    | none => s
    | some r =>
      let sec := BitVec.ofNat 32 (s.now.toNat / 536870912)
      if r.expires = 0 ∨ 2 ^ 31 ≤ (sec - r.expires).toNat then s
      else
        let gone := (r.targets.filter fun t => t.st == .offered).map Target.node
        let s := modCustody r.slot (fun r => { r with targets := r.targets.map fun t =>
          if t.st = .offered then { t with st := .querying, sentAt := none } else t }) s
        showWork (s.modWork fun w => { w with offers := w.offers.filter fun c =>
          !(cellSeq c == r.item.seq && gone.contains (cellTo c)) })) s

/-- A write of WRK.ABANDON (R468). -/
def writeAbandon (v : Word) (s : State) : State :=
  let node := F.WRK_ABANDON_NODE.of v
  let s := s.put F.WRK_ABANDON_NODE node
  if F.WRK_ABANDON_GO.of v = 0 then s
  else
    let hit := s.work.cust.filter fun r => !r.ended && r.targets.any fun t => t.node == node && !t.st.final
    let s := s.each hit fun r s => endEntry r.slot (setTarget r.slot node .abandoned s)
    showWork (wrkFault kPROTOCOL 0x06 (node + 256 * hit.length) s)

/-- ABANDON (R468). -/
def execAbandon (v : Word) (s : State) : Result := actWhen s.clocked (writeAbandon v) s

/-! ## Origination (R459, R460) -/

/-- The item the WRK.OR registers describe, without its name. -/
def State.orItem (s : State) : Item :=
  { origin := BitVec.ofNat 8 s.address, epoch := s.node.ident.epoch, seq := 0, tkind := BitVec.ofNat 8 (s.get F.WRK_OR_TGT_TKIND),
    tid := BitVec.ofNat 8 (s.get F.WRK_OR_TGT_TID), action := BitVec.ofNat 8 (s.get F.WRK_OR_ACT_ACTION),
    channel := BitVec.ofNat 8 (s.get F.WRK_OR_ACT_CHANNEL),
    due := BitVec.ofNat 64 (s.get F.WRK_OR_DUE_HI_DUE * 2 ^ 32 + s.get F.WRK_OR_DUE_LO_DUE),
    arg0 := BitVec.ofNat 32 (s.get F.WRK_OR_ARG0_ARG), arg1 := BitVec.ofNat 32 (s.get F.WRK_OR_ARG1_ARG),
    arg2 := BitVec.ofNat 64 (s.get F.WRK_OR_ARG2_HI_ARG2 * 2 ^ 32 + s.get F.WRK_OR_ARG2_LO_ARG2) }

/-- The target set of R453. -/
def State.targetSet (i : Item) (s : State) : BitVec 128 :=
  if i.tkind = 0 then BitVec.twoPow 128 i.tid.toNat
  else if i.tkind = 1 then s.work.groups.getD i.tid.toNat 0
  else s.work.groups.foldl (fun a g => a ||| g) (BitVec.twoPow 128 s.address)

/-- The first refusal of Table 14-3 but CUSTODY_FULL. -/
def State.orRefusal (i : Item) (s : State) : Option Nat :=
  if !s.working then some 1
  else if i.tkind = 3 ∨ (i.tkind = 0 ∧ 127 < i.tid.toNat) ∨ (i.tkind = 1 ∧ 63 < i.tid.toNat) then some 2
  else if s.targetSet i = 0 then some 3
  else if !actionFields i ∨ (i.action = aIMAGE ∧ i.due ≠ 0) then some 4
  else none

/-- A refused origination. -/
def refuseOrigination (reason : Nat) (s : State) : State :=
  let s := (s.put F.WRK_OR_STATUS_STATE 4).put F.WRK_OR_STATUS_REASON reason
  let s := (s.wrkEvent F.WRK_EVENT_ORIG_REFUSED 8).count F.WRK_CNT_C_ORIG_REFUSED 1
  let s := { s with rep := { s.rep with refusedSinceState := min 0xFFFF (s.rep.refusedSinceState + 1) } }
  wrkFault (if reason = 5 then kQUEUE_FULL else kPROTOCOL) 0x03 reason (s.modWork fun w => { w with hold := none })

def targetsOf (m : BitVec 128) : List Nat := (List.range 128).filter fun n => m.getLsbD n

/-- SEQUENCE after `q` (R460). -/
def nextSeq (q : Nat) : Nat := if q = 0xFFFFFFFF then 1 else q + 1

/-- An item takes its name and a custody slot, and Peat its record. -/
def commitItem (slot : Nat) (i : Item) (set : BitVec 128) (expires : Word) (inner : Bool) (s : State) : State :=
  let q := s.get F.WRK_NEXT_SEQ_SEQUENCE
  let i := { i with seq := BitVec.ofNat 32 q }
  let r : CRec := { slot := slot, item := i, expires := expires, set := set,
                    targets := (targetsOf set).map fun n => ⟨n, .offered, none, 0⟩,
                    inner := inner, committed := false, ended := false, released := false }
  let s := (s.put F.WRK_NEXT_SEQ_SEQUENCE (nextSeq q)).modWork fun w => { w with cust := w.cust ++ [r] }
  showWork (queuePeat (.custody slot) s)

/-- Steps 2 and 3 of R459: a GO made in system second `sec` at cycle `at_`. -/
def originate (at_ sec : Nat) (s : State) : State :=
  let i := s.orItem
  match s.custodySlot with
  | none => (s.put F.WRK_OR_STATUS_STATE 1).modWork fun w => { w with hold := some (at_, sec) }
  | some slot =>
    let life := s.get F.WRK_OR_LIFE_LIFE
    let expires : Word := if life = 0 then 0 else BitVec.ofNat 32 (sec + life)
    commitItem slot i (s.targetSet i) expires false
      ((s.put F.WRK_OR_STATUS_STATE 2).modWork fun w => { w with hold := none })

/-- A write of WRK.OR_CMD. -/
def writeOrCmd (v : Word) (s : State) : State :=
  let st := s.get F.WRK_OR_STATUS_STATE
  if F.WRK_OR_CMD_GO.of v = 0 ∨ st = 1 ∨ st = 2 then s
  else
    let s := s.put F.WRK_OR_STATUS_REASON 0
    match s.orRefusal s.orItem with
    | some r => refuseOrigination r s
    | none => originate s.cycles (s.now.toNat / 536870912) s

/-- ORIGINATION (R459): a write of WRK.OR_CMD. -/
def execOrigination (v : Word) (s : State) : Result := actWhen s.clocked (writeOrCmd v) s

/-- CUSTODY_FULL (R459): a held origination has waited WRK.HOLD. -/
def execCustodyFull (s : State) : Result :=
  actWhen s.working (fun s => match s.work.hold with
    | none => s
    | some (c, _) => if s.cycles < c + s.get F.WRK_HOLD_HOLD * 536870912 / 1000 then s else refuseOrigination 5 s) s

/-- The ACTIVATE_IMAGE items of R168 are originated as custody records free. -/
def originateArming : Nat → State → State
  | 0, s => s
  | k + 1, s => match s.work.arming, s.custodySlot with
    | (node, seq, act) :: l, some slot =>
      let i : Item := { origin := BitVec.ofNat 8 s.address, epoch := s.node.ident.epoch, seq := 0, tkind := 0,
                        tid := BitVec.ofNat 8 node, action := aIMAGE, channel := 0, due := 0, arg0 := seq, arg1 := 0, arg2 := act }
      originateArming k (commitItem slot i (BitVec.twoPow 128 node) 0 true (s.modWork fun w => { w with arming := l }))
    | _, _ => s

/-- What waits for a custody record proceeds. -/
def serveHeld (s : State) : State :=
  if !s.working then s
  else
    let s := match s.work.hold with
      | some (c, sec) => if s.custodySlot.isSome then originate c sec s else s
      | none => s
    originateArming 128 s

/-! ## Peat commits (R474) -/

def PeatJob.custodyArea : PeatJob → Bool
  | .journal _ | .applied _ => false
  | _ => true

/-- A record, not the mark of one. -/
def PeatJob.isRecord : PeatJob → Bool
  | .journal _ | .custody _ => true
  | _ => false

def PeatJob.slot : PeatJob → Nat
  | .journal i | .applied i | .custody i | .released i => i

/-- The bytes a job writes and where; MARK of a custody record may be any value but 0. -/
def jobBytes (j : PeatJob) (s : State) : (Nat × List Byte) × State :=
  match j with
  | .journal i => match s.work.awq.find? fun r => r.slot == i with
    | some r => ((journalBase + 64 * i, journalBytes { r with time := s.now }), s)
    | none => ((0, []), s)
  | .applied i => match s.work.awq.find? fun r => r.slot == i with
    | some r => ((journalBase + 64 * i + 0x38, leBytes 4 (0xA5A5A500 + r.result.toNat)), s)
    | none => ((0, []), s)
  | .custody i => match s.work.cust.find? fun r => r.slot == i with
    | some r => ((custodyBase + 64 * i, custodyBytes r), s)
    | none => ((0, []), s)
  | .released i =>
    let (v, s) := s.draw
    let m := v.toNat % 2 ^ 32
    ((custodyBase + 64 * i + 0x38, leBytes 4 (if m = 0 then 1 else m)), s)

/-- A record is applied and marked: an earlier SET_VALUE of the same index, or an ACTIVATE_IMAGE, is spent. -/
def spendAfter (r : JRec) (l : List JRec) : List JRec :=
  l.map fun x =>
    if x.slot = r.slot then { x with spent := x.spent || r.item.action == aIMAGE }
    else if r.item.action = aVALUE ∧ x.item.action = aVALUE ∧ x.item.channel = r.item.channel ∧ x.applied ∧
      newer 32 r.order.toNat x.order.toNat then { x with spent := true }
    else x

/-- A verified record takes effect. -/
def committed (j : PeatJob) (s : State) : State :=
  let s := s.when j.isRecord fun s => s.count F.PEAT_CNT_COMMITS 1
  let quiet := !s.working
  match j with
  | .journal i => match s.work.awq.find? fun r => r.slot == i with
    | none => s
    | some r =>
      let s := modJournal i (fun r => { r with committed := true, time := s.now }) s
      let s := s.modWork fun w => { w with awq := sweepJournal w.awq }
      if quiet then s else sendReport r.item 1 0 0 s
  | .applied i => match s.work.awq.find? fun r => r.slot == i with
    | none => s
    | some r =>
      let s := modJournal i (fun r => { r with applied := true, marking := false }) s
      let s := s.modWork fun w => { w with awq := sweepJournal (spendAfter r w.awq) }
      if quiet then s else sendReport r.item 2 0 r.result s
  | .custody i =>
    let s := modCustody i (fun r => { r with committed := true }) s
    match s.work.cust.find? fun r => r.slot == i with
    | none => s
    | some r =>
      let s := if r.inner then s
        else ((s.put F.WRK_OR_STATUS_STATE 3).put F.WRK_OR_SEQ_SEQUENCE r.item.seq.toNat).wrkEvent F.WRK_EVENT_ORIG_DONE 0
      let s := s.sweepLog
      endEntry i (if quiet then s else offerAll r s)
  | .released i =>
    let s := modCustody i (fun r => { r with released := true }) s
    serveHeld s.sweepLog

/-- The next waiting record moves up; from PWRFAIL on none does. -/
def refillPeat (s : State) : State :=
  if s.node.pwr = .none then
    s.modWork fun w => match w.peatWait with
      | j :: l => if w.peat.length < 4 then { w with peat := w.peat ++ [j], peatWait := l } else w
      | [] => w
  else s

/-- Peat finishes the record at the head: `fails` read-backs differ (R474), with injection (checker 0x0D). -/
def commitNext (fails : Nat) (s : State) : State :=
  match s.work.peat with
  | [] => s
  | j :: l =>
    let s := s.modWork fun w => { w with peat := l }
    let ((a, bs), s) := jobBytes j s
    let s := writePlug a bs s
    let (i1, s) := s.inject 0x0D 0
    if fails = 0 ∧ i1 = 0 then showWork (refillPeat (committed j s))
    else
      let s := s.count F.PEAT_CNT_REWRITES 1
      let (i2, s) := s.inject 0x0D 0
      if fails ≤ 1 ∧ i2 = 0 then showWork (refillPeat (committed j s))
      else
        let detail := BitVec.ofNat 24 (j.custodyArea.toNat + 256 * j.slot)
        showWork (s.raise { src := 0x13, kind := kPROTOCOL, cls := fatal, reason := 0x01, detail := detail, injected := i2 != 0 })

/-- RECORD_COMMIT (R474): Peat runs until the shutdown record, and in Kindling. -/
def execRecordCommit (fails : Fin 3) (s : State) : Result :=
  actWhen (s.live && s.node.plugPresent && (decide (s.node.pwr = .none) || decide (s.node.pwr = .running))) (commitNext fails) s

/-- Every record in flight is completed (Table 02-4 step 2, R57, R102); what had not begun is not written. -/
def commitAll (s : State) : State :=
  commitNext 0 (commitNext 0 (commitNext 0 (commitNext 0 s)))

def PeatJob.custodySlot : PeatJob → Option Nat
  | .custody i => some i
  | _ => none

/-- PWRFAIL or a hold: originations whose record has not begun, that is all but the record at the head, are refused
NOT_RUNNING (Table 14-11). -/
def stopOriginating (s : State) : State :=
  let begun (j : PeatJob) : Bool := j.custodySlot.isNone
  let waiting := (s.work.peat.drop 1 ++ s.work.peatWait).filterMap PeatJob.custodySlot
  let lost := s.work.cust.filter fun r => waiting.contains r.slot
  let s := match lost with
    | r :: _ => s.put F.WRK_NEXT_SEQ_SEQUENCE r.item.seq.toNat
    | [] => s
  let refused := s.work.hold.isSome || lost.any fun r => !r.inner
  let s := s.modWork fun w =>
    { w with cust := w.cust.filter (fun r => !waiting.contains r.slot), arming := [],
             peat := w.peat.take 1 ++ (w.peat.drop 1).filter begun, peatWait := w.peatWait.filter begun }
  showWork (s.when refused (refuseOrigination 1))

/-! ## Rebuild at K5 (R476) -/

/-- One journal record from the plug; none where its CRC fails. -/
def journalRecord (slot : Nat) (b : List Byte) : Option JRec :=
  if (crc32c (slice b 0 0x38)).toNat ≠ leAt b 0x3C 4 then none
  else
    let mark := leAt b 0x38 4
    some { slot := slot
           item := { origin := BitVec.ofNat 8 ((byteAt b 1).toNat % 128), epoch := BitVec.ofNat 16 (leAt b 2 2),
                     seq := BitVec.ofNat 32 (leAt b 4 4), tkind := byteAt b 0xC, tid := byteAt b 0xD, action := byteAt b 0xE,
                     channel := byteAt b 0xF, due := BitVec.ofNat 64 (leAt b 0x10 8), arg0 := BitVec.ofNat 32 (leAt b 0x18 4),
                     arg1 := BitVec.ofNat 32 (leAt b 0x1C 4), arg2 := BitVec.ofNat 64 (leAt b 0x20 8) }
           order := BitVec.ofNat 32 (leAt b 8 4), time := BitVec.ofNat 64 (leAt b 0x28 8), committed := true, marking := false,
           applied := mark != 0, result := BitVec.ofNat 8 mark, spent := false, again := false }

/-- One custody record; its origin is this node, at `own`. -/
def custodyRecord (own : BitVec 8) (slot : Nat) (b : List Byte) : Option CRec :=
  if (crc32c (slice b 0 0x38)).toNat ≠ leAt b 0x3C 4 then none
  else
    let set := BitVec.ofNat 128 (leAt b 0x28 16)
    let gone := leAt b 0x38 4 != 0
    some { slot := slot
           item := { origin := own, epoch := BitVec.ofNat 16 (leAt b 2 2), seq := BitVec.ofNat 32 (leAt b 4 4), tkind := byteAt b 1,
                     tid := byteAt b 8, action := byteAt b 9, channel := byteAt b 0xA, due := BitVec.ofNat 64 (leAt b 0x10 8),
                     arg0 := BitVec.ofNat 32 (leAt b 0x18 4), arg1 := BitVec.ofNat 32 (leAt b 0x1C 4),
                     arg2 := BitVec.ofNat 64 (leAt b 0x20 8) }
           expires := BitVec.ofNat 32 (leAt b 0xC 4), set := set,
           targets := (targetsOf set).map fun n => ⟨n, .offered, none, 0⟩,
           inner := false, committed := true, ended := gone, released := gone }

/-- Place a record by ORDER. -/
def byOrder (r : JRec) : List JRec → List JRec
  | [] => [r]
  | x :: l => if newer 32 x.order.toNat r.order.toNat then r :: x :: l else x :: byOrder r l

/-- Revolutions wheel `w` has passed `rev` by, signed. -/
def State.revsPast (c : Fin 64) (rev : Word) (s : State) : Int :=
  (s.reg (0x4003002C + 0x100 * (s.chWheel c)) - rev).toInt

/-- Revolutions the wheel still has to pass before `rev` (R469), signed. -/
def State.revsAhead (c : Fin 64) (rev : Word) (s : State) : Int :=
  (rev - s.reg (0x4003002C + 0x100 * (s.chWheel c))).toInt

/-- A CH_INSERT or CH_CANCEL is past its time (Table 14-1). -/
def State.pastDue (i : Item) (s : State) : Bool :=
  let c : Fin 64 := Fin.ofNat 64 i.channel.toNat
  if s.wheelDomain c then decide (2 ≤ s.revsPast c (i.due.extractLsb' 32 32))
  else decide (i.due.toNat + 2 ^ 29 ≤ s.now.toNat)

/-- An applied record is spent as Table 14-1 gives. -/
def State.isSpent (l : List JRec) (r : JRec) (s : State) : Bool :=
  if r.item.action = aIMAGE then true
  else if r.item.action = aVALUE then
    l.any fun x => x.applied && x.item.action == aVALUE && x.item.channel == r.item.channel && newer 32 x.order.toNat r.order.toNat
  else s.pastDue r.item

/-- What the journal holds, by ORDER. -/
def State.readJournal (s : State) : List JRec :=
  let l := (List.range 4096).filterMap fun i => journalRecord i (s.plugBytes (journalBase + 64 * i) 64)
  let l := l.foldl (fun a r => byOrder r a) []
  l.map fun r => { r with spent := r.applied && s.isSpent l r }

/-- E(o) and W(o) of every origin the records name. -/
def originsOf (l : List JRec) : List Origin :=
  l.foldl (fun os r =>
    let n := r.item.origin.toNat
    match os.find? fun o => o.node == n with
    | none => ⟨n, r.item.epoch, some r.item.seq⟩ :: os
    | some o =>
      let rest := os.filter fun o => o.node != n
      if newer 16 r.item.epoch.toNat o.epoch.toNat then ⟨n, r.item.epoch, some r.item.seq⟩ :: rest
      else if r.item.epoch = o.epoch ∧ newer 32 r.item.seq.toNat ((o.w.getD 0).toNat) then ⟨n, o.epoch, some r.item.seq⟩ :: rest
      else os) []

/-- Records of an area whose CRC fails, and those of them that are not all zero. -/
def State.invalidRecords (base n : Nat) (s : State) : Nat × Nat :=
  (List.range n).foldl (fun a i =>
    let b := s.plugBytes (base + 64 * i) 64
    if (crc32c (slice b 0 0x38)).toNat = leAt b 0x3C 4 then a
    else (a.1 + 1, a.2 + (b.any fun x => x != 0).toNat)) (0, 0)

/-- JOURNAL_REBUILD (R476). -/
def rebuildWork (s : State) : State :=
  let (ji, jn) := s.invalidRecords journalBase 4096
  let (ci, cn) := s.invalidRecords custodyBase 2048
  let s := (s.put F.PEAT_REBUILD_JRNL_INVALID ji).put F.PEAT_REBUILD_CUST_INVALID ci
  let s := if jn + cn = 0 then s
    else s.raise { src := 0x13, kind := kCRC, cls := corrected, reason := 0x02,
                   detail := BitVec.ofNat 24 (min 4095 jn + 4096 * min 4095 cn) }
  let js := s.readJournal
  let own := BitVec.ofNat 8 s.address
  let cs := (List.range 2048).filterMap fun i => custodyRecord own i (s.plugBytes (custodyBase + 64 * i) 64)
  let mine (r : CRec) : Bool := r.item.epoch == s.node.ident.epoch
  let old := cs.filter fun r => !r.released && !mine r
  let order := (js.foldl (fun b r => newest 32 b r.order.toNat) none).map (· + 1)
  let seq := ((cs.filter mine).foldl (fun b r => newest 32 b r.item.seq.toNat) none).map nextSeq
  let awq := (sweepJournal js).map fun r => { r with again := r.applied && !r.spent }
  let cust := sweepCustody s.node.ident.epoch (cs.map fun r => if mine r then r else { r with ended := true, targets := [] })
  let (v, s) := if order.isNone then s.draw else (0, s)
  let s := s.modWork fun w =>
    { w with awq := awq, cust := cust, origins := originsOf js, orderNext := BitVec.ofNat 32 (order.getD v.toNat) }
  let s := s.put F.WRK_NEXT_SEQ_SEQUENCE (seq.getD 1)
  let s := s.each old fun r s => queuePeat (.released r.slot) s
  showWork (if old.isEmpty then s else wrkFault kCOMPAT 0x07 old.length s)

/-- K8 entry: the custody log resumes offering (R126). -/
def offerCustody (s : State) : State :=
  s.each (s.work.cust.filter fun r => r.committed && !r.ended) offerAll

/-! ## Registers -/

/-- A write of WRK.CR_CTL: EN from 0 to 1 clears WR and RD, as the edge log's EN does (R467, R244). -/
def writeCrCtl (v : Word) (s : State) : State :=
  let was := s.bit F.WRK_CR_CTL_EN
  let s := writePlain [F.WRK_CR_CTL_EN, F.WRK_CR_CTL_SIZE] v s
  if was = false ∧ s.bit F.WRK_CR_CTL_EN then (s.put F.WRK_CR_WR_WR 0).put F.WRK_CR_RD_RD 0 else s

/-- PEAT.STATUS: DRAINING stands through the PWRFAIL sequence and plug hold (Table 14-10). -/
def livePeat (off : Nat) (s : State) : Option Word :=
  if off = 0 then
    some (F.PEAT_STATUS_DRAINING.into (decide (s.node.pwr ≠ .none) || decide (s.node.phase = .hold)).toNat
      (s.reg 0x400A0000))
  else none

def writeWork (off : Nat) (v : Word) (s : State) : Option State :=
  let busy := s.get F.WRK_OR_STATUS_STATE = 1 ∨ s.get F.WRK_OR_STATUS_STATE = 2
  if off = 0x34 then some (writeOrCmd v s)
  else if off = 0xA0 then some (writeAbandon v s)
  else if off = 0x74 then some (writeCrCtl v s)
  else if off = 0x7C then some (s.put F.WRK_CR_RD_RD (F.WRK_CR_RD_RD.of v % s.crSize))
  else if 0x10 ≤ off ∧ off ≤ 0x30 ∧ busy then some s
  else none

end Sys2Proof.Machine
end

