-- ==== Sys2Proof/Machine/Apply.lean ====
section
/-! DEFINITION. Application of accepted items (14.6) and the work channel of a frame (R455–R457). -/

namespace Sys2Proof.Machine

/-! ## The head (R469, R470) -/

/-- The record to apply next: one to apply again first, then the oldest not applied; none while a mark is being written. -/
def State.head (s : State) : Option JRec :=
  if s.work.awq.any fun r => r.marking then none
  else match s.work.awq.find? fun r => r.again with
    | some r => some r
    | none => s.work.awq.find? fun r => r.committed && !r.applied

/-- The head's due key is within the horizon (R469). -/
def State.withinHorizon (r : JRec) (s : State) : Bool :=
  let i := r.item
  if r.again ∨ i.action = aVALUE ∨ i.action = aIMAGE then true
  else
    let c : Fin 64 := Fin.ofNat 64 i.channel.toNat
    if s.wheelDomain c then
      !s.predicting (s.chWheel c) || decide (s.revsAhead c (i.due.extractLsb' 32 32) ≤ s.get F.WRK_CFG_HREV)
    else
      let h := s.get F.WRK_CFG_HORIZON
      h == 0 || decide (i.due.toNat ≤ s.now.toNat + h * 536870912)

/-- The head may be tried: of action `a`, within its horizon, not held back by an earlier try. -/
def State.headReady (a : BitVec 8) (s : State) : Option JRec :=
  if s.bit F.WRK_HEAD_BLOCKED ∨ s.work.valueHeld then none
  else match s.head with
    | some r => if r.item.action = a ∧ s.withinHorizon r then some r else none
    | none => none

/-- The action has been carried out with list status `st`: Peat's mark follows; an item applied again needs none (R473). -/
def carriedOut (r : JRec) (st : Nat) (s : State) : State :=
  if r.again then modJournal r.slot (fun x => { x with again := false }) s
  else showWork (queuePeat (.applied r.slot) (modJournal r.slot (fun x => { x with marking := true, result := BitVec.ofNat 8 st }) s))

/-- The list has no room: the head is blocked (R470). -/
def blockHead (c : Fin 64) (s : State) : State :=
  let was := s.bit F.WRK_HEAD_BLOCKED
  let s := s.modWork fun w => { w with tryAt := s.cycles, tryCount := s.chan[c].list.length }
  if was then s
  else wrkFault kQUEUE_FULL 0x02 c.val ((s.put F.WRK_HEAD_BLOCKED 1).wrkEvent F.WRK_EVENT_HEAD_BLOCKED 4)

/-- List INSERT for the head. -/
def applyInsert (r : JRec) (s : State) : State :=
  let i := r.item
  let c : Fin 64 := Fin.ofNat 64 i.channel.toNat
  let (st, s) := listInsert c i.due i.arg0 i.arg1 s
  if st = lFULL then blockHead c s else carriedOut r st (s.put F.WRK_HEAD_BLOCKED 0)

/-- List CANCEL for the head. -/
def applyCancel (r : JRec) (s : State) : State :=
  let (st, s) := listCancel (Fin.ofNat 64 r.item.channel.toNat) r.item.arg1 s
  carriedOut r st s

/-- SET_VALUE for the head (R471). -/
def applyValue (r : JRec) (s : State) : State :=
  let i := r.item
  let a := s.get F.WRK_VAL_BASE_BASE / 16 * 16 + 16 * i.channel.toNat
  match s.spmWriteBlock 6 a [leBytes 8 i.arg2.toNat, leBytes 8 i.due.toNat] with
  | (.ok, s) =>
    let s := (s.put F.WRK_VAL_LAST_INDEX i.channel.toNat).wrkEvent F.WRK_EVENT_VALUE 3
    carriedOut r 0 (s.modWork fun w => { w with valueHeld := false })
  | (x, s) =>
    let s := s.modWork fun w => { w with valueHeld := true, tryAt := s.cycles }
    s.raise { src := 0x12, kind := if x = .off then kACCESS_OFF_BANK else kECC_UNCORR, cls := contained, reason := 0x05,
              detail := BitVec.ofNat 24 i.channel.toNat }

/-- CH_INSERT (R470). -/
def execChInsert (s : State) : Result :=
  actWhen s.working (fun s => match s.headReady aINSERT with
    | some r => applyInsert r s
    | none => s) s

/-- CH_CANCEL (R470). -/
def execChCancel (s : State) : Result :=
  actWhen s.working (fun s => match s.headReady aCANCEL with
    | some r => applyCancel r s
    | none => s) s

/-- SET_VALUE (R471). -/
def execSetValue (s : State) : Result :=
  actWhen s.working (fun s => match s.headReady aVALUE with
    | some r => applyValue r s
    | none => s) s

/-- HEAD_RETRY (R470, R471): the list's COUNT has fallen, or a millisecond has passed. -/
def execHeadRetry (s : State) : Result :=
  actWhen s.working (fun s => match s.head with
    | none => s
    | some r =>
      let ms := decide (s.work.tryAt + 536870 ≤ s.cycles)
      let count := s.chan[(Fin.ofNat 64 r.item.channel.toNat : Fin 64)].list.length
      if s.bit F.WRK_HEAD_BLOCKED ∧ (ms ∨ count < s.work.tryCount) then applyInsert r s
      else if s.work.valueHeld ∧ ms then applyValue r s
      else s) s

/-- SPENT (R475): the applied record in `slot` passes its time. -/
def execSpent (slot : Fin 4096) (s : State) : Result :=
  actWhen s.live (fun s => match s.work.awq.find? fun r => r.slot == slot.val && r.applied && !r.spent with
    | none => s
    | some r =>
      if (r.item.action = aINSERT ∨ r.item.action = aCANCEL) ∧ s.pastDue r.item then
        showWork (s.modWork fun w =>
          { w with awq := sweepJournal (w.awq.map fun x => if x.slot = r.slot then { x with spent := true, again := false } else x) })
      else s) s

/-- R473 at K8 entry: the records to apply again, in order, until one is held back. -/
def applyAgain : Nat → State → State
  | 0, s => s
  | k + 1, s => match s.head with
    | none => s
    | some r =>
      if !r.again ∨ s.bit F.WRK_HEAD_BLOCKED ∨ s.work.valueHeld then s
      else if r.item.action = aINSERT then applyAgain k (applyInsert r s)
      else if r.item.action = aCANCEL then applyAgain k (applyCancel r s)
      else if r.item.action = aVALUE then applyAgain k (applyValue r s)
      else applyAgain k (carriedOut r 0 s)

/-- REAPPLY. -/
def reapply (s : State) : State := applyAgain s.work.awq.length s

/-- WRK.HEAD: BLOCKED, WAITING, the head's channel; WRK.EPOCH. -/
def liveWork (off : Nat) (s : State) : Option Word :=
  if off = 0x48 then
    match s.head with
    | none => some (F.WRK_HEAD_BLOCKED.into (s.get F.WRK_HEAD_BLOCKED) 0)
    | some r =>
      let w := F.WRK_HEAD_CHANNEL.into r.item.channel.toNat 0
      let w := F.WRK_HEAD_WAITING.into (s.working && !s.withinHorizon r).toNat w
      some (F.WRK_HEAD_BLOCKED.into (s.get F.WRK_HEAD_BLOCKED) w)
  else if off = 0x4C then some (s.node.ident.epoch.zeroExtend 32)
  else none

/-! ## Image cells to insert (R164–R166) -/

/-- The lowest chunk of a set. -/
def firstChunk (m : BitVec 5462) (n : Nat) : Option Nat := (List.range n).find? fun k => m.getLsbD k

/-- Number of chunks of a copy's image. -/
def State.chunkCount (c : Bool) (s : State) : Nat := (s.copyLe c 0x68 4 + 47) / 48

/-- A CHUNK cell of copy `c` (Table 04-15). -/
def chunkCell (c : Bool) (k : Nat) (s : State) : List Byte :=
  let len := s.copyLe c 0x68 4
  let data := (List.range 48).map fun i => if 48 * k + i < len then byteAt (s.copyBytes c (0x40 + 48 * k + i) 1) 0 else 0
  workCell ([0x21, BitVec.ofNat 8 s.address] ++ beBytes 4 (s.imageSeq c) ++ beBytes 2 k ++ data)

/-- STAGE_LIMIT seconds have passed since the first OFFER of an image served from copy `c` (R166). -/
def State.limitOver (v : Serve) (c : Bool) (s : State) : Bool :=
  match v.firstAt with
  | some t => decide (t + s.copyLe c 0x7A 2 * 536870912 ≤ s.cycles)
  | none => false

/-- The next chunk of a round under way; none once STAGE_LIMIT has passed. -/
def takeRound (v : Serve) (c : Bool) (s : State) : Option (List Byte × Serve) :=
  if s.limitOver v c then none else (firstChunk v.round (s.chunkCount c)).map fun k => (chunkCell c k s, { v with round := v.round &&& ~~~(BitVec.twoPow 5462 k) })

/-- The next image cell: queued cells first, then a round's chunks. -/
def takeImage (s : State) : Option (List Byte) × State :=
  match s.work.images with
  | c :: l => (some c, s.modWork fun w => { w with images := l })
  | [] =>
    let first := match s.dist.serve with
      | some v => takeRound v s.inactive s
      | none => none
    match first with
    | some (c, v) => (some c, { s with dist := { s.dist with serve := some v } })
    | none => match s.dist.catchUp with
      | none => (none, s)
      | some v => match takeRound v s.selected s with
        | some (c, v) => (some c, { s with dist := { s.dist with catchUp := some v } })
        | none => (none, s)

/-! ## The work channel of a frame (R456) -/

/-- WRK.CFG.QUOTA in force. -/
def State.workQuota (s : State) : Nat := max 1 (min 16 (s.get F.WRK_CFG_QUOTA))

def imageCell (t : Byte) : Bool := decide (0x20 ≤ t.toNat) && decide (t.toNat ≤ 0x23)

/-- The work engine takes this cell addressed to it (R457). -/
def State.takes (c : List Byte) (s : State) : Bool :=
  let t := byteAt c 0
  s.working && cellTo c == s.address && (t == cOFFER || t == cQUERY ||
    (t == cREPORT && s.work.cust.any fun r => r.committed && !r.released && r.item.epoch == cellEpoch c && r.item.seq == cellSeq c))

/-- CELL_CRC, the first per second. -/
def workCrcFault (injected : Bool) (s : State) : State :=
  if s.work.cellRaised then s
  else (s.modWork fun w => { w with cellRaised := true }).raise
    { src := 0x12, kind := kCRC, cls := corrected, reason := 0x04, injected := injected }

/-- An OFFER goes onto the ring: its time counts for the QUERY that may follow. -/
def noteOffered (c : List Byte) (s : State) : State :=
  let mark (r : CRec) : CRec :=
    if r.item.seq = cellSeq c then
      { r with targets := r.targets.map fun t => if t.node = cellTo c then { t with offerAt := s.cycles } else t }
    else r
  s.modWork fun w => { w with cust := w.cust.map mark }

/-- The head of the first non-empty queue; `images` image cells have been inserted in this frame. -/
def takeWorkCell (images : Nat) (s : State) : Option (List Byte) × Nat × State :=
  match s.work.reports with
  | c :: l => (some c, images, s.modWork fun w => { w with reports := l })
  | [] => match s.work.queries with
    | c :: l => (some c, images, s.modWork fun w => { w with queries := l })
    | [] => match s.work.offers with
      | c :: l => (some c, images, noteOffered c (s.modWork fun w => { w with offers := l }))
      | [] =>
        if 16 ≤ images then (none, images, s)
        else match takeImage s with
          | (some c, s) => (some c, images + 1, s)
          | (none, s) => (none, images, s)

def emptyCell : List Byte := List.replicate 64 0

/-- An image cell is read as it passes (R164). -/
def noteImage (c : List Byte) (s : State) : State := { s with dist := { s.dist with inbox := s.dist.inbox ++ [c] } }

/-- What becomes of a cell received in its position, whether the node freed the position, and the state after it (R455, R457). -/
def passCell (dir : Nat) (c : List Byte) (s : State) : List Byte × Bool × State :=
  let t := byteAt c 0
  let known := t == cOFFER || t == cREPORT || t == cQUERY || imageCell t
  let (inj, s) := if t = 0 then (0, s) else s.inject 0x0B dir
  if t = 0 then (emptyCell, false, s)
  else if !crcBeOk 60 c || !known || inj != 0 then
    (emptyCell, false, workCrcFault (inj != 0) (s.count F.WRK_CNT_A_CELL_CRC 1))
  else if cellFrom c = s.address then (emptyCell, true, s)
  else if s.takes c then (emptyCell, true, s.modWork fun w => { w with inbox := w.inbox ++ [c] })
  else
    let s := if imageCell t ∧ s.working then noteImage c s else s
    let h := byteAt c 59 + 1
    if h = 255 then (emptyCell, false, s.count F.WRK_CNT_A_HOPS_EXPIRED 1)
    else (workCell (slice c 0 59 ++ [h]), false, s)

/-- One position of the work channel in direction `dir`: the cell sent, credit and image cells after it. -/
def workCellStep (dir : Nat) (inserts : Bool) (credit images : Nat) (c : List Byte) (s : State) :
    List Byte × Nat × Nat × State :=
  let (out, freed, s) := passCell dir c s
  if byteAt out 0 = 0 ∧ freed = false ∧ 0 < credit ∧ inserts then
    match takeWorkCell images s with
    | (none, images, s) => (out, credit, images, s)
    | (some x, images, s) => (workCell (slice x 0 59), credit - 1, images, s.count F.WRK_CNT_D_INSERTED 1)
  else (out, credit, images, s)

/-- The positions in order. -/
def workCellsFrom (dir : Nat) (inserts : Bool) : Nat → Nat → List (List Byte) → State → List Byte × State
  | _, _, [], s => ([], s)
  | credit, images, c :: l, s =>
    let (c, credit, images, s) := workCellStep dir inserts credit images c s
    let (rest, s) := workCellsFrom dir inserts credit images l s
    (c ++ rest, s)

/-- The work channel of a frame built in direction `dir` (WORK_CELL). -/
def workCells (dir : Nat) (inserts : Bool) (cells : List (List Byte)) (s : State) : List Byte × State :=
  workCellsFrom dir inserts s.workQuota 0 cells s

end Sys2Proof.Machine
end

