-- ==== Sys2Proof/Machine/ChannelRun.lean ====
section
/-! DEFINITION. What channels do at their times (06.5–06.7): due entries, HV entries, periods; control and
configuration writes (06.2, Table 06-11). -/

namespace Sys2Proof.Machine

/-! ## PULSE and PWM (R232, R233) -/

/-- The greatest high time up to `h` that keeps both parts of a period 0 or long enough, and the least from `h` on (R233). -/
def highBounds (least period h : Nat) : Nat × Nat :=
  let room := 2 * least ≤ period
  (if room ∧ least ≤ h then min h (period - least) else 0,
   if h = 0 then 0 else if room ∧ h ≤ period - least then max h least else period)

/-- The nearest high time that keeps both parts of the period 0 or long enough; between two equally near, a
free one of them. -/
def fitHigh (least period h : Nat) (s : State) : Nat × State :=
  let b := highBounds least period h
  if period ≤ h then (period, s)
  else if h - b.1 < b.2 - h ∨ b.1 = b.2 then (b.1, s)
  else if b.2 - h < h - b.1 then (b.2, s)
  else
    let (d, s) := s.draw
    (if d.getLsbD 0 then b.2 else b.1, s)

/-- PARAM in PWM mode: the high time for argument `arg`. -/
def pwmHigh (c : Fin 64) (period arg : Nat) (s : State) : Nat × State :=
  let a := arg % 2 ^ 17
  if 0x10000 ≤ a then (period, s) else fitHigh (minTime c) period (period * a / 65536) s

/-- A period begins with the values in force from here, and the PARAM waiting for it. -/
def periodValues (c : Fin 64) (shadow : Bool) (s : State) : State :=
  let s := if shadow then
      s.modC c fun x => { x with period := s.get (F.CH_CFG1_V c), high := s.get (F.CH_CFG2_V c), update := false }
    else s
  match s.chan[c].newHigh with
  | none => s
  | some a =>
    let (h, s) := pwmHigh c s.chan[c].period a s
    s.modC c fun x => { x with high := h, newHigh := none }

/-- START at fire time `fire`. -/
def startWave (c : Fin 64) (arg fire : Nat) (s : State) : State :=
  let s := periodValues c true s
  let x := s.chan[c]
  let due := s.cycles + x.period - (s.now.toNat - fire)
  let count := if s.mode c = mPULSE then arg else 0
  (s.modC c fun x => { x with wave := some ⟨x.period, x.high, due, count⟩, hiz := false, newCount := none }).putBit
    (F.CH_STATUS_LEVEL c) (decide (x.high ≠ 0))

/-- The end of a period: the next one begins, or the pulse train has delivered its count. -/
def periodEnd (c : Fin 64) (v : Wave) (s : State) : State :=
  let left := match s.chan[c].newCount with
    | some n => some n
    | none => if v.count = 0 then some 0 else if v.count = 1 then none else some (v.count - 1)
  let s := s.modC c fun x => { x with newCount := none }
  match left with
  | none => (s.modC c fun x => { x with wave := none }).putBit (F.CH_STATUS_LEVEL c) false |>.chEvent c 4
  | some n =>
    let s := periodValues c s.chan[c].update s
    s.modC c fun x => { x with wave := some ⟨x.period, x.high, v.due + x.period, n⟩ }

/-- PERIOD_BOUNDARY (R232). -/
def execPeriodBoundary (c : Fin 64) (s : State) : Result :=
  actWhen (s.chRuns c) (fun s => match s.chan[c].wave with
    | none => s
    | some v => if s.cycles < v.due then s else periodEnd c v s) s

/-! ## Actions (Table 06-7) -/

/-- SNAP (R240). -/
def snapAction (c : Fin 64) (fire : Nat) (s : State) : State :=
  let v := if s.mode c = mCOUNT then s.chan[c].counter
    else if s.mode c = mPERIOD ∨ s.mode c = mDUTY then s.reg (0x40020030 + 0x100 * c)
    else s.chan[c].edges
  let s := ((s.put (F.CH_SNAP_LO_SNAP c) fire).put (F.CH_SNAP_HI_SNAP c) (fire / 2 ^ 32)).put (F.CH_SNAPV_VALUE c) v.toNat
  if s.mode c = mCOUNT then s.put (F.CH_RES1_RES1 c) 0 else s

def setLevel (c : Fin 64) (b hiz : Bool) (s : State) : State :=
  (s.modC c fun x => { x with hiz := hiz }).putBit (F.CH_STATUS_LEVEL c) b

/-- The action of an entry on a channel whose terminal the logic side drives. -/
def performAction (c : Fin 64) (e : Entry) (fire : Nat) (s : State) : State :=
  match e.op with
  | 1 => setLevel c false false s
  | 2 => setLevel c true false s
  | 3 => setLevel c (!s.bit (F.CH_STATUS_LEVEL c)) false s
  | 4 => setLevel c false true s
  | 5 => s.modC c fun x => if s.mode c = mPULSE then { x with newCount := some e.arg } else { x with newHigh := some e.arg }
  | 6 => startWave c e.arg fire s
  | 7 => setLevel c (e.arg % 2 == 1) false (s.modC c fun x => { x with wave := none })
  | 8 => snapAction c fire s
  | _ => s

/-- An executed entry's count and events (R211, R219). -/
def entryDone (c : Fin 64) (e : Entry) (late : Bool) (s : State) : State :=
  let s := s.when late fun s => (s.count (F.CH_CNT_A_LATE c) 1).chEvent c 1
  s.when (e.action.getLsbD 6) (State.chEvent c 0)

def State.isLate (e : Entry) (at_ : Nat) (s : State) : Bool := e.behind || decide (at_ + 32 < s.now.toNat)

/-! ## Due entries (R218–R223) -/

/-- The head's SECDED check (R245), injection included: false where it fails beyond correction. -/
def checkHead (c : Fin 64) (e : Entry) (s : State) : Bool × State :=
  let (n, s) := s.inject 0x04 c
  if n = 0 ∧ !e.bad then (true, s)
  else if n = 1 ∧ !e.bad then (true, chanFault kECC_CORR corrected 0x01 c true s)
  else
    let s := s.modC c fun x => { x with list := match x.list with
      | h :: l => { h with bad := true } :: l
      | [] => [] }
    (false, chanFault kECC_UNCORR contained 0x02 c (n != 0) (disableChan c s))

/-- Execute the due entries of a channel 0–47 or 60–63, in list order. -/
def runDue (c : Fin 64) : Nat → State → State
  | 0, s => s
  | k + 1, s => match s.chan[c].list with
    | [] => s
    | e :: l => match s.fireOf c e with
      | none => s
      | some f =>
        if s.now.toNat < f.toNat then s
        else match checkHead c e s with
          | (false, s) => s
          | (true, s) =>
            let late := s.isLate e f.toNat
            runDue c k (setList c l (entryDone c e late (performAction c e f.toNat s)))

/-- An entry of an HV channel leaves the list. -/
def dropEntry (c : Fin 64) (e : Entry) (s : State) : State :=
  setList c (s.chan[c].list.filter fun x => decide (x.tag ≠ e.tag)) s

/-- Fallback (R228): SET_NOW at the gate time, if the HV path is in use then. -/
def hvFallback (c : Fin 64) (e : Entry) (s : State) : State :=
  let b := 2 ^ (c.val - 48)
  let s := s.when s.hvPath (sendSetNow b (if e.level then b else 0) .setNow)
  let s := (s.count (F.CH_CNT_B_HV_FALLBACK c) 1).chEvent c 8
  chanFault kTIMEOUT corrected 0x03 c false (entryDone c e true s)

/-- One HV entry at its time: a MARK executes; a level entry takes LEVEL at its gate (R230), then leaves when no
frame path exists (R229), by fallback (R228), or with its HV_EVENT. A SCHEDULE that fails after its entry has begun
leads to the fallback too (DEDUCED, log entry 105). -/
def hvDue (c : Fin 64) (x : Entry × Option Nat) (s : State) : State :=
  let e := x.1
  if e.mark then match s.fireOf c e with
    | some f => if f.toNat ≤ s.now.toNat then dropEntry c e (entryDone c e (s.isLate e f.toNat) s) else s
    | none => s
  else match x.2 with
    | none => s
    | some g =>
      if s.now.toNat < g then s
      else
        let s := if e.done then s else
          (s.modEntry c e.tag fun y => { y with done := true, begun := true, gate := some (BitVec.ofNat 64 g) }).putBit
            (F.CH_STATUS_LEVEL c) e.level
        if e.fwd = .sent then s
        else if e.fall || s.hvPath then dropEntry c e (hvFallback c e s)
        else dropEntry c e (entryDone c e (s.isLate e g) s)

/-- DUE_KEY (R218): every due entry of channel `c` executes, in list order. -/
def execDueKey (c : Fin 64) (s : State) : Result :=
  actWhen (s.chRuns c) (fun s =>
    if isHv c then
      match s.chan[c].list with
      | [] => s
      | e :: _ => match checkHead c e s with
        | (false, s) => s
        | (true, s) => s.each (s.gates c) (hvDue c)
    else runDue c 32 s) s

/-! ## HV entries (R225–R230) -/

/-- HV_ENTRY_BEGIN (R227, R228): entries within 100 µs of their gate are fixed, and those not forwarded, refused or
failed at this moment are to be carried out by fallback. -/
def execHvEntryBegin (c : Fin 64) (s : State) : Result :=
  actWhen (s.chRuns c && isHv c) (fun s =>
    s.each (s.gates c) fun x s => match x.2 with
      | some g =>
        if g ≤ s.now.toNat + beginUnits ∧ x.1.begun = false then
          s.modEntry c x.1.tag fun y => { y with
            begun := true, fixed := true, fall := y.fwd != .sent && s.hvPath, gate := some (BitVec.ofNat 64 g) }
        else s
      | none => s) s

/-- The lead of an HV channel, in units (R225). -/
def State.lead (c : Fin 64) (s : State) : Nat := usUnits (min 10000 (max 250 (s.get (F.CH_CFG1_V c) % 65536)))

/-- Forwarding takes place: not during a handshake, nor while one is due (R225, R92, R229). -/
def State.forwarding (s : State) : Bool := s.hvPath && s.inK8 && s.bar.step == .idle && !s.bar.again

/-- Forward one entry: its compensation and gate are taken now (R226). -/
def forwardEntry (c : Fin 64) (e : Entry) (g : Nat) (s : State) : State :=
  let k := s.compOf c e
  let s := s.modEntry c e.tag fun y =>
    { y with comp := some k, gate := some (BitVec.ofNat 64 g), fwd := .sent }
  sendSchedule c e.level (BitVec.ofNat 64 g) e.tag s

/-- FORWARD (R225): the first entry not forwarded, when its gate is within the lead, 250 µs away or more (R95), and
fewer than four are forwarded. -/
def execForward (c : Fin 64) (s : State) : Result :=
  actWhen (s.chRuns c && isHv c && s.forwarding) (fun s =>
    let sent := (s.chan[c].list.filter fun e => e.fwd == .sent).length
    match (s.gates c).find? fun x => !x.1.mark && x.1.fwd == .no && !s.hasBegun c x.1 x.2 with
    | some (e, some g) => if sent < 4 ∧ g ≤ s.now.toNat + s.lead c ∧ s.leadOk g then forwardEntry c e g s else s
    | _ => s) s

/-- An HV_EVENT for output `c - 48` with a forwarded entry's tag: the entry leaves (R230), unless it failed its check and is
kept (R245). -/
def hvReported (c : Fin 64) (tag : Word) (late : Bool) (s : State) : State :=
  match s.tagged c tag with
  | none => s
  | some (e, _) =>
    if e.bad ∨ e.fwd ≠ .sent then s
    else
    let s := if e.done then s else s.putBit (F.CH_STATUS_LEVEL c) e.level
    dropEntry c e (entryDone c e (late || e.behind) s)

/-- The link is down: forwarded entries count as never forwarded (R229). -/
def unforward (s : State) : State :=
  s.each ((List.finRange 64).filter isHv) fun c s => s.modC c fun x =>
    { x with list := x.list.map Entry.unforwarded }

/-! ## CH.CTL (R206) -/

/-- A write of CH.CTL (R206). -/
def writeChanCtl (c : Fin 64) (v : Word) (s : State) : State :=
  let n (f : Field) : Nat := f.of v
  let changes := n (F.CH_CTL_MODE c) != s.mode c || n (F.CH_CTL_DOMAIN c) != s.get (F.CH_CTL_DOMAIN c) ||
    n (F.CH_CTL_WHEEL c) != s.get (F.CH_CTL_WHEEL c)
  let refused := changes && (s.chEn c || !s.chan[c].list.isEmpty)
  let s := if refused then s.put (F.CH_STATUS_CFG_REFUSED c) 1
    else s.when changes (fun s => s.modC c fun x => { x with wave := none }) |> fun s => ((s.put (F.CH_CTL_MODE c) (n (F.CH_CTL_MODE c))).put (F.CH_CTL_DOMAIN c) (n (F.CH_CTL_DOMAIN c))).put
      (F.CH_CTL_WHEEL c) (n (F.CH_CTL_WHEEL c))
  let s := s.put (F.CH_CTL_FAIL_LEVEL c) (n (F.CH_CTL_FAIL_LEVEL c))
  let s := if c.val < 48 then s.put (F.CH_CTL_FAIL_HIZ c) (n (F.CH_CTL_FAIL_HIZ c)) else s
  let s := s.when (n (F.CH_CTL_FLUSH c) == 1) (flushList c)
  let (ok, s) := if n (F.CH_CTL_EN c) = 1 then tryEnable c s else (true, if s.chEn c then disableChan c s else s)
  if refused || !ok then s else (s.put (F.CH_STATUS_CFG_REFUSED c) 0).put (F.CH_STATUS_CFG_BAD c) 0

/-- CHANNEL_ENABLE (R206): a write of CH.CTL. -/
def execChannelEnable (c : Fin 64) (v : Word) (s : State) : Result := actWhen s.clocked (writeChanCtl c v) s

/-- FLUSH (R214). -/
def execFlush (c : Fin 64) (s : State) : Result := actWhen s.clocked (flushList c) s

/-! ## Configuration registers (Table 06-11) -/

/-- A write of CFG`i`: the bits reserved in the mode ignore it (R7). -/
def writeChanCfg (c : Fin 64) (i : Nat) (v : Word) (s : State) : State :=
  let m := s.mode c
  if m = mEDGELOG ∧ s.chEn c ∧ (i = 1 ∨ i = 2) then s.put (F.CH_STATUS_CFG_REFUSED c) 1
  else
    let s := if i = 3 ∧ waveMode m then (if v.getLsbD 0 then s.modC c fun x => { x with update := true } else s)
      else
        let a := 0x40020010 + 0x100 * c + 4 * i
        s.putReg a ((s.reg a &&& ~~~cfgMask c m i) ||| (v &&& cfgMask c m i))
    if i = 0 ∧ m ≠ mPATTERN then s.modC c fun x => { x with inverted := s.bit (F.CH_CFG0_INVERT c) } else s

/-- A write of CH.ELOG_RD: reduced modulo the size of the log. -/
def writeLogRd (c : Fin 64) (v : Word) (s : State) : State :=
  let h := s.logHeld c
  logChanged c h (s.put (F.CH_ELOG_RD_RD c) (v.toNat % 4096 % 2 ^ (s.get (F.CH_CFG2_V c) % 16)))

end Sys2Proof.Machine
end

