-- ==== Sys2Proof/Machine/ChannelIo.lean ====
section
/-! DEFINITION. Pattern groups (06.8), input modes and the edge log (06.9, 06.10), the live registers of the channel
window. -/

namespace Sys2Proof.Machine

/-! ## Pattern groups (R234–R239) -/

def State.setGrp (g : Fin 3) (x : Group) (s : State) : State := { s with grp := s.grp.set g x }

def State.modGrp (g : Fin 3) (f : Group → Group) (s : State) : State := s.setGrp g (f s.grp[g])

def State.pgEn (g : Fin 3) (s : State) : Bool := s.bit (F.PG_CFG_EN g)

/-- Channel 16g, which carries the group's events. -/
def groupChan (g : Fin 3) : Fin 64 := Fin.ofNat 64 (16 * g.val)

/-- The sixteen channels of a group. -/
def groupChans (g : Fin 3) : List (Fin 64) := (List.range 16).map fun k => Fin.ofNat 64 (16 * g.val + k)

/-- The shadow configuration is valid (R235). -/
def State.shadowOk (g : Fin 3) (s : State) : Bool :=
  let d := s.get (F.PG_CFG_DEPTH g)
  d % 2 == 0 && decide (2 ≤ d) && decide (d ≤ 16) && decide ((if g.val < 2 then 16 else 26844) ≤ s.get (F.PG_T0_T0 g))

/-- A frame boundary: channels join or leave, INVERT takes effect (R238). -/
def frameBoundary (g : Fin 3) (s : State) : State :=
  s.each (groupChans g) fun c s =>
    let p := s.mode c == mPATTERN
    s.modC c fun x => { x with joined := p && s.chEn c, inverted := if p then s.bit (F.CH_CFG0_INVERT c) else x.inverted }

/-- The FIFO is now `l`: PLANES_LOW when it falls to its low-water mark. -/
def setFifo (g : Fin 3) (l : List (BitVec 16)) (s : State) : State :=
  let x := s.grp[g]
  (s.setGrp g { x with fifo := l }).when (decide (x.lowWater < x.fifo.length ∧ l.length ≤ x.lowWater))
    (State.chEvent (groupChan g) 11)

/-- A pending configuration takes effect: the FIFO is discarded and counted (R238). -/
def applyConfig (g : Fin 3) (s : State) : State :=
  let s := s.count (F.PG_CNT_DISCARDED g) s.grp[g].fifo.length
  let s := setFifo g [] s
  let s := s.modGrp g fun x => { x with
    depth := s.get (F.PG_CFG_DEPTH g), lowWater := s.get (F.PG_CFG_LOW_WATER g), t0 := s.get (F.PG_T0_T0 g),
    pending := false, fresh := true }
  s.chEvent (groupChan g) 10

/-- Show the next plane from time `from_`. -/
def takePlane (g : Fin 3) (from_ : Nat) (s : State) : State :=
  let x := s.grp[g]
  match x.fifo with
  | [] => s
  | p :: l =>
    let n := if x.started && !x.fresh then (x.plane + 1) % x.depth else 0
    let s := if x.started then s else frameBoundary g s
    setFifo g l (s.modGrp g fun y =>
      { y with shown := p, plane := n, due := from_ + x.t0 * 2 ^ n, holding := false, started := true, fresh := false })

/-- A shifter that waits for a plane takes one as soon as there is one (R238, R239); with no configuration in
force none is shown. -/
def wakeShifter (g : Fin 3) (s : State) : State :=
  let x := s.grp[g]
  if s.listsRun ∧ s.pgEn g ∧ x.depth ≠ 0 ∧ (x.started = false ∨ x.holding) then takePlane g (s.cycles) s else s

/-- A write of PG.PLANES that finds no room waits for it, if its master can (R236). -/
def State.planesWait (g : Nat) (s : State) : Bool :=
  if h : g < 3 then !s.grp[g].pending && decide (30 < s.grp[g].fifo.length) else false

/-- A write of PG.PLANES: two planes pushed, or discarded (R236). -/
def writePlanes (g : Fin 3) (v : Word) (s : State) : State :=
  let x := s.grp[g]
  if x.pending ∨ 30 < x.fifo.length then
    chanFault kQUEUE_FULL corrected 0x05 g false (s.count (F.PG_CNT_DISCARDED g) 2)
  else wakeShifter g (s.setGrp g { x with fifo := x.fifo ++ [v.extractLsb' 0 16, v.extractLsb' 16 16] })

/-- APPLY: with no frame in progress the boundary is at once. -/
def requestApply (g : Fin 3) (s : State) : State :=
  if !s.shadowOk g then s
  else
    let s := s.modGrp g fun x => { x with pending := true }
    if s.grp[g].started then s else applyConfig g s

/-- A write of PG.CFG. -/
def writePgCfg (g : Fin 3) (v : Word) (s : State) : State :=
  let was := s.pgEn g
  let s := writePlainFields [F.PG_CFG_EN g, F.PG_CFG_LOW_WATER g, F.PG_CFG_DEPTH g] v s
  let s := if s.pgEn g ∧ !was then wakeShifter g (s.modGrp g fun x => { x with started := false })
    else if !s.pgEn g ∧ was then
      let s := s.modGrp g fun x => { x with started := false, holding := true, plane := 0 }
      if s.grp[g].pending then applyConfig g s else s
    else s
  s.when ((F.PG_CFG_APPLY g).of v == 1) (requestApply g)
where
  writePlainFields (fs : List Field) (v : Word) (s : State) : State := s.each fs fun f => State.put f (f.of v)

/-- APPLY (R238). -/
def execApply (g : Fin 3) (s : State) : Result := actWhen s.clocked (requestApply g) s

/-- PLANES_WRITE (R236) by a master that does not wait. -/
def execPlanesWrite (g : Fin 3) (v : Word) (s : State) : Result := actWhen s.clocked (writePlanes g v) s

/-- The end of the plane being shown (R237–R239). -/
def planeEnd (g : Fin 3) (s : State) : State :=
  let x := s.grp[g]
  let s := if x.plane + 1 = x.depth then
      frameBoundary g (if x.pending then applyConfig g s else s)
    else s
  if s.grp[g].fifo.isEmpty then
    ((s.modGrp g fun y => { y with holding := true }).count (F.PG_CNT_UNDERRUN g) 1).chEvent (groupChan g) 9
  else takePlane g x.due s

/-- PLANE_BOUNDARY (R237). -/
def execPlaneBoundary (g : Fin 3) (s : State) : Result :=
  actWhen (s.listsRun && s.pgEn g) (fun s =>
    let x := s.grp[g]
    if x.started ∧ x.holding = false ∧ x.due ≤ s.cycles then planeEnd g s else s) s

/-! ## Input modes (R240–R242) -/

/-- The edge is of the kind EDGE selects; DUTY ignores EDGE. -/
def State.qualified (c : Fin 64) (level : Bool) (s : State) : Bool :=
  s.mode c == mDUTY ||
  (match s.get (F.CH_CFG0_EDGE c) with
    | 0 => level
    | 1 => !level
    | _ => true)

/-- A result at edge time `t`: registers, EDGE, and OVERRUN over a result unread (R242). -/
def chanResult (c : Fin 64) (t : SysTime) (r0 r1 : Nat) (edge : Bool) (s : State) : State :=
  let lost := edge && (s.get (F.CH_EVENT_EV c)).testBit 5
  let s := ((s.put (F.CH_CAP_LO_CAP c) t.toNat).put (F.CH_CAP_HI_CAP c) (t.toNat / 2 ^ 32))
  let s := (s.put (F.CH_RES0_RES0 c) r0).put (F.CH_RES1_RES1 c) r1
  let s := s.when lost fun s => (s.count (F.CH_CNT_B_LOST c) 1).chEvent c 6
  s.when edge (State.chEvent c 5)

/-- A difference of edge times in units, saturating. -/
def since (t : SysTime) : Option SysTime → Nat
  | none => 0
  | some p => min (t - p).toNat 0xFFFFFFFF

/-- A record of the edge log (R243, R244). -/
def logEdge (c : Fin 64) (t : SysTime) (level : Bool) (s : State) : State :=
  let n := 2 ^ (s.get (F.CH_CFG2_V c) % 16)
  let wr := s.get (F.CH_ELOG_WR_WR c)
  if (wr + 1) % n = s.get (F.CH_ELOG_RD_RD c) then (s.count (F.CH_CNT_B_LOST c) 1).chEvent c 6
  else
    let rec_ := t.toNat / 2 * 2 + level.toNat
    match s.spmWrite 5 (s.get (F.CH_CFG1_V c) + 8 * wr) 8 rec_ with
    | (.ok, s) =>
      let h := s.logHeld c
      logChanged c h (s.put (F.CH_ELOG_WR_WR c) ((wr + 1) % n))
    | (_, s) => disableChan c (chanFault kACCESS_OFF_BANK contained 0x04 c false s)

/-- An edge of a wheel's own channel ends a wide tooth and dates none. -/
def State.endsTooth (w : Fin 8) (level : Bool) (s : State) : Bool :=
  (s.pattern w).feature == 3 && s.source w == 1 && !level

/-- The teeth that wait at a wheel; index edges and the ends of wide teeth are none. -/
def State.teethWaiting (w : Fin 8) (s : State) : Nat :=
  (s.whl[w].inbox.filter fun x => !x.index && !s.endsTooth w x.level).length

/-- A tooth or index edge reaches the wheels that name channel `c` (R241, R249, R254): each queues up to 8 teeth. -/
def feedWheels (c : Fin 64) (t : SysTime) (level : Bool) (s : State) : State :=
  s.each (List.finRange 8) fun w s =>
    let push (index : Bool) : State :=
      s.modW w fun x => { x with inbox := x.inbox ++ [⟨t, false, level, index⟩] }
    if s.whl[w].sync = .off then s
    else if s.source w = 1 ∧ s.get (F.WHL_CTL_SRC_CH w) = c.val then
      if s.endsTooth w level ∨ s.teethWaiting w < 8 then push false else s
    else if (s.pattern w).sync = 1 ∧ (F.WHL_CFG0_INDEX_CH w).of (s.whlCfg0 w) = c.val then push true
    else s

/-- What a qualified edge does in the channel's mode (Table 06-12). -/
def modeEdge (c : Fin 64) (t : SysTime) (level : Bool) (s : State) : State :=
  let m := s.mode c
  let n := s.chan[c].edges + 1
  let s := s.modC c fun x => { x with edges := n }
  if m = mCAPTURE then chanResult c t n.toNat level.toNat true s
  else if m = mPERIOD then
    let prev := s.chan[c].prevEdge
    chanResult c t (since t prev) n.toNat true (s.modC c fun x => { x with prevEdge := some t })
  else if m = mDUTY then
    let x := s.chan[c]
    if !level then s.modC c fun x => { x with fallAt := some t }
    else
      let s := s.modC c fun x => { x with riseAt := some t, fallAt := none }
      match x.riseAt with
      | none => s
      | some r =>
        let high := match x.fallAt with
          | some f => since f (some r)
          | none => since t (some r)
        chanResult c t high (since t (some r)) true s
  else if m = mCOUNT then
    let k := s.chan[c].counter + 1
    let hit := s.get (F.CH_CFG1_V c) == k.toNat && (s.get (F.CH_CFG2_V c)).testBit 0
    let s := chanResult c t k.toNat (s.get (F.CH_RES1_RES1 c) + 1) hit s
    s.modC c fun x => { x with counter := if hit && (s.get (F.CH_CFG2_V c)).testBit 1 then 0 else k }
  else if m = mTOOTH then feedWheels c t level (chanResult c t n.toNat 0 true s)
  else if m = mEDGELOG then logEdge c t level (s.chEvent c 5)
  else s

/-- A filtered edge of an input channel: its level, and its mode's results when it qualifies. -/
def takeEdge (c : Fin 64) (level : Bool) (t : SysTime) (s : State) : State :=
  if !s.chRuns c || !inputMode (s.mode c) then s
  else
    let s := s.putBit (F.CH_STATUS_LEVEL c) level
    s.when (s.qualified c level) (modeEdge c t level)

/-- EDGE (R240): channel `c` (0–47) accepts an edge to `level`, dated `t`. -/
def execEdge (c : Fin 64) (level : Bool) (t : SysTime) (s : State) : Result :=
  actWhen (decide (c.val < 48)) (takeEdge c level t) s

/-! ## Live registers -/

def liveChan (off : Nat) (s : State) : Option Word :=
  let num (n : Nat) : Option Word := some (BitVec.ofNat 32 n)
  if off < 0x4000 then
    let c : Fin 64 := Fin.ofNat 64 (off / 0x100)
    let x := s.chan[c]
    let head := x.list.head?
    let of (f : Entry → Nat) : Option Word := num ((head.map f).getD 0)
    let fire (e : Entry) : Nat :=
      match ((s.gates c).head?).bind Prod.snd with
      | some g => if isHv c then g else ((s.fireOf c e).map BitVec.toNat).getD 0
      | none => ((s.fireOf c e).map BitVec.toNat).getD 0
    match off % 0x100 with
    | 0x04 =>
      let w := s.reg (0x40020004 + 0x100 * c)
      let w := (F.CH_STATUS_COUNT c).into x.list.length ((F.CH_STATUS_AT_FAIL c).into (s.atFail c).toNat w)
      let is (f : Entry → Bool) : Nat := ((head.map f).getD false).toNat
      let w := (F.CH_STATUS_HEAD_WAIT c).into (is fun e => (s.fireOf c e).isNone) w
      let w := (F.CH_STATUS_HEAD_FIXED c).into (is fun e => e.fixed || e.begun) w
      let w := (F.CH_STATUS_HEAD_BEGUN c).into (is fun e => s.hasBegun c e (((s.gates c).head?).bind Prod.snd)) w
      let w := (F.CH_STATUS_HEAD_BAD c).into (is Entry.bad) w
      let w := (F.CH_STATUS_RUNNING c).into x.wave.isSome.toNat w
      some ((F.CH_STATUS_ACTIVE c).into (s.listsRun && s.chEn c).toNat w)
    | 0x10 => some (s.reg (0x40020000 + off) &&& cfgMask c (s.mode c) 0)
    | 0x14 => some (s.reg (0x40020000 + off) &&& cfgMask c (s.mode c) 1)
    | 0x18 => some (s.reg (0x40020000 + off) &&& cfgMask c (s.mode c) 2)
    | 0x1C => some (s.reg (0x40020000 + off) &&& cfgMask c (s.mode c) 3)
    | 0x44 => of fun e => e.key.toNat
    | 0x48 => of fun e => e.key.toNat / 2 ^ 32
    | 0x4C => of fun e => e.action.toNat
    | 0x50 => of fun e => e.tag.toNat
    | 0x54 => of fire
    | 0x58 => of fun e => fire e / 2 ^ 32
    | _ => none
  else if off < 0x4008 then
    let lo := 32 * ((off - 0x4000) / 4)
    num ((List.range 32).foldl (fun w i =>
      if s.reg (0x40020008 + 0x100 * (lo + i)) &&& s.reg (0x4002000C + 0x100 * (lo + i)) ≠ 0 then w + 2 ^ i else w) 0)
  else if 0x4020 ≤ off ∧ off < 0x4080 then
    let g : Fin 3 := Fin.ofNat 3 ((off - 0x4020) / 0x20)
    let x := s.grp[g]
    match off % 0x20 with
    | 0x00 => some ((F.PG_CFG_DEPTH g).into x.depth ((F.PG_CFG_LOW_WATER g).into x.lowWater (s.reg (0x40020000 + off))))
    | 0x04 => num x.t0
    | 0x0C => num ((if x.fifo.length = 32 then 2 ^ 12 else x.fifo.length) + 2 ^ 11 * x.pending.toNat +
        2 ^ 10 * x.holding.toNat + 2 ^ 5 * x.plane)
    | _ => none
  else none

/-- Writes of the channel window with an effect of their own. -/
def writeChan (off : Nat) (v : Word) (s : State) : Option State :=
  if off < 0x4000 then
    let c : Fin 64 := Fin.ofNat 64 (off / 0x100)
    match off % 0x100 with
    | 0x00 => some (writeChanCtl c v s)
    | 0x10 => some (writeChanCfg c 0 v s)
    | 0x14 => some (writeChanCfg c 1 v s)
    | 0x18 => some (writeChanCfg c 2 v s)
    | 0x1C => some (writeChanCfg c 3 v s)
    | 0x60 => some (writeLogRd c v s)
    | _ => none
  else if 0x4020 ≤ off ∧ off < 0x4080 then
    let g : Fin 3 := Fin.ofNat 3 ((off - 0x4020) / 0x20)
    match off % 0x20 with
    | 0x00 => some (writePgCfg g v s)
    | 0x08 => some (writePlanes g v s)
    | _ => none
  else none

/-! ## The node's phases (R208) -/

/-- K8 entry: every channel whose MODE is not OFF is enabled under the checks of R206. -/
def chanK8 (s : State) : State :=
  s.each (List.finRange 64) fun c s => if s.mode c = 0 then s else (tryEnable c s).2

end Sys2Proof.Machine
end

