-- ==== Sys2Proof/Machine/WheelStep.lean ====
section
/-! DEFINITION. What wheels do (07.2–07.7, 07.10): teeth, synchronisation, synthetic teeth, phase units, control
writes, live registers. -/

namespace Sys2Proof.Machine

def State.whEvent (w : Fin 8) (b : Nat) (s : State) : State := s.event (F.WHL_EVENT_EV w) (F.WHL_IEN_EN w) b (64 + w)

def wheelFault (kind : BitVec 5) (cls : BitVec 2) (reason : BitVec 8) (w : Fin 8) (injected : Bool) (s : State) : State :=
  s.raise { src := 0x09, kind := kind, cls := cls, reason := reason, detail := detail3 w, injected := injected }

/-- The wheel leaves SYNCED (R253): predictions stop (R222). -/
def leaveSynced (w : Fin 8) (s : State) : State :=
  if s.whl[w].sync ≠ .synced then s
  else
    let s := fixHeads w (s.modW w fun x => { x with left := true })
    let s := (s.whEvent w 1).count (F.WHL_CNT_B_LOST w) 1
    wheelFault kLOSS_OF_SYNC corrected 0x01 w false s

def goTo (w : Fin 8) (y : Sync) (s : State) : State := (leaveSynced w s).modW w fun x => { x with sync := y }

/-- The wheel starts looking for its reference: nothing it held counts any more. -/
def seek (w : Fin 8) (s : State) : State := (goTo w .seeking s).modW w fun x => { x with hist := [], confirmed := 0 }

def enterSynced (w : Fin 8) (s : State) : State :=
  ((s.modW w fun x => { x with sync := .synced, left := false }).put (F.WHL_STATUS_ERRS w) 0).whEvent w 0

/-! ## Recognising the reference (R254) -/

/-- The gap test of the missing feature: g / g₋₁ within (m + 1) ± T. -/
def gapMissing (m tol g g1 : Nat) : Bool :=
  decide (((256 * g : Nat) - (256 * (m + 1) * g1 : Nat) : Int).natAbs ≤ tol * g1) && decide (0 < g1)

/-- The gap test of the extra feature. -/
def gapExtra (tol g g1 g2 : Nat) : Bool :=
  decide (256 * g1 ≤ (192 + tol) * g2) && decide (256 * g ≤ (192 + tol) * g2) &&
  decide (((256 * (g + g1) : Nat) - (256 * g2 : Nat) : Int).natAbs ≤ tol * g2) && decide (0 < g2)

/-- The width test: h / h₋₁ within WIDTH/16 × (1 ± T). -/
def gapWide (width tol h h1 : Nat) : Bool :=
  decide (((4096 * h : Nat) - (256 * width * h1 : Nat) : Int).natAbs ≤ width * tol * h1) && decide (0 < h1)

def State.tol (w : Fin 8) (s : State) : Nat := (F.WHL_CFG3_TOL w).of s.whl[w].cfg3

/-- The width of this tooth is the wide tooth's. -/
def State.wideOk (w : Fin 8) (t : ToothIn) (s : State) : Bool :=
  gapWide (s.pattern w).width (s.tol w) t.width ((s.whl[w].raw[0]?).map Prod.snd |>.getD 0)

/-- The reference test of the wheel's method passes at this tooth; with GAP and an extra tooth it is the tooth
before that is the reference. -/
def State.refTest (w : Fin 8) (t : ToothIn) (s : State) : Bool :=
  let p := s.pattern w
  let raw := s.whl[w].raw
  let gap (i : Nat) : Nat :=
    let a := if i = 0 then some t.time else (raw[i - 1]?).map Prod.fst
    match a, (raw[i]?).map Prod.fst with
    | some a, some b => (a - b).toNat
    | _, _ => 0
  match p.sync with
  | 2 => t.flag
  | 1 => t.indexed
  | _ => match p.feature with
    | 1 => decide (3 ≤ raw.length) && gapExtra (s.tol w) (gap 0) (gap 1) (gap 2)
    | 2 => decide (2 ≤ raw.length) && gapMissing p.missing (s.tol w) (gap 0) (gap 1)
    | 3 => s.wideOk w t
    | _ => false

/-- The revolution count a recognised reference takes (R255), and whether it is an estimate. -/
def State.refRev (w : Fin 8) (t : SysTime) (s : State) : Word × Bool :=
  let x := s.whl[w]
  let rev := BitVec.ofNat 32 (s.get (F.WHL_REV_REV w))
  if !x.left || x.fresh then (rev, false)
  else match x.lastRef with
    | none => (rev, false)
    | some (t0, r0) =>
      if x.lastPeriod = 0 then (r0 + 1, true)
      else
        let n := (Frac.div (.ofInt (timeDiff t t0)) (.ofInt x.lastPeriod)).round
        if 2 ^ 30 < n then (r0 + 1, true) else (r0 + BitVec.ofInt 32 (max 1 n), true)

/-! ## Matched teeth -/

/-- A phase unit's sample at a matched tooth of wheel A (R263, R264). -/
def phaseSample (u : Fin 4) (n : Matched) (s : State) : State :=
  let b : Fin 8 := Fin.ofNat 8 (s.get (F.PH_CFG_B u))
  if !s.predicting b then s
  else match s.positionAt b n.time with
    | none => s.count (F.PH_COUNT_MISSED u) 1
    | some (p, d) =>
      let mul : Nat := max 1 (s.get (F.PH_CFG_MUL u))
      let exact := (Frac.ofInt ((n.pos.toNat : Int) - (mul * p.toNat : Nat))).sub ((Frac.ofInt mul).mul d)
      let phi : BitVec 20 := BitVec.ofInt 20 exact.floor
      let old : BitVec 20 := BitVec.ofNat 20 (s.get (F.PH_FILT_FILT u))
      let first := !s.ph[u].primed
      let filt : BitVec 20 := if first then phi else old + (phi - old).sshiftRight (s.get (F.PH_CFG_FILTER u))
      let lo := (BitVec.ofNat 16 (s.get (F.PH_WIN_LO u))).toInt * 16
      let hi := (BitVec.ofNat 16 (s.get (F.PH_WIN_HI u))).toInt * 16
      let inside := decide (hi < lo) || (decide (lo ≤ filt.toInt) && decide (filt.toInt ≤ hi))
      let out := !inside && (first || s.ph[u].inside)
      let q : BitVec 16 := phi.extractLsb' 4 16
      let mn : BitVec 16 := BitVec.ofNat 16 (s.get (F.PH_MINMAX_MIN u))
      let mx : BitVec 16 := BitVec.ofNat 16 (s.get (F.PH_MINMAX_MAX u))
      let s := (s.put (F.PH_RAW_PHI u) (phi.signExtend 32).toNat).put (F.PH_FILT_FILT u) (filt.signExtend 32).toNat
      let s := s.put (F.PH_MINMAX_MIN u) (if q.slt mn then q else mn).toNat
      let s := s.put (F.PH_MINMAX_MAX u) (if mx.slt q then q else mx).toNat
      let s := { s.count (F.PH_COUNT_SAMPLES u) 1 with ph := s.ph.set u ⟨true, inside⟩ }
      s.when out (State.whEvent (Fin.ofNat 8 (s.get (F.PH_CFG_A u))) 8)

/-- What the running phase units whose wheel A is `w` do. -/
def phaseUnits (w : Fin 8) (f : Fin 4 → State → State) (s : State) : State :=
  s.each (List.finRange 4) fun u s =>
    if s.bit (F.PH_CFG_EN u) ∧ s.get (F.PH_CFG_A u) = w.val then f u s else s

/-- Samples of the phase units whose wheel A is `w`. -/
def phaseSamples (w : Fin 8) (n : Matched) (s : State) : State :=
  if !s.predicting w then s else phaseUnits w (fun u => phaseSample u n) s

/-- A tooth of wheel A that arrives while B is not PREDICTING is missed (R263). -/
def phaseMissed (w : Fin 8) (s : State) : State :=
  phaseUnits w (fun u s =>
    if s.predicting (Fin.ofNat 8 (s.get (F.PH_CFG_B u))) then s else s.count (F.PH_COUNT_MISSED u) 1) s

/-- A tooth takes its place in the history: revolution count, REV and MARK. -/
def pushMatched (w : Fin 8) (n : Matched) (s : State) : State :=
  let rev := posRev n.pos
  let advanced := s.get (F.WHL_REV_REV w) != rev.toNat
  let s := s.modW w fun x => { x with hist := (n :: x.hist).take 128 }
  let s := ((s.put (F.WHL_TOOTH_LO_TIME w) n.time.toNat).put (F.WHL_TOOTH_HI_TIME w) (n.time.toNat / 2 ^ 32)).put
    (F.WHL_TOOTH_POS_INDEX w) n.index |>.put (F.WHL_TOOTH_POS_ANGLE w) (posAngle n.pos)
  let s := (s.put (F.WHL_REV_REV w) rev.toNat).when advanced (State.whEvent w 3)
  let c6 := s.whl[w].cfg6
  let mark := (F.WHL_CFG6_MARK_EN w).of c6 == 1 && decide ((F.WHL_CFG6_MARK_ANGLE w).of c6 ≤ posAngle n.pos) &&
    s.whl[w].markRev != some rev
  s.when mark fun s => (s.modW w fun x => { x with markRev := some rev }).whEvent w 4

/-- A reference is recognised in SEEKING: PROVISIONAL, or SYNCED where none need confirm it. -/
def recognised (w : Fin 8) (t : ToothIn) (s : State) : State :=
  let p := s.pattern w
  let teeth := s.teeth w
  let viaPrev := p.sync == 0 && p.feature == 1
  let tRef := if viaPrev then ((s.whl[w].raw.head?).map Prod.fst).getD t.time else t.time
  let (rev, est) := s.refRev w tRef
  let s := s.when est (State.put (F.WHL_STATUS_REV_EST w) 1)
  let n : Matched := ⟨tRef, posOf rev (s.toothAngle w p.refIndex), p.refIndex⟩
  let s := s.modW w fun x =>
    { x with hist := [], fresh := false, confirmed := 0, passed := false, sync := .provisional }
  let s := pushMatched w n s
  let s := if (F.WHL_CFG3_CONFIRM w).of s.whl[w].cfg3 = 0
    then enterSynced w (s.modW w fun x => { x with lastRef := some (n.time, rev) }) else s
  let s := phaseSamples w n s
  if !viaPrev then s
  else match nextTooth teeth n.pos with
    | none => s
    | some (q, i) =>
      let m : Matched := ⟨t.time, q, i⟩
      phaseSamples w m (pushMatched w m s)

/-- A tooth error (R256). -/
def toothError (w : Fin 8) (s : State) : State :=
  let s := (s.count (F.WHL_CNT_A_TOOTH_ERR w) 1).whEvent w 5
  match s.whl[w].sync with
  | .provisional => seek w s
  | .synced =>
    let s := s.count (F.WHL_STATUS_ERRS w) 1
    if (F.WHL_CFG3_ERR_LIMIT w).of s.whl[w].cfg3 ≤ s.get (F.WHL_STATUS_ERRS w) then seek w s else s
  | _ => s

/-- The candidate a tooth matches, with how many present teeth it passes over (R256); where one tooth alone is held there is
no speed to extrapolate with, and it matches the first. -/
def State.matchTooth (w : Fin 8) (t : SysTime) (s : State) : Option (BitVec 52 × Nat × Nat) :=
  let teeth := s.teeth w
  match s.whl[w].hist with
  | [] => none
  | n :: _ =>
    let theta := s.extrapolate w t
    let rec go : Nat → Nat → BitVec 52 → Option (BitVec 52 × Nat × Nat)
      | 0, _, _ => none
      | k + 1, skipped, prev => match nextTooth teeth prev with
        | none => none
        | some (q, i) => match theta with
          | none => some (q, i, skipped)
          | some th =>
            let off := ((Frac.ofInt (posDiff q n.pos)).sub th).abs
            if off.le ⟨s.tol w * posDiff q prev, 256⟩ then some (q, i, skipped) else go k (skipped + 1) q
    go ((F.WHL_CFG3_MAX_SKIP w).of s.whl[w].cfg3 + 1) 0 n.pos

/-- An index edge came within the pitch before the present tooth that `k` others are passed over for (R256). -/
def State.indexInPitch (w : Fin 8) (t : ToothIn) (k : Nat) (s : State) : Bool :=
  match t.edge, s.whl[w].hist with
  | some e, n :: _ =>
    let before := posDiff (passTeeth (s.teeth w) k n.pos) n.pos
    decide (e.toNat ≤ t.time.toNat) &&
    (match s.extrapolate w e with
      | some d => (Frac.ofInt before).le d
      | none => decide (n.time.toNat ≤ e.toNat))
  | _, _ => false

/-- A tooth that matches index `i`, `k` present teeth passed over, fails its method at the reference, or carries a flag or
passes the reference test elsewhere (R256). With GAP and an extra tooth the test speaks of the tooth before. -/
def State.wrongTooth (w : Fin 8) (t : ToothIn) (i k : Nat) (s : State) : Bool :=
  let p := s.pattern w
  let isRef := i == p.refIndex
  let viaPrev := p.sync == 0 && p.feature == 1
  let prevRef := ((s.whl[w].hist.head?).map Matched.index) == some p.refIndex
  if isRef then
    (p.sync == 2 && !t.flag) || (p.sync == 1 && !s.indexInPitch w t k) || (p.feature == 3 && !s.wideOk w t) ||
    (viaPrev && s.refTest w t && !prevRef)
  else t.flag || (s.refTest w t && !(viaPrev && prevRef))

/-- A tooth in PROVISIONAL or SYNCED. -/
def matched (w : Fin 8) (t : ToothIn) (s : State) : State :=
  match s.matchTooth w t.time with
  | none => toothError w s
  | some (q, i, skipped) =>
    let p := s.pattern w
    let isRef := i == p.refIndex
    if s.wrongTooth w t i skipped then toothError w s
    else
      let s := s.count (F.WHL_CNT_A_SKIPPED w) skipped
      let n : Matched := ⟨t.time, q, i⟩
      let s := pushMatched w n s
      let passed := s.whl[w].passed || decide (0 < skipped)
      let s := s.modW w fun x => { x with passed := if isRef then false else passed }
      let s := if !isRef then s
        else if s.whl[w].sync = .synced then
          (s.put (F.WHL_STATUS_ERRS w) (s.get (F.WHL_STATUS_ERRS w) - 1)).modW w fun x =>
            { x with lastRef := some (n.time, posRev q) }
        else if passed then s
        else
          let k := s.whl[w].confirmed + 1
          let s := s.modW w fun x => { x with confirmed := k }
          if (F.WHL_CFG3_CONFIRM w).of s.whl[w].cfg3 ≤ k
          then enterSynced w (s.modW w fun x => { x with lastRef := some (n.time, posRev q) }) else s
      phaseSamples w n s

/-! ## A tooth (R249) -/

/-- The wheel holds new CFG3–CFG6 from this tooth on (R248). -/
def takeConfig (w : Fin 8) (s : State) : State :=
  s.modW w fun x => { x with
    cfg3 := s.reg (0x4003001C + 0x100 * w), cfg4 := s.reg (0x40030020 + 0x100 * w),
    cfg5 := s.reg (0x40030024 + 0x100 * w), cfg6 := s.reg (0x40030028 + 0x100 * w) }

/-- The first tooth of R260 is consumed: SYNCED, whatever the state; a REF flag on it off the reference is a tooth error. -/
def startSynced (w : Fin 8) (t : ToothIn) (i : Nat) (rev : Word) (s : State) : State :=
  let n : Matched := ⟨t.time, posOf rev (s.toothAngle w i), i⟩
  let isRef := i == (s.pattern w).refIndex
  if t.flag && !isRef then toothError w s
  else
  let s := s.modW w fun x => { x with hist := [], fresh := false, left := false, passed := false,
                                      lastRef := if isRef then some (t.time, rev) else x.lastRef }
  let s := if s.whl[w].sync == Sync.synced then s else enterSynced w s
  phaseSamples w n (pushMatched w n s)

/-- What a tooth does in each sync state (Table 07-5). -/
def toothByState (w : Fin 8) (t : ToothIn) (start : Option (Nat × Word)) (s : State) : State :=
  match start, s.whl[w].sync with
  | some (i, rev), _ => startSynced w t i rev s
  | none, .seeking => if s.refTest w t then recognised w t s else s
  | none, _ => matched w t s

/-- A tooth less than 1 µs after the one processed before it is a tooth error. -/
def State.tooClose (w : Fin 8) (t : SysTime) (s : State) : Bool :=
  match s.whl[w].raw with
  | (p, _) :: _ => decide (timeDiff t p * 1000000 < 536870912)
  | [] => false

/-- Process one complete tooth. `start`: the position R260 gives it. -/
def processTooth (w : Fin 8) (t : ToothIn) (start : Option (Nat × Word)) (s : State) : State :=
  if s.tooClose w t.time then
    phaseMissed w (toothError w (s.modW w fun x => { x with indexed := x.indexed || t.indexed }))
  else
    let s := takeConfig w s
    let s : State := if s.whl[w].sync = .stopped then s.modW w fun x => { x with sync := .seeking } else s
    let s : State := toothByState w t start s
    let s := s.modW w fun x => { x with raw := ((t.time, t.width) :: x.raw).take 3, seen := s.now }
    let s := if s.predicting w then s.modW w fun x => { x with lastPeriod := s.revTime w } else s
    armHeads w (phaseMissed w s)

/-- A tooth dated now takes the index edge that came before it. -/
def State.toothIn (w : Fin 8) (time : SysTime) (flag : Bool) (s : State) : ToothIn :=
  ⟨time, flag, 0, s.whl[w].indexed, s.whl[w].indexAt⟩

def clearIndexed (w : Fin 8) (s : State) : State := s.modW w fun y => { y with indexed := false }

/-- What reaches the wheel: an index edge, a tooth, or, on a wide-tooth wheel, the edge that dates a tooth (to
level 1) and the one that ends it. -/
def takeInput (w : Fin 8) (x : WheelIn) (s : State) : State :=
  if x.index then s.modW w fun y => { y with indexed := true, indexAt := some x.time }
  else if (s.pattern w).feature = 3 ∧ s.source w = 1 then
    if x.level then clearIndexed w (s.modW w fun y => { y with open_ := some (s.toothIn w x.time false) })
    else match s.whl[w].open_ with
      | none => s
      | some o =>
        processTooth w { o with width := (x.time - o.time).toNat } none (s.modW w fun y => { y with open_ := none })
  else processTooth w (s.toothIn w x.time x.flag) none (clearIndexed w s)

/-- A queued synthetic tooth is consumed; FIFO_LOW when the FIFO falls to its low-water mark. -/
def takeSynthetic (w : Fin 8) (t : SynTooth) (l : List SynTooth) (s : State) : State :=
  let s := processTooth w (s.toothIn w t.time t.ref) t.start (clearIndexed w (s.modW w fun x => { x with fifo := l }))
  s.when (l.length == s.get (F.WHL_FIFO_CFG_LOW_WATER w)) (State.whEvent w 6)

/-- The FIFO is emptied: FIFO_LOW where it held more than its low-water mark. -/
def dropFifo (w : Fin 8) (s : State) : State :=
  let fell := decide (s.get (F.WHL_FIFO_CFG_LOW_WATER w) < s.whl[w].fifo.length)
  (s.modW w fun x => { x with fifo := [] }).when fell (State.whEvent w 6)

/-- The SECDED check of the wheel's memory (R269): false where it fails beyond correction. -/
def checkWheel (w : Fin 8) (s : State) : Bool × State :=
  let (n, s) := s.inject 0x05 w
  if n = 0 then (true, s)
  else if n = 1 then (true, wheelFault kECC_CORR corrected 0x04 w true s)
  else
    let s := seek w (dropFifo w (s.modW w fun x => { x with raw := [] }))
    (false, wheelFault kECC_UNCORR contained 0x05 w true s)

/-- TOOTH (R249): wheel `w` processes the next tooth that has reached it. -/
def execTooth (w : Fin 8) (s : State) : Result :=
  actWhen (s.live && s.whl[w].sync != .off) (fun s =>
    match s.whl[w].inbox with
    | x :: l => match checkWheel w (s.modW w fun y => { y with inbox := l }) with
      | (true, s) => takeInput w x s
      | (false, s) => s
    | [] => match s.synthetic w, s.whl[w].fifo with
      | true, t :: l =>
        if s.now.toNat < t.time.toNat then s
        else match checkWheel w s with
          | (true, s) => takeSynthetic w t l s
          | (false, s) => s
      | _, _ => s) s

/-- STALL (R253): no tooth for CFG4 × 2^10 units. -/
def execStall (w : Fin 8) (s : State) : Result :=
  actWhen (s.live && s.whl[w].sync != .off && s.whl[w].sync != .stopped &&
      decide (s.whl[w].seen.toNat + (F.WHL_CFG4_STALL w).of s.whl[w].cfg4 * 2 ^ 10 ≤ s.now.toNat))
    (fun s => ((goTo w .stopped s).modW w fun x => { x with hist := [], raw := [], open_ := none }).whEvent w 2) s

/-! ## Synthetic FIFO (R250, R260) -/

/-- The result of a write of a wheel register: a refused one sets CFG_REFUSED; one carried out in full clears it
and CFG_BAD. -/
def wheelWritten (w : Fin 8) (refused bad : Bool) (s : State) : State :=
  if refused then s.put (F.WHL_STATUS_CFG_REFUSED w) 1
  else if bad then s
  else (s.put (F.WHL_STATUS_CFG_REFUSED w) 0).put (F.WHL_STATUS_CFG_BAD w) 0

/-- A refused push. -/
def rejectPush (w : Fin 8) (s : State) : State :=
  wheelFault kPROTOCOL corrected 0x02 w false ((s.count (F.WHL_CNT_B_FIFO_REJECT w) 1).whEvent w 7)

/-- A write of SYN_HI: the pair is queued as one tooth. -/
def pushSynthetic (w : Fin 8) (hi : Word) (s : State) : State :=
  let x := s.whl[w]
  let t : SysTime := hi ++ (x.synLo &&& 0xFFFFFFFE)
  let p := s.pattern w
  let startValid := p.sync == 2 && s.bit (F.WHL_FIFO_CFG_START_VALID w)
  let idx := s.get (F.WHL_FIFO_CFG_START_INDEX w)
  let idxOk := match p.table with
    | some tb => decide (idx < s.get (F.TBL_COUNT_COUNT tb))
    | none => decide (idx < p.n)
  let after (l : List SynTooth) : Bool := match l.getLast? with
    | some y => decide (y.time.toNat < t.toNat)
    | none => true
  if s.source w ≠ 2 ∨ 1024 ≤ x.fifo.length ∨ after x.fifo = false ∨ t.toNat ≤ s.now.toNat + 2 ^ 10 ∨
      (startValid ∧ idxOk = false) then rejectPush w s
  else
    let start := if startValid then some (idx, BitVec.ofNat 32 (s.get (F.WHL_REV_REV w))) else none
    let s := s.when startValid (State.put (F.WHL_FIFO_CFG_START_VALID w) 0)
    wheelWritten w false false (s.modW w fun x => { x with fifo := x.fifo ++ [⟨t, x.synLo.getLsbD 0, start⟩] })

/-- SYNTHETIC_TOOTH_PUSH (R250): a write of SYN_HI. -/
def execSyntheticToothPush (w : Fin 8) (hi : Word) (s : State) : Result := actWhen s.clocked (pushSynthetic w hi) s

/-- Discard every queued tooth; a head whose bracket goes keeps its fire time (R262). -/
def flushFifo (w : Fin 8) (s : State) : State :=
  armHeads w (dropFifo w s)

/-- FIFO_FLUSH (R250). -/
def execFifoFlush (w : Fin 8) (s : State) : Result := actWhen s.clocked (flushFifo w) s

def resync (w : Fin 8) (s : State) : State := if s.whl[w].sync = .off then s else seek w s

/-- RESYNC (R253). -/
def execResync (w : Fin 8) (s : State) : Result := actWhen s.clocked (resync w) s

/-! ## Control (R248, R251, R257, R261) -/

/-- The checks of Tables 07-4, 07-7 and 07-10. -/
def State.wheelEnableOk (w : Fin 8) (s : State) : Bool :=
  let p := s.pattern w
  let src := s.source w
  let tol := s.get (F.WHL_CFG3_TOL w)
  let regular := p.table.isNone
  let extraOk := (List.range p.n).any fun k =>
    let d := (p.extra + 2 ^ 20 - p.angle k) % 2 ^ 20
    decide (2 ^ 20 ≤ 4 * p.n * d) && decide (4 * p.n * d ≤ 3 * 2 ^ 20)
  src != 3 &&
  (match p.sync with
    | 0 => regular && p.feature != 0
    | 1 =>
      let ic := (F.WHL_CFG0_INDEX_CH w).of (s.whlCfg0 w)
      decide (ic < 48) && ic != s.get (F.WHL_CTL_SRC_CH w)
    | 2 => src == 0 || src == 2
    | _ => false) &&
  (match p.table with
    | some t => s.tableValid t
    | none => decide (2 ≤ p.n) && decide (p.n ≤ 1024) &&
      (match p.feature with
        | 1 => extraOk && (p.sync != 0 || decide (tol ≤ 48))
        | 2 => decide (1 ≤ p.missing) && decide (p.missing + 2 ≤ p.n)
        | 3 => src == 1 && decide (24 ≤ p.width) && decide (p.width ≤ 64) &&
            decide (16 * (256 + tol) < p.width * (256 - tol))
        | _ => true)) &&
  decide (s.get (F.WHL_CFG3_CONFIRM w) ≤ 8) && s.bit (F.WHL_CFG3_ERR_LIMIT w) &&
  decide (1 ≤ s.get (F.WHL_CFG3_SPAN w)) && decide (s.get (F.WHL_CFG3_SPAN w) ≤ 64) &&
  decide (8 ≤ tol) && decide (tol ≤ 102) && s.bit (F.WHL_CFG4_STALL w) &&
  decide (1 ≤ s.get (F.WHL_CFG5_ARM w)) && decide (s.get (F.WHL_CFG5_ARM w) ≤ 2 ^ 31)

/-- EN is asked for: STOPPED, with nothing held. -/
def tryEnableWheel (w : Fin 8) (s : State) : Bool × State :=
  if s.bit (F.WHL_CTL_EN w) then (true, s)
  else if !s.wheelEnableOk w then (false, s.put (F.WHL_STATUS_CFG_BAD w) 1)
  else
    let s := ((s.put (F.WHL_CTL_EN w) 1).put (F.WHL_STATUS_REV_EST w) 0).put (F.WHL_STATUS_ERRS w) 0
    let s := s.modW w fun x => { x with
      sync := .stopped, inbox := [], hist := [], raw := [], open_ := none, indexed := false, indexAt := none, confirmed := 0,
      passed := false, seen := s.now, fresh := true, lastRef := none, lastPeriod := 0, left := false,
      markRev := none }
    (true, (takeConfig w s).whEvent w 2)

def disableWheel (w : Fin 8) (s : State) : State :=
  (goTo w .off (s.put (F.WHL_CTL_EN w) 0)).modW w fun x => { x with inbox := [], hist := [], raw := [] }

/-- Set a list of fields from a written word. -/
def setFields (fs : List Field) (v : Word) (s : State) : State := s.each fs fun f => State.put f (f.of v)

/-- A write of WHL.CTL. -/
def writeWheelCtl (w : Fin 8) (v : Word) (s : State) : State :=
  let fs := [F.WHL_CTL_SOURCE w, F.WHL_CTL_SRC_CH w, F.WHL_CTL_PATTERN w, F.WHL_CTL_TABLE w]
  let fixed := decide (w.val < 3)
  let changes := fs.any fun f => f.of v != s.get f
  let en := s.bit (F.WHL_CTL_EN w)
  let badSource := !fixed && (F.WHL_CTL_SOURCE w).of v == 0 && (F.WHL_CTL_SOURCE w).of v != s.get (F.WHL_CTL_SOURCE w)
  let refused := !fixed && ((changes && en) || badSource)
  let s := if fixed || en then s
    else setFields (if badSource then fs.drop 1 else fs) v s
  let s := s.when ((F.WHL_CTL_FIFO_FLUSH w).of v == 1) (flushFifo w)
  let s := s.when ((F.WHL_CTL_RESYNC w).of v == 1) (resync w)
  let (ok, s) := if (F.WHL_CTL_EN w).of v = 1 then tryEnableWheel w s
    else (true, if en then disableWheel w s else s)
  wheelWritten w refused (!ok) s

/-- WHEEL_ENABLE (R248): a write of WHL.CTL. -/
def execWheelEnable (w : Fin 8) (v : Word) (s : State) : Result := actWhen s.clocked (writeWheelCtl w v) s

/-- A write of CFG`i`: CFG0–CFG2 are fixed on the mains wheels, and held while EN is 1. -/
def writeWheelCfg (w : Fin 8) (i : Nat) (v : Word) (s : State) : State :=
  let a := 0x40030010 + 0x100 * w.val + 4 * i
  let mask : Word := match i with | 0 => 0x00FFF7FF | 1 => 0x000FFFFF | 2 => 0x0FFFFFFF | 3 => 0x0FFF7FFF | 6 => 0x800FFFFF | _ => 0xFFFFFFFF
  if i < 3 then
    if w.val < 3 then s
    else if s.bit (F.WHL_CTL_EN w) ∧ s.reg a ≠ v &&& mask then wheelWritten w true false s
    else wheelWritten w false false (s.putReg a (v &&& mask))
  else wheelWritten w false false (s.putReg a (v &&& mask))

/-- A write of WHL.REV: only while EN is 0. -/
def writeWheelRev (w : Fin 8) (v : Word) (s : State) : State :=
  if s.bit (F.WHL_CTL_EN w) then wheelWritten w true false s
  else wheelWritten w false false (s.put (F.WHL_REV_REV w) v.toNat)

/-- A write to tooth table `t`: not performed while an enabled wheel uses the table (R252). -/
def writeTable (t a : Nat) (v : Word) (s : State) : State :=
  let used := (List.finRange 8).any fun (w : Fin 8) => s.bit (F.WHL_CTL_EN w) && (s.pattern w).table == some t
  if used then s.raise { src := 0x09, kind := kPROTOCOL, cls := corrected, reason := 0x00, detail := detail3 t, injected := false }
  else s.putReg a (v &&& (if a < 0x40034000 then 0x3FF else 0xFFFFF))

/-- A write of PH.CFG, which writes A, B and MUL, restarts the filter at the next sample (R263). -/
def writePhCfg (u : Fin 4) (v : Word) (s : State) : State :=
  let fs := [F.PH_CFG_EN u, F.PH_CFG_FILTER u, F.PH_CFG_MUL u, F.PH_CFG_B u, F.PH_CFG_A u]
  let s := setFields fs v s
  { s with ph := s.ph.set u ⟨false, true⟩ }

/-! ## Live registers and writes -/

def liveWheel (off : Nat) (s : State) : Option Word :=
  let num (n : Nat) : Option Word := some (BitVec.ofNat 32 n)
  if off < 0x800 then
    let w : Fin 8 := Fin.ofNat 8 (off / 0x100)
    let x := s.whl[w]
    let open_ : BitVec 64 := Config.freeValue s.free
    let pos : BitVec 52 := (s.position w s.now).getD (open_.extractLsb' 0 52)
    let period : Nat := if !s.predicting w then 0
      else match s.motion w with
        | none => open_.toNat
        | some _ => s.revTime w
    match off % 0x100 with
    | 0x04 =>
      let code := match x.sync with | .off => 0 | .stopped => 1 | .seeking => 2 | .provisional => 3 | .synced => 4
      let st := (F.WHL_STATUS_FILL w).into x.fifo.length (s.reg (0x40030004 + 0x100 * w))
      some ((F.WHL_STATUS_PREDICTING w).into (s.predicting w).toNat ((F.WHL_STATUS_SYNC w).into code st))
    | 0x10 => some (s.whlCfg0 w)
    | 0x14 => some (s.whlCfg1 w)
    | 0x18 => some (s.whlCfg2 w)
    | 0x30 => num (if s.predicting w then 2 ^ 31 + posAngle pos else 0)
    | 0x34 => some (if s.predicting w then posRev pos else 0)
    | 0x44 => num period
    | 0x48 => num (period / 2 ^ 32)
    | _ => none
  else none

def writeWheel (off : Nat) (v : Word) (s : State) : Option State :=
  if off < 0x800 then
    let w : Fin 8 := Fin.ofNat 8 (off / 0x100)
    match off % 0x100 with
    | 0x00 => some (writeWheelCtl w v s)
    | 0x08 => some (wheelWritten w false false (writePlain [F.WHL_EVENT_EV w] v s))
    | 0x0C => some (wheelWritten w false false (writePlain [F.WHL_IEN_EN w] v s))
    | 0x54 => some (wheelWritten w false false (writePlain
        [F.WHL_FIFO_CFG_START_VALID w, F.WHL_FIFO_CFG_START_INDEX w, F.WHL_FIFO_CFG_LOW_WATER w] v s))
    | 0x10 => some (writeWheelCfg w 0 v s)
    | 0x14 => some (writeWheelCfg w 1 v s)
    | 0x18 => some (writeWheelCfg w 2 v s)
    | 0x1C => some (writeWheelCfg w 3 v s)
    | 0x20 => some (writeWheelCfg w 4 v s)
    | 0x24 => some (writeWheelCfg w 5 v s)
    | 0x28 => some (writeWheelCfg w 6 v s)
    | 0x2C => some (writeWheelRev w v s)
    | 0x4C => some (wheelWritten w false false (s.modW w fun x => { x with synLo := v }))
    | 0x50 => some (pushSynthetic w v s)
    | _ => none
  else if off < 0x880 ∧ off % 0x20 = 0 then some (writePhCfg (Fin.ofNat 4 ((off - 0x800) / 0x20)) v s)
  else if 0x900 ≤ off ∧ off < 0x920 then some (writeTable ((off - 0x900) / 4) (0x40030000 + off) v s)
  else if 0x4000 ≤ off ∧ off < 0x8000 then some (writeTable ((off - 0x4000) / 0x800) (0x40030000 + off) v s)
  else none

/-- HEAD_ARMING (R262): the periodic check of a wheel-domain channel's head. -/
def execHeadArming (c : Fin 64) (s : State) : Result := actWhen (s.wheelDomain c && s.live) (armHead c) s

/-- K8 entry: every wheel whose SOURCE is not 3 is enabled under the checks of R248. -/
def wheelK8 (s : State) : State :=
  s.each (List.finRange 8) fun w s => if s.source w = 3 then s else (tryEnableWheel w s).2

end Sys2Proof.Machine
end

