-- ==== Sys2Proof/Machine/BarrierUp.lean ====
section
/-! DEFINITION. What the logic side does with the link: the handshake (R81), completions (R91), UP frames (Table 02-6),
retries and time-outs (R90, R92), the mailbox (R93). -/

namespace Sys2Proof.Machine

/-! ## The handshake -/

/-- HELLO: node address, run level, the first SEQ used after it. -/
def sendHello (s : State) : State :=
  let s := s.setBar { s.bar with step := .hello, configBad := false, again := false }
  barSend tHELLO ([BitVec.ofNat 8 (s.get F.IDENT_CODES_ADDRESS), BitVec.ofNat 8 (s.get F.IDENT_MODULE_RUN_LEVEL)] ++
    leBytes 2 (s.bar.nextSeq + 1).toNat) .handshake s

/-- The CONFIG items of Table 04-10: outputs 0–11, then inputs 0–3. -/
def State.configItem (i : Nat) (s : State) : List Byte :=
  let x := (s.chan[48 + i]?).getD Chan.reset
  if i < 12 then [0x01, BitVec.ofNat 8 i, x.link] ++ leBytes 2 x.nomOperate.toNat ++ leBytes 2 x.nomRelease.toNat
  else [0x02, BitVec.ofNat 8 (i - 12), x.link]

def sendConfig (i : Nat) (s : State) : State :=
  barSend tCONFIG (s.configItem i) .handshake (s.setBar { s.bar with step := .config i })

/-- HV_ENABLE of this handshake (R81, R121). -/
def State.hvEnableNow (s : State) : Bool := s.bar.romOk && !s.bar.configBad

def State.failLevels (s : State) : Nat :=
  (List.range 12).foldl (fun w n => if s.hvFail n then w + 2 ^ n else w) 0

def sendFailstate (s : State) : State :=
  let s := s.setBar { s.bar with step := .failstate }
  barSend tFAILSTATE (leBytes 2 s.failLevels ++ [BitVec.ofNat 8 s.hvEnableNow.toNat]) .handshake s

/-- The flags of the last STATUS frame. -/
def State.mfeFlags (s : State) : Byte := (s.bar.status.map Prod.fst).getD 0

/-- CONFIG follows once the MFE reports SYNC. -/
def syncReached (s : State) : State :=
  if s.bar.step = .sync ∧ s.mfeFlags.getLsbD 0 then sendConfig 0 s else s

/-- The decision on the MFE's ROM, at every handshake (R121). -/
def decideRom (versions : List Byte) (s : State) : State :=
  let ok := versions.any fun v => v != 0 && s.node.mfeRoms.contains v
  let again := s.bit F.KIN_STATUS_HV_REFUSED
  let s := (s.setBar { s.bar with romOk := ok, roms := versions }).putBit F.KIN_STATUS_HV_REFUSED (!ok)
  s.when (!ok && !again) (State.raise
    { src := 0x18, kind := kCOMPAT, cls := contained, reason := 0x14, detail := detail3 (versions.headD 0).toNat })

/-- The handshake is over, but for the SET_NOW that K8 adds (R81, R92). -/
def handshakeDone (s : State) : State :=
  let s := (s.put F.BAR_STATUS_FAILSTATE_SENT 1).putBit F.BAR_STATUS_HV_ENABLED s.hvEnableNow
  let s := s.put F.KIN_STATUS_HV_PENDING 0
  let s := if s.hvEnableNow then s else unforward s
  if s.inK8 ∧ s.hvEnableNow then
    sendSetNow 0xFFF s.hvLevels .handshake (s.setBar { s.bar with step := .setNow })
  else s.setBar { s.bar with step := .idle }

/-- The next step of the handshake, after the completion of one of its requests. -/
def handshakeStep (status : Byte) (payload : List Byte) (s : State) : State :=
  match s.bar.step with
  | .hello =>
    let s := s.setBar { s.bar with step := .sync, store := [], status := s.bar.status.map fun (f, l) => (f &&& 0xF7, l) }
    let s := (s.put F.BAR_STATUS_HELLO_DONE 1).put F.BAR_STATUS_MFE_ROM (byteAt payload 1).toNat
    syncReached (sendWaiting 16 (decideRom (slice payload 1 8) s))
  | .config i =>
    let s := if status = stOK then s
      else barFault kPROTOCOL (detail3 (if i < 12 then 1 else 2) (if i < 12 then i else i - 12))
        (s.setBar { s.bar with configBad := true })
    if i < 15 then sendConfig (i + 1) s else sendFailstate s
  | .failstate => handshakeDone s
  | .setNow => s.setBar { s.bar with step := .idle }
  | _ => s

/-- HANDSHAKE (R81): it starts in K6, and again when the link has come up or the MFE has restarted. -/
def execHandshake (s : State) : Result :=
  actWhen (s.live && (s.node.phase == .k6 || s.node.phase == .k7 || s.node.phase == .k8) && s.linkUp &&
      s.bar.step == .idle && (!s.bit F.BAR_STATUS_HELLO_DONE || s.bar.again || s.mfeFlags.getLsbD 3)) sendHello s

/-! ## Frames from the MFE -/

/-- A frame arrives on the UP channel: a wrong CRC discards it (R87); a valid one brings or keeps the link up. -/
def upFrame (f : List Byte) (type : Byte) (k : State → State) (s : State) : Result :=
  if f.length ≠ 32 then .refused (.illFormed "UP frame")
  else actWhen s.clocked (fun s =>
    let (n, s) := s.inject 0x08 0
    if !frameOk f || n != 0 then
      (s.count F.BAR_CNT_A_CRC_ERR 1).raise { src := 0x16, kind := kCRC, cls := corrected, injected := n != 0 }
    else if fType f ≠ type then s
    else k ((s.put F.BAR_STATUS_LINK_UP 1).setBar { s.bar with heard := s.cycles })) s

/-- The COMPLETION of the UP request `seq` leaves. -/
def answerUp (seq : BitVec 16) (status : Byte) (s : State) : State := sendDown tCOMPLETION false 0 seq [status] s

/-- An UP request is carried out once: a SEQ held is answered from the store, unless RESTARTED is set (R89). -/
def upRequest (f : List Byte) (k : State → State) (s : State) : State :=
  match s.bar.store.find? fun x => x.1 == fSeq f && !s.mfeFlags.getLsbD 3 with
  | some x => answerUp x.1 x.2 s
  | none =>
    let s := k s
    answerUp (fSeq f) stOK
      (s.setBar { s.bar with store := (keepSeq (fSeq f) stOK (s.bar.store.filter fun x => x.1 != fSeq f)).take 64 })

/-- A completed request is taken off those outstanding. -/
def takeOut (seq : BitVec 16) (s : State) : State :=
  s.setBar { s.bar with outs := s.bar.outs.filter fun r => r.seq != seq }

/-- What a completion does for its issuer. -/
def completed (r : Request) (status : Byte) (payload : List Byte) (s : State) : State :=
  match r.issuer with
  | .handshake => handshakeStep status payload s
  | .schedule c tag => if status = stOK then s else s.modEntry c tag fun e => { e with fwd := .refused }
  | .mailbox =>
    let s := s.each (List.range 6) fun i => State.put (F.BAR_MBX_RX_DATA i) (leAt payload (4 * i) 4)
    endMailbox status.toNat s
  | _ => s

/-- COMPLETION (R91); an unknown REF is CORRECTED with the REF as its detail (Table 15-4). -/
def nodeCompletion (f : List Byte) (s : State) : Result :=
  upFrame f tCOMPLETION (fun s =>
    match s.bar.outs.find? fun r => r.seq == fRef f with
    | some r => sendWaiting 16 (completed r (byteAt f 6) (fPayload f) (takeOut r.seq s))
    | none => match s.bar.sent.find? fun x => x.1 == fRef f with
      | some (_, true) => (barFault kLATE_COMPLETION 0 (s.count F.BAR_CNT_B_LATE 1)).interrupt 97
      | some (_, false) => s
      | none => s.raise { src := 0x16, kind := kPROTOCOL, cls := corrected, detail := (fRef f).zeroExtend 24 }) s

/-- STATUS_FRAME (R80, R93): flags, output levels and HVI levels; RESTARTED breaks off a handshake, and the MFE's
schedule has gone with its reset, so forwarding starts again from each list's head (R81). -/
def execStatusFrame (f : List Byte) (s : State) : Result :=
  upFrame f tSTATUS (fun s =>
    let flags := byteAt f 7
    let changed := s.mfeFlags != flags
    let s := s.setBar { s.bar with status := some (flags, BitVec.ofNat 16 (leAt f 8 2)) }
    let s := s.putBit F.BAR_STATUS_MFE_SYNC (flags.getLsbD 0)
    let s := s.put F.BAR_HVI_STATE ((byteAt f 10).toNat % 16)
    let s := s.when changed (State.interrupt 99)
    if flags.getLsbD 3 then
      (if s.bar.step = .hello then s else unforward (handshakeAgain s))
    else syncReached s) s

/-- The times of the teeth of a TEETH frame: the first, then deltas. -/
def teethTimes (f : List Byte) : List SysTime :=
  let d (i : Nat) : Nat := leAt f (16 + 4 * i) 4
  let t := leAt f 8 8
  (List.map (BitVec.ofNat 64) [t, t + d 0, t + d 0 + d 1, t + d 0 + d 1 + d 2]).take ((byteAt f 7).toNat % 8)

/-- TEETH (R99): mains teeth for the phase's wheel. -/
def execTeeth (f : List Byte) (s : State) : Result :=
  upFrame f tTEETH (upRequest f fun s =>
    if h : (byteAt f 6).toNat < 3 then
      let w : Fin 8 := ⟨(byteAt f 6).toNat, by omega⟩
      s.each (teethTimes f).zipIdx fun (t, i) s =>
        let x := s.whl[w]
        if x.sync = .off ∨ 8 ≤ s.teethWaiting w then s
        else s.setW w { x with inbox := x.inbox ++ [⟨t, (byteAt f 7).getLsbD (4 + i), true, false⟩] }
    else s) s

/-- A bit of a register field. -/
def State.putBitAt (f : Field) (i : Nat) (b : Bool) (s : State) : State :=
  s.put f (if b then s.get f ||| 2 ^ i else s.get f - (s.get f &&& 2 ^ i))

/-- HV_EVENT (R230, R84): an executed entry, an output opened for overcurrent, or an HVI edge. -/
def execHvEvent (f : List Byte) (s : State) : Result :=
  upFrame f tHV_EVENT (upRequest f fun s =>
    let o := (byteAt f 6).toNat
    let fl := byteAt f 7
    let tag := BitVec.ofNat 32 (leAt f 16 4)
    if o < 12 then
      if fl.getLsbD 3 then
        (s.raise { src := 0x17, kind := kPOWER, cls := corrected, reason := 0x01, detail := detail3 o }).interrupt 99
      else hvReported (Fin.ofNat 64 (48 + o)) tag (fl.getLsbD 2) s
    else if 0x80 ≤ o ∧ o < 0x84 then
      let i := o - 0x80
      let s := s.putBitAt F.BAR_HVI_STATE i (fl.getLsbD 0)
      let s := if fl.getLsbD 0 then s.putBitAt F.BAR_HVI_DEADZONE i (fl.getLsbD 1) else s
      takeEdge (Fin.ofNat 64 (60 + i)) (fl.getLsbD 0) (BitVec.ofNat 64 (leAt f 8 8)) s
    else s) s

/-- MEASURE (R100). -/
def execMeasure (f : List Byte) (s : State) : Result :=
  upFrame f tMEASURE (upRequest f fun s =>
    let p := (byteAt f 6).toNat
    if p < 3 then
      let present := (byteAt f 12).getLsbD 0
      let ok := (byteAt f 12).getLsbD 1
      let changed := s.bit (F.BAR_MAINS_B_PRESENT p) != present || s.bit (F.BAR_MAINS_B_FREQ_OK p) != ok
      let s := (s.put (F.BAR_MAINS_A_RMS p) (leAt f 8 2)).put (F.BAR_MAINS_A_FREQ p) (leAt f 10 2)
      let s := (s.putBit (F.BAR_MAINS_B_PRESENT p) present).putBit (F.BAR_MAINS_B_FREQ_OK p) ok
      s.when changed (State.interrupt 99)
    else s) s

/-- OPTIME (R98). -/
def execOptime (f : List Byte) (s : State) : Result :=
  upFrame f tOPTIME (upRequest f fun s =>
    let o := (byteAt f 6).toNat
    if o < 12 then (s.put (F.BAR_OPTIME_OPERATE o) (leAt f 8 2)).put (F.BAR_OPTIME_RELEASE o) (leAt f 10 2) else s) s

/-! ## Retries, time-outs, the link (R90–R92) -/

/-- From the start of one transmission to the next: the frame's 2.64 µs and 40 µs. -/
def retryCycles : Nat := 22893

/-- RETRANSMISSION (R90). -/
def nodeRetransmit (seq : BitVec 16) (s : State) : Result :=
  actWhen s.clocked (fun s => match s.bar.outs.find? fun r => r.seq == seq with
    | none => s
    | some r =>
      if r.sends < 4 ∧ r.last + retryCycles ≤ s.cycles then
        (sendDown r.type true seq 0 r.payload (s.setBar { s.bar with outs := s.bar.outs.map fun x =>
          if x.seq = seq then { x with sends := x.sends + 1, last := s.cycles } else x })).count F.BAR_CNT_A_RETRIES 1
      else s) s

/-- A request fails under R90. -/
def failRequest (r : Request) (s : State) : State :=
  let s := takeOut r.seq s
  let s := s.setBar { s.bar with sent := s.bar.sent.map fun x => if x.1 = r.seq then (x.1, true) else x }
  returnFailed r.issuer ((barFault kTIMEOUT 0 s).count F.BAR_CNT_B_TIMEOUTS 1)

/-- REQUEST_TIMEOUT (R90): 200 µs after the first transmission began. -/
def nodeTimeout (seq : BitVec 16) (s : State) : Result :=
  actWhen s.clocked (fun s => match s.bar.outs.find? fun r => r.seq == seq with
    | none => s
    | some r => if r.first + usCycles 200 ≤ s.cycles then sendWaiting 16 (failRequest r s) else s) s

/-- The link goes down. -/
def linkDown (s : State) : State :=
  let s := (((s.put F.BAR_STATUS_LINK_UP 0).put F.BAR_STATUS_HELLO_DONE 0).put F.BAR_STATUS_FAILSTATE_SENT 0).put
    F.BAR_STATUS_HV_ENABLED 0
  let s := barFault kLOSS_OF_SYNC 0 (s.interrupt 98)
  let waiting := s.bar.waiting
  let s := s.each s.bar.outs failRequest
  let s := (s.setBar { s.bar with waiting := [] }).each waiting fun r => returnFailed r.issuer
  unforward (s.setBar { s.bar with step := .idle, status := none })

/-- LINK_DOWN (R92): 1 ms without a valid frame. -/
def execLinkDown (s : State) : Result :=
  actWhen (s.clocked && s.linkUp && decide (s.bar.heard + usCycles 1000 ≤ s.cycles)) linkDown s

/-- TIME_FRAME_SEND (R85): a TIME frame stamped with the system time; they stop at step 6 of the PWRFAIL sequence,
with a reset, and when the node leaves its outputs (Table 02-4, R79, R102). -/
def execTimeFrameSend (s : State) : Result :=
  actWhen (s.live && s.node.pwr != .stopped && s.node.pwr != .complete) (fun s =>
    sendDown tTIME false 0 0 ([0, 0] ++ leBytes 8 s.now.toNat) (s.setBar { s.bar with timeSent := some s.now })) s

/-! ## Mailbox (R93) -/

/-- Send the mailbox request in MBX_TX0–5. -/
def mailboxGo (s : State) : State :=
  if s.bit F.BAR_MBX_TXCTL_BUSY then s
  else
    let type := BitVec.ofNat 8 (s.get F.BAR_MBX_TXCTL_TYPE)
    if type ≠ tCONFIG ∧ type ≠ tQUERY then endMailbox 0xFE s
    else
      let payload := (List.range 6).flatMap fun i => leBytes 4 (s.get (F.BAR_MBX_TX_DATA i))
      barSend type payload .mailbox (s.put F.BAR_MBX_TXCTL_BUSY 1)

/-- A write of BAR.MBX_TXCTL. -/
def writeMailbox (v : Word) (s : State) : State :=
  let s := s.put F.BAR_MBX_TXCTL_TYPE (F.BAR_MBX_TXCTL_TYPE.of v)
  s.when (F.BAR_MBX_TXCTL_GO.of v == 1) mailboxGo

/-- MAILBOX_REQUEST (R93). -/
def execMailboxRequest (v : Word) (s : State) : Result := actWhen s.clocked (writeMailbox (v ||| 0x40000000)) s

def liveBar (off : Nat) (s : State) : Option Word :=
  if off = 0 then some (F.BAR_STATUS_OUTSTANDING.into s.bar.outs.length (s.reg 0x400C0000)) else none

def writeBar (off : Nat) (v : Word) (s : State) : Option State :=
  if off = 0x38 then some (writeMailbox v s) else none

/-- FAILNOW leaves with the node's last acts before Caldera and plug hold (R83); with 16 outstanding it waits in
front of every other request (R90). -/
def sendFailnow (s : State) : State :=
  let r : Request := ⟨0, tFAILNOW, slice [] 0 24, .failnow, 0, 0, 0⟩
  if !s.linkUp then s
  else if s.maySend tFAILNOW then transmit r s
  else s.setBar { s.bar with waiting := r :: s.bar.waiting }

end Sys2Proof.Machine
end

