-- ==== Sys2Proof/Machine/Flags.lean ====
section
/-! DEFINITION. Every flag computation of chapter 9 (R305, R306, Tables 09-2 to 09-6). -/

namespace Sys2Proof.Machine

/-- Z and N of a 32-bit result. -/
def Flags.zn (f : Flags) (r : Word) : Flags := { f with z := r == 0, n := r.msb }

/-- Z and N of a 64-bit result. -/
def Flags.zn64 (f : Flags) (r : BitVec 64) : Flags := { f with z := r == 0, n := r.msb }

/-- Z only. -/
def Flags.setZ (f : Flags) (b : Bool) : Flags := { f with z := b }

/-- The result and flags of an addition with carry in: C is the carry out of bit 31, V signed overflow. -/
def addFlags (a s : Word) (cin : Bool) (f : Flags) : Word × Flags :=
  let sum := a.toNat + s.toNat + cin.toNat
  let r := BitVec.ofNat 32 sum
  let exact : Int := a.toInt + s.toInt + (cin.toNat : Int)
  (r, { (f.zn r) with c := decide (2 ^ 32 ≤ sum), v := decide (exact ≠ r.toInt) })

/-- The result and flags of a subtraction with borrow in: C is 1 when no borrow occurs. -/
def subFlags (a s : Word) (borrow : Bool) (f : Flags) : Word × Flags :=
  let r := a - s - BitVec.ofNat 32 borrow.toNat
  let exact : Int := a.toInt - s.toInt - (borrow.toNat : Int)
  (r, { (f.zn r) with c := decide (s.toNat + borrow.toNat ≤ a.toNat), v := decide (exact ≠ r.toInt) })

/-- Z N of a logical result; V := 0 (Table 09-3). -/
def logicFlags (r : Word) (f : Flags) : Flags := { (f.zn r) with v := false }

/-- Z N, and C when the shift moved anything (R309). -/
def shiftFlags (r : Word) (k : Nat) (lastOut : Bool) (f : Flags) : Flags :=
  let f := f.zn r
  if k = 0 then f else { f with c := lastOut }

/-- The condition codes of Table 09-2; code 15 is ILLEGAL and never holds. -/
def Flags.holds (f : Flags) (c : Nat) : Bool :=
  match c with
  | 0 => true
  | 1 => f.z
  | 2 => !f.z
  | 3 => f.c
  | 4 => !f.c
  | 5 => f.n
  | 6 => !f.n
  | 7 => f.v
  | 8 => !f.v
  | 9 => f.c && !f.z
  | 10 => !f.c || f.z
  | 11 => f.n == f.v
  | 12 => f.n != f.v
  | 13 => !f.z && f.n == f.v
  | 14 => f.z || f.n != f.v
  | _ => false

/-- Flags as EMB.EPC holds them, Z N C V in bits 3 to 0 (Table 08-4). -/
def Flags.code (f : Flags) : Nat := 8 * f.z.toNat + 4 * f.n.toNat + 2 * f.c.toNat + f.v.toNat

def Flags.ofCode (n : Nat) : Flags :=
  { z := n.testBit 3, n := n.testBit 2, c := n.testBit 1, v := n.testBit 0 }

end Sys2Proof.Machine
end

