-- ==== Sys2Proof/Machine/Operands.lean ====
section
/-! DEFINITION. Operand forms of the Ember instructions and what each computes from its operands alone
(Tables 09-3 to 09-6). -/

namespace Sys2Proof.Machine

def Ember.reg (m : Ember) (r : Fin 32) : Word := m.w[r]

def Ember.setReg (r : Fin 32) (v : Word) (m : Ember) : Ember := { m with w := m.w.set r v }

/-- The register after `r`; callers have checked that it exists. -/
def next (r : Fin 32) : Fin 32 := Fin.ofNat 32 (r.val + 1)

def evenReg (r : Fin 32) : Bool := r.val % 2 == 0

/-- A 64-bit value in a pair, low word in the even register (R304). -/
def Ember.pair (m : Ember) (r : Fin 32) : BitVec 64 := m.reg (next r) ++ m.reg r

def Ember.setPair (r : Fin 32) (v : BitVec 64) (m : Ember) : Ember :=
  (m.setReg r (v.extractLsb' 0 32)).setReg (next r) (v.extractLsb' 32 32)

/-- An ALU operation: its result and the flags after it. -/
abbrev Alu := Word → Word → Flags → Word × Flags

def aluAdd : Alu := fun a s f => addFlags a s false f
def aluAdc : Alu := fun a s f => addFlags a s f.c f
def aluSub : Alu := fun a s f => subFlags a s false f
def aluSbc : Alu := fun a s f => subFlags a s (!f.c) f
def aluAnd : Alu := fun a s f => (a &&& s, logicFlags (a &&& s) f)
def aluOr : Alu := fun a s f => (a ||| s, logicFlags (a ||| s) f)
def aluXor : Alu := fun a s f => (a ^^^ s, logicFlags (a ^^^ s) f)
def aluAndn : Alu := fun a s f => (a &&& ~~~s, logicFlags (a &&& ~~~s) f)

def aluMin : Alu := fun a s f => let r := if a.toInt ≤ s.toInt then a else s; (r, f.zn r)
def aluMax : Alu := fun a s f => let r := if s.toInt ≤ a.toInt then a else s; (r, f.zn r)
def aluMinu : Alu := fun a s f => let r := if a.toNat ≤ s.toNat then a else s; (r, f.zn r)
def aluMaxu : Alu := fun a s f => let r := if s.toNat ≤ a.toNat then a else s; (r, f.zn r)

/-- Shifts by `k`, 0 to 31 (Table 09-4). -/
def aluLsl : Alu := fun a s f =>
  let k := s.toNat % 32; let r := a <<< k; (r, shiftFlags r k (a.getLsbD (32 - k)) f)
def aluLsr : Alu := fun a s f =>
  let k := s.toNat % 32; let r := a >>> k; (r, shiftFlags r k (a.getLsbD (k - 1)) f)
def aluAsr : Alu := fun a s f =>
  let k := s.toNat % 32; let r := a.sshiftRight k; (r, shiftFlags r k (a.getLsbD (k - 1)) f)
def aluRor : Alu := fun a s f =>
  let k := s.toNat % 32; let r := a.rotateRight k; (r, shiftFlags r k r.msb f)

/-- MUL: the low word; V when the signed product lies outside 32 bits. -/
def aluMul : Alu := fun a s f =>
  let r := a * s
  (r, { (f.zn r) with v := decide (a.toInt * s.toInt ≠ r.toInt) })

/-- The number of leading zeros, 0 to 32. -/
def clz (a : Word) : Nat := ((List.range 32).takeWhile fun i => !a.getLsbD (31 - i)).length

def popCount (a : Word) : Nat := ((List.range 32).filter fun i => a.getLsbD i).length

/-- `len` ones from bit 0. -/
def ones (len : Nat) : Word := BitVec.ofNat 32 (2 ^ len - 1)

def bitExtract (a : Word) (pos len : Nat) : Word := (a >>> pos) &&& ones len

def bitInsert (d a : Word) (pos len : Nat) : Word :=
  (d &&& ~~~(ones len <<< pos)) ||| ((a &&& ones len) <<< pos)

/-- One restoring division step (R311): quotient register, remainder and carry. -/
def dstep (y : Nat) (st : Nat × Nat × Bool) : Nat × Nat × Bool :=
  let t := st.1 * 2 + st.2.1 / 2 ^ 31
  let q := st.2.1 * 2 % 2 ^ 32
  if y ≤ t then ((t - y) % 2 ^ 32, (q + 1) % 2 ^ 32, true) else (t % 2 ^ 32, q, false)

/-- `n` steps, from w[d] and w[d+1] to w[d], w[d+1] and C. -/
def dsteps (y : Nat) : Nat → Nat × Nat × Bool → Nat × Nat × Bool
  | 0, st => st
  | n + 1, st => dsteps y n (dstep y st)

/-! ## CORDIC (R312): the exact values, and results within the stated accuracy -/

/-- Integer square root by binary search on 40 bits. -/
def isqrt (n : Nat) : Nat :=
  (List.range 40).foldl (fun r i => let c := r + 2 ^ (39 - i); if c * c ≤ n then c else r) 0

/-- 2^62·2π, rounded. -/
def twoPi62 : Int := 28976077832308491370

/-- Sine and cosine of an angle of `a`/2^32 turns, as fractions of 2^60, by Taylor series of the angle
reduced to half a quadrant. -/
def taylor (x : Int) (t : Int) (k : Nat) : (n : Nat) → Int
  | 0 => t
  | n + 1 => t + taylor x (-(t * x / 2 ^ 60 * x / 2 ^ 60) / ((k + 1) * (k + 2))) (k + 2) n

def sin60 (x : Int) : Int := taylor x x 1 14
def cos60 (x : Int) : Int := taylor x (2 ^ 60) 0 14

/-- Cosine and sine of `a` turns/2^32 as fractions of 2^60, octant by octant. -/
def sincos60 (a : Nat) : Int × Int :=
  let x := ((a % 2 ^ 30 : Nat) : Int)
  let rad (v : Int) : Int := v * twoPi62 / 2 ^ 34
  let (c, s) := if x ≤ 2 ^ 29 then (cos60 (rad x), sin60 (rad x))
    else (sin60 (rad (2 ^ 30 - x)), cos60 (rad (2 ^ 30 - x)))
  match a / 2 ^ 30 with
  | 0 => (c, s)
  | 1 => (-s, c)
  | 2 => (-c, -s)
  | _ => (s, -c)

/-- The angle from +x toward +y in turns/2^32, rounded down: the greatest `a` whose ray is not past
(x, y), bit by bit. -/
def atanTurns (x y : Int) : Nat :=
  let past (a : Nat) : Bool :=       -- the ray at `a` lies counter-clockwise of (x, y), both within half a turn
    let (c, s) := sincos60 a
    decide (c * y - s * x < 0)
  let base := if 0 < y ∨ (y = 0 ∧ 0 ≤ x) then 0 else 2 ^ 31
  base + (List.range 31).foldl (fun r i =>
    let t := r + 2 ^ (30 - i)
    if past (base + t) then r else t) 0

/-- An integer no further than `m` from `num / den`, chosen by the free value `v`. -/
def within (num den : Int) (m : Nat) (v : BitVec 64) : Int :=
  let lo := -((-num) / den) - m
  let hi := num / den + m
  lo + ((v.toNat : Int) % (hi - lo + 1))

/-- SINCOS: cosine and sine in Q1.30, each within 4 in the last place. -/
def cordicSincos (a : Word) : Word × Word :=
  let (c, s) := sincos60 a.toNat
  (BitVec.ofInt 32 (within c (2 ^ 30) 4 (Config.cordicError 0 a 0)),
   BitVec.ofInt 32 (within s (2 ^ 30) 4 (Config.cordicError 1 a 0)))

/-- An integer no further than `m` from the square root of `n`, not below 0. -/
def rootWithin (n m : Nat) (v : BitVec 64) : Nat :=
  let r := isqrt n
  let up := if r * r = n then r else r + 1
  (up - m) + v.toNat % (r + m - (up - m) + 1)

/-- ATAN2: angle within 16 turn units, magnitude within 4 and saturating, and V. -/
def cordicAtan2 (x y : Word) : Word × Word × Bool :=
  if x = 0 ∧ y = 0 then (0, 0, true)
  else
    let a := atanTurns x.toInt y.toInt
    let (c, s) := sincos60 a
    let up : Int := if c * y.toInt = s * x.toInt then a else a + 1
    let ang := up - 16 + ((Config.cordicError 2 x y).toNat : Int) % ((a : Int) + 16 - (up - 16) + 1)
    let mag := rootWithin (x.toInt * x.toInt + y.toInt * y.toInt).toNat 4 (Config.cordicError 3 x y)
    (BitVec.ofInt 32 ang, BitVec.ofNat 32 (min mag 0x7FFFFFFF), decide (0x7FFFFFFF < mag))

/-- SQRT: the root of a number with 30 fraction bits, within 1 in the last place. -/
def cordicSqrt (a : Word) : Word := BitVec.ofNat 32 (rootWithin (a.toNat * 2 ^ 30) 1 (Config.cordicError 4 a 0))

end Sys2Proof.Machine
end

