-- ==== Sys2Proof/Machine/Geyser.lean ====
section
/-! DEFINITION. Geyser descriptors, checks, starts, aborts and bus errors (11.9–11.14). Moving the elements needs
the register windows and stands in GeyserMove.lean. -/

namespace Sys2Proof.Machine

/-! ## Descriptors (R365–R367) -/

/-- A signed 24-bit step. -/
def step24 (w : Nat) : Int :=
  let v : Nat := w % 2 ^ 24
  if v < 2 ^ 23 then (v : Int) else (v : Int) - 2 ^ 24

/-- A descriptor from its 48 bytes (Table 11-5). -/
def Desc.ofBytes (b : List Byte) : Desc :=
  let ctl := leAt b 0 4
  { irqDone := ctl.testBit 31, chain := ctl.testBit 30, reshuffle := ctl / 2 ^ 12 % 16,
    esize := 2 ^ (ctl % 4),
    reservedSet := ctl / 2 ^ 16 % 2 ^ 14 != 0 || ctl / 4 % 2 ^ 10 != 0 || leAt b 0x16 2 != 0 ||
      [0x1B, 0x1F, 0x23, 0x27, 0x2B, 0x2F].any fun o => leAt b o 1 != 0
    next := leAt b 4 4, src := leAt b 8 4, dst := leAt b 0xC 4,
    c0 := leAt b 0x10 2, c1 := leAt b 0x12 2, c2 := leAt b 0x14 2,
    ss0 := step24 (leAt b 0x18 4), ss1 := step24 (leAt b 0x1C 4), ss2 := step24 (leAt b 0x20 4),
    ds0 := step24 (leAt b 0x24 4), ds1 := step24 (leAt b 0x28 4), ds2 := step24 (leAt b 0x2C 4) }

def Desc.count (d : Desc) : Nat := d.c0 * d.c1 * d.c2

/-- The size of a transpose block; 1 for every other reshuffle. -/
def Desc.block (d : Desc) : Nat :=
  if d.reshuffle = 1 then 8 else if d.reshuffle = 2 then 16 else if d.reshuffle = 3 then 32 else 1

/-- The index of element `n` with i0 fastest (R366). -/
def Desc.index (d : Desc) (n : Nat) : Nat × Nat × Nat :=
  (n % d.c0, n / d.c0 % d.c1, n / (d.c0 * d.c1))

/-- The index of element `n` with i1 fastest, then i0, then i2 (R367). -/
def Desc.indexWays (d : Desc) (n : Nat) : Nat × Nat × Nat :=
  (n / d.c1 % d.c0, n % d.c1, n / (d.c0 * d.c1))

def Desc.srcAt (d : Desc) (i : Nat × Nat × Nat) : Int :=
  d.src + i.1 * d.ss0 + i.2.1 * d.ss1 + i.2.2 * d.ss2

def Desc.dstAt (d : Desc) (i : Nat × Nat × Nat) : Int :=
  d.dst + i.1 * d.ds0 + i.2.1 * d.ds1 + i.2.2 * d.ds2

/-- Source of element `n`: interleave takes its ways in turn. -/
def Desc.srcOf (d : Desc) (n : Nat) : Int := d.srcAt (if d.reshuffle = 4 then d.indexWays n else d.index n)

/-- Destination of element `n`: de-interleave deals its ways in turn. -/
def Desc.dstOf (d : Desc) (n : Nat) : Int := d.dstAt (if d.reshuffle = 5 then d.indexWays n else d.index n)

/-- Output `b` of a transposed block: bit k of y_b is bit b of x_k. -/
def transposeOut (xs : List Nat) (b : Nat) : Nat :=
  (xs.zipIdx).foldl (fun y p => if p.1.testBit b then y + 2 ^ p.2 else y) 0

/-! ## Checks at start (R368, R369) -/

/-- A reshuffle's conditions hold (R367). -/
def Desc.reshuffleOk (d : Desc) : Bool :=
  if d.reshuffle = 0 then true
  else if d.reshuffle ≤ 3 then d.esize == d.block / 8 && d.count % d.block == 0
  else decide (d.reshuffle ≤ 5 ∧ 2 ≤ d.c1 ∧ d.c1 ≤ 8)

def Desc.bad (d : Desc) : Bool :=
  d.reservedSet || d.c0 == 0 || d.c1 == 0 || d.c2 == 0 || !d.reshuffleOk

def Desc.aligned (d : Desc) : Bool :=
  let ok (c : Nat) (st : Int) : Bool := decide (c ≤ 1) || decide (st % (d.esize : Int) = 0)
  decide (d.src % d.esize = 0) && decide (d.dst % d.esize = 0) &&
  ok d.c0 d.ss0 && ok d.c1 d.ss1 && ok d.c2 d.ss2 && ok d.c0 d.ds0 && ok d.c1 d.ds1 && ok d.c2 d.ds2

/-- A bounding range, first and last byte (R369). -/
def bounding (base c0 c1 c2 esize : Nat) (s0 s1 s2 : Int) : Int × Int :=
  let e (c : Nat) (st : Int) : Int := ((c : Int) - 1) * st
  (base + min 0 (e c0 s0) + min 0 (e c1 s1) + min 0 (e c2 s2),
   base + max 0 (e c0 s0) + max 0 (e c1 s1) + max 0 (e c2 s2) + esize - 1)

def Desc.srcRange (d : Desc) : Int × Int := bounding d.src d.c0 d.c1 d.c2 d.esize d.ss0 d.ss1 d.ss2

def Desc.dstRange (d : Desc) : Int × Int := bounding d.dst d.c0 d.c1 d.c2 d.esize d.ds0 d.ds1 d.ds2

/-- A range lies wholly in scratchpad, or wholly in one register window with 4-byte elements. -/
def rangeOk (esize : Nat) (r : Int × Int) : Bool :=
  decide (0 ≤ r.1 ∧ r.2 < spmTop) ||
  (esize == 4 && decide (0x40000000 ≤ r.1 ∧ r.2 < 0x40100000 ∧ r.1 / 0x10000 = r.2 / 0x10000))

/-- A range that reaches into a fold region covers that window's buffer and fold region whole. -/
def State.widen (r : Int × Int) (s : State) : Int × Int :=
  (List.range 8).foldl (fun r w => match s.window? w with
    | none => r
    | some (b, n) =>
      if (b : Int) + n ≤ r.2 ∧ r.1 < (b : Int) + 2 * n then (min r.1 b, max r.2 ((b : Int) + 2 * n - 1)) else r) r

def State.overlap (d : Desc) (s : State) : Bool :=
  let a := s.widen d.srcRange
  let b := s.widen d.dstRange
  decide (a.1 ≤ b.2 ∧ b.1 ≤ a.2)

/-- The refusal reason of a descriptor that was read (Table 11-6), if any. -/
def State.descRefusal (d : Desc) (s : State) : Option Nat :=
  if d.bad then some 0x04
  else if !d.aligned then some 0x02
  else if !(rangeOk d.esize d.srcRange && rangeOk d.esize d.dstRange) then some 0x03
  else if s.overlap d then some 0x01
  else none

/-! ## Channels -/

def State.setG (g : Fin 8) (c : GChan) (s : State) : State := { s with gsr := s.gsr.set g c }

def State.gEvent (g : Fin 8) (f : Field) (b : Nat) (s : State) : State :=
  s.eventBit f (F.GSR_IEN_IEN g) b (72 + g)

/-- A descriptor is refused with reason `r` (R368, Table 11-11). -/
def geyserRefuse (g : Fin 8) (addr : Nat) (r : Nat) (s : State) : State :=
  let s := (s.setG g { s.gsr[g] with st := .refused }).put (F.GSR_STATUS_REASON g) r
  let a := BitVec.ofNat 32 addr
  let spec : FaultSpec := match r with
    | 0x01 => { src := 0x0A, kind := kOVERLAP, cls := corrected, reason := 0x01, detail := detail3 g, addr := a, master := 4 }
    | 0x02 => { src := 0x0A, kind := kALIGN, cls := corrected, reason := 0x02, detail := detail3 g, addr := a, master := 4 }
    | 0x03 => { src := 0x0A, kind := kPROTOCOL, cls := corrected, reason := 0x03, detail := detail3 g, addr := a, master := 4 }
    | 0x06 => { src := 0x0A, kind := kPROTOCOL, cls := corrected, reason := 0x06, detail := detail3 g, addr := a, master := 4 }
    | _ => { src := 0x0A, kind := kPROTOCOL, cls := corrected, reason := 0x04, detail := detail3 g r, addr := a, master := 4 }
  (s.raise spec).gEvent g (F.GSR_EVENT_REFUSED g) 3

/-- Channel `g` has used `cyc` access cycles (R371). -/
def geyserCharge (g : Fin 8) (cyc : Nat) (s : State) : State :=
  (s.setG g { s.gsr[g] with credit := s.gsr[g].credit - 256 * cyc }).count (F.GSR_CYC_CYCLES g) cyc

/-- A stop discards what was read ahead; of a block part written, the outputs still to be written stay (R372, R373). -/
def GChan.stopped (c : GChan) (st : GState) : GChan :=
  let whole : Bool := match c.desc with
    | some d => decide (d.block ≤ c.outs.length)
    | none => true
  { c with st := st, ins := [], outs := if whole then [] else c.outs }

/-- Stop a running channel with `st`; its kept position is a block boundary. -/
def geyserStop (g : Fin 8) (st : GState) (s : State) : State :=
  if s.gsr[g].st = .running then s.setG g (s.gsr[g].stopped st) else s

/-- A bus error (R372): every running channel stops; `ch` is the channel of a failed write. -/
def geyserBusStop (addr : Nat) (write : Bool) (ch : Nat) (s : State) : State :=
  let running := (List.finRange 8).filter fun g => s.gsr[g].st == .running
  let mask := running.foldl (fun m g => m + 2 ^ g.val) 0
  let s := s.each running fun g s => (geyserStop g .stopped s).gEvent g (F.GSR_EVENT_STOPPED g) 2
  let s := (((s.put F.GSR_GSTATUS_BUSERR 1).put F.GSR_GSTATUS_STOPPED_MASK mask).put F.GSR_GSTATUS_ERR_TYPE
    write.toNat).put F.GSR_GSTATUS_ERR_CH (if write then ch else 0xF) |>.put F.GSR_ERR_ADDR_ADDR addr
  s.raise { src := 0x0A, kind := kBUS_ERR, cls := contained, reason := 0x05,
            detail := detail3 mask write.toNat (if write then ch else 0xF), addr := BitVec.ofNat 32 addr, master := 4,
            access := if write then 1 else 0 }

/-- Read the doublewords of a descriptor from `addr` on: its bytes, or the address of the read that failed. -/
def readDesc (g : Fin 8) (addr : Nat) : (words : Nat) → State → Except Nat (List Byte) × State
  | 0, s => (.ok [], s)
  | k + 1, s => match s.spmRead 4 addr 8 with
    | (.ok, v, s) =>
      let (r, s) := readDesc g (addr + 8) k (geyserCharge g 1 s)
      (r.map fun bs => leBytes 8 v ++ bs, s)
    | (.uncorr, _, s) => (.error addr, geyserCharge g 1 s)
    | (.off, _, s) => (.error addr, s)

/-- The credit channel `g` has: a full burst at a start or resume, what is left of it where a chain goes on (R371). -/
def State.geyserCredit (g : Fin 8) (full : Bool) (s : State) : Int :=
  if full then 256 * (max 1 (s.get (F.GSR_RATE_BURST g)) : Nat) else s.gsr[g].credit

/-- Read and check the descriptor at `addr`; a checked one runs from element `pos`, with a full credit at a start or resume
(R368, R371). The outcome says whether the channel runs. A read that fails refuses the descriptor, and is a bus error for the
channels that run (R372). -/
def geyserCheck (g : Fin 8) (addr pos : Nat) (outs : List Nat) (full : Bool) (s : State) : Bool × State :=
  if s.bit F.GSR_GSTATUS_BUSERR then (false, geyserRefuse g addr 0x06 s)
  else if addr % 8 ≠ 0 ∨ spmTop < addr + 48 then (false, geyserRefuse g addr 0x05 s)
  else
    let s := s.put (F.GSR_CUR_ADDR g) addr
    match readDesc g addr 6 s with
    | (.ok bs, s) =>
      let d := Desc.ofBytes bs
      match s.descRefusal d with
      | some r => (false, geyserRefuse g addr r s)
      | none => (true, s.setG g { st := .running, desc := some d, pos := pos, ins := [], outs := outs,
                                   credit := s.geyserCredit g full })
    | (.error a, s) => (false, geyserBusStop a false 0xF (geyserRefuse g addr 0x05 s))

/-- A start by GSTART or GO: 0 STARTED, 1 BUSY, 2 REFUSED (R321). -/
def geyserStart (g : Fin 8) (addr : Nat) (s : State) : Nat × State :=
  if s.gsr[g].st = .running then (1, s)
  else match geyserCheck g addr 0 [] true s with
    | (true, s) => (0, s)
    | (false, s) => (2, s)

/-- A write of GSR.CTL.RESUME: only a stopped or aborted channel resumes, at its kept position (R373). -/
def geyserResume (g : Fin 8) (s : State) : State :=
  if s.gsr[g].st = .stopped ∨ s.gsr[g].st = .aborted then
    (geyserCheck g (s.get (F.GSR_CUR_ADDR g)) s.gsr[g].pos s.gsr[g].outs true s).2
  else s

/-- Every channel is cleared to IDLE (R375, any reset). -/
def geyserClear (s : State) : State := { s with gsr := Vector.replicate 8 GChan.reset }

/-- Running channels stop at their element boundary (R375: PWRFAIL step 4, plug hold, Caldera). -/
def geyserHalt (s : State) : State :=
  s.each (List.finRange 8) fun g => geyserStop g .stopped

end Sys2Proof.Machine
end

