-- ==== Sys2Proof/Machine/IntCtl.lean ====
section
/-! DEFINITION. The interrupt controller (chapter 10): levels, enables, presentation, taking a source. -/

namespace Sys2Proof.Machine

/-- Enabled event bits of the pair of registers at `ev` and `ien`. -/
def State.enabledEvents (s : State) (ev ien : Nat) : Word := s.reg ev &&& s.reg ien

/-- The hardware level H(s) of each source (Table 10-1); 0 for a latched source. -/
def State.hwLevel (src : Nat) (s : State) : Bool :=
  if src < 64 then s.enabledEvents (0x40020008 + 0x100 * src) (0x4002000C + 0x100 * src) != 0
  else if src < 72 then s.enabledEvents (0x40030008 + 0x100 * (src - 64)) (0x4003000C + 0x100 * (src - 64)) != 0
  else if src < 80 then s.enabledEvents (0x4004001C + 0x40 * (src - 72)) (0x40040020 + 0x40 * (src - 72)) != 0
  else if src < 84 then s.enabledEvents (0x40060008 + 0x100 * (src - 80)) (0x4006000C + 0x100 * (src - 80)) != 0
  else if src < 86 then false
  else if src < 88 then s.enabledEvents (0x40080030 + 8 * (src - 86)) (0x40080034 + 8 * (src - 86)) != 0
  else if src = 88 then s.bit F.WRK_AWQ_ACCEPTED
  else if src = 89 then s.enabledEvents 0x40090060 0x40090064 &&& 0xFF != 0
  else if src = 90 then s.enabledEvents 0x40090060 0x40090064 &&& 0xFF00 != 0
  else if src = 93 then s.bit F.TIME_EVENT_SECOND
  else if src = 94 then s.bit F.TIME_EVENT_MASTER_CHANGED || s.bit F.TIME_EVENT_STEPPED || s.bit F.TIME_EVENT_PORT_CHANGED
  else if src = 95 then s.bit F.TIME_EVENT_STATE_CHANGED || s.bit F.TIME_EVENT_SRC_CHANGED || s.bit F.TIME_EVENT_LEAP_CHANGED
  else if 104 ≤ src ∧ src < 120 then (s.get F.HRT_TMR_EVENT_FIRED).testBit (src - 104)
  else if 120 ≤ src ∧ src < 124 then (s.get F.HRT_DOORBELL_RUNG).testBit (src - 120)
  else if src = 124 then s.bit F.BAR_SUPPLY_PWRFAIL
  else false

/-- The pending level P(s) (R331). -/
def State.pend (src : Nat) (s : State) : Bool :=
  !reservedSource src && (s.hwLevel src || s.ic.lat.getLsbD src)

def State.prio (src : Nat) (s : State) : Nat := s.get (F.IC_SRC_PRIO src)

/-! ## Embers as the controller sees them -/

/-- The source is in service on Ember `e`: a frame in use recorded it (R339, R340). -/
def Ember.serves (m : Ember) (src : Nat) : Bool := !m.halted && m.frames.any fun f => f.source == src

def State.inService (src : Nat) (s : State) : Bool := s.emb.toList.any fun m => m.serves src

/-- The level of the newest frame, or 0 (10.4). -/
def Ember.level (m : Ember) : Nat := match m.frames with
  | [] => 0
  | f :: _ => f.level

def State.effLevel (e : Fin 4) (s : State) : Nat := max s.emb[e].level (s.get (F.IC_ECTL_CEIL e))

/-- The Ember is idle: no task, handler or exception, not halted or stopped. -/
def Ember.idle (m : Ember) : Bool :=
  !m.halted && !m.stopped && !m.inTask && !m.excActive && m.frames.isEmpty

/-- R337, R287, R297, R278: what an Ember must be to be presented a source. -/
def State.eligible (e : Fin 4) (s : State) : Bool :=
  let m := s.emb[e]
  !m.halted && !m.stopped && !m.excActive && decide (m.frames.length < 4) && m.retiWait == 0 &&
  m.stall.isNone && !m.scrubWait && (!s.hrt.draining || m.inTask || !m.frames.isEmpty)

/-- Sources that may be presented, most urgent first, then by number (R338). -/
def State.candidates (s : State) : List Nat :=
  let c := (List.range 128).filter fun src =>
    s.pend src && s.ic.en.getLsbD src && decide (1 ≤ s.prio src) && !s.inService src
  [4, 3, 2, 1].flatMap fun p => c.filter fun src => s.prio src == p

/-- The Ember a source goes to: least current level, idle before one with a task, lowest number. -/
def State.choose (given : List (Fin 4)) (src : Nat) (s : State) : Option (Fin 4) :=
  let es := (List.finRange 4).filter fun (e : Fin 4) =>
    (s.get (F.IC_SRC_ROUTE src)).testBit e && s.eligible e && !given.contains e &&
      decide (s.effLevel e < s.prio src)
  let rank (e : Fin 4) : Nat := 2 * s.emb[e].level + (!s.emb[e].idle).toNat
  es.foldl (fun best e => match best with
    | none => some e
    | some b => if rank e < rank b then some e else some b) none

/-- Everything one cycle presents, evaluated on one state (R338). -/
def State.presented (s : State) : List (Fin 4 × Nat) :=
  (s.candidates.foldl (fun (acc : List (Fin 4) × List (Fin 4 × Nat)) src =>
    match s.choose acc.1 src with
    | none => acc
    | some e => (e :: acc.1, acc.2 ++ [(e, src)])) ([], [])).2

/-- Where Ember `e` fetches for source `src` (R343). -/
def State.handlerEntry (e : Fin 4) (src : Nat) (s : State) : BitVec 13 :=
  if s.bit (F.IC_ECTL_MODE e) then BitVec.ofNat 13 (s.get (F.IC_ECTL_SCAN_ENTRY e))
  else BitVec.ofNat 13 (s.get (F.IC_ECTL_VBASE e) * 128 + src)

/-- Ember `e` takes source `src` (R287, R339). A WAIT whose target is reached completes first, and the handler returns to the
instruction after it (R326). -/
def State.takeInterrupt (e : Fin 4) (src : Nat) (s : State) : State :=
  let m := s.emb[e]
  let ended : Bool := match m.waiting with
    | some t => decide (t.toNat ≤ s.now.toNat)
    | none => false
  let f : Frame := { pc := if ended then m.pc + 1 else m.pc, flags := m.flags, inTask := m.inTask,
                     budgetRunning := m.inTask && m.frames.isEmpty, source := src, level := s.prio src }
  let m' := { m with frames := f :: m.frames, pc := s.handlerEntry e src, waiting := none,
                     lastPc := if ended then m.pc else m.lastPc }
  ({ s with emb := s.emb.set e m' } : State).put (F.IC_ESTAT_LAST e) src |>.put (F.IC_ESTAT_LAST_VALID e) 1

/-- INTERRUPT (R338, R339): the presentation of one cycle; the controller's state is parity-checked (R347). The offset of the
register found wrong, the fault's detail, is free. -/
def execInterrupt (s : State) : Result :=
  actWhen s.inK8 (fun s =>
    match s.inject 0x06 0 with
    | (0, s) => s.each s.presented fun p s => s.takeInterrupt p.1 p.2
    | (_, s) =>
      let (v, s) := s.draw
      s.raise { src := 0x07, kind := kPARITY, cls := fatal, reason := 0x01, detail := (v.setWidth 16).setWidth 24,
                injected := true }) s

/-! ## Register writes -/

/-- The bits of word `i` of a 128-bit vector. -/
def word128 (v : BitVec 128) (i : Nat) : Word := v.extractLsb' (32 * i) 32

/-- A written word in its place, reserved sources masked (R330). -/
def place128 (i : Nat) (v : Word) : BitVec 128 :=
  ((v.zeroExtend 128) <<< (32 * i)) &&&
    ~~~(BitVec.twoPow 128 103 ||| BitVec.twoPow 128 126 ||| BitVec.twoPow 128 127)

/-- A write of IC.LAT_SET word `i`: each 1 sets the latch bit and gives a strobe (R332). -/
def writeLatSet (i : Nat) (v : Word) (s : State) : State :=
  s.each ((List.range 32).filter fun j => v.getLsbD j) fun j => State.interrupt (32 * i + j)

def writeLatClr (i : Nat) (v : Word) (s : State) : State :=
  { s with ic := { s.ic with lat := s.ic.lat &&& ~~~place128 i v } }

def writeEnSet (i : Nat) (v : Word) (s : State) : State :=
  { s with ic := { s.ic with en := s.ic.en ||| place128 i v } }

def writeEnClr (i : Nat) (v : Word) (s : State) : State :=
  { s with ic := { s.ic with en := s.ic.en &&& ~~~place128 i v } }

def writeArrived (i : Nat) (v : Word) (s : State) : State :=
  { s with ic := { s.ic with arrived := s.ic.arrived &&& ~~~place128 i v } }

/-- A write of IC.SRCs: PRIO 5 to 7 stores 4; a reserved source ignores it (R330, R335). -/
def writeSrc (src : Nat) (v : Word) (s : State) : State :=
  if reservedSource src then s
  else (s.put (F.IC_SRC_PRIO src) (min 4 ((F.IC_SRC_PRIO src).of v))).put (F.IC_SRC_ROUTE src)
    ((F.IC_SRC_ROUTE src).of v)

/-- A write of IC.ECTL: CEIL 5 to 7 stores 4 (R342). -/
def writeEctl (e : Nat) (v : Word) (s : State) : State :=
  let s := [F.IC_ECTL_MODE e, F.IC_ECTL_SCAN_ENTRY e, F.IC_ECTL_VBASE e].foldl (fun s f => s.put f (f.of v)) s
  s.put (F.IC_ECTL_CEIL e) (min 4 ((F.IC_ECTL_CEIL e).of v))

/-- LAT_SET (R332). -/
def execLatSet (i : Fin 4) (v : Word) (s : State) : Result := actWhen s.clocked (writeLatSet i v) s

/-! ## Live registers -/

/-- ETAKEN: frame k + 1 in use and its source, oldest frame first (Table 10-5). -/
def Ember.taken (m : Ember) : Word :=
  BitVec.ofNat 32 ((m.frames.reverse.zipIdx).foldl (fun w p => w + (128 + p.1.source) * 256 ^ p.2) 0)

/-- SCAN: bit set when pending, enabled, PRIO ≥ 1, routed here and not in service on another Ember. -/
def State.scanWord (e : Fin 4) (i : Nat) (s : State) : Word :=
  BitVec.ofNat 32 ((List.range 32).foldl (fun w j =>
    let src := 32 * i + j
    let elsewhere := (List.finRange 4).any fun x => x != e && s.emb[x].serves src
    if s.pend src && s.ic.en.getLsbD src && decide (1 ≤ s.prio src) &&
       (s.get (F.IC_SRC_ROUTE src)).testBit e && !elsewhere then w + 2 ^ j else w) 0)

/-- What a register of the controller's window reads when it is not stored as such. -/
def liveIc (off : Nat) (s : State) : Option Word :=
  if off < 0x10 then
    some (BitVec.ofNat 32 ((List.range 32).foldl (fun w j => if s.pend (8 * off + j) then w + 2 ^ j else w) 0))
  else if off < 0x30 then some (word128 s.ic.en (off % 0x10 / 4))
  else if off < 0x50 then some (word128 s.ic.lat (off % 0x10 / 4))
  else if off < 0x60 then some (word128 s.ic.arrived (off % 0x10 / 4))
  else if off < 0x70 then
    some (BitVec.ofNat 32 ((List.range 32).foldl (fun w j =>
      if s.inService (32 * (off % 0x10 / 4) + j) then w + 2 ^ j else w) 0))
  else if 0x300 ≤ off ∧ off < 0x380 then
    let e : Fin 4 := Fin.ofNat 4 ((off - 0x300) / 0x20)
    match off % 0x20 with
    | 0x04 => some ((F.IC_ESTAT_LEVEL e).into s.emb[e].level (s.reg (0x40010000 + off)))
    | 0x08 => some s.emb[e].taken
    | 0x10 => some (s.scanWord e 0)
    | 0x14 => some (s.scanWord e 1)
    | 0x18 => some (s.scanWord e 2)
    | 0x1C => some (s.scanWord e 3)
    | _ => none
  else none

end Sys2Proof.Machine
end

