-- ==== Sys2Proof/Machine/Hearth.lean ====
section
/-! DEFINITION. Hearth (08.7, 08.8): task slots, dispatch, ends of runs, software timers, doorbells, halts. -/

namespace Sys2Proof.Machine

def State.setE (e : Fin 4) (m : Ember) (s : State) : State := { s with emb := s.emb.set e m }

def State.modE (e : Fin 4) (f : Ember → Ember) (s : State) : State := s.setE e (f s.emb[e])

def State.setSlot (i : Fin 64) (t : Slot) (s : State) : State :=
  { s with hrt := { s.hrt with slots := s.hrt.slots.set i t } }

/-! ## Ready and unready (R288) -/

/-- A slot joins the back of its queue. -/
def State.enqueueSlot (i : Fin 64) (s : State) : State :=
  let t : Slot := { s.hrt.slots[i] with st := .ready, rerun := false, since := s.hrt.order }
  { s.setSlot i t with hrt := { (s.setSlot i t).hrt with order := s.hrt.order + 1 } }

def makeReady (i : Fin 64) (s : State) : State :=
  match s.hrt.slots[i].st with
  | .idle => s.enqueueSlot i
  | .ready => s.count F.HRT_CNT_COALESCED 1
  | .running => s.setSlot i { s.hrt.slots[i] with rerun := true }

def unready (i : Fin 64) (s : State) : State :=
  match s.hrt.slots[i].st with
  | .idle => s
  | .ready => s.setSlot i { s.hrt.slots[i] with st := .idle }
  | .running => s.setSlot i { s.hrt.slots[i] with rerun := false }

/-- The slots a mask names, ascending. -/
def slotsOf (m : BitVec 64) : List (Fin 64) := (List.finRange 64).filter fun i => m.getLsbD i

/-- READY (R288): a write of 1s to HRT.READY. -/
def execReady (m : BitVec 64) (s : State) : Result :=
  actWhen s.clocked (fun s => s.each (slotsOf m) makeReady) s

/-- UNREADY (R288). -/
def execUnready (m : BitVec 64) (s : State) : Result :=
  actWhen s.clocked (fun s => s.each (slotsOf m) unready) s

/-- The run on Ember `e` ends: its slot returns to IDLE, or to READY under RERUN (R288, R290). -/
def State.endRun (e : Fin 4) (aborted : Bool) (s : State) : State :=
  let m := s.emb[e]
  if !m.inTask then s
  else
    let i := m.slot
    let s := s.setE e { m with inTask := false, waiting := none, stall := none, budgetHeld := false, storeFault := none }
    let s := s.wrap (F.TSK_STAT_RUNS i) 1
    let s := s.when aborted fun s => (s.put (F.TSK_STAT_ABORTED i) 1).count F.HRT_CNT_ABORTED 1
    if s.hrt.slots[i].rerun then s.enqueueSlot i else s.setSlot i { s.hrt.slots[i] with st := .idle }

/-! ## Dispatch (R289) -/

/-- An AFFINITY of 0 acts as 0xF. -/
def State.affinity (i : Fin 64) (s : State) : Nat :=
  if s.get (F.TSK_CFG_AFFINITY i) = 0 then 0xF else s.get (F.TSK_CFG_AFFINITY i)

/-- The slot of least PRIO, then earliest ready, then lowest number, that may run on Ember `e`. -/
def State.pickSlot (e : Fin 4) (s : State) : Option (Fin 64) :=
  let before (a b : Fin 64) : Bool :=
    let pa := s.get (F.TSK_CFG_PRIO a); let pb := s.get (F.TSK_CFG_PRIO b)
    let ta := s.hrt.slots[a].since; let tb := s.hrt.slots[b].since
    decide (pa < pb) || (pa == pb && (decide (ta < tb) || (ta == tb && decide (a < b))))
  ((List.finRange 64).filter fun i => s.hrt.slots[i].st == .ready && (s.affinity i).testBit e).foldl
    (fun best i => match best with
      | none => some i
      | some b => if before i b then some i else some b) none

/-- Ember `e` starts slot `i`. -/
def State.startTask (e : Fin 4) (i : Fin 64) (s : State) : State :=
  let m := s.emb[e]
  let w := (m.w.set 0 (BitVec.ofNat 32 (s.get (F.TSK_ARG_ARG i)))).set 1 (BitVec.ofNat 32 i.val)
  let s := s.setE e { m with w := w, flags := Flags.reset, rstack := [], inTask := true, slot := i,
                             pc := BitVec.ofNat 13 (s.get (F.TSK_CFG_ENTRY i)), budgetHeld := false,
                             overran := false, renewed := false, waiting := none, stall := none }
  let s := s.setSlot i { s.hrt.slots[i] with st := .running, rerun := false, budget := s.get (F.TSK_BUDGET_BUDGET i) }
  (s.put (F.TSK_STAT_LAST_EMBER i) e).put (F.EMB_RUNCYC_CYCLES e) 0

/-- One cycle of dispatch: at most one task, to the lowest idle Ember that no interrupt is presented to and some ready slot's
affinity names (R289, R345). -/
def State.dispatch (s : State) : State :=
  if s.hrt.draining then s
  else
    match (List.finRange 4).findSome? (fun e =>
      if s.emb[e].idle && !(s.presented.any fun p => p.1 == e) then (s.pickSlot e).map (fun i => (e, i)) else none) with
    | none => s
    | some (e, i) => s.startTask e i

/-- DISPATCH (R289). -/
def execDispatch (s : State) : Result := actWhen s.inK8 State.dispatch s

/-! ## Restart, halt, release (R282, R296, R126) -/

/-- A write of EMB.CTL.RESTART: a STOPPED Ember returns to IDLE with an empty return stack. -/
def restartEmber (e : Fin 4) (s : State) : State :=
  if s.emb[e].stopped then s.modE e fun m => { m with stopped := false, rstack := [] } else s

/-- RESTART (R282). -/
def execRestart (e : Fin 4) (s : State) : Result := actWhen s.clocked (restartEmber e) s

/-- Hearth halts the Embers, abandoning what is stalled (R296). A halted Ember holds no in-service mark (R340). -/
def haltEmbers (s : State) : State :=
  { s with emb := s.emb.map fun m => { m with halted := true, stall := none, waiting := none, storeFault := none } }

/-- Every Ember's store buffer is discarded (Table 08-2). -/
def discardBuffers (s : State) : State :=
  { s with emb := s.emb.map fun m => { m with sbuf := [], retiWait := 0 } }

/-- K8 entry releases the Embers. -/
def releaseEmbers (s : State) : State :=
  { s with emb := s.emb.map fun m => { m with halted := false } }

/-- Hearth and the Embers at a reset (Table 03-1): registers of the windows aside. -/
def resetHearth (s : State) : State :=
  { s with
    hrt := { Hearth.reset with cs := s.hrt.cs }
    emb := s.emb.map fun m => { Ember.reset with w := m.w } }

/-! ## Timers (R292, R293) -/

def State.due (i : Nat) (s : State) : Nat :=
  s.get (F.TMR_DUE_HI_DUE i) * 2 ^ 32 + s.get (F.TMR_DUE_LO_DUE i)

def State.putDue (i t : Nat) (s : State) : State :=
  (s.put (F.TMR_DUE_HI_DUE i) (t / 2 ^ 32)).put (F.TMR_DUE_LO_DUE i) t

/-- Timer `i` fires: event, task, and its next due time. -/
def fireTimer (i : Fin 16) (s : State) : State :=
  let s := (s.setBitOf F.HRT_TMR_EVENT_FIRED i).strobe (104 + i)
  let s := s.when (s.bit (F.TMR_CTL_TASK_EN i)) (makeReady (Fin.ofNat 64 (s.get (F.TMR_CTL_TASK i))))
  let p := s.get (F.TMR_PERIOD_PERIOD i)
  if p = 0 then s.put (F.TMR_CTL_EN i) 0
  else
    let d := s.due i + p
    let k := if d ≤ s.now.toNat then (s.now.toNat - d) / p + 1 else 0
    (s.putDue i (d + k * p)).count (F.TMR_CTL_MISSED i) k

/-- TIMER_FIRE (R293). -/
def execTimerFire (i : Fin 16) (s : State) : Result :=
  actWhen (s.live && !s.hrt.timersStopped && s.bit (F.TMR_CTL_EN i) && decide (s.due i ≤ s.now.toNat)) (fireTimer i) s

/-- A write of TMR.DUE_LO stores a low word (R292). -/
def writeDueLo (i : Nat) (v : Word) (s : State) : State :=
  { s with hrt := { s.hrt with dueLo := s.hrt.dueLo.setIfInBounds i v } }

/-- The following write of TMR.DUE_HI sets the due time to the pair. -/
def writeDueHi (i : Nat) (v : Word) (s : State) : State :=
  s.putDue i (v.toNat * 2 ^ 32 + (s.hrt.dueLo.toList.getD i 0).toNat)

/-! ## Doorbells (08.8, R322) -/

def ringDoorbell (d : Nat) (s : State) : State := (s.setBitOf F.HRT_DOORBELL_RUNG d).strobe (120 + d)

/-! ## Live registers -/

/-- EMBER codes of HRT.STATUS (Table 08-7). -/
def Ember.code (m : Ember) : Nat :=
  if m.halted then 0 else if m.stopped then 5 else if m.excActive then 4 else if !m.frames.isEmpty then 3
  else if m.inTask then 2 else 1

def State.slotMask (p : Slot → Bool) (s : State) : BitVec 64 :=
  BitVec.ofNat 64 ((List.finRange 64).foldl (fun w i => if p s.hrt.slots[i] then w + 2 ^ i.val else w) 0)

/-- Slots READY, or RUNNING with RERUN. -/
def State.readyMask (s : State) : BitVec 64 :=
  s.slotMask fun t => t.st == .ready || (t.st == .running && t.rerun)

/-- EMB.STATE (Table 08-4). -/
def Ember.stateWord (m : Ember) : Word :=
  BitVec.ofNat 32 (m.slot.val * 2 ^ 24 + m.inTask.toNat * 2 ^ 23 + m.excActive.toNat * 2 ^ 22 +
    m.frames.length % 8 * 2 ^ 19 + m.sbuf.length % 16 * 2 ^ 15 + m.lastPc.toNat)

def liveHrt (off : Nat) (s : State) : Option Word :=
  if off = 0 then
    some (BitVec.ofNat 32 (s.hrt.draining.toNat * 2 ^ 16 +
      (s.emb.toList.zipIdx).foldl (fun w p => w + p.1.code * 16 ^ p.2) 0))
  else if off = 0x10 ∨ off = 0x18 then some (s.readyMask.extractLsb' 0 32)
  else if off = 0x14 ∨ off = 0x1C then some (s.readyMask.extractLsb' 32 32)
  else if off = 0x20 then some ((s.slotMask fun t => t.st == .running).extractLsb' 0 32)
  else if off = 0x24 then some ((s.slotMask fun t => t.st == .running).extractLsb' 32 32)
  else if 0x40 ≤ off ∧ off < 0xC0 ∧ off % 0x20 = 4 then some (s.emb[Fin.ofNat 4 ((off - 0x40) / 0x20)]).stateWord
  else if 0x100 ≤ off ∧ off < 0x500 ∧ off % 0x10 = 0xC then
    let i : Fin 64 := Fin.ofNat 64 ((off - 0x100) / 0x10)
    let t := s.hrt.slots[i]
    let st := match t.st with | .idle => 0 | .ready => 1 | .running => 2
    some ((F.TSK_STAT_RERUN i).into t.rerun.toNat ((F.TSK_STAT_STATE i).into st (s.reg (0x40000000 + off))))
  else none

end Sys2Proof.Machine
end

