-- ==== Sys2Proof/Machine/Kin.lean ====
section
/-! DEFINITION. The node's phase as registers show it (Tables 03-9 and 01-16), and the indicators of Table 01-2. -/

namespace Sys2Proof.Machine

/-- KIN.STATUS.PHASE (Table 03-9). -/
def Phase.code : Phase → Nat
  | .k0 => 0 | .k1 => 1 | .k2 => 2 | .k3 => 3 | .k4 => 4 | .k5 => 5 | .k6 => 6 | .k7 => 7 | .k8 => 8
  | .caldera => 0xC | .hold => 0xD

/-- KIN.STATUS.RESET_KIND. -/
def ResetKind.code : ResetKind → Nat
  | .powerOn => 0 | .resetN => 1 | .calderaExit => 2 | .warm => 3

def State.modNode (f : Node → Node) (s : State) : State := { s with node := f s.node }

/-- KIN.STATUS as it reads. -/
def State.kinStatus (s : State) : Word :=
  F.KIN_STATUS_PHASE.into s.node.phase.code (F.KIN_STATUS_RESET_KIND.into s.node.kind.code (s.reg 0x400E0000))

def liveKin (off : Nat) (s : State) : Option Word := if off = 0 then some s.kinStatus else none

/-- The node drives PWP_N high: Peat writes a record, or a transfer writes the plug (R53, R135). -/
def State.plugWriting (s : State) : Bool :=
  s.live && s.node.pvdd && (!s.work.peat.isEmpty || (match s.plug.xfer with
    | some x => x.toPlug
    | none => false))

def liveIdent (off : Nat) (s : State) : Option Word :=
  if off = 0x14 then some (Config.moduleSerial.extractLsb' 0 32)
  else if off = 0x18 then some (Config.moduleSerial.extractLsb' 32 32)
  else if off = 0x1C then
    some (BitVec.ofNat 32 (4 * s.plugWriting.toNat + 2 * s.node.holdLow.toNat + s.node.plugPresent.toNat))
  else none

/-- A phase ends: its END field takes the time since the start of K0 in 0.1 ms (Table 03-9). -/
def endPhase (f : Field) (next : Phase) (s : State) : State :=
  let n := (s.cycles - s.node.k0At + s.node.k0Lead) * 10000 / 536870912
  (s.put f (min 0xFFFF n)).modNode fun x => { x with phase := next, phaseAt := s.cycles }

/-- K3 is over. -/
def Phase.afterK3 : Phase → Bool
  | .k4 | .k5 | .k6 | .k7 | .k8 => true
  | _ => false

/-- K3 is over and neither Caldera nor plug hold has come: a plug withdrawn now is R55's. -/
def State.plugKnown (s : State) : Bool := s.node.phase.afterK3

/-- From K3 on the plug is read: Table 02-4's steps 1, 2 and 5 act (R75, Table 03-8). -/
def State.plugRead (s : State) : Bool := s.node.phase.afterK3 || s.node.phase == .k3

/-- A Kindling fault (R107). -/
def kinFault (kind : BitVec 5) (cls : BitVec 2) (reason : BitVec 8) (detail : BitVec 24) (s : State) : State :=
  s.raise { src := 0x18, kind := kind, cls := cls, reason := reason, detail := detail }

/-- A FATAL Kindling fault: Kindling goes no further. -/
def kinFatal (kind : BitVec 5) (reason : BitVec 8) (detail : BitVec 24) (s : State) : State :=
  (kinFault kind fatal reason detail s).modNode fun x => { x with kinHalted := true }

/-- Kindling runs in phase `p`. -/
def State.kindles (p : Phase) (s : State) : Bool :=
  s.clocked && decide (s.node.phase = p) && !s.node.kinHalted && (s.node.pwr == .none || s.node.pwr == .running)

/-- RUN (Table 01-2). -/
def State.runLamp (s : State) : RunLamp :=
  if s.node.pwr = .halted ∨ s.node.pwr = .stopped ∨ s.node.pwr = .complete then .off
  else match s.node.phase with
    | .k8 => .green
    | .caldera => .red
    | .hold => .amber
    | _ => .greenFlash

/-! ## The plug contacts and the FLUE pins (Table 01-7) -/

/-- PCS_N, PSCK and PMOSI: high-impedance, driven by the node, or PCS_N high with PWP_N low. -/
inductive Contacts where
  | highZ | driven | parked
deriving DecidableEq, Repr

/-- The plug's contacts (R36, Table 01-7): high-impedance while PVDD is off and before K3, and PCS_N high once Caldera has
written its record. -/
def State.contacts (s : State) : Contacts :=
  if !s.node.pvdd then .highZ
  else match s.node.phase with
    | .k0 | .k1 | .k2 | .hold => .highZ
    | .caldera => if s.node.calderaStep = 2 then .parked else .driven
    | _ => .driven

/-- The ring line is locked: EAST or WEST is at T4 or UP (DEDUCED, log entry 98). -/
def State.lineLocked (s : State) : Bool := (List.range 2).any fun p => decide (5 ≤ s.get (F.LINE_STATUS_STATE p))

/-- CLK, FS and TXD of the FLUE ports run in K8 and, once the line is locked, in K6 and K7; they are low otherwise. -/
def State.flueRuns (s : State) : Bool :=
  s.clocked && (match s.node.phase with
    | .k8 => true
    | .k6 | .k7 => s.lineLocked
    | _ => false)

end Sys2Proof.Machine
end

