-- ==== Sys2Proof/Machine/Dist.lean ====
section
/-! DEFINITION. Image delivery and activation (04.10, R297, R298), and the control-store scrubber (R285, R286). -/

namespace Sys2Proof.Machine

def State.modDist (f : Dist → Dist) (s : State) : State := { s with dist := f s.dist }

/-- PLG.DIST_STATE.STATE codes. -/
def dIDLE : Nat := 0
def dRECEIVING : Nat := 1
def dSTAGED : Nat := 2
def dARMED : Nat := 3
def dPRELOADED : Nat := 4
def dREFUSED : Nat := 5

def State.distState (s : State) : Nat := s.get F.PLG_DIST_STATE_STATE

/-- A change of STATE strobes source 91 (R175). -/
def setDist (st : Nat) (s : State) : State :=
  if s.distState = st then s else (s.put F.PLG_DIST_STATE_STATE st).interrupt 91

def setAct (act : Nat) (s : State) : State := (s.put F.PLG_DIST_ACT_HI_ACT (act / 2 ^ 32)).put F.PLG_DIST_ACT_LO_ACT act

def State.act (s : State) : Nat := s.get F.PLG_DIST_ACT_HI_ACT * 2 ^ 32 + s.get F.PLG_DIST_ACT_LO_ACT

def State.secNow (s : State) : Nat := s.now.toNat / 536870912

/-- The inactive copy is STAGED with sequence `q`. -/
def State.holdsStaged (q : Nat) (s : State) : Bool := s.commitOf s.inactive == .staged && s.imageSeq s.inactive == q

/-- FLAGS.DISTRIBUTE of a copy. -/
def State.distributes (c : Bool) (s : State) : Bool := s.copyLe c 0x4E 2 % 2 == 1

def State.rosterOf (c : Bool) (s : State) : BitVec 128 := BitVec.ofNat 128 (s.copyLe c 0x58 16)

def popImage (type : Byte) (s : State) : Option (List Byte × State) :=
  match s.dist.inbox.find? fun c => byteAt c 0 == type with
  | none => none
  | some c => some (c, s.modDist fun d => { d with inbox := d.inbox.erase c })

/-- The first image cell of a type received is acted on. -/
def onImage (type : Byte) (f : List Byte → State → State) (s : State) : Result :=
  actWhen s.working (fun s => match popImage type s with
    | none => s
    | some (c, s) => f c s) s

/-! ## STATUS cells (Table 04-15) -/

/-- Runs of set bits among chunks `k` to `n - 1`: first and count. -/
def runsOf (m : BitVec 5462) : Nat → Nat → Option (Nat × Nat) → List (Nat × Nat)
  | 0, _, r => r.toList
  | n + 1, k, r =>
    if m.getLsbD k then runsOf m n (k + 1) (match r with
      | some (a, c) => some (a, c + 1)
      | none => some (k, 1))
    else match r with
      | some x => x :: runsOf m n (k + 1) none
      | none => runsOf m n (k + 1) none

/-- MFE_MISMATCH: no version the inactive copy lists is one the MFE reported. -/
def State.mismatch (s : State) : Bool := !((s.romList s.inactive).any fun v => s.bar.roms.contains v)

def sendStatus (seq state code dst : Nat) (mismatch : Bool) (ranges : List (Nat × Nat)) (s : State) : State :=
  let r := (ranges.take 4).map fun x => beBytes 2 x.1 ++ beBytes 2 x.2
  let c := workCell ([0x22, BitVec.ofNat 8 s.address] ++ beBytes 4 seq ++ [BitVec.ofNat 8 state, BitVec.ofNat 8 code, BitVec.ofNat 8 dst,
    BitVec.ofNat 8 mismatch.toNat] ++ r.flatten)
  s.modWork fun w => { w with images := w.images ++ [c] }

def sNEED : Nat := 1
def sSTAGED : Nat := 2
def sREFUSED : Nat := 3
def sARMED : Nat := 4

def imgFault (kind : BitVec 5) (reason : BitVec 8) (detail : Nat) (s : State) : State := wrkFault kind reason detail s

/-- IMG_REFUSED, with REFUSAL shown. -/
def imgRefused (code seq : Nat) (s : State) : State :=
  imgFault kCOMPAT 0x20 (code + 256 * (seq % 65536)) (s.put F.PLG_DIST_STATE_REFUSAL code)

/-- Chunks of `len` bytes. -/
def chunksFor (len : Nat) : Nat := (len + 47) / 48

/-- Chunks a receiver lacks. -/
def State.missing (s : State) : List (Nat × Nat) := runsOf (~~~ s.dist.chunks) (chunksFor s.dist.len) 0 none

/-- STATUS with NEED. -/
def sendNeed (s : State) : State :=
  let s := sendStatus (s.get F.PLG_DIST_SEQ_SEQUENCE) sNEED 0 s.dist.origin.toNat false s.missing s
  s.modDist fun d => { d with needAt := some s.cycles }

/-! ## Receiving (R165–R167) -/

def clearChunks (s : State) : State := (s.put F.PLG_DIST_STATE_CHUNKS 0).modDist fun d => { d with chunks := 0 }

/-- The newest sequence that makes an offer of `q` OLDER: the running image's, or that of another image staged or being received. -/
def State.olderThan (q : Nat) (s : State) : Option Nat :=
  let other := s.get F.PLG_DIST_SEQ_SEQUENCE
  let holds := s.distState = dRECEIVING ∨ s.commitOf s.inactive = .staged
  let other := if s.distState = dRECEIVING then other else s.imageSeq s.inactive
  if !newer 32 q (s.get F.KIN_IMAGE_SEQ_SEQUENCE) then some (s.get F.KIN_IMAGE_SEQ_SEQUENCE)
  else if holds ∧ other ≠ q ∧ !newer 32 q other then some other
  else none

def levelBad (lo hi : Nat) : Bool := decide (hi < 1) || decide (3 < lo) || decide (hi < lo)

/-- A preload is abandoned. -/
def dropPreload (s : State) : State := (s.put F.HRT_SWAP_PRELOADED 0).put F.TSI_STATUS_PRELOADED 0

/-- A drain ends without a swap (R298, R299). -/
def endDrain (s : State) : State :=
  { (s.modDist fun d => { d with window := none }) with hrt := { s.hrt with draining := false } }

/-- The node becomes the receiver of an image. The fields of the commit block beside COMMIT keep the old SEQ_COPY, with
ACT_SECOND 0 and SOURCE 0xFF; a preload of the copy it replaces is abandoned, and a drain for it ends (DESIGN CHOICE, log
entry 106). -/
def startReceiving (c : List Byte) (seq : Nat) (s : State) : State :=
  let s := writeCommit s.inactive 0 (s.copyLe s.inactive 4 4) 0 0xFF (endDrain (dropPreload s))
  let s := clearChunks ((s.put F.PLG_DIST_STATE_ROLE 1).put F.PLG_DIST_SEQ_SEQUENCE seq)
  let s := s.modDist fun d => { d with origin := BitVec.ofNat 8 (cellFrom c), len := beAt c 8 4, serve := none }
  let s := if s.distState = dRECEIVING then s.interrupt 91 else setDist dRECEIVING s
  sendNeed (setAct 0 s)

/-- Why an offer is refused: the code, and the sequence its STATUS names. -/
def State.offerRefusal (c : List Byte) (s : State) : Option (Nat × Nat) :=
  let seq := beAt c 2 4
  match s.dist.refusals.find? fun r => r.1.toNat == seq with
  | some (_, code) => some (code.toNat, seq)
  | none => match s.olderThan seq with
    | some q => some (1, q)
    | none => if levelBad (byteAt c 32).toNat (byteAt c 33).toNat then some (2, seq) else none

/-- An offer that is not refused: the image is being received, is staged already, or reception begins. -/
def acceptImageOffer (c : List Byte) (s : State) : State :=
  let seq := beAt c 2 4
  if s.distState = dRECEIVING ∧ s.get F.PLG_DIST_SEQ_SEQUENCE = seq then s
  else if s.holdsStaged seq then sendStatus seq sSTAGED 0 (cellFrom c) s.mismatch [] s
  else startReceiving c seq s

/-- R165 for one OFFER cell of an image. -/
def takeImageOffer (c : List Byte) (s : State) : State :=
  if !(byteAt c (16 + s.address / 8)).getLsbD (s.address % 8) then s
  else match s.offerRefusal c with
    | some (code, q) => imgRefused code (beAt c 2 4) (sendStatus q sREFUSED code (cellFrom c) false [] s)
    | none => acceptImageOffer c s

/-- IMAGE_OFFER (R165). -/
def execImageOffer (s : State) : Result := onImage 0x20 takeImageOffer s

/-- A complete copy is refused for good (R167). -/
def refuseStaged (code seq : Nat) (s : State) : State :=
  let s := imgRefused code seq (clearChunks (sendStatus seq sREFUSED code s.dist.origin.toNat false [] s))
  setDist dREFUSED (s.modDist fun d => { d with refusals := (BitVec.ofNat 32 seq, BitVec.ofNat 8 code) :: d.refusals })

/-- IMAGE_VERIFY (R167): a receiver holds every chunk. -/
def verifyImage (s : State) : State :=
  let c := s.inactive
  let seq := s.get F.PLG_DIST_SEQ_SEQUENCE
  let v := if s.headerOk c then s.contentVerdict c else .headerBad
  match v with
  | .acceptable =>
    let s := writeCommit c 0x3C3C5A5A (s.imageSeq c) 0 s.dist.origin.toNat s
    setDist dSTAGED (sendStatus seq sSTAGED 0 s.dist.origin.toNat s.mismatch [] s)
  | .headerBad | .sectionBad =>
    let s := clearChunks (imgFault kCRC 0x21 v.code s)
    if s.dist.failedOnce = some (BitVec.ofNat 32 seq) then
      setDist dREFUSED ((sendStatus seq sREFUSED 4 s.dist.origin.toNat false [] s).put F.PLG_DIST_STATE_REFUSAL 4)
    else sendNeed (s.modDist fun d => { d with failedOnce := some (BitVec.ofNat 32 seq) })
  | .noPersonality => refuseStaged 3 seq s
  | _ => refuseStaged 2 seq s

/-- Chunks that lie within a copy: the last ends at byte 0x3_FFFF of it. -/
def copyChunks : Nat := 5460

/-- R166 for one CHUNK cell. A chunk beyond the copy's end is not taken, whatever IMAGE_LEN the OFFER gave: what follows copy A
is copy B (R137; DEDUCED, log entry 106). -/
def takeChunk (c : List Byte) (s : State) : State :=
  let k := beAt c 6 2
  let n := chunksFor s.dist.len
  if s.distState ≠ dRECEIVING ∨ beAt c 2 4 ≠ s.get F.PLG_DIST_SEQ_SEQUENCE ∨ n ≤ k ∨ copyChunks ≤ k ∨ s.dist.chunks.getLsbD k then s
  else
    let s := writePlug (copyBase s.inactive + 0x40 + 48 * k) (slice c 8 48) s
    let s := s.modDist fun d => { d with chunks := d.chunks ||| BitVec.twoPow 5462 k }
    let s := s.wrap F.PLG_DIST_STATE_CHUNKS 1
    if s.get F.PLG_DIST_STATE_CHUNKS = n then verifyImage s else s

/-- CHUNK (R166). -/
def execChunk (s : State) : Result := onImage 0x21 takeChunk s

/-- NEED_REPORT (R166). -/
def execNeedReport (s : State) : Result :=
  actWhen (s.working && s.distState == dRECEIVING && dueSince s.dist.needAt 536870912 s) sendNeed s

/-- BEACON (R173) for one cell; the chunks of an image not yet offered are asked for as one range from 0. -/
def takeBeacon (c : List Byte) (s : State) : State :=
  let seq := beAt c 2 4
  let receiving := s.distState = dRECEIVING ∧ s.get F.PLG_DIST_SEQ_SEQUENCE = seq
  if !newer 32 seq (s.get F.KIN_IMAGE_SEQ_SEQUENCE) ∨ receiving ∨ s.holdsStaged seq then s
  else sendStatus seq sNEED 0 (cellFrom c) false [(0, 0xFFFF)] s

def execBeacon (s : State) : Result := onImage 0x23 takeBeacon s

/-- BEACON_SEND (R173). -/
def execBeaconSend (s : State) : Result :=
  actWhen (s.working && s.distributes s.selected && dueSince s.dist.beaconAt 5368709120 s) (fun s =>
    let c := workCell ([0x23, BitVec.ofNat 8 s.address] ++ beBytes 4 (s.get F.KIN_IMAGE_SEQ_SEQUENCE) ++
      [BitVec.ofNat 8 (s.get F.IDENT_MODULE_RUN_LEVEL)])
    (s.modWork fun w => { w with images := w.images ++ [c] }).modDist fun d => { d with beaconAt := some s.cycles }) s

/-! ## Serving (R163, R166, R168) -/

def newServe (seq : Nat) (roster staged : BitVec 128) : Serve :=
  { seq := BitVec.ofNat 32 seq, roster := roster, staged := staged, refused := 0, round := 0, needed := 0, firstAt := none,
    offerAt := none, armed := false }

/-- The bits of a STATUS cell's ranges. -/
def rangeBits (c : List Byte) (n : Nat) : BitVec 5462 :=
  (List.range 4).foldl (fun m i =>
    let a := beAt c (10 + 4 * i) 2
    let k := min (beAt c (12 + 4 * i) 2) (n - a)
    m ||| ((BitVec.ofNat 5462 (2 ^ k - 1)) <<< a)) 0

/-- A report moves the record of one image served. -/
def Serve.take (v : Serve) (c : List Byte) (n : Nat) : Serve :=
  let bit := BitVec.twoPow 128 (cellFrom c)
  match (byteAt c 6).toNat with
  | 1 => if v.round = 0 then { v with needed := v.needed ||| rangeBits c n } else v
  | 2 => { v with staged := v.staged ||| bit }
  | 3 => { v with refused := v.refused ||| bit }
  | _ => v

/-- PLG.DIST_ROSTER shows who has reported STAGED. -/
def showRoster (v : Serve) (s : State) : State :=
  s.each (List.range 4) fun i => State.putReg (0x400E0060 + 4 * i) (v.staged.extractLsb' (32 * i) 32)

/-- The staged image is no longer distributed. -/
def endServe (s : State) : State := (s.put F.PLG_DIST_STATE_ROLE 0).modDist fun d => { d with serve := none }

/-- R166, R163, R173 for one STATUS cell addressed to this distributor: a node named in the running image's ROSTER that asks
with NEED is served from the selected copy, from a first OFFER of its own. -/
def takeStatus (c : List Byte) (s : State) : State :=
  let seq := beAt c 2 4
  let refusedOlder := (byteAt c 6).toNat = sREFUSED ∧ byteAt c 7 = 1
  if (byteAt c 8).toNat ≠ s.address then s
  else
    let s : State := match s.dist.serve with
      | none => s
      | some v =>
        if v.seq.toNat = seq then
          let v := v.take c (s.chunkCount s.inactive)
          showRoster v (s.modDist fun d => { d with serve := some v })
        else if refusedOlder ∧ newer 32 seq v.seq.toNat then endServe s
        else s
    let c' := s.selected
    if seq = s.get F.KIN_IMAGE_SEQ_SEQUENCE ∧ s.distributes c' ∧ (s.rosterOf c').getLsbD (cellFrom c) then
      let v := s.dist.catchUp.getD (newServe seq 0 0)
      if v.roster.getLsbD (cellFrom c) then s.modDist fun d => { d with catchUp := some (v.take c (s.chunkCount c')) }
      else if (byteAt c 6).toNat = sNEED then
        s.modDist fun d => { d with catchUp := some { v with
          roster := v.roster ||| BitVec.twoPow 128 (cellFrom c), staged := v.staged &&& ~~~(BitVec.twoPow 128 (cellFrom c)),
          refused := v.refused &&& ~~~(BitVec.twoPow 128 (cellFrom c)), firstAt := none, offerAt := none } }
      else s
    else s

/-- IMAGE_STATUS (R166). -/
def execImageStatus (s : State) : Result := onImage 0x22 takeStatus s

/-- Every node served has reported, or STAGE_LIMIT has passed since the first OFFER. -/
def State.serveOver (v : Serve) (c : Bool) (s : State) : Bool :=
  v.roster &&& ~~~ (v.staged ||| v.refused) == 0 || s.limitOver v c

/-- No further round: every node served that is in the ring has reported, or STAGE_LIMIT has passed (R166). -/
def State.roundsOver (inRing : BitVec 128) (v : Serve) (c : Bool) (s : State) : Bool :=
  v.roster &&& inRing &&& ~~~ (v.staged ||| v.refused) == 0 || s.limitOver v c

/-- The OFFER cell of copy `c`. -/
def imageOffer (c : Bool) (s : State) : List Byte :=
  workCell ([0x20, BitVec.ofNat 8 s.address] ++ beBytes 4 (s.imageSeq c) ++ beBytes 2 (s.chunkCount c) ++
    beBytes 4 (s.copyLe c 0x68 4) ++ beBytes 4 (s.copyLe c 0xFC 4) ++ s.copyBytes c 0x58 16 ++
    [BitVec.ofNat 8 (s.levelLo c), BitVec.ofNat 8 (s.levelHi c)])

/-- The nodes that are in the ring now, which nothing in the node says: free (log entry 115). -/
def State.nodesInRing (s : State) : BitVec 128 × State :=
  let (a, s) := s.draw
  let (b, s) := s.draw
  (a ++ b, s)

/-- One image served: its OFFER each second; every chunk with the first, then what has been reported missing. -/
def serveRound (v : Serve) (c : Bool) (s : State) : Serve × State :=
  let (inRing, s) := s.nodesInRing
  let all := BitVec.ofNat 5462 (2 ^ s.chunkCount c - 1)
  let ended := s.roundsOver inRing v c
  let taken := v.firstAt.isNone || (v.round == 0 && !ended)
  let round := if v.firstAt.isNone then all else if s.limitOver v c then 0 else if taken then v.needed else v.round
  let v' := { v with round := round, needed := if taken then 0 else v.needed, firstAt := some (v.firstAt.getD s.cycles) }
  if dueSince v.offerAt 536870912 s then
    ({ v' with offerAt := some s.cycles }, s.modWork fun w => { w with images := w.images ++ [imageOffer c s] })
  else (v', s)

/-- OFFER_ROUND (R166). What is served to the nodes of R173 ends with its STAGE_LIMIT. -/
def execOfferRound (s : State) : Result :=
  actWhen s.working (fun s =>
    let s := match s.dist.serve with
      | none => s
      | some v =>
        let (v, s) := serveRound v s.inactive s
        s.modDist fun d => { d with serve := some v }
    match s.dist.catchUp with
    | none => s
    | some v =>
      if s.limitOver v s.selected ∧ v.staged = 0 then s.modDist fun d => { d with catchUp := none }
      else
        let (v, s) := serveRound v s.selected s
        s.modDist fun d => { d with catchUp := some v }) s

/-- ACT as R168 chooses it for copy `c`. -/
def State.chooseAct (c : Bool) (s : State) : Nat :=
  let moment := (s.now.toNat + 536870911) / 536870912
  let least := max (s.copyLe c 0x70 8) (moment + s.copyLe c 0x78 2)
  (least + 59) / 60 * 60

/-- ACTIVATE_IMAGE items for the nodes of a mask. -/
def armNodes (m : BitVec 128) (seq : Word) (act : Nat) (s : State) : State :=
  let l := (targetsOf m).map fun n => (n, seq, BitVec.ofNat 64 act)
  serveHeld (s.modWork fun w => { w with arming := w.arming ++ l })

/-- The distributor arms its own copy, and every node that reported STAGED. -/
def armServe (v : Serve) (s : State) : State :=
  let act := s.chooseAct s.inactive
  let s := rewriteCommit s.inactive 0x3C3C5A5A act s
  let s := setDist dARMED (setAct act (s.modDist fun d => { d with serve := some { v with armed := true } }))
  armNodes (v.staged &&& ~~~ (BitVec.twoPow 128 s.address)) v.seq act s

/-- ARMING (R168, R173). -/
def execArming (s : State) : Result :=
  actWhen s.working (fun s =>
    let s := match s.dist.serve with
      | none => s
      | some v => if v.armed = false ∧ v.firstAt.isSome ∧ s.serveOver v s.inactive then armServe v s else s
    match s.dist.catchUp with
    | none => s
    | some v =>
      if v.staged = 0 then s
      else
        let rest := v.roster &&& ~~~ v.staged
        let left := if rest &&& ~~~ v.refused = 0 then none else some { v with roster := rest, staged := 0 }
        let s := s.modDist fun d => { d with catchUp := left }
        armNodes v.staged v.seq (s.chooseAct s.selected) s) s

/-! ## Activation (R169–R172) -/

/-- R169 for the head item. A disarming ends a drain for the copy, and so does an ACT that replaces another. -/
def activate (r : JRec) (s : State) : State :=
  let seq := r.item.arg0.toNat
  let act := r.item.arg2.toNat
  let c := s.inactive
  let dst := s.copyLe c 0x10 1
  let tell (st : Nat) (s : State) : State := if dst = 0xFF then s else sendStatus seq st 0 dst s.mismatch [] s
  let s :=
    if !s.holdsStaged seq then imgFault kCOMPAT 0x23 (seq % 65536) s
    else
      let s := if act = s.act then s else endDrain s
      let s := setAct act ((rewriteCommit c 0x3C3C5A5A act s).put F.PLG_DIST_SEQ_SEQUENCE seq)
      if act = 0 then tell sSTAGED (setDist dSTAGED (dropPreload s))
      else tell sARMED (if s.distState = dPRELOADED then s else setDist dARMED s)
  carriedOut r 0 s

/-- ACTIVATE_IMAGE (R169). -/
def execActivateImage (s : State) : Result :=
  actWhen s.working (fun s => match s.headReady aIMAGE with
    | some r => activate r s
    | none => s) s

/-- The preload cannot be made; ACT_SECOND is cleared where the copy holds a commit block of that sequence. -/
def preloadMissing (s : State) : State :=
  let c := s.inactive
  let seq := s.get F.PLG_DIST_SEQ_SEQUENCE
  let s := imgFault kCRC 0x22 0xFFFF s
  let staged := s.holdsStaged seq
  let s := if s.copyCrc c 0 0x3C 0x3C ∧ s.copyLe c 4 4 = seq then rewriteCommit c (s.copyLe c 0 4) 0 s else s
  setDist (if staged then dSTAGED else dIDLE) (setAct 0 s)

/-- A section failed its CRC: disarmed, to be received afresh. -/
def preloadFailed (index : Nat) (s : State) : State :=
  let s := rewriteCommit s.inactive 0x3C3C5A5A 0 (imgFault kCRC 0x22 index s)
  let len := s.copyLe s.inactive 0x68 4
  let from_ := s.copyLe s.inactive 0x10 1
  let s := s.modDist fun d => { d with len := len, origin := BitVec.ofNat 8 from_ }
  sendNeed (setDist dRECEIVING (clearChunks (setAct 0 s)))

/-- The preload of R170. -/
def preload (s : State) : State :=
  let c := s.inactive
  if !s.holdsStaged (s.get F.PLG_DIST_SEQ_SEQUENCE) ∨ s.pset c s.band = 0xFFFF then preloadMissing s
  else
    let mi := s.psetIndex c 0
    let ti := s.psetIndex c 4
    let m := s.entry c mi
    let t := s.entry c ti
    if !s.sectionCrc c m ∨ !(microwords (s.body c m)).all parityOk then preloadFailed mi s
    else if ti ≠ 0xFFFF ∧ !s.sectionCrc c t then preloadFailed ti s
    else
      let s := loadMicrocode (1 - s.get F.HRT_SWAP_ACTIVE_PAGE) c m s
      let s := if s.tsi.swap.isSome then
          tsiFault kPROTOCOL corrected 0x06 0 false ((dropSwap s).put F.TSI_STATUS_LAST_CANCELLED 1)
        else s
      let s := loadPage (!s.activePage) (if ti = 0xFFFF then [] else pageEntries (s.body c t)) s
      setDist dPRELOADED ((s.put F.HRT_SWAP_PRELOADED 1).put F.TSI_STATUS_PRELOADED 1)

/-- PRELOAD (R170); it waits for a copy in progress (R431). -/
def execPreload (s : State) : Result :=
  actWhen (s.working && s.distState == dARMED && s.act != 0 && s.tsi.copy.isNone &&
    decide (s.act ≤ s.secNow + 10)) preload s

/-- The next activation window (R172): the first second ACT + 60k not yet begun, 10 s after K8 entry or later. -/
def State.nextWindow (s : State) : Nat :=
  let least := max ((s.dist.k8At + 536870911) / 536870912 + 10) (s.secNow + 1)
  if least ≤ s.act then s.act else s.act + (least - s.act + 59) / 60 * 60

/-- DRAINING (R297). -/
def execDraining (s : State) : Result :=
  let wait := max 1 (s.get F.HRT_SWAP_SWAPWAIT) * 1024
  actWhen (s.working && s.distState == dPRELOADED && s.dist.window.isNone &&
      decide (s.nextWindow * 536870912 ≤ s.now.toNat + wait)) (fun s =>
    { (s.modDist fun d => { d with window := some s.nextWindow }) with hrt := { s.hrt with draining := true } }) s

/-- Quiescent (R298). -/
def State.quiescent (s : State) : Bool := s.emb.toList.all fun m => (m.idle || m.stopped) && m.sbuf.isEmpty

/-- The Embers a predicate holds of, as a mask. -/
def State.emberMask (p : Ember → Bool) (s : State) : Nat :=
  (s.emb.toList.zipIdx).foldl (fun w x => if p x.1 then w + 2 ^ x.2 else w) 0

/-- The number of the frame the node begins next at EAST, or at WEST when EAST is not transmitting; a node that transmits
nothing goes by its own system time (DESIGN CHOICE, log entry 106). -/
def State.nextFrame (s : State) : Nat :=
  let own := s.now.toNat * 8000 / 536870912
  if s.transmitting 0 || s.transmitting 1 then
    match (s.port (if s.transmitting 0 then 0 else 1)).txNum with
    | some n => n.toNat + 1
    | none => own
  else own

/-- The swap (R171, R298): the control-store page is the new one at once, and each port takes the new connection page with its
first frame numbered 8000·W or more (R430). COMMITTED is written by the warm restart that follows. -/
def swapPages (w : Nat) (s : State) : State :=
  let s := ((s.put F.HRT_SWAP_ACTIVE_PAGE (1 - s.get F.HRT_SWAP_ACTIVE_PAGE)).put F.HRT_SWAP_PRELOADED 0).put F.HRT_SWAP_LAST_ABANDONED 0
  let s := { s with hrt := { s.hrt with scrubAt := 0, scrubBad := [] } }
  let s := s.modTsi fun t => { t with swap := some (8000 * w), swapImage := true }
  let s := if (List.finRange 4).any s.transmitting then s else swapDone s
  let s := if w = s.act then s else imgFault kTIMEOUT 0x24 ((w - s.act) / 60) s
  let s := endServe (setDist dIDLE (setAct 0 (endDrain s)))
  s.modDist fun d => { d with warmDue := true }

/-- SWAP_TIMEOUT (R298): what is busy, what is in a SHIFT, whose store buffer is not empty. -/
def abandonSwap (s : State) : State :=
  let notIdle (m : Ember) : Bool := !(m.idle || m.stopped)
  let inShift (m : Ember) : Bool := notIdle m && (match m.stall with
    | some x => x.inShift
    | none => false)
  let detail := s.emberMask notIdle + 16 * s.emberMask inShift + 256 * s.emberMask (fun m => !m.sbuf.isEmpty)
  endDrain ((s.put F.HRT_SWAP_LAST_ABANDONED 1).raise
    { src := 0x06, kind := kSWAP_TIMEOUT, cls := contained, reason := 0x03, detail := BitVec.ofNat 24 detail })

/-- The copy is armed and both its pages hold the preload. -/
def State.preloaded (s : State) : Bool :=
  s.distState == dPRELOADED && s.act != 0 && s.bit F.HRT_SWAP_PRELOADED && s.bit F.TSI_STATUS_PRELOADED

/-- PAGE_SWAP (R171, R298): the next frame is the first numbered 8000·W or more. A jump past the whole second misses the window
(R394). -/
def execPageSwap (s : State) : Result :=
  actWhen (s.working && s.hrt.draining && s.preloaded) (fun s => match s.dist.window with
    | none => s
    | some w =>
      if s.nextFrame < 8000 * w then s
      else if 8000 * (w + 1) ≤ s.nextFrame then endDrain s
      else if s.quiescent then swapPages w s
      else abandonSwap s) s

/-- K8 entry: what the plug holds decides the role (R163, R174). -/
def startDist (s : State) : State :=
  let c := s.inactive
  let seq := s.imageSeq c
  let act := s.copyLe c 8 8
  let s := s.modDist fun d => { d with k8At := s.now.toNat }
  if s.commitOf c ≠ .staged then s
  else
    let own := s.copyLe c 0x10 1 = 0xFF ∧ s.distributes c ∧ newer 32 seq (s.get F.KIN_IMAGE_SEQ_SEQUENCE)
    let s := setAct act ((s.put F.PLG_DIST_SEQ_SEQUENCE seq).put F.PLG_DIST_STATE_ROLE (if own then 2 else 1))
    let s := setDist (if act = 0 then dSTAGED else dARMED) s
    if own then
      let roster := s.rosterOf c
      let v := { newServe seq roster (roster &&& BitVec.twoPow 128 s.address) with armed := act != 0 }
      showRoster v (s.modDist fun d => { d with serve := some v })
    else s

/-! ## The scrubber (R285, R286) -/

/-- The scrubber runs from K5's load of the active page until the next reset, in Caldera and in plug hold too; a freeze stops
it (R285). -/
def State.scrubs (s : State) : Bool := s.clocked && s.hrt.loaded

/-- SCRUB (R285): the next word of the active page. -/
def execScrub (s : State) : Result :=
  actWhen s.scrubs (fun s =>
    let i := s.hrt.scrubAt
    let (ok, s) := s.csCheck (s.get F.HRT_SWAP_ACTIVE_PAGE) i
    let s := if ok then s else noteBadWord i s
    { s with hrt := { s.hrt with scrubAt := (i + 1) % 8192 } }) s

/-- Page and word of a control-store fault, and whether only an injection failed the word's check. -/
def csFault (reason : BitVec 8) (cls : BitVec 2) (i : Nat) (s : State) : State :=
  let page := s.get F.HRT_SWAP_ACTIVE_PAGE
  s.raise { src := 0x05, kind := kPARITY, cls := cls, reason := reason, detail := BitVec.ofNat 24 (page + 256 * i),
            injected := parityOk (s.csWord page i) }

/-- A bad word is done with, rewritten or given up. -/
def endBad (i : Nat) (gaveUp : Bool) (s : State) : State :=
  { s with hrt := { s.hrt with scrubBad :=
      if gaveUp then s.hrt.scrubBad.map fun b => if b.word = i then { b with failed := true } else b
      else s.hrt.scrubBad.filter fun b => b.word != i } }

/-- CS_SCRUBBED (R286): Peat rewrites the oldest bad word from the selected copy; where it then checks, the Embers waiting for it
continue, and where it fails again CS_UNCORR is raised. -/
def execCsScrubbed (s : State) : Result :=
  actWhen (s.scrubs && s.plugReachable) (fun s => match s.hrt.scrubBad.find? fun b => !b.failed with
    | none => s
    | some b =>
      let i := b.word
      let page := s.get F.HRT_SWAP_ACTIVE_PAGE
      let injected := parityOk (s.csWord page i)
      let s := { s with hrt := { s.hrt with cs := tabSet 0 s.hrt.cs (csKey page i) (s.imageWord i) } }
      match s.csCheck page i with
      | (false, s) => endBad i true (csFault 0x02 fatal i s)
      | (true, s) =>
        let s := s.raise { src := 0x05, kind := kPARITY, cls := corrected, reason := 0x01,
                           detail := BitVec.ofNat 24 (page + 256 * i), injected := injected }
        { endBad i false s with emb := s.emb.map fun m => if m.pc.toNat = i then { m with scrubWait := false } else m }) s

/-- CS_UNCORR (R286): a bad word has not been rewritten within 100 µs. -/
def execCsUncorr (s : State) : Result :=
  actWhen s.scrubs (fun s => match s.hrt.scrubBad.find? fun b => !b.failed && decide (b.foundAt + usCycles 100 ≤ s.cycles) with
    | none => s
    | some b => endBad b.word true (csFault 0x02 fatal b.word s)) s

end Sys2Proof.Machine
end

