-- ==== Sys2Proof/Machine/PlugIo.lean ====
section
/-! DEFINITION. Plug transfers (04.9) and the log area (04.8). -/

namespace Sys2Proof.Machine

/-- Write bytes through scratchpad from any address, one doubleword at a time; the number stored before the first failure. -/
def spmPut (m a : Nat) : Nat → List Byte → State → Nat × State
  | 0, _, s => (0, s)
  | k + 1, bs, s =>
    if bs.isEmpty then (0, s)
    else
      let n := min bs.length (8 - a % 8)
      match s.spmWrite m a n (ofLe (bs.take n)) with
      | (.ok, s) =>
        let (d, s) := spmPut m (a + n) k (bs.drop n) s
        (n + d, s)
      | (_, s) => (0, s)

/-- Read `n` bytes through scratchpad from a multiple of 4, one word at a time; what was read before the first failure. -/
def spmGet (m a : Nat) : Nat → Nat → State → List Byte × State
  | 0, _, s => ([], s)
  | k + 1, n, s =>
    if n = 0 then ([], s)
    else
      let c := min n 4
      match s.spmRead m a 4 with
      | (.ok, v, s) =>
        let (bs, s) := spmGet m (a + c) k (n - c) s
        (leBytes c v ++ bs, s)
      | (_, _, s) => ([], s)

/-- Move up to `n` bytes of a transfer; the number moved. -/
def moveBytes (x : Transfer) (n : Nat) (s : State) : Nat × State :=
  if x.toPlug then
    let (bs, s) := spmGet 7 x.spad 1025 n s
    (bs.length, writePlug x.addr bs s)
  else spmPut 7 x.spad 514 (s.plugBytes x.addr n) s

def xferOver (result done : Nat) (s : State) : State :=
  let s := ((s.put F.PLG_STATUS_BUSY 0).put F.PLG_STATUS_RESULT result).put F.PLG_STATUS_DONE done
  ({ s with plug := { s.plug with xfer := none } } : State).interrupt 92

/-- RESULT of a transfer that may not run: 0 where it may (R160). -/
def Transfer.refusal (x : Transfer) : Nat :=
  if x.toPlug ∧ (x.addr < 0xFA000 ∨ 0xFE000 < x.addr + x.len) then 1
  else if x.len = 0 ∨ 4096 < x.len ∨ 0x100000 < x.addr + x.len ∨ 0x84000 < x.spad + x.len then 2
  else 0

/-- A write of PLG.CTL (R160). -/
def writePlgCtl (v : Word) (s : State) : State :=
  let s := (s.put F.PLG_CTL_DIR (F.PLG_CTL_DIR.of v)).put F.PLG_CTL_LEN (F.PLG_CTL_LEN.of v)
  if F.PLG_CTL_GO.of v = 0 ∨ s.bit F.PLG_STATUS_BUSY then s
  else
    let x : Transfer := { toPlug := s.bit F.PLG_CTL_DIR, addr := s.get F.PLG_ADDR_ADDR, spad := s.get F.PLG_SPAD_SPAD / 4 * 4,
                          len := s.get F.PLG_CTL_LEN }
    let r := x.refusal
    if r = 0 then
      let s := ((s.put F.PLG_STATUS_BUSY 1).put F.PLG_STATUS_DONE 0)
      { s with plug := { s.plug with xfer := some x } }
    else xferOver r 0 (s.raise { src := 0x14, kind := kPROTOCOL, cls := corrected, reason := 0x02, detail := detail3 r })

/-- TRANSFER (R160): a write of PLG.CTL. -/
def execTransfer (v : Word) (s : State) : Result := actWhen s.clocked (writePlgCtl v) s

/-- TRANSFER_END (R161): every byte has moved; an access of scratchpad that fails ends it ABORTED. -/
def execTransferEnd (s : State) : Result :=
  actWhen (s.live && s.node.plugPresent && decide (s.node.pwr = .none)) (fun s => match s.plug.xfer with
    | none => s
    | some x =>
      let (n, s) := moveBytes x x.len s
      xferOver (if n = x.len then 0 else 3) n s) s

/-- PWRFAIL, a hold or a reset stops a transfer at the end of its burst of 256 bytes (R161); which burst is free. -/
def abortTransfer (s : State) : State :=
  match s.plug.xfer with
  | none => s
  | some x =>
    let (v, s) := s.draw
    let bursts := v.toNat % ((x.len + 255) / 256) + 1
    let (n, s) := moveBytes x (min x.len (256 * bursts)) s
    xferOver 3 n s

/-! ## Log records (R158, R159) -/

/-- LOG_SEQ of the record at index `i`, if it is valid. -/
def State.plugLogSeq (i : Nat) (s : State) : Option Nat :=
  let b := s.plugBytes (0xFE000 + 64 * i) 64
  if crcLeOk 0x3C b then some (leAt b 4 4) else none

/-- Index and LOG_SEQ of the next record. -/
def State.plugLogNext (s : State) : Nat × Nat :=
  let best := (List.range 128).foldl (fun (b : Option (Nat × Nat)) i => match s.plugLogSeq i, b with
    | none, b => b
    | some q, none => some (i, q)
    | some q, some (j, p) => if newer 32 q p then some (i, q) else some (j, p)) none
  match best with
  | none => (0, 1)
  | some (i, q) => ((i + 1) % 128, (q + 1) % 2 ^ 32)

/-- A log record (Table 04-13): TYPE, CAUSE, TIME, STATE and VERDICTS given. -/
def plugLog (type cause : Byte) (time : SysTime) (state : Word) (verdicts : Nat) (s : State) : State :=
  let (i, q) := s.plugLogNext
  let live := (s.work.cust.filter fun r => !r.released).length
  let b := [type, cause, BitVec.ofNat 8 (s.get F.IDENT_MODULE_RUN_LEVEL), BitVec.ofNat 8 s.address] ++ leBytes 4 q ++
    leBytes 8 time.toNat ++ leBytes 4 (s.get F.KIN_IMAGE_SEQ_SEQUENCE) ++ leBytes 4 state.toNat ++
    leBytes 2 s.work.awq.length ++ leBytes 2 live ++ leBytes 4 verdicts ++ leBytes 8 Config.moduleSerial.toNat ++
    List.replicate 20 0
  writePlug (0xFE000 + 64 * i) (b ++ leBytes 4 (crc32c b).toNat) s

/-- SHUTDOWN (Table 02-4 step 5, R57): at `time`; `done` records were completed at step 2. -/
def shutdownRecord (cause : Byte) (time : SysTime) (done : Nat) (s : State) : State :=
  plugLog 0x01 cause time (BitVec.ofNat 32 (s.get F.BAR_SUPPLY_VBULK + 65536 * done)) 0 s

end Sys2Proof.Machine
end

