-- ==== Sys2Proof/Machine/Time.lean ====
section
/-! DEFINITION. The time unit (chapter 5): states, steps, sources, time transfer, election, leap seconds, the
RTC and PPS_OUT, and the clock monitor's faults. -/

namespace Sys2Proof.Machine

def State.modT (f : TimeUnit → TimeUnit) (s : State) : State := { s with tim := f s.tim }

/-- One second in units of system time and in CORE cycles (R179). -/
def second : Nat := 536870912

/-- Offsets are held in this many parts of a unit: halves of 10^-10 s parts of R190 are whole. -/
def offScale : Int := 20000000000

/-! ## What the registers show (R182, R183, R188) -/

def State.timeState (s : State) : Nat := s.get F.TIME_STATUS_STATE

def tINVALID : Nat := 0
def tCOARSE : Nat := 1
def tLOCKING : Nat := 2
def tLOCKED : Nat := 3
def tHOLDOVER : Nat := 4
def tFREE : Nat := 5

def State.isMaster (s : State) : Bool := s.bit F.TIME_STATUS_IS_MASTER

/-- The node's own class (R188); 0xF when none. -/
def State.ownClass (s : State) : Nat :=
  if s.bit F.TIME_STATUS_SRC_OK then (if s.tim.path then (if s.tim.acc ≤ 10 then 2 else 3) else 1) else 0xF

/-- CLASS of the adopted BEST. -/
def State.masterClass (s : State) : Nat := (s.reg 0x400B003C).toNat / 2 ^ 28

/-- R183. -/
def State.timeValid (s : State) : Bool :=
  if s.timeState = tHOLDOVER then true
  else if s.timeState = tLOCKED then
    (if s.isMaster then decide (s.ownClass ≤ 3) else decide (1 ≤ s.masterClass) && decide (s.masterClass ≤ 4))
  else false

/-- Signed saturation to `w` bits. -/
def satInt (w : Nat) (v : Int) : Nat :=
  let m : Int := 2 ^ (w - 1)
  (BitVec.ofInt w (max (-m) (min (m - 1) v))).toNat

/-- A whole number of `d`ths of `n`, rounded to the nearest; between two equally near, a free one. -/
def nearest (n : Int) (d : Nat) (s : State) : Int × State :=
  if 2 * (n % d) = d then
    let (v, s) := s.draw
    (n.fdiv d + (v.getLsbD 0).toNat, s)
  else ((2 * n + d).fdiv (2 * d), s)

/-- A quotient whose rounding the spec leaves open: exact, or one of its two neighbours. -/
def openDiv (n : Int) (d : Nat) (s : State) : Int × State :=
  if n % d = 0 then (n / d, s)
  else
    let (v, s) := s.draw
    (n.fdiv d + (v.getLsbD 0).toNat, s)

/-! ## Events and faults (R200, R201) -/

/-- Set a bit of TIME.EVENT: an arrival of its interrupt source. -/
def State.timeEvent (f : Field) (src : Nat) (s : State) : State := (s.put f 1).strobe src

def timeFault (kind : BitVec 5) (reason : BitVec 8) (detail : BitVec 24) (s : State) : State :=
  s.raise { src := 0x15, kind := kind, cls := corrected, reason := reason, detail := detail }

/-- The bin in progress notes a moment with VALID = 0 (R447). -/
def noteValid (s : State) : State := if s.timeValid then s else s.modRing fun r => { r with dip := true }

/-- Enter a time state (Table 05-3). -/
def setTimeState (n : Nat) (s : State) : State :=
  if s.timeState = n then s
  else
    let s := (s.put F.TIME_STATUS_STATE n).timeEvent F.TIME_EVENT_STATE_CHANGED 95
    let s := noteValid (s.modT fun t => { t with inSince := none, outSince := none })
    if n = tLOCKED then s.modT fun t => { t with lockedSeen := true }
    else if n = tHOLDOVER then
      timeFault kLOSS_OF_SYNC 0x02 0 (s.modT fun t => { t with holdAt := s.cycles, agree := 0, stepDue := none })
    else if n = tFREE then timeFault kTIMEOUT 0x03 0 s
    else s

/-! ## Steering (R184) -/

/-- The loop's bandwidth [mHz]: a slave's, a master's on PPS_IN, a master's on a class 2 or class 3 source. -/
def State.loopBandwidth (s : State) : Nat := if s.isMaster then (if s.tim.path then 2 else 20) else 500

/-- The frequency correction after a sample `x` of the offset: the loop's, kept within ±200 ppm, and on the frequency master
within 10 ppm a second of the last one. -/
def steer (x : Int) (s : State) : State :=
  let old : Int := (BitVec.ofNat 32 (s.get F.TIME_FREQ_FREQ)).toInt
  let f : Int := max (-200000) (min 200000 (Config.loopFreq s.loopBandwidth x old))
  let lim : Int := (min 400000 ((s.cycles - s.tim.steerAt) * 10000 / second) : Nat)
  let f := if s.isMaster then max (old - lim) (min (old + lim) f) else f
  (s.put F.TIME_FREQ_FREQ (satInt 32 f)).modT fun t => { t with steerAt := s.cycles }

/-! ## Steps (R179, R185) -/

/-- System time changes by `d` units. -/
def stepTime (d : Int) (s : State) : State :=
  let before := s.utcCount (s.now.toNat / second)
  let s := { s with now := s.now + BitVec.ofInt 64 d }
  let s := stepPerf (decide (0 < d)) before (s.utcCount (s.now.toNat / second)) s.timeValid s
  let s := s.each (List.finRange 64) fun c s => if d ≤ 0 ∨ s.wheelDomain c then s else markBehind c s
  let (us, s) := openDiv (d * 1000000) second s
  let (ms, s) := openDiv (d * 1000) second s
  let s := (s.put F.TIME_STEP_STEP (satInt 32 us)).timeEvent F.TIME_EVENT_STEPPED 94
  let s := s.modT fun t =>
    let soft := t.soft.map fun p => (p.1 + d, p.2)
    let spans := t.spans.map fun (x : SpanTime) => { x with
      arrival := none, departs := [], delays := [], thetas := [], stepLeft := 8 }
    { t with stepAt := some s.cycles, soft := soft, spans := spans, second := s.now.toNat / second, agree := 0,
             stepDue := none, inSince := none, outSince := none,
             stamp := t.stamp.map fun x => x + BitVec.ofInt 64 d }
  timeFault kLOSS_OF_SYNC 0x04 (BitVec.ofNat 24 (satInt 24 ms)) s

/-- STEP (R185): a filtered offset above 1 ms is due to be stepped out. -/
def execStep (s : State) : Result :=
  actWhen (s.live && s.tim.hasRef) (fun s => match s.tim.stepDue with
    | none => s
    | some x =>
      let (d, s) := nearest (-x) offScale.toNat s
      stepTime d s) s

/-- Is an offset's magnitude at most `n`/`d` seconds? -/
def offWithin (x : Int) (d : Nat) : Bool := decide (x.natAbs * d ≤ second * offScale.toNat)

/-- A filtered offset to the reference: the step it calls for, or steering (R184, R185), and how long it
has been within ±1 µs or beyond ±10 µs (R182). -/
def offsetSample (x : Int) (source : Bool) (s : State) : State :=
  let (o, s) := nearest x offScale.toNat s
  let s := s.put F.TIME_OFFSET_OFFSET (satInt 32 o)
  let s :=
    if offWithin x 1000 then steer x (s.modT fun t => { t with agree := 0, stepDue := none })
    else s.modT fun t =>
      let n := t.agree + 1
      { t with agree := n, stepDue := if source = false ∨ 3 ≤ n then some x else none }
  let since (b : Bool) (o : Option Nat) : Option Nat := if b then some (o.getD s.cycles) else none
  let s := s.modT fun t =>
    { t with inSince := since (offWithin x 1000000) t.inSince, outSince := since (!offWithin x 100000) t.outSince }
  match s.tim.outSince with
  | some c => if s.timeState = tLOCKED ∧ c + second ≤ s.cycles then setTimeState tLOCKING s else s
  | none => s

/-- LOCKED (R182): the filtered offset has been within ±1 µs for 2 s. -/
def execLocked (s : State) : Result :=
  actWhen (s.live && s.tim.hasRef && decide (s.timeState = tLOCKING)) (fun s => match s.tim.inSince with
    | some c => if c + 2 * second ≤ s.cycles then setTimeState tLOCKED s else s
    | none => s) s

/-- HOLDOVER_EXPIRED (R182): HOLD_MAX hours have passed; 0 acts as 1. -/
def execHoldoverExpired (s : State) : Result :=
  actWhen (s.live && decide (s.timeState = tHOLDOVER) &&
    decide (s.tim.holdAt + max 1 (s.get F.TIME_CTL_HOLD_MAX) * 3600 * second ≤ s.cycles)) (setTimeState tFREE) s

/-- TMC is fitted: the strap's bit reads 0 (R39). -/
def State.tmcFitted (s : State) : Bool := !s.bit F.IDENT_STRAPS_TMC

/-- The reference appears or is lost (05.4, Table 05-3). A master of last resort with TMC open has none: it steers from no
source (R39, R194). -/
def referenceChanged (s : State) : State :=
  let has := s.sup.inserted &&
    (if s.isMaster then s.tmcFitted && s.bit F.TIME_STATUS_SRC_OK else s.tim.port.isSome)
  if has = s.tim.hasRef then s
  else
    let s := s.modT fun t => { t with hasRef := has, agree := 0, stepDue := none, inSince := none, outSince := none }
    if has then (if s.timeState = tLOCKED then s else setTimeState tLOCKING s)
    else if s.timeState = tLOCKED then setTimeState tHOLDOVER s
    else if s.timeState = tLOCKING then setTimeState (if s.tim.lockedSeen then tHOLDOVER else tCOARSE) s
    else s

/-- On resume the reference is as just regained (R177). -/
def timeResume (s : State) : State :=
  if s.tim.hasRef then
    setTimeState tLOCKING (s.modT fun t => { t with inSince := none, outSince := none, agree := 0, stepDue := none })
  else s

/-! ## Sources (R182a, R186–R188) -/

/-- The source is no longer valid, and its counts start again. -/
def sourceInvalid (s : State) : State :=
  let s := s.modT fun t => { t with edgeAt := none, stamp := none, label := none, good := 0, rejects := 0,
                                    soft := none, badSoft := 0 }
  if s.bit F.TIME_STATUS_SRC_OK then
    referenceChanged ((s.put F.TIME_STATUS_SRC_OK 0).timeEvent F.TIME_EVENT_SRC_CHANGED 95)
  else s

/-- SRC_EN in force; 3 acts as 0. -/
def State.srcEn (s : State) : Nat := let n := s.get F.TIME_CTL_SRC_EN; if n = 3 then 0 else n

/-- A rejection: counted, and the fault with its path. -/
def sourceReject (path : Nat) (s : State) : State :=
  timeFault kPROTOCOL 0x01 (detail3 path) (s.count F.TIME_CNT_SRC_REJECTS 1)

/-- A write of TIME.CTL. -/
def writeTimeCtl (v : Word) (s : State) : State :=
  let changed := F.TIME_CTL_SRC_EN.of v != s.get F.TIME_CTL_SRC_EN
  let s := (s.put F.TIME_CTL_HOLD_MAX (F.TIME_CTL_HOLD_MAX.of v)).put F.TIME_CTL_SRC_EN (F.TIME_CTL_SRC_EN.of v)
  let s := (s.put F.TIME_CTL_PPS_OUT_WIDTH (F.TIME_CTL_PPS_OUT_WIDTH.of v)).put F.TIME_CTL_PPS_OUT_EN (F.TIME_CTL_PPS_OUT_EN.of v)
  s.when changed sourceInvalid

/-- A PPS_IN rising edge with stamp `t`. The second between accepted edges is measured in CORE cycles; an edge with no accepted
one before it is accepted (DESIGN CHOICE, log entry 107). -/
def ppsEdge (t : SysTime) (s : State) : State :=
  let s := s.modT fun x => { x with edgeSeen := s.cycles }
  let ok := match s.tim.edgeAt with
    | none => true
    | some c => decide ((((s.cycles - c : Nat) : Int) - second).natAbs * 1000000 ≤ 250 * second)
  if ok then
    let late := s.tim.stamp.isSome
    let s := s.when late sourceInvalid
    let st := t - (BitVec.ofNat 32 (s.get F.TIME_PPS_COMP_COMP)).signExtend 64
    let s := (s.put F.TIME_PPS_IN_LO_EDGE st.toNat).put F.TIME_PPS_IN_HI_EDGE (st.toNat / 2 ^ 32)
    s.modT fun x => { x with edgeAt := some s.cycles, stamp := some st, rejects := 0 }
  else
    let s := (sourceReject 0 s).modT fun x => { x with rejects := x.rejects + 1, good := 0 }
    if 2 ≤ s.tim.rejects then sourceInvalid s else s

/-- PPS_IN_EDGE (R186): stamp `t` of a rising edge on PPS_IN. -/
def execPpsInEdge (t : SysTime) (s : State) : Result :=
  actWhen (s.live && decide (s.srcEn = 1)) (ppsEdge t) s

/-- UTC offset in force, signed. -/
def State.utcOffset (s : State) : Int := (BitVec.ofNat 16 (s.get F.TIME_UTC_OFFSET)).toInt

/-- The offset of an edge labelled `c` (R198's rule in reverse), in units. -/
def labelOffset (t : SysTime) (c : Word) (leap60 : Bool) (s : State) : Int :=
  (t.toNat : Int) - ((c.toNat : Int) + s.utcOffset + leap60.toNat) * second

/-- SRC_OK after enough accepted samples. -/
def sourceGood (need : Nat) (s : State) : State :=
  if need ≤ s.tim.good ∧ s.bit F.TIME_STATUS_SRC_OK = false then
    referenceChanged ((s.put F.TIME_STATUS_SRC_OK 1).timeEvent F.TIME_EVENT_SRC_CHANGED 95)
  else s

/-- An accepted sample of the own source: it steers the node only when the node is time master; on any other node it is
shown in TIME.OFFSET (R188). -/
def sourceSample (x : Int) (s : State) : State :=
  let s := s.modT fun t => { t with srcOffset := some (x * offScale) }
  if s.isMaster ∧ s.bit F.TIME_STATUS_SRC_OK ∧ s.tim.hasRef then offsetSample (x * offScale) true s
  else s.put F.TIME_OFFSET_OFFSET (satInt 32 x)

/-- GO with PATH 0: label the last edge (R186); a label with none before it is in sequence (DESIGN CHOICE, log entry 107). -/
def labelEdge (s : State) : State :=
  let c := s.reg 0x400B0028
  let leap60 := s.bit F.TIME_SRC_CMD_LEAP60
  match s.tim.stamp with
  | none => sourceReject 0 s
  | some t =>
    let s := s.modT fun x => { x with stamp := none }
    let ok : Bool := match s.tim.label with
      | none => true
      | some l => c == l + 1 || (leap60 && c == l)
    let late : Bool := match s.tim.edgeAt with
      | some e => decide (e + 9 * second / 10 < s.cycles)
      | none => false
    if ok = false ∨ late then (sourceInvalid s).modT fun x => { x with label := some c }
    else
      let s := s.modT fun x => { x with label := some c, good := x.good + 1, path := false }
      sourceSample (labelOffset t c leap60 s) (sourceGood 8 s)

/-- GO with PATH 1: a soft submission (R187). A submission with no accepted one before it is consistent; a rejected one restarts
the 10 s, and the three consecutive consistent ones begin again after it (DESIGN CHOICE, log entry 107). -/
def softSubmission (s : State) : State :=
  let s := s.modT fun x => { x with softAt := s.cycles }
  let n := s.get F.TIME_SRC_CMD_ACC
  let e : SysTime := s.reg 0x400B0024 ++ s.reg 0x400B0020
  let d : Int := (e.toNat : Int) - s.now.toNat
  if 17 < n ∨ 2 * second < d.natAbs then (sourceReject 1 s).modT fun x => { x with good := 0 }
  else
    let x := labelOffset e (s.reg 0x400B0028) (s.bit F.TIME_SRC_CMD_LEAP60) s
    let consistent := match s.tim.soft with
      | none => true
      | some (y, m) => decide ((x - y).natAbs * 1000000 ≤ 2 * 2 ^ max n m * second)
    if consistent then
      let s := s.modT fun t => { t with soft := some (x, n), good := t.good + 1, badSoft := 0, path := true, acc := n }
      sourceSample x (sourceGood 3 s)
    else
      let s := timeFault kPROTOCOL 0x01 (detail3 1) s
      let s := s.modT fun t => { t with good := 0, badSoft := t.badSoft + 1 }
      if 2 ≤ s.tim.badSoft then sourceInvalid s else s

/-- A write of TIME.SRC_CMD (R182a, R186, R187). -/
def writeSrcCmd (v : Word) (s : State) : State :=
  let s := [F.TIME_SRC_CMD_PATH, F.TIME_SRC_CMD_LEAP60, F.TIME_SRC_CMD_ACC].foldl (fun s f => s.put f (f.of v)) s
  if F.TIME_SRC_CMD_GO.of v = 0 ∨ s.srcEn = 0 then s
  else
    let path := F.TIME_SRC_CMD_PATH.of v
    if path + 1 ≠ s.srcEn then sourceReject path s
    else if path = 0 then labelEdge s else softSubmission s

/-- SRC_LABEL (R186): a write of TIME.SRC_CMD with GO = 1 and PATH = 0. -/
def execSrcLabel (v : Word) (s : State) : Result :=
  actWhen s.clocked (writeSrcCmd (F.TIME_SRC_CMD_PATH.into 0 (F.TIME_SRC_CMD_GO.into 1 v))) s

/-- SOFT_SUBMISSION (R187): a write of TIME.SRC_CMD with GO = 1 and PATH = 1. -/
def execSoftSubmission (v : Word) (s : State) : Result :=
  actWhen s.clocked (writeSrcCmd (F.TIME_SRC_CMD_PATH.into 1 (F.TIME_SRC_CMD_GO.into 1 v))) s

/-- The source has been without an edge, a label or a submission for its limit (R186, R187). -/
def State.sourceStale (s : State) : Bool :=
  if s.srcEn = 1 then
    decide (s.tim.edgeSeen + 3 * second / 2 ≤ s.cycles) ||
    (s.tim.stamp.isSome && (match s.tim.edgeAt with
      | some e => decide (e + 9 * second / 10 < s.cycles)
      | none => false))
  else if s.srcEn = 2 then decide (s.tim.softAt + 10 * second ≤ s.cycles)
  else false

/-- SOURCE_INVALID (R186, R187). -/
def execSourceInvalid (s : State) : Result := actWhen (s.live && s.sourceStale) sourceInvalid s

/-! ## Leap seconds and UTC (R198) -/

def setUtc (o : Int) (s : State) : State :=
  if s.utcOffset = o then s
  else (s.put F.TIME_UTC_OFFSET (BitVec.ofInt 16 o).toNat).timeEvent F.TIME_EVENT_LEAP_CHANGED 95

/-- The pending leap: direction and second. -/
def setLeap (dir sec : Nat) (s : State) : State :=
  if s.get F.TIME_UTC_LEAP_DIR = dir ∧ s.get F.TIME_LEAP_LO_S_L + 2 ^ 32 * s.get F.TIME_LEAP_HI_S_L = sec then s
  else
    let s := (s.put F.TIME_UTC_LEAP_DIR dir).put F.TIME_STATUS_LEAP_PENDING (if dir = 0 then 0 else 1)
    ((s.put F.TIME_LEAP_LO_S_L sec).put F.TIME_LEAP_HI_S_L (sec / 2 ^ 32)).timeEvent F.TIME_EVENT_LEAP_CHANGED 95

/-- The LEAPS table's entry in effect at a second: of those at or before it, the one with the greatest second, the later in
the table of two alike (R198). -/
def tableOffset (l : List (Nat × Int)) (sec : Nat) : Option Int :=
  let later (b : Option (Nat × Int)) (e : Nat × Int) : Option (Nat × Int) :=
    match b with
    | some x => if e.1 < x.1 then b else some e
    | none => some e
  ((l.filter fun e => decide (e.1 ≤ sec)).foldl later none).map (·.2)

/-- The own table gives the offset, 0 where it has no entry yet: on a master, and without one where none was ever
received. What an announced leap has changed stands until the table's next entry. -/
def takeTable (s : State) : State :=
  let o := (tableOffset s.tim.leaps (s.now.toNat / second)).getD 0
  if s.tim.taken ≠ some o ∧ (s.isMaster ∨ (s.tim.port = none ∧ s.tim.received = none)) then
    setUtc o (s.modT fun x => { x with taken := some o })
  else s

/-- The direction and the change of offset it makes. -/
def leapDelta (dir : Nat) : Int := if dir = 1 then 1 else if dir = 2 then -1 else 0

/-- The pending leap takes effect at the boundary of its second. -/
def applyLeap (s : State) : State :=
  let dir := s.get F.TIME_UTC_LEAP_DIR
  let sec := s.get F.TIME_LEAP_LO_S_L + 2 ^ 32 * s.get F.TIME_LEAP_HI_S_L
  if dir ≠ 0 ∧ s.now.toNat / second = sec then setLeap 0 0 (setUtc (s.utcOffset + leapDelta dir) s) else s

/-- UTC_OFFSET, LEAP_DIR and LEAP_SEC received on the time port override the table; a leap that the sender has
announced and this node has already reached counts as made. -/
def takeReceivedUtc (o : Int) (dir sec : Nat) (s : State) : State :=
  let made := dir ≠ 0 ∧ sec ≤ s.now.toNat / second
  let o := if made then o + leapDelta dir else o
  let (dir, sec) := if made ∨ dir = 0 ∨ 2 < dir then (0, 0) else (dir, sec)
  let s := match tableOffset s.tim.leaps (s.now.toNat / second) with
    | some t => if t ≠ o ∧ s.tim.received ≠ some o then
        timeFault kCOMPAT 0x05 (detail3 (BitVec.ofInt 8 o).toNat (BitVec.ofInt 8 t).toNat) s else s
    | none => s
  setLeap dir sec (setUtc o (s.modT fun x => { x with received := some o, taken := none }))

/-- A write of TIME.LEAP_CMD. -/
def writeLeapCmd (v : Word) (s : State) : State :=
  let s := s.put F.TIME_LEAP_CMD_DIR (F.TIME_LEAP_CMD_DIR.of v)
  if F.TIME_LEAP_CMD_ANNOUNCE.of v = 0 ∨ s.isMaster = false then s
  else match F.TIME_LEAP_CMD_DIR.of v with
    | 0 => setLeap 0 0 s
    | 3 => s
    | d => setLeap d (s.tim.leapHi.toNat * 2 ^ 32 + s.tim.leapLo.toNat) s

/-- ANNOUNCE (R198): a write of TIME.LEAP_CMD with ANNOUNCE = 1. -/
def execAnnounce (v : Word) (s : State) : Result :=
  actWhen s.clocked (writeLeapCmd (F.TIME_LEAP_CMD_ANNOUNCE.into 1 v)) s

/-! ## Election (R193, R194) -/

/-- An advertisement: CLASS, ADDR, GEN, HOPS of a BEST word (Table 05-5). -/
structure Adv where
  cls : Nat
  addr : Nat
  gen : Byte
  hops : Nat
deriving DecidableEq, Repr

def Adv.ofWord (w : BitVec 32) : Adv :=
  ⟨(w.extractLsb' 28 4).toNat, (w.extractLsb' 21 7).toNat, w.extractLsb' 13 8, (w.extractLsb' 6 7).toNat⟩

def Adv.word (a : Adv) : BitVec 32 :=
  BitVec.ofNat 4 a.cls ++ BitVec.ofNat 7 a.addr ++ a.gen ++ BitVec.ofNat 7 a.hops ++ (0 : BitVec 6)

/-- Is `a` least by (class, addr, hops)? -/
def Adv.le (a b : Adv) : Bool :=
  decide (a.cls < b.cls) || (a.cls == b.cls && (decide (a.addr < b.addr) || (a.addr == b.addr && decide (a.hops ≤ b.hops))))

/-- GEN `a` is newer than `b`, in serial arithmetic. -/
def newerGen (a b : Byte) : Bool := a != b && decide ((a - b).toNat < 128)

/-- This node's advertisement (R193). -/
def State.ownAdv (s : State) : Adv :=
  let tmc := s.tmcFitted
  let cls := if tmc ∧ s.bit F.TIME_STATUS_SRC_OK then s.ownClass
    else if tmc ∧ s.isMaster ∧ s.timeState = tHOLDOVER then 4 else 5
  ⟨cls, s.node.ident.address.toNat % 128, s.tim.gen, 0⟩

/-- What is heard of the two spans: one hop added. -/
def heardAdvs (mine : Nat) (l : List (BitVec 32)) : List Adv :=
  (l.map Adv.ofWord).filterMap fun a =>
    if a.addr ≠ mine ∧ a.hops < 127 ∧ a.cls ≤ 5 then some { a with hops := a.hops + 1 } else none

/-- Of the entries for one address: the newest GEN, then the fewest hops. -/
def freshest (l : List Adv) : List Adv :=
  l.filter fun a => l.all fun b => b.addr != a.addr ||
    (!newerGen b.gen a.gen && (b.gen != a.gen || decide (a.hops ≤ b.hops)))

/-- Note the GEN of an address and when it changed. -/
def noteGen (cycle : Nat) (a : Adv) (l : List (Nat × Byte × Nat)) : List (Nat × Byte × Nat) :=
  match l.find? (fun e => e.1 == a.addr) with
  | some e => if e.2.1 = a.gen then l else (a.addr, a.gen, cycle) :: l.filter fun e => e.1 != a.addr
  | none => (a.addr, a.gen, cycle) :: l

/-- The GEN of the address has not changed for 3 s. -/
def staleGen (cycle : Nat) (a : Adv) (l : List (Nat × Byte × Nat)) : Bool :=
  match l.find? (fun e => e.1 == a.addr) with
  | some e => decide (e.2.2 + 3 * second ≤ cycle)
  | none => false

/-- The port that gives the adopted BEST, or its master: fewer hops, then WEST (R191). -/
def choosePort (best : Adv) (spans : Vector SpanTime 4) : Option (Fin 4) :=
  let cand (p : Fin 4) : Option (Bool × Nat × Fin 4) := match spans[p].best with
    | none => none
    | some w =>
      let a := Adv.ofWord w
      let a := { a with hops := a.hops + 1 }
      if a.addr = best.addr then some (decide (a ≠ best), a.hops, p) else none
  match cand 0, cand 1 with
  | none, none => none
  | some _, none => some 0
  | none, some _ => some 1
  | some (x, hx, _), some (y, hy, _) =>
    if x != y then (if x then some 1 else some 0) else if hx < hy then some 0 else some 1

/-- The least of some advertisements. -/
def leastAdv : List Adv → Option Adv
  | [] => none
  | a :: l => some (l.foldl (fun b x => if Adv.le b x then b else x) a)

/-- Nothing is adopted: BEST at its reset value, no master, no time port. -/
def adoptNothing (s : State) : State :=
  let s := s.put F.TIME_BEST_BEST 0xF0000000
  let s := [(F.TIME_STATUS_MASTER_CLASS, 0xF), (F.TIME_STATUS_MASTER_ADDR, 0), (F.TIME_STATUS_HOPS, 0),
    (F.TIME_STATUS_IS_MASTER, 0)].foldl (fun s p => s.put p.1 p.2) s
  referenceChanged (s.modT fun t => { t with port := none })

/-- The time port lost its reference, and the BEST to adopt names another master: the node loses its reference before it takes
the new one (R191). -/
def dropReference (best : Adv) (s : State) : State :=
  let lost : Bool := match s.tim.port with
    | some p => s.tim.spans[p].best.isNone
    | none => false
  if lost ∧ (Adv.ofWord (s.reg 0x400B003C)).addr ≠ best.addr then referenceChanged (s.modT fun t => { t with port := none })
  else s

/-- The registers and events of an adopted BEST. -/
def showBest (best : Adv) (master : Bool) (s : State) : State :=
  let old := Adv.ofWord (s.reg 0x400B003C)
  let s := s.put F.TIME_BEST_BEST best.word.toNat
  let s := [(F.TIME_STATUS_MASTER_CLASS, best.cls), (F.TIME_STATUS_MASTER_ADDR, best.addr),
    (F.TIME_STATUS_HOPS, best.hops), (F.TIME_STATUS_IS_MASTER, master.toNat)].foldl (fun s p => s.put p.1 p.2) s
  if old.addr ≠ best.addr ∨ old.cls = 15 then s.timeEvent F.TIME_EVENT_MASTER_CHANGED 94 else s

/-- The time port becomes `port`; after a change the loop goes on from the new port's filtered theta (R191). -/
def takePort (port : Option (Fin 4)) (s : State) : State :=
  let moved := match s.tim.port, port with
    | some a, some b => decide (a ≠ b)
    | _, _ => false
  let s := s.when moved (State.timeEvent F.TIME_EVENT_PORT_CHANGED 94)
  let s := match port with
    | some p => s.put F.TIME_STATUS_TIME_PORT (1 - p.val)
    | none => s
  let s := referenceChanged (s.modT fun t => { t with port := port })
  match port with
  | none => s
  | some p =>
    if moved = false ∨ s.tim.hasRef = false then s
    else match s.tim.spans[p].filtered with
      | some th => offsetSample th false s
      | none => s.modT fun t => { t with stepDue := none, inSince := none, outSince := none }

/-- A BEST is adopted; `own` is what this node advertises. -/
def adopt (best own : Adv) (s : State) : State :=
  let s := showBest best (best == own) (dropReference best s)
  takePort (if best = own then none else choosePort best s.tim.spans) s

/-- ELECTION (R194): the node adopts a BEST, once per frame, of those its ports received since the last election; in K8, a
warm restart included, it stands itself (R193). -/
def elect (s : State) : State :=
  if !s.sup.inserted then s
  else
    let own := s.ownAdv
    let l := freshest (heardAdvs own.addr ((s.tim.spans.toList.take 2).filterMap fun x => x.best))
    let gens := l.foldl (fun g a => noteGen s.cycles a g) s.tim.gens
    let l := l.filter fun a => !staleGen s.cycles a gens
    let stands := s.node.phase == .k8 || s.node.kind == .warm
    let s := s.modT fun t => { t with gens := gens }
    let s := match leastAdv (if stands then own :: l else l) with
      | some best => adopt best own s
      | none => adoptNothing s
    noteValid (takeTable (s.modT fun t => { t with spans := t.spans.map fun (x : SpanTime) => { x with best := none } }))

/-- The node is no longer inserted: it takes no part in election (R195). -/
def leaveElection (s : State) : State :=
  let s := (s.put F.TIME_SPAN_E_DELAY 0xFFFFFFFF).put F.TIME_SPAN_W_DELAY 0xFFFFFFFF
  adoptNothing (s.modT fun t => { t with coarse := false, spans := Vector.replicate 4 SpanTime.reset })

/-! ## Time transfer (R189–R192, R195) -/

/-- A time-transfer field (Table 05-5). -/
structure TimeField where
  txPrev : SysTime
  rxEcho : SysTime
  echoFrame : BitVec 16
  best : BitVec 32
  stampValid : Bool
  echoValid : Bool
  valid : Bool
  stepped : Bool
  leapDir : Nat
  leapSec : Nat
  utcOffset : Int

def TimeField.ofBytes (l : List Byte) : TimeField :=
  let flags := l.getD 22 0
  { txPrev := BitVec.ofNat 64 (beAt l 0 8), rxEcho := BitVec.ofNat 64 (beAt l 8 8),
    echoFrame := BitVec.ofNat 16 (beAt l 16 2), best := BitVec.ofNat 32 (beAt l 18 4),
    stampValid := flags.getLsbD 0, echoValid := flags.getLsbD 1, valid := flags.getLsbD 2,
    stepped := flags.getLsbD 3, leapDir := (flags.extractLsb' 4 2).toNat, leapSec := beAt l 24 6,
    utcOffset := (BitVec.ofNat 16 (beAt l 30 2)).toInt }

/-- The field this node sends on span `p` (R189). -/
def timeField (p : Fin 4) (s : State) : List Byte :=
  let x := s.tim.spans[p]
  let tx := (x.departs.head?.map (·.2)).getD 0
  let rx := (x.arrival.map (·.2)).getD 0
  let echo := (x.arrival.map (·.1)).getD 0
  let stepped := decide (0 < x.stepLeft)
  let dir := s.get F.TIME_UTC_LEAP_DIR
  let sec := if dir = 0 then 0 else s.get F.TIME_LEAP_LO_S_L + 2 ^ 32 * s.get F.TIME_LEAP_HI_S_L
  let flags := x.departs.isEmpty.not.toNat + 2 * x.arrival.isSome.toNat + 4 * s.timeValid.toNat + 8 * stepped.toNat + 16 * dir
  let best := s.get F.TIME_BEST_BEST
  let head := beBytes 8 tx.toNat ++ beBytes 8 rx.toNat ++ beBytes 2 echo.toNat ++ beBytes 4 best
  head ++ beBytes 1 flags ++ [0] ++ beBytes 6 sec ++ beBytes 2 (s.get F.TIME_UTC_OFFSET)

/-- This node's frame `n` left span `p` at `t`; STEPPED stands in the 8 frames after a step. -/
def noteDeparture (p : Fin 4) (n : BitVec 16) (t : SysTime) (s : State) : State :=
  s.modT fun x =>
    let sp := x.spans[p]
    { x with spans := x.spans.set p { sp with departs := ((n, t) :: sp.departs).take 16, stepLeft := sp.stepLeft - 1 } }

/-- Is TX_PREV implausible against the one before it: not one frame period ±300 ppm later (R189)? -/
def implausible (f : TimeField) (x : SpanTime) : Bool :=
  match x.txPrev with
  | none => false
  | some t =>
    let d : Int := (f.txPrev.toNat : Int) - t.toNat
    !f.stepped && decide (20132659 < (d * 1000000 - 67108864000).natAbs)

/-- The span's signed asymmetry in 1/(2·10^10) units, doubled as the stamps are: theta's own scale. -/
def asymScaled (p : Fin 4) (s : State) : Int :=
  let v := if p = 0 then s.get F.TIME_ASYM_EAST else s.get F.TIME_ASYM_WEST
  (BitVec.ofNat 16 v).toInt * second

/-- SPAN_E or SPAN_W. -/
def putSpan (p : Fin 4) (v : Nat) (s : State) : State :=
  if p = 0 then s.put F.TIME_SPAN_E_DELAY v else if p = 1 then s.put F.TIME_SPAN_W_DELAY v else s

/-- The end of a filter period of 256 frames on span `p`: delay and theta as filtered (R184, R190). -/
def filterEnd (p : Fin 4) (s : State) : State :=
  let x := s.tim.spans[p]
  let d := Config.timeFilter x.delays
  let th := Config.timeFilter x.thetas
  let (tenths, s) := openDiv (d * 10000000000) (2 * second) s
  let s := putSpan p (max 0 (min 0xFFFFFFFE tenths)).toNat s
  let s := s.modT fun t => { t with spans := t.spans.set p { x with delays := [], thetas := [], filtered := some th } }
  if s.tim.port = some p ∧ s.isMaster = false ∧ s.tim.hasRef then offsetSample th false s else s

/-- One measurement of span `p` (R190). -/
def spanSample (p : Fin 4) (t1 t2 t3 t4 : SysTime) (s : State) : State :=
  let a : Int := (t2.toNat : Int) - t1.toNat
  let b : Int := (t4.toNat : Int) - t3.toNat
  let th := (a - b) * 10000000000 - asymScaled p s
  let x := s.tim.spans[p]
  let x := { x with delays := (a + b) :: x.delays, thetas := th :: x.thetas }
  let s := s.modT fun t => { t with spans := t.spans.set p x }
  if 256 ≤ x.delays.length then filterEnd p s else s

/-- COARSE_SET (R195): a node not inserted takes its time from its monitor taps. -/
def coarseSet (f : TimeField) (arrived : SysTime) (s : State) : State :=
  if s.sup.inserted ∨ (s.node.phase ≠ .k7 ∧ s.node.phase ≠ .k8) ∨ tCOARSE < s.timeState ∨ s.tim.coarse ∨
      f.stampValid = false ∨ 4 < (Adv.ofWord f.best).cls then s
  else
    let d : Int := (f.txPrev.toNat : Int) - arrived.toNat
    let s := if 100 * second < d.natAbs * 1000000 then stepTime d s else s
    setTimeState tCOARSE (s.modT fun t => { t with coarse := true })

/-- The port gives no reference any more: its field is not heard and its span is not measured. -/
def spanLost (p : Fin 4) (s : State) : State :=
  putSpan p 0xFFFFFFFF (s.modT fun t =>
    let x := t.spans[p]
    { t with spans := t.spans.set p { x with best := none, delays := [], thetas := [], filtered := none } })

/-- TIME_TRANSFER (R189–R191, R198): span `p` takes the field of frame `n`, which arrived at `t`. A span that is
not inserted or not free of defects is not measured, and nothing it carries takes part in election. -/
def timeTransfer (p : Fin 4) (n : BitVec 16) (t : SysTime) (clean : Bool) (bytes : List Byte) (s : State) : State :=
  let f := TimeField.ofBytes bytes
  let x := s.tim.spans[p]
  let set (x : SpanTime) (s : State) : State := s.modT fun m => { m with spans := m.spans.set p x }
  let next := { x with arrival := some (n, t), txPrev := if f.stampValid then some f.txPrev else x.txPrev }
  if f.stampValid ∧ implausible f x then
    let bad := x.bad + 1
    let s := (set { next with bad := bad } s).count F.TIME_CNT_TT_BAD 1
    if bad = 8 then spanLost p s else s
  else
    let s := set { next with bad := 0, best := if clean ∧ s.sup.inserted then some f.best else none } s
    match x.arrival with
    | none => s
    | some (m, t2) =>
      if m + 1 ≠ n then s
      else if !s.sup.inserted then coarseSet f t2 s
      else
        let s := if s.tim.port = some p ∧ s.isMaster = false then takeReceivedUtc f.utcOffset f.leapDir f.leapSec s else s
        if clean = false ∨ f.stampValid = false ∨ f.echoValid = false then s
        else match x.departs.find? (fun e => e.1 == f.echoFrame) with
          | none => s
          | some e => spanSample p f.txPrev t2 e.2 f.rxEcho s

/-! ## Seconds, PPS_OUT and the RTC (R197, R199, R200) -/

/-- The width of a PPS_OUT pulse. -/
def ppsWidth (n : Nat) : Nat :=
  match n with
  | 0 => second / 10
  | 1 => second / 5
  | 2 => second / 100000
  | _ => second / 1000

/-- What the time unit does at a system second boundary. -/
def secondBoundary (s : State) : State :=
  let sec := s.now.toNat / second
  let s := s.modT fun t => { t with second := sec, gen := t.gen + 1 }
  let s := takeTable (applyLeap s)
  if s.timeValid then
    let s := s.timeEvent F.TIME_EVENT_SECOND 93
    let s := if s.node.rtcFailed then s else s.modT fun t => { t with rtc := s.now, rtcLost := false }
    let recent := match s.tim.stepAt with
      | some c => decide (s.cycles ≤ c + second / 10)
      | none => false
    if s.inK8 ∧ s.bit F.TIME_CTL_PPS_OUT_EN ∧ recent = false then
      s.modT fun t => { t with ppsOut := true, ppsEnd := s.cycles + ppsWidth (s.get F.TIME_CTL_PPS_OUT_WIDTH) }
    else s
  else s

/-- PPS_OUT as the pin shows it (R199). -/
def State.ppsPin (s : State) : Bool :=
  s.tim.ppsOut && s.inK8 && s.timeValid && s.bit F.TIME_CTL_PPS_OUT_EN

/-- PPS_OUT_FALL (R199): the pulse's width has elapsed. -/
def execPpsOutFall (s : State) : Result :=
  actWhen (s.live && s.tim.ppsOut && decide (s.tim.ppsEnd ≤ s.cycles)) (State.modT fun t => { t with ppsOut := false }) s

/-- RTC_LOST (R197): the RTC's supply has fallen too low to keep counting. -/
def execRtcLost (s : State) : Result := .next (s.modT fun t => { t with rtcLost := true })

/-- RTC_LOAD (R197): at K0 system time is loaded from the RTC at a tick edge. -/
def rtcLoad (s : State) : State :=
  let t := if s.tim.rtcLost then 0 else s.tim.rtc.toNat / 16384 * 16384
  let s := { s with now := BitVec.ofNat 64 t, node := { s.node with rtcFailed := false } }
  let s := (s.put F.TIME_STATUS_RTC_LOST s.tim.rtcLost.toNat).put F.TIME_STATUS_STATE (if s.tim.rtcLost then tINVALID else tCOARSE)
  let s := s.modT fun x => { x with second := t / second, steerAt := s.cycles }
  s.when s.tim.rtcLost (timeFault kCLOCK_FAIL 0x06 0)

/-! ## The clock monitor (R201) -/

def clockFault (kind : BitVec 5) (cls : BitVec 2) (reason : BitVec 8) (s : State) : State :=
  s.raise { src := 0x1B, kind := kind, cls := cls, reason := reason }

/-- REF_FAIL (R201). The core PLL has lost its reference: from here the backup oscillator runs (R501). -/
def execRefFail (s : State) : Result :=
  actWhen s.clocked (fun s => clockFault kCLOCK_FAIL fatal 0x01 { s with node := { s.node with coreFailed := true, auxFailed := true } }) s

/-- CORE_UNLOCK (R201). -/
def execCoreUnlock (s : State) : Result :=
  actWhen s.clocked (fun s => clockFault kCLOCK_FAIL fatal 0x02 { s with node := { s.node with coreFailed := true } }) s

/-- AUX_UNLOCK (R201). -/
def execAuxUnlock (s : State) : Result :=
  actWhen s.clocked (fun s => clockFault kCLOCK_FAIL fatal 0x03 { s with node := { s.node with auxFailed := true } }) s

/-- RTC_FAIL (R201): the RTC is not written again until the next start-up. -/
def execRtcFail (s : State) : Result :=
  actWhen s.clocked (fun s => clockFault kCLOCK_FAIL corrected 0x04 { s with node := { s.node with rtcFailed := true } }) s

/-! ## Registers (Table 05-9) -/

def liveTime (off : Nat) (s : State) : Option Word :=
  if off = 0 then some (s.now.extractLsb' 0 32)
  else if off = 4 then some (s.now.extractLsb' 32 32)
  else if off = 8 then
    some (F.TIME_STATUS_OWN_CLASS.into s.ownClass (F.TIME_STATUS_VALID.into s.timeValid.toNat (s.reg 0x400B0008)))
  else if off = 0x58 then some (BitVec.ofNat 32 (s.tim.rtc.toNat / second))
  else none

def writeTime (off : Nat) (v : Word) (s : State) : Option State :=
  if off = 0x0C then some (writeTimeCtl v s)
  else if off = 0x2C then some (writeSrcCmd v s)
  else if off = 0x44 then some (s.modT fun t => { t with leapLo := v })
  else if off = 0x48 then some (s.modT fun t => { t with leapHi := v })
  else if off = 0x4C then some (writeLeapCmd v s)
  else none

end Sys2Proof.Machine
end

