-- ==== Sys2Proof/Machine/Ring.lean ====
section
/-! DEFINITION. The ring line's ports (chapter 12): training, defects, wrap and restore, insertion, the ring-control
field. -/

namespace Sys2Proof.Machine

/-- EAST or WEST. -/
def ringPort (p : Fin 4) : Bool := decide (p.val < 2)

/-- The port whose received frames leave at `p`: EAST and WEST serve each other. -/
def opposite (p : Fin 4) : Fin 4 := if p = 0 then 1 else if p = 1 then 0 else p

def lineFault (p : Fin 4) (kind : BitVec 5) (cls : BitVec 2) (reason : BitVec 8) (detail : Nat) (s : State) : State :=
  s.raise { src := BitVec.ofNat 8 (0x0C + p.val), kind := kind, cls := cls, reason := reason, detail := BitVec.ofNat 24 detail }

/-- Set an event bit of a port's LINE.EVENT; interrupt source 80 + p. -/
def State.lineEvent (p : Fin 4) (f : Field) (b : Nat) (s : State) : State := s.eventBit f (F.LINE_IEN_IEN p) b (80 + p.val)

/-- Units for a count of milliseconds, in CORE cycles. -/
def msCycles (ms : Nat) : Nat := ms * 536870912 / 1000

def State.wrapped (p : Fin 4) (s : State) : Bool := s.bit (F.LINE_STATUS_WRAPPED p)

/-! ## States (Table 12-5, Table 12-10) -/

/-- RATE of a state: half until T3, full in T3, then as chosen. -/
def rateOf (st : Nat) (full : Bool) : Nat := if st < lT1 then 0 else if st < lT3 then 1 else if st = lT3 then 2 else if full then 2 else 1

/-- The port's state becomes `st`. -/
def setLine (p : Fin 4) (st : Nat) (s : State) : State :=
  let s := if s.lineState p = st then s
    else (s.put (F.LINE_STATUS_STATE p) st).lineEvent p (F.LINE_EVENT_STATE p) 1
  let s := s.put (F.LINE_STATUS_RATE p) (rateOf st (s.port p).selFull)
  let s := if st < lT4 then s.modPerf p fun q => { q with up := false } else s
  s.modPort p fun o => { o with stepAt := s.cycles, setRun := 0, sentRun := 0, adapt := if lT4 ≤ st then o.adapt else [] }

/-- The port enters T1. -/
def enterT1 (p : Fin 4) (s : State) : State :=
  let s := s.modPort p fun o =>
    { o with selFull := false, rxOk := false, rxAdapted := false, rxStep := 0, rxCount := 0, validRun := 0, count := 0,
             fallback := false }
  let s := (setLine p lT1 s).count (F.LINE_CNT_B_TRAIN_RUNS p) 1
  let s := s.put (F.LINE_STATUS_NBR_VALID p) 0
  let (v, s) := if s.get (F.LINE_POWER_TX p) = 0x8000 then s.draw else (0, s)
  let s := if s.get (F.LINE_POWER_TX p) = 0x8000 then s.put (F.LINE_POWER_TX p) (satInt 16 ((v.toNat % 61 : Nat) - 30)) else s
  s.modPerf p fun q => { q with trains := q.trains + 1 }

/-- The port goes dark, or to its monitor receiver. -/
def goDark (p : Fin 4) (st : Nat) (s : State) : State :=
  let s := (setLine p st s).put (F.LINE_POWER_TX p) 0x8000
  let s := [F.LINE_STATUS_RDI_SD p, F.LINE_STATUS_RDI_SF p, F.LINE_STATUS_DEG p, F.LINE_STATUS_LOF p, F.LINE_STATUS_OOF p,
    F.LINE_STATUS_LOL p, F.LINE_STATUS_LOS p, F.LINE_STATUS_WRAPPED p, F.LINE_STATUS_WTR_RUNNING p,
    F.LINE_STATUS_NBR_VALID p].foldl (fun s f => s.put f 0) s
  s.modPort p fun o => { Port.reset with txNum := o.txNum, expect := o.expect }

/-- The port offers full rate: HALF open and HALF_REQ 0 (R398). -/
def State.offerFull (p : Fin 4) (s : State) : Bool := s.bit F.IDENT_STRAPS_HALF && !s.bit (F.LINE_CTL_HALF_REQ p)

/-- RX_OK: 8 consecutive valid fields received. -/
def State.ownRxOk (p : Fin 4) (s : State) : Bool := decide (8 ≤ (s.port p).validRun)

/-- ADAPTED (Table 12-5): 10 ms in frame, no uncorrectable codeword, few corrected symbols. -/
def State.ownAdapted (p : Fin 4) (s : State) : Bool :=
  let a := (s.port p).adapt
  a.length == 80 && decide (a.foldl (· + ·) 0 * 100 < s.get (F.LINE_DEG_THR_THR p))

def State.leader (p : Fin 4) (s : State) : Bool := !ringPort p || s.bit (F.LINE_STATUS_LEADER p)

/-- The flag T4 rests on: ADAPTED at full rate, RX_OK at half rate. -/
def State.holds (p : Fin 4) (s : State) : Bool := if (s.port p).selFull then s.ownAdapted p else s.ownRxOk p
def State.rxHolds (p : Fin 4) (s : State) : Bool := if (s.port p).selFull then (s.port p).rxAdapted else (s.port p).rxOk

/-! ## Wrap and wait to restore (R406, R408) -/

/-- LEAVING has been received within the last frame (Table 12-10): 125 µs in CORE cycles. -/
def State.leavingRx (p : Fin 4) (s : State) : Bool := match (s.port p).leavingAt with
  | some c => decide (s.cycles ≤ c + 67109)
  | none => false

/-- A condition of R406 other than wait to restore holds. -/
def State.unfit (p : Fin 4) (s : State) : Bool :=
  let o := s.port p
  let failed := match o.failAt with
    | some c => decide (c + msCycles (s.get (F.LINE_TIMERS_WRAP_HOLD p)) ≤ s.cycles)
    | none => false
  !o.everUp || failed || s.leavingRx p ||
    (s.bit (F.LINE_CTL_WRAP_ON_DEG p) && (s.bit (F.LINE_STATUS_DEG p) || s.bit (F.LINE_STATUS_RDI_SD p))) ||
    s.bit (F.LINE_CTL_FORCE_WRAP p)

/-- SF or received RDI_SF, or the clash of addresses that counts as SF (R401): since when. -/
def noteFail (p : Fin 4) (s : State) : State :=
  let bad := s.sf p || s.bit (F.LINE_STATUS_RDI_SF p) || (s.port p).clash
  let s := if s.sf p then s.modPerf p fun q => { q with sf := true } else s
  s.modPort p fun o => { o with failAt := if bad then some (o.failAt.getD s.cycles) else none }

/-- Wait to restore runs while a wrapped port is UP and free of every other condition; what returns restarts it. -/
def restoreTimer (p : Fin 4) (s : State) : State :=
  if !s.wrapped p then s
  else if s.lineState p = lUP ∧ s.unfit p = false ∧ (s.port p).failAt = none then
    if (s.port p).wtrAt.isSome then s
    else (s.put (F.LINE_STATUS_WTR_RUNNING p) 1).modPort p fun o => { o with wtrAt := some s.cycles, wtrDone := false }
  else (s.put (F.LINE_STATUS_WTR_RUNNING p) 0).modPort p fun o => { o with wtrAt := none, wtrDone := false }

/-- The transmit clocks of OE and OW (R391): 0 own CORE, 1 recovered at OW, 2 recovered at OE. -/
def txClocks (s : State) : State :=
  let e := s.wrapped 0
  let w := s.wrapped 1
  let (te, tw) : Nat × Nat := if s.bit F.RING_STATUS_FREQ_MASTER || (e && w) then (0, 0) else if e then (1, 1)
    else if w then (2, 2) else (1, 2)
  (s.put F.RING_STATUS_TX_E te).put F.RING_STATUS_TX_W tw

/-- The wrap bits of LINE.STATUS and RING.STATUS, and the clocks they choose; a wrapped port's span is not measured (R191). -/
def setWrapped (p : Fin 4) (b : Bool) (s : State) : State :=
  let s := s.when b (spanLost p)
  let s := (s.putBit (F.LINE_STATUS_WRAPPED p) b).lineEvent p (F.LINE_EVENT_WRAP p) 2
  let s := s.putBit (if p = 0 then F.RING_STATUS_WRAP_E else F.RING_STATUS_WRAP_W) b
  txClocks (s.putBit F.RING_STATUS_ISOLATED (s.wrapped 0 && s.wrapped 1))

/-- WRAP (R406): an unfit port wraps the node, which is inserted. -/
def execWrap (p : Fin 2) (s : State) : Result :=
  let p : Fin 4 := p.castLE (by decide)
  actWhen (s.live && s.sup.inserted && !s.wrapped p && s.unfit p) (fun s =>
    restoreTimer p (setWrapped p true (s.modPort p fun o => { o with wtrAt := none, wtrDone := false, wtrDoneRun := 0 }))) s

/-- WTR_DONE (R408): the wait to restore ends. -/
def execWtrDone (p : Fin 2) (s : State) : Result :=
  let p : Fin 4 := p.castLE (by decide)
  actWhen (s.live && s.wrapped p && s.lineState p == lUP && !s.unfit p) (fun s => match (s.port p).wtrAt with
    | none => s
    | some c =>
      let same := (s.port p).fitWith == some (BitVec.ofNat 8 (s.get (F.LINE_STATUS_NBR_ADDR p)))
      let sec := max 1 (if same then s.get (F.LINE_TIMERS_WTR p) else s.get (F.LINE_TIMERS_WTR_INS p))
      if s.cycles < c + sec * second then s
      else (s.put (F.LINE_STATUS_WTR_RUNNING p) 0).modPort p fun o => { o with wtrDone := true }) s

/-- UNWRAP (R408): WTR_DONE received in 16 consecutive valid fields, at a multiframe boundary. -/
def execUnwrap (p : Fin 2) (s : State) : Result :=
  let p : Fin 4 := p.castLE (by decide)
  let o := s.port p
  let boundary := match o.txNum with
    | some n => n.toNat % 16 == 0
    | none => false
  actWhen (s.live && s.wrapped p && o.wtrDone && decide (16 ≤ o.wtrDoneRun) && !s.unfit p && boundary) (fun s =>
    let nbr := BitVec.ofNat 8 (s.get (F.LINE_STATUS_NBR_ADDR p))
    setWrapped p false (s.modPort p fun o => { o with wtrAt := none, wtrDone := false, fitWith := some nbr })) s

/-! ## Insertion (R410–R413) -/

def setInsert (n : Nat) (s : State) : State := s.put F.RING_STATUS_INSERT n

/-- A tap has seen the flag within the last 2 s. -/
def seenLately (t : Option Nat) (s : State) : Bool :=
  match t with
  | some c => decide (s.cycles ≤ c + 2 * second)
  | none => false

/-- INSERTION_REQUEST (R411). -/
def execInsertionRequest (s : State) : Result :=
  let quiet := [(0 : Fin 4), 1].all fun p => !seenLately (s.port p).insertingSeen s && !seenLately (s.port p).leavingSeen s
  let observed := match s.ring.monitorAt with
    | some c => decide (c + msCycles 50 ≤ s.cycles)
    | none => false
  let phase := s.node.phase = .k7 ∨ s.node.phase = .k8
  actWhen (s.live && decide phase && !s.sup.switchIn && !s.ring.requested && observed && quiet &&
      !s.bit F.RING_CTL_BYPASS_REQ && s.ring.backoffEnd.isNone) (fun s =>
    setInsert 2 (s.modRing fun r => { r with requested := true, leaving := false, leaveFrames := none })) s

/-- The node is inserted once the switch is in and EAST or WEST is UP (R411). -/
def noteInserted (s : State) : State :=
  if s.sup.inserted = false ∧ s.sup.switchIn ∧ (s.lineState 0 = lUP ∨ s.lineState 1 = lUP) then
    let s := { s with sup := { s.sup with inserted := true } }
    let s := s.modRing fun r =>
      { r with failures := 0, perf := r.perf.map fun q => { q with inserted := true }, monitorAt := none }
    setInsert 4 s
  else s

/-- The supervisor reports the switch inserted: T1 on EAST and WEST, with INSERTING. -/
def switchInserted (s : State) : State :=
  let s := s.modRing fun r =>
    { r with switchAt := some s.cycles, inserting := true,
             ports := r.ports.mapIdx fun i o => if i < 2 then { Port.reset with txNum := o.txNum, expect := o.expect } else o }
  setInsert 3 (enterT1 1 (enterT1 0 s))

/-- The supervisor reports the switch in bypass: the transmitters go dark, and the node is no longer inserted. -/
def switchBypassed (s : State) : State :=
  let observes := decide (s.node.phase = .k7) || decide (s.node.phase = .k8)
  let st := if observes then lMONITOR else lDARK
  let s := { s with sup := { s.sup with inserted := false } }
  let s := goDark 1 st (goDark 0 st s)
  let s := [F.RING_STATUS_ISOLATED, F.RING_STATUS_WRAP_E, F.RING_STATUS_WRAP_W].foldl (fun s f => s.put f 0) s
  let s := s.modRing fun r =>
    { r with switchAt := none, inserting := false, leaving := false, leaveFrames := none,
             monitorAt := if observes then some s.cycles else none, tapFramed := false }
  leaveElection (setInsert (if s.ring.backoffEnd.isSome then 5 else if observes then 1 else 0) s)

/-- The supervisor drives the coil. -/
def setCoil (on : Bool) (s : State) : State :=
  if s.sup.coil = on then s else { s with sup := { s.sup with coil := on, changedAt := s.cycles } }

/-- INSERT_FAILED (R412). -/
def execInsertFailed (s : State) : Result :=
  let due := match s.ring.switchAt with
    | some c => decide (c + 5 * second ≤ s.cycles)
    | none => false
  actWhen (s.live && due && s.ring.requested && s.ring.tapFramed && !(s.port 0).everUp && !(s.port 1).everUp) (fun s =>
    let n := s.ring.failures + 1
    let wait := min 3600 (60 * 2 ^ (n - 1)) * second
    let s := s.modRing fun r => { r with requested := false, inserting := false, failures := n, backoffEnd := some (s.cycles + wait) }
    let s := setCoil false s
    let s := (setInsert 5 s).count F.RING_CNT_INSERT_FAILS 1
    s.raise { src := 0x19, kind := kTIMEOUT, cls := corrected, reason := 0x02, detail := BitVec.ofNat 24 n }) s

/-- BACKOFF (R412): the backoff has run out. -/
def execBackoff (s : State) : Result :=
  actWhen (s.live && (match s.ring.backoffEnd with
      | some c => decide (c ≤ s.cycles)
      | none => false)) (fun s =>
    let s := s.modRing fun r => { r with backoffEnd := none }
    if s.sup.switchIn then s else setInsert 1 s) s

/-- The insertion request is withdrawn: the supervisor de-energises the coil. -/
def withdraw (s : State) : State :=
  let s := s.modRing fun r => { r with requested := false, leaveFrames := none }
  setCoil false s

/-- A write of RING.CTL (R405, R413). -/
def writeRingCtl (v : Word) (s : State) : State :=
  let on := F.RING_CTL_BYPASS_REQ.of v = 1
  let was := s.bit F.RING_CTL_BYPASS_REQ
  let s := s.putBit F.RING_CTL_BYPASS_REQ on
  if on ∧ was = false then
    if s.sup.switchIn then setInsert 6 (s.modRing fun r => { r with leaving := true, leaveFrames := some 16 })
    else setInsert (if s.ring.backoffEnd.isSome then 5 else if s.ring.monitorAt.isSome then 1 else 0) (withdraw s)
  else s

/-- BYPASS_REQ (R413): a write of RING.CTL. -/
def execBypassReq (v : Word) (s : State) : Result := actWhen s.clocked (writeRingCtl v) s

/-! ## Training (R398–R401) -/

/-- The countdown of T2 has ended: T3 at full rate, or T4 at half rate. -/
def afterT2 (p : Fin 4) (s : State) : State := if (s.port p).selFull then setLine p lT3 s else setLine p lT4 s

/-- The leader begins T2. -/
def leaderT2 (p : Fin 4) (full fallback : Bool) (s : State) : State :=
  setLine p lT2 (s.modPort p fun o => { o with selFull := full, seq := o.seq + 1, count := 32, fallback := fallback })

/-- TRAINING_STEP (Table 12-5). -/
def trainStep (p : Fin 4) (s : State) : State :=
  let o := s.port p
  let st := s.lineState p
  if st = lDARK then
    if !ringPort p ∧ s.bit (F.LINE_CTL_EN p) then enterT1 p s else s
  else if st = lT1 then
    if o.clash then s
    else if s.leader p then
      (if s.ownRxOk p ∧ o.rxOk then leaderT2 p (s.offerFull p && o.rxOffer) false s else s)
    else if o.rxStep = 2 then setLine p lT2 s
    else s
  else if st = lT2 then
    if s.leader p then (if o.count = 0 then afterT2 p s else s)
    else if o.rxCount = 1 then afterT2 p s
    else s
  else if st = lT3 then
    if s.ownAdapted p ∧ o.rxAdapted then setLine p lT4 s else s
  else if st = lT4 then
    if !s.holds p ∨ !s.rxHolds p ∨ s.sf p then enterT1 p s
    else if 16 ≤ o.setRun ∧ 16 ≤ o.sentRun then
      let nbr := BitVec.ofNat 8 (s.get (F.LINE_STATUS_NBR_ADDR p))
      let fit := !s.wrapped p
      let s := (setLine p lUP (s.modPort p fun o => { o with everUp := true, fitWith := if fit then some nbr else o.fitWith
        })).lineEvent p (F.LINE_EVENT_TRAIN p) 4
      let (v, s) := s.draw
      let s := if ringPort p ∧ s.isMaster = false then s.put (F.LINE_ELASTIC_FILL p) (1900 + v.toNat % 101) else s
      restoreTimer p (if ringPort p then noteInserted s else s)
    else s
  else s

/-- TRAINING_STEP (R398): port `p` advances when its step's condition is met. -/
def execTrainingStep (p : Fin 4) (s : State) : Result :=
  actWhen (s.live && s.portEnabled p) (fun s => restoreTimer p (trainStep p s)) s

/-- FALLBACK (R398): T3 not completed within 1000 ms. -/
def execFallback (p : Fin 4) (s : State) : Result :=
  actWhen (s.live && s.lineState p == lT3 && decide ((s.port p).stepAt + msCycles 1000 ≤ s.cycles)) (fun s =>
    let s := (s.count (F.LINE_CNT_B_FALLBACKS p) 1).lineEvent p (F.LINE_EVENT_TRAIN p) 4
    let s := lineFault p kDEFECT corrected 0x06 (s.port p).seq.toNat s
    if s.leader p then leaderT2 p false true s
    else setLine p lT2 (s.modPort p fun o => { o with selFull := false, rxCount := 0 })) s

/-- RETRAIN (R399): a write of LINE.CTL.RETRAIN, or SF or RDI_SF held 1 ms, sends an UP port back to T1. -/
def execRetrain (p : Fin 4) (write : Bool) (s : State) : Result :=
  let held := match (s.port p).failAt with
    | some c => decide (c + msCycles 1 ≤ s.cycles)
    | none => false
  actWhen (s.live && s.lineState p == lUP && (write || held)) (fun s => restoreTimer p (enterT1 p s)) s

/-- A write of LINE.CTL: EN is fixed on EAST and WEST. -/
def writeLineCtl (p : Fin 4) (v : Word) (s : State) : State :=
  let s := if ringPort p then
      (s.put (F.LINE_CTL_FORCE_WRAP p) ((F.LINE_CTL_FORCE_WRAP p).of v)).put (F.LINE_CTL_WRAP_ON_DEG p) ((F.LINE_CTL_WRAP_ON_DEG p).of v)
    else s.put (F.LINE_CTL_WRAP_ON_DEG p) ((F.LINE_CTL_WRAP_ON_DEG p).of v)
  let s := (s.put (F.LINE_CTL_HALF_REQ p) ((F.LINE_CTL_HALF_REQ p).of v)).put (F.LINE_CTL_DEG_M p) ((F.LINE_CTL_DEG_M p).of v)
  let s := if ringPort p then s
    else
      let on := (F.LINE_CTL_EN p).of v = 1
      let was := s.bit (F.LINE_CTL_EN p)
      let s := s.putBit (F.LINE_CTL_EN p) on
      if on ∧ was = false then s.modPerf p fun q =>
        { q with now15 := { q.now15 with partial_ := true }, now24 := { q.now24 with partial_ := true } }
      else if on = false ∧ was then goDark p lDARK (s.modPerf p fun q => { q with enabled := false })
      else s
  let s := if (F.LINE_CTL_RETRAIN p).of v = 1 ∧ s.lineState p = lUP then enterT1 p s else s
  restoreTimer p s

/-! ## Defects (R402, R403) -/

def defectField (p : Fin 4) : Defect → Field
  | .los => F.LINE_STATUS_LOS p | .lol => F.LINE_STATUS_LOL p | .oof => F.LINE_STATUS_OOF p | .lof => F.LINE_STATUS_LOF p
  | .deg => F.LINE_STATUS_DEG p | .rdiSf => F.LINE_STATUS_RDI_SF p | .rdiSd => F.LINE_STATUS_RDI_SD p

/-- DEG_M in force: 2 to 10. -/
def State.degM (p : Fin 4) (s : State) : Nat := max 2 (min 10 (s.get (F.LINE_CTL_DEG_M p)))

/-- The condition for declaring a defect at received power `power` [0.1 dBm]. That the power, or the loss of lock, has lasted is
the receiver's to know. -/
def State.declares (p : Fin 4) (d : Defect) (power : BitVec 16) (s : State) : Bool :=
  let o := s.port p
  let los := s.bit (F.LINE_STATUS_LOS p)
  let lol := s.bit (F.LINE_STATUS_LOL p)
  match d with
  | .los => decide (power.toInt < -220)
  | .lol => !los
  | .oof => !los && !lol && decide (4 ≤ o.wrong)
  | .lof => !los && !lol && (match o.oofAt with
      | some c => decide (c + msCycles 1 ≤ s.cycles)
      | none => false)
  | .deg => !s.sf p && decide (s.degM p ≤ o.degRun)
  | .rdiSf => !s.sf p && decide (3 ≤ o.rdiSfRun)
  | .rdiSd => !s.sf p && decide (3 ≤ o.rdiSdRun)

def State.clears (p : Fin 4) (d : Defect) (power : BitVec 16) (s : State) : Bool :=
  let o := s.port p
  match d with
  | .los => decide (-190 < power.toInt)
  | .lol => true
  | .oof => decide (2 ≤ o.right)
  | .lof => !s.bit (F.LINE_STATUS_OOF p) && (match o.inFrameAt with
      | some c => decide (c + msCycles 1 ≤ s.cycles)
      | none => false)
  | .deg => !s.sf p && decide (s.degM p ≤ o.cleanRun)
  | .rdiSf => !s.sf p && decide (3 ≤ o.rdiSfClear)
  | .rdiSd => !s.sf p && decide (3 ≤ o.rdiSdClear)

/-- LOS masks LOL, OOF and LOF, LOL masks OOF and LOF: what is masked is not shown. -/
def maskDefects (p : Fin 4) (d : Defect) (s : State) : State :=
  let off (l : List Field) (s : State) : State :=
    (l.foldl (fun s f => s.put f 0) s).modPort p fun o => { o with oofAt := none }
  match d with
  | .los => off [F.LINE_STATUS_LOL p, F.LINE_STATUS_OOF p, F.LINE_STATUS_LOF p] s
  | .lol => off [F.LINE_STATUS_OOF p, F.LINE_STATUS_LOF p] s
  | _ => s

/-- The fault of a declared defect (Table 12-13). -/
def defectFault (p : Fin 4) (d : Defect) (power : Nat) (s : State) : State :=
  match d with
  | .los => lineFault p kDEFECT corrected 0x01 power s
  | .lol => lineFault p kDEFECT corrected 0x02 0 s
  | .oof => s
  | .lof => lineFault p kLOSS_OF_SYNC corrected 0x03 (s.get (F.LINE_STATUS_RATE p)) s
  | .deg => lineFault p kDEFECT corrected 0x04 (min 0xFFFFFF (s.get (F.LINE_FEC_CORR_CORR p) / 1024)) s
  | .rdiSf => lineFault p kDEFECT corrected 0x05 1 s
  | .rdiSd => lineFault p kDEFECT corrected 0x05 2 s

/-- A defect is declared; `power` is the received power in 0.1 dBm. -/
def declareDefect (p : Fin 4) (d : Defect) (power : BitVec 16) (s : State) : State :=
  let s := (maskDefects p d (s.put (defectField p d) 1)).lineEvent p (F.LINE_EVENT_DEFECT p) 0
  let s := match d with
    | .oof =>
      let s := (s.count (F.LINE_CNT_A_OOF p) 1).modPerf p fun q => { q with oof := q.oof + 1 }
      s.modPort p fun o => { o with oofAt := some s.cycles, adapt := [] }
    | .los => (s.put (F.LINE_POWER_RX p) power.toNat).modPort p fun o => { o with adapt := [], rx := none }
    | .lol => s.modPort p fun o => { o with adapt := [], rx := none }
    | _ => s
  let s := spanLost p s
  let s := if s.sf p then s.modPort p fun o => { o with validRun := 0, adapt := [] } else s
  restoreTimer p (noteFail p (defectFault p d power.toNat s))

/-- DEFECT_DECLARED (R402). In bypass a tap loses its light or its frame. -/
def execDefectDeclared (p : Fin 4) (d : Defect) (power : BitVec 16) (s : State) : Result :=
  actWhen s.live (fun s =>
    if s.lineState p = lMONITOR then
      (s.put (F.LINE_TAP_TAP_RATE p) 0).put (F.LINE_TAP_POWER p) (if d = .los then power.toNat else s.get (F.LINE_TAP_POWER p))
    else if lT1 ≤ s.lineState p ∧ s.bit (defectField p d) = false ∧ s.declares p d power then declareDefect p d power s
    else s) s

/-- DEFECT_CLEARED (R402). -/
def execDefectCleared (p : Fin 4) (x : Cleared) (s : State) : Result :=
  let d := x.defect
  let power := x.power
  actWhen (s.live && decide (lT1 ≤ s.lineState p) && s.bit (defectField p d) && s.clears p d power) (fun s =>
    let s := (s.put (defectField p d) 0).lineEvent p (F.LINE_EVENT_DEFECT p) 0
    let s := if d = .oof then s.modPort p fun o => { o with oofAt := none } else s
    let s := if d = .los then s.put (F.LINE_POWER_RX p) power.toNat else s
    restoreTimer p (noteFail p s)) s

/-- TX_FAIL (R417): launch power in 0.1 dBm outside Table 12-2 for 10 ms. -/
def execTxFail (p : Fin 4) (power : BitVec 16) (s : State) : Result :=
  actWhen (s.live && s.transmitting p && (decide (power.toInt < -30) || decide (30 < power.toInt))) (fun s =>
    let s := (s.put (F.LINE_POWER_TX p) power.toNat).lineEvent p (F.LINE_EVENT_TX_FAIL p) 6
    lineFault p kDEFECT contained 0x09 power.toNat s) s

/-! ## Slips (R396, R397) -/

/-- SLIP (R396): the elastic store behind port `p` has reached `fill` ns and is re-centred at 1.95 µs. -/
def execSlip (p : Fin 2) (fill : BitVec 16) (s : State) : Result :=
  let p : Fin 4 := p.castLE (by decide)
  actWhen (s.live && s.sup.inserted && !s.isMaster && (decide (fill.toNat < 500) || decide (3500 < fill.toNat))) (fun s =>
    let s := (s.count (F.LINE_CNT_A_SLIPS p) 1).lineEvent p (F.LINE_EVENT_SLIP p) 5
    let s := (s.put (F.LINE_ELASTIC_FILL p) 1950).modPerf p fun q => { q with slips := q.slips + 1 }
    lineFault p kLOSS_OF_SYNC corrected 0x07 fill.toNat s) s

/-- MASTER_SLIP (R397): the aligner of the frames received at port `p` moves its delay by one frame to `align`
(0.1 µs), repeating or dropping one frame. -/
def execMasterSlip (p : Fin 2) (again : Bool) (align : BitVec 16) (s : State) : Result :=
  let p : Fin 4 := p.castLE (by decide)
  actWhen (s.live && s.sup.inserted && s.bit F.RING_STATUS_FREQ_MASTER) (fun s =>
    let s := (s.count F.RING_CNT_MASTER_SLIPS 1).modPerf p fun q => { q with slips := q.slips + 1 }
    let s := s.put (if p = 1 then F.RING_ALIGN_EAST_GOING else F.RING_ALIGN_WEST_GOING) align.toNat
    let s := s.modPort p fun o =>
      { o with rx := if again then o.rx.map fun f => { f with taken := false } else none }
    lineFault p kLOSS_OF_SYNC corrected 0x07 (align.toNat * 100) s) s

/-! ## The ring-control field (R390, R404, R405) -/

/-- INSERTING is sent until both ports are UP, or for 5 s (R411). -/
def State.sendsInserting (s : State) : Bool :=
  s.ring.inserting && !(s.lineState 0 == lUP && s.lineState 1 == lUP) && (match s.ring.switchAt with
    | some c => decide (s.cycles < c + 5 * second)
    | none => false)

/-- The field port `p` sends (Table 12-4). -/
def ringControl (p : Fin 4) (s : State) : List Byte :=
  let o := s.port p
  let b (x : Bool) (n : Nat) : Nat := x.toNat * 2 ^ n
  let flags := b (s.sf p) 0 + b (s.bit (F.LINE_STATUS_DEG p)) 1 + b s.ring.leaving 2 + b s.sendsInserting 3 + b o.wtrDone 4 +
    b (s.wrapped p) 5 + b (decide (0 < o.jumpLeft)) 6 + b (s.bit F.RING_STATUS_FREQ_MASTER) 7
  let st := s.lineState p
  let step := if st = lUP then 0 else st - 1
  let train := b (s.offerFull p) 0 + b (s.ownRxOk p) 1 + b (s.ownAdapted p) 2 + b o.selFull 3 + b o.fallback 4
  let count := if st = lT2 then o.count else 0
  let head := beBytes 1 s.address ++ beBytes 1 flags ++ beBytes 1 step ++ beBytes 1 train ++ beBytes 1 count ++ [0]
  let sat (n v : Nat) : Nat := min v (2 ^ n - 1)
  let body := head ++ beBytes 2 o.seq.toNat ++ beBytes 4 (sat 32 o.secCorr) ++ beBytes 2 (sat 16 o.secUncorr)
  let body := slice body 0 28
  body ++ crcBe body

/-- A received field (Table 12-4). -/
structure RingField where
  sender : Nat
  notNode : Bool
  flags : Byte
  step : Nat
  train : Byte
  count : Nat
  seq : BitVec 16

def RingField.ofBytes (l : List Byte) : RingField :=
  { sender := (byteAt l 0).toNat % 128, notNode := (byteAt l 0).msb, flags := byteAt l 1, step := (byteAt l 2).toNat,
    train := byteAt l 3, count := (byteAt l 4).toNat, seq := BitVec.ofNat 16 (beAt l 6 2) }

/-- The neighbour a valid field names, and ADDRESS_CLASH (R401). -/
def takeNeighbour (p : Fin 4) (f : RingField) (s : State) : State :=
  let changed := f.sender != s.get (F.LINE_STATUS_NBR_ADDR p) || f.notNode != s.bit (F.LINE_STATUS_NBR_NOT_NODE p)
  let s := if s.lineState p = lUP then s.put (F.LINE_STATUS_NBR_VALID p) 1 else s
  let s := (s.put (F.LINE_STATUS_NBR_ADDR p) f.sender).putBit (F.LINE_STATUS_NBR_NOT_NODE p) f.notNode
  let s := s.putBit (F.LINE_STATUS_LEADER p) (!ringPort p || decide (s.address < f.sender))
  let s := if changed then s.lineEvent p (F.LINE_EVENT_NEIGHBOUR p) 3 else s
  let clash := ringPort p && !f.notNode && f.sender == s.address
  let new := clash && !(s.port p).clash
  let s := noteFail p (s.modPort p fun o => { o with clash := clash })
  let s := if new then lineFault p kPROTOCOL contained 0x08 f.sender s else s
  if clash ∧ lT1 < s.lineState p then enterT1 p s else s

/-- A follower takes the leader's attempt (R398, R400). -/
def followLeader (p : Fin 4) (f : RingField) (s : State) : State :=
  let st := s.lineState p
  if s.leader p ∨ (s.port p).clash ∨ st < lT1 ∨ lT3 < st then s
  else if f.step ≠ 1 ∧ f.step ≠ 2 then s
  else
    let differs := decide (f.seq ≠ (s.port p).seq)
    let s := s.modPort p fun o => { o with seq := f.seq, selFull := if f.step = 2 then f.train.getLsbD 3 else o.selFull }
    if differs ∧ (lT1 < st ∨ f.step = 2) then setLine p (if f.step = 2 then lT2 else lT1) s else s

/-- A valid ring-control field received on port `p` in use. -/
def takeRingControl (p : Fin 4) (f : RingField) (s : State) : State :=
  let s := followLeader p f (takeNeighbour p f s)
  let run (b : Bool) (n : Nat) : Nat := if b then n + 1 else 0
  let sf := f.flags.getLsbD 0
  let sd := f.flags.getLsbD 1
  let leaving := f.flags.getLsbD 2
  s.modPort p fun o =>
    { o with rxOffer := f.train.getLsbD 0, rxOk := f.train.getLsbD 1, rxAdapted := f.train.getLsbD 2, rxStep := f.step,
             rxCount := f.count, validRun := o.validRun + 1, rdiSfRun := run sf o.rdiSfRun, rdiSfClear := run (!sf) o.rdiSfClear,
             rdiSdRun := run sd o.rdiSdRun, rdiSdClear := run (!sd) o.rdiSdClear,
             wtrDoneRun := run (f.flags.getLsbD 4) o.wtrDoneRun, leavingAt := if leaving then some s.cycles else none }

/-! ## Registers -/

/-- Seconds of backoff remaining (RING.BACKOFF). -/
def State.backoffLeft (s : State) : Nat :=
  match s.ring.backoffEnd with
  | some c => (c - s.cycles + second - 1) / second
  | none => 0

def liveLine (off : Nat) (s : State) : Option Word :=
  if off = 0x400 then
    let w := F.RING_STATUS_SW_INSERTED.into s.sup.switchIn.toNat (s.reg 0x40060400)
    some (F.RING_STATUS_COIL.into s.sup.coil.toNat (F.RING_STATUS_HEARTBEAT.into s.node.heartbeat.toNat w))
  else if off = 0x408 then some (BitVec.ofNat 32 s.ringFrame)
  else if off = 0x40C then some (BitVec.ofNat 32 (s.ringFrame / 2 ^ 32))
  else if off = 0x418 then some (BitVec.ofNat 32 s.backoffLeft)
  else if off < 0x200 ∧ off % 0x100 = 0x14 then
    let p : Fin 4 := Fin.ofNat 4 (off / 0x100)
    let o := s.port p
    some ((F.LINE_TAP_INSERTING_SEEN p).into (seenLately o.insertingSeen s).toNat
      ((F.LINE_TAP_LEAVING_SEEN p).into (seenLately o.leavingSeen s).toNat (s.reg (0x40060000 + off))))
  else if off < 0x400 ∧ off % 0x100 = 0x04 then
    let p : Fin 4 := Fin.ofNat 4 (off / 0x100)
    some ((F.LINE_STATUS_LEAVING_RX p).into (s.leavingRx p).toNat (s.reg (0x40060000 + off)))
  else if off = 0x214 ∨ off = 0x314 then some 0
  else none

def writeLine (off : Nat) (v : Word) (s : State) : Option State :=
  if off < 0x400 ∧ off % 0x100 = 0 then some (writeLineCtl (Fin.ofNat 4 (off / 0x100)) v s)
  else if off = 0x404 then some (writeRingCtl v s)
  else none

/-- TSI registers and PERF (Tables 13-3, 13-8). -/
def liveTsi (off : Nat) (s : State) : Option Word :=
  if off = 0x18 then some s.cmData
  else if off = 0x1C then
    let n (f : Port → Nat) : Nat := (s.ring.ports.toList.map f).foldl (· + ·) 0
    some (F.TSI_COUNT_REFUSED.into (min 65535 (n Port.refused)) (F.TSI_COUNT_FAIL.into (min 65535 (n Port.fails)) 0))
  else none

def writeTsi (off : Nat) (v : Word) (s : State) : Option State :=
  if off = 0 then some (writeTsiCtl v s)
  else if off = 0x18 then some (writeCmData v s)
  else if off = 0x104 then some (writePerfSel v s)
  else none

end Sys2Proof.Machine
end

