-- ==== Sys2Proof/Machine/RingFrame.lean ====
section
/-! DEFINITION. Frames (12.3–12.5, 13.1–13.4): what a port does with a received frame, and how the node builds one. -/

namespace Sys2Proof.Machine

/-! ## Parts of a frame (Table 12-3) -/

/-- The alignment pattern of the frames that port `p` sends, or receives (R387). -/
def alignTail (eastGoing drop : Bool) : Byte := if drop then 0x14 else if eastGoing then 0x28 else 0x3A
def alignOf (tail : Byte) : List Byte := List.replicate 8 0xF6 ++ List.replicate 8 tail
def sendAlign (p : Fin 4) : List Byte := alignOf (alignTail (p == 0) (!ringPort p))
def expectAlign (p : Fin 4) : List Byte := alignOf (alignTail (p == 1) (!ringPort p))

/-- How many bits of two patterns differ. -/
def bitsWrong (a b : List Byte) : Nat :=
  (a.zip b).foldl (fun n x => n + ((List.range 8).filter fun i => (x.1 ^^^ x.2).getLsbD i).length) 0

/-- `n` bytes of a frame from offset `off`. -/
def frameAt (f : List (Nat × Byte)) (off n : Nat) : List Byte := tabGetRun 0 f off n

/-- The frame-number field (R388). -/
def numberField (n : Nat) : List Byte :=
  let b := beBytes 6 (n % 2 ^ 48) ++ [BitVec.ofNat 8 (n % 16)]
  b ++ [crc8 b]

/-- The number a field carries, if its CRC is right. -/
def numberOf (b : List Byte) : Option (BitVec 48) :=
  if crc8 (slice b 0 7) = byteAt b 7 then some (BitVec.ofNat 48 (beAt b 0 6)) else none

/-- The codewords that carry bytes `off` to `off + n - 1` (R383). -/
def codewords (off n : Nat) : List Nat :=
  let a := 8 * off / 5140
  let b := (8 * (off + n) - 1) / 5140
  (List.range (b + 1 - a)).map fun i => a + i

def bitmapAt (slot : Nat) : Nat := 8520 + slot / 8
def slotAt (slot : Nat) : Nat := 13480 + 64 * slot

/-! ## FRAME_RECEIVED -/

/-- A tap's receiver takes a frame (R410): rate, flags, the neighbour's time. -/
def tapFrame (p : Fin 4) (full : Bool) (stamp : SysTime) (power : BitVec 16) (f : List (Nat × Byte)) (bad : List Nat) (s : State) :
    State :=
  let s := s.put (F.LINE_TAP_POWER p) power.toNat
  if 8 < bitsWrong (frameAt f 0 16) (expectAlign p) then s.put (F.LINE_TAP_TAP_RATE p) 0
  else
    let s := (s.put (F.LINE_TAP_TAP_RATE p) (if full then 2 else 1)).modRing fun r => { r with tapFramed := true }
    let rc := frameAt f 56 32
    let field := RingField.ofBytes rc
    let ok := crcBeOk 28 rc && !bad.contains 0
    let now := some s.cycles
    let s := if !ok then s
      else s.modPort p fun o => { o with leavingSeen := if field.flags.getLsbD 2 then now else o.leavingSeen,
                                         insertingSeen := if field.flags.getLsbD 3 then now else o.insertingSeen }
    match numberOf (frameAt f 16 8) with
    | some n => if bad.contains 0 then s else timeTransfer p (n.extractLsb' 0 16) stamp true (frameAt f 24 32) s
    | none => s

/-- The received number against the port's expectation (R389). -/
def takeNumber (p : Fin 4) (n : Option (BitVec 48)) (s : State) : State :=
  let o := s.port p
  match n, o.expect with
  | none, e => s.modPort p fun o => { o with rxNum := none, expect := e.map (· + 1), jumps := 0 }
  | some n, none => s.modPort p fun o => { o with rxNum := some n, expect := some (n + 1), jumps := 0 }
  | some n, some e =>
    if n = e then s.modPort p fun o => { o with rxNum := some n, expect := some (n + 1), jumps := 0 }
    else if o.jumps < 2 then s.modPort p fun o => { o with rxNum := some n, expect := some (e + 1), jumps := o.jumps + 1 }
    else (s.modPort p fun o => { o with rxNum := some n, expect := some (n + 1), jumps := 0 }).lineEvent p (F.LINE_EVENT_FN_JUMP p) 7

/-- The ring-control field of a frame taken by a port in use. -/
def takeControl (p : Fin 4) (rc : List Byte) (valid : Bool) (s : State) : State :=
  let s := if valid then takeRingControl p (RingField.ofBytes rc) s
    else s.modPort p fun o => { o with validRun := 0, leavingAt := none }
  s.modPort p fun o => { o with setRun := if valid && s.rxHolds p && s.lineState p == lT4 then o.setRun + 1 else 0 }

/-- TIME_TRANSFER of a taken frame: a wrapped port's field is not used, a drop port's only dates the arrival. -/
def takeTime (p : Fin 4) (n : Option (BitVec 48)) (stamp : SysTime) (b : List Byte) (s : State) : State :=
  match n with
  | none => s
  | some n =>
    let n16 := n.extractLsb' 0 16
    if !ringPort p then s.modT fun t =>
      let x := t.spans[p]
      { t with spans := t.spans.set p { x with arrival := some (n16, stamp) } }
    else if s.wrapped p then s
    else timeTransfer p n16 stamp (s.clean p) b s

/-- The span channel (R434). -/
def takeSpan (p : Fin 4) (ok : Bool) (b : List Byte) (s : State) : State :=
  match h : p.val with
  | 0 | 1 =>
    let i : Fin 2 := ⟨p.val, by omega⟩
    let ok := ok && s.lineState p == lUP && !s.wrapped p
    s.modFlue fun f => { f with spanRx := f.spanRx.set i (if ok then b else f.spanRx[i]), spanOk := f.spanOk.set i ok }
  | _ => s

/-- A frame in frame at a port in use: counts, number, ring control, time, span bytes. -/
def takeFrame (p : Fin 4) (full : Bool) (stamp : SysTime) (f : List (Nat × Byte)) (bad : List Nat) (corr : Nat) (s : State) : State :=
  let s := s.modPerf p fun q => { q with uncorr := q.uncorr + bad.length, corr := q.corr + corr }
  let s := s.modPort p fun o => { o with adapt := if bad.isEmpty then (corr :: o.adapt).take 80 else [] }
  let (inj, s) := s.inject 0x09 p
  let n : Option (BitVec 48) := if inj = 0 then numberOf (frameAt f 16 8) else none
  let s := if ringPort p then takeNumber p n s else s
  let rc := frameAt f 56 32
  let ok := !bad.contains 0
  let s := takeControl p rc (crcBeOk 28 rc && ok && inj == 0) s
  let s := if ok then takeTime p n stamp (frameAt f 24 32) s else s
  let s := takeSpan p ok (frameAt f 88 48) s
  restoreTimer p (s.modPort p fun o => { o with rx := some ⟨f, bad, full, false⟩ })

/-- FRAME_RECEIVED: a frame arrives at port `p` at `stamp` with received power `power`: its bytes by offset, its
uncorrectable codewords, its corrected symbols. -/
def execFrameReceived (p : Fin 4) (full : Bool) (stamp : SysTime) (power : BitVec 16) (f : List (Nat × Byte)) (bad : List Nat)
    (corr : Nat) (s : State) : Result :=
  actWhen s.live (fun s =>
    if s.lineState p = lMONITOR then tapFrame p full stamp power f bad s
    else if s.lineState p < lT1 ∨ s.bit (F.LINE_STATUS_LOS p) ∨ s.bit (F.LINE_STATUS_LOL p) then s
    else
      let s := s.put (F.LINE_POWER_RX p) power.toNat
      let rateOk := full == (s.get (F.LINE_STATUS_RATE p) == 2)
      let ok := rateOk && decide (bitsWrong (frameAt f 0 16) (expectAlign p) ≤ 8)
      let oof := s.bit (F.LINE_STATUS_OOF p)
      let s := s.modPort p fun o =>
        { o with wrong := if ok then 0 else o.wrong + 1, right := if ok then o.right + 1 else 0,
                 inFrameAt := if oof then none else some (o.inFrameAt.getD s.cycles) }
      if oof ∨ !rateOk then s.modPort p fun o => { o with rx := none, validRun := 0 }
      else takeFrame p full stamp f bad corr s) s

/-! ## Building: numbers and clocks -/

/-- The port that carries what is done once per frame: EAST, or WEST when EAST is not transmitting. -/
def State.primary (p : Fin 4) (s : State) : Bool := p == 0 || (p == 1 && !s.transmitting 0)

/-- The master's formula (R393). -/
def frameFormula (t : SysTime) : Nat := t.toNat * 8000 / 536870912 % 2 ^ 48

/-- The next number of port `p` on the frequency master (R393). -/
def masterNumber (p : Fin 4) (stamp : SysTime) (s : State) : Nat × State :=
  let f := frameFormula stamp
  match (s.port p).txNum with
  | none => (f, s)
  | some t =>
    let n := (t.toNat + 1) % 2 ^ 48
    let apart := if n < f then f - n else n - f
    if n % 16 = 0 ∧ 8 < apart then (f, s.modPort p fun o => { o with jumpLeft := 16 }) else (n, s)

/-- The number of the frame built for port `p` (R389, R393, Table 13-4); with nothing to go by it is free. -/
def buildNumber (p : Fin 4) (stamp : SysTime) (s : State) : Nat × State :=
  let q := opposite p
  if !ringPort p then (s.ringFrame, s)
  else if s.bit F.RING_STATUS_FREQ_MASTER then masterNumber p stamp s
  else
    let heard := if s.wrapped q then (s.port q).builtNum
      else match (s.port q).rx with
        | some f => if f.taken then none else (s.port q).rxNum
        | none => none
    match heard, (s.port p).txNum with
    | some n, _ => (n.toNat, s)
    | none, some t => ((t.toNat + 1) % 2 ^ 48, s)
    | none, none =>
      let (v, s) := s.draw
      (v.toNat % 2 ^ 48, s)

/-- Mastership of frequency and transmit clocks, at a multiframe boundary (R391, R397). -/
def setClocks (s : State) : State :=
  let was := s.bit F.RING_STATUS_FREQ_MASTER
  let is := s.sup.inserted && s.isMaster
  let s := txClocks (s.putBit F.RING_STATUS_FREQ_MASTER is)
  if is = was then s
  else
    let (v, s) := s.draw
    let a := v.toNat % 1251 + 20
    let b := v.toNat / 2 ^ 16 % 1251 + 20
    let fill := 1900 + v.toNat / 2 ^ 32 % 101
    let fillOf (p : Fin 4) : Nat := if is ∨ s.lineState p ≠ lUP then 0 else fill
    let s := (s.put F.RING_ALIGN_EAST_GOING (if is then a else 0)).put F.RING_ALIGN_WEST_GOING (if is then b else 0)
    (s.put (F.LINE_ELASTIC_FILL 0) (fillOf 0)).put (F.LINE_ELASTIC_FILL 1) (fillOf 1)

/-! ## Building: slots (13.1, 13.2) -/

/-- What port `q` gives the builders: looped under R407, carrying slots, its frame. -/
structure Input where
  looped : Bool
  carrying : Bool
  enabled : Bool
  half : Bool
  frame : Option RxFrame

def State.input (q : Fin 4) (s : State) : Input :=
  let o := s.port q
  let half := s.get (F.LINE_STATUS_RATE q) == 1
  if s.wrapped q then ⟨true, s.carrying q, true, half, some ⟨o.built, [], !half, false⟩⟩
  else ⟨false, s.carrying q, s.portEnabled q, half, o.rx⟩

/-- The slot, or its bitmap bit, lies in an uncorrectable codeword. -/
def Input.spoilt (x : Input) (slot : Nat) : Bool :=
  match x.frame with
  | none => false
  | some f => (codewords (slotAt slot) 64 ++ codewords (bitmapAt slot) 1).any fun k => f.bad.contains k

def Input.exists_ (x : Input) (slot : Nat) : Bool :=
  match x.frame with
  | none => false
  | some f => f.full || decide (slot < 6144)

/-- A received slot is live (R422). -/
def Input.live (x : Input) (slot : Nat) : Bool :=
  match x.frame with
  | none => false
  | some f => (x.looped || x.carrying) && !x.spoilt slot && x.exists_ slot &&
      (tabGet 0 f.bytes (bitmapAt slot)).getLsbD (7 - slot % 8)

/-- A fill of Table 13-2. -/
def fill (word : List Byte) (own cause : Nat) : List Byte := word ++ [BitVec.ofNat 8 own, BitVec.ofNat 8 cause] ++ List.replicate 58 0
def failFill (own cause : Nat) : List Byte := fill [0x46, 0x41, 0x49, 0x4C] own cause
def refusedFill (own : Nat) : List Byte := fill [0x52, 0x45, 0x46, 0x44] own 1

/-- What an output slot carries. -/
inductive SlotKind where
  | idle | live | passed | failed (cause : Nat) | refused
deriving DecidableEq, Repr

/-- CONNECT from slot `k` of an input (R423). -/
def Input.connect (x : Input) (own k : Nat) : SlotKind × List Byte :=
  let got : List Byte := match x.frame with
    | some f => frameAt f.bytes (slotAt k) 64
    | none => []
  if x.live k then (.live, got)
  else if x.carrying && x.half && decide (6143 < k) then (.refused, refusedFill own)
  else if (!x.carrying && !x.looped) || !x.enabled || x.frame.isNone then (.failed 1, failFill own 1)
  else if x.spoilt k then (.failed 2, failFill own 2)
  else (.passed, got)

/-- The selection of a PROTECTED entry after this frame: on the alternate, and frames the primary has been live (R425). -/
def protSelect (revert : Nat) (was : Bool × Nat) (primary alternate : Bool) : Bool × Nat :=
  if was.1 = false then (if !primary && alternate then (true, 0) else (false, 0))
  else
    let run := if primary then was.2 + 1 else 0
    if revert ≠ 0 ∧ revert ≤ run then (false, 0) else (true, run)

/-- The SECDED check of an entry: its word, or none where it is uncorrectable (R418, checker 0x07). -/
def cmCheck (page : Bool) (port slot : Nat) (s : State) : Option Word × State :=
  let k := cmKey page port slot
  let own := match tabGet none s.tsi.ecc k with
    | none => 0
    | some .single => 1
    | some .double => 2
  let (inj, s) := if s.get F.FLT_INJ_ADDR_ADDR % 65536 = port * 12800 + slot then s.inject 0x07 page.toNat else (0, s)
  let n := own + inj
  if n = 0 then (some (tabGet 0 s.tsi.cm k), s)
  else if n = 1 then
    let s := tsiFault kECC_CORR corrected 0x01 (cmDetail page port slot) (inj != 0) s
    (some (tabGet 0 s.tsi.cm k), s.modTsi fun t => { t with ecc := tabSet none t.ecc k none })
  else if s.tsi.uncorrRaised.contains k then (none, s)
  else (none, tsiFault kECC_UNCORR contained 0x02 (cmDetail page port slot) (inj != 0) (s.modTsi fun t =>
    { t with uncorrRaised := k :: t.uncorrRaised }))

/-- One output slot of port `p` from its entry. -/
def buildSlot (p : Fin 4) (slot : Nat) (s : State) : (SlotKind × List Byte) × State :=
  let own := s.address
  match cmCheck s.tsi.page[p] p slot s with
  | (none, s) => ((.failed 3, failFill own 3), s)
  | (some w, s) =>
    let e := CmEntry.acting w
    let x := s.input (Fin.ofNat 4 e.src)
    if e.mode = 0 then ((.idle, []), s)
    else if e.mode = 1 then (x.connect own e.slot, s)
    else
      let y := s.input (Fin.ofNat 4 (Nat.xor e.src 1))
      let key := p.val * 16384 + slot
      let was := tabGet (false, 0) s.tsi.prot key
      let now := protSelect (s.get F.TSI_CFG_REVERT) was (x.live e.slot) (y.live e.alt)
      let s := s.modTsi fun t => { t with prot := tabSet (false, 0) t.prot key now }
      let s := if now.1 && !was.1 then s.count F.TSI_CNT_PSWITCH 1 else s
      (if now.1 && (y.live e.alt || x.live e.slot) then y.connect own e.alt else x.connect own e.slot, s)

/-- Put a number into a rising list that may hold it already. -/
def addRising (k : Nat) : List Nat → List Nat
  | [] => [k]
  | x :: l => if k < x then k :: x :: l else if k = x then x :: l else x :: addRising k l

/-- The slots of port `p` that anything but IDLE may come of, ascending. -/
def State.slotsToBuild (p : Fin 4) (s : State) : List Nat :=
  let base := cmKey s.tsi.page[p] p 0
  let limit := if s.get (F.LINE_STATUS_RATE p) = 2 then slots else 6144
  let pick (l : List Nat) : List Nat := (l.filter fun k => decide (base ≤ k) && decide (k < base + 16384)).map fun k => k - base
  let inj := s.get F.FLT_INJ_ADDR_ADDR % 65536
  let armed := if s.bit F.FLT_INJ_ARM ∧ s.get F.FLT_INJ_CHECKER = 7 ∧ inj / 12800 = p.val then [inj % 12800] else []
  let l := pick (s.tsi.cm.map Prod.fst) ++ pick (s.tsi.ecc.map Prod.fst) ++ armed
  (l.filter fun k => decide (k < limit)).foldl (fun a k => addRising k a) []

/-- The slot area and bitmap of a frame, as bytes by offset, with the port's counts of fills. -/
def buildSlots (p : Fin 4) (s : State) : List (Nat × Byte) × State :=
  let r := (s.slotsToBuild p).foldl (fun (a : List (Nat × Byte) × List (Nat × Byte) × Nat × Nat × State) k =>
    let (map, data, fails, refused, s) := a
    let ((kind, b), s) := buildSlot p k s
    let s := if kind = .failed 2 then s.count F.TSI_CNT_U_UNCORR 1 else s
    let at_ := bitmapAt k
    let map := if kind = .live then tabSet 0 map at_ (tabGet 0 map at_ ||| BitVec.twoPow 8 (7 - k % 8)) else map
    let fails := match kind with
      | .failed _ => fails + 1
      | _ => fails
    (map, tabSetRun 0 data (slotAt k) b, fails, if kind = .refused then refused + 1 else refused, s)) ([], [], 0, 0, s)
  let (map, data, fails, refused, s) := r
  (map ++ data, s.modPort p fun o => { o with fails := fails, refused := refused })

/-! ## FRAME_BUILT -/

/-- Bytes with their offsets, zeros left out. -/
def sparse (off : Nat) (l : List Byte) : List (Nat × Byte) :=
  ((l.zipIdx off).map fun x => (x.2, x.1)).filter fun e => e.2 != 0

/-- `n` cells of `size` bytes from a frame. -/
def cellsOf (f : Option RxFrame) (off size n : Nat) : List (List Byte) :=
  (List.range n).map fun i => match f with
    | some x => frameAt x.bytes (off + size * i) size
    | none => List.replicate size 0

/-- Alignment, number, time transfer and ring control (bytes 0–87). -/
def frameHead (p : Fin 4) (n : Nat) (s : State) : List Byte :=
  sendAlign p ++ numberField n ++ timeField p s ++ ringControl p s

/-- Span bytes for the frame, used once. -/
def takeSpanTx (p : Fin 4) (s : State) : List Byte × State :=
  match h : p.val with
  | 0 | 1 =>
    let i : Fin 2 := ⟨p.val, by omega⟩
    (slice s.flue.spanTx[i] 0 48, s.modFlue fun f => { f with spanTx := f.spanTx.set i [] })
  | _ => (List.replicate 48 0, s)

/-- The work engine inserts into east-going frames; wrapped at EAST, into west-going; isolated, into none (R456). -/
def State.insertsWork (p : Fin 4) (s : State) : Bool :=
  (p == 0 && !s.wrapped 0) || (p == 1 && s.wrapped 0 && !s.wrapped 1)

/-- The cells of a ring frame in the direction of port `p` (bytes 88–8519). -/
def buildCells (p : Fin 4) (s : State) : List Byte × State :=
  let x := s.input (opposite p)
  let fresh := match x.frame with
    | some f => !f.taken
    | none => false
  let f := if fresh then x.frame else none
  let open_ := s.lineState p == lUP && !s.wrapped p
  let span := if s.wrapped p then (List.replicate 48 0, s) else takeSpanTx p s
  let line := lineCells p open_ (cellsOf f 136 32 6) span.2
  let work := workCells p (line.2.insertsWork p) (cellsOf f 328 64 128) line.2
  (span.1 ++ line.1 ++ work.1, work.2)

/-- Everything past the ring control of a frame that carries the ring. -/
def buildBody (p : Fin 4) (s : State) : List (Nat × Byte) × State :=
  let (cells, s) := if ringPort p then buildCells p s else (List.replicate 8432 0, s)
  let (area, s) := buildSlots p s
  (sparse 88 cells ++ area, s)

/-- Counts and flags once a frame has gone out. -/
def afterFrame (p : Fin 4) (n : Nat) (stamp : SysTime) (s : State) : State :=
  let st := s.lineState p
  let holds := s.holds p
  let s := noteDeparture p (BitVec.ofNat 16 n) stamp s
  let s := s.modPort p fun o =>
    { o with txNum := some (BitVec.ofNat 48 n), jumpLeft := o.jumpLeft - 1, count := if st = lT2 then o.count - 1 else o.count,
             sentRun := if st = lT4 && holds then o.sentRun + 1 else 0 }
  let s := s.modPort (opposite p) fun o =>
    { o with rx := if ringPort p then o.rx.map (fun f => { f with taken := true }) else o.rx }
  if !s.primary p then s
  else
    let s := s.modRing fun r => { r with leaveFrames := r.leaveFrames.map (· - 1) }
    if s.ring.leaveFrames = some 0 then withdraw s else s

/-- BUF_SLIP of the slot buffers that re-centred before this frame: from input `q` to output `p` (R424). -/
def bufferSlips (p : Fin 4) (slips : List (Fin 4)) (s : State) : State :=
  s.each (slips.filter fun q => !(ringPort p && q == opposite p)) fun q s =>
    tsiFault kLOSS_OF_SYNC corrected 0x07 (q.val + 256 * p.val) false (s.count F.TSI_CNT_BUF_SLIPS 1)

/-- What comes before the frame itself: election once per frame, number, clocks, credit, page. -/
def beginFrame (p : Fin 4) (stamp : SysTime) (s : State) : Nat × State :=
  let s := if s.primary p then elect s else s
  let (n, s) := buildNumber p stamp s
  let s := if s.primary p ∧ n % 16 = 0 then setClocks s else s
  let s := if s.primary p ∧ n % 128 = 0 then s.modFlue fun f => { f with credit := s.flueQuota } else s
  (n, portSwap p n s)

/-- A port's frame while the node is inserted or in bypass by rule. -/
def buildFrame (p : Fin 4) (stamp : SysTime) (slips : List (Fin 4)) (s : State) : State :=
  let (n, s) := beginFrame p stamp (bufferSlips p slips s)
  let head := sparse 0 (frameHead p n s)
  let carries := s.carrying p || s.wrapped p
  let full := carries && (s.sup.inserted || !ringPort p)
  let (body, s) := if full then buildBody p s else ([], s.modPort p fun o => { o with fails := 0, refused := 0 })
  let tx := if s.wrapped p then head else head ++ body
  let s := s.modPort p fun o => { o with built := head ++ body, builtNum := some (BitVec.ofNat 48 n), tx := tx }
  afterFrame p n stamp s

/-- In Caldera and plug hold the transmitters go on with LEAVING until the switch has left the inserted position (R405). -/
def buildLeaving (p : Fin 4) (stamp : SysTime) (s : State) : State :=
  let (n, s) := buildNumber p stamp s
  let tx := sparse 0 (frameHead p n s)
  noteDeparture p (BitVec.ofNat 16 n) stamp (s.modPort p fun o => { o with tx := tx, txNum := some (BitVec.ofNat 48 n) })

/-- FRAME_BUILT (R386): the node builds the frame that port `p` begins to send at `stamp`. -/
def execFrameBuilt (p : Fin 4) (stamp : SysTime) (slips : List (Fin 4)) (s : State) : Result :=
  actWhen (s.clocked && s.transmitting p) (fun s =>
    if s.live then buildFrame p stamp slips s
    else if ringPort p && s.sup.switchIn then buildLeaving p stamp s
    else s) s

end Sys2Proof.Machine
end

