-- ==== Sys2Proof/Machine/RegAccess.lean ====
section
/-! DEFINITION. Register accesses (R6–R9, R290a, R294, R295, R539): what a register reads, what reading it does, and
what a write of it does. A register with an effect of its own is handled by its block; every other is
set, W1S-set or W1C-cleared field by field. -/

namespace Sys2Proof.Machine

/-! ## Live registers -/

def liveFlt (off : Nat) (s : State) : Option Word :=
  let num (n : Nat) : Option Word := some (BitVec.ofNat 32 n)
  if off = 0 then
    let es := s.col.pend.toList.filterMap id
    some (F.FLT_STATUS_PENDING.into es.length (F.FLT_STATUS_WARN.into (es.any PendEntry.warned).toNat
      (F.FLT_STATUS_PULSE.into s.col.pulse.toNat (F.FLT_STATUS_FLTN_LOW.into s.fltnLow.toNat (s.reg 0x400D0000)))))
  else if 0x40 ≤ off ∧ off < 0xC0 then
    match s.col.pend.toList.getD ((off - 0x40) / 16) none with
    | none => num 0
    | some e => match off % 16 with
      | 0 => some (e.record.message.extractLsb' 0 32)
      | 4 => some (e.record.message.extractLsb' 32 32)
      | 8 => num (2 ^ 31 + e.warned.toNat * 2 ^ 30 + e.tag.toNat)
      | _ => num (min 0xFFFF ((e.left * 1000 + 536870911) / 536870912))
  else if 0x100 ≤ off ∧ off < 0x120 then
    match s.col.first with
    | none => num 0
    | some r => some (r.word ((off - 0x100) / 4))
  else if 0x400 ≤ off ∧ off < 0x600 then
    match s.col.log.toList.getD ((off - 0x400) / 0x20) none with
    | none => num 0
    | some r => some (r.word (off % 0x20 / 4))
  else none

def GState.code : GState → Nat
  | .idle => 0 | .running => 1 | .stopped => 2 | .aborted => 3 | .refused => 4

/-- The position of a channel: the index of the first element, or block, not yet written (R373). -/
def GChan.position (c : GChan) : Nat × Nat × Nat := match c.desc with
  | none => (0, 0, 0)
  | some d => d.index c.pos

def liveGsr (off : Nat) (s : State) : Option Word :=
  if off = 0x200 then
    some (F.GSR_GSTATUS_RUNNING.into ((List.finRange 8).foldl (fun w g =>
      if s.gsr[g].st == .running then w + 2 ^ g.val else w) 0) (s.reg 0x40040200))
  else if off < 0x200 then
    let g : Fin 8 := Fin.ofNat 8 (off / 0x40)
    match off % 0x40 with
    | 0x08 => some ((F.GSR_STATUS_STATE g).into s.gsr[g].st.code (s.reg (0x40040000 + off)))
    | 0x10 => some (BitVec.ofNat 32 (s.gsr[g].position.2.1 * 2 ^ 16 + s.gsr[g].position.1))
    | 0x14 => some (BitVec.ofNat 32 s.gsr[g].position.2.2)
    | _ => none
  else none

/-- What the register at `a` holds now, if it is not the stored word. -/
def State.live? (a : Nat) (s : State) : Option Word :=
  let off := a % 0x10000
  match (a - 0x40000000) / 0x10000 with
  | 0 => liveHrt off s
  | 1 => liveIc off s
  | 2 => liveChan off s
  | 3 => liveWheel off s
  | 4 => liveGsr off s
  | 6 => liveLine off s
  | 7 => liveTsi off s
  | 8 => liveFlue off s
  | 9 => liveWork off s
  | 10 => livePeat off s
  | 11 => liveTime off s
  | 12 => liveBar off s
  | 13 => liveFlt off s
  | 14 => liveKin off s
  | 15 => liveIdent off s
  | _ => none

/-- What the register at `a` holds now. -/
def State.peek (a : Nat) (s : State) : Word := (s.live? a).getD (s.reg a)

/-! ## Reading -/

/-- The registers an RL low word latches (Tables 01-16 to 15-14). -/
def partners (a : Nat) : List Nat :=
  let off := a % 0x10000
  match (a - 0x40000000) / 0x10000 with
  | 0 => if 0x600 ≤ off ∧ off < 0x700 ∧ off % 0x10 = 4 then [a + 4] else []
  | 2 => if off < 0x4000 then
      (match off % 0x100 with
        | 0x28 => [a + 4, a + 8, a + 12]
        | 0x38 => [a + 4, a + 8]
        | 0x44 => [a + 4, a + 8, a + 12, a + 16, a + 20]
        | _ => [])
    else []
  | 3 => if off < 0x800 then
      (match off % 0x100 with
        | 0x30 => [a + 4]
        | 0x38 => [a + 4, a + 8]
        | 0x44 => [a + 4]
        | _ => [])
    else []
  | 4 => if off < 0x200 ∧ off % 0x40 = 0x10 then [a + 4] else []
  | 6 => if off = 0x408 then [a + 4] else []
  | 11 => if off = 0 ∨ off = 0x18 ∨ off = 0x44 then [a + 4] else []
  | 13 => if 0x40 ≤ off ∧ off < 0xC0 ∧ off % 16 = 0 then [a + 4, a + 8, a + 12]
    else if off = 0x100 ∨ (0x400 ≤ off ∧ off < 0x600 ∧ off % 0x20 = 0) then (List.range 7).map fun i => a + 4 + 4 * i
    else []
  | 14 => if off = 0x58 then [a + 4] else []
  | 15 => if off = 0x14 then [a + 4] else []
  | _ => []

/-- The register at `a` is a partner, read only as latched. -/
def isPartner (a : Nat) : Bool :=
  (List.range 8).any fun i => decide (4 * (i + 1) ≤ a) && (partners (a - 4 * (i + 1))).contains a

/-- The latch set master `m` reads through (R295): an Ember has one for task level and one for handlers. -/
def State.latchSet (m : Nat) (s : State) : Nat :=
  if h : m < 4 then 2 * m + (!(s.emb[m].frames.isEmpty)).toNat else 8 + m

/-- What a latch holds before its low word was read: the register's reset value (R9). -/
def latchReset (a : Nat) : Word :=
  if a = 0x400F0018 then Config.moduleSerial.extractLsb' 32 32
  else match F.fieldsAt a with
    | none => 0
    | some fs => resetWord fs

/-- Master `m` reads the register at `a` (a multiple of 4): the value and the state after it. -/
def regRead (m a : Nat) (s : State) : Word × State :=
  match F.fieldsAt a with
  | none => (0, s)
  | some fs =>
    let set := s.latchSet m
    if isPartner a then ((tabGet none s.latches (set * 2 ^ 32 + a)).getD (latchReset a), s)
    else
      let (v, s) := if a = 0x40070018 then readCmData s else (s.peek a, s)
      let latches := (partners a).foldl (fun l p => tabSet none l (set * 2 ^ 32 + p) (some (s.peek p))) s.latches
      let s := { s with latches := latches }
      (v, s.each (fs.filter fun f => f.acc == .rc) fun f => State.put f f.reset)

/-! ## Writing -/

def writeHrt (off : Nat) (v : Word) (s : State) : Option State :=
  if off = 0x10 then some (s.each (slotsOf (v.zeroExtend 64)) makeReady)
  else if off = 0x14 then some (s.each (slotsOf (v.zeroExtend 64 <<< 32)) makeReady)
  else if off = 0x18 then some (s.each (slotsOf (v.zeroExtend 64)) unready)
  else if off = 0x1C then some (s.each (slotsOf (v.zeroExtend 64 <<< 32)) unready)
  else if 0x40 ≤ off ∧ off < 0xC0 ∧ off % 0x20 = 0 then
    some (if v.getLsbD 0 then restartEmber (Fin.ofNat 4 ((off - 0x40) / 0x20)) s else s)
  else if 0x600 ≤ off ∧ off < 0x700 ∧ off % 0x10 = 4 then some (writeDueLo ((off - 0x600) / 0x10) v s)
  else if 0x600 ≤ off ∧ off < 0x700 ∧ off % 0x10 = 8 then some (writeDueHi ((off - 0x600) / 0x10) v s)
  else none

def writeIc (off : Nat) (v : Word) (s : State) : Option State :=
  let i := off % 0x10 / 4
  if 0x10 ≤ off ∧ off < 0x20 then some (writeEnSet i v s)
  else if 0x20 ≤ off ∧ off < 0x30 then some (writeEnClr i v s)
  else if 0x30 ≤ off ∧ off < 0x40 then some (writeLatSet i v s)
  else if 0x40 ≤ off ∧ off < 0x50 then some (writeLatClr i v s)
  else if 0x50 ≤ off ∧ off < 0x60 then some (writeArrived i v s)
  else if 0x100 ≤ off ∧ off < 0x300 then some (writeSrc ((off - 0x100) / 4) v s)
  else if 0x300 ≤ off ∧ off < 0x380 ∧ off % 0x20 = 0 then some (writeEctl ((off - 0x300) / 0x20) v s)
  else none

/-- A write of GSR.CTL: GO, RESUME and ABORT (R376). -/
def writeGsrCtl (g : Fin 8) (v : Word) (s : State) : State :=
  let s := if (F.GSR_CTL_GO g).of v = 0 then s else (geyserStart g (s.get (F.GSR_DESC_ADDR g)) s).2
  let s := if (F.GSR_CTL_RESUME g).of v = 0 then s else geyserResume g s
  if (F.GSR_CTL_ABORT g).of v = 0 then s else geyserStop g .aborted s

/-- A POWER write whose abandoned wake reached a free number of words (R359). -/
def writePowerFree (hi : Bool) (v : Word) (s : State) : State :=
  let (d, s) := s.draw
  writePower hi v (d.toNat % 4097) s

def writeSpm (off : Nat) (v : Word) (s : State) : Option State :=
  if off = 0x10 then some (writePowerFree false v s)
  else if off = 0x14 then some (writePowerFree true v s)
  else if 0x80 ≤ off ∧ off < 0xC0 ∧ off % 8 = 4 then some (writeWinCtl ((off - 0x80) / 8) v s)
  else if off = 0x100 then some (writeMarch v s)
  else none

def writeFlt (off : Nat) (v : Word) (s : State) : Option State :=
  if off = 0x08 then some (writeFltCtl v s)
  else if off = 0x10 then some (writeAck v s)
  else if off = 0x30 then some (writeInj v s)
  else none

/-- The effect of a write that its block gives; none where the register has no effect of its own. -/
def writeOwn (_m a : Nat) (v : Word) (s : State) : Option State :=
  let off := a % 0x10000
  match (a - 0x40000000) / 0x10000 with
  | 0 => writeHrt off v s
  | 1 => writeIc off v s
  | 2 => writeChan off v s
  | 3 => writeWheel off v s
  | 4 => if off < 0x200 ∧ off % 0x40 = 0 then some (writeGsrCtl (Fin.ofNat 8 (off / 0x40)) v s) else none
  | 5 => writeSpm off v s
  | 6 => writeLine off v s
  | 7 => writeTsi off v s
  | 8 => writeFlue off v s
  | 9 => writeWork off v s
  | 11 => writeTime off v s
  | 12 => writeBar off v s
  | 13 => writeFlt off v s
  | 14 => if off = 0x48 then some (writePlgCtl v s) else none
  | _ => none

/-- Master `m` writes `v` to the register at `a` (a multiple of 4). -/
def regWrite (m a : Nat) (v : Word) (s : State) : State :=
  match F.fieldsAt a with
  | none => s
  | some fs => match writeOwn m a v s with
    | some s => s
    | none => writePlain fs v s

/-! ## The commands of chapter 0 -/

/-- An address of the register windows (R8). -/
def inWindows (a : Nat) : Bool := decide (0x40000000 ≤ a ∧ a < 0x40100000)

/-- LATCHED_READ (R9): master `m` reads an RL field at `a`. -/
def execLatchedRead (m : Fin 11) (a : Word) (s : State) : Result :=
  actWhen (s.clocked && a.toNat % 4 == 0 && !(partners a.toNat).isEmpty) (fun s => (regRead m a.toNat s).2) s

/-- CLEARING_READ (R6): master `m` reads a register with RC fields at `a`. -/
def execClearingRead (m : Fin 11) (a : Word) (s : State) : Result :=
  actWhen (s.clocked && a.toNat % 4 == 0) (fun s => (regRead m a.toNat s).2) s

/-- REGISTER_WRITE (R294): master `m` writes `v` at `a`. -/
def execRegisterWrite (m : Fin 11) (a v : Word) (s : State) : Result :=
  actWhen (s.clocked && a.toNat % 4 == 0) (regWrite m a.toNat v) s

end Sys2Proof.Machine
end

