-- ==== Sys2Proof/Machine/Embers.lean ====
section
/-! DEFINITION. How an Ember executes (chapter 8): the store buffer and its drains, exceptions, budgets, the
fetch check, and the one frame every instruction of chapter 9 runs in. -/

namespace Sys2Proof.Machine

/-! ## The store buffer (R274–R280) -/

/-- A fault of Ember `e` (Table 08-8). -/
def emberFault (e : Fin 4) (kind : BitVec 5) (reason : BitVec 8) (detail : Nat) (addr : Word) (access : BitVec 8)
    (s : State) : State :=
  s.raise { src := BitVec.ofNat 8 (e.val + 1), kind := kind, cls := contained, reason := reason,
            detail := BitVec.ofNat 24 detail, addr := addr, master := BitVec.ofNat 8 e.val, access := access }

/-- A parity error of Ember `e`: 0 register file, 1 flags, 2 store buffer (R271). -/
def parityFault (e : Fin 4) (where_ : Nat) (s : State) : State :=
  s.raise { src := BitVec.ofNat 8 (e.val + 1), kind := kPARITY, cls := fatal, reason := 0x08,
            detail := BitVec.ofNat 24 where_, injected := true }

/-- The Ember has a task, handler or exception in progress. -/
def Ember.busy (m : Ember) : Bool := !m.halted && !m.stopped && (m.inTask || m.excActive || !m.frames.isEmpty)

/-- A store found faulty at its drain: its Ember enters STORE at its next boundary, the first address standing for all; an idle
Ember enters none, now or later (R280). -/
def storeFaulted (e : Fin 4) (a : Word) (s : State) : State :=
  s.modE e fun m => { m with storeFault := if m.busy then (m.storeFault <|> some a) else none }

/-- Perform one store; one that faults is reported and not performed (R277, R280, R352). -/
def performStore (e : Fin 4) (t : StoreEntry) (s : State) : State :=
  let a := t.addr.toNat
  if a < spmTop then
    match s.spmWrite e a t.size (t.data.toNat % 256 ^ t.size) with
    | (.ok, s) => s
    | (.off, s) => storeFaulted e t.addr (emberFault e kACCESS_OFF_BANK 0x04 s.emb[e].slot t.addr 1 s)
    | (.uncorr, s) => storeFaulted e t.addr (emberFault e kBUS_ERR 0x04 s.emb[e].slot t.addr 1 s)
  else regWrite e a (t.data.setWidth 32) s

/-- A store to a register window. -/
def StoreEntry.toWindow (t : StoreEntry) : Bool := decide (spmTop ≤ t.addr.toNat)

/-- Drain the oldest entry of Ember `e` for which `p` holds; its parity is checked as it leaves the buffer (R271). -/
def drainFirst (e : Fin 4) (p : StoreEntry → Bool) (s : State) : State :=
  match s.emb[e].sbuf.find? p with
  | none => s
  | some x =>
    let s := s.modE e fun m => { m with sbuf := m.sbuf.eraseP p,
                                        retiWait := if x.toWindow then m.retiWait - 1 else m.retiWait }
    match s.inject 0x03 e with
    | (0, s) => performStore e x s
    | (_, s) => parityFault e 2 s

/-- Drain up to `n` entries for which `p` holds, oldest first. -/
def drainMany (e : Fin 4) (p : StoreEntry → Bool) : Nat → State → State
  | 0, s => s
  | n + 1, s => drainMany e p n (drainFirst e p s)

/-- Wait until the buffer is empty (R278). -/
def drainAll (e : Fin 4) (s : State) : State := drainMany e (fun _ => true) 8 s

/-- Wait until the register-window stores have drained (R276, R316). -/
def drainWindow (e : Fin 4) (s : State) : State := drainMany e StoreEntry.toWindow 8 s

/-! ## Exceptions (R279–R282) -/

/-- Table 08-3's codes. -/
def excCode : Exc → Nat
  | .illegal => 0x01 | .align => 0x02 | .access _ => 0x03 | .store => 0x04 | .stack => 0x05
  | .watchdog => 0x06 | .budget => 0x09

/-- The control-store window address of word `pc` of the active page. -/
def State.wordAddr (pc : BitVec 13) (s : State) : Word :=
  BitVec.ofNat 32 (0x10000000 + 0x20000 * s.get F.HRT_SWAP_ACTIVE_PAGE + 16 * pc.toNat)

/-- The fault every cause raises; a STORE fault was raised at the drain, BUDGET's by Hearth. -/
def causeFault (e : Fin 4) (c : Exc) (eaddr : Word) (s : State) : State :=
  let m := s.emb[e]
  match c with
  | .illegal => emberFault e kPROTOCOL 0x01 m.pc.toNat eaddr 4 s
  | .align => emberFault e kALIGN 0x02 m.slot eaddr 0x0F s
  | .access off => emberFault e (if off then kACCESS_OFF_BANK else kBUS_ERR) 0x03 m.slot eaddr 0x0F s
  | .stack => emberFault e kPROTOCOL 0x05 m.slot eaddr 0x0F s
  | .watchdog => emberFault e kWATCHDOG 0x06 m.pc.toNat eaddr 0x0F s
  | .store => s
  | .budget => s

/-- A double exception stops the Ember and aborts its task (R282). -/
def doubleException (e : Fin 4) (c : Exc) (eaddr : Word) (s : State) : State :=
  let s := drainAll e s
  let s := s.endRun e true
  let s := s.modE e fun m => { m with frames := [], excActive := false, stopped := true, stall := none,
                                      waiting := none, budgetHeld := false, storeFault := none }
  emberFault e kPROTOCOL 0x07 (excCode c) eaddr 0x0F s

/-- Ember `e` enters an exception with return address `epc` (R281); a store that faults while its buffer drains for the entry
enters no other (R280). -/
def enterException (e : Fin 4) (c : Exc) (epc : BitVec 13) (eaddr : Word) (s : State) : State :=
  let s := causeFault e c eaddr s
  if s.emb[e].excActive then doubleException e c eaddr s
  else
    let s := drainAll e s
    let s := (s.put (F.EMB_EPC_FLAGS e) s.emb[e].flags.code).put (F.EMB_EPC_PC e) epc.toNat
    let s := (s.put (F.EMB_CAUSE_CAUSE e) (excCode c)).put (F.EMB_EADDR_ADDR e) eaddr.toNat
    s.modE e fun m => { m with excActive := true, pc := BitVec.ofNat 13 (s.get F.HRT_EXC_VEC_ENTRY),
                               stall := none, waiting := none, storeFault := none }

/-- A BUDGET that fell due while it could not be entered (R290). -/
def Ember.budgetDue (m : Ember) : Bool := m.budgetHeld && !m.excActive && m.inTask && m.frames.isEmpty

/-- An instruction boundary of Ember `e`: a store found faulty enters STORE there, else a held BUDGET is entered; one with
nothing in progress enters none (R272, R280, R290). -/
def boundary (e : Fin 4) (s : State) : State :=
  let m := s.emb[e]
  match m.storeFault with
  | some a =>
    if !m.busy then s.setE e { m with storeFault := none }
    else if m.stall.isSome || m.scrubWait then s
    else enterException e .store m.pc a s
  | none => if m.budgetDue then enterException e .budget m.pc 0 (s.setE e { m with budgetHeld := false }) else s

/-! ## The frame of an instruction -/

/-- How an instruction's execution in one go ends. -/
inductive IRes where
  /-- it retires, and the next instruction follows -/
  | done (s : State)
  /-- it retires and continues at `pc` -/
  | jump (pc : BitVec 13) (s : State)
  /-- a precise exception: without effect, the drains it waited for aside -/
  | exc (c : Exc) (eaddr : Word) (s : State)
  /-- it waits (Table 08-1) -/
  | wait (addr : Word) (inShift : Bool) (s : State)
  /-- a boundary passes and the instruction stands (WAIT, R324) -/
  | hold (s : State)

/-- Retire the instruction at the Ember's pc and continue at `pc`. -/
def retire (e : Fin 4) (pc : BitVec 13) (s : State) : State :=
  boundary e (s.modE e fun m => { m with lastPc := m.pc, pc := pc, stall := none, waiting := none })

/-- What an outcome makes of the state. A store found faulty before a precise cause is the one entered (log entry 109). -/
def IRes.apply (e : Fin 4) (s : State) : IRes → State
  | .done s' => retire e (s.emb[e].pc + 1) s'
  | .jump pc s' => retire e pc s'
  | .exc c a s' => match s'.emb[e].storeFault with
    | some f => enterException e .store s.emb[e].pc f s'
    | none => enterException e c s.emb[e].pc a s'
  | .wait a sh s' => s'.modE e fun m =>
      { m with stall := some ⟨a, (m.stall.map Stall.cycles).getD 0, sh⟩ }
  | .hold s' => s'

/-- What an instruction reads that carries parity: 0 the register file, 1 the flags alone; none of either (R271). -/
def Micro.reads (m : Micro) : Option Nat :=
  if m.op ∈ [0x01, 0x03, 0x62, 0x68, 0x69, 0x74, 0x7C, 0x7E, 0x83, 0x84, 0x85] then none
  else if m.op = 0x80 ∨ m.op = 0x81 then some 1
  else some 0

/-- The check of what instruction `m` of Ember `e` reads: the place found wrong. An illegal word reads nothing. -/
def readCheck (e : Fin 4) (m : Micro) (s : State) : Option Nat × State :=
  match m.reads with
  | none => (none, s)
  | some p =>
    if !microLegal m.word then (none, s)
    else match s.inject 0x03 e with
      | (0, s) => (none, s)
      | (_, s) => (some p, s)

/-- Ember `e` fetches the word at its pc and executes it. The fetch is parity-checked first, then what the instruction reads
(R271, R286). The word decides: where it is not the instruction `m` of the command, an illegal one enters ILLEGAL, and a legal
one is not executed, the command being no occurrence (R301–R303, log entry 13). An Ember that is not running anything, or waits for a scrub,
executes nothing. -/
def runInstr (e : Fin 4) (m : Micro) (body : State → IRes) (s : State) : Result :=
  actWhen (s.inK8 && s.emb[e].busy && !s.emb[e].scrubWait) (fun s =>
    let page := s.get F.HRT_SWAP_ACTIVE_PAGE
    let pc := s.emb[e].pc
    let exact_ := decide (s.fetched pc = m.bits)
    match s.csCheck page pc.toNat with
    | (false, s) => noteBadWord pc.toNat (s.modE e fun m => { m with scrubWait := true })
    | (true, s) =>
      if !exact_ then if microLegal (s.csWord page pc.toNat) then s else (IRes.exc .illegal (s.wordAddr pc) s).apply e s
      else match readCheck e m s with
        | (none, s) => (body s).apply e s
        | (some p, s) => parityFault e p s) s

/-- The word raises ILLEGAL unless `ok` (R303). -/
def legal (e : Fin 4) (ok : Bool) (s : State) (k : IRes) : IRes :=
  if ok then k else .exc .illegal (s.wordAddr s.emb[e].pc) s

/-- Retire with the Ember's registers changed. -/
def doneWith (e : Fin 4) (f : Ember → Ember) (s : State) : IRes := .done (s.modE e f)

/-! ## Commands of chapter 8 -/

/-- The oldest entry to each target, oldest first: what could drain in this cycle (R275). -/
def State.drainHeads (e : Fin 4) (s : State) : List StoreEntry :=
  s.emb[e].sbuf.foldl (fun l x => if l.any fun y => s.targetOf y == s.targetOf x then l else l ++ [x]) []

/-- The masters that request each bank with an Ember: of `others` at banks 0–15, of `dual` at bank 16, whose masters of port B are
those that have the Ember's word locked (R356). -/
def asking (dual : BitVec 9) (others : List (BitVec 9)) : List (BitVec 9) :=
  (List.range 16).map (fun b => others.getD b 0) ++ [dual]

/-- One cycle of draining: the first of the entries whose target grants it is performed. At bank b the masters of `others[b]`
request too; a register window, and a bank that is not On, have nothing to wait for. -/
def drainCycle (e : Fin 4) (others : List (BitVec 9)) : List StoreEntry → State → State
  | [], s => s
  | x :: xs, s =>
    let t := s.targetOf x
    let take (s : State) : State := drainFirst e (fun y => s.targetOf y == t) s
    if t = 17 ∨ !s.bankOn t then take s
    else match s.grant t e (if x.size = 8 then 1 else 2) (others.getD t 0) with
      | (true, s) => take s
      | (false, s) => drainCycle e others xs s

/-- STORE_DRAIN (R275): one cycle in which Ember `e`'s buffer drains; `others` and `dual` are the masters that request the banks
with it (`asking`). -/
def execStoreDrain (e : Fin 4) (dual : BitVec 9) (others : List (BitVec 9)) (s : State) : Result :=
  actWhen s.live (fun s => boundary e (drainCycle e (asking dual others) (s.drainHeads e) s)) s

/-- WATCHDOG (R279): an instruction stalled for 2^20 cycles is abandoned. -/
def execWatchdog (e : Fin 4) (s : State) : Result :=
  actWhen (s.inK8 && s.emb[e].busy) (fun s =>
    match s.emb[e].stall with
    | none => s
    | some st => if st.cycles < 2 ^ 20 then s else enterException e .watchdog s.emb[e].pc st.addr s) s

/-- The task's allowance in cycles: 16·B, renewed once (R290). -/
def State.allowance (e : Fin 4) (s : State) : Nat :=
  let m := s.emb[e]
  16 * s.hrt.slots[m.slot].budget * (1 + m.renewed.toNat)

def State.overBudget (e : Fin 4) (s : State) : Bool :=
  s.emb[e].inTask && s.hrt.slots[s.emb[e].slot].budget != 0 &&
    decide (s.allowance e < s.get (F.EMB_RUNCYC_CYCLES e))

/-- A fault of Hearth about Ember `e`'s task. -/
def budgetFault (e : Fin 4) (cls : BitVec 2) (reason : BitVec 8) (s : State) : State :=
  s.raise { src := 0x06, kind := kBUDGET_OVERRUN, cls := cls, reason := reason,
            detail := detail3 s.emb[e].slot e }

/-- BUDGET_WARN (R290). -/
def execBudgetWarn (e : Fin 4) (s : State) : Result :=
  actWhen (s.inK8 && s.emb[e].busy && s.overBudget e && !s.emb[e].overran) (fun s =>
    let s := budgetFault e corrected 0x01 s
    let m := { s.emb[e] with overran := true }
    if m.excActive || m.stall.isSome || m.scrubWait then s.setE e { m with budgetHeld := true }
    else enterException e .budget m.pc 0 (s.setE e m)) s

/-- The Ember is at a boundary, or inside SHIFT's wait, which a budget abort abandons (R272, R326). -/
def Ember.abortable (m : Ember) : Bool := !m.scrubWait && match m.stall with
  | some x => x.inShift
  | none => true

/-- BUDGET_ABORT (R290): buffered stores drain and are kept. -/
def execBudgetAbort (e : Fin 4) (s : State) : Result :=
  actWhen (s.inK8 && s.emb[e].busy && s.overBudget e && s.emb[e].renewed && !s.emb[e].excActive &&
      s.emb[e].frames.isEmpty && s.emb[e].abortable) (fun s =>
    budgetFault e contained 0x02 (s.endRun e true)) s

end Sys2Proof.Machine
end

