-- ==== Sys2Proof/Machine/Power.lean ====
section
/-! DEFINITION. The power monitor and the PWRFAIL sequence (02.3), the bypass supervisor (02.4), and the clocks stopped
and started again (R505, R509, R510). -/

namespace Sys2Proof.Machine

/-! ## The heartbeat, the coil and the switch (R76–R78) -/

def startHeartbeat (s : State) : State :=
  let s := s.modNode fun x => { x with heartbeat := true, hbAt := s.cycles }
  { s with sup := { s.sup with hbLost := false } }

def stopHeartbeat (s : State) : State := s.modNode fun x => { x with heartbeat := false }

/-- HEARTBEAT_LOST (R77): 2 ms without an edge. The supervisor has its own oscillator and acts in every phase. -/
def execHeartbeatLost (s : State) : Result :=
  actWhen (!s.node.heartbeat && !s.sup.hbLost) (fun s => setCoil false { s with sup := { s.sup with hbLost := true } }) s

/-- COIL_ENERGISE (R78): the heartbeat has been there for 10 ms and the ring line requests insertion. -/
def execCoilEnergise (s : State) : Result :=
  actWhen (s.clocked && s.node.heartbeat && !s.sup.coil && s.ring.requested && decide (s.node.hbAt + msCycles 10 ≤ s.cycles))
    (setCoil true) s

/-- The node sees the switch at its new position: it transmits T1, or its transmitters go dark (R411, R405). -/
def switchMoved (s : State) : State :=
  if s.sup.switchIn ∧ s.live ∧ s.ring.requested then switchInserted s
  else if s.sup.switchIn then s
  else switchBypassed s

/-- SWITCH_POSITION (R78): the switch reaches the inserted position, or bypass. While frozen the node sees nothing. -/
def execSwitchPosition (inserted : Bool) (s : State) : Result :=
  actWhen (s.sup.switchIn != inserted) (fun s =>
    let s := { s with sup := { s.sup with switchIn := inserted, changedAt := s.cycles } }
    if s.node.freeze = .frozen then s else switchMoved s) s

/-- SWITCH_MISMATCH (R78): position and coil drive have disagreed for 12 ms. -/
def execSwitchMismatch (s : State) : Result :=
  actWhen (s.clocked && s.sup.coil != s.sup.switchIn && decide (s.sup.changedAt + msCycles 12 ≤ s.cycles)) (State.raise
    { src := 0x19, kind := kTIMEOUT, cls := contained, reason := 0x01,
      detail := detail3 s.sup.coil.toNat s.sup.switchIn.toNat }) s

/-! ## Stopped clocks (R505, R509) -/

/-- The clocks stop: the state is held, and the heartbeat stops with the core clock (R76). -/
def stopClocks (bypassFirst onFatal : Bool) (s : State) : State :=
  let ran := s.node.heartbeat
  stopHeartbeat (s.modNode fun x => { x with freeze := .frozen, frzBypassFirst := bypassFirst, frzOnFatal := onFatal,
                                             memaccWritten := false, resumeRefused := false, hbFrozen := ran })

/-- An enabled port that was training or up retrains from T1. -/
def retrainPort (p : Fin 4) (s : State) : State := if s.transmitting p then restoreTimer p (enterT1 p s) else s

/-- The clocks start: the reference counts as just regained, and the ports retrain (R509). -/
def startClocks (reason : BitVec 8) (kind : BitVec 5) (s : State) : State :=
  let x := s.node
  let s := s.modNode fun x => { x with freeze := .running }
  let s := s.when (x.hbFrozen && s.live) startHeartbeat
  let s := timeResume s
  let s := s.each [(2 : Fin 4), 3] retrainPort
  let s := if s.sup.switchIn then s.each [(0 : Fin 4), 1] retrainPort else switchBypassed s
  s.raise { src := 0x1C, kind := kind, cls := corrected, reason := reason,
            detail := detail3 (x.memaccWritten.toNat + 2 * x.frzBypassFirst.toNat + 4 * x.frzOnFatal.toNat) }

/-! ## PWRFAIL (Table 02-4) -/

/-- Step 1 for one Ember: its store buffer drains. -/
def drainBuffer (e : Fin 4) (s : State) : State :=
  boundary e (drainAll e s)

/-- Peat's records in flight are completed; how many there were. -/
def completeRecords (s : State) : Nat × State :=
  let n := min 4 s.work.peat.length
  (n, commitAll s)

/-- Steps 1 and 2, as PWRFAIL and plug hold carry them out once the plug is read (R75); a plug whose supply is off takes
nothing more (R36). -/
def drainNode (s : State) : State :=
  let s := endDrain (s.each (List.finRange 4) drainBuffer)
  let (n, s) := if s.plugReachable then completeRecords (stopOriginating (abortTransfer s)) else (0, stopOriginating s)
  s.modNode fun x => { x with pwrRecords := n, pwrAt := s.now }

/-- The ports that transmit set LEAVING until their transmitters go dark (R405). -/
def setLeaving (s : State) : State := if s.sup.switchIn then setInsert 6 (s.modRing fun r => { r with leaving := true }) else s

/-- PWRFAIL asserted: step 1 of Table 02-4, and step 2. -/
def pwrfail (vbulk : BitVec 16) (s : State) : State :=
  let s := (s.put F.BAR_SUPPLY_VBULK vbulk.toNat).put F.BAR_SUPPLY_PWRFAIL 1
  let s := (s.raise { src := 0x1A, kind := kPOWER, cls := corrected, reason := 0x01,
                      detail := BitVec.ofNat 24 vbulk.toNat }).strobe 124
  if s.node.phase = .hold then s
  else
    let s := s.modNode fun x =>
      { x with pwr := .running, pwrAt := s.now, pwrRecords := 0, pwrCycle := s.cycles, pwrLogged := false }
    let s := setLeaving s
    if s.plugRead then drainNode s else s

/-- `n` ms of Table 02-4 have passed. -/
def State.pwrPast (n : Nat) (s : State) : Bool := decide (s.node.pwrCycle + msCycles n ≤ s.cycles)

/-- Step 5: the shutdown record, once, where the plug is read and can be written (R73, R75). -/
def pwrRecord (s : State) : State :=
  if s.plugRead ∧ s.plugReachable ∧ s.node.pwrLogged = false then
    (shutdownRecord 0x01 s.node.pwrAt s.node.pwrRecords s).modNode fun x => { x with pwrLogged := true }
  else s

/-- PWRFAIL_HALT (Table 02-4, steps 4 and 5): 20 ms after PWRFAIL. No record before K3 or in Caldera (R75). -/
def execPwrfailHalt (s : State) : Result :=
  actWhen (s.clocked && s.node.pwr == .running && s.pwrPast 20) (fun s =>
    pwrRecord (haltEmbers (s.modNode fun x => { x with pwr := .halted }))) s

/-- PWRFAIL_HEARTBEAT_STOP (Table 02-4, step 6): 21 ms after PWRFAIL the heartbeat and the TIME frames stop. Everything else
keeps running until step 8, 30 ms after PWRFAIL (R72, tickPower). -/
def execPwrfailHeartbeatStop (s : State) : Result :=
  actWhen (s.clocked && s.node.pwr == .halted && s.pwrPast 21) (fun s =>
    (stopHeartbeat s).modNode fun x => { x with pwr := .stopped }) s

end Sys2Proof.Machine
end

