-- ==== Sys2Proof/Machine/Caldera.lean ====
section
/-! DEFINITION. Caldera (15.8): its entry, the capture record and what a frozen node leaves of it until it resumes. -/

namespace Sys2Proof.Machine

/-! ## The capture record (R502, Tables 15-7 to 15-9) -/

/-- CAP_SEQ of slot `j`, if its MAGIC and FORMAT are right. -/
def State.capSeq (j : Nat) (s : State) : Option Nat :=
  let b := s.plugBytes (0xE2000 + 0x600 * j) 12
  if leAt b 0 4 = 0x50435A44 ∧ leAt b 4 2 = 1 then some (leAt b 8 4) else none

/-- Slot and CAP_SEQ of the next record: after the newest, the highest-numbered where comparisons leave more than one. -/
def State.capNext (s : State) : Nat × Nat :=
  let l := (List.range 64).filterMap fun j => (s.capSeq j).map fun q => (j, q)
  let best := l.filter fun x => l.all fun y => !newer 32 y.2 x.2
  match (if best.isEmpty then l else best).getLast? with
  | none => (0, 1)
  | some (j, q) => ((j + 1) % 64, (q + 1) % 2 ^ 32)

/-- The registers of the STATE block, in order (Table 15-9). -/
def stateBlock : List Field :=
  [F.KIN_STATUS_PHASE, F.IDENT_MODULE_MAKER, F.IDENT_CODES_ADDRESS, F.IDENT_STRAPS_HALF, F.TIME_STATUS_STATE,
   F.TIME_OFFSET_OFFSET, F.RING_STATUS_INSERT] ++ (List.range 4).map F.LINE_STATUS_STATE ++
  [F.HRT_STATUS_EMBER, F.HRT_SWAP_SWAPWAIT] ++
  ((List.range 4).map fun e => [F.EMB_STATE_PC e, F.EMB_EPC_PC e, F.EMB_CAUSE_CAUSE e, F.EMB_EADDR_ADDR e]).flatten ++
  [F.BAR_STATUS_LINK_UP, F.BAR_SUPPLY_VBULK, F.WRK_AWQ_ACCEPTED, F.WRK_CUST_LIVE, F.WRK_HEAD_BLOCKED, F.PEAT_STATUS_QUEUED,
   F.SPM_PSTAT_ON, F.GSR_GSTATUS_RUNNING, F.TSI_STATUS_ACTIVE_PAGE, F.FLT_STATUS_PENDING, F.FLT_STICKY_CONTAINED]

def recordBytes (r : Option FaultRec) : List Byte := slice ((r.map FaultRec.bytes).getD []) 0 32

/-- The log, newest first. -/
def State.logNewest (s : State) : List FaultRec :=
  let n := s.get F.FLT_LOG_HEAD_NEWEST
  (List.range 16).filterMap fun k => s.col.log.toList.getD ((n + 16 - k) % 16) none

/-- Bytes 0x000 to 0x5FB of the record; `at_` is the system time at entry. -/
def State.captureBytes (seq : Nat) (at_ : SysTime) (s : State) : List Byte :=
  let x := s.node
  let flags := (x.coreFailed || x.auxFailed).toNat + 2 * (!s.timeValid).toNat + 4 * (x.pwr != .none).toNat + 8 * x.afterFreeze.toNat
  let first := if s.bit F.FLT_STATUS_FIRST_VALID then s.col.first else none
  let head := leBytes 4 0x50435A44 ++ leBytes 2 1 ++ [x.calderaCause, BitVec.ofNat 8 s.address] ++ leBytes 4 seq ++
    [BitVec.ofNat 8 (s.get F.IDENT_MODULE_RUN_LEVEL), BitVec.ofNat 8 x.calderaFrom.code, BitVec.ofNat 8 flags,
     BitVec.ofNat 8 s.logNewest.length]
  let ids := leBytes 8 at_.toNat ++ leBytes 4 (s.get F.KIN_IMAGE_SEQ_SEQUENCE) ++ leBytes 8 Config.moduleSerial.toNat ++
    leBytes 2 x.ident.epoch.toNat
  let records := recordBytes s.col.cause ++ recordBytes first ++
    slice ((s.logNewest.map fun r => recordBytes (some r)).flatten) 0 512
  slice (slice (head ++ ids) 0 0x40 ++ records ++ (stateBlock.map fun f => leBytes 4 (s.peek f.addr).toNat).flatten) 0 0x5FC

/-- The capture record is written (R502). `bad`: both writes fail their read-back, and what stands there is not valid. -/
def writeCapture (bad : Bool) (at_ : SysTime) (s : State) : State :=
  let (j, seq) := s.capNext
  let b := s.captureBytes seq at_
  let crc := (crc32c b).toNat
  let (v, s) := if bad then s.draw else (0, s)
  let stored := if bad then (if v.toNat % 2 ^ 32 = crc then crc + 1 else v.toNat) else crc
  writePlug (0xE2000 + 0x600 * j) (b ++ leBytes 4 stored) s

/-! ## Entry (Table 15-6) -/

/-- CAUSE (Table 15-8). -/
def causeCode (r : FaultRec) : BitVec 8 := if r.collectorSelf then 3 else if r.escalated then 2 else 1

/-- Step 2's output actions: fail states, FAILNOW, the stop of the heartbeat, LEAVING. Before K5 is complete the terminals
of channels 0–47 go back to high impedance or off (Table 01-7); plug hold has settled that for the phase it came from. -/
def calderaOutputs (r : FaultRec) (s : State) : State :=
  let was := s.node.phase
  let on := s.node.lvOn && (match was with
    | .k6 | .k7 | .k8 | .hold => true
    | _ => false)
  let s := setLeaving (stopHeartbeat (sendFailnow s))
  s.modNode fun x => { x with phase := .caldera, calderaFrom := was, calderaCause := causeCode r, calderaStep := 1, lvOn := on }

/-- The rest of step 2: the Embers halt and their buffers go, a drain for a page swap ends (R299), Hearth's timers and Geyser
stop. -/
def calderaHalt (s : State) : State :=
  let s := geyserHalt (endDrain (discardBuffers (haltEmbers s)))
  { s with hrt := { s.hrt with timersStopped := true } }

/-- K3 had chosen an identity copy when the node came to Caldera (R108). -/
def State.identKnown (s : State) : Bool :=
  s.node.calderaFrom.afterK3 || (s.node.calderaFrom == .k3 && s.node.identChosen)

/-- In a PWRFAIL sequence the capture record can be written only before 29 ms (R75). -/
def State.captureInTime (s : State) : Bool := s.node.pwr == .none || !s.pwrPast 29

/-- The rest of Table 15-6: the halt, Peat's records completed, and the capture record where R502 lets it be written. -/
def calderaRest (bad : Bool) (s : State) : State :=
  let at_ := s.now
  let s := calderaHalt s
  let known := s.identKnown && s.plugReachable
  let s := if known then (completeRecords (abortTransfer s)).2 else s
  let s := s.modNode fun x => { x with calderaStep := 2 }
  if known ∧ s.node.holdLow = false ∧ s.captureInTime then writeCapture bad at_ s else s

/-- CALDERA (R500): the collector has accepted a FATAL fault. With FREEZE_ON_FATAL the clocks stop after the output actions
(R507). `bad` says whether the capture record fails both its read-backs. -/
def execCaldera (bad : Bool) (s : State) : Result :=
  actWhen (s.clocked && s.node.phase != .caldera) (fun s => match s.col.cause with
    | none => s
    | some r =>
      let s := calderaOutputs r s
      if s.bit F.FLT_CFG_FREEZE_ON_FATAL ∧ s.node.pwr = .none then
        stopClocks false true (s.modNode fun x => { x with afterFreeze := true })
      else calderaRest bad s) s

/-- What a freeze left of Caldera is done. -/
def continueCaldera (s : State) : State :=
  if s.node.phase = .caldera ∧ s.node.calderaStep = 1 then calderaRest false s else s

end Sys2Proof.Machine
end

