-- ==== Sys2Proof/Machine/EmberAlu.lean ====
section
/-! DEFINITION. Moves and arithmetic (Table 09-3): each instruction over one ALU operation of Operands.lean. -/

namespace Sys2Proof.Machine

/-- wd := the operation on wa and wb, flags as it gives: opcode `op`. -/
def aluInstr (e : Fin 4) (op : Nat) (f : Alu) (d a b : Fin 32) (s : State) : Result :=
  runInstr e (.regs op d a b) (doneWith e fun m =>
    let (r, fl) := f (m.reg a) (m.reg b) m.flags
    { m.setReg d r with flags := fl }) s

/-- As `aluInstr`, with the immediate in the place of wb. -/
def aluImm (e : Fin 4) (op : Nat) (f : Alu) (d a : Fin 32) (imm : Word) (s : State) : Result :=
  runInstr e (.immed op d a imm) (doneWith e fun m =>
    let (r, fl) := f (m.reg a) imm m.flags
    { m.setReg d r with flags := fl }) s

/-- Flags of the operation; nothing written. -/
def testInstr (e : Fin 4) (w : Micro) (f : Alu) (a : Fin 32) (s2 : Ember → Word) (s : State) : Result :=
  runInstr e w (doneWith e fun m => { m with flags := (f (m.reg a) (s2 m) m.flags).2 }) s

/-- MOVI: no flag changes. -/
def execMovi (e : Fin 4) (d : Fin 32) (imm : Word) (s : State) : Result :=
  runInstr e (.immed 0x01 d 0 imm) (doneWith e (Ember.setReg d imm)) s

def execMov (e : Fin 4) (d a : Fin 32) (s : State) : Result :=
  runInstr e (.regs 0x02 d a 0) (doneWith e fun m => m.setReg d (m.reg a)) s

def execNop (e : Fin 4) (s : State) : Result := runInstr e { op := 0x03 } (doneWith e id) s

def execAdd (e : Fin 4) (d a b : Fin 32) (s : State) : Result := aluInstr e 0x10 aluAdd d a b s

def execAddi (e : Fin 4) (d a : Fin 32) (imm : Word) (s : State) : Result := aluImm e 0x30 aluAdd d a imm s

def execAdc (e : Fin 4) (d a b : Fin 32) (s : State) : Result := aluInstr e 0x11 aluAdc d a b s

def execAdci (e : Fin 4) (d a : Fin 32) (imm : Word) (s : State) : Result := aluImm e 0x31 aluAdc d a imm s

def execSub (e : Fin 4) (d a b : Fin 32) (s : State) : Result := aluInstr e 0x12 aluSub d a b s

def execSubi (e : Fin 4) (d a : Fin 32) (imm : Word) (s : State) : Result := aluImm e 0x32 aluSub d a imm s

def execSbc (e : Fin 4) (d a b : Fin 32) (s : State) : Result := aluInstr e 0x13 aluSbc d a b s

def execSbci (e : Fin 4) (d a : Fin 32) (imm : Word) (s : State) : Result := aluImm e 0x33 aluSbc d a imm s

def execAnd (e : Fin 4) (d a b : Fin 32) (s : State) : Result := aluInstr e 0x14 aluAnd d a b s

def execAndi (e : Fin 4) (d a : Fin 32) (imm : Word) (s : State) : Result := aluImm e 0x34 aluAnd d a imm s

def execOr (e : Fin 4) (d a b : Fin 32) (s : State) : Result := aluInstr e 0x15 aluOr d a b s

def execOri (e : Fin 4) (d a : Fin 32) (imm : Word) (s : State) : Result := aluImm e 0x35 aluOr d a imm s

def execXor (e : Fin 4) (d a b : Fin 32) (s : State) : Result := aluInstr e 0x16 aluXor d a b s

def execXori (e : Fin 4) (d a : Fin 32) (imm : Word) (s : State) : Result := aluImm e 0x36 aluXor d a imm s

def execAndn (e : Fin 4) (d a b : Fin 32) (s : State) : Result := aluInstr e 0x17 aluAndn d a b s

def execAndni (e : Fin 4) (d a : Fin 32) (imm : Word) (s : State) : Result := aluImm e 0x37 aluAndn d a imm s

def execMin (e : Fin 4) (d a b : Fin 32) (s : State) : Result := aluInstr e 0x1A aluMin d a b s

def execMini (e : Fin 4) (d a : Fin 32) (imm : Word) (s : State) : Result := aluImm e 0x3A aluMin d a imm s

def execMax (e : Fin 4) (d a b : Fin 32) (s : State) : Result := aluInstr e 0x1B aluMax d a b s

def execMaxi (e : Fin 4) (d a : Fin 32) (imm : Word) (s : State) : Result := aluImm e 0x3B aluMax d a imm s

def execMinu (e : Fin 4) (d a b : Fin 32) (s : State) : Result := aluInstr e 0x1C aluMinu d a b s

def execMinui (e : Fin 4) (d a : Fin 32) (imm : Word) (s : State) : Result := aluImm e 0x3C aluMinu d a imm s

def execMaxu (e : Fin 4) (d a b : Fin 32) (s : State) : Result := aluInstr e 0x1D aluMaxu d a b s

def execMaxui (e : Fin 4) (d a : Fin 32) (imm : Word) (s : State) : Result := aluImm e 0x3D aluMaxu d a imm s

def execCmp (e : Fin 4) (a b : Fin 32) (s : State) : Result :=
  testInstr e (.regs 0x18 0 a b) aluSub a (fun m => m.reg b) s

def execCmpi (e : Fin 4) (a : Fin 32) (imm : Word) (s : State) : Result :=
  testInstr e (.immed 0x38 0 a imm) aluSub a (fun _ => imm) s

def execTst (e : Fin 4) (a b : Fin 32) (s : State) : Result :=
  testInstr e (.regs 0x19 0 a b) aluAnd a (fun m => m.reg b) s

def execTsti (e : Fin 4) (a : Fin 32) (imm : Word) (s : State) : Result :=
  testInstr e (.immed 0x39 0 a imm) aluAnd a (fun _ => imm) s

end Sys2Proof.Machine
end

