-- ==== Sys2Proof/Machine/EmberEngine.lean ====
section
/-! DEFINITION. Instructions that drive engines (Table 09-8): event lists, pattern FIFOs, wheels, the mailbox. Each
first drains the Ember's buffered register-window stores (R316). -/

namespace Sys2Proof.Machine

/-- The instruction's body after the ordering wait of R316. -/
def engine (e : Fin 4) (k : State → IRes) (s : State) : IRes :=
  k (drainWindow e s)

/-- The word of INSERT or CANCEL: the channel stands in N, or its register in IMM with FN 1 (R317). -/
def selectWord (ch : ChanSel) (m : Micro) : Micro := match ch with
  | .num c => { m with n := c }
  | .reg r => { m with imm := BitVec.ofNat 32 r.val, fn := 1 }

/-- The channel an instruction names. -/
def Ember.channel (m : Ember) : ChanSel → Fin 64
  | .num c => c
  | .reg r => Fin.ofNat 64 (m.reg r).toNat

/-- INSERT (R317): action wa, key {wb+1, wb}, tag wt. -/
def execInsert (e : Fin 4) (d a b t : Fin 32) (ch : ChanSel) (s : State) : Result :=
  runInstr e (selectWord ch { op := 0x70, d := d, a := a, b := b, e := t }) (fun s => legal e (evenReg b) s (engine e (fun s =>
    let m := s.emb[e]
    let (st, s) := listInsert (m.channel ch) (m.pair b) (m.reg a) (m.reg t) s
    .done (s.modE e fun m => { m.setReg d (BitVec.ofNat 32 st) with flags := m.flags.setZ (decide (st ≤ 1)) })) s)) s

/-- CANCEL (R317): tag wt. -/
def execCancel (e : Fin 4) (d t : Fin 32) (ch : ChanSel) (s : State) : Result :=
  runInstr e (selectWord ch { op := 0x71, d := d, e := t }) (engine e (fun s =>
    let m := s.emb[e]
    let (st, s) := listCancel (m.channel ch) (m.reg t) s
    .done (s.modE e fun m => { m.setReg d (BitVec.ofNat 32 st) with flags := m.flags.setZ (st == 0) }))) s

/-- SHIFT (R318) of `n1 + 1` plane pairs into group `g`: discarded while a configuration is pending, else it waits
for room for all of them. -/
def execShift (e : Fin 4) (d : Fin 32) (g : Fin 3) (a : Fin 32) (n1 : Fin 8) (s : State) : Result :=
  runInstr e { op := 0x72, d := d, a := a, n := g, fn := n1.val + 1 } (fun s => legal e (decide (a.val + n1.val < 32)) s (engine e (fun s =>
    let n := n1.val + 1
    let x := s.grp[g]
    let finish (v : Nat) (s : State) : IRes :=
      .done (s.modE e fun m => { m.setReg d (BitVec.ofNat 32 v) with flags := m.flags.setZ (v == 0) })
    if x.pending then
      finish n (chanFault kQUEUE_FULL corrected 0x05 g false (s.count (F.PG_CNT_DISCARDED g) (2 * n)))
    else if x.fifo.length + 2 * n ≤ 32 then
      finish 0 (s.each (List.range n) fun i s => writePlanes g (s.emb[e].reg (Fin.ofNat 32 (a.val + i))) s)
    else .wait 0 true s) s)) s

/-- WPOS (R319). -/
def execWpos (e : Fin 4) (d : Fin 32) (w : Fin 8) (s : State) : Result :=
  runInstr e { op := 0x74, d := d, n := w } (fun s => legal e (evenReg d) s (engine e (fun s =>
    let lo := s.peek (0x40030030 + 0x100 * w)
    let hi := s.peek (0x40030034 + 0x100 * w)
    .done (s.modE e fun m => { m.setPair d (hi ++ lo) with flags := m.flags.setZ (!lo.getLsbD 31) })) s)) s

/-- WPRED (R319): 0 and V where the wheel gives no prediction. -/
def execWpred (e : Fin 4) (d b : Fin 32) (w : Fin 8) (s : State) : Result :=
  runInstr e { op := 0x75, d := d, b := b, n := w } (fun s => legal e (evenReg d && evenReg b) s (engine e (fun s =>
    let k := s.emb[e].pair b
    let t := if k.extractLsb' 20 12 = 0 then s.predict w (keyPos k) else none
    .done (s.modE e fun m => { m.setPair d (t.getD 0) with flags := { m.flags with v := t.isNone } })) s)) s

/-- BSEND (R320). -/
def execBsend (e : Fin 4) (d a : Fin 32) (type : Byte) (s : State) : Result :=
  runInstr e (.immed 0x78 d a (type.zeroExtend 32)) (fun s => legal e (decide (a.val ≤ 26)) s (engine e (fun s =>
    let finish (v : Nat) (s : State) : IRes :=
      .done (s.modE e fun m => { m.setReg d (BitVec.ofNat 32 v) with flags := m.flags.setZ (v == 0) })
    if s.bit F.BAR_MBX_TXCTL_BUSY then finish 1 s
    else if type ≠ tCONFIG ∧ type ≠ tQUERY then finish 2 s
    else
      let m := s.emb[e]
      let s := s.each (List.range 6) fun i => State.put (F.BAR_MBX_TX_DATA i) (m.reg (Fin.ofNat 32 (a.val + i))).toNat
      finish 0 (mailboxGo (s.put F.BAR_MBX_TXCTL_TYPE type.toNat))) s)) s

end Sys2Proof.Machine
end

