-- ==== Sys2Proof/Machine/EmberFlow.lean ====
section
/-! DEFINITION. Tasks, waiting and flow (Table 09-9, R323–R325), and the two engine instructions that need only
the store buffer, Geyser and Hearth: GSTART (R321) and DOORBELL (R322). -/

namespace Sys2Proof.Machine

/-- GSTART (R321): drains the buffer, then starts channel `g` at the descriptor address wa. -/
def execGstart (e : Fin 4) (d : Fin 32) (g : Fin 8) (a : Fin 32) (s : State) : Result :=
  runInstr e { op := 0x7A, d := d, a := a, n := g } (fun s =>
    let (r, s) := geyserStart g (s.emb[e].reg a).toNat (drainAll e s)
    .done (s.modE e fun m => { m.setReg d (BitVec.ofNat 32 r) with flags := m.flags.setZ (r == 0) })) s

/-- DOORBELL (R322). Where it is `met`, a lower-numbered Ember rings the same doorbell in this cycle, and its strobe is the one of the cycle
(R326). -/
def execDoorbell (e : Fin 4) (d : Bell) (s : State) : Result :=
  runInstr e { op := 0x7C, n := d.number } (fun s =>
    let s := drainAll e s
    .done (if d.met then s.setBitOf F.HRT_DOORBELL_RUNG d.number else ringDoorbell d.number s)) s

/-- YIELD (R323): ends the task; with NEST above 0 it is ILLEGAL. An exception handler that yields clears
EXC_ACTIVE and drops a held BUDGET (R281, R290). -/
def execYield (e : Fin 4) (s : State) : Result :=
  runInstr e { op := 0x7E } (fun s => legal e s.emb[e].frames.isEmpty s
    (.done ((s.endRun e false).modE e fun m => { m with excActive := false, budgetHeld := false }))) s

/-- WAIT (R324): one boundary of it. An absolute target stands in the pair wa+1, wa; a relative one counts
from the cycle in which the wait begins. -/
def execWait (e : Fin 4) (a : Fin 32) (fn : Fin 256) (s : State) : Result :=
  runInstr e { op := 0x7F, a := a, fn := fn } (fun s =>
    legal e (decide (fn.val ≤ 1) && (fn.val != 0 || evenReg a)) s
      (let m := s.emb[e]
       let target : SysTime := match m.waiting with
         | some t => t
         | none => if fn.val = 0 then m.pair a else s.now + (m.reg a).zeroExtend 64
       if target.toNat ≤ s.now.toNat then .done s
       else .hold (s.setE e { m with waiting := some target }))) s

/-- B (R325): code 15 is ILLEGAL. -/
def execB (e : Fin 4) (c : Fin 16) (t : BitVec 13) (s : State) : Result :=
  runInstr e { op := 0x80, c := c, t := t } (fun s => legal e (c.val != 15) s
    (if s.emb[e].flags.holds c then .jump t s else .done s)) s

/-- CALL (R325): STACK with the return stack full. -/
def execCall (e : Fin 4) (c : Fin 16) (t : BitVec 13) (s : State) : Result :=
  runInstr e { op := 0x81, c := c, t := t } (fun s => legal e (c.val != 15) s
    (let m := s.emb[e]
     if !m.flags.holds c then .done s
     else if 8 ≤ m.rstack.length then .exc .stack 0 s
     else .jump t (s.setE e { m with rstack := (m.pc + 1) :: m.rstack }))) s

def execJr (e : Fin 4) (a : Fin 32) (s : State) : Result :=
  runInstr e { op := 0x82, a := a } (fun s => .jump ((s.emb[e].reg a).setWidth 13) s) s

/-- RETURN (R325): STACK with the return stack empty. -/
def execReturn (e : Fin 4) (s : State) : Result :=
  runInstr e { op := 0x83 } (fun s => match s.emb[e].rstack with
    | [] => .exc .stack 0 s
    | p :: ps => .jump p (s.modE e fun m => { m with rstack := ps })) s

/-- RETI (R287, R323): pops the newest frame; interrupts are sampled again once the register-window
stores made before it have drained (R278). -/
def execReti (e : Fin 4) (s : State) : Result :=
  runInstr e { op := 0x84 } (fun s => match s.emb[e].frames with
    | [] => .exc .illegal (s.wordAddr s.emb[e].pc) s
    | f :: fs => .jump f.pc (s.modE e fun m =>
        { m with frames := fs, flags := f.flags, inTask := f.inTask,
                 retiWait := (m.sbuf.filter StoreEntry.toWindow).length })) s

/-- ERET (R281, R290): flags and PC come from EMB.EPC; the first BUDGET's return renews the allowance. -/
def execEret (e : Fin 4) (s : State) : Result :=
  runInstr e { op := 0x85 } (fun s => legal e s.emb[e].excActive s
    (let budget := s.get (F.EMB_CAUSE_CAUSE e) == 9
     .jump (BitVec.ofNat 13 (s.get (F.EMB_EPC_PC e))) (s.modE e fun m =>
       { m with excActive := false, flags := Flags.ofCode (s.get (F.EMB_EPC_FLAGS e)),
                renewed := m.renewed || (budget && m.overran) }))) s

def execBz (e : Fin 4) (a : Fin 32) (t : BitVec 13) (s : State) : Result :=
  runInstr e { op := 0x86, a := a, t := t } (fun s => if s.emb[e].reg a = 0 then .jump t s else .done s) s

def execBnz (e : Fin 4) (a : Fin 32) (t : BitVec 13) (s : State) : Result :=
  runInstr e { op := 0x87, a := a, t := t } (fun s => if s.emb[e].reg a ≠ 0 then .jump t s else .done s) s

def execDbnz (e : Fin 4) (a : Fin 32) (t : BitVec 13) (s : State) : Result :=
  runInstr e { op := 0x88, a := a, t := t } (fun s =>
    let v := s.emb[e].reg a - 1
    let s := s.modE e (Ember.setReg a v)
    if v ≠ 0 then .jump t s else .done s) s

end Sys2Proof.Machine
end

