-- ==== Sys2Proof/Machine/EmberMem.lean ====
section
/-! DEFINITION. Loads, stores and FENCE (Table 09-7, R313, R314), TIME and WHO (R315). -/

namespace Sys2Proof.Machine

/-- Where an Ember's access goes (Table 17-1). -/
inductive Region where
  | spad | cs | window | nowhere
deriving DecidableEq, Repr

def regionOf (a : Nat) : Region :=
  if a < spmTop then .spad
  else if 0x10000000 ≤ a ∧ a < 0x10040000 then .cs
  else if inWindows a then .window
  else .nowhere

/-- The destination registers take a loaded value: a pair for a doubleword, sign-extended where asked. -/
def loadInto (d : Fin 32) (size : Fin 4) (signed : Bool) (v : Nat) (m : Ember) : Ember :=
  match size.val with
  | 0 => m.setReg d (if signed then (BitVec.ofNat 8 v).signExtend 32 else BitVec.ofNat 32 v)
  | 1 => m.setReg d (if signed then (BitVec.ofNat 16 v).signExtend 32 else BitVec.ofNat 32 v)
  | 2 => m.setReg d (BitVec.ofNat 32 v)
  | _ => m.setPair d (BitVec.ofNat 64 v)

/-- An access to a register window that R8 does not perform: BUS_ERR, and no exception. -/
def busErr (e : Fin 4) (a : Word) (access : BitVec 8) (s : State) : State :=
  emberFault e kBUS_ERR 0x00 0 a access s

/-- What the Ember's own buffer says of `n` bytes at scratchpad address `a`, places compared as the windows fold them (R276,
R358): the newest overlapping store covers them all, some overlap only in part, or none overlaps. -/
def State.forwarded (e : Fin 4) (a n : Nat) (s : State) : Option (Option Nat) :=
  let p := s.fold a
  let meets (x : StoreEntry) : Bool :=
    !x.toWindow && decide (s.fold x.addr.toNat < p + n ∧ p < s.fold x.addr.toNat + x.size)
  match (s.emb[e].sbuf.filter meets).getLast? with
  | none => none
  | some x =>
    let q := s.fold x.addr.toNat
    if q ≤ p ∧ p + n ≤ q + x.size then some (some (x.data.toNat / 256 ^ (p - q) % 256 ^ n)) else some none

/-- A load of bytes that no buffered store holds: once the bank grants it; one from a bank that is not On is ACCESS. -/
def loadBank (e : Fin 4) (d : Fin 32) (size : Fin 4) (signed : Bool) (a : Word) (others : BitVec 9) (s : State) : IRes :=
  let b := bankOf (s.fold a.toNat)
  if !s.bankOn b then .exc (.access true) a s
  else match s.grant b e 1 others with
    | (false, s) => .wait a false s
    | (true, s) =>
      let (_, v, s) := s.spmRead e a.toNat (2 ^ size.val)
      .done (s.modE e (loadInto d size signed v))

/-- A scratchpad load: forwarded, or read once the stores to its bank that overlap it in part have drained. -/
def loadSpad (e : Fin 4) (d : Fin 32) (size : Fin 4) (signed : Bool) (a : Word) (others : BitVec 9) (s : State) : IRes :=
  match s.forwarded e a.toNat (2 ^ size.val) with
  | some (some v) => .done (s.modE e (loadInto d size signed v))
  | some none => loadBank e d size signed a others (drainMany e (fun t => s.targetOf t == bankOf (s.fold a.toNat)) 8 s)
  | none => loadBank e d size signed a others s

/-- Column `k` of word `i` of page `p` is loaded; a parity error in the active page is scrubbed first (R286). -/
def loadColumn (e : Fin 4) (d : Fin 32) (a : Word) (p i k : Nat) (s : State) : IRes :=
  let (ok, s) := if p = s.get F.HRT_SWAP_ACTIVE_PAGE then s.csCheck p i else (true, s)
  if !ok then .wait a false (noteBadWord i s)
  else
    let w := s.csWord p i
    .done (s.modE e (Ember.setReg d (if k < 3 then w.extractLsb' (32 * k) 32 else 0)))

/-- A control-store load (R283). -/
def loadCs (e : Fin 4) (d : Fin 32) (a : Word) (s : State) : IRes :=
  let off := a.toNat - 0x10000000
  loadColumn e d a (off / 0x20000) (off % 0x20000 / 16) (off % 16 / 4) s

/-- A register-window load: after the buffered register-window stores (R276), read as its block says. -/
def loadWindow (e : Fin 4) (d : Fin 32) (a : Word) (s : State) : IRes :=
  let (v, s) := regRead e a.toNat (drainWindow e s)
  .done (s.modE e (Ember.setReg d v))

/-- The check of R313 that a load or store of size S at `addr` fails first. -/
def accessFault (load : Bool) (size : Fin 4) (addr : Word) : Option Exc :=
  let aligned (n : Nat) : Option Exc := if addr.toNat % n ≠ 0 then some .align else none
  match regionOf addr.toNat with
  | .nowhere => some (.access false)
  | .cs => if !load || size.val != 2 then some (.access false) else aligned 4
  | .window => none
  | .spad => aligned (2 ^ size.val)

/-- A word access at a multiple of 4, the only one a register window performs (R8). -/
def windowAccess (size : Fin 4) (addr : Word) : Bool := size.val == 2 && decide (addr.toNat % 4 = 0)

/-- LD (R313). `size` is S, `signed` is FN[0]; `others` are the masters that request the bank in this cycle. -/
def execLd (e : Fin 4) (d a : Fin 32) (imm : Word) (size : Fin 4) (signed : Bool) (others : BitVec 9)
    (s : State) : Result :=
  runInstr e { op := 0x60, d := d, a := a, sz := size, imm := imm, fn := signed.toNat } (fun s =>
    legal e ((!signed || decide (size.val ≤ 1)) && (size.val != 3 || evenReg d)) s
      (let addr := s.emb[e].reg a + imm
       match accessFault true size addr with
       | some c => .exc c addr s
       | none => match regionOf addr.toNat with
         | .spad => loadSpad e d size signed addr others s
         | .cs => loadCs e d addr s
         | _ => if windowAccess size addr then loadWindow e d addr s
           else .done ((busErr e addr 0 s).modE e (loadInto d size false 0)))) s

/-- A store enters the buffer; a full one drains its oldest entry first (Table 08-1), and from PWRFAIL on
every store is written through (Table 02-4). -/
def enterStore (e : Fin 4) (t : StoreEntry) (s : State) : State :=
  let s := if s.emb[e].sbuf.length < 8 then s else drainFirst e (fun _ => true) s
  let s := s.modE e fun m => { m with sbuf := m.sbuf ++ [t] }
  if s.node.pwr = .none then s else drainAll e s

/-- ST (R313). -/
def execSt (e : Fin 4) (a b : Fin 32) (imm : Word) (size : Fin 4) (s : State) : Result :=
  runInstr e { op := 0x61, a := a, b := b, sz := size, imm := imm } (fun s =>
    legal e (size.val != 3 || evenReg b) s
      (let m := s.emb[e]
       let addr := m.reg a + imm
       let data : BitVec 64 := if size.val = 3 then m.pair b else (m.reg b).zeroExtend 64
       match accessFault false size addr with
       | some c => .exc c addr s
       | none =>
         if regionOf addr.toNat = .window ∧ !windowAccess size addr then .done (busErr e addr 1 s)
         else .done (enterStore e ⟨addr, 2 ^ size.val, data⟩ s))) s

/-- FENCE (R314): waits until the Ember's buffer is empty. -/
def execFence (e : Fin 4) (s : State) : Result :=
  runInstr e { op := 0x62 } (fun s => .done (drainAll e s)) s

/-- TIME (R315): the system time of its cycle into a pair; no latch is touched. -/
def execTime (e : Fin 4) (d : Fin 32) (s : State) : Result :=
  runInstr e { op := 0x68, d := d } (fun s => legal e (evenReg d) s (doneWith e (Ember.setPair d s.now) s)) s

/-- WHO (R315). -/
def execWho (e : Fin 4) (d : Fin 32) (s : State) : Result :=
  runInstr e { op := 0x69, d := d } (fun s =>
    let m := s.emb[e]
    let v := e.val + 2 ^ 8 * m.slot.val + 2 ^ 16 * m.frames.length + 2 ^ 20 * m.inTask.toNat +
      2 ^ 21 * m.excActive.toNat + 2 ^ 24 * s.get F.HRT_SWAP_ACTIVE_PAGE
    doneWith e (Ember.setReg d (BitVec.ofNat 32 v)) s) s

/-! ## EXCEPTION (R279–R281) -/

/-- The data address of the load or store word `w`. -/
def State.dataAddr (e : Fin 4) (w : BitVec 96) (s : State) : Word :=
  s.emb[e].reg (Fin.ofNat 32 (mfield w 75 5)) + w.extractLsb' 32 32

/-- The cause that the word at Ember `e`'s pc has in the Ember's present state, if any, and its EADDR (Table 08-3): what its own
instruction would find. -/
def State.wordCause (e : Fin 4) (s : State) : Option (Exc × Word) :=
  let m := s.emb[e]
  let w := s.csWord (s.get F.HRT_SWAP_ACTIVE_PAGE) m.pc.toNat
  let op := mfield w 85 8
  let permitted := (op != 0x7E || m.frames.isEmpty) && (op != 0x84 || !m.frames.isEmpty) && (op != 0x85 || m.excActive)
  let a := s.dataAddr e w
  let size : Fin 4 := Fin.ofNat 4 (mfield w 64 2)
  let p := s.fold a.toNat
  if !microLegal w || !permitted then some (.illegal, s.wordAddr m.pc)
  else if op = 0x60 ∨ op = 0x61 then
    match accessFault (op == 0x60) size a with
    | some c => some (c, a)
    | none =>
      if op = 0x60 ∧ regionOf a.toNat = .spad ∧ (s.forwarded e a.toNat (2 ^ size.val)).isNone ∧ !s.bankOn (bankOf p) then
        some (.access true, a)
      else none
  else if op = 0x81 ∧ m.flags.holds (Fin.ofNat 16 (mfield w 66 4)) ∧ 8 ≤ m.rstack.length then some (.stack, 0)
  else if op = 0x83 ∧ m.rstack = [] then some (.stack, 0)
  else none

/-- EXCEPTION (R281): Ember `e` enters cause `c` of address `addr` where its conditions hold: STORE and BUDGET at a boundary, WATCHDOG in a stall
of 2^20 cycles, every other cause by the sound word at its pc. -/
def execException (e : Fin 4) (c : Exc) (addr : Word) (s : State) : Result :=
  actWhen (s.inK8 && s.emb[e].busy) (fun s =>
    let m := s.emb[e]
    match c with
    | .store => if m.storeFault = some addr then boundary e s else s
    | .budget => if m.storeFault.isNone ∧ addr = 0 then boundary e s else s
    | .watchdog => match m.stall with
      | some x => if x.cycles < 2 ^ 20 ∨ x.addr ≠ addr then s else enterException e .watchdog m.pc addr s
      | none => s
    | _ =>
      if m.stall.isSome || m.scrubWait || m.waiting.isSome ||
          !parityOk (s.csWord (s.get F.HRT_SWAP_ACTIVE_PAGE) m.pc.toNat) then s
      else match s.wordCause e with
        | some (c', a) => if c' = c ∧ a = addr then enterException e c m.pc addr s else s
        | none => s) s

end Sys2Proof.Machine
end

