-- ==== Sys2Proof/Machine/EmberShift.lean ====
section
/-! DEFINITION. Shifts and bit fields (Table 09-4), multiply, divide step and CORDIC (Tables 09-5, 09-6). -/

namespace Sys2Proof.Machine

def execLsl (e : Fin 4) (d a b : Fin 32) (s : State) : Result := aluInstr e 0x20 aluLsl d a b s

def execLsli (e : Fin 4) (d a k : Fin 32) (s : State) : Result :=
  aluImm e 0x40 aluLsl d a (BitVec.ofNat 32 k.val) s

def execLsr (e : Fin 4) (d a b : Fin 32) (s : State) : Result := aluInstr e 0x21 aluLsr d a b s

def execLsri (e : Fin 4) (d a k : Fin 32) (s : State) : Result :=
  aluImm e 0x41 aluLsr d a (BitVec.ofNat 32 k.val) s

def execAsr (e : Fin 4) (d a b : Fin 32) (s : State) : Result := aluInstr e 0x22 aluAsr d a b s

def execAsri (e : Fin 4) (d a k : Fin 32) (s : State) : Result :=
  aluImm e 0x42 aluAsr d a (BitVec.ofNat 32 k.val) s

def execRor (e : Fin 4) (d a b : Fin 32) (s : State) : Result := aluInstr e 0x23 aluRor d a b s

def execRori (e : Fin 4) (d a k : Fin 32) (s : State) : Result :=
  aluImm e 0x43 aluRor d a (BitVec.ofNat 32 k.val) s

/-- BFX: pos + len must not exceed 32; `len1` is len − 1. -/
def execBfx (e : Fin 4) (d a pos len1 : Fin 32) (s : State) : Result :=
  runInstr e (.immed 0x24 d a (BitVec.ofNat 32 (pos.val + 256 * len1.val))) (fun s => legal e (decide (pos.val + len1.val + 1 ≤ 32)) s
    (doneWith e (fun m =>
      let r := bitExtract (m.reg a) pos (len1.val + 1)
      { m.setReg d r with flags := m.flags.zn r }) s)) s

/-- BFI: reads wd as a source as well. -/
def execBfi (e : Fin 4) (d a pos len1 : Fin 32) (s : State) : Result :=
  runInstr e (.immed 0x25 d a (BitVec.ofNat 32 (pos.val + 256 * len1.val))) (fun s => legal e (decide (pos.val + len1.val + 1 ≤ 32)) s
    (doneWith e (fun m =>
      let r := bitInsert (m.reg d) (m.reg a) pos (len1.val + 1)
      { m.setReg d r with flags := m.flags.zn r }) s)) s

def execClz (e : Fin 4) (d a : Fin 32) (s : State) : Result :=
  runInstr e (.regs 0x26 d a 0) (doneWith e fun m =>
    let r := clz (m.reg a)
    { m.setReg d (BitVec.ofNat 32 r) with flags := m.flags.setZ (r == 0) }) s

def execPopc (e : Fin 4) (d a : Fin 32) (s : State) : Result :=
  runInstr e (.regs 0x27 d a 0) (doneWith e fun m =>
    let r := popCount (m.reg a)
    { m.setReg d (BitVec.ofNat 32 r) with flags := m.flags.setZ (r == 0) }) s

def execMul (e : Fin 4) (d a b : Fin 32) (s : State) : Result := aluInstr e 0x50 aluMul d a b s

/-- A 64-bit product into the pair wd+1, wd; D even. -/
def wideMul (e : Fin 4) (op : Nat) (prod : Word → Word → BitVec 64) (d a b : Fin 32) (s : State) : Result :=
  runInstr e (.regs op d a b) (fun s => legal e (evenReg d) s
    (doneWith e (fun m =>
      let r := prod (m.reg a) (m.reg b)
      { m.setPair d r with flags := m.flags.zn64 r }) s)) s

def execMulu (e : Fin 4) (d a b : Fin 32) (s : State) : Result :=
  wideMul e 0x51 (fun x y => BitVec.ofNat 64 (x.toNat * y.toNat)) d a b s

def execMuls (e : Fin 4) (d a b : Fin 32) (s : State) : Result :=
  wideMul e 0x52 (fun x y => BitVec.ofInt 64 (x.toInt * y.toInt)) d a b s

/-- DSTEP (R311): D even, n from 1 to 32. -/
def execDstep (e : Fin 4) (d a : Fin 32) (n : Fin 64) (s : State) : Result :=
  runInstr e { op := 0x54, d := d, a := a, n := n } (fun s => legal e (evenReg d && decide (1 ≤ n.val ∧ n.val ≤ 32)) s
    (doneWith e (fun m =>
      let y := (m.reg a).toNat
      let (r, q, c) := dsteps y n ((m.reg d).toNat, (m.reg (next d)).toNat, m.flags.c)
      { (m.setReg d (BitVec.ofNat 32 r)).setReg (next d) (BitVec.ofNat 32 q) with
        flags := { m.flags with c := c, v := y == 0 } }) s)) s

/-- SINCOS (R312): V is cleared. -/
def execSincos (e : Fin 4) (d a : Fin 32) (s : State) : Result :=
  runInstr e { op := 0x58, d := d, a := a, fn := 0 } (fun s => legal e (evenReg d) s
    (doneWith e (fun m =>
      let (c, sn) := cordicSincos (m.reg a)
      { (m.setReg d c).setReg (next d) sn with flags := { m.flags with v := false } }) s)) s

/-- ATAN2 (R312): V when the magnitude saturates, and for (0, 0). -/
def execAtan2 (e : Fin 4) (d a b : Fin 32) (s : State) : Result :=
  runInstr e { op := 0x58, d := d, a := a, b := b, fn := 1 } (fun s => legal e (evenReg d) s
    (doneWith e (fun m =>
      let (ang, mag, v) := cordicAtan2 (m.reg a) (m.reg b)
      { (m.setReg d ang).setReg (next d) mag with flags := { m.flags with v := v } }) s)) s

def execSqrt (e : Fin 4) (d a : Fin 32) (s : State) : Result :=
  runInstr e { op := 0x58, d := d, a := a, fn := 2 } (doneWith e fun m =>
    { m.setReg d (cordicSqrt (m.reg a)) with flags := { m.flags with v := false } }) s

end Sys2Proof.Machine
end

