-- ==== Sys2Proof/Machine/GeyserMove.lean ====
section
/-! DEFINITION. Geyser moving elements (R366, R367, R370–R373) and the commands of its channels. -/

namespace Sys2Proof.Machine

/-- How a move ended. -/
inductive Moved where
  | ok (s : State)
  /-- it waits: for its credit, its bank, or a register that holds the write (R370, R371) -/
  | held (s : State)
  | error (addr : Nat) (write : Bool) (s : State)

/-- How a read ended. -/
inductive Got where
  | value (v : Nat) (s : State)
  | held (s : State)
  | error (s : State)

def State.modG (g : Fin 8) (f : GChan → GChan) (s : State) : State := s.setG g (f s.gsr[g])

/-- The bank of scratchpad address `a` grants Geyser an access of `cyc` cycles; at one that is not On there is nothing to
wait for (R354–R356, R360). -/
def geyserGranted (a cyc : Nat) (s : State) : Bool × State :=
  let b := bankOf (s.fold a)
  if s.bankOn b then s.grant b 4 cyc (s.requests b) else (true, s)

/-- Channel `g` reads `n` bytes at `a`; the access costs its cycle whatever is found (R371). -/
def gRead (g : Fin 8) (a n : Nat) (s : State) : Got :=
  if a < spmTop then
    match geyserGranted a 1 s with
    | (false, s) => .held s
    | (true, s) => match s.spmRead 4 a n with
      | (.ok, v, s) => .value v (geyserCharge g 1 s)
      | (.uncorr, _, s) => .error (geyserCharge g 1 s)
      | (.off, _, s) => .error s
  else
    let (v, s) := regRead 4 a s
    .value v.toNat (geyserCharge g 1 s)

/-- A write of the register at `a` waits: PG.PLANES of a group whose FIFO has no room (R236). -/
def State.writeWaits (a : Nat) (s : State) : Bool :=
  (List.range 3).any fun g => a == 0x40024028 + 0x20 * g && s.planesWait g

/-- Channel `g` writes `n` bytes at `a`: fewer than eight in scratchpad are a read-modify-write of two cycles. -/
def gWrite (g : Fin 8) (a n v : Nat) (s : State) : Moved :=
  if a < spmTop then
    let cyc := if n = 8 then 1 else 2
    match geyserGranted a cyc s with
    | (false, s) => .held s
    | (true, s) => match s.spmWrite 4 a n v with
      | (.ok, s) => .ok (geyserCharge g cyc s)
      | (.uncorr, s) => .error a true (geyserCharge g cyc s)
      | (.off, s) => .error a true s
  else if s.writeWaits a then .held s
  else .ok (regWrite 4 a (BitVec.ofNat 32 v) (geyserCharge g 1 s))

/-- Read the next `k` inputs of the block at channel `g`'s position. -/
def readElems (g : Fin 8) (d : Desc) : Nat → State → Moved
  | 0, s => .ok s
  | k + 1, s =>
    let a := (d.srcOf (s.gsr[g].pos + s.gsr[g].ins.length)).toNat
    match gRead g a d.esize s with
    | .value v s => readElems g d k (s.modG g fun c => { c with ins := c.ins ++ [v] })
    | .held s => .held s
    | .error s => .error a false s

/-- Write up to `k` of the outputs that channel `g`'s block still has to write. -/
def writeElems (g : Fin 8) (d : Desc) : Nat → State → Moved
  | 0, s => .ok s
  | k + 1, s => match s.gsr[g].outs with
    | [] => .ok s
    | v :: vs => match gWrite g (d.dstOf (s.gsr[g].pos + (d.block - (v :: vs).length))).toNat d.esize v s with
      | .ok s => writeElems g d k (s.modG g fun c => { c with outs := vs })
      | r => r

/-- What a block's inputs are written as (R367). -/
def Desc.outputs (d : Desc) (xs : List Nat) : List Nat :=
  if d.block = 1 then xs else (List.range d.block).map (transposeOut xs)

/-- The inputs of channel `g`'s block are read, and its outputs stand ready; one part written goes on with what is left. -/
def readBlock (g : Fin 8) (d : Desc) (s : State) : Moved :=
  if s.gsr[g].outs = [] then
    match readElems g d (d.block - s.gsr[g].ins.length) s with
    | .ok s => .ok (s.modG g fun c => { c with ins := [], outs := d.outputs c.ins })
    | r => r
  else .ok s

/-- Move the element, or block, at channel `g`'s position: every input is read once and every output written once. -/
def moveBlock (g : Fin 8) (d : Desc) (s : State) : Moved :=
  match readBlock g d s with
  | .ok s => match writeElems g d d.block s with
    | .ok s => .ok (s.modG g fun c => { c with pos := c.pos + d.block })
    | r => r
  | r => r

/-- The limiter lets channel `g` move: RATE is not 0, and one below 256 finds a credit of one cycle (R371). -/
def State.gCredit (g : Fin 8) (s : State) : Bool :=
  s.bit (F.GSR_RATE_RATE g) && (decide (256 ≤ s.get (F.GSR_RATE_RATE g)) || decide (256 ≤ s.gsr[g].credit))

/-- Move up to `k` blocks of channel `g`. -/
def moveBlocks (g : Fin 8) : Nat → State → Moved
  | 0, s => .ok s
  | k + 1, s => match s.gsr[g].desc with
    | none => .ok s
    | some d =>
      if s.gsr[g].st ≠ .running ∨ d.count ≤ s.gsr[g].pos then .ok s
      else if !s.gCredit g then .held s
      else match moveBlock g d s with
        | .ok s => moveBlocks g k s
        | r => r

/-- What a move leaves: a bus error stops every running channel (R372). -/
def Moved.state (g : Fin 8) : Moved → State
  | .ok s => s
  | .held s => s
  | .error a w s => geyserBusStop a w g s

/-- The descriptor of channel `g` is complete: DONE or END, and the chain (R370). -/
def geyserFinish (g : Fin 8) (d : Desc) (s : State) : State :=
  let s := s.wrap (F.GSR_STATUS_DESCS g) 1
  let s := s.when d.irqDone (State.gEvent g (F.GSR_EVENT_DONE g) 0)
  if d.chain then (geyserCheck g d.next 0 [] false (s.setG g { s.gsr[g] with st := .idle })).2
  else (s.setG g { s.gsr[g] with st := .idle, desc := none, pos := 0 }).gEvent g (F.GSR_EVENT_END g) 1

/-- Channel `g` may move: it runs and its rate is not 0 (R371). -/
def State.gMoves (g : Fin 8) (s : State) : Bool := s.live && s.gsr[g].st == .running && s.bit (F.GSR_RATE_RATE g)

/-- Move `k` blocks, then finish the descriptor if its last write has been performed. -/
def moveThenFinish (g : Fin 8) (k : Nat) (s : State) : State :=
  let s := (moveBlocks g k s).state g
  match s.gsr[g].desc with
  | none => s
  | some d => if s.gsr[g].st = .running ∧ d.count ≤ s.gsr[g].pos then geyserFinish g d s else s

/-- GEYSER_GO (R368): a write of GSR.CTL.GO. -/
def execGeyserGo (g : Fin 8) (s : State) : Result :=
  actWhen s.live (writeGsrCtl g ((F.GSR_CTL_GO g).into 1 0)) s

/-- RESUME (R373). -/
def execResume (g : Fin 8) (s : State) : Result := actWhen s.live (geyserResume g) s

/-- ABORT (R376): `moved` more blocks are written before the next element boundary; a chain whose last
write is performed completes. -/
def execAbort (g : Fin 8) (moved : Nat) (s : State) : Result :=
  actWhen s.live (fun s => geyserStop g .aborted (if s.gMoves g then moveThenFinish g moved s else s)) s

/-- DESCRIPTOR_COMPLETE (R370): the elements not yet written are moved, and the descriptor is complete
unless the limiter, a bank or a register holds it, or an access fails. -/
def execDescriptorComplete (g : Fin 8) (s : State) : Result :=
  actWhen (s.gMoves g) (fun s =>
    moveThenFinish g (((s.gsr[g].desc).map Desc.count).getD 0) s) s

/-- BUS_STOP (R372): each running channel writes the blocks `moved` gives it, then channel `g`'s next access
fails; where that access would not fail, nothing stops. -/
def execBusStop (g : Fin 8) (moved : List Nat) (s : State) : Result :=
  if moved.length ≠ 8 then .refused (.illFormed "BUS_STOP")
  else actWhen (s.gMoves g) (fun s =>
    let s := s.each (List.finRange 8) fun c s => s.when (s.gMoves c) fun s => (moveBlocks c (moved.getD c 0) s).state c
    if s.gMoves g then (moveBlocks g 1 s).state g else s) s

end Sys2Proof.Machine
end

