-- ==== Sys2Proof/Machine/Reset.lean ====
section
/-! DEFINITION. The reset kinds other than warm restart (03.1): what begins them, what each keeps (Table 03-1); plug hold and
the plug's contacts (01.10). -/

namespace Sys2Proof.Machine

/-- Fields of the TAP, the pins and the supervisor that no reset of the node touches. -/
def keptNode (was now : Node) : Node :=
  { now with resetLow := was.resetLow, holdLow := was.holdLow, plugPresent := was.plugPresent, frzLow := was.frzLow,
             v24 := was.v24, hot := was.hot, pvdd := !was.holdLow, tapIr := was.tapIr, tapOut := was.tapOut, boundary := was.boundary,
             preload := was.preload, sinterSeg := was.sinterSeg, sinterWord := was.sinterWord,
             sinterData := was.sinterData, memacc := was.memacc }

/-- Registers and collector state a Caldera exit keeps: FLT.CFG, FLT.STICKY and the first-error capture (R487, 15.11). -/
def keepFirst (s r : State) : State :=
  let r := (r.putReg 0x400D0004 (s.reg 0x400D0004)).putReg 0x400D000C (s.reg 0x400D000C)
  let r := (r.put F.FLT_STATUS_FIRST_VALID (s.get F.FLT_STATUS_FIRST_VALID)).put F.FLT_STATUS_FIRST_RETAINED 1
  { r with col := { r.col with first := s.col.first } }

/-- The node after a reset of kind power-on, RESET_N or Caldera exit, at the start of K0 (Table 03-1): everything as at reset
but the RTC, the plug, the MFE, the memories' contents until K2 and K5, the W registers but for power-on, and the supplies. -/
def coldReset (kind : ResetKind) (s : State) : State :=
  let n := { keptNode s.node Node.reset with
               kind := kind, k0At := s.cycles, k0Lead := if kind = .powerOn then msCycles 100 else 0, phaseAt := s.cycles }
  let t := { TimeUnit.reset with rtc := s.tim.rtc, rtcLost := s.tim.rtcLost }
  let m : Scratchpad := { Scratchpad.reset with mem := s.spm.mem, ecc := s.spm.ecc }
  let emb := if kind = .powerOn then State.reset.emb else s.emb.map fun (e : Ember) => { Ember.reset with w := e.w }
  let r : State :=
    { State.reset with now := s.now, cycles := s.cycles, free := s.free, pending := s.pending, mfe := s.mfe, spm := m, emb := emb,
                       plug := { s.plug with xfer := none }, hrt := { Hearth.reset with cs := s.hrt.cs }, tim := t, node := n,
                       sup := { s.sup with inserted := false } }
  let supply := s.reg 0x400C0004 &&& ~~~ (F.BAR_SUPPLY_PWRFAIL.mask)
  let r := r.putReg 0x400C0004 supply
  if kind = .calderaExit then keepFirst s r else r

/-- K0 begins, or plug hold where PLUG_HOLD_N is low (R59). -/
def beginK0 (s : State) : State := if s.node.holdLow then s.modNode fun x => { x with phase := .hold, pvdd := false } else s

/-! ## Power-on, RESET_N, Caldera exit (R101, R102) -/

/-- POWER_ON (R101): VBULK [10 mV] at or above 16.5 V for 100 ms, after having been `low`, below 9.0 V, or after a completed
PWRFAIL sequence. `off` units have passed on the RTC without power; the pins are as they stand now. With RESET_N and
PLUG_HOLD_N both low the node is held in reset first, and plug hold begins when RESET_N returns (DESIGN CHOICE, log
entry 113: R31 and R59 do not say which governs). -/
def execPowerOn (low : Bool) (vbulk : BitVec 16) (vaux conv : Bool) (off : BitVec 64) (resetLow holdLow : Bool) (s : State) :
    Result :=
  let ended := s.node.pwr == .complete || (low && (s.node.heldInReset || s.node.phase == .hold))
  actWhen (decide (1650 ≤ vbulk.toNat) && ended) (fun s =>
    let s := (s.modT fun t => { t with rtc := t.rtc + off }).modNode fun x =>
      { x with resetLow := resetLow, holdLow := holdLow }
    let s := coldReset .powerOn s
    let s := ((s.put F.BAR_SUPPLY_VBULK vbulk.toNat).putBit F.BAR_SUPPLY_VAUX_OK vaux).putBit F.BAR_SUPPLY_CONV_OK conv
    let s := s.modNode fun x => { x with heldInReset := resetLow }
    if resetLow then s else beginK0 s) s

/-- What the node still does before a RESET_N or Caldera-exit reset takes effect: work stops, and Peat completes its
records (R102). -/
def beforeReset (s : State) : State :=
  if s.plugKnown ∧ s.node.plugPresent then (completeRecords (stopOriginating (abortTransfer s))).2 else s

/-- The reset, held until RESET_N returns high (R31). -/
def holdInReset (kind : ResetKind) (s : State) : State :=
  (coldReset kind s).modNode fun x => { x with heldInReset := true, resetLow := true }

/-- A qualified RESET_N is acted on: not during a PWRFAIL sequence (R75), in plug hold (R58) or within one low period. -/
def State.resetTaken (s : State) : Bool :=
  !s.node.heldInReset && !s.node.resetLow && !s.node.holdLow && s.node.pwr == .none && s.node.phase != .hold

/-- RESET_N (R102): qualified outside Caldera and plug hold. A frozen node's clocks are restarted first (R510). -/
def execResetN (s : State) : Result :=
  actWhen (s.resetTaken && s.node.phase != .caldera) (fun s => holdInReset .resetN (beforeReset s)) s

/-- CALDERA_EXIT (R101): RESET_N qualified in Caldera takes effect once the steps of Table 15-6 are complete (R503). -/
def execCalderaExit (s : State) : Result :=
  actWhen (s.resetTaken && s.node.phase == .caldera) (fun s =>
    holdInReset .calderaExit (continueCaldera (s.modNode fun x => { x with freeze := .running }))) s

/-- RESET_N_RELEASE (R31): RESET_N high for 10 µs. The budgets count from here; KIN.TIME counts from the moment the reset
took effect, or from VBULK reaching 16.5 V (R131). -/
def execResetNRelease (s : State) : Result :=
  actWhen (s.node.heldInReset && s.node.resetLow && s.node.pwr == .none) (fun s =>
    beginK0 (s.modNode fun x => { x with heldInReset := false, resetLow := false, phaseAt := s.cycles })) s

/-! ## The plug's contacts (R54–R59) -/

/-- PLUG_INSERTED (R54): the plug has been present for 1 ms; `mem` is its content, `rdid` and `rdsr` what it answers. -/
def execPlugInserted (mem : List (Nat × Byte)) (rdid rdsr : Byte) (s : State) : Result :=
  actWhen (!s.node.plugPresent) (fun s =>
    let m := mem.foldl (fun t e => if e.1 < 0x100000 then tabSet 0 t e.1 e.2 else t) []
    ({ s with plug := { s.plug with mem := m, rdid := rdid, rdsr := rdsr } } : State).modNode fun x => { x with plugPresent := true }) s

/-- The record Peat was writing when the plug left is torn at some byte (01.10). -/
def tearRecord (s : State) : State :=
  match s.work.peat with
  | [] => s
  | j :: _ =>
    let ((a, bs), s) := jobBytes j s
    let (v, s) := s.draw
    (writePlug a (bs.take (v.toNat % (bs.length + 1))) s).modWork fun w => { w with peat := [], peatWait := [] }

/-- The plug has gone after K3: every access stops, and the fault is FATAL (R55). -/
def plugLost (s : State) : State :=
  (tearRecord (abortTransfer s)).raise { src := 0x14, kind := kPROTOCOL, cls := fatal, reason := 0x01 }

/-- PLUG_REMOVED (R55): the plug has been absent for 10 µs. A frozen node finds it gone when its clocks start. -/
def execPlugRemoved (s : State) : Result :=
  actWhen s.node.plugPresent (fun s =>
    (s.when (s.clocked && !s.node.holdLow && s.plugKnown) plugLost).modNode fun x => { x with plugPresent := false }) s

/-- Plug hold's own steps (R57): a running node drains as for PWRFAIL, the outputs go to Caldera's states, the bypass closes,
the Embers halt, PVDD goes off. -/
def enterHold (s : State) : State :=
  let was := s.node.phase
  let running := was == .k8
  let s := if running then drainNode (setLeaving s) else if s.plugKnown && s.plugReachable then beforeReset s else s
  let s := if running && s.plugReachable then shutdownRecord 0x02 s.node.pwrAt s.node.pwrRecords s else s
  let on := s.node.lvOn && (match was with
    | .k6 | .k7 | .k8 | .caldera => true
    | _ => false)
  let s := if was = .caldera then s else setLeaving (stopHeartbeat (sendFailnow s))
  let s := geyserHalt (endDrain (haltEmbers s))
  let s : State := { s with hrt := { s.hrt with timersStopped := true } }
  s.modNode fun x => { x with phase := .hold, lvOn := on, pvdd := false }

/-- PLUG_HOLD (R36, R57): PLUG_HOLD_N low for 10 µs, in whatever phase. PVDD goes off and the contacts high-impedance in every
case; in a PWRFAIL sequence the shutdown record goes first, and in reset or while frozen the hold itself follows once the
reset is over or the clocks start (log entry 88). -/
def execPlugHold (s : State) : Result :=
  .next (let s := s.modNode fun x => { x with holdLow := true }
    let s := if s.clocked && s.node.phase != .hold then
        (if s.node.pwr = .none then enterHold s else if s.node.pwr = .running then pwrRecord s else s)
      else s
    s.modNode fun x => { x with pvdd := false })

/-- PLUG_HOLD_RELEASE (R58): PLUG_HOLD_N high, and PVDD on again. `patch` is what a programmer has written into the plug while
the contacts were high-impedance. A frozen node starts up when its clocks start. -/
def execPlugHoldRelease (patch : List (Nat × Byte)) (s : State) : Result :=
  actWhen s.node.holdLow (fun s =>
    let held_ := s.node.phase == .hold || (s.node.phase == .caldera && s.node.calderaFrom == .hold)
    let s := if s.node.plugPresent then
        { s with plug := { s.plug with mem := patch.foldl (fun t e => if e.1 < 0x100000 then tabSet 0 t e.1 e.2 else t) s.plug.mem } }
      else s
    let s := s.modNode fun x => { x with holdLow := false, pvdd := x.phase != .hold }
    if held_ && s.clocked && s.node.pwr == .none then coldReset .resetN s else s) s

/-! ## What a freeze has held back (R510, Table 15-11) -/

/-- The clocks have started: Caldera goes on, and what the pins of the plug have said meanwhile is acted on (R55, R57, R58). -/
def afterFreeze (s : State) : State :=
  let s := continueCaldera s
  if s.node.holdLow then (if s.node.phase = .hold then s else enterHold s)
  else if s.node.phase = .hold then coldReset .resetN s
  else if !s.node.plugPresent && s.plugKnown then plugLost s
  else s

/-- The clocks start, and the node does what it could not do while frozen. -/
def resumeNode (reason : BitVec 8) (kind : BitVec 5) (s : State) : State := afterFreeze (startClocks reason kind s)

/-- PWRFAIL (R71, R73): VBULK [10 mV] below 15.0 V. It resumes a frozen node at once (R510), and in plug hold the node
stays in hold (R75). -/
def execPwrfail (vbulk : BitVec 16) (s : State) : Result :=
  actWhen (s.node.pwr == .none && !s.node.heldInReset && decide (vbulk.toNat < 1500)) (fun s =>
    pwrfail vbulk (if s.node.freeze = .frozen then resumeNode 0x02 kPOWER s else s)) s

end Sys2Proof.Machine
end

