-- ==== Sys2Proof/Machine/Kindling.lean ====
section
/-! DEFINITION. Kindling K0 to K4 (03.3–03.6): straps and codes, the march, the identity, the image. -/

namespace Sys2Proof.Machine

/-! ## K0 (03.3) -/

/-- K0 ends: PVDD and VIO on, the clocks locked, system time loaded from the RTC, the bins begun (R197, 13.8). A freeze
request made at the reset takes effect (R504), unless a PWRFAIL sequence runs (R510). -/
def k0 (s : State) : State :=
  let s := rtcLoad (s.modNode fun x => { x with vio := true, pvdd := !x.holdLow })
  let s := endPhase F.KIN_TIME0_END_K0 .k1 (resetBins (s.utcCount s.tim.second) s)
  let s' := s.modNode fun x => { x with frzLow := false }
  if s.node.frzLow ∧ s.node.pwr = .none then stopClocks (!s.bit F.IDENT_STRAPS_FRZB) false s' else s'

/-- K0 (R104). -/
def execK0 (s : State) : Result := actWhen (s.kindles .k0) k0 s

/-! ## K1: straps and coding resistors (R41–R50) -/

/-- The first table row whose range holds the code. -/
def bandOf (rows : List (Nat × Nat)) (code : Nat) : Option Nat := rows.findIdx? fun r => decide (r.1 ≤ code ∧ code ≤ r.2)

/-- Accepted codes of CLASS and KEY_HI (Table 01-10). -/
def bands8 : List (Nat × Nat) :=
  [(304, 508), (715, 918), (1134, 1338), (1534, 1738), (1946, 2150), (2356, 2560), (2760, 2964), (3178, 3382)]

/-- Accepted codes of KEY_LO (Table 01-11). -/
def bands16 : List (Nat × Nat) :=
  [(167, 289), (391, 513), (622, 744), (852, 974), (1073, 1195), (1303, 1424), (1528, 1650), (1767, 1889), (1987, 2109),
   (2206, 2328), (2447, 2569), (2670, 2792), (2900, 3022), (3121, 3243), (3351, 3473), (3583, 3705)]

/-- The band of eight codes: all in one band's range (R47). -/
def setBand (rows : List (Nat × Nat)) (codes : List Nat) : Option Nat :=
  match codes.head?.bind (bandOf rows) with
  | none => none
  | some b => if codes.all fun c => bandOf rows c == some b then some b else none

/-- Jumper positions whose eight samples disagree, bit 0 = HALF. -/
def disagree (l : List Sample) : Nat :=
  (List.range 7).foldl (fun w i =>
    if l.all fun x => x.jumpers.getLsbD i == ((l.head?.map fun y => y.jumpers.getLsbD i).getD false) then w else w + 2 ^ i) 0

def codesOf (f : Sample → BitVec 12) (l : List Sample) : List Nat := l.map fun x => (f x).toNat

/-- A set is accepted when the jumpers agree and each resistor gives a band: CLASS, KEY_HI, KEY_LO. -/
def setBands (l : List Sample) : Option (Nat × Nat × Nat) :=
  match disagree l, setBand bands8 (codesOf Sample.cls l), setBand bands8 (codesOf Sample.keyHi l),
    setBand bands16 (codesOf Sample.keyLo l) with
  | 0, some c, some h, some k => some (c, h, k)
  | _, _, _, _ => none

/-- The sampled registers (Tables 01-13 to 01-15). -/
def takeSamples (last : Sample) (b : Nat × Nat × Nat) (s : State) : State :=
  let s := s.putReg 0x400F0004 (BitVec.ofNat 32 last.jumpers.toNat)
  let s := (((s.put F.IDENT_CODES_CLASS b.1).put F.IDENT_CODES_KEY_HI b.2.1).put F.IDENT_CODES_KEY_LO b.2.2).put
    F.IDENT_CODES_ADDRESS (b.2.1 * 16 + b.2.2)
  ((s.put F.IDENT_RAW_KEY_HI_CODE last.keyHi.toNat).put F.IDENT_RAW_KEY_LO_CODE last.keyLo.toNat).put
    F.IDENT_CLASS_RAW_CLASS_CODE last.cls.toNat

/-- The fourth set has failed: a FATAL fault for the straps and for each resistor at fault (R41, R48). -/
def samplesFailed (l : List Sample) (s : State) : State :=
  let bad := disagree l
  let s := if bad = 0 then s else kinFatal kPROTOCOL 0x01 (BitVec.ofNat 24 bad) s
  let one (rows : List (Nat × Nat)) (f : Sample → BitVec 12) (reason : BitVec 8) (s : State) : State :=
    let codes := codesOf f l
    if (setBand rows codes).isSome then s else kinFatal kPROTOCOL reason (BitVec.ofNat 24 (codes.getLast?.getD 0)) s
  one bands16 Sample.keyLo 0x04 (one bands8 Sample.keyHi 0x03 (one bands8 Sample.cls 0x02 s))

/-- K1's sets in turn: the first accepted, or the failure of the fourth. -/
def sampleSets (ok : State → State) : List (List Sample) → State → State
  | [], s => s
  | l :: rest, s =>
    match setBands l, l.getLast? with
    | some b, some last => ok (takeSamples last b s)
    | _, _ => if rest.isEmpty then samplesFailed l s else sampleSets ok rest s

/-- K1 (R106): the plug is present, and the four permitted sets give these samples. -/
def execK1 (sets : Vector (Vector Sample 8) 4) (s : State) : Result :=
  actWhen (s.kindles .k1 && s.node.plugPresent)
    (sampleSets (endPhase F.KIN_TIME0_END_K1 .k2) (sets.toList.map Vector.toList)) s

def plugAbsent (s : State) : State := kinFatal kPROTOCOL 0x05 0 s

/-- PLUG_ABSENT (R106): 100 ms of K1 without the plug. -/
def execPlugAbsent (s : State) : Result :=
  actWhen (s.kindles .k1 && !s.node.plugPresent && decide (s.node.phaseAt + msCycles 100 ≤ s.cycles)) plugAbsent s

/-! ## K2: the start-up march (R109, R110) -/

/-- Rows a bank has: 64 of 512 bytes, but 32 in the dual-port bank (11.1). -/
def rowsOf (b : Nat) : Nat := (bankHi b - bankLo b) / 0x200

/-- The rows found failing in bank `b`, once each. -/
def foundIn (b : Nat) (fails : List (Nat × Nat)) : List Nat :=
  ((fails.filter fun r => decide (r.1 = b ∧ r.2 < rowsOf b)).map Prod.snd).eraseDups

/-- K2 at a start-up: every bank marched, or filled with zero, which finds nothing. -/
def k2 (fails : List (Nat × Nat)) (s : State) : State :=
  let s := s.each (List.range 17) State.clearBank
  let found := if s.bit F.IDENT_STRAPS_MARCH then (List.range 17).flatMap fun b => (foundIn b fails).map fun r => (b, r) else []
  (s.put F.KIN_REPAIR_FOUND (min 0xFF found.length)).modNode fun x => { x with badRows := found }

/-- K2 (R109): `fails` are the rows that fail, as (bank, row). -/
def execK2 (fails : List (Nat × Nat)) (s : State) : Result :=
  actWhen (s.kindles .k2) (fun s => endPhase F.KIN_TIME1_END_K2 .k3 (k2 fails s)) s

/-- K2 at a warm restart: banks flagged RETAIN keep their content unless a row fails, the others are treated by the strap.
Every bank is On; a RETAIN bank that was Off loses its flag (R361). -/
def k2Warm (fails : List (Nat × Nat)) (s : State) : State :=
  let retain (b : Nat) (s : State) : Bool := (s.get F.SPM_RETAIN_RETAIN).testBit b
  let drop (b : Nat) (s : State) : State := s.put F.SPM_RETAIN_RETAIN (s.get F.SPM_RETAIN_RETAIN - 2 ^ b)
  let on (b : Nat) (s : State) : State :=
    let off := s.get (powerField b) == 2
    let s := (s.setOn b true).put (powerField b) 0
    if off && retain b s then drop b s else s
  let s := s.each (List.range 17) on
  let s : State := { s with spm := { s.spm with wake := Vector.replicate 17 none, marching := 0 } }
  let bank (b : Nat) (s : State) : State :=
    if retain b s then
      let rows := (foundIn b fails ++ (s.uncorrWords b).map fun w => (w - bankLo b) / 0x200).eraseDups
      if rows.isEmpty then s
      else (drop b (s.clearBank b)).modNode fun x => { x with badRows := x.badRows ++ rows.map fun r => (b, r) }
    else s.clearBank b
  let march := s.bit F.IDENT_STRAPS_MARCH
  let others := (List.range 17).flatMap fun b => if retain b s || !march then [] else foundIn b fails
  let s := (s.modNode fun x => { x with badRows := [] }).each (List.range 17) bank
  s.put F.KIN_REPAIR_FOUND (min 0xFF (others.length + s.node.badRows.length))

/-! ## K3: the identity (R111–R113, R138–R140) -/

def identBase (c : Bool) : Nat := if c then 0x1000 else 0

/-- The repair entries of an identity copy, two per bank. -/
def repairEntries (b : List Byte) (bank : Nat) : List Nat := [leAt b (0x40 + 4 * bank) 2, leAt b (0x42 + 4 * bank) 2]

/-- The verdict of R139: 0 is valid. -/
def identVerdict (b : List Byte) : Nat :=
  let rowsBad := (List.range 17).any fun k => match repairEntries b k with
    | [x, y] => (x != 0xFFFF && decide (rowsOf k ≤ x)) || (y != 0xFFFF && decide (rowsOf k ≤ y)) || (x == y && x != 0xFFFF)
    | _ => false
  if leAt b 0 4 ≠ 0x44495A44 then 1
  else if leAt b 4 2 ≠ 1 then 2
  else if crcLeOk 0xFFC b = false then 3
  else if 127 < leAt b 0xC 1 then 4
  else if rowsBad then 5
  else 0

/-- The copy in force and whether each copy is to be rewritten (Table 03-6); none where neither is valid. -/
def chooseIdent (a b : List Byte) : Option (Bool × Bool × Bool) :=
  let qa := leAt a 8 4
  let qb := leAt b 8 4
  match identVerdict a, identVerdict b with
  | 0, 0 =>
    if qa = qb then some (false, false, false) else if newer 32 qb qa then some (true, true, false) else some (false, false, true)
  | 0, _ => some (false, false, true)
  | _, 0 => some (true, true, false)
  | _, _ => none

/-- What the identity in force supplies (R113). -/
def takeIdent (b : List Byte) (s : State) : State :=
  let map := (List.range 17).flatMap fun k => ((repairEntries b k).filter fun r => r != 0xFFFF).map fun r => (k, r)
  s.modNode fun x => { x with ident :=
    { address := byteAt b 0xC, epoch := BitVec.ofNat 16 (leAt b 0xE 2), plugSerial := BitVec.ofNat 64 (leAt b 0x10 8),
      groups := BitVec.ofNat 64 (leAt b 0x18 8), sequence := BitVec.ofNat 32 (leAt b 8 4), repair := map } }

/-- Rows of bank `k` named by a list of (bank, row). -/
def rowsIn (k : Nat) (l : List (Nat × Nat)) : List Nat := (l.filter fun r => r.1 == k).map Prod.snd

/-- Spare rows put into use for bank `k`. -/
def putRepair (k : Nat) (rows : List Nat) (s : State) : State :=
  let s := (s.put (F.SPM_REPAIR_FIRST k) (rows.getD 0 0xFFFF)).put (F.SPM_REPAIR_SECOND k) (rows.getD 1 0xFFFF)
  if rows.isEmpty then s else s.setBitOf F.KIN_REPAIR_BANKS k

/-- R112 bank by bank from the map `map` and the rows found: REPAIR_EXHAUSTED at the first bank that needs more than two rows,
else the rows mapped, and REPAIR_ADDED where K2 found new ones. The enlarged map. -/
def repairBanks (map : List (Nat × Nat)) : List Nat → State → List (Nat × Nat) × State
  | [], s => ([], s)
  | k :: ks, s =>
    let old := rowsIn k map
    let new := (rowsIn k s.node.badRows).filter fun r => !old.contains r
    let rows := old ++ new
    if 2 < rows.length then (map, kinFatal kECC_UNCORR 0x0A (detail3 k rows.length) s)
    else
      let s := putRepair k rows s
      let s := if new.isEmpty then s else kinFault kECC_CORR corrected 0x0B (detail3 k new.length) s
      let (rest, s) := repairBanks map ks s
      (rows.map (fun r => (k, r)) ++ rest, s)

/-- An identity copy with another SEQUENCE and REPAIR, and its CRC (R141). -/
def identBytes (b : List Byte) (seq : Nat) (map : List (Nat × Nat)) : List Byte :=
  let entry (k : Nat) : List Byte :=
    let rows := rowsIn k map
    leBytes 2 (rows.getD 0 0xFFFF) ++ leBytes 2 (rows.getD 1 0xFFFF)
  let body := slice b 0 8 ++ leBytes 4 seq ++ slice b 0xC 0x34 ++ ((List.range 17).map entry).flatten ++ slice b 0x84 3960
  body ++ leBytes 4 (crc32c body).toNat

/-- An identity commit of copy `c` (R140). `bad`: both writes fail their read-back, and what stands there is not valid: the
bytes as written with a CRC that is free but wrong (DESIGN CHOICE, log entry 102: the spec does not say what bytes stand there).
Whether it succeeded. -/
def commitIdent (c : Bool) (bytes : List Byte) (bad : Bool) (s : State) : Bool × State :=
  if bad then
    let (v, s) := s.draw
    let crc := leAt bytes 0xFFC 4
    let stored := if v.toNat % 2 ^ 32 = crc then crc + 1 else v.toNat
    (false, writePlug (identBase c) (slice bytes 0 0xFFC ++ leBytes 4 stored) s)
  else (true, kinFault kCRC corrected 0x09 (detail3 c.toNat) (writePlug (identBase c) bytes s))

/-- Step 7: where the map has grown both copies are written with SEQUENCE one higher, the copy not in force first, and the
second only once the first is valid; else an invalid or outdated copy is written from the copy in force. -/
def rewriteIdents (force : Bool) (bytes : List Byte) (grown : Bool) (map : List (Nat × Nat)) (other : Bool)
    (bad : Bool → Bool) (s : State) : State :=
  if grown then
    let seq := (leAt bytes 8 4 + 1) % 2 ^ 32
    let new := identBytes bytes seq map
    let (ok, s) := commitIdent (!force) new (bad (!force)) s
    let s := s.modNode fun x => { x with ident := { x.ident with repair := map, sequence := BitVec.ofNat 32 seq } }
    if ok then (commitIdent force new (bad force) s).2 else s
  else if other then (commitIdent (!force) bytes (bad (!force)) s).2
  else s

/-- K3 (R111). `warm` rewrites nothing unless the march of a RETAIN bank has added rows (R127). -/
def k3 (warm : Bool) (bad : Bool → Bool) (s : State) : State :=
  if !s.node.plugPresent then plugAbsent s
  else if s.plug.rdid = 0 ∨ s.plug.rdid = 0xFF ∨ s.plug.rdsr &&& 0x0C ≠ 0 then
    kinFatal kPROTOCOL 0x06 (detail3 s.plug.rdid.toNat) s
  else
    let a := s.plugBytes (identBase false) 0x1000
    let b := s.plugBytes (identBase true) 0x1000
    match chooseIdent a b with
    | none => kinFatal kCRC 0x07 (detail3 (identVerdict a) (identVerdict b)) s
    | some (force, ra, rb) =>
      let bytes := if force then b else a
      let s := (takeIdent bytes (s.putBit F.KIN_STATUS_IDENT_COPY force)).modNode fun x => { x with identChosen := true }
      let address := s.get F.IDENT_CODES_ADDRESS
      if s.node.ident.address.toNat ≠ address then
        kinFatal kPROTOCOL 0x08 (detail3 s.node.ident.address.toNat address) s
      else
        let inForce := (List.range 17).flatMap fun k =>
          ([s.get (F.SPM_REPAIR_FIRST k), s.get (F.SPM_REPAIR_SECOND k)].filter fun r => r != 0xFFFF).map fun r => (k, r)
        let (map, s) := repairBanks (if warm then inForce else s.node.ident.repair) (List.range 17) s
        if s.node.kinHalted then s
        else
          let grown := map.any fun r => !s.node.ident.repair.contains r && s.node.badRows.contains r
          let kept := if warm then s.node.ident.repair ++ map.filter fun r => s.node.badRows.contains r && !s.node.ident.repair.contains r
            else map
          rewriteIdents force bytes grown kept (!warm && (ra || rb)) bad s

/-- K3 (R111): bit 0 of `bad` says that a rewrite of copy A fails both its read-backs, bit 1 of copy B. -/
def execK3 (bad : BitVec 2) (s : State) : Result :=
  actWhen (s.kindles .k3) (fun s =>
    let s := k3 false (fun c => bad.getLsbD c.toNat) s
    if s.node.kinHalted then s else endPhase F.KIN_TIME1_END_K3 .k4 s) s

/-! ## K4: image selection (R114–R118) -/

/-- The verdict of a copy, LOAD_FAILED once K5 has excluded it. -/
def State.startVerdict (c : Bool) (s : State) : Verdict :=
  if (if c then s.node.excludedB else s.node.excludedA) then .loadFailed else s.verdict c

/-- KIN.COPY_A and KIN.COPY_B. -/
def showVerdict (c : Bool) (v : Verdict) (s : State) : State :=
  let n := c.toNat
  let known := s.headerOk c
  let s := (s.put (F.KIN_COPY_VERDICT n) v.code).put (F.KIN_COPY_LEVEL_LO n) (if known then s.levelLo c else 0)
  s.put (F.KIN_COPY_LEVEL_HI n) (if known then s.levelHi c else 0)

/-- The copy chosen from the two verdicts (R114). -/
def State.chooseCopy (va vb : Verdict) (s : State) : Option Bool :=
  if va = .acceptable ∧ vb = .acceptable then
    let d := (s.imageSeq true + 2 ^ 32 - s.imageSeq false) % 2 ^ 32
    some (decide (d ≠ 0 ∧ d < 2 ^ 31))
  else if va = .acceptable then some false
  else if vb = .acceptable then some true
  else none

/-- The other copy is refused where its own verdict, whatever K5 has excluded, is neither ACCEPTABLE nor STAGED (R114). -/
def refuseOther (c : Bool) (s : State) : State :=
  let v := s.verdict c
  if v = .acceptable ∨ v = .staged then s else kinFault kCOMPAT corrected 0x11 (detail3 c.toNat v.code) s

/-- The copy chosen is put in force: selected copy, run level, ROM list. -/
def takeCopy (c : Bool) (s : State) : State :=
  let level := min (s.levelHi c) 3
  let s := ((s.putBit F.KIN_STATUS_IMAGE_COPY c).put F.KIN_IMAGE_SEQ_SEQUENCE (s.imageSeq c)).put F.IDENT_MODULE_RUN_LEVEL level
  (s.putBit F.KIN_STATUS_EMULATED (decide (level < 3))).modNode fun x => { x with mfeRoms := s.romList c }

/-- K4's verdicts and choice. -/
def k4 (s : State) : Option Bool × State :=
  let va := s.startVerdict false
  let vb := s.startVerdict true
  let shown (c : Bool) (v : Verdict) (chosen : Option Bool) (s : State) : State :=
    showVerdict c (if chosen = some c then .selected else v) s
  let chosen := s.chooseCopy va vb
  let s := shown true vb chosen (shown false va chosen s)
  match chosen with
  | none => (none, s)
  | some c => (some c, takeCopy c (refuseOther (!c) s))

/-- IMAGE_NONE (R114). -/
def imageNone (s : State) : State :=
  kinFatal kCOMPAT 0x10 (detail3 (s.get (F.KIN_COPY_VERDICT 0)) (s.get (F.KIN_COPY_VERDICT 1))) s

/-- K4 (R114). -/
def execK4 (s : State) : Result :=
  actWhen (s.kindles .k4) (fun s => match k4 s with
    | (none, s) => imageNone s
    | (some _, s) => endPhase F.KIN_TIME2_END_K4 .k5 s) s

end Sys2Proof.Machine
end

