-- ==== Sys2Proof/Machine/Line.lean ====
section
/-! DEFINITION. What a port puts on the fibre (12.1): the frame's bits, scrambled, with their FEC parity, as optical levels. The
commands carry frames as bytes before scrambling, on either side of this coding (log entry 111). -/

namespace Sys2Proof.Machine

/-! ## Scrambler (R382) -/

/-- Bits in the order they are sent: most significant first. -/
def sentBits (bs : List Byte) : List Bool := bs.flatMap fun b => (List.range 8).map fun i => b.getLsbD (7 - i)

/-- One step of the scrambler of x^31 + x^28 + 1. -/
def scramblerNext (st : BitVec 31) : BitVec 31 := (st <<< 1) ||| (BitVec.ofBool (st.getLsbD 30 ^^ st.getLsbD 27)).zeroExtend 31

/-- The scrambler's output from state `st` added to the bits: descrambling is the same. -/
def scramble : BitVec 31 → List Bool → List Bool
  | _, [] => []
  | st, b :: bs => (b ^^ st.msb) :: scramble (scramblerNext st) bs

/-- The bits of a frame before FEC: the alignment as it stands, the rest scrambled from a state of all ones. -/
def frameBits (bs : List Byte) : List Bool :=
  (sentBits bs).take 128 ++ scramble (BitVec.allOnes 31) ((sentBits bs).drop 128)

/-! ## RS(544,514) over GF(2^10) (R383) -/

/-- Multiply by α: the field polynomial is x^10 + x^3 + 1. -/
def gfDouble (a : BitVec 10) : BitVec 10 := if a.msb then (a <<< 1) ^^^ 0x009 else a <<< 1

def gfMul (a b : BitVec 10) : BitVec 10 :=
  (List.range 10).foldl (fun r i => if b.getLsbD (9 - i) then gfDouble r ^^^ a else gfDouble r) 0

/-- α^n. -/
def gfPow : Nat → BitVec 10
  | 0 => 1
  | n + 1 => gfDouble (gfPow n)

/-- A polynomial, highest coefficient first, times (x − r). -/
def polyTimes (g : List (BitVec 10)) (r : BitVec 10) : List (BitVec 10) :=
  List.zipWith (· ^^^ ·) (g ++ [0]) (0 :: g.map (gfMul r))

/-- The generator: the product of (x − α^i) for i from 0 to 29. -/
def rsGenerator : List (BitVec 10) := (List.range 30).foldl (fun g i => polyTimes g (gfPow i)) [1]

/-- One symbol of the division by the generator. -/
def rsStep (rem : List (BitVec 10)) (m : BitVec 10) : List (BitVec 10) :=
  let fb := m ^^^ rem.headD 0
  List.zipWith (· ^^^ ·) (rem.drop 1 ++ [0]) ((rsGenerator.drop 1).map (gfMul fb))

/-- The 30 parity symbols of a message: its remainder. -/
def rsParity (msg : List (BitVec 10)) : List (BitVec 10) := msg.foldl rsStep (List.replicate 30 0)

/-- `n` symbols of 10 bits each, the first bit most significant. -/
def symbols : Nat → List Bool → List (BitVec 10)
  | 0, _ => []
  | n + 1, bs => BitVec.ofNat 10 ((bs.take 10).foldl (fun v b => 2 * v + b.toNat) 0) :: symbols n (bs.drop 10)

def symbolBits (x : BitVec 10) : List Bool := (List.range 10).map fun i => x.getLsbD (9 - i)

/-- The message bits of one codeword, and its parity after them. -/
def codeword (msg : List Bool) : List Bool := msg ++ (rsParity (symbols 514 msg)).flatMap symbolBits

/-- `n` codewords of the scrambled frame, each over its 5140 bits. -/
def codewordBits : Nat → List Bool → List Bool
  | 0, _ => []
  | n + 1, bs => codeword (bs.take 5140) ++ codewordBits n (bs.drop 5140)

/-! ## Modulation (R381) -/

/-- PAM4: two bits a symbol, Gray coded from lowest power to highest; no precoding. -/
def pam4 : List Bool → List Nat
  | false :: false :: bs => 0 :: pam4 bs
  | false :: true :: bs => 1 :: pam4 bs
  | true :: true :: bs => 2 :: pam4 bs
  | true :: false :: bs => 3 :: pam4 bs
  | _ => []

/-- NRZ: one bit a symbol, 1 the higher power. -/
def nrz (bs : List Bool) : List Nat := bs.map Bool.toNat

/-! ## The signal of a port (Table 12-1) -/

/-- Frame bytes before FEC. -/
def frameBytes (full : Bool) : Nat := if full then 832680 else 416340

/-- Codewords per frame. -/
def frameCodewords (full : Bool) : Nat := if full then 1296 else 648

/-- The optical levels of a frame at a rate: scrambled, encoded, modulated, in that order. -/
def lineSymbols (full : Bool) (bs : List Byte) : List Nat :=
  let line := codewordBits (frameCodewords full) (frameBits bs)
  if full then pam4 line else nrz line

/-- What port `p` puts on the fibre for the frame it sends, at the rate it runs at (R380). -/
def State.onFibre (p : Fin 4) (s : State) : List Nat :=
  let full := s.get (F.LINE_STATUS_RATE p) == 2
  lineSymbols full (frameAt (s.port p).tx 0 (frameBytes full))

end Sys2Proof.Machine
end

