-- ==== Sys2Proof/Machine/Load.lean ====
section
/-! DEFINITION. Kindling K5 to K8 (03.7–03.11) and the warm restart (03.12). -/

namespace Sys2Proof.Machine

/-! ## K5: what the sections load (R119, R148–R153) -/

/-- The bytes of the section the personality set of the selected copy names at `k`. -/
def State.sectionAt (k : Nat) (s : State) : Option (List Byte) := (s.psetSection s.selected k).map fun e => s.body s.selected e

/-- The channel table's entry of a channel. -/
def chanEntry (b : List Byte) (c : Fin 64) : List Byte := slice b (32 * c.val) 32

/-- Step 1: the channel table, and the fail state of every LV and field channel (R208). -/
def loadChannels (s : State) : State :=
  let b := (s.sectionAt 1).getD []
  (s.each (List.finRange 64) fun c => loadChannel c (chanEntry b c)).modNode fun x => { x with lvOn := true }

/-- SOURCE of a WHEELS entry: 1, 2, or 3 for unused. -/
def wheelSource (b : Byte) : Nat := if b = 1 then 1 else if b = 2 then 2 else 3

/-- CFG3 to CFG6 of a mains wheel where there is no WHEELS section (R266). -/
def mainsDefaults : List Nat := [0x01441840, 0x00006666, 0x00200000, 0]

/-- A wheel's registers from its WHEELS entry, or their defaults; EN and REV are the caller's (R248, R266, R268). -/
def loadWheel (entry : Option (List Byte)) (w : Fin 8) (s : State) : State :=
  let cfg (i : Nat) (v : Nat) (s : State) : State :=
    let mask : Word := match i with
      | 0 => 0x00FFF7FF | 1 => 0x000FFFFF | 2 => 0x0FFFFFFF | 3 => 0x0FFF7FFF | 6 => 0x800FFFFF | _ => 0xFFFFFFFF
    s.putReg (0x40030010 + 0x100 * w.val + 4 * i) (BitVec.ofNat 32 v &&& mask)
  match entry with
  | none =>
    if w.val < 3 then s.each (mainsDefaults.zipIdx) fun x => cfg (3 + x.2) x.1
    else s.put (F.WHL_CTL_SOURCE w) 3
  | some b =>
    let s := if w.val < 3 then s
      else
        let s := (s.put (F.WHL_CTL_SOURCE w) (wheelSource (byteAt b 0))).put (F.WHL_CTL_SRC_CH w) (byteAt b 1).toNat
        let s := (s.put (F.WHL_CTL_PATTERN w) (byteAt b 2).toNat).put (F.WHL_CTL_TABLE w) (byteAt b 3).toNat
        s.each [0, 1, 2] fun i => cfg i (leAt b (4 + 4 * i) 4)
    s.each [3, 4, 5, 6] fun i => cfg i (leAt b (4 + 4 * i) 4)

/-- The tooth tables of the TEETH section; tables it does not hold are empty. -/
def loadTeeth (s : State) : State :=
  let l := ((s.sectionAt 3).bind teethOf).getD []
  let table (t : Nat) (s : State) : State :=
    let angles := l.getD t []
    let s := s.put (F.TBL_COUNT_COUNT t) angles.length
    s.each angles.zipIdx fun x => State.put (F.TBL_ANGLE_ANGLE (512 * t + x.2)) x.1
  s.each (List.range 8) table

def loadWheels (s : State) : State :=
  let b := s.sectionAt 2
  s.each (List.finRange 8) fun w => loadWheel (b.map fun b => slice b (32 * w.val) 32) w

/-- GROUPS, LEAPS and DATA; the DATA sections go to scratchpad in index order (R153). -/
def loadData (s : State) : State :=
  let s := s.modWork fun w => { w with groups := groupMasks ((s.sectionAt 5).getD []) }
  let leaps := (s.sectionAt 7).map leapEntries
  let s := takeTable (s.modT fun t => { t with leaps := leaps.getD [] })
  s.each (List.range 8) fun k s => match s.sectionAt (8 + k) with
    | some b => s.spmStore (leAt b 0 4) (b.drop 8)
    | none => s

/-- The scrubber starts at word 0 of the active page (R285). -/
def startScrub (s : State) : State := { s with hrt := { s.hrt with loaded := true, scrubAt := 0, scrubBad := [] } }

/-- Step 2: control store, wheels, teeth, connection memory and the other tables. -/
def loadTables (s : State) : State :=
  let s := match s.psetSection s.selected 0 with
    | some e => loadMicrocode 0 s.selected e s
    | none => s
  let s := startScrub (s.put F.HRT_SWAP_ACTIVE_PAGE 0)
  let s := loadTeeth (loadWheels s)
  loadData (loadPages (((s.sectionAt 4).map pageEntries).getD []) s)

/-- The sections K5 loads, in order: the channel table first. COORDS is loaded nowhere: microcode reads it from the plug. -/
def loadOrder : List Nat := [1, 0, 2, 3, 4, 5, 7] ++ (List.range 8).map (8 + ·)

/-- A word of the selected copy's MICROCODE section has wrong parity (R302). -/
def State.microcodeBad (s : State) : Bool :=
  match s.psetSection s.selected 0 with
  | some e => !(microwords (s.body s.selected e)).all parityOk
  | none => false

/-- The first section, in the order of loading, that fails: directory entry `bad` by its CRC, microcode also by parity. -/
def State.failsAt (bad : Option (Fin 64)) (s : State) : Option (Nat × Nat) :=
  let fails (k : Nat) : Bool :=
    (match bad with
      | some i => s.psetIndex s.selected k == i.val
      | none => false) || (k == 0 && s.microcodeBad)
  (loadOrder.find? fails).map fun k => (k, s.psetIndex s.selected k)

/-- A section fails its check in K5: the copy is LOAD_FAILED, and Kindling returns to K4, at most once (R124). -/
def loadFailed (k i : Nat) (s : State) : State :=
  let c := s.selected
  let s := if k = 1 then s else loadChannels s
  let s := kinFault kCRC corrected 0x12 (detail3 c.toNat i) s
  let s := s.modNode fun x => if c then { x with excludedB := true } else { x with excludedA := true }
  let s := s.put (F.KIN_COPY_VERDICT c.toNat) Verdict.loadFailed.code
  if s.bit F.KIN_STATUS_RETURNED then imageNone s
  else (s.put F.KIN_STATUS_RETURNED 1).modNode fun x => { x with phase := .k4, phaseAt := s.cycles }

/-- K5 (R119): `bad` names the directory entry whose CRC fails as its bytes are read, if one does (R120). -/
def execK5 (bad : Option (Fin 64)) (s : State) : Result :=
  actWhen (s.kindles .k5 && s.node.plugPresent) (fun s => match s.failsAt bad with
    | some (k, i) => loadFailed k i s
    | none => endPhase F.KIN_TIME2_END_K5 .k6 (rebuildWork (loadTables (loadChannels s)))) s

/-! ## K6: the MFE (R121, R122) -/

/-- K6 ends with the MFE's ROM version known. -/
def endK6 (s : State) : State :=
  endPhase F.KIN_TIME3_END_K6 .k7 (s.put F.IDENT_MODULE_MFE_ROM (s.get F.BAR_STATUS_MFE_ROM))

/-! ## K8: run (R126) -/

/-- START[i] of the personality set (R291). -/
def startTask (b : List Byte) (i : Fin 64) (s : State) : State :=
  let p := 32 + 4 * i.val
  let prio := (byteAt b (p + 2)).toNat
  if prio = 0xFF then s
  else
    let s := ((s.put (F.TSK_CFG_ENTRY i) (leAt b p 2)).put (F.TSK_CFG_PRIO i) prio).put (F.TSK_CFG_AFFINITY i) (byteAt b (p + 3)).toNat
    makeReady i ((s.put (F.TSK_BUDGET_BUDGET i) 0).put (F.TSK_ARG_ARG i) 0)

def startTasks (s : State) : State :=
  let b := s.personality s.selected
  s.each ((List.finRange 64).take 8) (startTask b)

/-- The START record (Table 13-7). -/
def startReport (s : State) : Report :=
  { rkind := 0x01, part := 0,
    body := beBytes 1 s.node.kind.code ++ beBytes 1 (s.get F.IDENT_MODULE_RUN_LEVEL) ++ beBytes 4 (s.get F.KIN_IMAGE_SEQ_SEQUENCE) ++
      beBytes 4 s.kinStatus.toNat ++ beBytes 1 (s.get (F.KIN_COPY_VERDICT 0)) ++ beBytes 1 (s.get (F.KIN_COPY_VERDICT 1)) ++
      beBytes 8 Config.moduleSerial.toNat ++ beBytes 1 (s.get F.IDENT_MODULE_MFE_ROM) ++ [0] }

/-- The START report, and after it the faults accepted since the reset, in their order, as far as the log still holds them
(R442). -/
def queueStart (s : State) : State :=
  let early := ((s.logNewest.take s.col.early).reverse).filter fun r => !r.escalated
  let s := s.queueReport (startReport s)
  let s := s.each early State.reportFault
  { s with col := { s.col with early := 0 } }

/-- The START log record (R158). -/
def startRecord (s : State) : State :=
  let verdicts := 256 * s.get (F.KIN_COPY_VERDICT 0) + s.get (F.KIN_COPY_VERDICT 1)
  plugLog 0x02 (BitVec.ofNat 8 s.node.kind.code) s.now s.kinStatus verdicts s

/-- SET_NOW with every HV channel's present level (R81 step 5). -/
def setNowAll (s : State) : State :=
  if s.bit F.BAR_STATUS_HV_ENABLED ∧ s.bar.step = .idle then
    sendSetNow 0xFFF s.hvLevels .handshake (s.setBar { s.bar with step := .setNow })
  else s

/-- The entry to K8 that every kind of reset makes: Embers, start tasks, channels and wheels, work, the records. `wheels` is
what the wheels do, `setNow` says whether SET_NOW is sent. -/
def enterK8 (wheels : State → State) (setNow again : Bool) (s : State) : State :=
  let s := s.modNode fun x => { x with phase := .k8, phaseAt := s.cycles }
  let s := startTasks (releaseEmbers s)
  let s := wheels (chanK8 s)
  let s := if setNow then setNowAll s else s
  let s := if again then offerCustody (reapply s) else s
  queueStart (startDist (if s.node.plugPresent then startRecord s else s))

/-! ## Warm restart (R127–R130) -/

/-- Wheels at a warm restart (R268): those whose registers or tooth table change go to SEEKING. -/
def warmWheels (s : State) : State :=
  let old := s
  let s := loadTeeth (loadWheels s)
  let new := s
  let fields (w : Fin 8) : List Field := [F.WHL_CTL_SOURCE w, F.WHL_CTL_SRC_CH w, F.WHL_CTL_PATTERN w, F.WHL_CTL_TABLE w]
  let changed (w : Fin 8) : Bool :=
    (fields w).any (fun f => old.get f != new.get f) || old.whlCfg0 w != new.whlCfg0 w || old.whlCfg1 w != new.whlCfg1 w ||
    old.whlCfg2 w != new.whlCfg2 w || (match (new.pattern w).table with
      | some t => old.tableAngles t != new.tableAngles t
      | none => false)
  let turn (w : Fin 8) (s : State) : State :=
    if !s.bit (F.WHL_CTL_EN w) || !changed w then s
    else wheelFault kCOMPAT corrected 0x03 w false
      (if s.source w = 3 ∨ s.wheelEnableOk w = false then disableWheel w s else seek w s)
  wheelK8 (s.each (List.finRange 8) turn)

/-- A channel at K5 of a warm restart (R129, R208). -/
def warmChannel (b : List Byte) (c : Fin 64) (s : State) : State :=
  let flags := (byteAt b 1).toNat
  let domain := flags % 2
  let changes := (byteAt b 0).toNat != s.mode c || domain != s.get (F.CH_CTL_DOMAIN c) ||
    (domain == 1 && flags / 2 % 8 != s.get (F.CH_CTL_WHEEL c))
  if changes then
    if s.chan[c].list.isEmpty then loadChannel c b s
    else kinFault kCOMPAT corrected 0x15 (detail3 c.val) (s.modC c fun x => { x with newConfig := some b })
  else
    let s := (s.put (F.CH_CTL_FAIL_LEVEL c) (flags / 16)).put (F.CH_CTL_FAIL_HIZ c) (if c.val < 48 then flags / 32 else 0)
    let s := s.modC c fun x => { x with link := byteAt b 2, nomOperate := BitVec.ofNat 16 (leAt b 4 2),
                                        nomRelease := BitVec.ofNat 16 (leAt b 6 2), newConfig := none }
    let cfg (i : Nat) (s : State) : State :=
      let a := 0x40020010 + 0x100 * c.val + 4 * i
      let v := BitVec.ofNat 32 (leAt b (8 + 4 * i) 4)
      let update := i == 3 && waveMode (s.mode c)
      let k := cfgMask c (s.mode c) i
      if s.reg a &&& k = v &&& k ∧ update = false then s
      else if s.mode c = mEDGELOG ∧ (i = 1 ∨ i = 2) then (restartLog c s).putReg a (v &&& k)
      else writeChanCfg c i v s
    s.each (List.range 6) cfg

/-- What the MFE is told of the outputs and inputs: CONFIG items and fail levels. -/
def State.hvConfig (s : State) : List (List Byte) × Nat := ((List.range 16).map fun i => s.configItem i, s.failLevels)

/-- K5's tables at a warm restart; the wheels follow at K8. -/
def warmTables (s : State) : State :=
  let b := (s.sectionAt 1).getD []
  loadData (startScrub (s.each (List.finRange 64) fun c => warmChannel (chanEntry b c) c))

/-- The active control-store page agrees with the microcode section of the selected copy (R127, R130). -/
def State.pageOk (s : State) : Bool :=
  let page := s.get F.HRT_SWAP_ACTIVE_PAGE
  let bytes := (tabGetRun 0 s.hrt.cs (csKey page 0) 8192).flatMap fun w => leBytes 12 w.toNat
  match s.psetSection s.selected 0 with
  | some e => (crc32c bytes).toNat == e.crc
  | none => false

/-- The registers at the addresses `p` holds of return to their reset values (R6). -/
def resetRegs (p : Nat → Bool) (s : State) : State :=
  let old := s.regs.filter fun e => !p e.1
  let new := State.reset.regs.filter fun e => p e.1
  { s with regs := new.foldl (fun t e => tabSet 0 t e.1 e.2) old }

def inWindow (n a : Nat) : Bool := decide (0x40000000 + 0x10000 * n ≤ a) && decide (a < 0x40010000 + 0x10000 * n)

/-- The registers a warm restart returns to reset (R6, R103, R336): Hearth, the interrupt controller and Geyser whole; the
scratchpad's but RETAIN, POWER, PSTAT and REPAIR, which K2 and K3 settle (R361, R363); the phase units' (R268); the barrier's
counters and mailbox; FLT.CTL and FLT.INJ; the plug-transfer registers; KIN's END times. Those of Table 03-1's rows that are
kept stay (log entry 87). -/
def warmResets (a : Nat) : Bool :=
  inWindow 0 a || inWindow 1 a || inWindow 4 a ||
  (inWindow 5 a && !(decide (0x40050010 ≤ a ∧ a < 0x40050020) || decide (0x40050140 ≤ a ∧ a < 0x40050184))) ||
  decide (0x40030800 ≤ a ∧ a < 0x40030C00) || decide (0x400C0008 ≤ a ∧ a < 0x400C0038) ||
  decide (0x400C0040 ≤ a ∧ a < 0x400C0058) || a == 0x400D0008 || a == 0x400D0030 ||
  decide (0x400E0020 ≤ a ∧ a < 0x400E0030) || decide (0x400E0040 ≤ a ∧ a < 0x400E0050)

/-- K0 of a warm restart: Peat has rewritten the activated copy's commit block as COMMITTED (R171); a plug transfer ends ABORTED (R161); Embers, interrupt controller, Hearth, Geyser and phase units
reset; the chunk record is lost (R174); the RL latches are reset (R295). "LOCKED since the last reset" goes on over a warm
restart (R182; DESIGN CHOICE, log entry 103). -/
def warmK0 (s : State) : State :=
  let s := rewriteCommit s.inactive 0x3C3CA5A5 0 s
  let page := s.get F.HRT_SWAP_ACTIVE_PAGE
  let s := (resetRegs warmResets (abortTransfer s)).put F.HRT_SWAP_ACTIVE_PAGE page
  let s := geyserClear (resetHearth { s with ic := IntCtl.reset, latches := [], col := { s.col with early := 0 },
                                             ph := State.reset.ph })
  let s := (s.put F.KIN_STATUS_RETURNED 0).put F.KIN_STATUS_INSERTED 0
  let s := clearChunks (s.modDist fun d => { d with warmDue := false })
  s.modNode fun x => { x with kind := .warm, phase := .k0, k0At := s.cycles, k0Lead := 0, phaseAt := s.cycles,
                              excludedA := false, excludedB := false, hvSent := false }

/-- IMAGE_LOAD_FAILED at a warm restart names the activated copy, and the reset of kind RESET_N follows (R130). The reset clears
the collector, so the fault is raised after it. -/
def warmFailed (activated : Bool) (index : Nat) (s : State) : State :=
  kinFault kCRC corrected 0x12 (detail3 activated.toNat index) (coldReset .resetN (beforeReset s))

/-- K6 of a warm restart: R121 is decided again, and CONFIG and FAILSTATE are sent where the new personality set or the
decision changes them. -/
def warmK6 (changed : Bool) (s : State) : State :=
  let was := s.bar.romOk
  let known := s.bit F.BAR_STATUS_HELLO_DONE && s.bar.step == .idle
  if !known then endPhase F.KIN_TIME3_END_K6 .k6 s
  else
    let s := decideRom s.bar.roms s
    if changed ∨ s.bar.romOk ≠ was then
      sendConfig 0 ((s.setBar { s.bar with configBad := false }).modNode fun x => { x with phase := .k6, hvSent := true })
    else endPhase F.KIN_TIME3_END_K6 .k6 s

/-- K8 of a warm restart: SET_NOW only where K6 has sent FAILSTATE. -/
def warmK8 (s : State) : State := enterK8 warmWheels s.node.hvSent false s

/-- K2 to K5 of a warm restart, after which K6 decides. -/
def warmRun (fails : List (Nat × Nat)) (rewriteBad : BitVec 2) (bad : Option (Fin 64)) (s : State) : State :=
  let running := s.selected
  let s := endPhase F.KIN_TIME1_END_K2 .k3 (k2Warm fails (endPhase F.KIN_TIME0_END_K0 .k2 s))
  let s := k3 true (fun c => rewriteBad.getLsbD c.toNat) s
  if s.node.kinHalted then s
  else match k4 (endPhase F.KIN_TIME1_END_K3 .k4 s) with
    | (some c, s) =>
      if c = running then warmFailed (!running) 0xFF s
      else match s.failsAt bad with
        | some (_, i) => warmFailed (!running) i s
        | none =>
          if s.pageOk = false then warmFailed (!running) (s.psetIndex c 0) s
          else
            let before := s.hvConfig
            let s := warmTables (endPhase F.KIN_TIME2_END_K4 .k5 s)
            let s := warmK6 (s.hvConfig != before) (endPhase F.KIN_TIME2_END_K5 .k6 s)
            if s.node.hvSent then s else warmK8 s
    | (none, s) => warmFailed (!running) 0xFF s

/-- WARM_RESTART (R127), after a page swap: K0 to K6 of the shortened Kindling, and K8 where K6 has nothing to send to the MFE.
`fails` are the rows K2 finds failing; `rewriteBad` and `bad` as for K3 and K5. -/
def execWarmRestart (fails : List (Nat × Nat)) (rewriteBad : BitVec 2) (bad : Option (Fin 64)) (s : State) : Result :=
  actWhen (s.inK8 && s.dist.warmDue && s.node.pwr == .none) (fun s => warmRun fails rewriteBad bad (warmK0 s)) s

/-! ## The commands K6, MFE_ABSENT, K7, K8 -/

/-- K6 (R121): it begins the handshake where the link is up, and ends once the handshake is done. At a warm restart K8 follows
at once. -/
def execK6 (s : State) : Result :=
  actWhen (s.kindles .k6) (fun s =>
    if s.node.kind = .warm then
      (if s.bar.step = .idle then warmK8 (endPhase F.KIN_TIME3_END_K6 .k6 s) else s)
    else if s.bar.step ≠ .idle then s
    else if s.bit F.BAR_STATUS_FAILSTATE_SENT then endK6 s
    else if s.linkUp then sendHello s
    else s) s

/-- MFE_ABSENT (R122): 300 ms of K6 without the link. -/
def execMfeAbsent (s : State) : Result :=
  actWhen (s.kindles .k6 && s.node.kind != .warm && !s.linkUp && decide (s.node.phaseAt + msCycles 300 ≤ s.cycles)) (fun s =>
    endPhase F.KIN_TIME3_END_K6 .k7 (kinFault kTIMEOUT corrected 0x13 0 (s.put F.KIN_STATUS_HV_PENDING 1))) s

/-- K7 (R123): the heartbeat starts, EAST and WEST observe the taps, and the drop ports begin as the image directs. -/
def k7 (s : State) : State :=
  let s := startHeartbeat s
  let s := if s.sup.switchIn then s
    else setInsert 1 (setLine 1 lMONITOR (setLine 0 lMONITOR (s.modRing fun r => { r with monitorAt := some s.cycles })))
  enableDrops s

/-- K7 (R123). -/
def execK7 (s : State) : Result := actWhen (s.kindles .k7 && !s.node.heartbeat) k7 s

/-- K8 (R126): the node is inserted, or 2500 ms of K7 have passed. -/
def execK8 (s : State) : Result :=
  actWhen (s.kindles .k7 && s.node.heartbeat && (s.sup.inserted || decide (s.node.phaseAt + msCycles 2500 ≤ s.cycles))) (fun s =>
    let s := endPhase F.KIN_TIME3_END_K7 .k8 (s.putBit F.KIN_STATUS_INSERTED s.sup.inserted)
    enterK8 wheelK8 true true s) s

end Sys2Proof.Machine
end

