-- ==== Sys2Proof/Machine/Mfe.lean ====
section
/-! DEFINITION. The mains front end (02.5–02.10): frames it carries out, outputs, inputs, its copy of system time,
its reports. -/

namespace Sys2Proof.Machine

def State.setM (m : Mfe) (s : State) : State := { s with mfe := m }

def State.modM (f : Mfe → Mfe) (s : State) : State := { s with mfe := f s.mfe }

/-! ## Reports to the logic side (R90, R92) -/

/-- A frame leaves on the UP channel. -/
def sendUp (type : Byte) (retx : Bool) (seq ref : BitVec 16) (payload : List Byte) (s : State) : State :=
  s.modM fun m => { m with line := barFrame type retx seq ref payload }

/-- A report the MFE keeps for another try: HV_EVENT and OPTIME (R92). -/
def keptReport (type : Byte) : Bool := type == tHV_EVENT || type == tOPTIME

/-- The teeth a TEETH frame carries count as sent (Table 02-10). -/
def countTeeth (type : Byte) (payload : List Byte) (s : State) : State :=
  if h : type = tTEETH ∧ (byteAt payload 0).toNat < 3 then
    s.modM fun m => { m with phases := m.phases.set (byteAt payload 0).toNat { m.phases[(byteAt payload 0).toNat]'h.2 with
      teeth := (m.phases[(byteAt payload 0).toNat]'h.2).teeth + BitVec.ofNat 32 ((byteAt payload 1).toNat % 8) } h.2 }
  else s

/-- First transmission of an UP request: it takes the next SEQ. -/
def upTransmit (type : Byte) (payload : List Byte) (s : State) : State :=
  let m := s.mfe
  let r : UpReq := ⟨m.nextSeq, type, payload, 1, m.clock, m.clock⟩
  countTeeth type payload (sendUp type false m.nextSeq 0 payload
    (s.setM { m with ups := m.ups ++ [r], nextSeq := m.nextSeq + 1 }))

/-- A report that cannot be sent with the link down is held, or dropped. -/
def holdUp (r : UpReq) (m : Mfe) : Mfe := if keptReport r.type then { m with heldUps := m.heldUps ++ [r] } else m

/-- Send an UP request: with 16 outstanding it waits (R90); with the link down HV_EVENT and OPTIME are held and others
dropped (R92). -/
def upSend (type : Byte) (payload : List Byte) (s : State) : State :=
  let m := s.mfe
  let payload := slice payload 0 24
  let r : UpReq := ⟨0, type, payload, 0, 0, 0⟩
  if !m.link then s.modM (holdUp r)
  else if m.ups.length < 16 ∧ m.waiting.isEmpty then upTransmit type payload s
  else s.setM { m with waiting := m.waiting ++ [r] }

/-- UP requests that wait are sent while there is room. -/
def sendWaitingUps : Nat → State → State
  | 0, s => s
  | k + 1, s => match s.mfe.waiting with
    | [] => s
    | r :: rs =>
      if s.mfe.ups.length < 16 then sendWaitingUps k (upTransmit r.type r.payload (s.modM fun m => { m with waiting := rs }))
      else s

/-- Held reports are sent again under new sequence numbers. -/
def flushHeld (s : State) : State :=
  let l := s.mfe.heldUps
  (s.modM fun m => { m with heldUps := [] }).each l fun r => upSend r.type r.payload

/-- HV_EVENT; none before the MFE holds a time (R85). -/
def sendHvEvent (what flags : Nat) (time : SysTime) (tag : Word) (s : State) : State :=
  s.when s.mfe.time.isSome (upSend tHV_EVENT
    ([BitVec.ofNat 8 what, BitVec.ofNat 8 flags] ++ leBytes 8 time.toNat ++ leBytes 4 tag.toNat))

/-- The operate and release times in use: measured, or nominal until then (R98). -/
def HvOut.operateUse (o : HvOut) : Nat := o.operate.getD o.nomOperate.toNat
def HvOut.releaseUse (o : HvOut) : Nat := o.release.getD o.nomRelease.toNat

def sendOptime (i : Fin 12) (s : State) : State :=
  let o := s.mfe.outs[i]
  upSend tOPTIME (BitVec.ofNat 8 i :: 0 :: (leBytes 2 ((o.operate).getD 0) ++ leBytes 2 ((o.release).getD 0))) s

/-! ## Outputs -/

def State.setOut (i : Fin 12) (o : HvOut) (s : State) : State := s.modM fun m => { m with outs := m.outs.set i o }

/-- A gate: a scheduled entry or a SET_NOW gives the output a level (R98). -/
def gateTo (level : Bool) (t : Option SysTime) (o : HvOut) : HvOut :=
  { o with level := level, tripped := o.tripped && !level,
           onGate := if level && !o.level then t else if o.level && !level then none else o.onGate,
           offGate := if o.level && !level then t else if level && !o.level then none else o.offGate }

/-- The fail state: the levels last given, or every output open; an output opened under R84 stays open. -/
def applyFail (s : State) : State :=
  s.modM fun m =>
    let lv := m.fail.getD 0
    let fail (i : Fin 12) : HvOut :=
      { m.outs[i] with level := lv.getLsbD i && !m.outs[i].tripped, onGate := none, offGate := none }
    { m with failHeld := true, hold := none, outs := Vector.ofFn fail }

/-- Every scheduled entry goes. -/
def dropSchedule (s : State) : State :=
  s.modM fun m => { m with outs := m.outs.map fun o => { o with sched := [] } }

/-- HV_ENABLE as the MFE holds it: 0 until its first FAILSTATE (R82). -/
def Mfe.enabled (m : Mfe) : Bool := m.fail.isSome && m.enable

/-- 50 µs in units, rounded up. -/
def lateUnits : Nat := 26844

/-- Less than 50 µs remain before gate time `g`. -/
def Mfe.tooLate (m : Mfe) (g : SysTime) : Bool :=
  match m.time with
  | none => true
  | some t => decide (g.toNat < t.toNat + lateUnits)

/-! ## Frames from the logic side -/

/-- A frame arrives on the DOWN channel: a wrong CRC discards it (R87); a valid one keeps the link up. -/
def downFrame (f : List Byte) (ok : Byte → Bool) (k : State → State) (s : State) : Result :=
  if f.length ≠ 32 then .refused (.illFormed "DOWN frame")
  else actWhen s.mfe.powered (fun s =>
    if !frameOk f then s.modM fun m => { m with crcErr := if m.crcErr = 0xFFFF then m.crcErr else m.crcErr + 1 }
    else if !ok (fType f) then s
    else k (flushHeld (s.modM fun m => { m with link := true, heard := s.mfe.clock }))) s

/-- A status and result bytes as a completion's payload. -/
def complete (status : Byte) (result : List Byte) : List Byte := slice (status :: result) 0 24

/-- The COMPLETION of the DOWN request `seq` leaves. -/
def answerDown (seq : BitVec 16) (payload : List Byte) (s : State) : State := sendUp tCOMPLETION false 0 seq payload s

/-- A request is carried out once; a SEQ held is answered from the store (R89). -/
def downRequest (f : List Byte) (k : State → Byte × List Byte × State) (s : State) : State :=
  match s.mfe.store.find? fun x => x.1 == fSeq f with
  | some x => answerDown x.1 x.2 s
  | none =>
    let (st, result, s) := k s
    answerDown (fSeq f) (complete st result)
      (s.modM fun m => { m with store := (keepSeq (fSeq f) (complete st result) m.store).take 64 })

def romBytes (m : Mfe) : List Byte := slice m.roms 0 8

/-- HELLO (R89): carried out whatever its SEQ; the store is cleared, RESTARTED clears, a hold ends (R79, R80). -/
def execHello (f : List Byte) (s : State) : Result :=
  downFrame f (· == tHELLO) (fun s => answerDown (fSeq f) (complete stOK (romBytes s.mfe)) (s.modM fun m =>
    { m with restarted := false, hold := none, store := [(fSeq f, complete stOK (romBytes m))] })) s

/-- FAILSTATE (R81): outputs move only when held open since reset, at the fail state already, or with HV_ENABLE 0,
which ends the schedule too (R82); a handshake with measured times reports them (R98). -/
def execFailstate (f : List Byte) (s : State) : Result :=
  downFrame f (· == tFAILSTATE) (downRequest f fun s =>
    let lv := BitVec.ofNat 12 (leAt f 6 2)
    let en := (byteAt f 8).getLsbD 0
    let moves := s.mfe.fail.isNone || s.mfe.failHeld || !en
    let s := s.modM fun m => { m with fail := some lv, enable := en }
    let s := if en then s else dropSchedule s
    let s := if moves then applyFail s else s
    let s := s.each (List.finRange 12) fun i s =>
      s.when (s.mfe.outs[i].operate.isSome || s.mfe.outs[i].release.isSome) (sendOptime i)
    (stOK, [], s)) s

/-- SCHEDULE (R94). An output number that does not exist is a BAD_REQUEST whatever HV_ENABLE is (DESIGN CHOICE, log
entry 105). -/
def mfeSchedule (f : List Byte) (s : State) : Byte × List Byte × State :=
  let m := s.mfe
  let gate : SysTime := BitVec.ofNat 64 (leAt f 8 8)
  let tag := BitVec.ofNat 32 (leAt f 16 4)
  if h : (byteAt f 6).toNat < 12 then
    let i : Fin 12 := ⟨_, h⟩
    let o := m.outs[i]
    let holder := o.sched.find? fun e => e.tag == tag
    let heldLate := match holder with | some e => m.tooLate e.gate | none => false
    if !m.enabled then (stDISABLED, [], s)
    else if !m.sync then (stNOT_SYNCED, [], s)
    else if m.tooLate gate || heldLate then (stTOO_LATE, [], s)
    else if holder.isNone && decide (4 ≤ o.sched.length) then (stFULL, [], s)
    else
      let e : MfeEntry := ⟨tag, (byteAt f 7).getLsbD 0, gate, fSeq f⟩
      (stOK, [], s.setOut i { o with sched := (o.sched.filter fun x => x.tag != tag) ++ [e] })
  else (stBAD_REQUEST, [], s)

def execSchedule (f : List Byte) (s : State) : Result :=
  downFrame f (· == tSCHEDULE) (downRequest f (mfeSchedule f)) s

/-- CANCEL (R94). -/
def mfeCancel (f : List Byte) (s : State) : Byte × List Byte × State :=
  let m := s.mfe
  let tag := BitVec.ofNat 32 (leAt f 16 4)
  if h : (byteAt f 6).toNat < 12 then
    let i : Fin 12 := ⟨_, h⟩
    let o := m.outs[i]
    if !m.enabled then (stDISABLED, [], s)
    else match o.sched.find? fun e => e.tag == tag with
      | none => (stOK_ABSENT, [], s)
      | some e =>
        if m.tooLate e.gate then (stTOO_LATE, [], s)
        else (stOK, [], s.setOut i { o with sched := o.sched.filter fun x => x.tag != tag })
  else (stBAD_REQUEST, [], s)

/-- BARRIER_CANCEL (R94). -/
def execBarrierCancel (f : List Byte) (s : State) : Result :=
  downFrame f (· == tCANCEL) (downRequest f (mfeCancel f)) s

/-- SET_NOW (R94): the named outputs change at once; schedules stay. Mask bits 12–15 name no output and are ignored
(DESIGN CHOICE, log entry 105). -/
def execSetNow (f : List Byte) (s : State) : Result :=
  downFrame f (· == tSET_NOW) (downRequest f fun s =>
    if !s.mfe.enabled then (stDISABLED, [], s)
    else
      let mask := leAt f 6 2
      let lv := leAt f 8 2
      let set (m : Mfe) (i : Fin 12) : HvOut :=
        if mask.testBit i.val then gateTo (lv.testBit i.val) m.time m.outs[i] else m.outs[i]
      (stOK, [], s.modM fun m => { m with failHeld := false, outs := Vector.ofFn (set m) })) s

/-- CONFIG (Table 04-10): a change of what R98 names starts learning afresh. -/
def mfeConfig (f : List Byte) (s : State) : Byte × List Byte × State :=
  let n := (byteAt f 7).toNat
  if byteAt f 6 = 0x01 then
    if h : n < 12 then
      let i : Fin 12 := ⟨n, h⟩
      let o := s.mfe.outs[i]
      let op := BitVec.ofNat 16 (leAt f 9 2)
      let re := BitVec.ofNat 16 (leAt f 11 2)
      let same := o.paired == byteAt f 8 && o.nomOperate == op && o.nomRelease == re
      let o := { o with paired := byteAt f 8, nomOperate := op, nomRelease := re }
      (stOK, [], s.setOut i (if same then o else { o with operate := none, release := none, onGate := none, offGate := none }))
    else (stBAD_REQUEST, [], s)
  else if byteAt f 6 = 0x02 then
    if h : n < 4 then
      let i : Fin 4 := ⟨n, h⟩
      let x := s.mfe.ins[i]
      let same := x.feed == byteAt f 8
      (stOK, [], s.modM fun m => { m with
        ins := m.ins.set i { x with feed := byteAt f 8 },
        outs := if same then m.outs else m.outs.map fun o =>
          if o.paired.toNat = n then { o with operate := none, release := none, onGate := none, offGate := none } else o })
    else (stBAD_REQUEST, [], s)
  else (stBAD_REQUEST, [], s)

/-- CONFIG (R81); a request of a TYPE that Table 02-6 does not list is answered here too, with BAD_REQUEST. -/
def execConfig (f : List Byte) (s : State) : Result :=
  downFrame f (fun t => t == tCONFIG || t == 0 || (decide (0x09 < t.toNat) && decide (t.toNat < 0x81))) (downRequest f fun s =>
    if fType f = tCONFIG then mfeConfig f s else (stBAD_REQUEST, [], s)) s

/-! ### QUERY (Table 02-10) -/

def optTime (t : Option SysTime) : List Byte := leBytes 8 ((t.map BitVec.toNat).getD 0)

/-- `a` executes before `b`: by gate time, equal gate times in SEQ order (R94). -/
def MfeEntry.before (a b : MfeEntry) : Bool :=
  decide (a.gate.toNat < b.gate.toNat) || (a.gate == b.gate && newer 16 b.seq.toNat a.seq.toNat)

/-- The earliest scheduled entry. -/
def earliest (l : List MfeEntry) : Option MfeEntry :=
  l.foldl (fun b e => match b with
    | none => some e
    | some x => if e.before x then some e else b) none

def queryOutput (m : Mfe) (i : Fin 12) : List Byte :=
  let o := m.outs[i]
  let e := earliest o.sched
  let fl := o.tripped.toNat + 2 * ((m.fail.getD 0).getLsbD i).toNat + 4 * (o.operate.isSome || o.release.isSome).toNat
  [BitVec.ofNat 8 i, BitVec.ofNat 8 o.level.toNat, BitVec.ofNat 8 o.sched.length] ++ leBytes 2 o.operateUse ++
    leBytes 2 o.releaseUse ++ [BitVec.ofNat 8 fl, o.paired] ++
    leBytes 4 ((e.map fun x => x.tag.toNat).getD 0) ++ optTime (e.map MfeEntry.gate)

def queryInput (m : Mfe) (i : Fin 4) : List Byte :=
  let x := m.ins[i]
  [BitVec.ofNat 8 i, BitVec.ofNat 8 x.level.toNat, x.feed, BitVec.ofNat 8 x.deadzone.toNat, 0] ++ optTime x.edge

def queryPhase (m : Mfe) (p : Fin 3) : List Byte :=
  let x := m.phases[p]
  [BitVec.ofNat 8 p] ++ leBytes 2 x.rms.toNat ++ leBytes 2 x.freq.toNat ++
    [BitVec.ofNat 8 (x.present.toNat + 2 * x.freqOk.toNat), x.thd, 0, 0] ++ leBytes 4 x.teeth.toNat

/-- The answer to a QUERY; it changes nothing and needs neither HV_ENABLE nor SYNC (R88). -/
def answerQuery (m : Mfe) (item index : Nat) : Byte × List Byte :=
  match item with
  | 1 => if h : index < 12 then (stOK, queryOutput m ⟨index, h⟩) else (stBAD_REQUEST, [])
  | 2 => if h : index < 4 then (stOK, queryInput m ⟨index, h⟩) else (stBAD_REQUEST, [])
  | 3 => if h : index < 3 then (stOK, queryPhase m ⟨index, h⟩) else (stBAD_REQUEST, [])
  | 4 => if index = 0 then
      (stOK, [0] ++ optTime m.time ++ leBytes 4 (BitVec.ofInt 32 m.offset).toNat ++ [BitVec.ofNat 8 m.sync.toNat])
    else (stBAD_REQUEST, [])
  | 5 => if index = 0 then (stOK, romBytes m ++ [m.temp, BitVec.ofNat 8 m.overtemp.toNat]) else (stBAD_REQUEST, [])
  | 6 => if index = 0 then
      (stOK, [0] ++ leBytes 2 m.crcErr.toNat ++ leBytes 2 m.retries.toNat ++ leBytes 2 m.lost.toNat ++
        leBytes 2 m.resets.toNat)
    else (stBAD_REQUEST, [])
  | _ => (stBAD_REQUEST, [])

/-- BARRIER_QUERY (R88). -/
def execBarrierQuery (f : List Byte) (s : State) : Result :=
  downFrame f (· == tQUERY) (downRequest f fun s =>
    let (st, r) := answerQuery s.mfe (byteAt f 6).toNat (byteAt f 7).toNat
    (st, r, s)) s

/-- FAILNOW (R83): the fail state, and no schedule. -/
def execFailnow (f : List Byte) (s : State) : Result :=
  downFrame f (· == tFAILNOW) (downRequest f fun s => (stOK, [], applyFail (dropSchedule s))) s

/-! ## System time in the MFE (R85) -/

/-- The two runs of R85 and SYNC, after an offset is measured. -/
def syncRuns (off : Int) (m : Mfe) : Mfe :=
  let near := decide (off.natAbs ≤ 268)
  let far := decide (1073 < off.natAbs)
  let inRun := if near then m.inRun + 1 else 0
  let outRun := if far then m.outRun + 1 else 0
  { m with offset := off, inRun := inRun, outRun := outRun,
           sync := if m.sync then decide (outRun < 4) else decide (16 ≤ inRun) }

/-- A TIME frame that shows time `t` now: stepped when out of SYNC and beyond 2 µs, else slewed by at most 50 ns. -/
def steerTime (t : SysTime) (m : Mfe) : Mfe :=
  match m.time with
  | none => { m with time := some t, offset := 0, inRun := 0, outRun := 0 }
  | some c =>
    let off := timeDiff t c
    let c' := if !m.sync && decide (1073 < off.natAbs) then t else c + BitVec.ofInt 64 (max (-26) (min 26 off))
    { syncRuns off m with time := some c' }

/-- TIME_FRAME (R85): `transit` is the frame's transit time in units. -/
def execTimeFrame (f : List Byte) (transit : Nat) (s : State) : Result :=
  downFrame f (· == tTIME) (State.modM (steerTime (BitVec.ofNat 64 (leAt f 8 8 + transit)))) s

/-! ## Gates, overcurrent -/

/-- Entries in the order they execute. -/
def insertEntry (e : MfeEntry) : List MfeEntry → List MfeEntry
  | [] => [e]
  | x :: l => if e.before x then e :: x :: l else x :: insertEntry e l

/-- GATE (R96): output `i` takes the level of the last of its due entries; each is reported, LATE beyond 5 µs. -/
def execGate (i : Fin 12) (s : State) : Result :=
  actWhen s.mfe.powered (fun s => match s.mfe.time with
    | none => s
    | some t =>
      let o := s.mfe.outs[i]
      let due := (o.sched.filter fun e => decide (e.gate.toNat ≤ t.toNat)).foldl (fun l e => insertEntry e l) []
      match due.getLast? with
      | none => s
      | some last =>
        let o := { gateTo last.level (some t) o with sched := o.sched.filter fun e => decide (t.toNat < e.gate.toNat) }
        let s := (s.setOut i o).modM fun m => { m with failHeld := false }
        s.each due fun e =>
          let late := decide (e.gate.toNat + 2684 < t.toNat)
          sendHvEvent i (e.level.toNat + 4 * late.toNat) t e.tag) s

/-- OVERCURRENT (R84): the output's peak current, or its windowed RMS, exceeds its limit. -/
def execOvercurrent (i : Fin 12) (s : State) : Result :=
  actWhen (s.mfe.powered && s.mfe.outs[i].level) (fun s =>
    let o := s.mfe.outs[i]
    let s := s.setOut i { o with level := false, tripped := true, onGate := none, offGate := none }
    sendHvEvent i 8 (s.mfe.time.getD 0) 0 s) s

/-! ## HV inputs (R97, R98) -/

/-- A quotient whose rounding the spec leaves open: exact, or one of the two neighbours. -/
def openQuot (n d : Int) (s : State) : Int × State :=
  if n % d = 0 then (n / d, s)
  else
    let (v, s) := s.draw
    (n.fdiv d + (v.getLsbD 0).toNat, s)

/-- A measured time between gate and edge: in 10 µs, none outside 2–200 ms. -/
def measured (gate edge : SysTime) (s : State) : Option Nat × State :=
  let d := timeDiff edge gate
  if d * 1000 < 2 * 536870912 ∨ 200 * 536870912 < d * 1000 then (none, s)
  else
    let (v, s) := openQuot (d * 100000) 536870912 s
    (some v.toNat, s)

/-- The learned value after measurement `m`: the first replaces the nominal value. -/
def learn (old : Option Nat) (m : Nat) (s : State) : Nat × State :=
  match old with
  | none => (m, s)
  | some v =>
    let (d, s) := openQuot ((m : Int) - v) 8 s
    ((v + d).toNat, s)

/-- An edge of input `i` ends the measurements of the outputs paired with it. -/
def endMeasurements (i : Fin 4) (on : Bool) (t : SysTime) (s : State) : State :=
  s.each (List.finRange 12) fun k s =>
    let o := s.mfe.outs[k]
    let gate := if on then o.onGate else o.offGate
    if o.paired.toNat ≠ i.val then s
    else match gate with
      | none => s
      | some g =>
        let s := s.setOut k (if on then { o with onGate := none } else { o with offGate := none })
        match measured g t s with
        | (none, s) => s
        | (some m, s) =>
          let (v, s) := learn (if on then o.operate else o.release) m s
          let o := s.mfe.outs[k]
          sendOptime k (s.setOut k (if on then { o with operate := some v } else { o with release := some v }))

/-- An input's edge: its level, its report, the measurements it ends. -/
def inputEdge (i : Fin 4) (on dead : Bool) (t : SysTime) (s : State) : State :=
  let x := s.mfe.ins[i]
  let s := s.modM fun m => { m with ins := m.ins.set i { x with
    level := on, deadzone := if on then dead else x.deadzone, edge := if m.time.isSome then some t else x.edge } }
  endMeasurements i on t (sendHvEvent (0x80 + i.val) (on.toNat + 2 * (on && dead).toNat) t 0 s)

/-- The half-period that confirms input `i`, as the frequency [10 mHz] whose half-period it is: the declared feed phase's
if that phase is PRESENT, else L1's, else 50 Hz, whose half-period is 10 ms. An L1 that has shown no frequency counts as
none (DESIGN CHOICE, log entry 105). -/
def Mfe.halfFreq (m : Mfe) (i : Fin 4) : Nat :=
  match m.phases[m.ins[i].feed.toNat]?.filter MainsPhase.present with
  | some p => p.freq.toNat
  | none => if m.phases.toList.any MainsPhase.present ∧ m.phases[0].freq ≠ 0 then m.phases[0].freq.toNat else 5000

/-- `d` units are at most `k` half-periods of `freq` [10 mHz]. -/
def withinHalves (k freq : Nat) (d : Int) : Bool := decide (d * freq ≤ k * (50 * 536870912))

/-- The edge whose first sample above 60 V is `first` is confirmed: each of the two half-periods after it holds one of the
`later` samples above 60 V, and the second has ended (R97). -/
def Mfe.confirmed (m : Mfe) (i : Fin 4) (first : SysTime) (later : List SysTime) : Bool :=
  let f := m.halfFreq i
  let d (t : SysTime) : Int := timeDiff t first
  later.any (fun t => decide (0 < d t) && withinHalves 1 f (d t)) &&
  later.any (fun t => !withinHalves 1 f (d t) && withinHalves 2 f (d t)) &&
  match m.time with
  | some t => decide ((2 * (50 * 536870912) : Int) ≤ d t * f)
  | none => true

/-- The midpoint of the feed phase's interval below 60 V. -/
def midpoint (lo hi : SysTime) : SysTime := lo + BitVec.ofInt 64 (timeDiff hi lo / 2)

/-- HVI_ON (R97): input `i` showed its first sample above 60 V at `first`, and more at `later`; `below` is the feed phase's
interval below 60 V, if it lay there at the sample before `first`. Dates are those of the MFE's clock. -/
def execHviOn (i : Fin 4) (first : SysTime) (later : List SysTime) (below : Option (SysTime × SysTime)) (s : State) : Result :=
  actWhen (s.mfe.powered && !s.mfe.ins[i].level && s.mfe.confirmed i first later) (fun s =>
    match (s.mfe.phases[s.mfe.ins[i].feed.toNat]?).filter MainsPhase.present, below with
    | some _, some (lo, hi) => inputEdge i true true (midpoint lo hi) s
    | _, _ => inputEdge i true false first s) s

/-- No sample has exceeded 60 V for 12 ms since `last`, by the MFE's clock. -/
def Mfe.silent (m : Mfe) (last : SysTime) : Bool :=
  match m.time with
  | some t => decide (12 * 536870912 ≤ timeDiff t last * 1000)
  | none => true

/-- HVI_OFF (R97): no sample above 60 V for 12 ms; dated at the last one. -/
def execHviOff (i : Fin 4) (last : SysTime) (s : State) : Result :=
  actWhen (s.mfe.powered && s.mfe.ins[i].level && s.mfe.silent last) (inputEdge i false false last) s

/-! ## Mains (R99, R100) -/

/-- The TEETH frames of a cycle: four teeth a frame, the first of the cycle flagged as the extra one. -/
def sendTeeth (p : Fin 3) : Nat → Bool → List SysTime → State → State
  | 0, _, _, s => s
  | k + 1, first, ts, s => match ts.take 4 with
    | [] => s
    | t :: rest =>
      let l := t :: rest
      let deltas := (List.zip l rest).flatMap fun (a, b) => leBytes 4 (b - a).toNat
      let s := upSend tTEETH ([BitVec.ofNat 8 p, BitVec.ofNat 8 (l.length + 16 * first.toNat)] ++ leBytes 8 t.toNat ++ deltas) s
      sendTeeth p k false (ts.drop 4) s

/-- The nominal times of the 25 teeth of the cycle of `cycle` units that begins at `t`: the crossing, then 7.5° + 15°·k. -/
def nominalTeeth (t : SysTime) (cycle : Nat) : List (SysTime × Nat) :=
  (t, 10737) :: (List.range 24).map fun k => (t + BitVec.ofNat 64 ((15 + 30 * k) * cycle / 720), 16106)

/-- The teeth's times as the tracker gives them: a free value within ±20 µs of the crossing and ±30 µs of each angle where
the distortion is at most 8 %, and any value beyond that (R100). -/
def openTeeth (thd : Byte) (s : State) : List (SysTime × Nat) → List SysTime × State
  | [] => ([], s)
  | (t, lim) :: l =>
    let (d, s) := s.draw
    let dev : Int := if thd.toNat ≤ 80 then (d.toNat % (2 * lim + 1) : Nat) - (lim : Int) else (d.setWidth 32).toInt
    let (ts, s) := openTeeth thd s l
    ((t + BitVec.ofInt 64 dev) :: ts, s)

/-- MAINS_ZERO_CROSSING (R99, R100): the fundamental of phase `p` crosses zero upwards at `t`; `rms` [0.1 V] and `freq`
[10 mHz] are those of the cycle that ends, `cycle` the length of the one that begins. -/
def execMainsZeroCrossing (p : Fin 3) (t : SysTime) (rms freq : BitVec 16) (thd : Byte) (cycle : Word) (s : State) : Result :=
  actWhen s.mfe.powered (fun s =>
    let x := s.mfe.phases[p]
    let present := if x.present then decide (600 ≤ rms.toNat) else decide (700 ≤ rms.toNat)
    let ok := decide (4500 ≤ freq.toNat) && decide (freq.toNat ≤ 6500)
    let x' := { x with rms := rms, freq := freq, thd := thd, present := present, freqOk := ok, cross := some t }
    let s := s.modM fun m => { m with phases := m.phases.set p x' }
    let s := upSend tMEASURE ([BitVec.ofNat 8 p, 0] ++ leBytes 2 rms.toNat ++ leBytes 2 freq.toNat ++
      [BitVec.ofNat 8 (present.toNat + 2 * ok.toNat)]) s
    if present ∧ ok then
      let (ts, s) := openTeeth thd s (nominalTeeth t cycle.toNat)
      sendTeeth p 7 true ts s
    else s) s

/-! ## Supply, heartbeat, STATUS -/

/-- MFE_BOOT (R80): within 200 ms of L1–N rising. -/
def execMfeBoot (s : State) : Result :=
  actWhen (!s.mfe.powered) (State.modM fun m => { Mfe.reset with powered := true, resets := m.resets }) s

/-- The registers that carry the MFE's measurements read 0 while it is unpowered (R93); a PRESENT or FREQ_OK that changes
raises source 99. BAR.OPTIME_n keeps what Table 02-8 says it keeps (DEDUCED, log entry 105). -/
def clearMeasurements (s : State) : State :=
  let changed := (List.range 3).any fun p => s.bit (F.BAR_MAINS_B_PRESENT p) || s.bit (F.BAR_MAINS_B_FREQ_OK p)
  let s := s.each (List.range 3) fun p s => (s.putReg (0x400C0060 + 8 * p) 0).putReg (0x400C0064 + 8 * p) 0
  (s.putReg 0x400C00B0 0).when (changed && s.clocked) (State.interrupt 99)

/-- MFE_SUPPLY_LOST (R79, R80): the MFE is reset, or unpowered; every output opens. -/
def execMfeSupplyLost (unpowered : Bool) (s : State) : Result :=
  actWhen s.mfe.powered (fun s =>
    (s.modM fun m =>
      { Mfe.reset with resets := if unpowered then 0 else if m.resets = 0xFFFF then m.resets else m.resets + 1 }).when
      unpowered clearMeasurements) s

/-- MFE_HEARTBEAT_LOST (R79): 1 ms without a valid frame; outputs hold their levels, SYNC is dropped (R85). A loss during
a hold begins a new one (R79). Requests outstanding fail: HV_EVENT and OPTIME
are held for another try, the others are lost and counted; those that waited were never sent and are not counted
(DESIGN CHOICE, log entry 105). -/
def execMfeHeartbeatLost (s : State) : Result :=
  actWhen (s.mfe.powered && s.mfe.link && decide (s.mfe.heard + usCycles 1000 ≤ s.mfe.clock)) (fun s =>
    (dropSchedule s).modM fun m => { m with
      link := false, hold := if m.failHeld then none else some s.mfe.clock, sync := false, inRun := 0, outRun := 0,
      heldUps := m.heldUps ++ ((m.ups ++ m.waiting).filter fun r => keptReport r.type),
      lost := BitVec.ofNat 16 (min 0xFFFF (m.lost.toNat + (m.ups.filter fun r => !keptReport r.type).length)),
      ups := [], waiting := [] }) s

/-- MFE_HOLD_END (R79): 100 ms after the heartbeat was lost, the fail state. -/
def execMfeHoldEnd (s : State) : Result :=
  actWhen s.mfe.powered (fun s => match s.mfe.hold with
    | none => s
    | some c => if c + usCycles 100000 ≤ s.mfe.clock then applyFail s else s) s

def Mfe.levels (m : Mfe) : Nat :=
  (List.finRange 12).foldl (fun w (i : Fin 12) => if m.outs[i].level then w + 2 ^ i.val else w) 0

def Mfe.hviLevels (m : Mfe) : Nat :=
  (List.finRange 4).foldl (fun w (i : Fin 4) => if m.ins[i].level then w + 2 ^ i.val else w) 0

/-- The flags of STATUS byte 7. -/
def Mfe.flags (m : Mfe) : Nat :=
  m.sync.toNat + 2 * m.failHeld.toNat + 4 * (!m.enabled).toNat + 8 * m.restarted.toNat + 16 * m.overtemp.toNat +
    32 * (m.outs.toList.any HvOut.tripped).toNat

/-- STATUS_FRAME_SEND (R80): `temp` and `overtemp` are what the HV side's sensor shows. -/
def execStatusFrameSend (temp : Byte) (overtemp : Bool) (s : State) : Result :=
  actWhen s.mfe.powered (State.modM fun m =>
    let m := { m with temp := temp, overtemp := overtemp }
    let body := [m.roms.headD 0, BitVec.ofNat 8 m.flags] ++ leBytes 2 m.levels ++ [BitVec.ofNat 8 m.hviLevels, 0] ++ leBytes 2 m.lost.toNat
    { m with statusSent := slice body 0 24, line := barFrame tSTATUS false 0 0 body }) s

/-! ## The MFE's own requests (R90–R92) -/

/-- A COMPLETION reaches the MFE. -/
def mfeCompletion (f : List Byte) (s : State) : Result :=
  downFrame f (· == tCOMPLETION) (fun s =>
    flushHeld (sendWaitingUps 16 (s.modM fun m => { m with ups := m.ups.filter fun r => r.seq != fRef f }))) s

/-- The MFE retransmits an UP request. -/
def mfeRetransmit (seq : BitVec 16) (s : State) : Result :=
  actWhen s.mfe.powered (fun s => match s.mfe.ups.find? fun r => r.seq == seq with
    | none => s
    | some r =>
      if r.sends < 4 ∧ r.last + retryCycles ≤ s.mfe.clock then
        sendUp r.type true seq 0 r.payload (s.modM fun m => { m with
          retries := if m.retries = 0xFFFF then m.retries else m.retries + 1,
          ups := m.ups.map fun x => if x.seq = seq then { x with sends := x.sends + 1, last := s.mfe.clock } else x })
      else s) s

/-- An UP request fails: counted, and HV_EVENT and OPTIME are sent again under a new SEQ. -/
def mfeTimeout (seq : BitVec 16) (s : State) : Result :=
  actWhen s.mfe.powered (fun s => match s.mfe.ups.find? fun r => r.seq == seq with
    | none => s
    | some r =>
      if s.mfe.clock < r.first + usCycles 200 then s
      else
        let s := s.modM fun m => { m with
          lost := if m.lost = 0xFFFF then m.lost else m.lost + 1, ups := m.ups.filter fun x => x.seq != seq }
        sendWaitingUps 16 (if keptReport r.type then upSend r.type r.payload s else s)) s

/-- COMPLETION (R91), received by the MFE or by the logic side. -/
def execCompletion (atMfe : Bool) (f : List Byte) (s : State) : Result :=
  if atMfe then mfeCompletion f s else nodeCompletion f s

/-- RETRANSMISSION (R90) by either side. -/
def execRetransmission (atMfe : Bool) (seq : BitVec 16) (s : State) : Result :=
  if atMfe then mfeRetransmit seq s else nodeRetransmit seq s

/-- REQUEST_TIMEOUT (R90, R92) of either side's request. -/
def execRequestTimeout (atMfe : Bool) (seq : BitVec 16) (s : State) : Result :=
  if atMfe then mfeTimeout seq s else nodeTimeout seq s

end Sys2Proof.Machine
end

