-- ==== Sys2Proof/Machine/Seconds.lean ====
section
/-! DEFINITION. What happens at a system second boundary: classification, time, the STATE record (R200, R441, R446). -/

namespace Sys2Proof.Machine

/-- Bytes 6–27 of a STATE record of UTC second `c` (Table 13-7). -/
def stateReport (c : Int) (s : State) : Report :=
  let b (x : Bool) (n : Nat) : Nat := x.toNat * 2 ^ n
  let head := match s.head with
    | some r => r.item.channel.toNat % 64
    | none => 0
  let t := s.timeState + b s.timeValid 3 + b s.isMaster 4
  let r := s.get F.RING_STATUS_INSERT + b (s.wrapped 0) 3 + b (s.wrapped 1) 4 + b (s.bit F.RING_STATUS_ISOLATED) 5
  let lines := s.lineState 0 + 16 * s.lineState 1
  { rkind := 0x04, part := 0,
    body := beBytes 1 t ++ beBytes 1 (s.get F.TIME_STATUS_MASTER_ADDR) ++ beBytes 1 r ++ beBytes 1 lines ++
      beBytes 2 (s.get F.WRK_AWQ_ACCEPTED) ++ beBytes 2 (s.get F.WRK_CUST_LIVE) ++ beBytes 2 (s.get F.WRK_CUST_UNACCEPTED) ++
      beBytes 2 s.rep.lapsedSinceState ++ beBytes 2 s.rep.refusedSinceState ++
      beBytes 1 (b (s.bit F.WRK_HEAD_BLOCKED) 7 + head) ++ [0] ++ beBytes 4 (BitVec.ofInt 32 c).toNat ++
      beBytes 2 s.rep.correctedSinceState }

/-- STATE is queued at each UTC second `c` with c mod 60 = address mod 60, in K8. -/
def queueState (s : State) : State :=
  let c := s.utcCount s.tim.second
  if s.inK8 ∧ c % 60 = ((s.address % 60 : Nat) : Int) then
    let s := s.queueReport (stateReport c s)
    { s with rep := { s.rep with correctedSinceState := 0, lapsedSinceState := 0, refusedSinceState := 0 } }
  else s

/-- SECOND (R200): the second in progress ends, the next begins. -/
def execSecond (s : State) : Result :=
  actWhen (s.clocked && decide (s.tim.second < s.now.toNat / second)) (fun s =>
    let s := secondEnds (s.utcCount s.tim.second) s.timeValid s
    let s := s.modWork fun w => { w with fullRaised := false, cellRaised := false }
    queueState (secondBoundary s)) s

/-- BIN_CLOSE (R446): once the second in which the bins fall due has begun. -/
def execBinClose (s : State) : Result :=
  actWhen s.clocked (fun s => closeDue (s.utcCount s.tim.second) s.timeValid s) s

end Sys2Proof.Machine
end

