-- ==== Sys2Proof/Machine/Sinter.lean ====
section
/-! DEFINITION. Freeze, the TAP and the Sinter chain (15.9, 15.10). The TAP runs from TCK alone, so its commands act
whatever the node's own clocks do. -/

namespace Sys2Proof.Machine

/-! ## Freeze and resume (R504–R510) -/

/-- B1 and B2 of Table 15-10: LEAVING, then the insertion request is withdrawn. -/
def bypassFirst (s : State) : State := withdraw (setLeaving s)

/-- A FATAL fault accepted and not yet acted on when the freeze comes: steps 1 and 2 of Table 15-6 go first (R514), without
the halt where FREEZE_ON_FATAL is 1 (R507). -/
def calderaBeforeFreeze (s : State) : State :=
  match s.col.cause with
  | none => s
  | some r =>
    if s.node.phase = .caldera then s
    else if s.bit F.FLT_CFG_FREEZE_ON_FATAL then (calderaOutputs r s).modNode fun x => { x with afterFreeze := true }
    else calderaHalt (calderaOutputs r s)

/-- The clocks stop in the order of Table 15-10. -/
def freezeNode (s : State) : State :=
  let first := !s.bit F.IDENT_STRAPS_FRZB
  stopClocks first false ((calderaBeforeFreeze s).when first bypassFirst)

/-- FREEZE (R504, R505): FRZ_N has been low for 10 µs. At a reset the request waits for K0; during a PWRFAIL sequence it is
not acted on (R510). -/
def execFreeze (s : State) : Result :=
  actWhen (s.node.pwr == .none && s.node.freeze == .running) (fun s =>
    if s.node.heldInReset ∨ s.node.phase = .k0 then s.modNode fun x => { x with frzLow := true } else freezeNode s) s

def State.frozen (s : State) : Bool := decide (s.node.freeze = .frozen)

/-- Capture-IR loads 0b0000_0F01 (R508), F in bit 2, then the instruction register takes `op`. -/
def tapInstruction (op : BitVec 8) (s : State) : State :=
  s.modNode fun x => { x with tapOut := if s.frozen then 0x05 else 0x01, tapIr := op }

/-- SINTER_RESUME (R509): Run-Test/Idle with the instruction. `frzHigh`: FRZ_N has been high for 10 µs. -/
def execSinterResume (frzHigh : Bool) (s : State) : Result :=
  .next (let s := tapInstruction 0x41 s
    if !s.frozen then s
    else if frzHigh then resumeNode 0x01 kPROTOCOL s
    else s.modNode fun x => { x with resumeRefused := true })

/-! ## The Sinter register (R511, Table 15-13) -/

def sinterNode (s : State) : Nat → Option Nat
  | 0 => some (s.frozen.toNat + 2 * s.node.frzBypassFirst.toNat + 4 * s.node.frzOnFatal.toNat + 8 * s.node.memaccWritten.toNat +
      16 * s.node.resumeRefused.toNat + 32 * (s.node.coreFailed || s.node.auxFailed).toNat)
  | 1 => some (s.now.extractLsb' 0 32).toNat
  | 2 => some (s.now.extractLsb' 32 32).toNat
  | 3 => some s.kinStatus.toNat
  | _ => none

def Flags.nibble (f : Flags) : Nat := f.z.toNat + 2 * f.n.toNat + 4 * f.c.toNat + 8 * f.v.toNat

/-- One shadow frame: its two words. -/
def Frame.sinter (f : Frame) (second : Bool) : Nat :=
  if second then f.source
  else f.pc.toNat + 2 ^ 16 * f.flags.nibble + 2 ^ 20 * f.inTask.toNat + 2 ^ 21 * f.budgetRunning.toNat

/-- SIZE of a store, as its instruction codes it. -/
def sizeCode (n : Nat) : Nat := if n = 1 then 0 else if n = 2 then 1 else if n = 4 then 2 else 3

/-- One store-buffer entry: its four words. -/
def StoreEntry.sinter (t : StoreEntry) : Nat → Nat
  | 0 => t.addr.toNat
  | 1 => (t.data.extractLsb' 0 32).toNat
  | 2 => (t.data.extractLsb' 32 32).toNat
  | _ => sizeCode t.size + 256

/-- Ember `e`'s segment; the stacks and the buffer stand oldest first, and an unused entry reads 0. -/
def sinterEmber (e : Fin 4) (w : Nat) (s : State) : Option Nat :=
  let m := s.emb[e]
  let x := (s.csWord (s.get F.HRT_SWAP_ACTIVE_PAGE) m.pc.toNat).toNat
  if h : w < 32 then some m.w[w].toNat
  else if w = 32 then some m.flags.nibble
  else if w = 33 then
    some (m.pc.toNat + 2 ^ 16 * m.inTask.toNat + 2 ^ 17 * m.excActive.toNat + 2 ^ 18 * m.frames.length + 2 ^ 21 * m.sbuf.length +
      2 ^ 25 * m.stall.isSome.toNat + 2 ^ 26 * m.slot.val)
  else if w = 34 then some (min (2 ^ 20) ((m.stall.map Stall.cycles).getD 0))
  else if w < 43 then some (m.rstack.reverse.getD (w - 35) 0).toNat
  else if w = 43 then some m.rstack.length
  else if w < 52 then some ((m.frames.reverse[(w - 44) / 2]?.map fun f => f.sinter (w % 2 == 1)).getD 0)
  else if w = 52 then some (s.peek (F.EMB_RUNCYC_CYCLES e).addr).toNat
  else if w < 56 then some (x / 2 ^ (32 * (w - 53)) % 2 ^ 32)
  else if w < 88 then some ((m.sbuf[(w - 56) / 4]?.map fun t => t.sinter ((w - 56) % 4)).getD 0)
  else none

/-- The collector's segment. -/
def sinterCollector (w : Nat) (s : State) : Option Nat :=
  if w < 64 then
    some ((s.col.queue[w / 2]?.map fun m => (if w % 2 = 0 then m.2.message.extractLsb' 0 32 else m.2.message.extractLsb' 32 32).toNat).getD 0)
  else if w < 96 then some (s.peek (0x400D0040 + 4 * (w - 64))).toNat
  else none

/-- What Sinter finds at (SEG, WORD); none where the address holds nothing. -/
def State.sinterAt (seg word : Nat) (s : State) : Option Nat :=
  if seg = 0 then sinterNode s word
  else if 0x10 ≤ seg ∧ seg < 0x14 then sinterEmber (Fin.ofNat 4 (seg - 0x10)) word s
  else if 0x30 ≤ seg ∧ seg < 0x32 then
    (if word < 24576 then some ((s.csWord (seg - 0x30) (word / 3)).toNat / 2 ^ (32 * (word % 3)) % 2 ^ 32) else none)
  else if seg = 0x40 then sinterCollector word s
  else if 0x400 ≤ seg ∧ seg < 0x410 ∧ word < 0x4000 then
    let a := 0x40000000 + 0x10000 * (seg - 0x400) + 4 * word
    (F.fieldsAt a).map fun _ => (s.peek a).toNat
  else none

/-- Capture-DR of the Sinter register. While the node is not frozen it loads all ones, and the address stays. -/
def sinterCapture (s : State) : State :=
  if !s.frozen then s.modNode fun x => { x with sinterData := BitVec.allOnes 64 }
  else
    let x := s.node
    let word := x.sinterWord.setWidth 32
    let d : BitVec 64 := match s.sinterAt x.sinterSeg.toNat x.sinterWord.toNat with
      | some v => x.sinterSeg ++ x.sinterWord ++ BitVec.ofNat 32 v
      | none => (0xFFFF : BitVec 16) ++ word.setWidth 16 ++ (0 : Word)
    s.modNode fun x => { x with sinterData := d, sinterWord := x.sinterWord + 1 }

/-- SINTER_READ (R511): one scan sets the address, and the next Capture-DR reads it. -/
def execSinterRead (seg word : BitVec 16) (s : State) : Result :=
  .next (sinterCapture ((tapInstruction 0x40 s).modNode fun x => { x with sinterSeg := seg, sinterWord := word }))

/-! ## MEMACC (R512) -/

/-- The memory register as Capture-DR loads it. -/
def memaccWord (err corr uncorr off : Bool) (addr : BitVec 20) (data : BitVec 64) : BitVec 96 :=
  BitVec.ofBool err ++ BitVec.ofBool corr ++ BitVec.ofBool uncorr ++ BitVec.ofBool off ++ (0 : BitVec 8) ++ addr ++ data

/-- The data of a read that gives none is free (log entry 4). -/
def memaccFail (write uncorr off : Bool) (addr : BitVec 20) (data : BitVec 64) (s : State) : State :=
  let (v, s) := if write then (data, s) else s.draw
  s.modNode fun x => { x with memacc := memaccWord (!uncorr) false uncorr off addr v }

/-- One access of one 64-bit word. -/
def memaccAccess (write : Bool) (addr : BitVec 20) (data : BitVec 64) (s : State) : State :=
  let a := addr.toNat
  let p := s.fold a
  let off := decide (a < spmTop) && !s.bankOn (bankOf p)
  if !s.frozen ∨ a % 8 ≠ 0 ∨ spmTop ≤ a ∨ off then memaccFail write false off addr data s
  else if write then
    (s.spmStore p (leBytes 8 data.toNat)).modNode fun x =>
      { x with memacc := memaccWord false false false false addr data, memaccWritten := true }
  else match tabGet none s.spm.ecc p with
    | some .double => memaccFail false true false addr data s
    | e => s.modNode fun x =>
      { x with memacc := memaccWord false e.isSome false false addr (BitVec.ofNat 64 (ofLe (s.bytesAt p 8))) }

/-- MEMACC (R512): an access while frozen. -/
def execMemacc (write : Bool) (addr : BitVec 20) (data : BitVec 64) (s : State) : Result :=
  .next (memaccAccess write addr data (tapInstruction 0x42 s))

/-! ## Boundary scan (R508, Table 15-12) -/

/-- The level of cell `i` that the node itself gives; none for a cell captured from its terminal. The serial lines of a
drop port are captured as they stand on the terminals. -/
def State.cellOut (i : Nat) (s : State) : Option Bool :=
  if 32 ≤ i ∧ i < 64 then some ((s.drive (Fin.ofNat 64 (i - 32))).getD false)
  else if 64 ≤ i ∧ i < 96 then some (s.drive (Fin.ofNat 64 (i - 64))).isSome
  else if 112 ≤ i ∧ i < 128 then some (s.drive (Fin.ofNat 64 (i - 80)) == some true)
  else if i = 146 then some (!s.fltnLow)
  else if i = 148 then some s.ppsPin
  else none

/-- Capture-DR of the boundary register, over the terminals' levels. -/
def State.captureCells (pins : BitVec 149) (s : State) : BitVec 149 :=
  (List.range 149).foldl (fun w i => if (s.cellOut i).getD (pins.getLsbD i) then w ||| BitVec.twoPow 149 i else w) 0

/-- One scan: the cells capture, and Update-DR takes what was shifted in. -/
def boundaryScan (pins shift : BitVec 149) (s : State) : State :=
  let c := s.captureCells pins
  s.modNode fun x => { x with boundary := c, preload := shift }

/-- The output cells drive the terminals: EXTEST, and only while frozen. -/
def State.extestDrives (s : State) : Bool := s.frozen && decide (s.node.tapIr = 0x00)

/-- Cells that EXTEST drives (Table 15-12). -/
def drivenCell (i : Nat) : Bool :=
  decide (32 ≤ i ∧ i < 96) || decide (112 ≤ i ∧ i < 128) || (decide (128 ≤ i ∧ i < 136) && i % 4 != 3) || i == 146 || i == 148

/-- What stands at the terminal side of output cell `i`. -/
def State.terminalOut (i : Nat) (s : State) : Bool :=
  if s.extestDrives && drivenCell i then s.node.preload.getLsbD i else (s.cellOut i).getD false

/-- EXTEST (R508). -/
def execExtest (pins shift : BitVec 149) (s : State) : Result := .next (boundaryScan pins shift (tapInstruction 0x00 s))

/-- SAMPLE/PRELOAD (R508). -/
def execSamplePreload (pins shift : BitVec 149) (s : State) : Result := .next (boundaryScan pins shift (tapInstruction 0x01 s))

/-- BYPASS (R508). -/
def execBypass (s : State) : Result := .next (tapInstruction 0xFF s)

end Sys2Proof.Machine
end

