-- ==== Sys2Proof/Machine/Dispatch.lean ====
section
/-! DEFINITION. The effect of each command: one arm per constructor, each one call of its meaning. -/

namespace Sys2Proof.Machine

def exec (i : Instr) (s : State) : Host.Outcome State Fault Refusal :=
  match i with
  | .powerOn low vbulk vaux conv off resetLow holdLow => Sys2Proof.Machine.execPowerOn low vbulk vaux conv off resetLow holdLow s
  | .resetN => Sys2Proof.Machine.execResetN s
  | .resetNRelease => Sys2Proof.Machine.execResetNRelease s
  | .calderaExit => Sys2Proof.Machine.execCalderaExit s
  | .warmRestart fails rewriteBad bad => Sys2Proof.Machine.execWarmRestart fails rewriteBad bad s
  | .k0 => Sys2Proof.Machine.execK0 s
  | .k1 sets => Sys2Proof.Machine.execK1 sets s
  | .plugAbsent => Sys2Proof.Machine.execPlugAbsent s
  | .k2 fails => Sys2Proof.Machine.execK2 fails s
  | .k3 bad => Sys2Proof.Machine.execK3 bad s
  | .k4 => Sys2Proof.Machine.execK4 s
  | .k5 bad => Sys2Proof.Machine.execK5 bad s
  | .k6 => Sys2Proof.Machine.execK6 s
  | .mfeAbsent => Sys2Proof.Machine.execMfeAbsent s
  | .k7 => Sys2Proof.Machine.execK7 s
  | .k8 => Sys2Proof.Machine.execK8 s
  | .pwrfail vbulk => Sys2Proof.Machine.execPwrfail vbulk s
  | .pwrfailHalt => Sys2Proof.Machine.execPwrfailHalt s
  | .pwrfailHeartbeatStop => Sys2Proof.Machine.execPwrfailHeartbeatStop s
  | .plugInserted mem rdid rdsr => Sys2Proof.Machine.execPlugInserted mem rdid rdsr s
  | .plugRemoved => Sys2Proof.Machine.execPlugRemoved s
  | .plugHold => Sys2Proof.Machine.execPlugHold s
  | .plugHoldRelease patch => Sys2Proof.Machine.execPlugHoldRelease patch s
  | .heartbeatLost => Sys2Proof.Machine.execHeartbeatLost s
  | .coilEnergise => Sys2Proof.Machine.execCoilEnergise s
  | .switchMismatch => Sys2Proof.Machine.execSwitchMismatch s
  | .mfeBoot => Sys2Proof.Machine.execMfeBoot s
  | .mfeHeartbeatLost => Sys2Proof.Machine.execMfeHeartbeatLost s
  | .mfeHoldEnd => Sys2Proof.Machine.execMfeHoldEnd s
  | .hello f => Sys2Proof.Machine.execHello f s
  | .failstate f => Sys2Proof.Machine.execFailstate f s
  | .schedule f => Sys2Proof.Machine.execSchedule f s
  | .barrierCancel f => Sys2Proof.Machine.execBarrierCancel f s
  | .setNow f => Sys2Proof.Machine.execSetNow f s
  | .timeFrame f transit => Sys2Proof.Machine.execTimeFrame f transit s
  | .config f => Sys2Proof.Machine.execConfig f s
  | .barrierQuery f => Sys2Proof.Machine.execBarrierQuery f s
  | .failnow f => Sys2Proof.Machine.execFailnow f s
  | .gate k => Sys2Proof.Machine.execGate k s
  | .overcurrent k => Sys2Proof.Machine.execOvercurrent k s
  | .hviOn k first later below => Sys2Proof.Machine.execHviOn k first later below s
  | .hviOff k last => Sys2Proof.Machine.execHviOff k last s
  | .completion atMfe f => Sys2Proof.Machine.execCompletion atMfe f s
  | .statusFrame f => Sys2Proof.Machine.execStatusFrame f s
  | .teeth f => Sys2Proof.Machine.execTeeth f s
  | .hvEvent f => Sys2Proof.Machine.execHvEvent f s
  | .measure f => Sys2Proof.Machine.execMeasure f s
  | .optime f => Sys2Proof.Machine.execOptime f s
  | .retransmission atMfe seq => Sys2Proof.Machine.execRetransmission atMfe seq s
  | .requestTimeout atMfe seq => Sys2Proof.Machine.execRequestTimeout atMfe seq s
  | .linkDown => Sys2Proof.Machine.execLinkDown s
  | .handshake => Sys2Proof.Machine.execHandshake s
  | .mailboxRequest v => Sys2Proof.Machine.execMailboxRequest v s
  | .transfer v => Sys2Proof.Machine.execTransfer v s
  | .transferEnd => Sys2Proof.Machine.execTransferEnd s
  | .imageOffer => Sys2Proof.Machine.execImageOffer s
  | .chunk => Sys2Proof.Machine.execChunk s
  | .imageStatus => Sys2Proof.Machine.execImageStatus s
  | .beacon => Sys2Proof.Machine.execBeacon s
  | .offerRound => Sys2Proof.Machine.execOfferRound s
  | .needReport => Sys2Proof.Machine.execNeedReport s
  | .arming => Sys2Proof.Machine.execArming s
  | .preload => Sys2Proof.Machine.execPreload s
  | .draining => Sys2Proof.Machine.execDraining s
  | .pageSwap => Sys2Proof.Machine.execPageSwap s
  | .ppsInEdge t => Sys2Proof.Machine.execPpsInEdge t s
  | .srcLabel v => Sys2Proof.Machine.execSrcLabel v s
  | .softSubmission v => Sys2Proof.Machine.execSoftSubmission v s
  | .sourceInvalid => Sys2Proof.Machine.execSourceInvalid s
  | .step => Sys2Proof.Machine.execStep s
  | .locked => Sys2Proof.Machine.execLocked s
  | .holdoverExpired => Sys2Proof.Machine.execHoldoverExpired s
  | .announce v => Sys2Proof.Machine.execAnnounce v s
  | .second => Sys2Proof.Machine.execSecond s
  | .refFail => Sys2Proof.Machine.execRefFail s
  | .coreUnlock => Sys2Proof.Machine.execCoreUnlock s
  | .auxUnlock => Sys2Proof.Machine.execAuxUnlock s
  | .rtcFail => Sys2Proof.Machine.execRtcFail s
  | .insert e d a b t ch => Sys2Proof.Machine.execInsert e d a b t ch s
  | .cancel e d t ch => Sys2Proof.Machine.execCancel e d t ch s
  | .flush c => Sys2Proof.Machine.execFlush c s
  | .channelEnable c v => Sys2Proof.Machine.execChannelEnable c v s
  | .dueKey c => Sys2Proof.Machine.execDueKey c s
  | .forward c => Sys2Proof.Machine.execForward c s
  | .hvEntryBegin c => Sys2Proof.Machine.execHvEntryBegin c s
  | .periodBoundary c => Sys2Proof.Machine.execPeriodBoundary c s
  | .apply g => Sys2Proof.Machine.execApply g s
  | .planesWrite g v => Sys2Proof.Machine.execPlanesWrite g v s
  | .planeBoundary g => Sys2Proof.Machine.execPlaneBoundary g s
  | .edge c level t => Sys2Proof.Machine.execEdge c level t s
  | .tooth w => Sys2Proof.Machine.execTooth w s
  | .stall w => Sys2Proof.Machine.execStall w s
  | .syntheticToothPush w hi => Sys2Proof.Machine.execSyntheticToothPush w hi s
  | .fifoFlush w => Sys2Proof.Machine.execFifoFlush w s
  | .resync w => Sys2Proof.Machine.execResync w s
  | .wheelEnable w v => Sys2Proof.Machine.execWheelEnable w v s
  | .headArming c => Sys2Proof.Machine.execHeadArming c s
  | .storeDrain e dual others => Sys2Proof.Machine.execStoreDrain e dual others s
  | .exception e c addr => Sys2Proof.Machine.execException e c addr s
  | .watchdog e => Sys2Proof.Machine.execWatchdog e s
  | .budgetWarn e => Sys2Proof.Machine.execBudgetWarn e s
  | .budgetAbort e => Sys2Proof.Machine.execBudgetAbort e s
  | .interrupt => Sys2Proof.Machine.execInterrupt s
  | .dispatch => Sys2Proof.Machine.execDispatch s
  | .ready m => Sys2Proof.Machine.execReady m s
  | .unready m => Sys2Proof.Machine.execUnready m s
  | .restart e => Sys2Proof.Machine.execRestart e s
  | .timerFire k => Sys2Proof.Machine.execTimerFire k s
  | .scrub => Sys2Proof.Machine.execScrub s
  | .csScrubbed => Sys2Proof.Machine.execCsScrubbed s
  | .csUncorr => Sys2Proof.Machine.execCsUncorr s
  | .movi e d imm => Sys2Proof.Machine.execMovi e d imm s
  | .mov e d a => Sys2Proof.Machine.execMov e d a s
  | .nop e => Sys2Proof.Machine.execNop e s
  | .add e d a b => Sys2Proof.Machine.execAdd e d a b s
  | .addi e d a imm => Sys2Proof.Machine.execAddi e d a imm s
  | .adc e d a b => Sys2Proof.Machine.execAdc e d a b s
  | .adci e d a imm => Sys2Proof.Machine.execAdci e d a imm s
  | .sub e d a b => Sys2Proof.Machine.execSub e d a b s
  | .subi e d a imm => Sys2Proof.Machine.execSubi e d a imm s
  | .sbc e d a b => Sys2Proof.Machine.execSbc e d a b s
  | .sbci e d a imm => Sys2Proof.Machine.execSbci e d a imm s
  | .and e d a b => Sys2Proof.Machine.execAnd e d a b s
  | .andi e d a imm => Sys2Proof.Machine.execAndi e d a imm s
  | .or e d a b => Sys2Proof.Machine.execOr e d a b s
  | .ori e d a imm => Sys2Proof.Machine.execOri e d a imm s
  | .xor e d a b => Sys2Proof.Machine.execXor e d a b s
  | .xori e d a imm => Sys2Proof.Machine.execXori e d a imm s
  | .andn e d a b => Sys2Proof.Machine.execAndn e d a b s
  | .andni e d a imm => Sys2Proof.Machine.execAndni e d a imm s
  | .cmp e a b => Sys2Proof.Machine.execCmp e a b s
  | .cmpi e a imm => Sys2Proof.Machine.execCmpi e a imm s
  | .tst e a b => Sys2Proof.Machine.execTst e a b s
  | .tsti e a imm => Sys2Proof.Machine.execTsti e a imm s
  | .min e d a b => Sys2Proof.Machine.execMin e d a b s
  | .mini e d a imm => Sys2Proof.Machine.execMini e d a imm s
  | .max e d a b => Sys2Proof.Machine.execMax e d a b s
  | .maxi e d a imm => Sys2Proof.Machine.execMaxi e d a imm s
  | .minu e d a b => Sys2Proof.Machine.execMinu e d a b s
  | .minui e d a imm => Sys2Proof.Machine.execMinui e d a imm s
  | .maxu e d a b => Sys2Proof.Machine.execMaxu e d a b s
  | .maxui e d a imm => Sys2Proof.Machine.execMaxui e d a imm s
  | .lsl e d a b => Sys2Proof.Machine.execLsl e d a b s
  | .lsli e d a k => Sys2Proof.Machine.execLsli e d a k s
  | .lsr e d a b => Sys2Proof.Machine.execLsr e d a b s
  | .lsri e d a k => Sys2Proof.Machine.execLsri e d a k s
  | .asr e d a b => Sys2Proof.Machine.execAsr e d a b s
  | .asri e d a k => Sys2Proof.Machine.execAsri e d a k s
  | .ror e d a b => Sys2Proof.Machine.execRor e d a b s
  | .rori e d a k => Sys2Proof.Machine.execRori e d a k s
  | .bfx e d a pos len1 => Sys2Proof.Machine.execBfx e d a pos len1 s
  | .bfi e d a pos len1 => Sys2Proof.Machine.execBfi e d a pos len1 s
  | .clz e d a => Sys2Proof.Machine.execClz e d a s
  | .popc e d a => Sys2Proof.Machine.execPopc e d a s
  | .mul e d a b => Sys2Proof.Machine.execMul e d a b s
  | .mulu e d a b => Sys2Proof.Machine.execMulu e d a b s
  | .muls e d a b => Sys2Proof.Machine.execMuls e d a b s
  | .dstep e d a n => Sys2Proof.Machine.execDstep e d a n s
  | .sincos e d a => Sys2Proof.Machine.execSincos e d a s
  | .atan2 e d a b => Sys2Proof.Machine.execAtan2 e d a b s
  | .sqrt e d a => Sys2Proof.Machine.execSqrt e d a s
  | .ld e d a imm size signed others => Sys2Proof.Machine.execLd e d a imm size signed others s
  | .st e a b imm size => Sys2Proof.Machine.execSt e a b imm size s
  | .fence e => Sys2Proof.Machine.execFence e s
  | .time e d => Sys2Proof.Machine.execTime e d s
  | .who e d => Sys2Proof.Machine.execWho e d s
  | .shift e d g a n1 => Sys2Proof.Machine.execShift e d g a n1 s
  | .wpos e d w => Sys2Proof.Machine.execWpos e d w s
  | .wpred e d b w => Sys2Proof.Machine.execWpred e d b w s
  | .bsend e d a type => Sys2Proof.Machine.execBsend e d a type s
  | .gstart e d g a => Sys2Proof.Machine.execGstart e d g a s
  | .doorbell e d => Sys2Proof.Machine.execDoorbell e d s
  | .yield e => Sys2Proof.Machine.execYield e s
  | .wait e a fn => Sys2Proof.Machine.execWait e a fn s
  | .b e c t => Sys2Proof.Machine.execB e c t s
  | .call e c t => Sys2Proof.Machine.execCall e c t s
  | .jr e a => Sys2Proof.Machine.execJr e a s
  | .ret e => Sys2Proof.Machine.execReturn e s
  | .reti e => Sys2Proof.Machine.execReti e s
  | .eret e => Sys2Proof.Machine.execEret e s
  | .bz e a t => Sys2Proof.Machine.execBz e a t s
  | .bnz e a t => Sys2Proof.Machine.execBnz e a t s
  | .dbnz e a t => Sys2Proof.Machine.execDbnz e a t s
  | .latSet k v => Sys2Proof.Machine.execLatSet k v s
  | .writeBack a => Sys2Proof.Machine.execWriteBack a s
  | .powerWrite hi v reached => Sys2Proof.Machine.execPowerWrite hi v reached s
  | .bankOn b => Sys2Proof.Machine.execBankOn b s
  | .march preserve banks => Sys2Proof.Machine.execMarch preserve banks s
  | .marchDone fails => Sys2Proof.Machine.execMarchDone fails s
  | .geyserGo g => Sys2Proof.Machine.execGeyserGo g s
  | .resume g => Sys2Proof.Machine.execResume g s
  | .abort g moved => Sys2Proof.Machine.execAbort g moved s
  | .descriptorComplete g => Sys2Proof.Machine.execDescriptorComplete g s
  | .busStop g moved => Sys2Proof.Machine.execBusStop g moved s
  | .frameReceived p full stamp power f bad corr => Sys2Proof.Machine.execFrameReceived p full stamp power f bad corr s
  | .frameBuilt p stamp slips => Sys2Proof.Machine.execFrameBuilt p stamp slips s
  | .defectDeclared p d power => Sys2Proof.Machine.execDefectDeclared p d power s
  | .defectCleared p d => Sys2Proof.Machine.execDefectCleared p d s
  | .trainingStep p => Sys2Proof.Machine.execTrainingStep p s
  | .fallback p => Sys2Proof.Machine.execFallback p s
  | .retrain p write => Sys2Proof.Machine.execRetrain p write s
  | .slip p fill => Sys2Proof.Machine.execSlip p fill s
  | .masterSlip p again align => Sys2Proof.Machine.execMasterSlip p again align s
  | .wrap p => Sys2Proof.Machine.execWrap p s
  | .wtrDone p => Sys2Proof.Machine.execWtrDone p s
  | .unwrap p => Sys2Proof.Machine.execUnwrap p s
  | .insertionRequest => Sys2Proof.Machine.execInsertionRequest s
  | .insertFailed => Sys2Proof.Machine.execInsertFailed s
  | .backoff => Sys2Proof.Machine.execBackoff s
  | .bypassReq v => Sys2Proof.Machine.execBypassReq v s
  | .swap => Sys2Proof.Machine.execSwap s
  | .copy => Sys2Proof.Machine.execCopy s
  | .copyDone => Sys2Proof.Machine.execCopyDone s
  | .swapCancel => Sys2Proof.Machine.execSwapCancel s
  | .cmData write v => Sys2Proof.Machine.execCmData write v s
  | .txdFrame p => Sys2Proof.Machine.execTxdFrame p s
  | .rxdFrame p b => Sys2Proof.Machine.execRxdFrame p b s
  | .binClose => Sys2Proof.Machine.execBinClose s
  | .perfSel v => Sys2Proof.Machine.execPerfSel v s
  | .origination v => Sys2Proof.Machine.execOrigination v s
  | .custodyFull => Sys2Proof.Machine.execCustodyFull s
  | .recordCommit fails => Sys2Proof.Machine.execRecordCommit fails s
  | .offer => Sys2Proof.Machine.execOffer s
  | .report => Sys2Proof.Machine.execReport s
  | .query => Sys2Proof.Machine.execQuery s
  | .retry slot t => Sys2Proof.Machine.execRetry slot t s
  | .poll slot t => Sys2Proof.Machine.execPoll slot t s
  | .expires slot => Sys2Proof.Machine.execExpires slot s
  | .chInsert => Sys2Proof.Machine.execChInsert s
  | .chCancel => Sys2Proof.Machine.execChCancel s
  | .setValue => Sys2Proof.Machine.execSetValue s
  | .activateImage => Sys2Proof.Machine.execActivateImage s
  | .headRetry => Sys2Proof.Machine.execHeadRetry s
  | .abandon v => Sys2Proof.Machine.execAbandon v s
  | .faultMessage => Sys2Proof.Machine.execFaultMessage s
  | .warned k => Sys2Proof.Machine.execWarned k s
  | .escalation k => Sys2Proof.Machine.execEscalation k s
  | .ack v => Sys2Proof.Machine.execAck v s
  | .clearFirst => Sys2Proof.Machine.execClearFirst s
  | .pulseEnd => Sys2Proof.Machine.execPulseEnd s
  | .arm v => Sys2Proof.Machine.execArm v s
  | .selfParity off => Sys2Proof.Machine.execSelfParity off s
  | .caldera bad => Sys2Proof.Machine.execCaldera bad s
  | .freeze => Sys2Proof.Machine.execFreeze s
  | .sinterResume frzHigh => Sys2Proof.Machine.execSinterResume frzHigh s
  | .sinterRead seg word => Sys2Proof.Machine.execSinterRead seg word s
  | .memacc write addr data => Sys2Proof.Machine.execMemacc write addr data s
  | .extest pins shift => Sys2Proof.Machine.execExtest pins shift s
  | .samplePreload pins shift => Sys2Proof.Machine.execSamplePreload pins shift s
  | .bypass => Sys2Proof.Machine.execBypass s
  | .latchedRead m a => Sys2Proof.Machine.execLatchedRead m a s
  | .clearingRead m a => Sys2Proof.Machine.execClearingRead m a s
  | .registerWrite m a v => Sys2Proof.Machine.execRegisterWrite m a v s
  | .mfeSupplyLost unpowered => Sys2Proof.Machine.execMfeSupplyLost unpowered s
  | .mainsZeroCrossing p t rms freq thd cycle => Sys2Proof.Machine.execMainsZeroCrossing p t rms freq thd cycle s
  | .timeFrameSend => Sys2Proof.Machine.execTimeFrameSend s
  | .statusFrameSend temp overtemp => Sys2Proof.Machine.execStatusFrameSend temp overtemp s
  | .switchPosition inserted => Sys2Proof.Machine.execSwitchPosition inserted s
  | .txFail p power => Sys2Proof.Machine.execTxFail p power s
  | .rtcLost => Sys2Proof.Machine.execRtcLost s
  | .ppsOutFall => Sys2Proof.Machine.execPpsOutFall s
  | .beaconSend => Sys2Proof.Machine.execBeaconSend s
  | .spent slot => Sys2Proof.Machine.execSpent slot s

end Sys2Proof.Machine
end

