-- ==== Sys2Proof/Machine/Tick.lean ====
section
/-! DEFINITION. One CORE cycle in which no command is taken: what the node counts whatever happens (log entry 9). Everything
else that time brings is a command of its own. -/

namespace Sys2Proof.Machine

/-- The RTC counts unless the node is frozen or it has lost its supply (R177, R197). -/
def tickRtc (s : State) : State :=
  if s.node.freeze = .frozen ∨ s.tim.rtcLost then s
  else { s with tim := { s.tim with rtc := s.tim.rtc + 1 } }

/-- The MFE's own clock and its copy of system time (R85). -/
def tickMfe (s : State) : State :=
  if s.mfe.powered then
    { s with mfe := { s.mfe with clock := s.mfe.clock + 1, time := s.mfe.time.map fun t => t + 1 } }
  else s

/-- A cycle is charged to Ember `e`'s task: on the Ember, and no handler runs (R290). -/
def State.charged (e : Fin 4) (s : State) : Bool :=
  s.inK8 && s.emb[e].inTask && !s.emb[e].halted && s.emb[e].frames.isEmpty && !s.emb[e].excActive

/-- RUNCYC and the count of the present stall (R279, R290). -/
def tickEmber (e : Fin 4) (s : State) : State :=
  let s := if s.charged e then s.count (F.EMB_RUNCYC_CYCLES e) 1 else s
  s.modE e fun m => { m with stall := m.stall.map fun x => { x with cycles := x.cycles + 1 } }

/-- Escalation timers of the pending table (R488, R491). -/
def tickPending (s : State) : State :=
  if s.escRuns then
    { s with col := { s.col with pend := s.col.pend.map fun p => p.map fun x => { x with left := x.left - 1 } } }
  else s

/-- The leaky buckets of Geyser (R371). -/
def tickGeyser (s : State) : State :=
  { s with gsr := Vector.ofFn fun g : Fin 8 =>
      { s.gsr[g] with credit := min (s.gsr[g].credit + s.get (F.GSR_RATE_RATE g)) (256 * max 1 (s.get (F.GSR_RATE_BURST g))) } }

/-- System time increases by exactly 1 in every CORE cycle (R179); it holds while a clock has failed (R501). -/
def tickTime (s : State) : State :=
  let s := { s with cycles := s.cycles + 1 }
  if s.node.coreFailed ∨ s.node.auxFailed ∨ s.node.phase = .k0 then s else { s with now := s.now + 1 }

/-- What the world outside may change in any cycle and no command of the table brings: V24 and the field outputs turned off
by overtemperature (R29), and, as the power monitor sees them, VBULK, VAUX and the converter (R66, R93). Each is free (log
entry 104). -/
def tickOutside (s : State) : State :=
  let (v, s) := s.draw
  let s := s.modNode fun x => { x with v24 := v.getLsbD 0, hot := v.extractLsb' 16 16 }
  if s.clocked then
    ((s.put F.BAR_SUPPLY_VBULK (v.extractLsb' 32 16).toNat).putBit F.BAR_SUPPLY_VAUX_OK (v.getLsbD 1)).putBit
      F.BAR_SUPPLY_CONV_OK (v.getLsbD 2)
  else s

/-- Step 8 of Table 02-4: 30 ms after PWRFAIL the logic side is held in reset (R72, R73). -/
def tickPower (s : State) : State :=
  if s.node.pwr = .stopped ∧ s.pwrPast 30 then
    s.modNode fun x => { x with pwr := .complete, heldInReset := true, lvOn := false }
  else s

/-- One CORE cycle. Frozen, only the MFE goes on; held in reset, the RTC and the cycle count too. -/
def tick (s : State) : State :=
  let s := tickOutside (tickMfe (tickRtc s))
  if s.node.freeze = .frozen then s
  else if s.node.heldInReset then { s with cycles := s.cycles + 1 }
  else tickPower (tickMarch (tickGeyser (tickPending (s.each (List.finRange 4) tickEmber |> tickTime))))

end Sys2Proof.Machine
end

