-- ==== Sys2Proof/WellFormed.lean ====
section
/-! DEFINITION. Which commands are well formed: a list operand has the length the spec gives it. Every other operand's range is
its type. A command that is not well formed cannot arrive; its meaning refuses it as `illFormed`. -/

namespace Sys2Proof

/-- A barrier frame is 32 bytes (R86), a FLUE RXD frame 459 (R440), and BUS_STOP names a
count for each of eight channels. -/
def Instr.wf : Instr → Bool
  | .hello f => f.length == 32
  | .failstate f => f.length == 32
  | .schedule f => f.length == 32
  | .barrierCancel f => f.length == 32
  | .setNow f => f.length == 32
  | .timeFrame f _ => f.length == 32
  | .config f => f.length == 32
  | .barrierQuery f => f.length == 32
  | .failnow f => f.length == 32
  | .completion _ f => f.length == 32
  | .statusFrame f => f.length == 32
  | .teeth f => f.length == 32
  | .hvEvent f => f.length == 32
  | .measure f => f.length == 32
  | .optime f => f.length == 32
  | .busStop _ moved => moved.length == 8
  | .rxdFrame _ f => f.length == 459
  | .powerOn .. | .warmRestart .. | .k1 .. | .k2 .. | .k3 .. | .k5 .. | .pwrfail .. | .plugInserted ..
  | .plugHoldRelease .. | .gate .. | .overcurrent .. | .hviOn .. | .hviOff .. | .retransmission ..
  | .requestTimeout .. | .mailboxRequest .. | .transfer .. | .ppsInEdge .. | .srcLabel .. | .softSubmission ..
  | .announce .. | .insert .. | .cancel .. | .flush .. | .channelEnable .. | .dueKey .. | .forward ..
  | .hvEntryBegin .. | .periodBoundary .. | .apply .. | .planesWrite .. | .planeBoundary .. | .edge .. | .tooth ..
  | .stall .. | .syntheticToothPush .. | .fifoFlush .. | .resync .. | .wheelEnable .. | .headArming ..
  | .storeDrain .. | .exception .. | .watchdog .. | .budgetWarn .. | .budgetAbort .. | .ready .. | .unready ..
  | .restart .. | .timerFire .. | .movi .. | .mov .. | .nop .. | .add .. | .addi .. | .adc .. | .adci .. | .sub ..
  | .subi .. | .sbc .. | .sbci .. | .and .. | .andi .. | .or .. | .ori .. | .xor .. | .xori .. | .andn .. | .andni ..
  | .cmp .. | .cmpi .. | .tst .. | .tsti .. | .min .. | .mini .. | .max .. | .maxi .. | .minu .. | .minui ..
  | .maxu .. | .maxui .. | .lsl .. | .lsli .. | .lsr .. | .lsri .. | .asr .. | .asri .. | .ror .. | .rori .. | .bfx ..
  | .bfi .. | .clz .. | .popc .. | .mul .. | .mulu .. | .muls .. | .dstep .. | .sincos .. | .atan2 .. | .sqrt ..
  | .ld .. | .st .. | .fence .. | .time .. | .who .. | .shift .. | .wpos .. | .wpred .. | .bsend .. | .gstart ..
  | .doorbell .. | .yield .. | .wait .. | .b .. | .call .. | .jr .. | .ret .. | .reti .. | .eret .. | .bz .. | .bnz ..
  | .dbnz .. | .latSet .. | .writeBack .. | .powerWrite .. | .bankOn .. | .march .. | .marchDone .. | .geyserGo ..
  | .resume .. | .abort .. | .descriptorComplete .. | .frameReceived .. | .frameBuilt .. | .defectDeclared ..
  | .defectCleared .. | .trainingStep .. | .fallback .. | .retrain .. | .slip .. | .masterSlip .. | .wrap ..
  | .wtrDone .. | .unwrap .. | .bypassReq .. | .cmData .. | .txdFrame .. | .perfSel .. | .origination ..
  | .recordCommit .. | .retry .. | .poll .. | .expires .. | .abandon .. | .warned .. | .escalation .. | .ack ..
  | .arm .. | .selfParity .. | .caldera .. | .sinterResume .. | .sinterRead .. | .memacc .. | .extest ..
  | .samplePreload .. | .latchedRead .. | .clearingRead .. | .registerWrite .. | .mfeSupplyLost ..
  | .mainsZeroCrossing .. | .statusFrameSend .. | .switchPosition .. | .txFail .. | .spent .. | .resetN | .resetNRelease | .calderaExit | .k0
  | .plugAbsent | .k4 | .k6 | .mfeAbsent | .k7 | .k8 | .pwrfailHalt | .pwrfailHeartbeatStop | .plugRemoved | .plugHold
  | .heartbeatLost | .coilEnergise | .switchMismatch | .mfeBoot | .mfeHeartbeatLost | .mfeHoldEnd | .linkDown
  | .handshake | .transferEnd | .imageOffer | .chunk | .imageStatus | .beacon | .offerRound | .needReport | .arming
  | .preload | .draining | .pageSwap | .sourceInvalid | .step | .locked | .holdoverExpired | .second | .refFail
  | .coreUnlock | .auxUnlock | .rtcFail | .interrupt | .dispatch | .scrub | .csScrubbed | .csUncorr
  | .insertionRequest | .insertFailed | .backoff | .swap | .copy | .copyDone | .swapCancel | .binClose | .custodyFull
  | .offer | .report | .query | .chInsert | .chCancel | .setValue | .activateImage | .headRetry | .faultMessage
  | .clearFirst | .pulseEnd | .freeze | .bypass | .timeFrameSend | .rtcLost | .ppsOutFall | .beaconSend => true

end Sys2Proof
end

