-- ==== Sys2Proof/Safety.lean ====
section
/-! DEFINITION. What claims about the node are stated in: when an Ember executes a sound word, what retiring changes, which
parts of the state two states share, and the node's standing conditions. -/

namespace Sys2Proof.Safety

open Sys2Proof.Machine

/-! ## An Ember that executes -/

/-- Ember `e` executes the word at its pc and nothing beside the word's own effect happens: K8, something in progress on it,
the word fetched is sound, no checker is armed, no BUDGET and no STORE waits to be entered (R271, R280, R286, R290, R495). -/
def runs (e : Fin 4) (s : State) : Bool :=
  s.inK8 && s.emb[e].busy && !s.emb[e].scrubWait && !s.bit F.FLT_INJ_ARM &&
    parityOk (s.csWord (s.get F.HRT_SWAP_ACTIVE_PAGE) s.emb[e].pc.toNat) && !s.emb[e].budgetHeld &&
    s.emb[e].storeFault.isNone

/-- INSERT's and CANCEL's channel in their word: its number in N, or with FN 1 its register in IMM (R317). -/
def channelWord (ch : ChanSel) (m : Micro) : Micro := match ch with
  | .num c => { m with n := c.val }
  | .reg r => { m with imm := BitVec.ofNat 32 r.val, fn := 1 }

/-- The moves and the arithmetic as words (Table 09-3): opcode, then D, A and B or IMM. -/
def wordOfAlu : Instr → Option (Fin 4 × Micro)
  | .movi e d i => some (e, .immed 0x01 d 0 i) | .mov e d a => some (e, .regs 0x02 d a 0) | .nop e => some (e, { op := 0x03 })
  | .add e d a b => some (e, .regs 0x10 d a b) | .addi e d a i => some (e, .immed 0x30 d a i)
  | .adc e d a b => some (e, .regs 0x11 d a b) | .adci e d a i => some (e, .immed 0x31 d a i)
  | .sub e d a b => some (e, .regs 0x12 d a b) | .subi e d a i => some (e, .immed 0x32 d a i)
  | .sbc e d a b => some (e, .regs 0x13 d a b) | .sbci e d a i => some (e, .immed 0x33 d a i)
  | .and e d a b => some (e, .regs 0x14 d a b) | .andi e d a i => some (e, .immed 0x34 d a i)
  | .or e d a b => some (e, .regs 0x15 d a b) | .ori e d a i => some (e, .immed 0x35 d a i)
  | .xor e d a b => some (e, .regs 0x16 d a b) | .xori e d a i => some (e, .immed 0x36 d a i)
  | .andn e d a b => some (e, .regs 0x17 d a b) | .andni e d a i => some (e, .immed 0x37 d a i)
  | .cmp e a b => some (e, .regs 0x18 0 a b) | .cmpi e a i => some (e, .immed 0x38 0 a i)
  | .tst e a b => some (e, .regs 0x19 0 a b) | .tsti e a i => some (e, .immed 0x39 0 a i)
  | .min e d a b => some (e, .regs 0x1A d a b) | .mini e d a i => some (e, .immed 0x3A d a i)
  | .max e d a b => some (e, .regs 0x1B d a b) | .maxi e d a i => some (e, .immed 0x3B d a i)
  | .minu e d a b => some (e, .regs 0x1C d a b) | .minui e d a i => some (e, .immed 0x3C d a i)
  | .maxu e d a b => some (e, .regs 0x1D d a b) | .maxui e d a i => some (e, .immed 0x3D d a i)
  | _ => none

/-- Shifts, fields, multiply, divide step and CORDIC as words (Tables 09-4 to 09-6). -/
def wordOfShift : Instr → Option (Fin 4 × Micro)
  | .lsl e d a b => some (e, .regs 0x20 d a b) | .lsli e d a k => some (e, .immed 0x40 d a (BitVec.ofNat 32 k.val))
  | .lsr e d a b => some (e, .regs 0x21 d a b) | .lsri e d a k => some (e, .immed 0x41 d a (BitVec.ofNat 32 k.val))
  | .asr e d a b => some (e, .regs 0x22 d a b) | .asri e d a k => some (e, .immed 0x42 d a (BitVec.ofNat 32 k.val))
  | .ror e d a b => some (e, .regs 0x23 d a b) | .rori e d a k => some (e, .immed 0x43 d a (BitVec.ofNat 32 k.val))
  | .bfx e d a pos len1 => some (e, .immed 0x24 d a (BitVec.ofNat 32 (pos.val + 2 ^ 8 * len1.val)))
  | .bfi e d a pos len1 => some (e, .immed 0x25 d a (BitVec.ofNat 32 (pos.val + 2 ^ 8 * len1.val)))
  | .clz e d a => some (e, .regs 0x26 d a 0) | .popc e d a => some (e, .regs 0x27 d a 0)
  | .mul e d a b => some (e, .regs 0x50 d a b) | .mulu e d a b => some (e, .regs 0x51 d a b)
  | .muls e d a b => some (e, .regs 0x52 d a b)
  | .dstep e d a n => some (e, { op := 0x54, d := d, a := a, n := n })
  | .sincos e d a => some (e, { op := 0x58, d := d, a := a, fn := 0 })
  | .atan2 e d a b => some (e, { op := 0x58, d := d, a := a, b := b, fn := 1 })
  | .sqrt e d a => some (e, { op := 0x58, d := d, a := a, fn := 2 })
  | _ => none

/-- Loads, stores, engines, tasks and flow as words (Tables 09-7 to 09-9). -/
def wordOfOther : Instr → Option (Fin 4 × Micro)
  | .ld e d a i size signed _ => some (e, { op := 0x60, d := d, a := a, sz := size, imm := i, fn := signed.toNat })
  | .st e a b i size => some (e, { op := 0x61, a := a, b := b, sz := size, imm := i })
  | .fence e => some (e, { op := 0x62 }) | .time e d => some (e, { op := 0x68, d := d })
  | .who e d => some (e, { op := 0x69, d := d })
  | .insert e d a b t ch => some (e, channelWord ch { op := 0x70, d := d, a := a, b := b, e := t })
  | .cancel e d t ch => some (e, channelWord ch { op := 0x71, d := d, e := t })
  | .shift e d g a n1 => some (e, { op := 0x72, d := d, a := a, n := g, fn := n1.val + 1 })
  | .wpos e d w => some (e, { op := 0x74, d := d, n := w }) | .wpred e d b w => some (e, { op := 0x75, d := d, b := b, n := w })
  | .bsend e d a type => some (e, .immed 0x78 d a (type.setWidth 32))
  | .gstart e d g a => some (e, { op := 0x7A, d := d, a := a, n := g })
  | .doorbell e d => some (e, { op := 0x7C, n := d.number }) | .yield e => some (e, { op := 0x7E })
  | .wait e a fn => some (e, { op := 0x7F, a := a, fn := fn })
  | .b e c t => some (e, { op := 0x80, c := c, t := t }) | .call e c t => some (e, { op := 0x81, c := c, t := t })
  | .jr e a => some (e, { op := 0x82, a := a }) | .ret e => some (e, { op := 0x83 })
  | .reti e => some (e, { op := 0x84 }) | .eret e => some (e, { op := 0x85 })
  | .bz e a t => some (e, { op := 0x86, a := a, t := t }) | .bnz e a t => some (e, { op := 0x87, a := a, t := t })
  | .dbnz e a t => some (e, { op := 0x88, a := a, t := t })
  | _ => none

/-- The Ember and the microword of an instruction command (Tables 09-1 to 09-9); none for any other command. -/
def wordOf (c : Instr) : Option (Fin 4 × Micro) := wordOfAlu c <|> wordOfShift c <|> wordOfOther c

/-- The word at the pc of the Ember that instruction command `c` names is `c`'s. -/
def atWord (c : Instr) (s : State) : Bool :=
  match wordOf c with
  | some (e, m) => decide (s.fetched s.emb[e].pc = m.bits)
  | none => false

/-- Where the word at the pc is `c`'s, executing it answers `r`. -/
def performs (c : Instr) (s : State) (r : Host.Outcome State Fault Refusal) : Prop := atWord c s = true → exec c s = r

/-- Cause `c` with address `a` is due on Ember `e` (Table 08-3): STORE and BUDGET wait for this boundary, WATCHDOG for a stall of
2^20 cycles to end, any other is what the sound word at the pc raises. -/
def causeDue (e : Fin 4) (c : Exc) (a : Word) (s : State) : Prop :=
  let m := s.emb[e]
  match c with
  | .store => m.storeFault = some a ∧ m.stall = none ∧ m.scrubWait = false
  | .budget => m.storeFault = none ∧ m.budgetHeld = true ∧ m.excActive = false ∧ m.inTask = true ∧ m.frames = [] ∧ a = 0
  | .watchdog => ∃ x, m.stall = some x ∧ 2 ^ 20 ≤ x.cycles ∧ x.addr = a
  | _ => m.stall = none ∧ m.scrubWait = false ∧ m.waiting = none ∧
    parityOk (s.csWord (s.get F.HRT_SWAP_ACTIVE_PAGE) m.pc.toNat) = true ∧ s.wordCause e = some (c, a)

/-- The instruction of Ember `e` retires: registers `w`, flags `f`, next instruction at `pc`; nothing else in the node
changes. -/
def retiresTo (e : Fin 4) (pc : BitVec 13) (w : Vector Word 32) (f : Flags) (s : State) : State :=
  let m := s.emb[e]
  let m' : Ember := { m with w := w, flags := f, lastPc := m.pc, pc := pc, stall := none, waiting := none }
  { s with emb := s.emb.set e m' }

/-- As `retiresTo`, and the next instruction is the following word. -/
def retires (e : Fin 4) (w : Vector Word 32) (f : Flags) (s : State) : State :=
  retiresTo e (s.emb[e].pc + 1) w f s

/-- The register after `r`, for a pair whose even register is `r`. -/
def oddOf (r : Fin 32) : Fin 32 := Fin.ofNat 32 (r.val + 1)

/-- A register file with a 64-bit value in the pair of `r`, low word in `r` (R304). -/
def withPair (w : Vector Word 32) (r : Fin 32) (v : BitVec 64) : Vector Word 32 :=
  (w.set r (v.extractLsb' 0 32)).set (oddOf r) (v.extractLsb' 32 32)

/-! ## Parts of the state -/

/-- The parts of the state. -/
inductive Part where
  | regs | now | cycles | latches | node | sup | col | ic | hrt | emb | spm | gsr | rep | chan | grp | whl | ph | bar | mfe | tim
  | tsi | flue | ring | plug | work | dist | free | pending
deriving DecidableEq, Repr

/-- Part `p` is the same in both states. -/
def same (p : Part) (s t : State) : Prop :=
  match p with
  | .regs => t.regs = s.regs
  | .now => t.now = s.now
  | .cycles => t.cycles = s.cycles
  | .latches => t.latches = s.latches
  | .node => t.node = s.node
  | .sup => t.sup = s.sup
  | .col => t.col = s.col
  | .ic => t.ic = s.ic
  | .hrt => t.hrt = s.hrt
  | .emb => t.emb = s.emb
  | .spm => t.spm = s.spm
  | .gsr => t.gsr = s.gsr
  | .rep => t.rep = s.rep
  | .chan => t.chan = s.chan
  | .grp => t.grp = s.grp
  | .whl => t.whl = s.whl
  | .ph => t.ph = s.ph
  | .bar => t.bar = s.bar
  | .mfe => t.mfe = s.mfe
  | .tim => t.tim = s.tim
  | .tsi => t.tsi = s.tsi
  | .flue => t.flue = s.flue
  | .ring => t.ring = s.ring
  | .plug => t.plug = s.plug
  | .work => t.work = s.work
  | .dist => t.dist = s.dist
  | .free => t.free = s.free
  | .pending => t.pending = s.pending

/-- At most the parts listed differ between `s` and `t`. -/
def only (l : List Part) (s t : State) : Prop := ∀ p, p ∉ l → same p s t

/-- Command `c` completes in `s`: it answers a next state that differs from `s` in at most the parts listed and meets `post`. -/
def completes (c : Instr) (s : State) (l : List Part) (post : State → Prop) : Prop :=
  ∃ t, exec c s = .next t ∧ only l s t ∧ post t

/-- Every register word but those at the addresses listed is the same in both states. -/
def regsBut (l : List Nat) (s t : State) : Prop := ∀ a, a ∉ l → t.reg a = s.reg a

/-! ## Frames of the barrier link -/

/-- A sound frame of a type, as long as a frame is (R86, R87). -/
abbrev frame (f : List Byte) (type : Byte) : Prop := f.length = 32 ∧ frameOk f = true ∧ fType f = type

/-- A sound request reaches a powered MFE under a sequence number it holds no completion of (R87, R89). -/
abbrev toMfe (f : List Byte) (type : Byte) (s : State) : Prop :=
  frame f type ∧ s.mfe.powered = true ∧ ∀ x ∈ s.mfe.store, x.1 ≠ fSeq f

/-- The MFE answers `f` with this status and no result: the completion leaves on the UP channel, and is kept among the 64 of the
most recent sequence numbers (R86, R89). -/
def answered (f : List Byte) (status : Byte) (s t : State) : Prop :=
  t.mfe.line = barFrame tCOMPLETION false 0 (fSeq f) (complete status []) ∧
  t.mfe.store = (keepSeq (fSeq f) (complete status []) s.mfe.store).take 64

/-- A sound frame of a type reaches the running logic side, no checker armed (R87, R495). -/
abbrev toNode (f : List Byte) (type : Byte) (s : State) : Prop :=
  frame f type ∧ s.clocked = true ∧ s.bit F.FLT_INJ_ARM = false

/-- The commands that the node's own clocks do not carry out, and that may act while it is frozen (R505, R508–R510): the TAP's,
the resets, the supply, the plug and its switch, the supervisor's, the RTC's, and everything the MFE does. -/
def actsFrozen : Instr → Bool
  | .sinterResume .. | .sinterRead .. | .memacc .. | .extest .. | .samplePreload .. | .bypass => true
  | .powerOn .. | .pwrfail .. | .resetN | .resetNRelease | .calderaExit | .plugHold | .plugHoldRelease .. => true
  | .plugInserted .. | .plugRemoved | .switchPosition .. | .heartbeatLost | .rtcLost => true
  | .hello .. | .failstate .. | .schedule .. | .barrierCancel .. | .setNow .. | .timeFrame .. | .config .. => true
  | .barrierQuery .. | .failnow .. | .gate .. | .overcurrent .. | .hviOn .. | .hviOff .. => true
  | .mainsZeroCrossing .. | .mfeBoot | .mfeHeartbeatLost | .mfeHoldEnd | .mfeSupplyLost .. => true
  | .statusFrameSend .. | .retransmission .. | .requestTimeout .. | .completion .. => true
  | _ => false

/-- What the MFE does, on its own side of the barrier (chapter 02). -/
def onMfeSide : Instr → Bool
  | .hello .. | .failstate .. | .schedule .. | .barrierCancel .. | .setNow .. | .timeFrame .. | .config .. => true
  | .barrierQuery .. | .failnow .. | .gate .. | .overcurrent .. | .hviOn .. | .hviOff .. => true
  | .mainsZeroCrossing .. | .mfeBoot | .mfeHeartbeatLost | .mfeHoldEnd | .mfeSupplyLost .. | .statusFrameSend .. => true
  | .completion atMfe _ => atMfe
  | .retransmission atMfe _ => atMfe
  | .requestTimeout atMfe _ => atMfe
  | _ => false

/-- What may move system time beside its own advance (R179, R197): a step, K0, a received COARSE_SET. -/
def movesTime : Instr → Bool
  | .step | .k0 | .frameReceived .. => true
  | _ => false

/-! ## Memory -/

/-- The addressed memories stand in their canonical form: scratchpad, plug, connection memory. -/
abbrev memoriesOk (s : State) : Prop :=
  tabWf 0 s.spm.mem = true ∧ tabWf 0 s.plug.mem = true ∧ tabWf 0 s.tsi.cm = true

/-! ## The node's standing conditions -/

/-- What holds of the node whatever it is told (R31, R57, R76, R500, R505, R510): a heartbeat only while the clocks run outside
reset; no freeze in reset or in a PWRFAIL sequence; from step 6 of a PWRFAIL sequence
no heartbeat, and a completed one holds the logic side in reset; plug hold has
PVDD off and no heartbeat, and Caldera no heartbeat. -/
abbrev nodeOk (n : Node) : Prop :=
  (n.heartbeat = true → n.freeze = .running ∧ n.heldInReset = false) ∧
  (n.freeze = .frozen → n.heldInReset = false ∧ n.pwr = .none) ∧
  (n.pwr = .complete → n.heldInReset = true) ∧
  (n.pwr = .stopped → n.heartbeat = false) ∧
  (n.phase = .hold → n.pvdd = false ∧ n.heartbeat = false) ∧
  (n.phase = .caldera → n.heartbeat = false)

end Sys2Proof.Safety
end

