-- ==== Sys2Proof/Certificates/Slice0/Obligations.lean ====
section
/-! DEFINITION. The statements for the provers: what each family of commands does, what it leaves alone, and what
holds of the node at every step. -/

open Sys2Proof Sys2Proof.Machine Sys2Proof.Safety

/-- For every state s: if the queue of s is c followed by cs, step s is exec c on s with the queue cs. If the queue is empty, step s is the state after one CORE cycle (the model's choice, log entry 9); a cycle taken while the node's clocks run and no clock has failed, outside K0, adds exactly 1 to system time, and the frozen node keeps its time. -/
def Obligations.StepRunsFrontCommand : Prop :=
  (∀ (c : Instr) (cs : List Instr) (s : State), s.pending = c :: cs → step s = exec c { s with pending := cs }) ∧
  (∀ s : State, s.pending = [] → step s = .next (tick s)) ∧
  (∀ s : State, s.clocked = true → s.node.coreFailed = false → s.node.auxFailed = false → s.node.phase ≠ .k0 →
    (tick s).now = s.now + 1) ∧
  (∀ s : State, s.node.freeze = .frozen → (tick s).now = s.now)

/-- On an Ember whose sound word at its program counter is the command's, MOVI and MOV write the register and no flag, NOP writes nothing; ADD and ADC write the sum with no carry and with C, SUB and SBC the difference with no borrow and with borrow NOT C, each in register and immediate form, with Z and N of the result, C the carry out (for subtraction: no borrow), V signed overflow; CMP and CMPI set the flags of SUB and write no register. In every case exec answers a next state that differs from the state before only in that Ember's registers, flags and program counter. On such an Ember the logical instructions write the bitwise result with Z and N of it and V cleared, C unchanged; TST and TSTI set the flags of AND and write no register; MIN and MAX (signed), MINU and MAXU (unsigned) write the lesser or greater operand with Z and N of it, C and V unchanged. exec answers a next state that differs only in that Ember's registers, flags and program counter. Completes: MOVI, MOV, NOP, ADD, ADDI, ADC, ADCI, SUB, SUBI, SBC, SBCI, CMP, CMPI, AND, ANDI, OR, ORI, XOR, XORI, ANDN, ANDNI, TST, TSTI, MIN, MINI, MAX, MAXI, MINU, MINUI, MAXU, MAXUI. -/
def Obligations.EmberArithmeticAndLogic : Prop :=
  (∀ (e : Fin 4) (d a b : Fin 32) (imm : Word) (s : State), runs e s = true →
     let m := s.emb[e]
     let sum (x y : Word) (c : Bool) : Host.Outcome State Fault Refusal :=
       let r := x + y + BitVec.ofNat 32 c.toNat
       .next (retires e (m.w.set d r)
         { z := r == 0, n := r.msb, c := decide (2 ^ 32 ≤ x.toNat + y.toNat + c.toNat),
           v := decide (x.toInt + y.toInt + (c.toNat : Int) ≠ r.toInt) } s)
     let difference (w : Word → Vector Word 32) (x y : Word) (borrow : Bool) : Host.Outcome State Fault Refusal :=
       let r := x - y - BitVec.ofNat 32 borrow.toNat
       .next (retires e (w r)
         { z := r == 0, n := r.msb, c := decide (y.toNat + borrow.toNat ≤ x.toNat),
           v := decide (x.toInt - y.toInt - (borrow.toNat : Int) ≠ r.toInt) } s)
     performs (.movi e d imm) s (.next (retires e (m.w.set d imm) m.flags s)) ∧
     performs (.mov e d a) s (.next (retires e (m.w.set d m.w[a]) m.flags s)) ∧
     performs (.nop e) s (.next (retires e m.w m.flags s)) ∧
     performs (.add e d a b) s (sum m.w[a] m.w[b] false) ∧
     performs (.addi e d a imm) s (sum m.w[a] imm false) ∧
     performs (.adc e d a b) s (sum m.w[a] m.w[b] m.flags.c) ∧
     performs (.adci e d a imm) s (sum m.w[a] imm m.flags.c) ∧
     performs (.sub e d a b) s (difference (m.w.set d) m.w[a] m.w[b] false) ∧
     performs (.subi e d a imm) s (difference (m.w.set d) m.w[a] imm false) ∧
     performs (.sbc e d a b) s (difference (m.w.set d) m.w[a] m.w[b] (!m.flags.c)) ∧
     performs (.sbci e d a imm) s (difference (m.w.set d) m.w[a] imm (!m.flags.c)) ∧
     performs (.cmp e a b) s (difference (fun _ => m.w) m.w[a] m.w[b] false) ∧
     performs (.cmpi e a imm) s (difference (fun _ => m.w) m.w[a] imm false)) ∧
  (∀ (e : Fin 4) (d a b : Fin 32) (imm : Word) (s : State), runs e s = true →
     let m := s.emb[e]
     let logic (w : Word → Vector Word 32) (r : Word) : Host.Outcome State Fault Refusal :=
       .next (retires e (w r) { z := r == 0, n := r.msb, c := m.flags.c, v := false } s)
     let pick (r : Word) : Host.Outcome State Fault Refusal :=
       .next (retires e (m.w.set d r) { z := r == 0, n := r.msb, c := m.flags.c, v := m.flags.v } s)
     let smaller (x y : Word) : Word := if x.toInt ≤ y.toInt then x else y
     let greater (x y : Word) : Word := if y.toInt ≤ x.toInt then x else y
     let lower (x y : Word) : Word := if x.toNat ≤ y.toNat then x else y
     let higher (x y : Word) : Word := if y.toNat ≤ x.toNat then x else y
     performs (.and e d a b) s (logic (m.w.set d) (m.w[a] &&& m.w[b])) ∧
     performs (.andi e d a imm) s (logic (m.w.set d) (m.w[a] &&& imm)) ∧
     performs (.or e d a b) s (logic (m.w.set d) (m.w[a] ||| m.w[b])) ∧
     performs (.ori e d a imm) s (logic (m.w.set d) (m.w[a] ||| imm)) ∧
     performs (.xor e d a b) s (logic (m.w.set d) (m.w[a] ^^^ m.w[b])) ∧
     performs (.xori e d a imm) s (logic (m.w.set d) (m.w[a] ^^^ imm)) ∧
     performs (.andn e d a b) s (logic (m.w.set d) (m.w[a] &&& ~~~m.w[b])) ∧
     performs (.andni e d a imm) s (logic (m.w.set d) (m.w[a] &&& ~~~imm)) ∧
     performs (.tst e a b) s (logic (fun _ => m.w) (m.w[a] &&& m.w[b])) ∧
     performs (.tsti e a imm) s (logic (fun _ => m.w) (m.w[a] &&& imm)) ∧
     performs (.min e d a b) s (pick (smaller m.w[a] m.w[b])) ∧
     performs (.mini e d a imm) s (pick (smaller m.w[a] imm)) ∧
     performs (.max e d a b) s (pick (greater m.w[a] m.w[b])) ∧
     performs (.maxi e d a imm) s (pick (greater m.w[a] imm)) ∧
     performs (.minu e d a b) s (pick (lower m.w[a] m.w[b])) ∧
     performs (.minui e d a imm) s (pick (lower m.w[a] imm)) ∧
     performs (.maxu e d a b) s (pick (higher m.w[a] m.w[b])) ∧
     performs (.maxui e d a imm) s (pick (higher m.w[a] imm)))

/-- On an Ember whose sound word at its program counter is the command's, LSL, LSR, ASR and ROR by register (low five bits) or by IMM give the shifted word with Z and N of it; C is the last bit shifted out (for ROR bit 31 of the result) and stays when the amount is 0; V stays. BFX gives bits pos to pos+len-1 of wa, BFI puts the low len bits of wa there in wd and keeps the others, with Z and N; with pos + len above 32 both raise ILLEGAL instead. CLZ and POPC count and set Z alone. exec answers a next state that differs only in that Ember's registers, flags and program counter. On such an Ember MUL writes the product modulo 2^32 with Z and N of it, V when the signed product lies outside 32 bits, C unchanged. With D even, MULU writes the unsigned and MULS the signed 64-bit product to the pair with Z and N of the 64 bits, C and V unchanged; with D odd both raise ILLEGAL. exec answers a next state that differs only in that Ember's registers, flags and program counter. Completes: LSL, LSLI, LSR, LSRI, ASR, ASRI, ROR, RORI, BFX, BFI, CLZ, POPC, MUL, MULU, MULS. -/
def Obligations.EmberShiftsAndMultiply : Prop :=
  ((∀ (e : Fin 4) (d a b k : Fin 32) (s : State), runs e s = true →
     let m := s.emb[e]
     let shifted (x : Word) (n : Nat) (r : Word) (out : Bool) : Host.Outcome State Fault Refusal :=
       .next (retires e (m.w.set d r)
         { z := r == 0, n := r.msb, c := if n = 0 then m.flags.c else out, v := m.flags.v } s)
     let lsl (x : Word) (n : Nat) := shifted x n (x <<< n) (x.getLsbD (32 - n))
     let lsr (x : Word) (n : Nat) := shifted x n (x >>> n) (x.getLsbD (n - 1))
     let asr (x : Word) (n : Nat) := shifted x n (x.sshiftRight n) (x.getLsbD (n - 1))
     let ror (x : Word) (n : Nat) := shifted x n (x.rotateRight n) (x.rotateRight n).msb
     let low5 := m.w[b].toNat % 32
     performs (.lsl e d a b) s (lsl m.w[a] low5) ∧ performs (.lsli e d a k) s (lsl m.w[a] k) ∧
     performs (.lsr e d a b) s (lsr m.w[a] low5) ∧ performs (.lsri e d a k) s (lsr m.w[a] k) ∧
     performs (.asr e d a b) s (asr m.w[a] low5) ∧ performs (.asri e d a k) s (asr m.w[a] k) ∧
     performs (.ror e d a b) s (ror m.w[a] low5) ∧ performs (.rori e d a k) s (ror m.w[a] k)) ∧
   (∀ (e : Fin 4) (d a pos len1 : Fin 32) (s : State), runs e s = true → pos.val + len1.val + 1 ≤ 32 →
     let m := s.emb[e]
     ∃ x y : Word,
       performs (.bfx e d a pos len1) s (.next (retires e (m.w.set d x) { m.flags with z := x == 0, n := x.msb } s)) ∧
       performs (.bfi e d a pos len1) s (.next (retires e (m.w.set d y) { m.flags with z := y == 0, n := y.msb } s)) ∧
       (∀ i, i < 32 → x.getLsbD i = (decide (i ≤ len1.val) && m.w[a].getLsbD (pos.val + i))) ∧
       (∀ i, i < 32 → y.getLsbD i = if pos.val ≤ i ∧ i ≤ pos.val + len1.val then m.w[a].getLsbD (i - pos.val)
         else m.w[d].getLsbD i)) ∧
   (∀ (e : Fin 4) (d a pos len1 : Fin 32) (s : State), runs e s = true → 32 < pos.val + len1.val + 1 →
     performs (.bfx e d a pos len1) s (.next (enterException e .illegal s.emb[e].pc (s.wordAddr s.emb[e].pc) s)) ∧
     performs (.bfi e d a pos len1) s (.next (enterException e .illegal s.emb[e].pc (s.wordAddr s.emb[e].pc) s))) ∧
   (∀ (e : Fin 4) (d a : Fin 32) (s : State), runs e s = true →
     let m := s.emb[e]
     ∃ zeros count : Nat,
       performs (.clz e d a) s (.next (retires e (m.w.set d (BitVec.ofNat 32 zeros)) { m.flags with z := zeros == 0 } s)) ∧
       performs (.popc e d a) s (.next (retires e (m.w.set d (BitVec.ofNat 32 count)) { m.flags with z := count == 0 } s)) ∧
       zeros ≤ 32 ∧ (∀ i, 32 - zeros ≤ i → m.w[a].getLsbD i = false) ∧
       (zeros < 32 → m.w[a].getLsbD (31 - zeros) = true) ∧
       count = ((List.range 32).filter fun i => m.w[a].getLsbD i).length)) ∧
  (∀ (e : Fin 4) (d a b : Fin 32) (s : State), runs e s = true →
     let m := s.emb[e]
     let x := m.w[a]
     let y := m.w[b]
     let wide (p : BitVec 64) : Host.Outcome State Fault Refusal :=
       if d.val % 2 = 0 then .next (retires e (withPair m.w d p) { m.flags with z := p == 0, n := p.msb } s)
       else .next (enterException e .illegal m.pc (s.wordAddr m.pc) s)
     performs (.mul e d a b) s (.next (retires e (m.w.set d (x * y))
       { m.flags with z := x * y == 0, n := (x * y).msb,
                      v := decide (x.toInt * y.toInt < -2 ^ 31 ∨ 2 ^ 31 ≤ x.toInt * y.toInt) } s)) ∧
     performs (.mulu e d a b) s (wide (BitVec.ofNat 64 (x.toNat * y.toNat))) ∧
     performs (.muls e d a b) s (wide (BitVec.ofInt 64 (x.toInt * y.toInt))))

/-- On an Ember whose sound word at its program counter is the command's, with D even and n from 1 to 32, DSTEP iterates the stated step n times on (w[d], w[d+1], C) with the divisor read once before the first step, sets V exactly when the divisor is 0, keeps Z and N, and changes nothing else. Starting from w[d] = 0 and w[d+1] = x with n = 32 it leaves floor(x / y) in w[d+1] and x mod y in w[d]; with y = 0 it leaves 0xFFFF_FFFF and x, and V set. Completes: DSTEP. -/
def Obligations.DstepDivides : Prop :=
  ∀ (e : Fin 4) (d a : Fin 32) (n : Fin 64) (s : State), runs e s = true → d.val % 2 = 0 → 1 ≤ n.val → n.val ≤ 32 →
    let m := s.emb[e]
    let y := m.w[a].toNat
    let onestep : Nat × Nat × Bool → Nat × Nat × Bool := fun x =>
      let t := x.1 * 2 + x.2.1 / 2 ^ 31
      let q := x.2.1 * 2 % 2 ^ 32
      if y ≤ t then ((t - y) % 2 ^ 32, (q + 1) % 2 ^ 32, true) else (t % 2 ^ 32, q, false)
    let r := Nat.repeat onestep n.val (m.w[d].toNat, m.w[oddOf d].toNat, m.flags.c)
    performs (.dstep e d a n) s (.next (retires e
      ((m.w.set d (BitVec.ofNat 32 r.1)).set (oddOf d) (BitVec.ofNat 32 r.2.1))
      { m.flags with c := r.2.2, v := decide (y = 0) } s)) ∧
    (n.val = 32 → m.w[d] = 0 → y ≠ 0 →
      r.2.1 = m.w[oddOf d].toNat / y ∧ r.1 = m.w[oddOf d].toNat % y) ∧
    (n.val = 32 → m.w[d] = 0 → y = 0 → r.2.1 = 0xFFFFFFFF ∧ r.1 = m.w[oddOf d].toNat)

/-- On an Ember whose sound word at its program counter is the command's, SQRT writes some r with r - 1 at most the exact root of wa (30 fraction bits) and the root at most r + 1, and clears V. With D even SINCOS writes a pair and clears V; ATAN2 of (0, 0) writes the pair (0, 0) and sets V, and of any other vector writes as magnitude some v cut to 0x7FFFFFFF, with v - 4 at most and v + 4 at least the exact magnitude, V telling whether it was cut. Z, N and C stay; nothing but that Ember's registers, flags and program counter changes. Which of the allowed values is written is left open (free values, log entry 5). Completes: SQRT, SINCOS, ATAN2. -/
def Obligations.CordicAccuracy : Prop :=
  (∀ (e : Fin 4) (d a : Fin 32) (s : State), runs e s = true →
    let m := s.emb[e]
    let x := m.w[a].toNat * 2 ^ 30
    ∃ r : Nat, performs (.sqrt e d a) s (.next (retires e (m.w.set d (BitVec.ofNat 32 r)) { m.flags with v := false } s)) ∧
      r < 2 ^ 32 ∧ (r - 1) * (r - 1) ≤ x ∧ x ≤ (r + 1) * (r + 1)) ∧
  (∀ (e : Fin 4) (d a b : Fin 32) (s : State), runs e s = true → d.val % 2 = 0 →
    let m := s.emb[e]
    (∃ c sn : Word, performs (.sincos e d a) s
      (.next (retires e ((m.w.set d c).set (oddOf d) sn) { m.flags with v := false } s))) ∧
    (m.w[a] = 0 → m.w[b] = 0 → performs (.atan2 e d a b) s
      (.next (retires e ((m.w.set d 0).set (oddOf d) 0) { m.flags with v := true } s))) ∧
    (¬(m.w[a] = 0 ∧ m.w[b] = 0) → ∃ (ang : Word) (v : Nat), performs (.atan2 e d a b) s
      (.next (retires e ((m.w.set d ang).set (oddOf d) (BitVec.ofNat 32 (min v 0x7FFFFFFF)))
          { m.flags with v := decide (0x7FFFFFFF < v) } s)) ∧
      let x := (m.w[a].toInt * m.w[a].toInt + m.w[b].toInt * m.w[b].toInt).toNat
      (v - 4) * (v - 4) ≤ x ∧ x ≤ (v + 4) * (v + 4)))

/-- On an Ember whose sound word at its program counter is the command's, a legal aligned LD from scratchpad (1) with no store of its own overlapping (addresses compared as folded, R358), the bank On and held by no march, no other master asking for it and the word sound, loads the little-endian bytes in memory, sign-extended where FN says so, to the register (a doubleword to the pair); memory, registers and the other Embers stay; (2) with its newest overlapping store covering all the bytes, whoever else asks, loads them from that store and nothing else in the node changes; (3) misaligned it raises ALIGN. An aligned word load from a register window with an empty store buffer loads what the register reads. A legal aligned ST to scratchpad with room in the buffer, before any PWRFAIL, adds one entry with its address, size and data behind the others and changes nothing else: every byte of memory stays until the entry drains. A misaligned one raises ALIGN and enters nothing. FENCE with at most eight buffered stores, all to scratchpad, retires with the buffer empty; with nothing buffered it changes nothing but the program counter. Completes: LD, ST, FENCE. -/
def Obligations.EmberMemory : Prop :=
  ((∀ (e : Fin 4) (d a : Fin 32) (imm : Word) (size : Fin 4) (signed : Bool) (s : State), runs e s = true →
     (signed = true → size.val ≤ 1) → (size.val = 3 → d.val % 2 = 0) →
     let m := s.emb[e]
     let addr := m.w[a] + imm
     let n := 2 ^ size.val
     addr.toNat < spmTop → addr.toNat % n = 0 →
     let p := s.fold addr.toNat
     let loaded (v : Nat) : Vector Word 32 :=
       if size.val = 3 then withPair m.w d (BitVec.ofNat 64 v)
       else if size.val = 0 ∧ signed then m.w.set d ((BitVec.ofNat 8 v).signExtend 32)
       else if size.val = 1 ∧ signed then m.w.set d ((BitVec.ofNat 16 v).signExtend 32)
       else m.w.set d (BitVec.ofNat 32 v)
     let apart (x : StoreEntry) : Prop := spmTop ≤ x.addr.toNat ∨ s.fold x.addr.toNat + x.size ≤ p ∨ p + n ≤ s.fold x.addr.toNat
     ((∀ x ∈ m.sbuf, apart x) →
       s.bankOn (bankOf p) = true → s.marchHolds (bankOf p) = false → tabGet none s.spm.ecc (p / 8 * 8) = none →
       atWord (.ld e d a imm size signed 0) s = true → ∃ t, exec (.ld e d a imm size signed 0) s = .next t ∧
         t.emb = (retires e (loaded (ofLe (s.bytesAt p n))) m.flags s).emb ∧
         t.spm.mem = s.spm.mem ∧ only [.emb, .spm] s t) ∧
     (∀ (l r : List StoreEntry) (x : StoreEntry) (others : BitVec 9), m.sbuf = l ++ x :: r → (∀ y ∈ r, apart y) →
       x.addr.toNat < spmTop → s.fold x.addr.toNat ≤ p → p + n ≤ s.fold x.addr.toNat + x.size →
       performs (.ld e d a imm size signed others) s
         (.next (retires e (loaded (x.data.toNat / 256 ^ (p - s.fold x.addr.toNat) % 256 ^ n)) m.flags s)))) ∧
   (∀ (e : Fin 4) (d a : Fin 32) (imm : Word) (size : Fin 4) (signed : Bool) (others : BitVec 9) (s : State),
     runs e s = true → (signed = true → size.val ≤ 1) → (size.val = 3 → d.val % 2 = 0) →
     let addr := s.emb[e].w[a] + imm
     addr.toNat < spmTop → addr.toNat % 2 ^ size.val ≠ 0 →
     performs (.ld e d a imm size signed others) s (.next (enterException e .align s.emb[e].pc addr s))) ∧
   (∀ (e : Fin 4) (d a : Fin 32) (imm : Word) (others : BitVec 9) (s : State), runs e s = true → s.emb[e].sbuf = [] →
     let addr := s.emb[e].w[a] + imm
     regionOf addr.toNat = .window → addr.toNat % 4 = 0 → (regRead e addr.toNat s).2.emb = s.emb →
     performs (.ld e d a imm 2 false others) s
      (.next (retires e (s.emb[e].w.set d (regRead e addr.toNat s).1) s.emb[e].flags (regRead e addr.toNat s).2)))) ∧
  ((∀ (e : Fin 4) (a b : Fin 32) (imm : Word) (size : Fin 4) (s : State), runs e s = true →
     (size.val = 3 → b.val % 2 = 0) →
     let m := s.emb[e]
     let addr := m.w[a] + imm
     let data : BitVec 64 := if size.val = 3 then m.w[oddOf b] ++ m.w[b] else m.w[b].zeroExtend 64
     addr.toNat < spmTop →
     (addr.toNat % 2 ^ size.val = 0 → m.sbuf.length < 8 → s.node.pwr = .none → atWord (.st e a b imm size) s = true → ∃ t,
       exec (.st e a b imm size) s = .next t ∧
       t.emb = (retires e m.w m.flags s).emb.set e
         { (retires e m.w m.flags s).emb[e] with sbuf := m.sbuf ++ [⟨addr, 2 ^ size.val, data⟩] } ∧
       only [.emb] s t) ∧
     (addr.toNat % 2 ^ size.val ≠ 0 →
       performs (.st e a b imm size) s (.next (enterException e .align m.pc addr s)))) ∧
   (∀ (e : Fin 4) (s : State), runs e s = true → s.emb[e].sbuf = [] →
     performs (.fence e) s (.next (retires e s.emb[e].w s.emb[e].flags s))) ∧
   (∀ (e : Fin 4) (s : State), runs e s = true → s.emb[e].sbuf.length ≤ 8 →
     (∀ x ∈ s.emb[e].sbuf, x.addr.toNat < spmTop) →
     atWord (.fence e) s = true → ∃ t, exec (.fence e) s = .next t ∧ t.emb[e].sbuf = []))

/-- On an Ember whose sound word at its program counter is the command's, TIME with D even writes the system time to the pair; WHO writes Ember number, slot, NEST, IN_TASK, EXC_ACTIVE and the active page in their fields. Flags, latches and everything else stay. B with a code below 15 continues at its target when the flags satisfy the condition and at the next word otherwise, and with code 15 raises ILLEGAL; JR continues at bits 12 to 0 of the register; BZ and BNZ test a register against zero; DBNZ writes wa - 1 and branches while that is not zero. Flags and everything else stay. CALL whose condition holds pushes the next address and continues at the target, with eight addresses held it raises STACK, and when its condition fails it falls through; RETURN continues at the newest address and drops it, and on an empty stack raises STACK. RETI drops the newest shadow frame and restores pc, flags and the task state from it, and with none raises ILLEGAL. ERET in an exception clears EXC_ACTIVE and takes pc and flags from EMB.EPC; outside one it raises ILLEGAL. Completes: TIME, WHO, B, JR, BZ, BNZ, DBNZ, CALL, RETURN, RETI, ERET. -/
def Obligations.EmberFlow : Prop :=
  (∀ (e : Fin 4) (d : Fin 32) (s : State), runs e s = true →
     let m := s.emb[e]
     (d.val % 2 = 0 → performs (.time e d) s (.next (retires e (withPair m.w d s.now) m.flags s))) ∧
     performs (.who e d) s (.next (retires e (m.w.set d (BitVec.ofNat 32 (e.val + 2 ^ 8 * m.slot.val + 2 ^ 16 * m.frames.length +
       2 ^ 20 * m.inTask.toNat + 2 ^ 21 * m.excActive.toNat + 2 ^ 24 * s.get F.HRT_SWAP_ACTIVE_PAGE))) m.flags s))) ∧
  (∀ (e : Fin 4) (a : Fin 32) (c : Fin 16) (target : BitVec 13) (s : State), runs e s = true →
     let m := s.emb[e]
     let go (taken : Bool) (w : Vector Word 32) : Host.Outcome State Fault Refusal :=
       .next (retiresTo e (if taken then target else m.pc + 1) w m.flags s)
     let cond : Bool :=
       [true, m.flags.z, !m.flags.z, m.flags.c, !m.flags.c, m.flags.n, !m.flags.n, m.flags.v, !m.flags.v,
        m.flags.c && !m.flags.z, !m.flags.c || m.flags.z, m.flags.n == m.flags.v, m.flags.n != m.flags.v,
        !m.flags.z && m.flags.n == m.flags.v, m.flags.z || m.flags.n != m.flags.v].getD c.val false
     (c.val < 15 → performs (.b e c target) s (go cond m.w)) ∧
     (c.val = 15 → performs (.b e c target) s (.next (enterException e .illegal m.pc (s.wordAddr m.pc) s))) ∧
     performs (.jr e a) s (.next (retiresTo e (m.w[a].setWidth 13) m.w m.flags s)) ∧
     performs (.bz e a target) s (go (m.w[a] == 0) m.w) ∧
     performs (.bnz e a target) s (go (m.w[a] != 0) m.w) ∧
     performs (.dbnz e a target) s (go (m.w[a] - 1 != 0) (m.w.set a (m.w[a] - 1)))) ∧
  (∀ (e : Fin 4) (c : Fin 16) (target : BitVec 13) (s : State), runs e s = true →
     let m := s.emb[e]
     (c.val < 15 → m.flags.holds c = true → m.rstack.length < 8 → atWord (.call e c target) s = true → ∃ t, exec (.call e c target) s = .next t ∧
       t.emb[e].rstack = (m.pc + 1) :: m.rstack ∧ t.emb[e].pc = target ∧ t.emb[e].w = m.w ∧ t.emb[e].flags = m.flags ∧
       only [.emb] s t) ∧
     (c.val < 15 → m.flags.holds c = true → 8 ≤ m.rstack.length →
       performs (.call e c target) s (.next (enterException e .stack m.pc 0 s))) ∧
     (c.val < 15 → m.flags.holds c = false → performs (.call e c target) s (.next (retires e m.w m.flags s))) ∧
     (∀ p ps, m.rstack = p :: ps → atWord (.ret e) s = true → ∃ t, exec (.ret e) s = .next t ∧ t.emb[e].pc = p ∧ t.emb[e].rstack = ps ∧
       t.emb[e].w = m.w ∧ t.emb[e].flags = m.flags ∧ only [.emb] s t) ∧
     (m.rstack = [] → performs (.ret e) s (.next (enterException e .stack m.pc 0 s))) ∧
     (∀ f fs, m.frames = f :: fs → atWord (.reti e) s = true → ∃ t, exec (.reti e) s = .next t ∧ t.emb[e].pc = f.pc ∧ t.emb[e].flags = f.flags ∧
       t.emb[e].inTask = f.inTask ∧ t.emb[e].frames = fs ∧ t.emb[e].w = m.w ∧ only [.emb] s t) ∧
     (m.frames = [] → performs (.reti e) s (.next (enterException e .illegal m.pc (s.wordAddr m.pc) s))) ∧
     (m.excActive = true → atWord (.eret e) s = true → ∃ t, exec (.eret e) s = .next t ∧ t.emb[e].excActive = false ∧
       t.emb[e].pc = BitVec.ofNat 13 (s.get (F.EMB_EPC_PC e)) ∧
       t.emb[e].flags.code = s.get (F.EMB_EPC_FLAGS e) ∧ t.emb[e].w = m.w ∧ only [.emb] s t) ∧
     (m.excActive = false → performs (.eret e) s (.next (enterException e .illegal m.pc (s.wordAddr m.pc) s))))

/-- On an Ember whose sound word at its program counter is the command's, YIELD with no shadow frame in use ends the run: the Ember is in no task and no exception, the slot counts one run more and is IDLE, or READY again if RERUN was set; with a frame in use it raises ILLEGAL. WAIT with an absolute target in a pair, or relative to the cycle the wait begins in, retires when system time has reached the target and otherwise stands at the same instruction with its target kept; nothing else changes. Completes: YIELD, WAIT. -/
def Obligations.EmberYieldAndWait : Prop :=
  (∀ (e : Fin 4) (s : State), runs e s = true → s.emb[e].frames = [] → s.emb[e].inTask = true →
    atWord (.yield e) s = true → ∃ t, exec (.yield e) s = .next t ∧ t.emb[e].inTask = false ∧ t.emb[e].excActive = false ∧
      (s.hrt.slots[s.emb[e].slot].rerun = false → t.hrt.slots[s.emb[e].slot].st = .idle) ∧
      (s.hrt.slots[s.emb[e].slot].rerun = true → t.hrt.slots[s.emb[e].slot].st = .ready ∧
        t.hrt.slots[s.emb[e].slot].rerun = false) ∧
      t.get (F.TSK_STAT_RUNS s.emb[e].slot) =
        (s.get (F.TSK_STAT_RUNS s.emb[e].slot) + 1) % 2 ^ (F.TSK_STAT_RUNS s.emb[e].slot).width ∧
      (∀ x, x ≠ e → t.emb[x] = s.emb[x]) ∧ t.emb[e].w = s.emb[e].w ∧ only [.emb, .hrt, .regs] s t) ∧
  (∀ (e : Fin 4) (s : State), runs e s = true → s.emb[e].frames ≠ [] →
    performs (.yield e) s (.next (enterException e .illegal s.emb[e].pc (s.wordAddr s.emb[e].pc) s))) ∧
  (∀ (e : Fin 4) (a : Fin 32) (fn : Fin 256) (s : State), runs e s = true →
    (fn.val = 0 ∧ a.val % 2 = 0) ∨ fn.val = 1 →
    let m := s.emb[e]
    let target : SysTime := match m.waiting with
      | some g => g
      | none => if fn.val = 0 then m.w[oddOf a] ++ m.w[a] else s.now + m.w[a].zeroExtend 64
    (target.toNat ≤ s.now.toNat → performs (.wait e a fn) s (.next (retires e m.w m.flags s))) ∧
    (s.now.toNat < target.toNat → atWord (.wait e a fn) s = true → ∃ t, exec (.wait e a fn) s = .next t ∧ t.emb[e].pc = m.pc ∧
      t.emb[e].waiting = some target ∧ t.emb[e].w = m.w ∧ t.emb[e].flags = m.flags ∧ only [.emb] s t))

/-- With the clocks running, no message held by a block, room in the report queue and, for a CONTAINED fault, a free pending entry, FAULT_MESSAGE takes the first message of the collector's queue: it becomes the newest entry of the 16-entry log and no other entry changes; a CORRECTED one adds 1 to its counter (which stops at its greatest value) and latches source 100, a CONTAINED one source 101; a fault that is not CORRECTED is copied to FLT.FIRST with FIRST set if none is held; a CONTAINED one takes the first free pending entry with the next tag and ESC_MS milliseconds; the first that is neither becomes the cause. Only registers, the collector, the interrupt controller and the report queue may differ. With no message waiting nothing changes. Completes: FAULT_MESSAGE. -/
def Obligations.FaultMessageAccepted : Prop :=
  (∀ (c : Nat) (r : FaultRec) (q : List (Nat × FaultRec)) (s : State), s.clocked = true → s.col.queue = (c, r) :: q →
    s.col.held = [] → s.rep.queue.length ≤ 24 → (r.cls = contained → (freeEntry s.col.pend).isSome = true) →
    completes .faultMessage s [.regs, .col, .ic, .rep] fun t =>
      let k := if s.get F.FLT_LOG_HEAD_COUNT = 0 then 0 else (s.get F.FLT_LOG_HEAD_NEWEST + 1) % 16
      t.col.queue = q ∧ t.get F.FLT_LOG_HEAD_NEWEST = k ∧
      t.get F.FLT_LOG_HEAD_COUNT = min 16 (s.get F.FLT_LOG_HEAD_COUNT + 1) ∧
      (∀ i : Fin 16, t.col.log[i] = if i.val = k then some r else s.col.log[i]) ∧
      t.get F.FLT_CNT_A_CORRECTED = (if r.cls = corrected then min (s.get F.FLT_CNT_A_CORRECTED + 1) 0xFFFF
        else s.get F.FLT_CNT_A_CORRECTED) ∧
      t.get F.FLT_CNT_A_CONTAINED = (if r.cls = contained then min (s.get F.FLT_CNT_A_CONTAINED + 1) 0xFFFF
        else s.get F.FLT_CNT_A_CONTAINED) ∧
      (r.cls = corrected → t.ic.lat = s.ic.lat ||| BitVec.twoPow 128 100) ∧
      (r.cls = contained → t.ic.lat = s.ic.lat ||| BitVec.twoPow 128 101) ∧
      t.col.first = (if r.cls = corrected ∨ s.bit F.FLT_STATUS_FIRST_VALID = true then s.col.first
        else some { r with first := true }) ∧
      (r.cls ≠ corrected → t.get F.FLT_STATUS_FIRST_VALID = 1) ∧
      (∀ i : Fin 8, t.col.pend[i] = if r.cls = contained ∧ freeEntry s.col.pend = some i then
          some { record := r, tag := s.col.tag + 1, warned := false, left := s.escUnits, half := s.escUnits / 2 }
        else s.col.pend[i]) ∧
      t.col.cause = (if r.cls = corrected ∨ r.cls = contained then s.col.cause else s.col.cause.orElse fun _ => some r)) ∧
  (∀ s : State, s.col.queue = [] → exec .faultMessage s = .next s)

/-- With the escalation timers running, for an entry in use and room in the report queue: ESCALATION, once its time is over, frees the entry and no other, makes a copy of its record, with class FATAL, ESCALATED set and the present time, the newest log entry and, if there is none, the cause that takes the node to Caldera, and counts it; before that time nothing changes. With the clocks running, ACK with GO 1 frees the entry whose number and tag it gives and clears ACK_MISS; with another tag, or on a free entry, it frees nothing and sets ACK_MISS; with GO 0 nothing changes. Completes: ESCALATION, ACK. -/
def Obligations.EscalationAndAcknowledge : Prop :=
  (∀ (i : Fin 8) (e : PendEntry) (s : State), s.escRuns = true → s.col.pend[i] = some e → s.rep.queue.length ≤ 24 →
    (e.left = 0 → completes (.escalation i) s [.regs, .col, .rep] fun t =>
      let k := if s.get F.FLT_LOG_HEAD_COUNT = 0 then 0 else (s.get F.FLT_LOG_HEAD_NEWEST + 1) % 16
      ∃ x, let r : FaultRec := { e.record with cls := fatal, escalated := true, time := s.now, ext := x }
        t.col.pend = s.col.pend.set i none ∧ (∀ j : Fin 16, t.col.log[j] = if j.val = k then some r else s.col.log[j]) ∧
        t.col.cause = (s.col.cause.orElse fun _ => some r) ∧
        t.get F.FLT_CNT_B_ESCALATED = min (s.get F.FLT_CNT_B_ESCALATED + 1) 0xFFFF) ∧
    (e.left ≠ 0 → exec (.escalation i) s = .next s)) ∧
  (∀ (v : Word) (s : State), s.clocked = true →
    let i : Fin 8 := Fin.ofNat 8 (F.FLT_ACK_ENTRY.of v)
    (F.FLT_ACK_GO.of v = 0 → exec (.ack v) s = .next s) ∧
    (F.FLT_ACK_GO.of v ≠ 0 → ∀ e, s.col.pend[i] = some e → e.tag.toNat = F.FLT_ACK_TAG.of v →
      completes (.ack v) s [.regs, .col] fun t =>
        t.col.pend = s.col.pend.set i none ∧ t.get F.FLT_STATUS_ACK_MISS = 0) ∧
    (F.FLT_ACK_GO.of v ≠ 0 → (∀ e, s.col.pend[i] = some e → e.tag.toNat ≠ F.FLT_ACK_TAG.of v) →
      completes (.ack v) s [.regs, .col] fun t => t.col = s.col ∧ t.get F.FLT_STATUS_ACK_MISS = 1))

/-- With the clocks running, an arming write in K8 that names an instance, with BITS not 3, BITS 2 on a SECDED checker only and, for a checker whose inverted check can raise a FATAL fault, FATAL_OK, sets ARM, clears DONE and writes CHECKER, SEL and BITS. In any other case it leaves ARM 0 and raises INJECT_REFUSED, a CORRECTED PROTOCOL fault of source 0x00 with reason 0x02. Nothing but registers and the collector changes. Completes: ARM. -/
def Obligations.ArmingRefused : Prop :=
  ∀ s : State, s.clocked = true →
    (∀ v : Word,
      let c := F.FLT_INJ_CHECKER.of v
      let bits := F.FLT_INJ_BITS.of v
      let sound : Prop := s.inK8 = true ∧ (∃ n, checkerInstances c = some n ∧ F.FLT_INJ_SEL.of v < n) ∧ bits ≠ 3 ∧
        (bits = 2 → c = 1 ∨ c = 4 ∨ c = 5 ∨ c = 7) ∧
        (c = 3 ∨ c = 6 ∨ c = 14 ∨ (c = 13 ∧ F.FLT_INJ_CONTINUOUS.of v ≠ 0) → F.FLT_INJ_FATAL_OK.of v ≠ 0)
      (sound → completes (.arm v) s [.regs, .col] fun t =>
        t.col = s.col ∧ t.get F.FLT_INJ_ARM = 1 ∧ t.get F.FLT_INJ_DONE = 0 ∧ t.get F.FLT_INJ_CHECKER = c ∧
        t.get F.FLT_INJ_SEL = F.FLT_INJ_SEL.of v ∧ t.get F.FLT_INJ_BITS = bits) ∧
      (¬ sound → completes (.arm v) s [.regs, .col] fun t => t.get F.FLT_INJ_ARM = 0 ∧
        t.col = (s.raise { src := 0x00, kind := kPROTOCOL, cls := corrected, reason := 0x02, detail := detail3 c }).col))

/-- With the clocks running: CLEAR_FIRST clears FIRST_VALID and FIRST_RETAINED and changes registers alone; PULSE_END ends a pulse whose time is over and changes nothing else; SELF_PARITY makes a FATAL record with source 0x00, reason 0x01 and COLLECTOR_SELF the newest log entry, FLT.FIRST if none is held, and the cause if there is none. WARNED of an entry in use, in K8 with the escalation timers running and once half its time or less remains, sets its WARNED bit and latches source 102, once. Completes: WARNED, CLEAR_FIRST, PULSE_END, SELF_PARITY. -/
def Obligations.CollectorCommands : Prop :=
  (∀ (i : Fin 8) (e : PendEntry) (s : State), s.escRuns = true → s.col.pend[i] = some e →
    (e.warned = false → e.left ≤ e.half → completes (.warned i) s [.regs, .col, .ic] fun t =>
      t.col.pend = s.col.pend.set i (some { e with warned := true }) ∧ t.ic.lat = s.ic.lat ||| BitVec.twoPow 128 102) ∧
    (e.warned = true → exec (.warned i) s = .next s)) ∧
  (∀ s : State, s.clocked = true →
    (completes .clearFirst s [.regs] fun t => t.get F.FLT_STATUS_FIRST_VALID = 0 ∧ t.get F.FLT_STATUS_FIRST_RETAINED = 0) ∧
    (s.col.pulse = true → s.col.pulseEnd ≤ s.cycles →
      exec .pulseEnd s = .next { s with col := { s.col with pulse := false } }) ∧
    (∀ off : BitVec 16, completes (.selfParity off) s [.regs, .col] fun t =>
      let k := if s.get F.FLT_LOG_HEAD_COUNT = 0 then 0 else (s.get F.FLT_LOG_HEAD_NEWEST + 1) % 16
      ∃ r : FaultRec, r.source = 0x00 ∧ r.kind = kPARITY ∧ r.cls = fatal ∧ r.reason = 0x01 ∧ r.collectorSelf = true ∧
        (∀ j : Fin 16, t.col.log[j] = if j.val = k then some r else s.col.log[j]) ∧
        t.col.first = (if s.bit F.FLT_STATUS_FIRST_VALID = true then s.col.first else some { r with first := true }) ∧
        t.col.cause = (s.col.cause.orElse fun _ => some r)))

/-- With the clocks running, READY with mask m: a slot of m that is IDLE becomes READY, one that is READY stays so and each such is counted in COALESCED (which stops at its greatest value), one that is RUNNING gets RERUN; slots made READY stand behind all that were ready before, in ascending order; every other slot is as before. UNREADY with mask m: a slot of m that is READY becomes IDLE, one that is RUNNING loses RERUN, every other slot is as before. READY touches no register but HRT.CNT and UNREADY none. Completes: READY, UNREADY. -/
def Obligations.HearthReady : Prop :=
  (∀ (m : BitVec 64) (s : State), s.clocked = true → completes (.ready m) s [.regs, .hrt] fun t =>
    (∀ i : Fin 64, t.hrt.slots[i].st =
      if m.getLsbD i = true ∧ s.hrt.slots[i].st = .idle then .ready else s.hrt.slots[i].st) ∧
    (∀ i : Fin 64, s.hrt.slots[i].st = .running → t.hrt.slots[i].rerun = (s.hrt.slots[i].rerun || m.getLsbD i)) ∧
    (∀ i j : Fin 64, m.getLsbD i = true → s.hrt.slots[i].st = .idle → m.getLsbD j = true → s.hrt.slots[j].st = .idle →
      i < j → s.hrt.order ≤ t.hrt.slots[i].since ∧ t.hrt.slots[i].since < t.hrt.slots[j].since) ∧
    (∀ i : Fin 64, ¬ (m.getLsbD i = true ∧ s.hrt.slots[i].st = .idle) → t.hrt.slots[i].since = s.hrt.slots[i].since) ∧
    (∀ i : Fin 64, m.getLsbD i = false → t.hrt.slots[i] = s.hrt.slots[i]) ∧
    t.get F.HRT_CNT_COALESCED = min 0xFFFF (s.get F.HRT_CNT_COALESCED +
      ((List.finRange 64).filter fun i : Fin 64 => m.getLsbD i.val && s.hrt.slots[i].st == .ready).length) ∧
    regsBut [F.HRT_CNT_COALESCED.addr] s t) ∧
  (∀ (m : BitVec 64) (s : State), s.clocked = true → completes (.unready m) s [.hrt] fun t => ∀ i : Fin 64,
    t.hrt.slots[i] = if m.getLsbD i = false then s.hrt.slots[i] else match s.hrt.slots[i].st with
      | .idle => s.hrt.slots[i]
      | .ready => { s.hrt.slots[i] with st := .idle }
      | .running => { s.hrt.slots[i] with rerun := false })

/-- In K8, not draining, if an idle Ember e to which no interrupt is presented is named by the affinity of a READY slot (an AFFINITY of 0 acts as 0xF) and no lower Ember is so, DISPATCH starts on e a slot i that is READY, names e, and that no other READY slot naming e precedes by (PRIO, time it became READY, number). Ember e is then in task i at the slot's ENTRY with flags clear, an empty return stack, ARG in W0, the slot number in W1 and the other W registers kept; the slot is RUNNING without RERUN, LAST_EMBER is e and RUNCYC is 0; the other Embers, the other slots and all other registers are as before. While draining nothing changes. Outside Caldera and hold with timers running, for an enabled timer i that is due: TIMER_FIRE sets bit i of FIRED and strobes source 104 + i; a period of 0 clears EN and keeps the due time; another period moves the due time on by whole periods to the first time later than now and adds the due times passed over to MISSED, which stops at its greatest value; with TASK_EN 0 no slot changes. A timer not enabled or not due changes nothing. With the clocks running RESTART of a STOPPED Ember clears STOPPED and empties its return stack and changes nothing else; on an Ember not STOPPED it changes nothing. Completes: DISPATCH, TIMER_FIRE, RESTART. -/
def Obligations.TasksAndTimers : Prop :=
  ((∀ (e : Fin 4) (s : State), s.inK8 = true → s.hrt.draining = false →
     let free (x : Fin 4) : Prop := s.emb[x].idle = true ∧ (∀ p ∈ s.presented, p.1 ≠ x) ∧
       ∃ j : Fin 64, s.hrt.slots[j].st = .ready ∧ (s.affinity j).testBit x = true
     free e → (∀ x, x < e → ¬ free x) → completes .dispatch s [.regs, .hrt, .emb] fun t =>
       ∃ i : Fin 64, s.hrt.slots[i].st = .ready ∧ (s.affinity i).testBit e = true ∧
         (∀ j : Fin 64, s.hrt.slots[j].st = .ready → (s.affinity j).testBit e = true → j ≠ i →
           s.get (F.TSK_CFG_PRIO i) < s.get (F.TSK_CFG_PRIO j) ∨
           (s.get (F.TSK_CFG_PRIO i) = s.get (F.TSK_CFG_PRIO j) ∧
             (s.hrt.slots[i].since < s.hrt.slots[j].since ∨ (s.hrt.slots[i].since = s.hrt.slots[j].since ∧ i < j)))) ∧
         t.emb[e].inTask = true ∧ t.emb[e].slot = i ∧ t.emb[e].pc.toNat = s.get (F.TSK_CFG_ENTRY i) ∧
         t.emb[e].flags = Flags.reset ∧ t.emb[e].rstack = [] ∧
         t.emb[e].w[0].toNat = s.get (F.TSK_ARG_ARG i) ∧ t.emb[e].w[1].toNat = i.val ∧
         (∀ r : Fin 32, 2 ≤ r.val → t.emb[e].w[r] = s.emb[e].w[r]) ∧ (∀ x, x ≠ e → t.emb[x] = s.emb[x]) ∧
         t.hrt.slots[i].st = .running ∧ t.hrt.slots[i].rerun = false ∧
         t.hrt.slots[i].budget = s.get (F.TSK_BUDGET_BUDGET i) ∧ (∀ j : Fin 64, j ≠ i → t.hrt.slots[j] = s.hrt.slots[j]) ∧
         t.get (F.TSK_STAT_LAST_EMBER i) = e.val ∧ t.get (F.EMB_RUNCYC_CYCLES e) = 0 ∧
         regsBut [(F.TSK_STAT_LAST_EMBER i).addr, (F.EMB_RUNCYC_CYCLES e).addr] s t) ∧
   (∀ s : State, s.hrt.draining = true → exec .dispatch s = .next s)) ∧
  ((∀ (i : Fin 16) (s : State), s.live = true → s.hrt.timersStopped = false → s.bit (F.TMR_CTL_EN i) = true →
     s.due i ≤ s.now.toNat →
     let p := s.get (F.TMR_PERIOD_PERIOD i)
     completes (.timerFire i) s [.regs, .hrt, .ic] fun t =>
       (t.get F.HRT_TMR_EVENT_FIRED).testBit i = true ∧ t.ic.arrived.getLsbD (104 + i) = true ∧ t.ic.lat = s.ic.lat ∧
       (s.bit (F.TMR_CTL_TASK_EN i) = false → t.hrt = s.hrt) ∧
       (p = 0 → t.get (F.TMR_CTL_EN i) = 0 ∧ t.due i = s.due i) ∧
       (p ≠ 0 → s.now.toNat + p < 2 ^ 64 → t.get (F.TMR_CTL_EN i) = s.get (F.TMR_CTL_EN i) ∧
         ∃ k, t.due i = s.due i + (k + 1) * p ∧ s.now.toNat < t.due i ∧ t.due i ≤ s.now.toNat + p ∧
           t.get (F.TMR_CTL_MISSED i) = min (s.get (F.TMR_CTL_MISSED i) + k) (2 ^ (F.TMR_CTL_MISSED i).width - 1)) ∧
       regsBut [F.HRT_TMR_EVENT_FIRED.addr, (F.TMR_CTL_EN i).addr, (F.TMR_DUE_LO_DUE i).addr, (F.TMR_DUE_HI_DUE i).addr,
         (cntField (104 + i)).addr, F.HRT_CNT_COALESCED.addr] s t) ∧
   (∀ (i : Fin 16) (s : State), s.bit (F.TMR_CTL_EN i) = false ∨ s.now.toNat < s.due i →
     exec (.timerFire i) s = .next s) ∧
   (∀ (e : Fin 4) (s : State), s.clocked = true →
     exec (.restart e) s = .next (if s.emb[e].stopped = true then
       { s with emb := s.emb.set e { s.emb[e] with stopped := false, rstack := [] } } else s)))

/-- In K8 with no checker armed, INTERRUPT leaves each Ember either as it was or with one frame more: the frame holds a source that is pending, enabled, of PRIO at least 1, routed to that Ember, not in service anywhere and of a PRIO above the Ember's effective level, and the Ember could be presented one; the frame keeps flags, task state and pc (the next pc where a WAIT has reached its target), its level is the source's PRIO, W registers and flags are untouched and the Ember continues at the vector or scan entry, with LAST and LAST_VALID set. No source is taken by two Embers. If some source can be presented, the most urgent candidate with an Ember to go to is taken. With the clocks running LAT_SET of word i sets the latch bit of each source of that word whose bit of v is 1 and that is not reserved, clears none and changes no enable. Completes: INTERRUPT, LAT_SET. -/
def Obligations.InterruptPresentation : Prop :=
  (∀ (s : State), s.inK8 = true → s.bit F.FLT_INJ_ARM = false → completes .interrupt s [.regs, .emb] fun t =>
    (∀ e : Fin 4, t.emb[e] = s.emb[e] ∨ ∃ src f, src < 128 ∧ t.emb[e].frames = f :: s.emb[e].frames ∧
      f.source = src ∧ f.level = s.prio src ∧
      f.pc = (if s.emb[e].waiting.any (fun g => decide (g.toNat ≤ s.now.toNat)) = true then s.emb[e].pc + 1 else s.emb[e].pc) ∧
      f.flags = s.emb[e].flags ∧ f.inTask = s.emb[e].inTask ∧
      s.pend src = true ∧ s.ic.en.getLsbD src = true ∧ 1 ≤ s.prio src ∧ s.inService src = false ∧
      (s.get (F.IC_SRC_ROUTE src)).testBit e = true ∧ s.eligible e = true ∧ s.effLevel e < s.prio src ∧
      t.emb[e].w = s.emb[e].w ∧ t.emb[e].flags = s.emb[e].flags ∧ t.emb[e].inTask = s.emb[e].inTask ∧
      t.emb[e].pc = s.handlerEntry e src ∧ t.get (F.IC_ESTAT_LAST e) = src ∧ t.get (F.IC_ESTAT_LAST_VALID e) = 1) ∧
    (∀ (e x : Fin 4) (f g : Frame), e ≠ x → t.emb[e].frames = f :: s.emb[e].frames →
      t.emb[x].frames = g :: s.emb[x].frames → f.source ≠ g.source) ∧
    (∀ src rest, s.candidates = src :: rest → (∃ e : Fin 4, s.choose [] src = some e) →
      ∃ (e : Fin 4) (f : Frame), t.emb[e].frames = f :: s.emb[e].frames ∧ f.source = src)) ∧
  (∀ (i : Fin 4) (v : Word) (s : State), s.clocked = true → completes (.latSet i v) s [.regs, .ic] fun t =>
    t.ic.en = s.ic.en ∧ ∀ j : Fin 128, t.ic.lat.getLsbD j =
      (s.ic.lat.getLsbD j || (decide (j.val / 32 = i.val) && v.getLsbD (j.val % 32) && !reservedSource j.val)))

/-- On an Ember whose sound word at its program counter is the command's with no store waiting: INSERT (wb even) and CANCEL perform the list operation and write its status to wd, Z set when an entry went in or out; GSTART starts the channel at address wa and writes STARTED, BUSY or REFUSED with Z for STARTED; DOORBELL rings (where another Ember rings the same bit in the same cycle it only sets RUNG, the strobe being the other's); WPRED (wd and wb even, angle below 2^20) writes the predicted time to the pair, or 0 with V set where there is none; WPOS writes the wheel's position pair with Z when it is invalid. BSEND with a to 26 writes 1 while a request is in progress, else 2 for a TYPE that is neither CONFIG nor QUERY, else 0 and sends W registers a to a+5. SHIFT pushes n words if there is room for all and writes 0; while a configuration is pending it writes n and pushes none; else it waits. An odd pair, or an operand that runs past W31, raises ILLEGAL. Completes: INSERT, CANCEL, GSTART, DOORBELL, WPOS, WPRED, BSEND, SHIFT. -/
def Obligations.EngineInstructions : Prop :=
  (∀ (e : Fin 4) (d a b t : Fin 32) (ch : ChanSel) (s : State), runs e s = true → s.emb[e].sbuf = [] →
    let m := s.emb[e]
    let c : Fin 64 := match ch with
      | .num c => c
      | .reg r => Fin.ofNat 64 m.w[r].toNat
    let illegal := enterException e .illegal m.pc (s.wordAddr m.pc) s
    (b.val % 2 = 0 →
      let r := listInsert c (m.w[oddOf b] ++ m.w[b]) m.w[a] m.w[t] s
      performs (.insert e d a b t ch) s
      (.next (retires e (m.w.set d (BitVec.ofNat 32 r.1)) { m.flags with z := decide (r.1 ≤ 1) } r.2))) ∧
    (b.val % 2 = 1 → performs (.insert e d a b t ch) s (.next illegal)) ∧
    performs (.cancel e d t ch) s (.next (retires e (m.w.set d (BitVec.ofNat 32 (listCancel c m.w[t] s).1))
      { m.flags with z := (listCancel c m.w[t] s).1 == 0 } (listCancel c m.w[t] s).2))) ∧
  (∀ (e : Fin 4) (d a : Fin 32) (g : Fin 8) (n : Fin 4) (s : State), runs e s = true → s.emb[e].sbuf = [] →
    let m := s.emb[e]
    let r := geyserStart g m.w[a].toNat s
    performs (.gstart e d g a) s (.next (retires e (m.w.set d (BitVec.ofNat 32 r.1)) { m.flags with z := r.1 == 0 } r.2)) ∧
    performs (.doorbell e ⟨n, false⟩) s (.next (retires e m.w m.flags (ringDoorbell n s))) ∧
    performs (.doorbell e ⟨n, true⟩) s (.next (retires e m.w m.flags (s.setBitOf F.HRT_DOORBELL_RUNG n)))) ∧
  (∀ (e : Fin 4) (d b : Fin 32) (w : Fin 8) (s : State), runs e s = true → s.emb[e].sbuf = [] →
    let m := s.emb[e]
    let k := m.w[oddOf b] ++ m.w[b]
    let illegal := enterException e .illegal m.pc (s.wordAddr m.pc) s
    let lo := s.peek (F.WHL_POS_ANG_ANGLE w).addr
    let hi := s.peek (F.WHL_POS_REV_REV w).addr
    (d.val % 2 = 0 → performs (.wpos e d w) s
      (.next (retires e (withPair m.w d (hi ++ lo)) { m.flags with z := !lo.getLsbD 31 } s))) ∧
    (d.val % 2 = 0 → b.val % 2 = 0 → ∀ p, k.extractLsb' 20 12 = 0 →
      s.predict w (posOf (k.extractLsb' 32 32) (k.extractLsb' 0 20).toNat) = some p →
      performs (.wpred e d b w) s (.next (retires e (withPair m.w d p) { m.flags with v := false } s))) ∧
    (d.val % 2 = 0 → b.val % 2 = 0 → (k.extractLsb' 20 12 ≠ 0 ∨
      s.predict w (posOf (k.extractLsb' 32 32) (k.extractLsb' 0 20).toNat) = none) →
      performs (.wpred e d b w) s (.next (retires e (withPair m.w d 0) { m.flags with v := true } s))) ∧
    (d.val % 2 = 1 → performs (.wpos e d w) s (.next illegal) ∧ performs (.wpred e d b w) s (.next illegal))) ∧
  (∀ (e : Fin 4) (d a : Fin 32) (type : Byte) (s : State), runs e s = true → s.emb[e].sbuf = [] →
    let m := s.emb[e]
    let done (v : Nat) (s' : State) : Host.Outcome State Fault Refusal :=
      .next (retires e (m.w.set d (BitVec.ofNat 32 v)) { m.flags with z := v == 0 } s')
    (26 < a.val → performs (.bsend e d a type) s (.next (enterException e .illegal m.pc (s.wordAddr m.pc) s))) ∧
    (a.val ≤ 26 → s.bit F.BAR_MBX_TXCTL_BUSY = true → performs (.bsend e d a type) s (done 1 s)) ∧
    (a.val ≤ 26 → s.bit F.BAR_MBX_TXCTL_BUSY = false → type ≠ tCONFIG → type ≠ tQUERY →
      performs (.bsend e d a type) s (done 2 s)) ∧
    (a.val ≤ 26 → s.bit F.BAR_MBX_TXCTL_BUSY = false → type = tCONFIG ∨ type = tQUERY →
      ∃ s' : State, performs (.bsend e d a type) s (done 0 s') ∧ only [.regs, .ic, .chan, .bar] s s' ∧
        ∀ i : Fin 6, s'.get (F.BAR_MBX_TX_DATA i) = (m.w[Fin.ofNat 32 (a.val + i.val)]).toNat)) ∧
  (∀ (e : Fin 4) (d a : Fin 32) (g : Fin 3) (n1 : Fin 8) (s : State), runs e s = true → s.emb[e].sbuf = [] →
    let m := s.emb[e]
    let n := n1.val + 1
    (32 ≤ a.val + n1.val → performs (.shift e d g a n1) s (.next (enterException e .illegal m.pc (s.wordAddr m.pc) s))) ∧
    (a.val + n1.val < 32 → s.grp[g].pending = false → s.grp[g].fifo.length + 2 * n ≤ 32 →
      performs (.shift e d g a n1) s (.next (retires e (m.w.set d 0) { m.flags with z := true }
        ((List.range n).foldl (fun s i => writePlanes g m.w[Fin.ofNat 32 (a.val + i)] s) s)))) ∧
    (a.val + n1.val < 32 → s.grp[g].pending = true → ∃ s' : State, only [.regs, .col] s s' ∧
      performs (.shift e d g a n1) s (.next (retires e (m.w.set d (BitVec.ofNat 32 n)) { m.flags with z := false } s')) ∧
      s'.get (F.PG_CNT_DISCARDED g) = min (s.get (F.PG_CNT_DISCARDED g) + 2 * n) (2 ^ (F.PG_CNT_DISCARDED g).width - 1)) ∧
    (a.val + n1.val < 32 → s.grp[g].pending = false → 32 < s.grp[g].fifo.length + 2 * n →
      atWord (.shift e d g a n1) s = true → ∃ t, exec (.shift e d g a n1) s = .next t ∧ only [.emb] s t ∧ t.emb[e].stall.isSome = true ∧ t.emb[e].pc = m.pc ∧
        t.emb[e].w = m.w ∧ t.emb[e].flags = m.flags))

/-- Outside Caldera and hold, on an Ember with no STORE fault or BUDGET held and no checker armed, STORE_DRAIN takes the oldest store out of the buffer and puts the eight bytes of a doubleword to a bank that is On there, with nobody else asking and no march holding the bank; while a march holds it the next store, to another bank, drains instead. With an empty buffer and nothing held nothing changes. In K8 on an Ember in progress: EXCEPTION of a cause that is due (log entry 13), with an empty buffer, sets EXC_ACTIVE, puts pc and flags in EMB.EPC, the cause's code in EMB.CAUSE, its address in EMB.EADDR and continues at HRT.EXC_VEC; while EXC_ACTIVE is set it stops the Ember out of its task with no frame. A command that is not the word at the pc changes nothing where that word is legal and raises ILLEGAL where it is not. WATCHDOG is that exception on an instruction stalled 2^20 cycles and nothing on a shorter stall. With the task over its allowance: BUDGET_WARN the first time raises BUDGET_OVERRUN, CORRECTED, and enters BUDGET, or holds it while in an exception, stalled or waiting for a scrub; BUDGET_ABORT, once renewed, not in an exception and with no frame in use, ends the run with ABORTED set, the slot IDLE or READY again, and raises it CONTAINED; the buffer stays. Completes: STORE_DRAIN, EXCEPTION, WATCHDOG, BUDGET_WARN, BUDGET_ABORT. -/
def Obligations.StoreDrainAndAborts : Prop :=
  (∀ (e : Fin 4) (x : StoreEntry) (l : List StoreEntry) (dual : BitVec 9) (others : List (BitVec 9)) (s : State), s.live = true →
    s.emb[e].sbuf = x :: l → s.emb[e].storeFault = none → s.emb[e].budgetHeld = false → s.bit F.FLT_INJ_ARM = false →
    x.size = 8 → x.addr.toNat < spmTop → s.bankOn (s.targetOf x) = true →
    (s.marchHolds (s.targetOf x) = false → (asking dual others).getD (s.targetOf x) 0 = 0 →
      completes (.storeDrain e dual others) s [.emb, .spm] fun t =>
        t.emb[e].sbuf = l ∧ (∀ y, y ≠ e → t.emb[y] = s.emb[y]) ∧
        t.bytesAt (s.fold x.addr.toNat) 8 = leBytes 8 x.data.toNat ∧
        (∀ a, a < s.fold x.addr.toNat ∨ s.fold x.addr.toNat + 8 ≤ a → t.bytesAt a 1 = s.bytesAt a 1)) ∧
    (∀ (y : StoreEntry) (r : List StoreEntry), s.marchHolds (s.targetOf x) = true → l = y :: r → y.size = 8 →
      y.addr.toNat < spmTop → s.targetOf y ≠ s.targetOf x → s.bankOn (s.targetOf y) = true →
      (asking dual others).getD (s.targetOf y) 0 = 0 →
      completes (.storeDrain e dual others) s [.regs, .emb, .spm] fun t => t.emb[e].sbuf = x :: r ∧
        t.bytesAt (s.fold y.addr.toNat) 8 = leBytes 8 y.data.toNat)) ∧
  (∀ (e : Fin 4) (dual : BitVec 9) (others : List (BitVec 9)) (s : State), s.emb[e].sbuf = [] → s.emb[e].storeFault = none →
    s.emb[e].budgetHeld = false → exec (.storeDrain e dual others) s = .next s) ∧
  (∀ (e : Fin 4) (c : Exc) (a : Word) (s : State), s.inK8 = true → s.emb[e].busy = true → s.emb[e].sbuf = [] →
    causeDue e c a s →
    (s.emb[e].excActive = false → completes (.exception e c a) s [.regs, .col, .emb] fun t =>
      t.emb[e].excActive = true ∧ t.emb[e].w = s.emb[e].w ∧ t.emb[e].pc.toNat = s.get F.HRT_EXC_VEC_ENTRY ∧
      t.get (F.EMB_EPC_PC e) = s.emb[e].pc.toNat ∧ t.get (F.EMB_EPC_FLAGS e) = s.emb[e].flags.code ∧
      t.get (F.EMB_CAUSE_CAUSE e) = excCode c ∧ t.get (F.EMB_EADDR_ADDR e) = a.toNat ∧
      (∀ y, y ≠ e → t.emb[y] = s.emb[y])) ∧
    (s.emb[e].excActive = true → completes (.exception e c a) s [.regs, .col, .hrt, .emb] fun t =>
      t.emb[e].stopped = true ∧ t.emb[e].excActive = false ∧ t.emb[e].frames = [] ∧ t.emb[e].inTask = false ∧
      (∀ y, y ≠ e → t.emb[y] = s.emb[y]))) ∧
  (∀ (e : Fin 4) (c : Instr) (m : Micro) (s : State), runs e s = true → wordOf c = some (e, m) → atWord c s = false →
    (microLegal (s.csWord (s.get F.HRT_SWAP_ACTIVE_PAGE) s.emb[e].pc.toNat) = true → exec c s = .next s) ∧
    (microLegal (s.csWord (s.get F.HRT_SWAP_ACTIVE_PAGE) s.emb[e].pc.toNat) = false →
      exec c s = .next (enterException e .illegal s.emb[e].pc (s.wordAddr s.emb[e].pc) s))) ∧
  (∀ (e : Fin 4) (st : Stall) (s : State), s.inK8 = true → s.emb[e].busy = true → s.emb[e].stall = some st →
    exec (.watchdog e) s = .next (if st.cycles < 2 ^ 20 then s else enterException e .watchdog s.emb[e].pc st.addr s)) ∧
  (∀ (e : Fin 4) (s : State), s.inK8 = true → s.emb[e].busy = true → s.overBudget e = true → s.emb[e].overran = false →
    s.col.queue.length < 32 →
    let f : FaultSpec := { src := 0x06, kind := kBUDGET_OVERRUN, cls := corrected, reason := 0x01,
                           detail := detail3 s.emb[e].slot e }
    let held : Prop := s.emb[e].excActive = true ∨ s.emb[e].stall ≠ none ∨ s.emb[e].scrubWait = true
    (held → completes (.budgetWarn e) s [.col, .emb] fun t =>
      t.col = (s.raise f).col ∧ t.emb = s.emb.set e { s.emb[e] with overran := true, budgetHeld := true }) ∧
    (¬ held → s.emb[e].sbuf = [] →
      completes (.budgetWarn e) s [.regs, .col, .emb] fun t =>
        t.col = (s.raise f).col ∧ t.emb[e].overran = true ∧ t.emb[e].excActive = true ∧
        t.get (F.EMB_CAUSE_CAUSE e) = 0x09 ∧ t.get (F.EMB_EPC_PC e) = s.emb[e].pc.toNat ∧
        t.emb[e].pc.toNat = s.get F.HRT_EXC_VEC_ENTRY)) ∧
  (∀ (e : Fin 4) (s : State), s.inK8 = true → s.emb[e].busy = true → s.overBudget e = true → s.emb[e].renewed = true →
    s.emb[e].excActive = false → s.emb[e].frames = [] → s.emb[e].scrubWait = false →
    (∀ x, s.emb[e].stall = some x → x.inShift = true) →
    let i := s.emb[e].slot
    completes (.budgetAbort e) s [.regs, .col, .hrt, .emb] fun t =>
      t.emb[e].inTask = false ∧ t.emb[e].sbuf = s.emb[e].sbuf ∧ t.emb[e].w = s.emb[e].w ∧
      t.get (F.TSK_STAT_ABORTED i) = 1 ∧ t.get F.HRT_CNT_ABORTED = min (s.get F.HRT_CNT_ABORTED + 1) 0xFFFF ∧
      (s.hrt.slots[i].rerun = false → t.hrt.slots[i].st = .idle) ∧ (s.hrt.slots[i].rerun = true → t.hrt.slots[i].st = .ready) ∧
      t.col = (s.raise { src := 0x06, kind := kBUDGET_OVERRUN, cls := contained, reason := 0x02,
                         detail := detail3 i e }).col)

/-- With the clocks running, for every bank the register covers: POWER takes the state written, except that 3 and a move from Off to Retention are ignored; a bank On that is asked for Retention or Off is no longer On; asked for Off, On or Retained, it reads 0 everywhere; asked for Retention from On it keeps its content; from Retention or Off asked for On it begins its wake, dated now. The bytes of a bank whose state is not asked to change are kept. BANK_ON, 537 cycles after the write (from Off the fill of 4,096 words more, 2,048 in bank 16), makes the bank On, zeroed from Off and unchanged from Retention; before that nothing changes. Completes: POWER_WRITE, BANK_ON. -/
def Obligations.BankPowerStates : Prop :=
  (∀ (b : Fin 17) (v : Word) (reached : Nat) (s : State), s.clocked = true →
    let hi := decide (b.val = 16)
    let q := if b.val = 16 then v.toNat % 4 else v.toNat / 4 ^ b.val % 4
    let old := s.get (powerField b)
    completes (.powerWrite hi v reached) s [.regs, .spm, .free] fun t =>
      t.get (powerField b) = (if q = 3 ∨ old = 3 ∨ (old = 2 ∧ q = 1) then old else q) ∧
      t.bankOn b = (s.bankOn b && !(old == 0 && (q == 1 || q == 2))) ∧
      (q = 2 → old = 0 ∨ old = 1 → ∀ a, bankLo b ≤ a → a < bankHi b → tabGet 0 t.spm.mem a = 0) ∧
      (old = q ∨ (old = 0 ∧ q = 1 ∧ s.spm.wake[b] ≠ some .fromOff) ∨ (q = 0 ∧ old ≠ 3) →
        ∀ a, bankLo b ≤ a → a < bankHi b → tabGet 0 t.spm.mem a = tabGet 0 s.spm.mem a) ∧
      (old = 1 → q = 0 → t.spm.wake[b] = some .fromRetention ∧ t.spm.wakeAt[b] = s.cycles) ∧
      (old = 2 → q = 0 → t.spm.wake[b] = some .fromOff ∧ t.spm.wakeAt[b] = s.cycles)) ∧
  (∀ (b : Fin 17) (w : Wake) (s : State), s.clocked = true → s.spm.wake[b] = some w →
    (s.cycles < s.spm.wakeAt[b] + wakeCycles b w → exec (.bankOn b) s = .next s) ∧
    (s.spm.wakeAt[b] + wakeCycles b w ≤ s.cycles → completes (.bankOn b) s [.regs, .spm] fun t =>
      t.bankOn b = true ∧ t.spm.wake = s.spm.wake.set b none ∧ (∀ c : Nat, c ≠ b.val → t.bankOn c = s.bankOn c) ∧
      (∀ a, tabGet 0 t.spm.mem a = if w = .fromOff ∧ bankLo b ≤ a ∧ a < bankHi b then 0 else tabGet 0 s.spm.mem a) ∧
      regsBut [F.SPM_PSTAT_ON.addr] s t)) ∧
  (wakeCycles 0 .fromRetention = 537 ∧ wakeCycles 0 .fromOff = 4633 ∧ wakeCycles 16 .fromOff = 2585)

/-- Outside Caldera and hold, for a running channel of RATE 256 or more that holds no data and whose descriptor copies n contiguous doublewords (no reshuffle, no chain, no interrupt at the end of it) between two ranges of scratchpad that do not overlap, from element 0, all banks On, no word in error, no window enabled, no march running, no checker armed and no Ember asking for scratchpad: DESCRIPTOR_COMPLETE leaves the channel IDLE with END set and one descriptor more counted; every byte of the destination range is the byte at the same place of the source range before, and every other byte of scratchpad is as before. Only registers, the interrupt controller, scratchpad and the channel differ. Completes: DESCRIPTOR_COMPLETE. -/
def Obligations.GeyserCopies : Prop :=
  ∀ (g : Fin 8) (d : Desc) (s : State), s.live = true → s.gsr[g].st = .running →
    s.gsr[g].desc = some d → s.gsr[g].pos = 0 → d.esize = 8 → d.reshuffle = 0 → d.chain = false → d.irqDone = false →
    1 ≤ d.c0 → d.c1 = 1 → d.c2 = 1 → d.ss0 = 8 → d.ds0 = 8 → d.src % 8 = 0 → d.dst % 8 = 0 →
    d.src + 8 * d.c0 ≤ 0x84000 → d.dst + 8 * d.c0 ≤ 0x84000 → d.src + 8 * d.c0 ≤ d.dst ∨ d.dst + 8 * d.c0 ≤ d.src →
    s.get F.SPM_PSTAT_ON = 0x1FFFF → s.spm.ecc = [] → (∀ w, w < 8 → s.window? w = none) → s.bit F.FLT_INJ_ARM = false →
    256 ≤ s.get (F.GSR_RATE_RATE g) → s.gsr[g].ins = [] → s.gsr[g].outs = [] → s.spm.marchBank = none →
    (∀ e : Fin 4, s.emb[e].sbuf = [] ∧ s.emb[e].stall = none) →
    completes (.descriptorComplete g) s [.regs, .ic, .spm, .gsr] fun t =>
      t.gsr[g].st = .idle ∧ t.get (F.GSR_EVENT_END g) = 1 ∧
      t.get (F.GSR_STATUS_DESCS g) = (s.get (F.GSR_STATUS_DESCS g) + 1) % 2 ^ 16 ∧
      (∀ i, i < 8 * d.c0 → tabGet 0 t.spm.mem (d.dst + i) = tabGet 0 s.spm.mem (d.src + i)) ∧
      (∀ a, a < d.dst ∨ d.dst + 8 * d.c0 ≤ a → tabGet 0 t.spm.mem a = tabGet 0 s.spm.mem a) ∧
      (∀ h, h ≠ g → t.gsr[h] = s.gsr[h])

/-- Outside Caldera and hold: GEYSER_GO on a channel not running, with no bus error recorded, reads the 48 bytes at GSR.DESC; if they are readable and the descriptor has no ground for refusal the channel runs it from element 0 with a credit of 256 times BURST (of 1 where BURST is 0), CUR_ADDR holding its address; a descriptor not on 8 bytes or past the end of scratchpad is refused with reason 0x05, one a bus error still recorded forbids with 0x06, and one with a ground of its own with that reason, REFUSED set; on a running channel nothing changes. RESUME of a stopped or aborted channel does the same at CUR_ADDR from the position kept, and on any other channel nothing. ABORT of a running channel with no further block to write makes it ABORTED, its descriptor and position kept; on a channel not running it changes nothing. Outside Caldera and hold, for a channel g of RATE 256 or more and with no data held that runs a descriptor of 8-byte elements without reshuffle with an element left whose source stands in a bank that is not On, no window enabled: BUS_STOP with no further block written on any channel makes every running channel STOPPED at its position with its STOPPED event set, sets BUSERR with the stopped channels' mask, a read, no channel and the address, and raises ACCESS_OFF_BANK and then one BUS_ERR; scratchpad content is unchanged. With g not running, or a list that is not eight long, nothing is stopped: the first changes nothing and the second is refused by name as ill-formed. Completes: GEYSER_GO, RESUME, ABORT, BUS_STOP. -/
def Obligations.GeyserStartsAndStops : Prop :=
  ((∀ (g : Fin 8) (a : Nat) (s : State), s.live = true →
     let descAt : Desc := Desc.ofBytes (s.bytesAt a 48)
     let readable : Prop := a % 8 = 0 ∧ a + 48 ≤ 0x84000 ∧ s.get F.SPM_PSTAT_ON = 0x1FFFF ∧ s.spm.ecc = [] ∧
       (∀ w, w < 8 → s.window? w = none) ∧ s.bit F.FLT_INJ_ARM = false
     let starts (c : Instr) (pos : Nat) (outs : List Nat) : Prop := completes c s [.regs, .gsr] fun t =>
       t.get (F.GSR_CUR_ADDR g) = a ∧
       t.gsr = s.gsr.set g ⟨.running, some descAt, pos, [], outs, 256 * (max 1 (s.get (F.GSR_RATE_BURST g)) : Nat)⟩
     let refuses (r : Nat) : Prop := completes (.geyserGo g) s [.regs, .col, .ic, .gsr] fun t => t.gsr[g].st = .refused ∧
       t.get (F.GSR_STATUS_REASON g) = r ∧ t.get (F.GSR_EVENT_REFUSED g) = 1 ∧ ∀ h, h ≠ g → t.gsr[h] = s.gsr[h]
     (a = s.get (F.GSR_DESC_ADDR g) →
       (s.gsr[g].st = .running → exec (.geyserGo g) s = .next s) ∧
       (s.gsr[g].st ≠ .running → s.bit F.GSR_GSTATUS_BUSERR = true → refuses 0x06) ∧
       (s.gsr[g].st ≠ .running → s.bit F.GSR_GSTATUS_BUSERR = false → a % 8 ≠ 0 ∨ 0x84000 < a + 48 → refuses 0x05) ∧
       (s.gsr[g].st ≠ .running → s.bit F.GSR_GSTATUS_BUSERR = false → readable → ∀ r, s.descRefusal descAt = some r →
         refuses r) ∧
       (s.gsr[g].st ≠ .running → s.bit F.GSR_GSTATUS_BUSERR = false → readable → s.descRefusal descAt = none →
         starts (.geyserGo g) 0 [])) ∧
     (a = s.get (F.GSR_CUR_ADDR g) →
       (s.gsr[g].st ≠ .stopped → s.gsr[g].st ≠ .aborted → exec (.resume g) s = .next s) ∧
       (s.gsr[g].st = .stopped ∨ s.gsr[g].st = .aborted → s.bit F.GSR_GSTATUS_BUSERR = false → readable →
         s.descRefusal descAt = none → starts (.resume g) s.gsr[g].pos s.gsr[g].outs))) ∧
   (∀ (g : Fin 8) (n : Nat) (s : State), s.live = true →
     (s.gsr[g].st = .running → s.gsr[g].pos < ((s.gsr[g].desc).map Desc.count).getD 1 →
       completes (.abort g 0) s [.gsr] fun t => t.gsr[g].st = .aborted ∧ t.gsr[g].desc = s.gsr[g].desc ∧
         t.gsr[g].pos = s.gsr[g].pos ∧ ∀ h, h ≠ g → t.gsr[h] = s.gsr[h]) ∧
     (s.gsr[g].st ≠ .running → exec (.abort g n) s = .next s))) ∧
  ((∀ (g : Fin 8) (d : Desc) (a : Nat) (s : State), s.live = true → s.gsr[g].st = .running →
     256 ≤ s.get (F.GSR_RATE_RATE g) → s.gsr[g].ins = [] → s.gsr[g].outs = [] →
     s.gsr[g].desc = some d → s.gsr[g].pos < d.count → d.esize = 8 → d.reshuffle = 0 → d.srcOf s.gsr[g].pos = (a : Int) →
     a < 0x84000 → s.bankOn (bankOf a) = false → (∀ w, w < 8 → s.window? w = none) →
     completes (.busStop g (List.replicate 8 0)) s [.regs, .col, .ic, .gsr] fun t =>
       (∀ h : Fin 8, s.gsr[h].st = .running → t.gsr[h].st = .stopped ∧ t.gsr[h].desc = s.gsr[h].desc ∧
         t.gsr[h].pos = s.gsr[h].pos ∧ t.get (F.GSR_EVENT_STOPPED h) = 1) ∧
       (∀ h : Fin 8, s.gsr[h].st ≠ .running → t.gsr[h] = s.gsr[h]) ∧
       t.get F.GSR_GSTATUS_BUSERR = 1 ∧ t.get F.GSR_GSTATUS_ERR_TYPE = 0 ∧ t.get F.GSR_GSTATUS_ERR_CH = 0xF ∧
       t.get F.GSR_ERR_ADDR_ADDR = a ∧
       (∀ h : Fin 8, (t.get F.GSR_GSTATUS_STOPPED_MASK).testBit h = decide (s.gsr[h].st = .running)) ∧
       t.col = ((s.raise { src := 0x0B, kind := kACCESS_OFF_BANK, cls := contained, reason := 0x03,
                           detail := detail3 (bankOf a) 4, addr := BitVec.ofNat 32 a, master := 4, access := 0 }).raise
         { src := 0x0A, kind := kBUS_ERR, cls := contained, reason := 0x05,
           detail := detail3 (t.get F.GSR_GSTATUS_STOPPED_MASK) 0 0xF, addr := BitVec.ofNat 32 a, master := 4, access := 0 }).col) ∧
   (∀ (g : Fin 8) (l : List Nat) (s : State), l.length = 8 → s.gsr[g].st ≠ .running → exec (.busStop g l) s = .next s) ∧
   (∀ (g : Fin 8) (l : List Nat) (s : State), l.length ≠ 8 → exec (.busStop g l) s = .refused (.illFormed "BUS_STOP")))

/-- For a sound request under a new sequence number: SCHEDULE for output i with HV enabled, SYNC, at least 50 µs to the gate time and to that of an entry holding the tag, and room (four entries) or the tag held, puts the entry of that tag, level, gate time and sequence number in the schedule of i in place of any with its tag and answers OK; otherwise the schedule stands and the answer is DISABLED, NOT_SYNCED, TOO_LATE or FULL, in that order. BARRIER_CANCEL removes the entry of its tag and answers OK, OK_ABSENT where none has it, TOO_LATE within 50 µs of its gate time, DISABLED while HV is not enabled. An output number above 11 answers BAD_REQUEST (before DISABLED: the model's choice, log entry 105). No other output, no level and nothing outside the MFE changes. A request other than HELLO whose sequence number the powered MFE holds changes no output, no input, no fail state and no stored completion. A 32-byte frame with a wrong CRC changes the count of such frames alone, which stops at 0xFFFF. A frame that is not 32 bytes is refused by name. BARRIER_QUERY under a new number answers its item (item 4, 0 with the MFE's time), an item of 0 or above 6 with BAD_REQUEST, and changes no output and no setting. HELLO clears RESTARTED and the hold and leaves its own completion, OK with the eight ROM versions, as the only one stored and as the frame it sends. COMPLETION, with no report held or waiting, removes the request it names from those outstanding. Completes: SCHEDULE, BARRIER_CANCEL, BARRIER_QUERY, HELLO, COMPLETION; SET_NOW, CONFIG, FAILSTATE, FAILNOW, TIME_FRAME as repeats or with a wrong CRC. -/
def Obligations.MfeSchedule : Prop :=
  ((∀ (f : List Byte) (i : Fin 12) (s : State), toMfe f tSCHEDULE s → (byteAt f 6).toNat = i.val →
     let tag := BitVec.ofNat 32 (leAt f 16 4)
     let gate : SysTime := BitVec.ofNat 64 (leAt f 8 8)
     let o := s.mfe.outs[i]
     let late := s.mfe.tooLate gate = true ∨ ∃ e, o.sched.find? (fun e => e.tag == tag) = some e ∧ s.mfe.tooLate e.gate = true
     let full := (∀ e ∈ o.sched, e.tag ≠ tag) ∧ 4 ≤ o.sched.length
     (s.mfe.enabled = true → s.mfe.sync = true → ¬ late → ¬ full → completes (.schedule f) s [.mfe] fun t =>
       answered f stOK s t ∧ t.mfe.outs = s.mfe.outs.set i
         { o with sched := (o.sched.filter fun x => x.tag != tag) ++ [⟨tag, (byteAt f 7).getLsbD 0, gate, fSeq f⟩] }) ∧
     (s.mfe.enabled = false → completes (.schedule f) s [.mfe] fun t => answered f stDISABLED s t ∧ t.mfe.outs = s.mfe.outs) ∧
     (s.mfe.enabled = true → s.mfe.sync = false → completes (.schedule f) s [.mfe] fun t =>
       answered f stNOT_SYNCED s t ∧ t.mfe.outs = s.mfe.outs) ∧
     (s.mfe.enabled = true → s.mfe.sync = true → late → completes (.schedule f) s [.mfe] fun t =>
       answered f stTOO_LATE s t ∧ t.mfe.outs = s.mfe.outs) ∧
     (s.mfe.enabled = true → s.mfe.sync = true → ¬ late → full → completes (.schedule f) s [.mfe] fun t =>
       answered f stFULL s t ∧ t.mfe.outs = s.mfe.outs)) ∧
   (∀ (f : List Byte) (i : Fin 12) (s : State), toMfe f tCANCEL s → (byteAt f 6).toNat = i.val →
     let tag := BitVec.ofNat 32 (leAt f 16 4)
     let o := s.mfe.outs[i]
     (s.mfe.enabled = false → completes (.barrierCancel f) s [.mfe] fun t => answered f stDISABLED s t ∧ t.mfe.outs = s.mfe.outs) ∧
     (s.mfe.enabled = true → (∀ e ∈ o.sched, e.tag ≠ tag) → completes (.barrierCancel f) s [.mfe] fun t =>
       answered f stOK_ABSENT s t ∧ t.mfe.outs = s.mfe.outs) ∧
     (∀ e, s.mfe.enabled = true → o.sched.find? (fun e => e.tag == tag) = some e → s.mfe.tooLate e.gate = true →
       completes (.barrierCancel f) s [.mfe] fun t => answered f stTOO_LATE s t ∧ t.mfe.outs = s.mfe.outs) ∧
     (∀ e, s.mfe.enabled = true → o.sched.find? (fun e => e.tag == tag) = some e → s.mfe.tooLate e.gate = false →
       completes (.barrierCancel f) s [.mfe] fun t => answered f stOK s t ∧
         t.mfe.outs = s.mfe.outs.set i { o with sched := o.sched.filter fun x => x.tag != tag })) ∧
   (∀ (f : List Byte) (s : State), 12 ≤ (byteAt f 6).toNat →
     (toMfe f tSCHEDULE s → completes (.schedule f) s [.mfe] fun t => answered f stBAD_REQUEST s t ∧ t.mfe.outs = s.mfe.outs) ∧
     (toMfe f tCANCEL s → completes (.barrierCancel f) s [.mfe] fun t =>
       answered f stBAD_REQUEST s t ∧ t.mfe.outs = s.mfe.outs))) ∧
  ((∀ (f : List Byte) (s : State), s.mfe.powered = true → f.length = 32 → frameOk f = true →
     (∃ x ∈ s.mfe.store, x.1 = fSeq f) → ∀ c ∈ [Instr.failstate f, .schedule f, .barrierCancel f, .setNow f, .config f,
       .barrierQuery f, .failnow f], completes c s [.mfe] fun t => t.mfe.outs = s.mfe.outs ∧ t.mfe.ins = s.mfe.ins ∧
         t.mfe.fail = s.mfe.fail ∧ t.mfe.enable = s.mfe.enable ∧ t.mfe.failHeld = s.mfe.failHeld ∧ t.mfe.store = s.mfe.store) ∧
   (∀ (f : List Byte) (s : State), s.mfe.powered = true → f.length = 32 → frameOk f = false →
     ∀ c ∈ [Instr.hello f, .failstate f, .schedule f, .barrierCancel f, .setNow f, .timeFrame f 0, .config f, .barrierQuery f,
       .failnow f, .completion true f], exec c s = .next { s with mfe := { s.mfe with
         crcErr := BitVec.ofNat 16 (min 0xFFFF (s.mfe.crcErr.toNat + 1)) } }) ∧
   (∀ (f : List Byte) (transit : Nat) (s : State), f.length ≠ 32 → ∀ c ∈ [Instr.hello f, .failstate f, .schedule f,
     .barrierCancel f, .setNow f, .timeFrame f transit, .config f, .barrierQuery f, .failnow f, .completion true f],
     exec c s = .refused (.illFormed "DOWN frame")) ∧
   (∀ (f : List Byte) (s : State), toMfe f tQUERY s → completes (.barrierQuery f) s [.mfe] fun t =>
     t.mfe.outs = s.mfe.outs ∧ t.mfe.ins = s.mfe.ins ∧ t.mfe.fail = s.mfe.fail ∧ t.mfe.failHeld = s.mfe.failHeld ∧
     ((byteAt f 6).toNat = 0 ∨ 6 < (byteAt f 6).toNat → answered f stBAD_REQUEST s t) ∧
     ((byteAt f 6).toNat = 4 → (byteAt f 7).toNat = 0 →
       ∃ b, t.mfe.line = barFrame tCOMPLETION false 0 (fSeq f) b ∧ b.length = 24 ∧ byteAt b 0 = stOK ∧
         leAt b 2 8 = ((s.mfe.time.map BitVec.toNat).getD 0))) ∧
   (∀ (f : List Byte) (s : State), frame f tHELLO → s.mfe.powered = true → completes (.hello f) s [.mfe] fun t =>
     t.mfe.restarted = false ∧ t.mfe.hold = none ∧ t.mfe.link = true ∧ t.mfe.outs = s.mfe.outs ∧
     t.mfe.line = barFrame tCOMPLETION false 0 (fSeq f) (complete stOK (romBytes s.mfe)) ∧
     t.mfe.store = [(fSeq f, complete stOK (romBytes s.mfe))]) ∧
   (∀ (f : List Byte) (s : State), frame f tCOMPLETION → s.mfe.powered = true → s.mfe.heldUps = [] → s.mfe.waiting = [] →
     completes (.completion true f) s [.mfe] fun t => t.mfe.outs = s.mfe.outs ∧
       t.mfe.ups = s.mfe.ups.filter fun r => r.seq != fRef f))

/-- For a sound request under a new sequence number: SET_NOW with HV enabled gives each output its mask names its level and leaves the others and every schedule as they are, and ends a held fail state; with HV not enabled it answers DISABLED and changes no output. FAILSTATE stores levels and HV_ENABLE; the outputs move to the fail state where none was given since reset, where they hold it already, or where HV_ENABLE is 0, which ends every schedule too; otherwise they stay. FAILNOW ends every schedule and applies the fail state: every output at its fail level, one opened for overcurrent staying open. Each answers OK; nothing outside the MFE changes. On a powered MFE that holds time t: GATE with no entry due on output i changes nothing; with some due, the output takes the level of a due entry that no other due entry follows in gate time, exactly the entries later than t stay scheduled, the other outputs stand, and a held fail state ends. An entry to be off leaves no overcurrent trip. OVERCURRENT of an output that is on opens it and marks it tripped, keeps its schedule and the other outputs; of an output that is off it does nothing. HVI_ON of an input that is off switches it on once the samples confirm it (one in each of two successive half-periods of its feed phase, else of L1, else 10 ms), dated at the first sample, or with DEADZONE at the midpoint where its feed is present and a lower sample went before; HVI_OFF switches one that is on off after 12 ms of quiet. Each keeps every output's level and schedule and otherwise changes nothing. Completes: SET_NOW, FAILSTATE, FAILNOW, GATE, OVERCURRENT, HVI_ON, HVI_OFF. -/
def Obligations.MfeLevelsAndGates : Prop :=
  ((∀ (f : List Byte) (s : State), toMfe f tSET_NOW s →
     (s.mfe.enabled = true → completes (.setNow f) s [.mfe] fun t => answered f stOK s t ∧ t.mfe.failHeld = false ∧
       ∀ i : Fin 12, t.mfe.outs[i].sched = s.mfe.outs[i].sched ∧ t.mfe.outs[i].level =
         if (leAt f 6 2).testBit i then (leAt f 8 2).testBit i else s.mfe.outs[i].level) ∧
     (s.mfe.enabled = false → completes (.setNow f) s [.mfe] fun t => answered f stDISABLED s t ∧ t.mfe.outs = s.mfe.outs)) ∧
   (∀ (f : List Byte) (s : State), toMfe f tFAILSTATE s →
     let lv := BitVec.ofNat 12 (leAt f 6 2)
     let on := (byteAt f 8).getLsbD 0
     completes (.failstate f) s [.mfe] fun t => answered f stOK s t ∧ t.mfe.fail = some lv ∧ t.mfe.enable = on ∧
       (s.mfe.fail = none ∨ s.mfe.failHeld = true ∨ on = false → t.mfe.failHeld = true ∧
         ∀ i : Fin 12, t.mfe.outs[i].level = (lv.getLsbD i && !s.mfe.outs[i].tripped)) ∧
       (s.mfe.fail ≠ none → s.mfe.failHeld = false → on = true → t.mfe.failHeld = false ∧ t.mfe.outs = s.mfe.outs) ∧
       (∀ i : Fin 12, t.mfe.outs[i].sched = if on = true then s.mfe.outs[i].sched else [])) ∧
   (∀ (f : List Byte) (s : State), toMfe f tFAILNOW s → completes (.failnow f) s [.mfe] fun t =>
     answered f stOK s t ∧ t.mfe.failHeld = true ∧ t.mfe.fail = s.mfe.fail ∧ ∀ i : Fin 12, t.mfe.outs[i].sched = [] ∧
       t.mfe.outs[i].level = ((s.mfe.fail.getD 0).getLsbD i && !s.mfe.outs[i].tripped))) ∧
  ((∀ (i : Fin 12) (x : SysTime) (s : State), s.mfe.powered = true → s.mfe.time = some x →
     let o := s.mfe.outs[i]
     ((∀ e ∈ o.sched, x.toNat < e.gate.toNat) → exec (.gate i) s = .next s) ∧
     ((∃ e ∈ o.sched, e.gate.toNat ≤ x.toNat) → completes (.gate i) s [.mfe] fun t =>
       t.mfe.failHeld = false ∧ (∀ j, j ≠ i → t.mfe.outs[j] = s.mfe.outs[j]) ∧
       t.mfe.outs[i].sched = (o.sched.filter fun e => decide (x.toNat < e.gate.toNat)) ∧
       (∃ e ∈ o.sched, e.gate.toNat ≤ x.toNat ∧ t.mfe.outs[i].level = e.level ∧
         (∀ e' ∈ o.sched, e'.gate.toNat ≤ x.toNat → e'.gate.toNat ≤ e.gate.toNat)) ∧
       (t.mfe.outs[i].level = false → t.mfe.outs[i].tripped = o.tripped) ∧
       (t.mfe.outs[i].level = true → t.mfe.outs[i].tripped = false))) ∧
   (∀ (i : Fin 12) (s : State), s.mfe.powered = true →
     (s.mfe.outs[i].level = false → exec (.overcurrent i) s = .next s) ∧
     (s.mfe.outs[i].level = true → completes (.overcurrent i) s [.mfe] fun t => t.mfe.outs[i].level = false ∧
       t.mfe.outs[i].tripped = true ∧ t.mfe.outs[i].sched = s.mfe.outs[i].sched ∧
       (∀ j, j ≠ i → t.mfe.outs[j] = s.mfe.outs[j]))) ∧
   (∀ (i : Fin 4) (first : SysTime) (later : List SysTime) (below : Option (SysTime × SysTime)) (s : State),
     s.mfe.powered = true →
     let d (x : SysTime) : Int := timeDiff x first
     let edge (on : Bool) (at_ : SysTime) (t : State) : Prop := t.mfe.ins[i].level = on ∧
       (∀ j, j ≠ i → t.mfe.ins[j] = s.mfe.ins[j]) ∧
       (∀ j : Fin 12, t.mfe.outs[j].level = s.mfe.outs[j].level ∧ t.mfe.outs[j].sched = s.mfe.outs[j].sched) ∧
       (s.mfe.time.isSome = true → t.mfe.ins[i].edge = some at_)
     let quiet : Prop := ∀ x, s.mfe.time = some x → 6442451 ≤ d x
     (s.mfe.ins[i].level = true → exec (.hviOn i first later below) s = .next s) ∧
     (s.mfe.ins[i].level = false → s.mfe.confirmed i first later = false → exec (.hviOn i first later below) s = .next s) ∧
     (s.mfe.ins[i].level = false → s.mfe.confirmed i first later = true →
       (below = none ∨ (∀ p, s.mfe.phases[s.mfe.ins[i].feed.toNat]? = some p → p.present = false) →
         completes (.hviOn i first later below) s [.mfe, .free] fun t => t.mfe.ins[i].deadzone = false ∧ edge true first t) ∧
       (∀ lo hi p, below = some (lo, hi) → s.mfe.phases[s.mfe.ins[i].feed.toNat]? = some p → p.present = true →
         completes (.hviOn i first later below) s [.mfe, .free] fun t =>
           t.mfe.ins[i].deadzone = true ∧ edge true (midpoint lo hi) t)) ∧
     ((∀ p : Fin 3, s.mfe.phases[p].present = false) → (s.mfe.confirmed i first later = true ↔
       (∃ x ∈ later, 0 < d x ∧ d x ≤ 5368709) ∧ (∃ x ∈ later, 5368709 < d x ∧ d x ≤ 10737418) ∧
         ∀ x, s.mfe.time = some x → 10737418 < d x)) ∧
     (s.mfe.ins[i].level = false → exec (.hviOff i first) s = .next s) ∧
     (¬ quiet → exec (.hviOff i first) s = .next s) ∧
     (s.mfe.ins[i].level = true → quiet → completes (.hviOff i first) s [.mfe, .free] (edge false first))))

/-- For a sound request under a new number, CONFIG item 0x01 for output i stores its input and nominal times, keeps measured times if nothing changed and drops them otherwise, and item 0x02 for input i stores its feed phase; each answers OK and changes no level and no schedule; an unknown item or number answers BAD_REQUEST. TIME_FRAME sets the copy of system time to the time carried plus transit when the MFE holds none or is out of SYNC and more than 2 µs off, and otherwise moves it towards that time by at most 26 units; SYNC is declared at the 16th frame in a row within 0.5 µs and dropped at the 4th in a row beyond 2 µs. MFE_BOOT of an unpowered MFE gives the MFE after its reset, powered, keeping its count of resets; MFE_SUPPLY_LOST of a powered one gives it unpowered with every output open, the count one more (stopping at 0xFFFF) or 0 when its supply itself went, which clears the MAINS and HVI registers too. MFE_HEARTBEAT_LOST, 1 ms after the last valid frame, takes the link down, ends SYNC and every schedule and starts the hold with every output's level kept. MFE_HOLD_END, 100 ms after that, applies the fail state. STATUS_FRAME_SEND records temperature and over-temperature and makes the frame of its flags, levels and lost reports. The MFE retransmits a request 22,893 cycles after its last transmission, at most three times, and gives it up after 200 µs. Nothing outside the MFE changes; before those times nothing changes at all. Completes: CONFIG, TIME_FRAME, MFE_BOOT, MFE_SUPPLY_LOST, MFE_HEARTBEAT_LOST, MFE_HOLD_END, STATUS_FRAME_SEND, RETRANSMISSION, REQUEST_TIMEOUT. -/
def Obligations.MfeOwnLife : Prop :=
  ((∀ (f : List Byte) (i : Fin 12) (s : State), toMfe f tCONFIG s → byteAt f 6 = 0x01 → (byteAt f 7).toNat = i.val →
     let o := s.mfe.outs[i]
     let op := BitVec.ofNat 16 (leAt f 9 2)
     let re := BitVec.ofNat 16 (leAt f 11 2)
     let kept : Prop := o.paired = byteAt f 8 ∧ o.nomOperate = op ∧ o.nomRelease = re
     completes (.config f) s [.mfe] fun t => answered f stOK s t ∧ (∀ j, j ≠ i → t.mfe.outs[j] = s.mfe.outs[j]) ∧
       t.mfe.outs[i].paired = byteAt f 8 ∧ t.mfe.outs[i].nomOperate = op ∧ t.mfe.outs[i].nomRelease = re ∧
       t.mfe.outs[i].level = o.level ∧ t.mfe.outs[i].sched = o.sched ∧
       (kept → t.mfe.outs[i] = o) ∧ (¬ kept → t.mfe.outs[i].operate = none ∧ t.mfe.outs[i].release = none)) ∧
   (∀ (f : List Byte) (i : Fin 4) (s : State), toMfe f tCONFIG s → byteAt f 6 = 0x02 → (byteAt f 7).toNat = i.val →
     completes (.config f) s [.mfe] fun t => answered f stOK s t ∧ t.mfe.ins = s.mfe.ins.set i { s.mfe.ins[i] with feed := byteAt f 8 } ∧
       ∀ j : Fin 12, t.mfe.outs[j].level = s.mfe.outs[j].level ∧ t.mfe.outs[j].sched = s.mfe.outs[j].sched) ∧
   (∀ (f : List Byte) (s : State), toMfe f tCONFIG s →
     byteAt f 6 ≠ 0x01 ∧ byteAt f 6 ≠ 0x02 ∨ 12 ≤ (byteAt f 7).toNat ∨ byteAt f 6 = 0x02 ∧ 4 ≤ (byteAt f 7).toNat →
     completes (.config f) s [.mfe] fun t => answered f stBAD_REQUEST s t ∧ t.mfe.outs = s.mfe.outs ∧ t.mfe.ins = s.mfe.ins) ∧
   (∀ (f : List Byte) (transit : Nat) (s : State), frame f tTIME → s.mfe.powered = true →
     let x : SysTime := BitVec.ofNat 64 (leAt f 8 8 + transit)
     completes (.timeFrame f transit) s [.mfe] fun t => t.mfe.outs = s.mfe.outs ∧ t.mfe.store = s.mfe.store ∧
       (s.mfe.time = none → t.mfe.time = some x) ∧
       (∀ c, s.mfe.time = some c →
         let off := timeDiff x c
         (s.mfe.sync = false → 1073 < off.natAbs → t.mfe.time = some x) ∧
         (s.mfe.sync = true ∨ off.natAbs ≤ 1073 → t.mfe.time = some (c + BitVec.ofInt 64 (max (-26) (min 26 off)))) ∧
         (s.mfe.sync = false → (t.mfe.sync = true ↔ off.natAbs ≤ 268 ∧ 15 ≤ s.mfe.inRun)) ∧
         (s.mfe.sync = true → (t.mfe.sync = false ↔ 1073 < off.natAbs ∧ 3 ≤ s.mfe.outRun))))) ∧
  ((∀ s : State, (s.mfe.powered = true → exec .mfeBoot s = .next s) ∧
     (s.mfe.powered = false →
       exec .mfeBoot s = .next { s with mfe := { Mfe.reset with powered := true, resets := s.mfe.resets } }) ∧
     (s.mfe.powered = true → completes (.mfeSupplyLost true) s [.regs, .ic, .mfe] fun t =>
       t.mfe = { Mfe.reset with resets := 0 } ∧ t.reg 0x400C00B0 = 0 ∧
       ∀ p : Fin 3, t.reg (0x400C0060 + 8 * p) = 0 ∧ t.reg (0x400C0064 + 8 * p) = 0) ∧
     (s.mfe.powered = true → exec (.mfeSupplyLost false) s = .next { s with mfe := { Mfe.reset with
       resets := BitVec.ofNat 16 (min 0xFFFF (s.mfe.resets.toNat + 1)) } }) ∧
     (Mfe.reset.powered = false ∧ Mfe.reset.fail = none ∧ Mfe.reset.restarted = true ∧ Mfe.reset.sync = false ∧
       Mfe.reset.time = none ∧ ∀ i : Fin 12, Mfe.reset.outs[i].level = false ∧ Mfe.reset.outs[i].sched = [])) ∧
   (∀ s : State, s.mfe.powered = true → s.mfe.link = true →
     (s.mfe.clock < s.mfe.heard + usCycles 1000 → exec .mfeHeartbeatLost s = .next s) ∧
     (s.mfe.heard + usCycles 1000 ≤ s.mfe.clock → completes .mfeHeartbeatLost s [.mfe] fun t =>
       t.mfe.link = false ∧ t.mfe.sync = false ∧ t.mfe.ups = [] ∧ t.mfe.time = s.mfe.time ∧ t.mfe.fail = s.mfe.fail ∧
       (s.mfe.failHeld = false → t.mfe.hold = some s.mfe.clock) ∧
       ∀ i : Fin 12, t.mfe.outs[i].level = s.mfe.outs[i].level ∧ t.mfe.outs[i].sched = [])) ∧
   (∀ (c : Nat) (s : State), s.mfe.powered = true → s.mfe.hold = some c →
     (s.mfe.clock < c + usCycles 100000 → exec .mfeHoldEnd s = .next s) ∧
     (c + usCycles 100000 ≤ s.mfe.clock → completes .mfeHoldEnd s [.mfe] fun t => t.mfe.failHeld = true ∧ t.mfe.hold = none ∧
       ∀ i : Fin 12, t.mfe.outs[i].level = ((s.mfe.fail.getD 0).getLsbD i && !s.mfe.outs[i].tripped))) ∧
   (∀ (temp : Byte) (hot : Bool) (s : State), s.mfe.powered = true → completes (.statusFrameSend temp hot) s [.mfe] fun t =>
     t.mfe.temp = temp ∧ t.mfe.overtemp = hot ∧ t.mfe.outs = s.mfe.outs ∧ t.mfe.statusSent.length = 24 ∧
     (byteAt t.mfe.statusSent 1).getLsbD 0 = s.mfe.sync ∧ (byteAt t.mfe.statusSent 1).getLsbD 3 = s.mfe.restarted ∧
     (byteAt t.mfe.statusSent 1).getLsbD 4 = hot ∧ leAt t.mfe.statusSent 6 2 = s.mfe.lost.toNat ∧
     ∀ i : Fin 12, (leAt t.mfe.statusSent 2 2).testBit i = s.mfe.outs[i].level) ∧
   (∀ (q : BitVec 16) (r : UpReq) (s : State), s.mfe.powered = true → s.mfe.ups.find? (fun r => r.seq == q) = some r →
     (r.sends < 4 → r.last + 22893 ≤ s.mfe.clock → completes (.retransmission true q) s [.mfe] fun t =>
       t.mfe.retries = BitVec.ofNat 16 (min 0xFFFF (s.mfe.retries.toNat + 1)) ∧
       t.mfe.ups = s.mfe.ups.map fun x => if x.seq = q then { x with sends := x.sends + 1, last := s.mfe.clock } else x) ∧
     (4 ≤ r.sends ∨ s.mfe.clock < r.last + 22893 → exec (.retransmission true q) s = .next s) ∧
     (s.mfe.clock < r.first + usCycles 200 → exec (.requestTimeout true q) s = .next s) ∧
     (r.first + usCycles 200 ≤ s.mfe.clock → r.type ≠ tHV_EVENT → r.type ≠ tOPTIME → s.mfe.waiting = [] →
       completes (.requestTimeout true q) s [.mfe] fun t => t.mfe.lost = BitVec.ofNat 16 (min 0xFFFF (s.mfe.lost.toNat + 1)) ∧
         t.mfe.ups = s.mfe.ups.filter fun x => x.seq != q)))

/-- On a powered MFE, MAINS_ZERO_CROSSING stores RMS, frequency, distortion and the crossing's time of the phase; a phase is present from 70 V and until below 60 V, its frequency sound from 45 to 65 Hz. With the link up, at most eight requests outstanding and none waiting, one MEASURE becomes outstanding and, with both, seven TEETH frames, whose first tooth with distortion to 8 % is dated within 20 µs of the crossing, and the phase has sent 25 teeth more. With 16 outstanding those eight (or, without both, that one) wait and no tooth is counted; with the link down none is kept. The other phases and the outputs stand. An unpowered MFE does nothing. Completes: MAINS_ZERO_CROSSING. -/
def Obligations.MainsCycles : Prop :=
  (∀ (p : Fin 3) (x : SysTime) (rms freq : BitVec 16) (thd : Byte) (cycle : Word) (s : State), s.mfe.powered = true →
    let present := if s.mfe.phases[p].present = true then decide (600 ≤ rms.toNat) else decide (700 ≤ rms.toNat)
    let ok := decide (4500 ≤ freq.toNat ∧ freq.toNat ≤ 6500)
    completes (.mainsZeroCrossing p x rms freq thd cycle) s [.mfe, .free] fun t =>
      t.mfe.phases[p].rms = rms ∧ t.mfe.phases[p].freq = freq ∧ t.mfe.phases[p].thd = thd ∧
      t.mfe.phases[p].present = present ∧ t.mfe.phases[p].freqOk = ok ∧ t.mfe.phases[p].cross = some x ∧
      (∀ q, q ≠ p → t.mfe.phases[q] = s.mfe.phases[q]) ∧ t.mfe.outs = s.mfe.outs ∧
      (s.mfe.link = true → s.mfe.ups.length ≤ 8 → s.mfe.waiting = [] → ∃ l : List UpReq, t.mfe.ups = s.mfe.ups ++ l ∧
        (l.map UpReq.type = if present && ok then tMEASURE :: List.replicate 7 tTEETH else [tMEASURE]) ∧
        t.mfe.phases[p].teeth = s.mfe.phases[p].teeth + (if present && ok then 25 else 0) ∧
        (thd.toNat ≤ 80 → ∀ m tooth rest, l = m :: tooth :: rest →
          (timeDiff (BitVec.ofNat 64 (leAt tooth.payload 2 8)) x).natAbs ≤ 10737)) ∧
      (s.mfe.link = true → s.mfe.ups.length = 16 → t.mfe.ups = s.mfe.ups ∧ t.mfe.phases[p].teeth = s.mfe.phases[p].teeth ∧
        t.mfe.waiting.length = s.mfe.waiting.length + (if present && ok then 8 else 1)) ∧
      (s.mfe.link = false → t.mfe.ups = s.mfe.ups ∧ t.mfe.waiting = s.mfe.waiting ∧
        t.mfe.phases[p].teeth = s.mfe.phases[p].teeth)) ∧
  (∀ (p : Fin 3) (x : SysTime) (rms freq : BitVec 16) (thd : Byte) (cycle : Word) (s : State), s.mfe.powered = false →
    exec (.mainsZeroCrossing p x rms freq thd cycle) s = .next s)

/-- In K6 to K8 with the link up, fewer than 16 requests outstanding and the handshake due, HANDSHAKE makes a HELLO outstanding under the next sequence number and sends its frame. MAILBOX_REQUEST with the clocks running: a TYPE other than CONFIG or QUERY ends with RESULT 0xFE, a sound one with the link down with 0xFF, each latching source 96; with the link up and room it is outstanding with the six TX words and BUSY is set; while BUSY it changes at most TYPE. TIME_FRAME_SEND sends a TIME frame that carries system time, and nothing from step 6 of a shutdown on. A frame is 32 bytes with a sound CRC, its TYPE, RETX, SEQ, REF and payload in the places Table 02-5 gives them. An outstanding request is sent again with RETX 22,893 cycles after its last transmission, at most three times, each counted; 200 µs after its first a mailbox request fails: RESULT 0xFF, BUSY clear, TIMEOUTS and a TIMEOUT fault, and it is no longer outstanding. Before those times, or for a number not outstanding, nothing changes. Completes: HANDSHAKE, MAILBOX_REQUEST, TIME_FRAME_SEND, RETRANSMISSION, REQUEST_TIMEOUT. -/
def Obligations.BarrierRequests : Prop :=
  (∀ s : State, s.live = true → s.node.phase = .k6 ∨ s.node.phase = .k7 ∨ s.node.phase = .k8 → s.linkUp = true →
    s.bar.step = .idle → s.bit F.BAR_STATUS_HELLO_DONE = false ∨ s.bar.again = true → s.bar.outs.length < 16 →
    completes .handshake s [.bar] fun t => t.bar.step = .hello ∧ t.bar.again = false ∧ t.bar.nextSeq = s.bar.nextSeq + 1 ∧
      t.bar.line = barFrame tHELLO false s.bar.nextSeq 0 ([BitVec.ofNat 8 (s.get F.IDENT_CODES_ADDRESS),
        BitVec.ofNat 8 (s.get F.IDENT_MODULE_RUN_LEVEL)] ++ leBytes 2 (s.bar.nextSeq + 1).toNat) ∧
      ∃ r : Request, t.bar.outs = s.bar.outs ++ [r] ∧ r.type = tHELLO ∧ r.seq = s.bar.nextSeq ∧ r.sends = 1 ∧
        r.first = s.cycles ∧ r.last = s.cycles) ∧
  (∀ (v : Word) (s : State), s.clocked = true →
    let type := BitVec.ofNat 8 (F.BAR_MBX_TXCTL_TYPE.of v)
    (s.bit F.BAR_MBX_TXCTL_BUSY = true → completes (.mailboxRequest v) s [.regs] fun t =>
      regsBut [F.BAR_MBX_TXCTL_TYPE.addr] s t) ∧
    (s.bit F.BAR_MBX_TXCTL_BUSY = false → type ≠ tCONFIG → type ≠ tQUERY → completes (.mailboxRequest v) s [.regs, .ic] fun t =>
      t.get F.BAR_MBX_TXCTL_RESULT = 0xFE ∧ t.get F.BAR_MBX_TXCTL_BUSY = 0 ∧ t.ic.lat = s.ic.lat ||| BitVec.twoPow 128 96) ∧
    (s.bit F.BAR_MBX_TXCTL_BUSY = false → type = tCONFIG ∨ type = tQUERY → s.linkUp = false →
      completes (.mailboxRequest v) s [.regs, .ic] fun t => t.get F.BAR_MBX_TXCTL_RESULT = 0xFF ∧
        t.get F.BAR_MBX_TXCTL_BUSY = 0 ∧ t.ic.lat = s.ic.lat ||| BitVec.twoPow 128 96) ∧
    (s.bit F.BAR_MBX_TXCTL_BUSY = false → type = tCONFIG ∨ type = tQUERY → s.linkUp = true → s.bar.step ≠ .hello →
      s.bar.outs.length < 16 → completes (.mailboxRequest v) s [.regs, .bar] fun t => t.get F.BAR_MBX_TXCTL_BUSY = 1 ∧
        ∃ r : Request, t.bar.outs = s.bar.outs ++ [r] ∧ r.type = type ∧ r.seq = s.bar.nextSeq ∧ r.issuer = .mailbox ∧
          r.payload = (List.range 6).flatMap fun i => leBytes 4 (s.get (F.BAR_MBX_TX_DATA i)))) ∧
  (∀ s : State, s.live = true →
    (s.node.pwr ≠ .stopped → s.node.pwr ≠ .complete → exec .timeFrameSend s = .next { s with bar := { s.bar with
      timeSent := some s.now, line := barFrame tTIME false 0 0 ([0, 0] ++ leBytes 8 s.now.toNat) } }) ∧
    (s.node.pwr = .stopped ∨ s.node.pwr = .complete → exec .timeFrameSend s = .next s)) ∧
  (∀ (type : Byte) (retx : Bool) (q ref : BitVec 16) (payload : List Byte),
    let f := barFrame type retx q ref payload
    f.length = 32 ∧ frameOk f = true ∧ fType f = type ∧ (byteAt f 1).getLsbD 7 = retx ∧ fSeq f = q ∧ fRef f = ref ∧
      fPayload f = slice payload 0 24) ∧
  (∀ (q : BitVec 16) (r : Request) (s : State), s.clocked = true → s.bar.outs.find? (fun r => r.seq == q) = some r →
    (r.sends < 4 → r.last + 22893 ≤ s.cycles → completes (.retransmission false q) s [.regs, .bar] fun t =>
      t.bar.outs = (s.bar.outs.map fun x => if x.seq = q then { x with sends := x.sends + 1, last := s.cycles } else x) ∧
      t.bar.line = barFrame r.type true q 0 r.payload ∧
      t.get F.BAR_CNT_A_RETRIES = min 0xFFFF (s.get F.BAR_CNT_A_RETRIES + 1)) ∧
    (4 ≤ r.sends ∨ s.cycles < r.last + 22893 → exec (.retransmission false q) s = .next s) ∧
    (s.cycles < r.first + usCycles 200 → exec (.requestTimeout false q) s = .next s) ∧
    (r.first + usCycles 200 ≤ s.cycles → s.bar.waiting = [] → r.issuer = .mailbox →
      completes (.requestTimeout false q) s [.regs, .col, .ic, .bar] fun t =>
        t.bar.outs = (s.bar.outs.filter fun x => x.seq != r.seq) ∧ t.get F.BAR_MBX_TXCTL_RESULT = 0xFF ∧
        t.get F.BAR_MBX_TXCTL_BUSY = 0 ∧ t.get F.BAR_CNT_B_TIMEOUTS = min 0xFFFF (s.get F.BAR_CNT_B_TIMEOUTS + 1) ∧
        t.col = (s.raise { src := 0x16, kind := kTIMEOUT, cls := corrected }).col)) ∧
  (∀ (q : BitVec 16) (s : State), (∀ r ∈ s.bar.outs, r.seq ≠ q) →
    exec (.retransmission false q) s = .next s ∧ exec (.requestTimeout false q) s = .next s)

/-- For a sound frame with no checker armed: STATUS_FRAME outside a handshake sets MFE_SYNC and HVI_STATE from it, keeps its flags and levels, and latches source 99 when the flags change. Under a new sequence number MEASURE of a phase sets its RMS, frequency and flags and latches 99 when a flag changes; OPTIME sets both times of its output; HV_EVENT with an overcurrent flag raises POWER from 0x17 with reason 0x01 and the output as detail, and latches 99; TEETH of a wheel that is off queues nothing. Each is answered OK, in the store and on the line. A repeated sequence number, with RESTARTED clear, is answered as before and changes only LINK_UP and the time of hearing. A frame with a wrong CRC is counted and raises CRC, and one that is not 32 bytes is refused by name. For a sound frame under a new sequence number, no checker armed: TEETH of a phase whose wheel is on and has room for all of them beside the teeth waiting appends their times, the first and then by the deltas, to the wheel's inbox; the other wheels stand. HV_EVENT of a time-domain output whose channel list holds a sound forwarded entry of its tag, without overcurrent, removes every entry of that tag from that list, keeps the others and every other channel, and gives LEVEL the entry's level unless the gate had done so. HV_EVENT of an input sets its bit of HVI_STATE and no other; on an input whose channel does not run no channel changes. Completes: STATUS_FRAME, TEETH, HV_EVENT, MEASURE, OPTIME. -/
def Obligations.UpReports : Prop :=
  ((∀ (f : List Byte) (s : State), toNode f tSTATUS s → s.bar.step = .idle → (byteAt f 7).getLsbD 3 = false →
     completes (.statusFrame f) s [.regs, .ic, .bar] fun t =>
       t.bar = { s.bar with heard := s.cycles, status := some (byteAt f 7, BitVec.ofNat 16 (leAt f 8 2)) } ∧
       t.bit F.BAR_STATUS_MFE_SYNC = (byteAt f 7).getLsbD 0 ∧ t.get F.BAR_HVI_STATE = (byteAt f 10).toNat % 16 ∧
       t.bit F.BAR_STATUS_LINK_UP = true ∧
       (t.ic.lat = if s.mfeFlags = byteAt f 7 then s.ic.lat else s.ic.lat ||| BitVec.twoPow 128 99)) ∧
   (∀ (f : List Byte) (s : State), (∀ x ∈ s.bar.store, x.1 ≠ fSeq f) →
     let heard : Barrier := { s.bar with
       heard := s.cycles, store := (keepSeq (fSeq f) stOK s.bar.store).take 64, line := barFrame tCOMPLETION false 0 (fSeq f) [stOK] }
     (toNode f tMEASURE s → ∀ p : Fin 3, (byteAt f 6).toNat = p.val → completes (.measure f) s [.regs, .ic, .bar] fun t =>
       t.bar = heard ∧ t.get (F.BAR_MAINS_A_RMS p) = leAt f 8 2 ∧ t.get (F.BAR_MAINS_A_FREQ p) = leAt f 10 2 ∧
       t.bit (F.BAR_MAINS_B_PRESENT p) = (byteAt f 12).getLsbD 0 ∧ t.bit (F.BAR_MAINS_B_FREQ_OK p) = (byteAt f 12).getLsbD 1 ∧
       (t.ic.lat = if s.bit (F.BAR_MAINS_B_PRESENT p) = (byteAt f 12).getLsbD 0 ∧
         s.bit (F.BAR_MAINS_B_FREQ_OK p) = (byteAt f 12).getLsbD 1 then s.ic.lat else s.ic.lat ||| BitVec.twoPow 128 99) ∧
       regsBut [F.BAR_STATUS_LINK_UP.addr, (F.BAR_MAINS_A_RMS p).addr, (F.BAR_MAINS_B_PRESENT p).addr,
         (cntField 99).addr] s t) ∧
     (toNode f tOPTIME s → ∀ o : Fin 12, (byteAt f 6).toNat = o.val → completes (.optime f) s [.regs, .bar] fun t =>
       t.bar = heard ∧ t.get (F.BAR_OPTIME_OPERATE o) = leAt f 8 2 ∧ t.get (F.BAR_OPTIME_RELEASE o) = leAt f 10 2) ∧
     (toNode f tHV_EVENT s → ∀ o : Fin 12, (byteAt f 6).toNat = o.val → (byteAt f 7).getLsbD 3 = true →
       completes (.hvEvent f) s [.regs, .col, .ic, .bar] fun t => t.bar = heard ∧ t.ic.lat = s.ic.lat ||| BitVec.twoPow 128 99 ∧
         t.col = (s.raise { src := 0x17, kind := kPOWER, cls := corrected, reason := 0x01, detail := detail3 o }).col) ∧
     (toNode f tTEETH s → ∀ w : Fin 3, (byteAt f 6).toNat = w.val → s.whl[w].sync = .off →
       completes (.teeth f) s [.regs, .bar] fun t => t.bar = heard)) ∧
   (∀ (f : List Byte) (x : BitVec 16 × Byte) (s : State), s.mfeFlags.getLsbD 3 = false →
     s.bar.store.find? (fun x => x.1 == fSeq f) = some x →
     let again := Host.Outcome.next { s.put F.BAR_STATUS_LINK_UP 1 with
       bar := { s.bar with heard := s.cycles, line := barFrame tCOMPLETION false 0 (fSeq f) [x.2] } }
     (toNode f tMEASURE s → exec (.measure f) s = again) ∧ (toNode f tOPTIME s → exec (.optime f) s = again) ∧
     (toNode f tTEETH s → exec (.teeth f) s = again) ∧ (toNode f tHV_EVENT s → exec (.hvEvent f) s = again)) ∧
   (∀ (f : List Byte) (s : State), ∀ c ∈ [Instr.statusFrame f, .teeth f, .hvEvent f, .measure f, .optime f, .completion false f],
     (f.length ≠ 32 → exec c s = .refused (.illFormed "UP frame")) ∧
     (f.length = 32 → frameOk f = false → s.clocked = true → s.bit F.FLT_INJ_ARM = false → completes c s [.regs, .col] fun t =>
       t.get F.BAR_CNT_A_CRC_ERR = min 0xFFFF (s.get F.BAR_CNT_A_CRC_ERR + 1) ∧
       t.col = (s.raise { src := 0x16, kind := kCRC, cls := corrected }).col))) ∧
  ((∀ (f : List Byte) (p : Fin 3) (s : State), toNode f tTEETH s → (∀ x ∈ s.bar.store, x.1 ≠ fSeq f) →
     (byteAt f 6).toNat = p.val → s.whl[p].sync ≠ .off → (byteAt f 7).toNat % 8 ≤ 4 →
     s.teethWaiting ⟨p.val, by omega⟩ + (byteAt f 7).toNat % 8 ≤ 8 → completes (.teeth f) s [.regs, .whl, .bar] fun t =>
       (∀ w : Fin 8, w.val ≠ p.val → t.whl[w] = s.whl[w]) ∧
       ∃ l : List WheelIn, t.whl[p].inbox = s.whl[p].inbox ++ l ∧ l.length = (byteAt f 7).toNat % 8 ∧
         (∀ x ∈ l.head?, x.time = BitVec.ofNat 64 (leAt f 8 8)) ∧
         (∀ i, i + 1 < l.length → ∀ x y, l[i]? = some x → l[i + 1]? = some y →
           y.time = x.time + BitVec.ofNat 64 (leAt f (16 + 4 * i) 4))) ∧
   (∀ (f : List Byte) (o : Fin 12) (e : Entry) (s : State), toNode f tHV_EVENT s → (∀ x ∈ s.bar.store, x.1 ≠ fSeq f) →
     (byteAt f 6).toNat = o.val → (byteAt f 7).getLsbD 3 = false →
     let c : Fin 64 := Fin.ofNat 64 (48 + o.val)
     let tag := BitVec.ofNat 32 (leAt f 16 4)
     tag ≠ 0 → s.chan[c].list.find? (fun e => e.tag == tag) = some e → e.bad = false → e.fwd = .sent →
     s.wheelDomain c = false → s.chan[c].newConfig = none →
     completes (.hvEvent f) s [.regs, .ic, .chan, .bar] fun t =>
       t.chan[c].list = (s.chan[c].list.filter fun x => decide (x.tag ≠ tag)) ∧ (∀ d, d ≠ c → t.chan[d] = s.chan[d]) ∧
       t.bit (F.CH_STATUS_LEVEL c) = (if e.done = true then s.bit (F.CH_STATUS_LEVEL c) else e.level)) ∧
   (∀ (f : List Byte) (i : Fin 4) (s : State), toNode f tHV_EVENT s → (∀ x ∈ s.bar.store, x.1 ≠ fSeq f) →
     (byteAt f 6).toNat = 0x80 + i.val → s.chRuns (Fin.ofNat 64 (60 + i.val)) = false →
     completes (.hvEvent f) s [.regs, .bar] fun t =>
       ∀ j : Fin 4, (t.get F.BAR_HVI_STATE).testBit j =
         if j = i then (byteAt f 7).getLsbD 0 else (s.get F.BAR_HVI_STATE).testBit j))

/-- For a sound COMPLETION with no checker armed: for an outstanding mailbox request with none waiting, the request is no longer outstanding, RX data are the payload, RESULT its status, BUSY is clear and source 96 latched; for the outstanding HELLO of a handshake, the ROM versions are taken, HELLO_DONE set and the store cleared, and a ROM the node cannot work with makes HV_REFUSED and romOk say so. A REF that failed is counted in LATE with a LATE_COMPLETION fault and source 97; one that had completed changes nothing but the link's time of hearing; one not among the last 64 sent raises PROTOCOL, CORRECTED, with the REF as detail. With the clocks running and the link up, 1 ms after the last valid frame LINK_DOWN clears LINK_UP, HELLO_DONE, FAILSTATE_SENT and HV_ENABLED, latches source 98, leaves no request outstanding or waiting, counts one TIMEOUT per outstanding request and none per waiting one, and leaves every entry of channels 48 to 59 not forwarded, with one that has not begun without gate and compensation; a channel 0 to 47 that no request names stands, and so does every key, action and tag. Before that time nothing changes. Completes: COMPLETION, LINK_DOWN. -/
def Obligations.CompletionsAndLinkDown : Prop :=
  (∀ (f : List Byte) (s : State), toNode f tCOMPLETION s →
     let out := s.bar.outs.find? fun r => r.seq == fRef f
     (∀ r, out = some r → r.issuer = .mailbox → s.bar.waiting = [] →
       completes (.completion false f) s [.regs, .ic, .bar] fun t =>
         t.bar.outs = (s.bar.outs.filter fun x => x.seq != r.seq) ∧ t.get F.BAR_MBX_TXCTL_RESULT = (byteAt f 6).toNat ∧
         t.get F.BAR_MBX_TXCTL_BUSY = 0 ∧ t.ic.lat = s.ic.lat ||| BitVec.twoPow 128 96 ∧
         ∀ i : Fin 6, t.get (F.BAR_MBX_RX_DATA i) = leAt (fPayload f) (4 * i) 4) ∧
     (∀ r, out = some r → r.issuer = .handshake → s.bar.step = .hello → s.bar.waiting = [] → s.mfeFlags.getLsbD 0 = false →
       completes (.completion false f) s [.regs, .col, .bar] fun t =>
         let known := (slice (fPayload f) 1 8).any fun v => v != 0 && s.node.mfeRoms.contains v
         t.bar.step = .sync ∧ t.bar.store = [] ∧ t.bar.roms = slice (fPayload f) 1 8 ∧ t.bar.romOk = known ∧
         t.bit F.BAR_STATUS_HELLO_DONE = true ∧ t.bit F.KIN_STATUS_HV_REFUSED = !known ∧
         t.bar.outs = (s.bar.outs.filter fun x => x.seq != r.seq)) ∧
     (out = none → s.bar.sent.find? (fun x => x.1 == fRef f) = some (fRef f, true) →
       completes (.completion false f) s [.regs, .col, .ic, .bar] fun t =>
         t.get F.BAR_CNT_B_LATE = min 0xFFFF (s.get F.BAR_CNT_B_LATE + 1) ∧ t.ic.lat = s.ic.lat ||| BitVec.twoPow 128 97 ∧
         t.bar = { s.bar with heard := s.cycles } ∧
         t.col = (s.raise { src := 0x16, kind := kLATE_COMPLETION, cls := corrected }).col) ∧
     (out = none → s.bar.sent.find? (fun x => x.1 == fRef f) = some (fRef f, false) →
       exec (.completion false f) s = .next { s.put F.BAR_STATUS_LINK_UP 1 with bar := { s.bar with heard := s.cycles } }) ∧
     (out = none → (∀ x ∈ s.bar.sent, x.1 ≠ fRef f) → completes (.completion false f) s [.regs, .col, .bar] fun t =>
       t.bar = { s.bar with heard := s.cycles } ∧
       t.col = (s.raise { src := 0x16, kind := kPROTOCOL, cls := corrected, detail := (fRef f).zeroExtend 24 }).col)) ∧
  (∀ s : State, s.clocked = true → s.linkUp = true →
     (s.cycles < s.bar.heard + usCycles 1000 → exec .linkDown s = .next s) ∧
     (s.bar.heard + usCycles 1000 ≤ s.cycles → completes .linkDown s [.regs, .col, .ic, .chan, .bar] fun t =>
       t.bit F.BAR_STATUS_LINK_UP = false ∧ t.bit F.BAR_STATUS_HELLO_DONE = false ∧
       t.bit F.BAR_STATUS_FAILSTATE_SENT = false ∧ t.bit F.BAR_STATUS_HV_ENABLED = false ∧
       t.ic.lat.getLsbD 98 = true ∧ t.bar.waiting = [] ∧ t.bar.step = .idle ∧ t.bar.status = none ∧
       t.bar.outs = [] ∧ t.get F.BAR_CNT_B_TIMEOUTS = min 0xFFFF (s.get F.BAR_CNT_B_TIMEOUTS + s.bar.outs.length) ∧
       (∀ c : Fin 64, (isHv c = false → t.chan[c] = s.chan[c] ∨ ∃ r ∈ s.bar.outs ++ s.bar.waiting, ∃ tag, r.issuer = .schedule c tag) ∧
         (t.chan[c].list.map fun e => (e.key, e.action, e.tag)) = (s.chan[c].list.map fun e => (e.key, e.action, e.tag)) ∧
         (isHv c = true → ∀ e ∈ t.chan[c].list, e.fwd = .no ∧ (e.begun = false → e.gate = none ∧ e.comp = none)))))

/-- With the clocks running, for a register whose fields stand in it side by side: REGISTER_WRITE by any master, where the register has no effect of its own, leaves each RW field at its bits of the value, each W1S field with its bits set besides, each W1C field with them cleared, each other field and every other register as before. CLEARING_READ of a register that latches no other, and not of connection memory, sets each RC field to its reset value and leaves every other field and register. LATCHED_READ keeps, in the latch set of the master's present level, what each partner reads at that moment. An address not a multiple of 4, or one where the window holds no register, changes nothing. Completes: REGISTER_WRITE, CLEARING_READ, LATCHED_READ. -/
def Obligations.RegisterAccess : Prop :=
  (∀ (m : Fin 11) (a v : Word) (fs : List Field) (s : State), s.clocked = true → a.toNat % 4 = 0 →
    F.fieldsAt a.toNat = some fs → (∀ f ∈ fs, f.addr = a.toNat ∧ f.lo ≤ f.hi ∧ f.hi < 32) →
    fs.Pairwise (fun f g => f.hi < g.lo ∨ g.hi < f.lo) →
    (writeOwn m a.toNat v s = none → completes (.registerWrite m a v) s [.regs] fun t => regsBut [a.toNat] s t ∧
      ∀ f ∈ fs, t.get f = match f.acc with
        | .rw => f.of v
        | .w1s => s.get f ||| f.of v
        | .w1c => s.get f - (s.get f &&& f.of v)
        | _ => s.get f) ∧
    (isPartner a.toNat = false → partners a.toNat = [] → a.toNat ≠ 0x40070018 → completes (.clearingRead m a) s [.regs] fun t =>
      regsBut [a.toNat] s t ∧ ∀ f ∈ fs, t.get f = if f.acc = .rc then f.reset % 2 ^ f.width else s.get f) ∧
    (isPartner a.toNat = false → partners a.toNat ≠ [] → completes (.latchedRead m a) s [.regs, .latches] fun t =>
      regsBut [a.toNat] s t ∧ ∀ p ∈ partners a.toNat,
        tabGet none t.latches (s.latchSet m * 2 ^ 32 + p) = some (s.peek p))) ∧
  (∀ (m : Fin 11) (a v : Word) (s : State), a.toNat % 4 ≠ 0 ∨ F.fieldsAt a.toNat = none →
    exec (.registerWrite m a v) s = .next s ∧ exec (.clearingRead m a) s = .next s ∧ exec (.latchedRead m a) s = .next s)

/-- On a channel that is enabled with a MODE in K8: an insertion whose tag has bit 31 clear, whose action the mode accepts and whose key is in range answers OK if no entry holds its tag and the list has room, OK_REPLACED if the entry that holds it has not begun, FULL with 32 entries and no holder, BEGUN if the holder has begun; BAD_TAG, BAD_ACTION and RANGE otherwise, DISABLED on another channel. OK and OK_REPLACED place the new entry after every entry whose key does not follow its key and before the rest, the holder gone; every refusal leaves every list. CANCEL answers OK, BEGUN, ABSENT or DISABLED and removes just the entries of its tag on OK. FLUSH removes exactly the entries that have not begun and the bad ones. No other channel's list changes. (INSERT and CANCEL are the operation that the Ember commands and the channel registers share.) Completes: FLUSH. -/
def Obligations.ListOperations : Prop :=
  (∀ (c : Fin 64) (key : BitVec 64) (action tag : Word) (s : State),
    let r := listInsert c key action tag s
    let ls (t : State) (d : Fin 64) := t.chan[d].list.map fun e => (e.key, e.action)
    let holder := if tag = 0 then none else s.chan[c].list.find? fun e => e.tag == tag
    let sound := tag.getLsbD 31 = false ∧ actionOk c (s.mode c) action = true ∧ s.keyInRange c key = true
    let isOpen := s.chEn c = true ∧ s.mode c ≠ 0 ∧ s.inK8 = true
    let begun (e : Entry) : Prop := ∃ g, s.tagged c tag = some (e, g) ∧ s.hasBegun c e g = true
    only [.regs, .ic, .chan, .bar] s r.2 ∧ (∀ d, d ≠ c → ls r.2 d = ls s d) ∧ (1 < r.1 → r.2.chan = s.chan) ∧
    (¬ isOpen → r.1 = 0x06) ∧ (isOpen → tag.getLsbD 31 = true → r.1 = 0x05) ∧
    (isOpen → tag.getLsbD 31 = false → actionOk c (s.mode c) action = false → r.1 = 0x04) ∧
    (isOpen → tag.getLsbD 31 = false → actionOk c (s.mode c) action = true → s.keyInRange c key = false → r.1 = 0x03) ∧
    (isOpen → sound → holder = none → 32 ≤ s.chan[c].list.length → r.1 = 0x02 ∧
      r.2.get (F.CH_CNT_A_FULL c) = min (s.get (F.CH_CNT_A_FULL c) + 1) (2 ^ (F.CH_CNT_A_FULL c).width - 1)) ∧
    (isOpen → sound → holder = none → s.chan[c].list.length < 32 → r.1 = 0x00 ∧ ∃ pre post,
      ls s c = pre ++ post ∧ ls r.2 c = pre ++ (key, action) :: post ∧
      (∀ x ∈ pre, s.keyLess c key x.1 = false) ∧ (∀ x ∈ post.head?, s.keyLess c key x.1 = true)) ∧
    (∀ e, isOpen → sound → holder = some e → begun e → r.1 = 0x07) ∧
    (∀ e, isOpen → sound → holder = some e → ¬ begun e → r.1 = 0x01 ∧ ∃ pre post,
      ((s.chan[c].list.filter fun x => x.tag != tag).map fun x => (x.key, x.action)) = pre ++ post ∧
      ls r.2 c = pre ++ (key, action) :: post ∧
      (∀ x ∈ pre, s.keyLess c key x.1 = false) ∧ (∀ x ∈ post.head?, s.keyLess c key x.1 = true))) ∧
  (∀ (c : Fin 64) (tag : Word) (s : State),
    let r := listCancel c tag s
    let ls (t : State) (d : Fin 64) := t.chan[d].list.map fun e => (e.key, e.action, e.tag)
    let isOpen := s.chEn c = true ∧ s.mode c ≠ 0 ∧ s.inK8 = true
    only [.regs, .ic, .chan, .bar] s r.2 ∧ (∀ d, d ≠ c → ls r.2 d = ls s d) ∧ (r.1 ≠ 0 → r.2 = s) ∧
    (¬ isOpen → r.1 = 0x06) ∧ (isOpen → (tag = 0 ∨ ∀ e ∈ s.chan[c].list, e.tag ≠ tag) → r.1 = 0x08) ∧
    (∀ e g, isOpen → s.tagged c tag = some (e, g) → s.hasBegun c e g = true → r.1 = 0x07) ∧
    (∀ e g, isOpen → s.tagged c tag = some (e, g) → s.hasBegun c e g = false → s.chan[c].newConfig = none → r.1 = 0x00 ∧
      ls r.2 c = (s.chan[c].list.filter fun x => x.tag != tag).map fun x => (x.key, x.action, x.tag))) ∧
  (∀ (c : Fin 64) (s : State), s.clocked = true → s.chan[c].newConfig = none →
    completes (.flush c) s [.regs, .ic, .chan, .bar] fun t =>
      (∀ d, d ≠ c → (t.chan[d].list.map fun e => (e.key, e.action, e.tag)) = s.chan[d].list.map fun e => (e.key, e.action, e.tag)) ∧
      (t.chan[c].list.map fun e => (e.key, e.action, e.tag)) =
        ((s.gates c).filter fun x => !x.1.bad && s.hasBegun c x.1 x.2).map fun x => (x.1.key, x.1.action, x.1.tag))

/-- On a running channel 0 to 47 in the time domain with no checker armed, whose head is sound and due and whose second entry, if any, is not: DUE_KEY removes the head, keeps the rest, and does its action: SET_LOW and SET_HIGH give LEVEL 0 and 1, TOGGLE the other level, HIGH_Z level 0 with the terminal released, MARK nothing; an entry executed more than 32 units after its key counts in LATE, and one with bit 6 sets event bit 0. With the head not yet due nothing changes. PERIOD_BOUNDARY before the end of the period, or with no wave, changes nothing; at the end of a PULSE train's last period it ends the wave with LEVEL 0 and event bit 4; of a PWM wave it begins the next period. On a running HV channel while forwarding takes place, with fewer than four entries forwarded: FORWARD of the first entry that is not forwarded, not begun and no MARK, with its gate within the lead and at least 250 µs ahead, makes a SCHEDULE with its tag outstanding under the next sequence number, and marks it forwarded with that gate; the keys, tags and actions of every list stand. With four forwarded, or the gate further off or nearer, nothing changes. HV_ENTRY_BEGIN, with no tag held twice, makes every entry whose gate lies within 100 µs begun and fixed at that gate, a fallback where it was not forwarded and the path to the MFE is there, and leaves every key, action and tag. Completes: DUE_KEY, PERIOD_BOUNDARY, FORWARD, HV_ENTRY_BEGIN. -/
def Obligations.EntriesExecute : Prop :=
  ((∀ (c : Fin 64) (e : Entry) (l : List Entry) (s : State), s.chRuns c = true → c.val < 48 → s.wheelDomain c = false →
     s.chan[c].list = e :: l → s.bit F.FLT_INJ_ARM = false → e.bad = false → s.chan[c].newConfig = none →
     (s.now.toNat < e.key.toNat → exec (.dueKey c) s = .next s) ∧
     (e.key.toNat ≤ s.now.toNat → (∀ x ∈ l.head?, s.now.toNat < x.key.toNat) → e.op ≤ 4 →
       completes (.dueKey c) s [.regs, .ic, .chan] fun t =>
         t.chan[c].list = l ∧ (∀ d, d ≠ c → t.chan[d] = s.chan[d]) ∧
         t.bit (F.CH_STATUS_LEVEL c) = (match e.op with
           | 1 => false
           | 2 => true
           | 3 => !s.bit (F.CH_STATUS_LEVEL c)
           | 4 => false
           | _ => s.bit (F.CH_STATUS_LEVEL c)) ∧
         t.chan[c].hiz = (if e.op = 0 then s.chan[c].hiz else e.op == 4) ∧
         t.get (F.CH_CNT_A_LATE c) = (if e.behind = true ∨ e.key.toNat + 32 < s.now.toNat then
           min (s.get (F.CH_CNT_A_LATE c) + 1) (2 ^ (F.CH_CNT_A_LATE c).width - 1) else s.get (F.CH_CNT_A_LATE c)) ∧
         (e.action.getLsbD 6 = true → (t.get (F.CH_EVENT_EV c)).testBit 0 = true) ∧
         (l = [] → (t.get (F.CH_EVENT_EV c)).testBit 2 = true))) ∧
   (∀ (c : Fin 64) (s : State), s.chan[c].list = [] → exec (.dueKey c) s = .next s) ∧
   (∀ (c : Fin 64) (s : State), s.chRuns c = true →
     (s.chan[c].wave = none → exec (.periodBoundary c) s = .next s) ∧
     (∀ v, s.chan[c].wave = some v → s.cycles < v.due → exec (.periodBoundary c) s = .next s) ∧
     (∀ v, s.chan[c].wave = some v → v.due ≤ s.cycles → v.count = 1 → s.chan[c].newCount = none →
       completes (.periodBoundary c) s [.regs, .ic, .chan] fun t => t.chan[c].wave = none ∧
         t.bit (F.CH_STATUS_LEVEL c) = false ∧ (t.get (F.CH_EVENT_EV c)).testBit 4 = true ∧
         t.chan[c].list = s.chan[c].list ∧ (∀ d, d ≠ c → t.chan[d] = s.chan[d])) ∧
     (∀ v, s.chan[c].wave = some v → v.due ≤ s.cycles → v.count = 0 → s.chan[c].newCount = none → s.chan[c].newHigh = none →
       s.chan[c].update = false → completes (.periodBoundary c) s [.chan] fun t =>
         t.chan[c].wave = some ⟨s.chan[c].period, s.chan[c].high, v.due + s.chan[c].period, 0⟩ ∧
         (∀ d, d ≠ c → t.chan[d] = s.chan[d])))) ∧
  ((∀ (c : Fin 64) (e : Entry) (g : Nat) (s : State), s.chRuns c = true → isHv c = true → s.forwarding = true →
     ((s.gates c).find? fun x => !x.1.mark && x.1.fwd == .no && !s.hasBegun c x.1 x.2) = some (e, some g) →
     (4 ≤ (s.chan[c].list.filter fun e => e.fwd == .sent).length ∨ s.now.toNat + s.lead c < g ∨ g < s.now.toNat + 134217 →
       exec (.forward c) s = .next s) ∧
     ((s.chan[c].list.filter fun e => e.fwd == .sent).length < 4 → g ≤ s.now.toNat + s.lead c → s.now.toNat + 134217 ≤ g →
       s.bar.outs.length < 16 →
       completes (.forward c) s [.chan, .bar] fun t =>
         (∃ r : Request, t.bar.outs = s.bar.outs ++ [r] ∧ r.type = tSCHEDULE ∧ r.seq = s.bar.nextSeq ∧
           leAt r.payload 10 4 = e.tag.toNat ∧ (byteAt r.payload 0).toNat = c.val - 48 ∧
           (byteAt r.payload 1).toNat = e.level.toNat ∧ (g < 2 ^ 64 → leAt r.payload 2 8 = g)) ∧
         (∀ x ∈ t.chan[c].list, x.tag = e.tag → x.fwd = .sent ∧ x.gate = some (BitVec.ofNat 64 g)) ∧
         (t.chan[c].list.map fun x => (x.key, x.action, x.tag)) = (s.chan[c].list.map fun x => (x.key, x.action, x.tag)) ∧
         (∀ d, d ≠ c → t.chan[d] = s.chan[d]))) ∧
   (∀ (c : Fin 64) (s : State), s.chRuns c = true → isHv c = true → (s.chan[c].list.map Entry.tag).Nodup →
     completes (.hvEntryBegin c) s [.chan] fun t =>
       (t.chan[c].list.map fun x => (x.key, x.action, x.tag, x.fwd)) = (s.chan[c].list.map fun x => (x.key, x.action, x.tag, x.fwd)) ∧
       (∀ e g, (e, some g) ∈ s.gates c → g ≤ s.now.toNat + beginUnits → e.begun = false → ∀ x ∈ t.chan[c].list, x.tag = e.tag →
         x.begun = true ∧ x.fixed = true ∧ x.gate = some (BitVec.ofNat 64 g) ∧ x.fall = (e.fwd != .sent && s.hvPath)) ∧
       (∀ d, d ≠ c → t.chan[d] = s.chan[d])))

/-- With the clocks running: APPLY of a shadow that is not valid changes nothing; of a valid one it makes the configuration pending while the group shows frames, and in force at once otherwise, the FIFO discarded and counted. PLANES_WRITE with no configuration pending and room for two, on a group that shows or is off, appends the two planes; with a configuration pending or no room it adds 2 to DISCARDED and raises QUEUE_FULL. PLANE_BOUNDARY at the end of a plane that is not the last, with one queued and no configuration taken since, shows the next plane for its time; with none it holds and counts UNDERRUN; before the end nothing changes. EDGE on a running CAPTURE channel, of the kind it selects, dates CAP with the edge's time, counts it in RES0, and in LOST where event bit 5 is still set, and sets event bit 5; an edge of the other kind sets LEVEL alone, and one on an HV channel or one that does not run changes nothing. Completes: APPLY, PLANES_WRITE, PLANE_BOUNDARY, EDGE. -/
def Obligations.PatternsAndEdges : Prop :=
  (∀ (g : Fin 3) (s : State), s.clocked = true →
    (s.shadowOk g = false → exec (.apply g) s = .next s) ∧
    (s.shadowOk g = true → s.grp[g].started = true →
      exec (.apply g) s = .next { s with grp := s.grp.set g { s.grp[g] with pending := true } }) ∧
    (s.shadowOk g = true → s.grp[g].started = false → completes (.apply g) s [.regs, .ic, .grp] fun t =>
      t.grp[g].pending = false ∧ t.grp[g].fifo = [] ∧ t.grp[g].depth = s.get (F.PG_CFG_DEPTH g) ∧
      t.grp[g].t0 = s.get (F.PG_T0_T0 g) ∧ t.grp[g].shown = s.grp[g].shown ∧ (∀ h, h ≠ g → t.grp[h] = s.grp[h]) ∧
      t.get (F.PG_CNT_DISCARDED g) = min (s.get (F.PG_CNT_DISCARDED g) + s.grp[g].fifo.length) 0xFFFF)) ∧
  (∀ (g : Fin 3) (v : Word) (s : State), s.clocked = true →
    (s.grp[g].pending = true ∨ 30 < s.grp[g].fifo.length → completes (.planesWrite g v) s [.regs, .col] fun t =>
      t.get (F.PG_CNT_DISCARDED g) = min (s.get (F.PG_CNT_DISCARDED g) + 2) 0xFFFF ∧
      t.col = (s.raise { src := 0x08, kind := kQUEUE_FULL, cls := corrected, reason := 0x05, detail := detail3 g }).col) ∧
    (s.grp[g].pending = false → s.grp[g].fifo.length ≤ 30 → s.pgEn g = false ∨ s.grp[g].started = true ∧ s.grp[g].holding = false →
      let x := { s.grp[g] with fifo := s.grp[g].fifo ++ [v.extractLsb' 0 16, v.extractLsb' 16 16] }
      exec (.planesWrite g v) s = .next { s with grp := s.grp.set g x })) ∧
  (∀ (g : Fin 3) (s : State), s.listsRun = true → s.pgEn g = true → s.grp[g].started = true → s.grp[g].holding = false →
    (s.cycles < s.grp[g].due → exec (.planeBoundary g) s = .next s) ∧
    (∀ p l, s.grp[g].due ≤ s.cycles → s.grp[g].plane + 1 < s.grp[g].depth → s.grp[g].fresh = false → s.grp[g].fifo = p :: l →
      completes (.planeBoundary g) s [.regs, .ic, .grp] fun t => t.grp[g].shown = p ∧ t.grp[g].fifo = l ∧
        t.grp[g].plane = s.grp[g].plane + 1 ∧ t.grp[g].due = s.grp[g].due + s.grp[g].t0 * 2 ^ (s.grp[g].plane + 1) ∧
        (∀ h, h ≠ g → t.grp[h] = s.grp[h])) ∧
    (s.grp[g].due ≤ s.cycles → s.grp[g].plane + 1 < s.grp[g].depth → s.grp[g].fifo = [] →
      completes (.planeBoundary g) s [.regs, .ic, .grp] fun t => t.grp[g].shown = s.grp[g].shown ∧ t.grp[g].holding = true ∧
        t.get (F.PG_CNT_UNDERRUN g) = min (s.get (F.PG_CNT_UNDERRUN g) + 1) 0xFFFF)) ∧
  (∀ (c : Fin 64) (level : Bool) (x : SysTime) (s : State), c.val < 48 → s.chRuns c = true → s.mode c = mCAPTURE →
    (s.qualified c level = false → exec (.edge c level x) s = .next (s.putBit (F.CH_STATUS_LEVEL c) level)) ∧
    (s.qualified c level = true → completes (.edge c level x) s [.regs, .ic, .chan] fun t =>
      t.bit (F.CH_STATUS_LEVEL c) = level ∧ t.get (F.CH_CAP_LO_CAP c) = x.toNat % 2 ^ 32 ∧
      t.get (F.CH_CAP_HI_CAP c) = x.toNat / 2 ^ 32 ∧ t.chan[c].edges = s.chan[c].edges + 1 ∧
      t.get (F.CH_RES0_RES0 c) = (s.chan[c].edges + 1).toNat ∧ t.get (F.CH_RES1_RES1 c) = level.toNat ∧
      (t.get (F.CH_EVENT_EV c)).testBit 5 = true ∧
      t.get (F.CH_CNT_B_LOST c) = (if (s.get (F.CH_EVENT_EV c)).testBit 5 = true then
        min (s.get (F.CH_CNT_B_LOST c) + 1) 0xFFFF else s.get (F.CH_CNT_B_LOST c)) ∧
      t.chan[c].list = s.chan[c].list ∧ (∀ d, d ≠ c → t.chan[d] = s.chan[d]))) ∧
  (∀ (c : Fin 64) (level : Bool) (x : SysTime) (s : State), 48 ≤ c.val ∨ s.chRuns c = false →
    exec (.edge c level x) s = .next s)

/-- With the clocks running, for a channel of the low-voltage part (0 to 47) with no flush asked: a write that changes MODE, DOMAIN or WHEEL while the channel is enabled or its list holds an entry leaves them and sets CFG_REFUSED; otherwise they take their bits. FAIL_LEVEL and FAIL_HIZ always do. EN = 1 on a disabled channel whose MODE, domain and configuration pass the checks enables it, clears its results, log indices and edge count; one that fails them stays disabled with CFG_BAD set. EN = 0 disables it. A write that is wholly accepted clears CFG_REFUSED and CFG_BAD. No other channel changes. With the clocks running, for a wheel 3 to 7: WHEEL_ENABLE with EN 1 and neither flush nor resync, on a disabled wheel, enables it as STOPPED with nothing held and event bit 2 set if the configuration passes the checks and otherwise leaves it disabled with CFG_BAD set; with EN 0 it disables it. RESYNC of a wheel not off makes it SEEKING with no history, and a wheel off stays. STALL, when no tooth has come for CFG4 x 1024 units, makes it STOPPED with no history and event bit 2. SYNTHETIC_TOOTH_PUSH to a synthetic wheel later than every queued tooth and than now by more than 1024 units, with room and no start given, appends the tooth and clears CFG_REFUSED and CFG_BAD; otherwise it counts FIFO_REJECT and raises PROTOCOL. FIFO_FLUSH leaves no tooth queued. HEAD_ARMING of a wheel-domain channel keeps every key, action and tag, and of another changes nothing. Completes: CHANNEL_ENABLE, WHEEL_ENABLE, RESYNC, FIFO_FLUSH, STALL, SYNTHETIC_TOOTH_PUSH, HEAD_ARMING. -/
def Obligations.ChannelAndWheelControl : Prop :=
  (∀ (c : Fin 64) (v : Word) (s : State), s.clocked = true → c.val < 48 → (F.CH_CTL_FLUSH c).of v = 0 →
     let fs := [F.CH_CTL_MODE c, F.CH_CTL_DOMAIN c, F.CH_CTL_WHEEL c]
     let changes := ∃ f ∈ fs, f.of v ≠ s.get f
     let held := changes ∧ (s.chEn c = true ∨ s.chan[c].list ≠ [])
     let en := (F.CH_CTL_EN c).of v
     completes (.channelEnable c v) s [.regs, .ic, .chan, .bar] fun t =>
       (∀ f ∈ fs, t.get f = if held then s.get f else f.of v) ∧
       t.get (F.CH_CTL_FAIL_LEVEL c) = (F.CH_CTL_FAIL_LEVEL c).of v ∧
       t.get (F.CH_CTL_FAIL_HIZ c) = (F.CH_CTL_FAIL_HIZ c).of v ∧
       (∀ d, d ≠ c → t.chan[d] = s.chan[d]) ∧
       (held → t.bit (F.CH_STATUS_CFG_REFUSED c) = true) ∧ (en = 0 → t.chEn c = false) ∧
       (en = 1 → s.chEn c = true → t.chEn c = true) ∧
       (en = 1 → s.chEn c = false → ∃ s' : State, s'.mode c = t.mode c ∧ s'.wheelDomain c = t.wheelDomain c ∧
         (∀ f ∈ [F.CH_CFG0_EDGE c, F.CH_CFG1_V c, F.CH_CFG2_V c], s'.get f = s.get f) ∧ t.chEn c = s'.chanEnableOk c ∧
         (s'.chanEnableOk c = false → t.bit (F.CH_STATUS_CFG_BAD c) = true) ∧
         (s'.chanEnableOk c = true → t.chan[c].edges = 0 ∧ t.chan[c].counter = 0 ∧ t.get (F.CH_RES0_RES0 c) = 0 ∧
           t.get (F.CH_RES1_RES1 c) = 0 ∧ t.get (F.CH_ELOG_WR_WR c) = 0 ∧ t.get (F.CH_ELOG_RD_RD c) = 0)) ∧
       (¬ held → en = 0 ∨ t.chEn c = true → t.bit (F.CH_STATUS_CFG_REFUSED c) = false ∧ t.bit (F.CH_STATUS_CFG_BAD c) = false)) ∧
  ((∀ (w : Fin 8) (v : Word) (s : State), s.clocked = true → 3 ≤ w.val → (F.WHL_CTL_FIFO_FLUSH w).of v = 0 →
     (F.WHL_CTL_RESYNC w).of v = 0 → s.bit (F.WHL_CTL_EN w) = false →
     completes (.wheelEnable w v) s [.regs, .ic, .whl] fun t => (∀ x, x ≠ w → t.whl[x] = s.whl[x]) ∧
       ((F.WHL_CTL_EN w).of v = 0 → t.bit (F.WHL_CTL_EN w) = false ∧ t.whl = s.whl) ∧
       ((F.WHL_CTL_EN w).of v = 1 → (t.bit (F.WHL_CTL_EN w) = true ∧ t.whl[w].sync = .stopped ∧ t.whl[w].hist = [] ∧
           t.whl[w].raw = [] ∧ t.whl[w].seen = s.now ∧ t.whl[w].cfg3 = s.reg (F.WHL_CFG3_TOL w).addr ∧
           (t.get (F.WHL_EVENT_EV w)).testBit 2 = true) ∨
         (t.bit (F.WHL_CTL_EN w) = false ∧ t.bit (F.WHL_STATUS_CFG_BAD w) = true ∧ t.whl = s.whl)) ∧
       (t.bit (F.WHL_CTL_EN w) = true → t.get (F.WHL_CTL_SOURCE w) = (F.WHL_CTL_SOURCE w).of v ∨
         (F.WHL_CTL_SOURCE w).of v = 0)) ∧
   (∀ (w : Fin 8) (s : State), s.clocked = true →
     (s.whl[w].sync = .off → exec (.resync w) s = .next s) ∧
     (s.whl[w].sync ≠ .off → completes (.resync w) s [.regs, .col, .ic, .chan, .whl] fun t =>
       t.whl[w].sync = .seeking ∧ t.whl[w].hist = [] ∧ (∀ x, x ≠ w → t.whl[x] = s.whl[x])) ∧
     completes (.fifoFlush w) s [.regs, .ic, .chan, .whl, .bar] fun t => t.whl[w] = { s.whl[w] with fifo := [] }) ∧
   (∀ (w : Fin 8) (s : State), s.live = true → s.whl[w].sync ≠ .off → s.whl[w].sync ≠ .stopped →
     let due := s.whl[w].seen.toNat + (F.WHL_CFG4_STALL w).of s.whl[w].cfg4 * 1024
     (s.now.toNat < due → exec (.stall w) s = .next s) ∧
     (due ≤ s.now.toNat → completes (.stall w) s [.regs, .col, .ic, .chan, .whl] fun t => t.whl[w].sync = .stopped ∧
       t.whl[w].hist = [] ∧ t.whl[w].raw = [] ∧ (t.get (F.WHL_EVENT_EV w)).testBit 2 = true)) ∧
   (∀ (w : Fin 8) (hi : Word) (s : State), s.clocked = true →
     let x := s.whl[w]
     let at_ : SysTime := hi ++ (x.synLo &&& 0xFFFFFFFE)
     let sound := s.source w = 2 ∧ x.fifo.length < 1024 ∧ (∀ y ∈ x.fifo.getLast?, y.time.toNat < at_.toNat) ∧
       s.now.toNat + 1024 < at_.toNat
     (sound → s.bit (F.WHL_FIFO_CFG_START_VALID w) = false →
       let x' := { x with fifo := x.fifo ++ [⟨at_, x.synLo.getLsbD 0, none⟩] }
       completes (.syntheticToothPush w hi) s [.regs, .whl] fun t => t.whl = s.whl.set w x' ∧
         t.bit (F.WHL_STATUS_CFG_REFUSED w) = false ∧ t.bit (F.WHL_STATUS_CFG_BAD w) = false ∧
         regsBut [(F.WHL_STATUS_CFG_REFUSED w).addr] s t) ∧
     (¬ sound → completes (.syntheticToothPush w hi) s [.regs, .col, .ic] fun t =>
       t.get (F.WHL_CNT_B_FIFO_REJECT w) = min (s.get (F.WHL_CNT_B_FIFO_REJECT w) + 1) (2 ^ (F.WHL_CNT_B_FIFO_REJECT w).width - 1) ∧
       t.col = (s.raise { src := 0x09, kind := kPROTOCOL, cls := corrected, reason := 0x02, detail := detail3 w }).col)) ∧
   (∀ (c : Fin 64) (s : State), (s.wheelDomain c = false → exec (.headArming c) s = .next s) ∧
     (s.wheelDomain c = true → s.live = true → completes (.headArming c) s [.regs, .ic, .chan, .bar] fun t =>
       (t.chan[c].list.map fun x => (x.key, x.action, x.tag)) = (s.chan[c].list.map fun x => (x.key, x.action, x.tag)) ∧
       (∀ d, d ≠ c → t.chan[d] = s.chan[d]))))

/-- Outside Caldera and hold, with no checker armed, a tooth waiting that comes at least 1 µs after the one before, on a wheel whose input is no wide-tooth input: in SEEKING a tooth that does not pass the reference test keeps the wheel SEEKING with its history; in PROVISIONAL one that matches no tooth takes the wheel back to SEEKING with no history, counted in TOOTH_ERR, event bit 5 set; a tooth in SYNCED or PROVISIONAL that matches a present tooth and meets the reference conditions of R256 (the flag with SYNC FLAG, an index edge in the preceding pitch with SYNC INDEX, the width of a wide tooth; no sign of the reference elsewhere) makes that tooth the newest of the history, puts its time, angle and revolution in TOOTH and REV, and counts the teeth passed over. The tooth leaves the inbox; the other wheels stand. A wheel that is off, or has no tooth to take, changes nothing. Completes: TOOTH. -/
def Obligations.TeethAdvanceTheWheel : Prop :=
  (∀ (w : Fin 8) (x : WheelIn) (l : List WheelIn) (s : State), s.live = true → s.bit F.FLT_INJ_ARM = false →
    s.whl[w].inbox = x :: l → x.index = false → ¬ ((s.pattern w).feature = 3 ∧ s.source w = 1) →
    s.tooClose w x.time = false →
    let i := s.toothIn w x.time x.flag
    let s2 := takeConfig w (clearIndexed w (s.modW w fun y => { y with inbox := l }))
    let p := s.pattern w
    (s.whl[w].sync = .seeking → s2.refTest w i = false → completes (.tooth w) s [.regs, .ic, .chan, .whl, .bar] fun t =>
      t.whl[w].sync = .seeking ∧ t.whl[w].hist = s.whl[w].hist ∧ t.whl[w].inbox = l ∧ t.whl[w].seen = s.now ∧
      (∀ y, y ≠ w → t.whl[y] = s.whl[y])) ∧
    (s.whl[w].sync = .provisional → s2.matchTooth w x.time = none →
      completes (.tooth w) s [.regs, .ic, .chan, .whl, .bar] fun t =>
        t.whl[w].sync = .seeking ∧ t.whl[w].hist = [] ∧ t.whl[w].inbox = l ∧
        t.get (F.WHL_CNT_A_TOOTH_ERR w) = min (s.get (F.WHL_CNT_A_TOOTH_ERR w) + 1) (2 ^ (F.WHL_CNT_A_TOOTH_ERR w).width - 1) ∧
        (t.get (F.WHL_EVENT_EV w)).testBit 5 = true ∧ (∀ y, y ≠ w → t.whl[y] = s.whl[y])) ∧
    (∀ q j k, s.whl[w].sync = .synced ∨ s.whl[w].sync = .provisional → s2.matchTooth w x.time = some (q, j, k) →
      (j ≠ p.refIndex → x.flag = false ∧ s2.refTest w i = false) →
      (j = p.refIndex → (p.sync = 2 → x.flag = true) ∧ (p.sync = 1 → s2.indexInPitch w i k = true) ∧
        (p.feature = 3 → s2.wideOk w i = true)) →
      ¬ (p.sync = 0 ∧ p.feature = 1) →
      completes (.tooth w) s [.regs, .ic, .chan, .whl, .ph, .bar] fun t =>
        t.whl[w].hist = (⟨x.time, q, j⟩ :: s.whl[w].hist).take 128 ∧ t.whl[w].inbox = l ∧ t.whl[w].seen = s.now ∧
        t.get (F.WHL_TOOTH_LO_TIME w) = x.time.toNat % 2 ^ 32 ∧ t.get (F.WHL_TOOTH_POS_ANGLE w) = posAngle q ∧
        t.get (F.WHL_REV_REV w) = (posRev q).toNat ∧
        t.get (F.WHL_CNT_A_SKIPPED w) = min (s.get (F.WHL_CNT_A_SKIPPED w) + k) (2 ^ (F.WHL_CNT_A_SKIPPED w).width - 1) ∧
        (∀ y, y ≠ w → t.whl[y] = s.whl[y]))) ∧
  (∀ (w : Fin 8) (s : State), s.whl[w].sync = .off ∨ (s.whl[w].inbox = [] ∧ s.synthetic w = false) →
    exec (.tooth w) s = .next s)

/-- State.reset is in phase K0 of kind power-on with clocks running and no heartbeat; no command, fault, report or request is queued; every channel list, wheel, group and Geyser channel is at rest; every Ember is out of any task with an empty return stack; memory lists nothing, every bank is On, IC and Hearth hold no pending work, connection memory holds nothing; a register whose reset value the spec gives has it. The standing conditions of the node hold, and its memories are canonical. That memory nothing has written reads 0 is the model's choice (its log entry 3). -/
def Obligations.ResetState : Prop :=
  let s := State.reset
  s.node.phase = .k0 ∧ s.node.kind = .powerOn ∧ s.clocked = true ∧ s.node.heartbeat = false ∧ nodeOk s.node ∧ memoriesOk s ∧
  s.pending = [] ∧ s.col.queue = [] ∧ s.col.held = [] ∧ s.rep.queue = [] ∧ s.bar.outs = [] ∧ s.work.peat = [] ∧
  (∀ c : Fin 64, s.chan[c].list = [] ∧ s.chan[c].wave = none) ∧ (∀ w : Fin 8, s.whl[w].sync = .off) ∧
  (∀ g : Fin 8, s.gsr[g].st = .idle) ∧ (∀ g : Fin 3, s.grp[g].fifo = []) ∧
  (∀ e : Fin 4, s.emb[e].inTask = false ∧ s.emb[e].rstack = [] ∧ s.emb[e].frames = [] ∧ s.emb[e].sbuf = []) ∧
  s.spm.mem = [] ∧ s.spm.ecc = [] ∧ s.ic.lat = 0 ∧ s.ic.en = 0 ∧ s.readyMask = 0 ∧
  s.get F.SPM_PSTAT_ON = 0x1FFFF ∧ s.get (F.SPM_REPAIR_FIRST 0) = 0xFFFF ∧ s.get F.GSR_GSTATUS_ERR_CH = 0xF ∧
  s.get (F.LINE_CTL_EN 0) = 1 ∧ s.get F.BAR_STATUS_LINK_UP = 0 ∧ s.get F.FLT_INJ_ARM = 0

/-- RESET_N qualified outside Caldera, reset, hold and a PWRFAIL sequence, before K3 or with no plug, puts the node in K0 of kind RESET_N, held in reset, with every Ember reset but for its W registers, scratchpad content, RTC, control store and MFE kept, and the fault log, lists, queues and custody as at reset. CALDERA_EXIT in Caldera, its steps complete, does so with its own kind and keeps the first fault, marked retained. POWER_ON at 16.50 V or more after a completed PWRFAIL sequence begins K0 of a power-on with the supplies shown, PVDD on unless PLUG_HOLD_N is low, held in reset where RESET_N is low (with both low in reset first, the model's choice, log entry 113), else in hold where PLUG_HOLD_N is low. RESET_N_RELEASE of a node held by RESET_N lets it go on: in hold where PLUG_HOLD_N is low, else from the start of its phase. In any other case each changes nothing. Completes: RESET_N, CALDERA_EXIT, POWER_ON, RESET_N_RELEASE. -/
def Obligations.ResetsBegin : Prop :=
  (∀ s : State, s.resetTaken = true → s.node.phase ≠ .caldera → s.plugKnown = false ∨ s.node.plugPresent = false →
    ∃ t, exec .resetN s = .next t ∧ t.node.phase = .k0 ∧ t.node.kind = .resetN ∧ t.node.heldInReset = true ∧
      t.node.resetLow = true ∧ t.node.heartbeat = false ∧ (∀ e : Fin 4, t.emb[e] = { Ember.reset with w := s.emb[e].w }) ∧
      t.spm.mem = s.spm.mem ∧ t.hrt.cs = s.hrt.cs ∧ t.mfe = s.mfe ∧ t.tim.rtc = s.tim.rtc ∧ t.now = s.now ∧
      t.col = State.reset.col ∧ t.chan = State.reset.chan ∧ t.rep = State.reset.rep ∧ t.ic = State.reset.ic ∧
      t.bar = State.reset.bar ∧ t.gsr = State.reset.gsr ∧ t.work = State.reset.work ∧ t.ring = State.reset.ring ∧
      t.pending = s.pending ∧ t.plug.mem = s.plug.mem) ∧
  (∀ s : State, s.resetTaken = true → s.node.phase = .caldera → s.node.calderaStep = 2 →
    ∃ t, exec .calderaExit s = .next t ∧ t.node.phase = .k0 ∧ t.node.kind = .calderaExit ∧ t.node.heldInReset = true ∧
      t.node.freeze = .running ∧ t.col.first = s.col.first ∧ t.get F.FLT_STATUS_FIRST_VALID = s.get F.FLT_STATUS_FIRST_VALID ∧
      t.get F.FLT_STATUS_FIRST_RETAINED = 1 ∧ (∀ e : Fin 4, t.emb[e].w = s.emb[e].w) ∧ t.spm.mem = s.spm.mem ∧
      t.col.log = State.reset.col.log ∧ t.chan = State.reset.chan ∧ t.pending = s.pending) ∧
  (∀ (low vaux conv rl hl : Bool) (vbulk off : Nat) (s : State), 1650 ≤ vbulk → vbulk < 2 ^ 16 → s.node.pwr = .complete →
    ∃ t, exec (.powerOn low (BitVec.ofNat 16 vbulk) vaux conv (BitVec.ofNat 64 off) rl hl) s = .next t ∧
      t.node.kind = .powerOn ∧ t.node.pwr = .none ∧ t.node.heldInReset = rl ∧
      t.node.phase = (if hl = true ∧ rl = false then .hold else .k0) ∧ t.get F.BAR_SUPPLY_VBULK = vbulk ∧
      t.bit F.BAR_SUPPLY_VAUX_OK = vaux ∧ t.bit F.BAR_SUPPLY_CONV_OK = conv ∧ t.bit F.BAR_SUPPLY_PWRFAIL = false ∧
      t.tim.rtc = s.tim.rtc + BitVec.ofNat 64 off ∧ t.emb = State.reset.emb ∧ t.mfe = s.mfe ∧ t.pending = s.pending ∧
      t.node.pvdd = !hl) ∧
  (∀ s : State, s.node.heldInReset = true → s.node.resetLow = true → s.node.pwr = .none →
    completes .resetNRelease s [.node] fun t => t.node.heldInReset = false ∧ t.node.resetLow = false ∧
      t.node.phaseAt = s.cycles ∧ t.node.k0At = s.node.k0At ∧ t.node.phase = (if s.node.holdLow = true then .hold else s.node.phase)) ∧
  (∀ s : State, (s.resetTaken = false → exec .resetN s = .next s ∧ exec .calderaExit s = .next s) ∧
    (s.node.phase = .caldera → exec .resetN s = .next s) ∧ (s.node.phase ≠ .caldera → exec .calderaExit s = .next s) ∧
    (s.node.heldInReset = false → exec .resetNRelease s = .next s))

/-- PWRFAIL below 15.00 V on a node outside reset, its clocks running, its plug not read and the switch at bypass, shows VBULK and PWRFAIL, strobes source 124 and raises POWER; outside hold the sequence then runs, dated now. A frozen node it lets run. At or above 15.00 V, or with a sequence under way, it changes nothing. PWRFAIL_HALT, 20 ms after, halts every Ember, keeping registers and store buffers, and writes the shutdown record at the next place of the plug's log where the plug was read, can be reached and none was written yet. PWRFAIL_HEARTBEAT_STOP, 21 ms after, stops the heartbeat and changes nothing else. At 30 ms the next idle step holds the logic side in reset with the low-voltage outputs off and the sequence is complete. Sooner, or out of their turn, they change nothing. Completes: PWRFAIL, PWRFAIL_HALT, PWRFAIL_HEARTBEAT_STOP. -/
def Obligations.PwrfailSequence : Prop :=
  (∀ (v : BitVec 16) (s : State), s.node.pwr = .none → s.node.heldInReset = false → v.toNat < 1500 →
    (s.node.freeze = .running → s.plugRead = false → s.sup.switchIn = false →
      completes (.pwrfail v) s [.regs, .node, .col, .ic] fun t =>
        t.get F.BAR_SUPPLY_VBULK = v.toNat ∧ t.get F.BAR_SUPPLY_PWRFAIL = 1 ∧
        t.ic = { s.ic with arrived := s.ic.arrived ||| BitVec.twoPow 128 124 } ∧
        t.col = (s.raise { src := 0x1A, kind := kPOWER, cls := corrected, reason := 0x01, detail := BitVec.ofNat 24 v.toNat }).col ∧
        (s.node.phase ≠ .hold → t.node.pwr = .running ∧ t.node.pwrAt = s.now ∧ t.node.pwrCycle = s.cycles) ∧
        (s.node.phase = .hold → t.node = s.node)) ∧
    (s.node.freeze = .frozen → ∃ t, exec (.pwrfail v) s = .next t ∧ t.node.freeze = .running)) ∧
  (∀ (v : BitVec 16) (s : State), 1500 ≤ v.toNat ∨ s.node.pwr ≠ .none → exec (.pwrfail v) s = .next s) ∧
  (∀ s : State, s.clocked = true → s.node.pwr = .running →
    (s.cycles < s.node.pwrCycle + msCycles 20 → exec .pwrfailHalt s = .next s) ∧
    (s.node.pwrCycle + msCycles 20 ≤ s.cycles → s.plugRead = false ∨ s.plugReachable = false ∨ s.node.pwrLogged = true →
      completes .pwrfailHalt s [.node, .emb] fun t => t.node = { s.node with pwr := .halted } ∧
        ∀ e : Fin 4, t.emb[e].halted = true ∧ t.emb[e].w = s.emb[e].w ∧ t.emb[e].sbuf = s.emb[e].sbuf) ∧
    (s.node.pwrCycle + msCycles 20 ≤ s.cycles → s.plugRead = true → s.plugReachable = true → s.node.pwrLogged = false →
      completes .pwrfailHalt s [.node, .emb, .plug] fun t => t.node = { s.node with pwr := .halted, pwrLogged := true } ∧
        tabGet 0 t.plug.mem (0xFE000 + 64 * s.plugLogNext.1) = 0x01 ∧
        tabGet 0 t.plug.mem (0xFE001 + 64 * s.plugLogNext.1) = 0x01 ∧ ∀ e : Fin 4, t.emb[e].halted = true)) ∧
  (∀ s : State, s.clocked = true → s.node.pwr = .halted →
    (s.cycles < s.node.pwrCycle + msCycles 21 → exec .pwrfailHeartbeatStop s = .next s) ∧
    (s.node.pwrCycle + msCycles 21 ≤ s.cycles → exec .pwrfailHeartbeatStop s = .next { s with
      node := { s.node with heartbeat := false, pwr := .stopped } })) ∧
  (∀ s : State, s.pending = [] → s.clocked = true → s.node.pwr = .stopped → s.node.pwrCycle + msCycles 30 ≤ s.cycles →
    ∃ t, step s = .next t ∧ t.node.pwr = .complete ∧ t.node.heldInReset = true ∧ t.node.lvOn = false) ∧
  (∀ s : State, (s.node.pwr ≠ .running → exec .pwrfailHalt s = .next s) ∧
    (s.node.pwr ≠ .halted → exec .pwrfailHeartbeatStop s = .next s))

/-- PLUG_INSERTED takes a plug's content in where none is present. PLUG_REMOVED takes note of its absence, and where the plug was read (K4 to K8, clocks running, no hold) raises a FATAL PROTOCOL fault. PLUG_HOLD in K0 to K3 enters hold with PVDD off, no heartbeat and every Ember halted; while the node is frozen, in reset, in hold or in a PWRFAIL sequence with nothing to record it turns PVDD off and is seen as a pin alone. PLUG_HOLD_RELEASE of a node in hold with its plug begins K0 of kind RESET_N, PVDD on, the plug as the programmer left it; elsewhere it is seen as a pin, PVDD back unless in hold. HEARTBEAT_LOST drops the coil; COIL_ENERGISE raises it once the heartbeat has stood 10 ms and the ring asks; SWITCH_POSITION of a frozen node records the position alone, and otherwise begins or ends the insertion asked for; SWITCH_MISMATCH after 12 ms of disagreement raises TIMEOUT from 0x19. Repeats and commands before their time change nothing. Completes: PLUG_INSERTED, PLUG_REMOVED, PLUG_HOLD, PLUG_HOLD_RELEASE, HEARTBEAT_LOST, COIL_ENERGISE, SWITCH_POSITION, SWITCH_MISMATCH. -/
def Obligations.PlugHoldAndBypass : Prop :=
  (∀ (mem : List (Nat × Byte)) (a b : Byte) (s : State),
    (s.node.plugPresent = true → exec (.plugInserted mem a b) s = .next s) ∧
    (s.node.plugPresent = false → completes (.plugInserted mem a b) s [.node, .plug] fun t =>
      t.node = { s.node with plugPresent := true } ∧ t.plug.rdid = a ∧ t.plug.rdsr = b ∧
      ∀ x y, mem = [(x, y)] → x < 0x100000 → tabGet 0 t.plug.mem x = y)) ∧
  (∀ s : State, (s.node.plugPresent = false → exec .plugRemoved s = .next s) ∧
    (s.node.plugPresent = true → s.plugKnown = false ∨ s.node.holdLow = true ∨ s.clocked = false →
      exec .plugRemoved s = .next { s with node := { s.node with plugPresent := false } }) ∧
    (s.node.plugPresent = true → s.plugKnown = true → s.node.holdLow = false → s.clocked = true → s.work.peat = [] →
      s.plug.xfer = none → completes .plugRemoved s [.node, .col] fun t => t.node.plugPresent = false ∧
        t.col = (s.raise { src := 0x14, kind := kPROTOCOL, cls := fatal, reason := 0x01 }).col)) ∧
  (∀ s : State, (s.clocked = false ∨ s.node.phase = .hold ∨ s.node.pwr ≠ .none ∧ (s.node.pwr = .running →
        s.plugRead = false ∨ s.plugReachable = false ∨ s.node.pwrLogged = true) →
      exec .plugHold s = .next { s with node := { s.node with holdLow := true, pvdd := false } }) ∧
    (s.clocked = true → s.node.pwr = .none → s.node.phase = .k0 ∨ s.node.phase = .k1 ∨ s.node.phase = .k2 ∨ s.node.phase = .k3 →
      ∃ t, exec .plugHold s = .next t ∧ t.node.phase = .hold ∧ t.node.pvdd = false ∧ t.node.heartbeat = false ∧
        t.node.holdLow = true ∧ t.node.lvOn = false ∧ t.spm = s.spm ∧ t.plug.mem = s.plug.mem ∧
        ∀ e : Fin 4, t.emb[e].halted = true ∧ t.emb[e].w = s.emb[e].w) ∧
    (s.clocked = true → s.node.phase = .hold → s.node.holdLow = true → s.node.pwr = .none → s.node.plugPresent = true →
      ∃ t, exec (.plugHoldRelease []) s = .next t ∧ t.node.phase = .k0 ∧ t.node.kind = .resetN ∧ t.node.holdLow = false ∧
        t.node.pvdd = true ∧ t.plug.mem = s.plug.mem ∧ t.spm.mem = s.spm.mem ∧ ∀ e : Fin 4, t.emb[e].w = s.emb[e].w) ∧
    (s.node.holdLow = true → s.clocked = false ∨ s.node.pwr ≠ .none ∨
        s.node.phase ≠ .hold ∧ (s.node.phase = .caldera → s.node.calderaFrom ≠ .hold) →
      exec (.plugHoldRelease []) s = .next { s with node := { s.node with holdLow := false, pvdd := s.node.phase != .hold } }) ∧
    (s.node.holdLow = false → exec (.plugHoldRelease []) s = .next s)) ∧
  (∀ s : State,
    (s.node.heartbeat = true ∨ s.sup.hbLost = true → exec .heartbeatLost s = .next s) ∧
    (s.node.heartbeat = false → s.sup.hbLost = false → completes .heartbeatLost s [.sup] fun t =>
      t.sup.hbLost = true ∧ t.sup.coil = false ∧ t.sup.switchIn = s.sup.switchIn) ∧
    (s.clocked = true → s.node.heartbeat = true → s.sup.coil = false → s.ring.requested = true →
      (s.node.hbAt + msCycles 10 ≤ s.cycles → completes .coilEnergise s [.sup] fun t => t.sup.coil = true ∧
        t.sup.switchIn = s.sup.switchIn) ∧
      (s.cycles < s.node.hbAt + msCycles 10 → exec .coilEnergise s = .next s)) ∧
    (s.node.freeze = .frozen → s.sup.switchIn = false → exec (.switchPosition true) s = .next { s with
      sup := { s.sup with switchIn := true, changedAt := s.cycles } }) ∧
    (s.node.freeze ≠ .frozen → s.sup.switchIn = false → s.live = true → s.ring.requested = true →
      completes (.switchPosition true) s [.regs, .sup, .col, .ic, .tim, .ring, .free] fun t =>
        t.sup = { s.sup with switchIn := true, changedAt := s.cycles } ∧ t.ring.inserting = true ∧
        t.ring.switchAt = some s.cycles ∧ t.get F.RING_STATUS_INSERT = 3) ∧
    (s.node.freeze ≠ .frozen → s.sup.switchIn = true →
      completes (.switchPosition false) s [.regs, .sup, .col, .ic, .tim, .ring, .free] fun t =>
        t.sup = { s.sup with switchIn := false, inserted := false, changedAt := s.cycles } ∧ t.ring.inserting = false ∧
        t.ring.leaving = false ∧ t.get F.RING_STATUS_WRAP_E = 0 ∧ t.get F.RING_STATUS_WRAP_W = 0) ∧
    (∀ b, s.sup.switchIn = b → exec (.switchPosition b) s = .next s) ∧
    (s.clocked = true → s.sup.coil ≠ s.sup.switchIn → s.sup.changedAt + msCycles 12 ≤ s.cycles →
      exec .switchMismatch s = .next (s.raise { src := 0x19, kind := kTIMEOUT, cls := contained, reason := 0x01,
                                                 detail := detail3 s.sup.coil.toNat s.sup.switchIn.toNat })) ∧
    (s.sup.coil = s.sup.switchIn ∨ s.cycles < s.sup.changedAt + msCycles 12 → exec .switchMismatch s = .next s))

/-- In its phase, clocks running and Kindling not halted: K0 with no freeze asked turns VIO on, PVDD too unless PLUG_HOLD_N is low, and ends; system time is the RTC to 1/32768 s, or 0 with RTC_LOST. K1 with the plug present and the first set of samples sound takes bands and ADDRESS (16 KEY_HI + KEY_LO) from it and ends; with no set sound it halts Kindling. PLUG_ABSENT after 100 ms without the plug halts it with a FATAL fault. K2 leaves every byte of scratchpad 0, counts the failing rows if the march is strapped, and ends. K3 with a plug that answers, two valid copies of which one is in force, its address that of the node and no row failing takes the identity and ends; with no plug, or no valid copy, it halts, the latter with FATAL CRC. Out of its phase each changes nothing. Completes: K0, K1, PLUG_ABSENT, K2, K3. -/
def Obligations.KindlingK0toK3 : Prop :=
  (∀ s : State, s.kindles .k0 = true → s.node.frzLow = false →
    completes .k0 s [.regs, .now, .node, .col, .tim, .ring] fun t => t.node.phase = .k1 ∧ t.node.vio = true ∧ t.node.pvdd = !s.node.holdLow ∧
      t.node.freeze = .running ∧ t.node.kinHalted = false ∧
      t.now.toNat = (if s.tim.rtcLost = true then 0 else s.tim.rtc.toNat / 16384 * 16384) ∧
      t.bit F.TIME_STATUS_RTC_LOST = s.tim.rtcLost) ∧
  (∀ (sets : Vector (Vector Sample 8) 4) (s : State), s.kindles .k1 = true → s.node.plugPresent = true →
    (∀ c h k, setBands sets[0].toList = some (c, h, k) → completes (.k1 sets) s [.regs, .node] fun t =>
      t.node.phase = .k2 ∧ t.get F.IDENT_CODES_CLASS = c ∧ t.get F.IDENT_CODES_KEY_HI = h ∧ t.get F.IDENT_CODES_KEY_LO = k ∧
      t.get F.IDENT_CODES_ADDRESS = 16 * h + k) ∧
    ((∀ i : Fin 4, setBands sets[i].toList = none) → completes (.k1 sets) s [.regs, .node, .col] fun t =>
      t.node.phase = .k1 ∧ t.node.kinHalted = true)) ∧
  (∀ s : State, s.kindles .k1 = true → s.node.plugPresent = false → s.node.phaseAt + msCycles 100 ≤ s.cycles →
    completes .plugAbsent s [.node, .col] fun t => t.node = { s.node with kinHalted := true } ∧
      t.col = (s.raise { src := 0x18, kind := kPROTOCOL, cls := fatal, reason := 0x05 }).col) ∧
  (∀ (fails : List (Nat × Nat)) (s : State), s.kindles .k2 = true → completes (.k2 fails) s [.regs, .node, .spm] fun t =>
    t.node.phase = .k3 ∧ (∀ a, a < 0x84000 → tabGet 0 t.spm.mem a = 0) ∧
    (s.bit F.IDENT_STRAPS_MARCH = false → t.node.badRows = [] ∧ t.get F.KIN_REPAIR_FOUND = 0) ∧
    (s.bit F.IDENT_STRAPS_MARCH = true → ∀ b r : Nat, (b, r) ∈ t.node.badRows ↔ (b, r) ∈ fails ∧ b < 17 ∧ r < rowsOf b)) ∧
  (∀ (bad : BitVec 2) (s : State), s.kindles .k3 = true →
    let a := s.plugBytes 0 0x1000
    let b := s.plugBytes 0x1000 0x1000
    let answers := s.plug.rdid ≠ 0 ∧ s.plug.rdid ≠ 0xFF ∧ s.plug.rdsr &&& 0x0C = 0
    (s.node.plugPresent = false → completes (.k3 bad) s [.node, .col] fun t => t.node = { s.node with kinHalted := true }) ∧
    (s.node.plugPresent = true → answers → chooseIdent a b = none → completes (.k3 bad) s [.node, .col] fun t =>
      t.node = { s.node with kinHalted := true } ∧
      t.col = (s.raise { src := 0x18, kind := kCRC, cls := fatal, reason := 0x07,
                         detail := detail3 (identVerdict a) (identVerdict b) }).col) ∧
    (∀ force, s.node.plugPresent = true → answers → chooseIdent a b = some (force, false, false) → s.node.badRows = [] →
      let x := if force = true then b else a
      leAt x 0xC 1 = s.get F.IDENT_CODES_ADDRESS → completes (.k3 bad) s [.regs, .node, .col] fun t =>
        t.node.phase = .k4 ∧ t.bit F.KIN_STATUS_IDENT_COPY = force ∧ t.node.identChosen = true ∧ t.node.ident.address = byteAt x 0xC ∧
        t.node.ident.epoch.toNat = leAt x 0xE 2 ∧ t.node.ident.groups.toNat = leAt x 0x18 8 ∧
        t.node.ident.sequence.toNat = leAt x 8 4)) ∧
  (∀ (sets : Vector (Vector Sample 8) 4) (fails : List (Nat × Nat)) (bad : BitVec 2) (s : State), s.node.phase = .k8 →
    ∀ c ∈ [Instr.k0, .k1 sets, .plugAbsent, .k2 fails, .k3 bad, .k4, .k5 none, .k6, .mfeAbsent, .k7, .k8],
      exec c s = .next s)

/-- In its phase, clocks running and Kindling not halted: K4 ends with the acceptable copy, the newer where both are, as IMAGE_COPY, its verdict SELECTED, or halts with IMAGE_NONE; K5 with no section failing ends with the low-voltage outputs on; with one failing it excludes the copy, its verdict LOAD_FAILED, and returns to K4 once, the second time halting. K6 ends when FAILSTATE has been sent, and begins the handshake while it has not; MFE_ABSENT ends it after 300 ms without the link, with HV_PENDING set. K7 starts the heartbeat. K8, inserted or 2.5 s after, releases the Embers and runs. WARM_RESTART in K8, when due, ends in K6 or K8 of a warm restart where another copy is chosen whose sections and page are sound, in K0 of a RESET_N where not, and halts where K3 halts. Not in K8 or not due it changes nothing. Completes: K4, K5, K6, MFE_ABSENT, K7, K8, WARM_RESTART. -/
def Obligations.KindlingK4toK8 : Prop :=
  (∀ s : State, s.kindles .k4 = true →
    let va := s.startVerdict false
    let vb := s.startVerdict true
    (∀ c, s.chooseCopy va vb = some c → completes .k4 s [.regs, .node, .col] fun t => t.node.phase = .k5 ∧
      t.bit F.KIN_STATUS_IMAGE_COPY = c ∧ t.get (F.KIN_COPY_VERDICT c.toNat) = Verdict.code .selected ∧
      t.get F.IDENT_MODULE_RUN_LEVEL = min (s.levelHi c) 3 ∧ t.node.mfeRoms = s.romList c) ∧
    (s.chooseCopy va vb = none ↔ va ≠ .acceptable ∧ vb ≠ .acceptable) ∧
    (s.chooseCopy va vb = none → completes .k4 s [.regs, .node, .col] fun t => t.node.phase = .k4 ∧ t.node.kinHalted = true)) ∧
  (∀ (bad : Option (Fin 64)) (s : State), s.kindles .k5 = true → s.node.plugPresent = true →
    (s.failsAt bad = none → ∃ t, exec (.k5 bad) s = .next t ∧ t.node.phase = .k6 ∧ t.node.lvOn = true ∧
      t.get F.HRT_SWAP_ACTIVE_PAGE = 0 ∧ t.hrt.scrubAt = 0 ∧ t.emb = s.emb ∧ t.plug = s.plug ∧ t.now = s.now) ∧
    (∀ k i, s.failsAt bad = some (k, i) → s.bit F.KIN_STATUS_RETURNED = false →
      ∃ t, exec (.k5 bad) s = .next t ∧ t.node.phase = .k4 ∧ t.node.kinHalted = false ∧ t.bit F.KIN_STATUS_RETURNED = true ∧
        (s.selected = false → t.node.excludedA = true) ∧ (s.selected = true → t.node.excludedB = true) ∧
        t.get (F.KIN_COPY_VERDICT s.selected.toNat) = Verdict.code .loadFailed) ∧
    (∀ k i, s.failsAt bad = some (k, i) → s.bit F.KIN_STATUS_RETURNED = true →
      ∃ t, exec (.k5 bad) s = .next t ∧ t.node.phase = .k5 ∧ t.node.kinHalted = true)) ∧
  (∀ s : State, s.kindles .k6 = true → s.node.kind ≠ .warm →
    (s.bar.step = .idle → s.bit F.BAR_STATUS_FAILSTATE_SENT = true → completes .k6 s [.regs, .node] fun t =>
      t.node.phase = .k7 ∧ t.get F.IDENT_MODULE_MFE_ROM = s.get F.BAR_STATUS_MFE_ROM) ∧
    (s.bar.step = .idle → s.bit F.BAR_STATUS_FAILSTATE_SENT = false → s.linkUp = true → s.bar.outs.length < 16 →
      completes .k6 s [.bar] fun t => t.bar.step = .hello) ∧
    (s.linkUp = false → s.node.phaseAt + msCycles 300 ≤ s.cycles → completes .mfeAbsent s [.regs, .node, .col] fun t =>
      t.node.phase = .k7 ∧ t.bit F.KIN_STATUS_HV_PENDING = true ∧
      t.col = (s.raise { src := 0x18, kind := kTIMEOUT, cls := corrected, reason := 0x13 }).col)) ∧
  (∀ s : State, s.kindles .k7 = true →
    (s.node.heartbeat = false → completes .k7 s [.regs, .node, .sup, .ic, .ring] fun t => t.node.phase = .k7 ∧
      t.node.heartbeat = true ∧ t.node.hbAt = s.cycles ∧ t.sup.hbLost = false) ∧
    (s.node.heartbeat = true → s.sup.inserted = false → s.cycles < s.node.phaseAt + msCycles 2500 →
      exec .k8 s = .next s) ∧
    (s.node.heartbeat = true → s.sup.inserted = true ∨ s.node.phaseAt + msCycles 2500 ≤ s.cycles →
      ∃ t, exec .k8 s = .next t ∧ t.node.phase = .k8 ∧ t.node.heartbeat = true ∧
        t.bit F.KIN_STATUS_INSERTED = s.sup.inserted ∧ (∀ e : Fin 4, t.emb[e].halted = false ∧ t.emb[e].w = s.emb[e].w))) ∧
  (∀ (fails : List (Nat × Nat)) (rb : BitVec 2) (bad : Option (Fin 64)) (s : State), s.inK8 = true → s.dist.warmDue = true →
    s.node.pwr = .none →
    let s0 := warmK0 s
    let s3 := k3 true (fun c => rb.getLsbD c.toNat)
      (endPhase F.KIN_TIME1_END_K2 .k3 (k2Warm fails (endPhase F.KIN_TIME0_END_K0 .k2 s0)))
    let r := k4 (endPhase F.KIN_TIME1_END_K3 .k4 s3)
    (s3.node.kinHalted = true → exec (.warmRestart fails rb bad) s = .next s3) ∧
    (∀ c, s3.node.kinHalted = false → r.1 = some c → c ≠ s0.selected → r.2.failsAt bad = none → r.2.pageOk = true →
      ∃ t, exec (.warmRestart fails rb bad) s = .next t ∧ t.node.kind = .warm ∧ (t.node.phase = .k6 ∨ t.node.phase = .k8) ∧
        t.now = s.now ∧ t.mfe = s.mfe ∧ t.pending = s.pending) ∧
    (s3.node.kinHalted = false → r.1 = none ∨ r.1 = some s0.selected → ∃ t, exec (.warmRestart fails rb bad) s = .next t ∧
      t.node.kind = .resetN ∧ t.node.phase = .k0 ∧ t.mfe = s.mfe ∧ t.pending = s.pending)) ∧
  (∀ (fails : List (Nat × Nat)) (rb : BitVec 2) (bad : Option (Fin 64)) (s : State), s.inK8 = false ∨ s.dist.warmDue = false →
    exec (.warmRestart fails rb bad) s = .next s)

/-- With the clocks running, outside Caldera, a fault as cause: CALDERA ends in phase Caldera with its cause code and the phase it came from, no heartbeat, W registers kept, and scratchpad content too when no plug transfer runs; without FREEZE_ON_FATAL every Ember is halted with an empty store buffer, Geyser and Hearth's timers stand, and with it the clocks stop. With no cause, in Caldera or unclocked it changes nothing. FREEZE with no PWRFAIL sequence: in K0 or reset the request is kept; else the clocks stop, heartbeat and all, memory, Embers' registers and time kept. SINTER_RESUME of a frozen node with FRZ_N high starts the clocks, outside Caldera with Embers, scratchpad and time kept and the heartbeat as before, and takes up a plug hold begun or ended meanwhile; with FRZ_N low it says RESUME_REFUSED; a running node only loads the instruction. SINTER_READ of a frozen node gives the address and the word that stands there, or 0xFFFF and 0 where the address holds nothing, and the address moves on by one word; of a running node it gives all ones and the address stays. MEMACC of a frozen node: a write of an aligned word in a bank On stores its eight bytes and no other, a read of a sound word gives them; on a running node, an unaligned address or one past the end it answers an error, storing nothing. EXTEST and SAMPLE capture the cells and take what was shifted in; BYPASS loads its instruction. But for scratchpad in MEMACC nothing outside the node's TAP state changes, the clocks, the phase and the freeze included. Completes: CALDERA, FREEZE, SINTER_RESUME, SINTER_READ, MEMACC, EXTEST, SAMPLE_PRELOAD, BYPASS. -/
def Obligations.CalderaFreezeAndTap : Prop :=
  ((∀ (bad : Bool) (s : State), s.clocked = true → s.node.phase ≠ .caldera →
     (s.col.cause = none → exec (.caldera bad) s = .next s) ∧
     (∀ r, s.col.cause = some r → ∃ t, exec (.caldera bad) s = .next t ∧ t.node.phase = .caldera ∧
       t.node.calderaFrom = s.node.phase ∧ t.node.calderaCause = causeCode r ∧ t.node.heartbeat = false ∧
       (s.plug.xfer = none → t.spm.mem = s.spm.mem) ∧ t.now = s.now ∧ t.pending = s.pending ∧ (∀ e : Fin 4, t.emb[e].w = s.emb[e].w) ∧
       (s.bit F.FLT_CFG_FREEZE_ON_FATAL = false → t.node.freeze = .running ∧ t.node.calderaStep = 2 ∧
         t.hrt.timersStopped = true ∧ (∀ g : Fin 8, t.gsr[g].st ≠ .running) ∧
         ∀ e : Fin 4, t.emb[e].halted = true ∧ t.emb[e].sbuf = []) ∧
       (s.bit F.FLT_CFG_FREEZE_ON_FATAL = true → s.node.pwr = .none → t.node.freeze = .frozen ∧ t.node.frzOnFatal = true ∧
         t.node.calderaStep = 1 ∧ t.emb = s.emb))) ∧
   (∀ (bad : Bool) (s : State), s.node.phase = .caldera ∨ s.clocked = false → exec (.caldera bad) s = .next s) ∧
   (∀ s : State, s.node.pwr = .none → s.node.freeze = .running →
     (s.node.heldInReset = true ∨ s.node.phase = .k0 →
       exec .freeze s = .next { s with node := { s.node with frzLow := true } }) ∧
     (s.node.heldInReset = false → s.node.phase ≠ .k0 → s.col.cause = none →
       completes .freeze s [.regs, .node, .sup, .ring] fun t => t.node.freeze = .frozen ∧ t.node.heartbeat = false ∧
         t.node.hbFrozen = s.node.heartbeat ∧ t.node.phase = s.node.phase ∧
         t.node.frzBypassFirst = !s.bit F.IDENT_STRAPS_FRZB)) ∧
   (∀ s : State, s.node.pwr ≠ .none ∨ s.node.freeze = .frozen → exec .freeze s = .next s) ∧
   (∀ (hi : Bool) (s : State),
     (s.node.freeze = .running → completes (.sinterResume hi) s [.node] fun t =>
       t.node = { s.node with tapIr := 0x41, tapOut := 0x01 }) ∧
     (s.node.freeze = .frozen → hi = false → completes (.sinterResume hi) s [.node] fun t => t.node.freeze = .frozen ∧
       t.node.resumeRefused = true) ∧
     (s.node.freeze = .frozen → hi = true → s.node.phase ≠ .caldera → s.node.phase ≠ .hold → s.node.holdLow = false →
       s.node.plugPresent = true ∨ s.plugKnown = false →
       ∃ t, exec (.sinterResume hi) s = .next t ∧ t.node.freeze = .running ∧ t.node.phase = s.node.phase ∧ t.emb = s.emb ∧
         t.spm = s.spm ∧ t.now = s.now ∧ t.node.heartbeat = ((s.node.hbFrozen && (t.live)) || s.node.heartbeat) ∧
         t.pending = s.pending) ∧
     (s.node.freeze = .frozen → hi = true → s.node.phase ≠ .caldera →
       (s.node.phase = .hold ↔ s.node.holdLow = false) →
       ∃ t, exec (.sinterResume hi) s = .next t ∧ t.node.freeze = .running ∧
         t.node.phase = (if s.node.phase = .hold then .k0 else .hold)))) ∧
  ((∀ (seg word : BitVec 16) (s : State),
     (s.node.freeze = .running → completes (.sinterRead seg word) s [.node] fun t => t.node = { s.node with
       tapIr := 0x40, tapOut := 0x01, sinterSeg := seg, sinterWord := word, sinterData := BitVec.allOnes 64 }) ∧
     (s.node.freeze = .frozen → completes (.sinterRead seg word) s [.node] fun t => t.node.sinterSeg = seg ∧
       t.node.sinterWord = word + 1 ∧ t.node.phase = s.node.phase ∧ t.node.freeze = .frozen ∧ t.node.memacc = s.node.memacc ∧
       (∀ (e : Fin 4) (r : Fin 32), seg.toNat = 0x10 + e.val → word.toNat = r.val →
         t.node.sinterData = seg ++ word ++ s.emb[e].w[r]) ∧
       (seg.toNat = 0 → word.toNat = 1 → t.node.sinterData = seg ++ word ++ s.now.extractLsb' 0 32) ∧
       (seg.toNat = 0x20 → t.node.sinterData = (0xFFFF : BitVec 16) ++ word ++ (0 : Word)))) ∧
   (∀ (addr : BitVec 20) (data : BitVec 64) (s : State),
     let a := addr.toNat
     let on := s.bankOn (bankOf a)
     (∀ w, w < 8 → s.window? w = none) → s.node.freeze = .frozen → a % 8 = 0 → a < 0x84000 → on = true →
     (completes (.memacc true addr data) s [.node, .spm] fun t => t.bytesAt a 8 = leBytes 8 data.toNat ∧
       (∀ x, x < a ∨ a + 8 ≤ x → tabGet 0 t.spm.mem x = tabGet 0 s.spm.mem x) ∧ t.node.memaccWritten = true ∧
       t.node.memacc = memaccWord false false false false addr data ∧ t.node.phase = s.node.phase) ∧
     (tabGet none s.spm.ecc a ≠ some .double → completes (.memacc false addr data) s [.node] fun t =>
       t.node.memacc = memaccWord false (tabGet none s.spm.ecc a).isSome false false addr
         (BitVec.ofNat 64 (ofLe (s.bytesAt a 8))) ∧ t.node.phase = s.node.phase)) ∧
   (∀ (write : Bool) (addr : BitVec 20) (data : BitVec 64) (s : State),
     s.node.freeze = .running ∨ addr.toNat % 8 ≠ 0 ∨ 0x84000 ≤ addr.toNat →
     completes (.memacc write addr data) s [.node, .free] fun t => t.node.memacc.getLsbD 95 = true ∧
       t.node.memaccWritten = s.node.memaccWritten ∧ t.node.phase = s.node.phase) ∧
   (∀ (pins shift : BitVec 149) (s : State),
     (completes (.extest pins shift) s [.node] fun t => t.node.tapIr = 0x00 ∧ t.node.preload = shift ∧
       t.node.boundary.getLsbD 0 = pins.getLsbD 0 ∧ t.node.phase = s.node.phase ∧ t.node.freeze = s.node.freeze) ∧
     (completes (.samplePreload pins shift) s [.node] fun t => t.node.tapIr = 0x01 ∧ t.node.preload = shift ∧
       t.node.boundary.getLsbD 0 = pins.getLsbD 0 ∧ t.node.phase = s.node.phase ∧ t.node.freeze = s.node.freeze) ∧
     (completes .bypass s [.node] fun t => t.node = { s.node with
       tapIr := 0xFF, tapOut := if s.node.freeze = .frozen then 0x05 else 0x01 })))

/-- For every state whose node has the standing conditions (a heartbeat only with the clocks running outside reset; none from step 6 of a PWRFAIL sequence on; a frozen node is not in reset and runs no PWRFAIL sequence; a completed PWRFAIL sequence holds the logic side in reset; in hold PVDD is off and there is no heartbeat; in Caldera there is no heartbeat), every step that answers a next state gives one whose node has them. Every command leaves the queue's rest as it is: a step removes the front command and nothing else. -/
def Obligations.NodeInvariantKept : Prop :=
  ∀ s s' : State, nodeOk s.node → step s = .next s' → nodeOk s'.node ∧ s'.pending = s.pending.tail

/-- For every state with the clocks stopped and every well-formed command that is none of the TAP's, the resets', the supply's, the plug's, the switch's, the supervisor's, the RTC's or the MFE's: the command answers a next state, and it is the same state. The commands left out are listed by name. -/
def Obligations.FrozenNodeStands : Prop :=
  ∀ (s : State) (c : Instr), s.node.freeze = .frozen → c.wf = true → actsFrozen c = false → exec c s = .next s

/-- With the clocks running, a write of PLG.CTL takes DIR and LEN; without GO, or while BUSY, nothing else happens. GO of a write that would touch the plug outside 0xF_A000 to 0xF_DFFF ends with RESULT AREA, one of length 0 or above 4096 or past either end with RESULT LENGTH: no byte moves, a PROTOCOL fault comes from source 0x14 and source 92 is latched. Any other GO sets BUSY and DONE 0. TRANSFER_END, in K8 or Kindling with the plug present and no PWRFAIL, all banks On, no word in error, no window and no checker armed: the destination holds the source's bytes, every other byte of both is as before, BUSY is 0, RESULT OK, DONE the length, and source 92 is latched. Where the first word stands in a bank that is off it ends ABORTED with DONE 0. With no transfer it changes nothing. Completes: TRANSFER, TRANSFER_END. -/
def Obligations.PlugTransfers : Prop :=
  (∀ (v : Word) (s : State), s.clocked = true →
    let go := F.PLG_CTL_GO.of v
    let x : Transfer := { toPlug := decide (F.PLG_CTL_DIR.of v ≠ 0), addr := s.get F.PLG_ADDR_ADDR,
                          spad := s.get F.PLG_SPAD_SPAD / 4 * 4, len := F.PLG_CTL_LEN.of v }
    let area := x.toPlug = true ∧ (x.addr < 0xFA000 ∨ 0xFE000 < x.addr + x.len)
    let long := x.len = 0 ∨ 4096 < x.len ∨ 0x100000 < x.addr + x.len ∨ 0x84000 < x.spad + x.len
    let taken (t : State) := t.get F.PLG_CTL_DIR = F.PLG_CTL_DIR.of v ∧ t.get F.PLG_CTL_LEN = x.len
    let refused (r : Nat) := completes (.transfer v) s [.regs, .col, .ic, .plug] fun t => taken t ∧
      t.get F.PLG_STATUS_RESULT = r ∧ t.get F.PLG_STATUS_DONE = 0 ∧ t.get F.PLG_STATUS_BUSY = 0 ∧ t.plug.mem = s.plug.mem ∧
      t.plug.xfer = none ∧ t.ic.lat = s.ic.lat ||| BitVec.twoPow 128 92 ∧
      t.col = (s.raise { src := 0x14, kind := kPROTOCOL, cls := corrected, reason := 0x02, detail := detail3 r }).col
    (go = 0 ∨ s.bit F.PLG_STATUS_BUSY = true → completes (.transfer v) s [.regs] fun t => taken t ∧ regsBut [0x400E0048] s t) ∧
    (go ≠ 0 → s.bit F.PLG_STATUS_BUSY = false → (area → refused 1) ∧ (¬ area → long → refused 2) ∧
      (¬ area → ¬ long → completes (.transfer v) s [.regs, .plug] fun t => taken t ∧ t.get F.PLG_STATUS_BUSY = 1 ∧
        t.get F.PLG_STATUS_DONE = 0 ∧ t.plug = { s.plug with xfer := some x }))) ∧
  (∀ (x : Transfer) (s : State), s.live = true → s.node.plugPresent = true → s.node.pwr = .none → s.plug.xfer = some x →
    1 ≤ x.len → x.len ≤ 4096 → x.spad % 4 = 0 → x.spad + x.len ≤ 0x84000 → s.spm.ecc = [] → (∀ w, w < 8 → s.window? w = none) →
    s.bit F.FLT_INJ_ARM = false →
    let ended (t : State) (r n : Nat) := t.get F.PLG_STATUS_BUSY = 0 ∧ t.get F.PLG_STATUS_RESULT = r ∧
      t.get F.PLG_STATUS_DONE = n ∧ t.plug.xfer = none ∧ t.ic.lat = s.ic.lat ||| BitVec.twoPow 128 92
    (s.get F.SPM_PSTAT_ON = 0x1FFFF → x.toPlug = true → completes .transferEnd s [.regs, .ic, .plug] fun t => ended t 0 x.len ∧
      (∀ i, i < x.len → tabGet 0 t.plug.mem (x.addr + i) = tabGet 0 s.spm.mem (x.spad + i)) ∧
      (∀ a, a < x.addr ∨ x.addr + x.len ≤ a → tabGet 0 t.plug.mem a = tabGet 0 s.plug.mem a)) ∧
    (s.get F.SPM_PSTAT_ON = 0x1FFFF → x.toPlug = false → completes .transferEnd s [.regs, .ic, .spm, .plug] fun t =>
      ended t 0 x.len ∧ t.plug.mem = s.plug.mem ∧
      (∀ i, i < x.len → tabGet 0 t.spm.mem (x.spad + i) = tabGet 0 s.plug.mem (x.addr + i)) ∧
      (∀ a, a < x.spad ∨ x.spad + x.len ≤ a → tabGet 0 t.spm.mem a = tabGet 0 s.spm.mem a)) ∧
    (s.bankOn (bankOf x.spad) = false → completes .transferEnd s [.regs, .col, .ic, .plug] fun t => ended t 3 0 ∧
      t.plug.mem = s.plug.mem)) ∧
  (∀ s : State, s.plug.xfer = none → exec .transferEnd s = .next s)

/-- In K8 with no PWRFAIL, for the first image cell of its type: an OFFER whose ROSTER does not name the node does nothing; one not newer than the running image is refused OLDER in STATUS, with REFUSAL and a COMPAT fault; one of an image held as STAGED is answered STAGED; one with levels out of range is refused with 2; any other, no other image held STAGED or being received, makes the node its receiver: the inactive copy's COMMIT is 0 and no byte of the plug changes outside its commit block, STATE is 1, no chunk, preload, drain or activation is held, STATUS asks for the chunks and source 91 is latched. A CHUNK lacked, its number below 5460, is written whole at the bytes it names and counted and nothing else changes; one not lacked does nothing; after the last, a copy that passes becomes STAGED with the distributor as SOURCE, one with a bad header or section is asked for again, the second time refused with 0x04. NEED_REPORT each second names the missing ranges. BEACON of a newer image not held asks its origin for every chunk. A STATUS cell carries its fields at their bytes. Completes: IMAGE_OFFER, CHUNK, NEED_REPORT, BEACON. -/
def Obligations.ImageReception : Prop :=
  (∀ (c : List Byte) (s : State), s.working = true → (s.dist.inbox.find? fun x => byteAt x 0 == 0x20) = some c →
    let s1 : State := { s with dist := { s.dist with inbox := s.dist.inbox.erase c } }
    let seq := beAt c 2 4
    let named := (byteAt c (16 + s.address / 8)).getLsbD (s.address % 8)
    let lo := (byteAt c 32).toNat
    let hi := (byteAt c 33).toNat
    let fresh := named = true ∧ ∀ r ∈ s.dist.refusals, r.1.toNat ≠ seq
    let isNew := newer 32 seq (s.get F.KIN_IMAGE_SEQ_SEQUENCE) = true
    let base := copyBase s.inactive
    (named = false → exec .imageOffer s = .next s1) ∧
    (fresh → ¬ isNew → completes .imageOffer s [.regs, .col, .ic, .work, .dist] fun t => t.dist = s1.dist ∧
      t.get F.PLG_DIST_STATE_REFUSAL = 1 ∧
      t.work.images = (sendStatus (s.get F.KIN_IMAGE_SEQ_SEQUENCE) 3 1 (cellFrom c) false [] s).work.images ∧
      t.col = (s.raise { src := 0x12, kind := kCOMPAT, cls := corrected, reason := 0x20,
                         detail := BitVec.ofNat 24 (1 + 256 * (seq % 65536)) }).col) ∧
    (fresh → isNew → s.distState ≠ 1 → s.holdsStaged seq = true → 1 ≤ hi → lo ≤ 3 → lo ≤ hi →
      completes .imageOffer s [.work, .dist] fun t => t.dist = s1.dist ∧
        t.work.images = (sendStatus seq 2 0 (cellFrom c) s.mismatch [] s).work.images) ∧
    (fresh → isNew → s.distState ≠ 1 → s.commitOf s.inactive ≠ .staged → hi < 1 ∨ 3 < lo ∨ hi < lo →
      completes .imageOffer s [.regs, .col, .ic, .work, .dist] fun t => t.dist = s1.dist ∧ t.get F.PLG_DIST_STATE_REFUSAL = 2) ∧
    (fresh → isNew → s.distState ≠ 1 → s.commitOf s.inactive ≠ .staged → 1 ≤ hi → lo ≤ 3 → lo ≤ hi →
      s.plugReachable = true → completes .imageOffer s [.regs, .ic, .hrt, .plug, .work, .dist] fun t => t.distState = 1 ∧
        t.get F.PLG_DIST_STATE_ROLE = 1 ∧ t.get F.PLG_DIST_SEQ_SEQUENCE = seq ∧ t.get F.PLG_DIST_STATE_CHUNKS = 0 ∧ t.act = 0 ∧
        t.dist.chunks = 0 ∧ t.dist.len = beAt c 8 4 ∧ t.dist.origin = BitVec.ofNat 8 (cellFrom c) ∧
        t.copyLe s.inactive 0 4 = 0 ∧ t.get F.HRT_SWAP_PRELOADED = 0 ∧ t.get F.TSI_STATUS_PRELOADED = 0 ∧
        t.hrt.draining = false ∧ t.dist.window = none ∧
        (∀ a, a < base ∨ base + 64 ≤ a → tabGet 0 t.plug.mem a = tabGet 0 s.plug.mem a) ∧
        t.ic.lat = s.ic.lat ||| BitVec.twoPow 128 91 ∧ t.work.images.length = s.work.images.length + 1)) ∧
  (∀ (c : List Byte) (s : State), s.working = true → (s.dist.inbox.find? fun x => byteAt x 0 == 0x21) = some c →
    let d1 : Dist := { s.dist with inbox := s.dist.inbox.erase c }
    let k := beAt c 6 2
    let n := (s.dist.len + 47) / 48
    let a0 := copyBase s.inactive + 0x40 + 48 * k
    let lacked := s.distState = 1 ∧ beAt c 2 4 = s.get F.PLG_DIST_SEQ_SEQUENCE ∧ k < n ∧ k < 5460 ∧ s.dist.chunks.getLsbD k = false
    let d2 : Dist := { d1 with chunks := s.dist.chunks ||| BitVec.twoPow 5462 k }
    let s2 : State := (({ writePlug a0 (slice c 8 48) s with dist := d2 } : State)).put F.PLG_DIST_STATE_CHUNKS n
    let seq := s.get F.PLG_DIST_SEQ_SEQUENCE
    let last := lacked ∧ s.plugReachable = true ∧ n ≤ 5460 ∧ s.get F.PLG_DIST_STATE_CHUNKS + 1 = n
    let bad := s2.headerOk s.inactive = false ∨ s2.contentVerdict s.inactive = .sectionBad
    (¬ lacked → exec .chunk s = .next { s with dist := d1 }) ∧
    (lacked → s.plugReachable = true → n ≤ 5460 → s.get F.PLG_DIST_STATE_CHUNKS + 1 < n →
      completes .chunk s [.regs, .plug, .dist] fun t =>
      t.get F.PLG_DIST_STATE_CHUNKS = s.get F.PLG_DIST_STATE_CHUNKS + 1 ∧ t.dist = d2 ∧
      (∀ i, i < 48 → tabGet 0 t.plug.mem (a0 + i) = byteAt c (8 + i)) ∧
      (∀ a, a < a0 ∨ a0 + 48 ≤ a → tabGet 0 t.plug.mem a = tabGet 0 s.plug.mem a)) ∧
    (last → s2.headerOk s.inactive = true → s2.contentVerdict s.inactive = .acceptable →
      completes .chunk s [.regs, .ic, .plug, .work, .dist] fun t => t.distState = 2 ∧ t.dist = d2 ∧
        t.copyLe s.inactive 0 4 = 0x3C3C5A5A ∧ t.copyLe s.inactive 8 8 = 0 ∧ t.copyLe s.inactive 0x10 1 = s.dist.origin.toNat ∧
        t.work.images.length = s.work.images.length + 1) ∧
    (last → bad → s.dist.failedOnce ≠ some (BitVec.ofNat 32 seq) →
      completes .chunk s [.regs, .col, .ic, .plug, .work, .dist] fun t => t.distState = 1 ∧ t.dist.chunks = 0 ∧
        t.get F.PLG_DIST_STATE_CHUNKS = 0 ∧ t.dist.failedOnce = some (BitVec.ofNat 32 seq)) ∧
    (last → bad → s.dist.failedOnce = some (BitVec.ofNat 32 seq) →
      completes .chunk s [.regs, .col, .ic, .plug, .work, .dist] fun t => t.distState = 5 ∧ t.get F.PLG_DIST_STATE_REFUSAL = 4 ∧
        t.dist.chunks = 0)) ∧
  (∀ s : State, s.working = true →
    let due := s.distState = 1 ∧ ∀ x, s.dist.needAt = some x → x + 0x20000000 ≤ s.cycles
    (due → completes .needReport s [.work, .dist] fun t => t.dist = { s.dist with needAt := some s.cycles } ∧
      t.work.images = (sendStatus (s.get F.PLG_DIST_SEQ_SEQUENCE) 1 0 s.dist.origin.toNat false s.missing s).work.images) ∧
    (¬ due → exec .needReport s = .next s)) ∧
  (∀ (c : List Byte) (s : State), s.working = true → (s.dist.inbox.find? fun x => byteAt x 0 == 0x23) = some c →
    let s1 : State := { s with dist := { s.dist with inbox := s.dist.inbox.erase c } }
    let seq := beAt c 2 4
    let wanted := newer 32 seq (s.get F.KIN_IMAGE_SEQ_SEQUENCE) = true ∧ ¬ (s.distState = 1 ∧ s.get F.PLG_DIST_SEQ_SEQUENCE = seq) ∧
      s.holdsStaged seq = false
    (¬ wanted → exec .beacon s = .next s1) ∧
    (wanted → completes .beacon s [.work, .dist] fun t => t.dist = s1.dist ∧
      t.work.images = (sendStatus seq 1 0 (cellFrom c) false [(0, 0xFFFF)] s).work.images)) ∧
  (∀ (seq st code dst : Nat) (mm : Bool) (l : List (Nat × Nat)) (s : State), ∃ c : List Byte,
    (sendStatus seq st code dst mm l s).work.images = s.work.images ++ [c] ∧ c.length = 64 ∧ byteAt c 0 = 0x22 ∧
    byteAt c 1 = BitVec.ofNat 8 s.address ∧ beAt c 2 4 = seq % 2 ^ 32 ∧ byteAt c 6 = BitVec.ofNat 8 st ∧
    byteAt c 7 = BitVec.ofNat 8 code ∧ byteAt c 8 = BitVec.ofNat 8 dst)

/-- In K8 with no PWRFAIL: a STATUS for another distributor does nothing; one of the image served, not the running one, marks its sender STAGED (PLG.DIST_ROSTER shows it) or REFUSED, or between rounds adds its missing ranges to the next, and REFUSED as OLDER than a newer sequence ends the service; of the running image a NEED from a node of its roster opens a catch-up for that node alone. OFFER_ROUND with an image served sends an OFFER once per second, every chunk with the first, the chunks reported missing when a round is over with nodes of the ring still to report, none past STAGE_LIMIT; with none it changes nothing. ARMING, when every node to serve has reported or STAGE_LIMIT has passed: STATE is 3, ACT is the least multiple of 60 not before ACT_EARLIEST and ARM_LEAD seconds after now, in the commit block too, and an ACTIVATE_IMAGE waits for every other node that reported STAGED; with no image served it changes nothing. BEACON_SEND each 10 s of a node running a DISTRIBUTE image sends one BEACON with its address and sequence, otherwise it changes nothing. Completes: IMAGE_STATUS, OFFER_ROUND, ARMING, BEACON_SEND. -/
def Obligations.ImageServing : Prop :=
  (∀ (c : List Byte) (s : State), s.working = true → (s.dist.inbox.find? fun x => byteAt x 0 == 0x22) = some c →
    let d1 : Dist := { s.dist with inbox := s.dist.inbox.erase c }
    let bit := BitVec.twoPow 128 (cellFrom c)
    ((byteAt c 8).toNat ≠ s.address → exec .imageStatus s = .next { s with dist := d1 }) ∧
    (∀ v, (byteAt c 8).toNat = s.address → s.dist.serve = some v → beAt c 2 4 = v.seq.toNat →
      beAt c 2 4 ≠ s.get F.KIN_IMAGE_SEQ_SEQUENCE → completes .imageStatus s [.regs, .dist] fun t =>
        (byteAt c 6 = 2 → t.dist = { d1 with serve := some { v with staged := v.staged ||| bit } } ∧
          ∀ k, k < 4 → t.reg (0x400E0060 + 4 * k) = (v.staged ||| bit).extractLsb' (32 * k) 32) ∧
        (byteAt c 6 = 3 → t.dist = { d1 with serve := some { v with refused := v.refused ||| bit } }) ∧
        (byteAt c 6 = 1 → v.round ≠ 0 → t.dist = { d1 with serve := some v }) ∧
        (byteAt c 6 = 1 → v.round = 0 → t.dist = { d1 with serve := some { v with
          needed := v.needed ||| rangeBits c (s.chunkCount s.inactive) } })) ∧
    (∀ v, (byteAt c 8).toNat = s.address → s.dist.serve = some v → byteAt c 6 = 3 → byteAt c 7 = 1 →
      newer 32 (beAt c 2 4) v.seq.toNat = true → beAt c 2 4 ≠ s.get F.KIN_IMAGE_SEQ_SEQUENCE →
      completes .imageStatus s [.regs, .dist] fun t => t.dist = { d1 with serve := none } ∧ t.get F.PLG_DIST_STATE_ROLE = 0) ∧
    ((byteAt c 8).toNat = s.address → s.dist.serve = none → s.dist.catchUp = none → beAt c 2 4 = s.get F.KIN_IMAGE_SEQ_SEQUENCE →
      s.distributes s.selected = true → (s.rosterOf s.selected).getLsbD (cellFrom c) = true →
      (byteAt c 6 = 1 → completes .imageStatus s [.dist] fun t => ∃ v, t.dist = { d1 with catchUp := some v } ∧
        v.roster = bit ∧ v.staged = 0 ∧ v.firstAt = none ∧ v.seq.toNat = s.get F.KIN_IMAGE_SEQ_SEQUENCE) ∧
      (byteAt c 6 ≠ 1 → exec .imageStatus s = .next { s with dist := d1 }))) ∧
  (∀ s : State, s.working = true → s.dist.catchUp = none →
    (s.dist.serve = none → exec .offerRound s = .next s) ∧
    (∀ v, s.dist.serve = some v →
      let all := BitVec.ofNat 5462 (2 ^ s.chunkCount s.inactive - 1)
      let next := if v.firstAt = none then all
        else if s.limitOver v s.inactive = true then 0
        else if v.round = 0 ∧ s.roundsOver s.nodesInRing.1 v s.inactive = false then v.needed else v.round
      let due := ∀ x, v.offerAt = some x → x + 0x20000000 ≤ s.cycles
      completes .offerRound s [.work, .dist, .free] fun t => ∃ v', t.dist = { s.dist with serve := some v' } ∧ v'.round = next ∧
        v'.roster = v.roster ∧ v'.staged = v.staged ∧ v'.refused = v.refused ∧ v'.armed = v.armed ∧
        v'.firstAt = some (v.firstAt.getD s.cycles) ∧
        (due → v'.offerAt = some s.cycles ∧ ∃ x : List Byte, t.work.images = s.work.images ++ [x] ∧ byteAt x 0 = 0x20 ∧
          byteAt x 1 = BitVec.ofNat 8 s.address ∧ beAt x 2 4 = s.imageSeq s.inactive % 2 ^ 32 ∧
          slice x 16 16 = s.copyBytes s.inactive 0x58 16) ∧
        (¬ due → v'.offerAt = v.offerAt ∧ t.work.images = s.work.images))) ∧
  (∀ s : State, s.working = true → s.dist.catchUp = none →
    let c := s.inactive
    let soonest := (s.now.toNat + 0x1FFFFFFF) / 0x20000000 + s.copyLe c 0x78 2
    (s.dist.serve = none → exec .arming s = .next s) ∧
    (∀ v, s.dist.serve = some v → v.armed = true ∨ v.firstAt = none ∨ s.serveOver v c = false → exec .arming s = .next s) ∧
    (∀ v, s.dist.serve = some v → v.armed = false → v.firstAt ≠ none → s.serveOver v c = true → s.plugReachable = true →
      completes .arming s [.regs, .ic, .plug, .work, .dist] fun t => t.distState = 3 ∧
        t.dist.serve = some { v with armed := true } ∧ t.copyLe c 0 4 = 0x3C3C5A5A ∧
        (∃ a, a % 60 = 0 ∧ s.copyLe c 0x70 8 ≤ a ∧ soonest ≤ a ∧
          (∀ b, b % 60 = 0 → s.copyLe c 0x70 8 ≤ b → soonest ≤ b → a ≤ b) ∧
          (a < 2 ^ 64 → t.act = a ∧ t.copyLe c 8 8 = a) ∧
          (s.custodySlot = none → t.work.arming = s.work.arming ++
            ((List.range 128).filter fun n => v.staged.getLsbD n && decide (n ≠ s.address)).map fun n =>
              (n, v.seq, BitVec.ofNat 64 a))))) ∧
  (∀ (v : Serve) (c : Bool) (s : State), (∀ n, n < 128 → v.roster.getLsbD n = true →
    v.staged.getLsbD n = true ∨ v.refused.getLsbD n = true) → s.serveOver v c = true) ∧
  (∀ (inRing : BitVec 128) (v : Serve) (c : Bool) (s : State), (∀ n, n < 128 → v.roster.getLsbD n = true → inRing.getLsbD n = true →
    v.staged.getLsbD n = true ∨ v.refused.getLsbD n = true) → s.roundsOver inRing v c = true) ∧
  (∀ s : State, s.working = true →
    let due := s.distributes s.selected = true ∧ ∀ x, s.dist.beaconAt = some x → x + 0x140000000 ≤ s.cycles
    (due → completes .beaconSend s [.work, .dist] fun t => t.dist = { s.dist with beaconAt := some s.cycles } ∧
      ∃ x : List Byte, t.work.images = s.work.images ++ [x] ∧ byteAt x 0 = 0x23 ∧ byteAt x 1 = BitVec.ofNat 8 s.address ∧
        beAt x 2 4 = s.get F.KIN_IMAGE_SEQ_SEQUENCE) ∧
    (¬ due → exec .beaconSend s = .next s))

/-- In K8 with no PWRFAIL: ACTIVATE_IMAGE of the staged sequence arms with its ACT in register and commit block (a preloaded copy stays preloaded), with ACT 0 disarms (a change of ACT ends a drain), and of another sequence leaves copy and STATE and raises IMG_NOT_HELD. PRELOAD of an armed copy at ACT - 10 s loads every word of the MICROCODE section into the inactive page, leaves the active one and sets STATE 4 and both PRELOADED bits; a copy not STAGED any more preloads nothing, a bad section disarms and asks for every chunk. DRAINING takes the least window ACT + 60k that has not begun and lies 10 s or more after K8 entry, once it is within SWAPWAIT, and changes nothing else. PAGE_SWAP, when the next frame sent is one of that second's 8000, with every Ember idle or stopped makes the other microcode page active and a warm restart due, and the other TSI page from that frame on (at once where no port transmits); with an Ember still running it swaps neither, ends the drain and records it abandoned; past that second it ends the drain; before it, or without a drain and a preloaded copy, it changes nothing. Completes: ACTIVATE_IMAGE, PRELOAD, DRAINING, PAGE_SWAP. -/
def Obligations.ImageActivation : Prop :=
  (∀ s : State, s.working = true →
    (s.headReady 4 = none → exec .activateImage s = .next s) ∧
    (∀ r, s.headReady 4 = some r →
      let seq := r.item.arg0.toNat
      let act := r.item.arg2.toNat
      (s.holdsStaged seq = true → act ≠ 0 → s.plugReachable = true →
        completes .activateImage s [.regs, .ic, .hrt, .plug, .work, .dist] fun t =>
        (act ≠ s.act → t.hrt.draining = false ∧ t.dist.window = none) ∧
        t.act = act ∧ t.get F.PLG_DIST_SEQ_SEQUENCE = seq ∧ t.distState = (if s.distState = 4 then 4 else 3) ∧
        t.copyLe s.inactive 0 4 = 0x3C3C5A5A ∧ t.copyLe s.inactive 8 8 = act) ∧
      (s.holdsStaged seq = true → act = 0 → s.plugReachable = true →
        completes .activateImage s [.regs, .ic, .hrt, .plug, .work, .dist] fun t =>
        (act ≠ s.act → t.hrt.draining = false ∧ t.dist.window = none) ∧
        t.act = 0 ∧ t.distState = 2 ∧ t.get F.HRT_SWAP_PRELOADED = 0 ∧ t.get F.TSI_STATUS_PRELOADED = 0 ∧
        t.copyLe s.inactive 8 8 = 0) ∧
      (s.holdsStaged seq = false → completes .activateImage s [.regs, .col, .ic, .work] fun t => t.distState = s.distState ∧
        t.act = s.act ∧ t.col = (s.raise { src := 0x12, kind := kCOMPAT, cls := corrected, reason := 0x23,
                                           detail := BitVec.ofNat 24 (seq % 65536) }).col))) ∧
  (∀ s : State,
    let due := s.working = true ∧ s.distState = 3 ∧ s.act ≠ 0 ∧ s.tsi.copy = none ∧ s.act ≤ s.secNow + 10
    let c := s.inactive
    let held := s.holdsStaged (s.get F.PLG_DIST_SEQ_SEQUENCE) = true ∧ s.pset c s.band ≠ 0xFFFF
    let m := s.entry c (s.psetIndex c 0)
    let sound := s.sectionCrc c m = true ∧ ∀ w ∈ microwords (s.body c m), parityOk w = true
    (¬ due → exec .preload s = .next s) ∧
    (due → held → sound → s.psetIndex c 4 = 0xFFFF → s.tsi.swap = none → completes .preload s [.regs, .ic, .hrt, .tsi] fun t =>
      t.distState = 4 ∧ t.get F.HRT_SWAP_PRELOADED = 1 ∧ t.get F.TSI_STATUS_PRELOADED = 1 ∧
      t.get F.HRT_SWAP_ACTIVE_PAGE = s.get F.HRT_SWAP_ACTIVE_PAGE ∧ t.activePage = s.activePage ∧
      (∀ i, i < 8192 → t.csWord (1 - s.get F.HRT_SWAP_ACTIVE_PAGE) i = BitVec.ofNat 96 (leAt (s.body c m) (12 * i) 12) ∧
        t.csWord (s.get F.HRT_SWAP_ACTIVE_PAGE) i = s.csWord (s.get F.HRT_SWAP_ACTIVE_PAGE) i)) ∧
    (due → held → ¬ sound → completes .preload s [.regs, .col, .ic, .plug, .work, .dist] fun t => t.distState = 1 ∧ t.act = 0 ∧
      t.dist.chunks = 0 ∧ t.work.images.length = s.work.images.length + 1) ∧
    (due → ¬ held → completes .preload s [.regs, .col, .ic, .plug] fun t => t.act = 0 ∧ (t.distState = 2 ∨ t.distState = 0) ∧
      t.col = (s.raise { src := 0x12, kind := kCRC, cls := corrected, reason := 0x22, detail := 0xFFFF }).col)) ∧
  (∀ s : State,
    let isWindow (w : Nat) := (∃ k, w = s.act + 60 * k) ∧ s.dist.k8At + 10 * 0x20000000 ≤ w * 0x20000000 ∧ s.secNow + 1 ≤ w
    let near (w : Nat) := w * 0x20000000 ≤ s.now.toNat + max 1 (s.get F.HRT_SWAP_SWAPWAIT) * 1024
    let may := s.working = true ∧ s.distState = 4 ∧ s.dist.window = none
    (∀ w, may → isWindow w → (∀ v, isWindow v → w ≤ v) →
      (near w → completes .draining s [.hrt, .dist] fun t => t.hrt = { s.hrt with draining := true } ∧
        t.dist = { s.dist with window := some w }) ∧
      (¬ near w → exec .draining s = .next s)) ∧
    (¬ may → exec .draining s = .next s)) ∧
  (∀ s : State, s.working = false ∨ s.hrt.draining = false ∨ s.preloaded = false ∨ s.dist.window = none →
    exec .pageSwap s = .next s) ∧
  (∀ (w : Nat) (s : State), s.working = true → s.hrt.draining = true → s.preloaded = true → s.dist.window = some w →
    let gone (t : State) := t.hrt.draining = false ∧ t.dist.window = none
    (s.nextFrame < 8000 * w → exec .pageSwap s = .next s) ∧
    (8000 * (w + 1) ≤ s.nextFrame → completes .pageSwap s [.hrt, .dist] gone) ∧
    (8000 * w ≤ s.nextFrame → s.nextFrame < 8000 * (w + 1) → s.quiescent = true →
      completes .pageSwap s [.regs, .col, .ic, .hrt, .tsi, .ring, .dist] fun t => gone t ∧
        t.get F.HRT_SWAP_ACTIVE_PAGE = 1 - s.get F.HRT_SWAP_ACTIVE_PAGE ∧ t.get F.HRT_SWAP_PRELOADED = 0 ∧
        t.distState = 0 ∧ t.act = 0 ∧ t.get F.PLG_DIST_STATE_ROLE = 0 ∧ t.hrt.cs = s.hrt.cs ∧ t.dist.warmDue = true ∧
        ((∃ p, s.transmitting p = true) → t.tsi.swap = some (8000 * w) ∧ t.tsi.swapImage = true ∧
          t.activePage = s.activePage) ∧
        ((∀ p, s.transmitting p = false) → t.activePage = !s.activePage ∧ t.get F.TSI_STATUS_PRELOADED = 0)) ∧
    (8000 * w ≤ s.nextFrame → s.nextFrame < 8000 * (w + 1) → s.quiescent = false →
      completes .pageSwap s [.regs, .col, .hrt, .dist] fun t => gone t ∧
        t.get F.HRT_SWAP_ACTIVE_PAGE = s.get F.HRT_SWAP_ACTIVE_PAGE ∧ t.activePage = s.activePage ∧ t.distState = s.distState ∧
        t.get F.HRT_SWAP_LAST_ABANDONED = 1))

/-- WRITE_BACK of a waiting word whose bank is On and held by no march leaves the word with no bit in error and no longer waiting; every byte is kept. MARCH with the clocks running records PRESERVE and the banks and sets BUSY; while one runs it starts none; else it takes the first bank named that is On, holds it until its time is over and, without PRESERVE, leaves it zero, skips those before it and keeps the rest to march; with none On it is over at once. MARCH_DONE of a march that is over clears BUSY and latches source 125, and changes no byte; a failing row of a marched bank, new to the march, is counted, is the LAST, and takes the first repair entry that is free, raising ECC_CORR, or with none free ECC_UNCORR; before the march is over it changes nothing. With the clocks running, the control store loaded and no checker armed: SCRUB checks the word the scrubber stands at, moves on by one modulo 8192 and notes the word with its time if its parity fails and it is not noted. CS_SCRUBBED with a noted word and the plug reachable writes the selected copy's word there; if its parity is right no Ember waits for it, it is noted no more and a CORRECTED PARITY fault names page and word; if not, it is marked failed and the fault is FATAL. CS_UNCORR 100 µs after a word was noted marks it failed and raises that FATAL fault. With no such word, or before its time, both change nothing. Completes: WRITE_BACK, MARCH, MARCH_DONE, SCRUB, CS_SCRUBBED, CS_UNCORR. -/
def Obligations.WordsMended : Prop :=
  ((∀ (a : Word) (s : State), s.clocked = true → a.toNat ∈ s.spm.writeBacks → s.bankOn (bankOf a.toNat) = true →
     s.marchHolds (bankOf a.toNat) = false →
     completes (.writeBack a) s [.spm] fun t => t.spm.mem = s.spm.mem ∧ tabGet none t.spm.ecc a.toNat = none ∧
       (∀ x, x ≠ a.toNat → tabGet none t.spm.ecc x = tabGet none s.spm.ecc x) ∧
       (∀ x, x ∈ t.spm.writeBacks ↔ x ∈ s.spm.writeBacks ∧ x ≠ a.toNat)) ∧
   (∀ (p : Bool) (banks : BitVec 17) (s : State), s.clocked = true →
     let taken (t : State) := t.get F.SPM_MARCH_CTL_PRESERVE = p.toNat ∧ t.get F.SPM_MARCH_CTL_BANKS = banks.toNat ∧
       t.get F.SPM_MARCH_STATUS_BUSY = 1
     (s.get F.SPM_MARCH_STATUS_BUSY = 1 → completes (.march p banks) s [.regs] fun t => taken t ∧
       t.get F.SPM_MARCH_STATUS_FOUND = s.get F.SPM_MARCH_STATUS_FOUND) ∧
     (∀ b : Fin 17, s.get F.SPM_MARCH_STATUS_BUSY = 0 → banks.getLsbD b = true → s.bankOn b = true →
       (∀ d : Fin 17, d < b → banks.getLsbD d = true → s.bankOn d = false) → (p = true → s.uncorrWords b = []) →
       completes (.march p banks) s [.regs, .spm] fun t => taken t ∧ t.get F.SPM_MARCH_STATUS_FOUND = 0 ∧
         t.spm.marchBank = some b.val ∧ t.spm.marchEnd = s.cycles + marchCycles b p ∧ t.marchHolds b = true ∧
         (∀ d : Fin 17, t.spm.marching.getLsbD d = (banks.getLsbD d && decide (b < d))) ∧
         (∀ d : Fin 17, (t.get F.SPM_MARCH_SKIP_SKIPPED).testBit d = (banks.getLsbD d && decide (d < b))) ∧
         ∀ a, tabGet 0 t.spm.mem a = if p = false ∧ bankLo b ≤ a ∧ a < bankHi b then 0 else tabGet 0 s.spm.mem a) ∧
     (s.get F.SPM_MARCH_STATUS_BUSY = 0 → (∀ d : Fin 17, banks.getLsbD d = true → s.bankOn d = false) →
       completes (.march p banks) s [.regs, .spm] fun t => taken t ∧ t.spm.marchBank = none ∧ t.spm.marching = 0 ∧
         t.get F.SPM_MARCH_SKIP_SKIPPED = banks.toNat ∧ t.spm.mem = s.spm.mem ∧ t.marchOver = true)) ∧
   (∀ (fails : List (Nat × Nat)) (s : State), s.clocked = true →
     (s.marchOver = false → exec (.marchDone fails) s = .next s) ∧
     (s.marchOver = true → completes (.marchDone fails) s [.regs, .col, .ic, .spm] fun t =>
       t.get F.SPM_MARCH_STATUS_BUSY = 0 ∧ t.ic.lat = s.ic.lat ||| BitVec.twoPow 128 125 ∧ t.spm.marchBank = none ∧
       t.spm.mem = s.spm.mem ∧ ∀ b : Fin 17, t.marchHolds b = false)) ∧
   (∀ (b : Fin 17) (row : Fin 64) (s : State), s.clocked = true → s.marchOver = true →
     let f (k : BitVec 5) (c : BitVec 2) (r : BitVec 8) : FaultSpec :=
       { src := 0x0B, kind := k, cls := c, reason := r, detail := detail3 b row, addr := BitVec.ofNat 32 (bankLo b + 0x200 * row),
         master := 9, access := 3 }
     (s.spm.marched.getLsbD b = false ∨ (b.val, row.val) ∈ s.spm.marchRows →
       completes (.marchDone [(b.val, row.val)]) s [.regs, .ic, .spm] fun t =>
         t.get F.SPM_MARCH_STATUS_FOUND = s.get F.SPM_MARCH_STATUS_FOUND) ∧
     (s.spm.marched.getLsbD b = true → (b.val, row.val) ∉ s.spm.marchRows →
       completes (.marchDone [(b.val, row.val)]) s [.regs, .col, .ic, .spm] fun t =>
         t.get F.SPM_MARCH_LAST_BANK = b.val ∧ t.get F.SPM_MARCH_LAST_ROW = row.val ∧
         t.get F.SPM_MARCH_STATUS_FOUND = min (s.get F.SPM_MARCH_STATUS_FOUND + 1) (2 ^ F.SPM_MARCH_STATUS_FOUND.width - 1) ∧
         (s.get (F.SPM_REPAIR_FIRST b) = 0xFFFF → t.get (F.SPM_REPAIR_FIRST b) = row.val ∧
           t.col = (s.raise (f kECC_CORR corrected 0x04)).col) ∧
         (s.get (F.SPM_REPAIR_FIRST b) ≠ 0xFFFF → s.get (F.SPM_REPAIR_SECOND b) = 0xFFFF →
           t.get (F.SPM_REPAIR_FIRST b) = s.get (F.SPM_REPAIR_FIRST b) ∧ t.get (F.SPM_REPAIR_SECOND b) = row.val) ∧
         (s.get (F.SPM_REPAIR_FIRST b) ≠ 0xFFFF → s.get (F.SPM_REPAIR_SECOND b) ≠ 0xFFFF →
           t.get (F.SPM_REPAIR_FIRST b) = s.get (F.SPM_REPAIR_FIRST b) ∧
           t.col = (s.raise (f kECC_UNCORR contained 0x05)).col)))) ∧
  (∀ s : State, s.clocked = true → s.hrt.loaded = true → s.bit F.FLT_INJ_ARM = false →
     let page := s.get F.HRT_SWAP_ACTIVE_PAGE
     let at_ := s.hrt.scrubAt
     let known := parityOk (s.csWord page at_) || s.hrt.scrubBad.any fun b => b.word == at_
     let fault (i : Nat) (cls : BitVec 2) (reason : BitVec 8) (injected : Bool) : FaultSpec :=
       { src := 0x05, kind := kPARITY, cls := cls, reason := reason, detail := BitVec.ofNat 24 (page + 256 * i), injected := injected }
     let marked (i : Nat) := s.hrt.scrubBad.map fun b => if b.word = i then { b with failed := true } else b
     (completes .scrub s [.hrt] fun t => t.hrt = { s.hrt with
       scrubAt := (at_ + 1) % 8192, scrubBad := if known = true then s.hrt.scrubBad else s.hrt.scrubBad ++ [⟨at_, s.cycles, false⟩] }) ∧
     ((∀ b ∈ s.hrt.scrubBad, b.failed = true) → exec .csScrubbed s = .next s ∧ exec .csUncorr s = .next s) ∧
     (∀ b, s.plugReachable = true → s.hrt.scrubBad.find? (fun b => !b.failed) = some b →
       let w := s.imageWord b.word
       let there (t : State) := t.csWord page b.word = w ∧
         ∀ k, k ≠ csKey page b.word → tabGet 0 t.hrt.cs k = tabGet 0 s.hrt.cs k
       (parityOk w = true → completes .csScrubbed s [.regs, .col, .hrt, .emb] fun t => there t ∧
         t.hrt.scrubBad = (s.hrt.scrubBad.filter fun x => x.word != b.word) ∧
         (∀ e : Fin 4, t.emb[e] = if s.emb[e].pc.toNat = b.word then { s.emb[e] with scrubWait := false } else s.emb[e]) ∧
         t.col = (s.raise (fault b.word corrected 0x01 (parityOk (s.csWord page b.word)))).col) ∧
       (parityOk w = false → completes .csScrubbed s [.regs, .col, .hrt] fun t => there t ∧
         t.hrt.scrubBad = marked b.word ∧ t.col = (s.raise (fault b.word fatal 0x02 false)).col)) ∧
     ((∀ b ∈ s.hrt.scrubBad, b.failed = true ∨ s.cycles < b.foundAt + usCycles 100) → exec .csUncorr s = .next s) ∧
     (∀ b, s.hrt.scrubBad.find? (fun b => !b.failed && decide (b.foundAt + usCycles 100 ≤ s.cycles)) = some b →
       completes .csUncorr s [.regs, .col, .hrt] fun t => t.hrt = { s.hrt with scrubBad := marked b.word } ∧
         t.col = (s.raise (fault b.word fatal 0x02 (parityOk (s.csWord page b.word)))).col)) ∧
  (∀ s : State, s.clocked = false ∨ s.hrt.loaded = false →
     exec .scrub s = .next s ∧ exec .csScrubbed s = .next s ∧ exec .csUncorr s = .next s)

/-- Outside Caldera and hold, SRC_EN 1: an edge 2^29 cycles ± 250 ppm after the last accepted one (or the first), none waiting for its label, is shown in PPS_IN less PPS_COMP and waits; another edge is counted in SRC_REJECTS and the second in a row ends SRC_OK. A label within 900 ms, one more than the last (or the same with LEAP60), counts, and the eighth sets SRC_OK; a late or wrong one ends SRC_OK; one with no edge waiting is rejected. SRC_EN 2: a submission with ACC above 17 or an edge over 2 s away is rejected and ends the run of good ones; one whose offset agrees with the last within twice the larger bound counts, and the third sets SRC_OK (on a node that is not the master it is shown in OFFSET); another counts against it and the second in a row ends SRC_OK. The path that is not enabled is rejected, SRC_EN 0 ignores labels and edges. SOURCE_INVALID after 1.5 s without an edge, 900 ms without a label, or 10 s without a submission ends SRC_OK; otherwise it changes nothing. Outside Caldera and hold, with a reference: STEP with an offset due changes system time by its negative rounded to a whole unit (nearest), sets STEPPED and shows the step in TIME.STEP within 1 µs; the cycle count stays. LOCKED in LOCKING after 2 s within ±1 µs enters LOCKED. HOLDOVER_EXPIRED after HOLD_MAX hours (0 acts as 1) in HOLDOVER enters FREE with a TIMEOUT fault. Otherwise the three change nothing. With the clocks running REF_FAIL, CORE_UNLOCK and AUX_UNLOCK raise FATAL CLOCK_FAIL faults with codes 1 to 3 and note the clock failed; RTC_FAIL raises the CORRECTED one with code 4 and notes that the RTC is not written again; with the clocks stopped they change nothing. RTC_LOST sets the RTC's flag and nothing else. Completes: PPS_IN_EDGE, SRC_LABEL, SOFT_SUBMISSION, SOURCE_INVALID, STEP, LOCKED, HOLDOVER_EXPIRED, REF_FAIL, CORE_UNLOCK, AUX_UNLOCK, RTC_FAIL, RTC_LOST. -/
def Obligations.TimeSourcesAndStates : Prop :=
  ((∀ (x : SysTime) (s : State),
     let st := x - (BitVec.ofNat 32 (s.get F.TIME_PPS_COMP_COMP)).signExtend 64
     let onTime := ∀ c, s.tim.edgeAt = some c → (((s.cycles - c : Nat) : Int) - 0x20000000).natAbs * 1000000 ≤ 250 * 0x20000000
     let rejected (t : State) := t.get F.TIME_CNT_SRC_REJECTS =
       min (s.get F.TIME_CNT_SRC_REJECTS + 1) (2 ^ F.TIME_CNT_SRC_REJECTS.width - 1)
     (s.live = false ∨ s.srcEn ≠ 1 → exec (.ppsInEdge x) s = .next s) ∧
     (s.live = true → s.srcEn = 1 → onTime → s.tim.stamp = none → completes (.ppsInEdge x) s [.regs, .tim] fun t =>
       t.tim = { s.tim with edgeSeen := s.cycles, edgeAt := some s.cycles, stamp := some st, rejects := 0 } ∧
       t.get F.TIME_PPS_IN_LO_EDGE + 2 ^ 32 * t.get F.TIME_PPS_IN_HI_EDGE = st.toNat) ∧
     (s.live = true → s.srcEn = 1 → ¬ onTime → s.tim.rejects = 0 → completes (.ppsInEdge x) s [.regs, .col, .tim] fun t =>
       t.tim = { s.tim with edgeSeen := s.cycles, rejects := 1, good := 0 } ∧ rejected t ∧
       t.get F.TIME_STATUS_SRC_OK = s.get F.TIME_STATUS_SRC_OK) ∧
     (s.live = true → s.srcEn = 1 → ¬ onTime → 1 ≤ s.tim.rejects → completes (.ppsInEdge x) s [.regs, .col, .ic, .tim, .ring]
       fun t => t.get F.TIME_STATUS_SRC_OK = 0 ∧ t.tim.good = 0 ∧ rejected t)) ∧
   (∀ (v : Word) (s : State), s.clocked = true →
     let c := s.reg 0x400B0028
     let leap := F.TIME_SRC_CMD_LEAP60.of v
     let next := ∀ l, s.tim.label = some l → c = l + 1 ∨ (leap ≠ 0 ∧ c = l)
     let early := ∀ e, s.tim.edgeAt = some e → s.cycles ≤ e + 483183820
     let rejected (t : State) := t.get F.TIME_CNT_SRC_REJECTS =
       min (s.get F.TIME_CNT_SRC_REJECTS + 1) (2 ^ F.TIME_CNT_SRC_REJECTS.width - 1)
     (s.srcEn = 0 → completes (.srcLabel v) s [.regs] fun t => regsBut [0x400B002C] s t) ∧
     (s.srcEn = 2 ∨ s.tim.stamp = none ∧ s.srcEn = 1 → completes (.srcLabel v) s [.regs, .col] rejected) ∧
     (∀ x, s.srcEn = 1 → s.tim.stamp = some x → next → early →
       completes (.srcLabel v) s [.regs, .col, .ic, .tim, .ring, .free] fun t => t.tim.stamp = none ∧ t.tim.label = some c ∧
         t.tim.good = s.tim.good + 1 ∧ t.tim.path = false ∧
         (8 ≤ s.tim.good + 1 → t.get F.TIME_STATUS_SRC_OK = 1) ∧
         (s.tim.good + 1 < 8 → t.get F.TIME_STATUS_SRC_OK = s.get F.TIME_STATUS_SRC_OK)) ∧
     (∀ x, s.srcEn = 1 → s.tim.stamp = some x → ¬ next ∨ ¬ early →
       completes (.srcLabel v) s [.regs, .col, .ic, .tim, .ring] fun t => t.tim.stamp = none ∧ t.tim.label = some c ∧
         t.tim.good = 0 ∧ t.get F.TIME_STATUS_SRC_OK = 0)) ∧
   (∀ (v : Word) (s : State), s.clocked = true →
     let n := F.TIME_SRC_CMD_ACC.of v
     let e : SysTime := s.reg 0x400B0024 ++ s.reg 0x400B0020
     let x : Int := (e.toNat : Int) -
       (((s.reg 0x400B0028).toNat : Int) + s.utcOffset + F.TIME_SRC_CMD_LEAP60.of v) * 0x20000000
     let far := 17 < n ∨ 2 * 0x20000000 < ((e.toNat : Int) - s.now.toNat).natAbs
     let agrees := ∀ y m, s.tim.soft = some (y, m) → (x - y).natAbs * 1000000 ≤ 2 * 2 ^ max n m * 0x20000000
     let rejected (t : State) := t.get F.TIME_CNT_SRC_REJECTS =
       min (s.get F.TIME_CNT_SRC_REJECTS + 1) (2 ^ F.TIME_CNT_SRC_REJECTS.width - 1)
     (s.srcEn = 0 → completes (.softSubmission v) s [.regs] fun t => regsBut [0x400B002C] s t) ∧
     (s.srcEn = 1 → completes (.softSubmission v) s [.regs, .col] rejected) ∧
     (s.srcEn = 2 → far → completes (.softSubmission v) s [.regs, .col, .tim] fun t =>
       t.tim = { s.tim with softAt := s.cycles, good := 0 } ∧ rejected t) ∧
     (s.srcEn = 2 → ¬ far → agrees → completes (.softSubmission v) s [.regs, .col, .ic, .tim, .ring, .free] fun t =>
       t.tim.soft = some (x, n) ∧ t.tim.good = s.tim.good + 1 ∧ t.tim.path = true ∧ t.tim.acc = n ∧ t.tim.badSoft = 0 ∧
       (s.isMaster = false → t.get F.TIME_OFFSET_OFFSET = satInt 32 x) ∧
       (3 ≤ s.tim.good + 1 → t.get F.TIME_STATUS_SRC_OK = 1) ∧
       (s.tim.good + 1 < 3 → t.get F.TIME_STATUS_SRC_OK = s.get F.TIME_STATUS_SRC_OK)) ∧
     (s.srcEn = 2 → ¬ far → ¬ agrees → s.tim.badSoft = 0 → completes (.softSubmission v) s [.regs, .col, .tim] fun t =>
       t.tim = { s.tim with softAt := s.cycles, good := 0, badSoft := 1 } ∧
       t.get F.TIME_STATUS_SRC_OK = s.get F.TIME_STATUS_SRC_OK) ∧
     (s.srcEn = 2 → ¬ far → ¬ agrees → 1 ≤ s.tim.badSoft →
       completes (.softSubmission v) s [.regs, .col, .ic, .tim, .ring] fun t => t.get F.TIME_STATUS_SRC_OK = 0 ∧ t.tim.good = 0)) ∧
   (∀ s : State,
     let stale := s.live = true ∧ (s.srcEn = 1 ∧ (s.tim.edgeSeen + 805306368 ≤ s.cycles ∨
         s.tim.stamp ≠ none ∧ ∃ e, s.tim.edgeAt = some e ∧ e + 483183820 < s.cycles) ∨
       s.srcEn = 2 ∧ s.tim.softAt + 5368709120 ≤ s.cycles)
     (¬ stale → exec .sourceInvalid s = .next s) ∧
     (stale → completes .sourceInvalid s [.regs, .col, .ic, .tim, .ring] fun t => t.get F.TIME_STATUS_SRC_OK = 0 ∧
       t.tim.good = 0 ∧ t.tim.stamp = none ∧ t.tim.label = none ∧ t.tim.soft = none))) ∧
  ((∀ s : State,
     let may := s.live = true ∧ s.tim.hasRef = true
     (¬ may ∨ s.tim.stepDue = none → exec .step s = .next s) ∧
     (∀ x, may → s.tim.stepDue = some x →
       completes .step s [.regs, .now, .col, .ic, .rep, .chan, .tim, .flue, .ring, .free] fun t => ∃ d us : Int,
         2 * (d * 20000000000 + x).natAbs ≤ 20000000000 ∧ t.now = s.now + BitVec.ofInt 64 d ∧ t.get F.TIME_EVENT_STEPPED = 1 ∧
         (us * 0x20000000 - d * 1000000).natAbs < 0x20000000 ∧ t.get F.TIME_STEP_STEP = satInt 32 us ∧
         t.tim.stepAt = some s.cycles ∧ t.tim.stepDue = none ∧ t.timeState = s.timeState) ∧
     (∀ c, may → s.timeState = 2 → s.tim.inSince = some c → c + 0x40000000 ≤ s.cycles →
       completes .locked s [.regs, .ic, .tim, .ring] fun t => t.timeState = 3 ∧ t.get F.TIME_EVENT_STATE_CHANGED = 1 ∧
         t.tim.lockedSeen = true) ∧
     (¬ may ∨ s.timeState ≠ 2 ∨ s.tim.inSince = none ∨ (∃ c, s.tim.inSince = some c ∧ s.cycles < c + 0x40000000) →
       exec .locked s = .next s) ∧
     (let due := s.tim.holdAt + max 1 (s.get F.TIME_CTL_HOLD_MAX) * 3600 * 0x20000000 ≤ s.cycles
     (s.live = true → s.timeState = 4 → due → completes .holdoverExpired s [.regs, .col, .ic, .tim, .ring] fun t =>
       t.timeState = 5 ∧ t.get F.TIME_EVENT_STATE_CHANGED = 1 ∧
       t.col = (s.raise { src := 0x15, kind := kTIMEOUT, cls := corrected, reason := 0x03, detail := 0 }).col) ∧
     (s.live = false ∨ s.timeState ≠ 4 ∨ ¬ due → exec .holdoverExpired s = .next s))) ∧
   (∀ s : State,
     let clock (cls : BitVec 2) (reason : BitVec 8) : FaultSpec := { src := 0x1B, kind := kCLOCK_FAIL, cls := cls, reason := reason }
     let goes (c : Instr) (n : Node) (cls : BitVec 2) (reason : BitVec 8) := completes c s [.regs, .node, .col] fun t => t.node = n ∧
       t.col = (({ s with node := n } : State).raise (clock cls reason)).col
     (s.clocked = true → goes .refFail { s.node with coreFailed := true, auxFailed := true } fatal 0x01 ∧
       goes .coreUnlock { s.node with coreFailed := true } fatal 0x02 ∧
       goes .auxUnlock { s.node with auxFailed := true } fatal 0x03 ∧
       goes .rtcFail { s.node with rtcFailed := true } corrected 0x04) ∧
     (s.clocked = false → exec .refFail s = .next s ∧ exec .coreUnlock s = .next s ∧ exec .auxUnlock s = .next s ∧
       exec .rtcFail s = .next s) ∧
     exec .rtcLost s = .next { s with tim := { s.tim with rtcLost := true } }))

/-- With the clocks running, when system time has passed the second last begun: SECOND notes it and raises GEN by one; with valid time it sets TIME.EVENT.SECOND, writes system time into a working RTC and clears its RTC_LOST, and in K8 with PPS_OUT_EN and no step in the last 100 ms PPS_OUT rises for the width set; without valid time RTC and PPS_OUT stay. On a node that follows its time port a pending leap of that second changes the UTC offset by +1 or -1 and is gone. Before that it changes nothing. PPS_OUT_FALL lowers PPS_OUT when its width has passed, and changes nothing otherwise. ANNOUNCE on the master sets the pending leap's direction and second as written, DIR 0 withdraws it; elsewhere, or with DIR 3, it only takes DIR. Completes: SECOND, PPS_OUT_FALL, ANNOUNCE. -/
def Obligations.SecondsAndLeaps : Prop :=
  (∀ s : State,
    let sec := s.now.toNat / 0x20000000
    let rises := s.inK8 = true ∧ s.bit F.TIME_CTL_PPS_OUT_EN = true ∧ ∀ c, s.tim.stepAt = some c → c + 53687091 < s.cycles
    let parts := [.regs, .ic, .rep, .tim, .flue, .ring, .work]
    (s.clocked = false ∨ sec ≤ s.tim.second → exec .second s = .next s) ∧
    (s.clocked = true → s.tim.second < sec → s.timeValid = true → completes .second s parts fun t =>
      t.tim.second = sec ∧ t.tim.gen = s.tim.gen + 1 ∧ t.get F.TIME_EVENT_SECOND = 1 ∧
      (s.node.rtcFailed = false → t.tim.rtc = s.now ∧ t.tim.rtcLost = false) ∧
      (s.node.rtcFailed = true → t.tim.rtc = s.tim.rtc ∧ t.tim.rtcLost = s.tim.rtcLost) ∧
      (rises → t.tim.ppsOut = true ∧ t.tim.ppsEnd = s.cycles + ppsWidth (s.get F.TIME_CTL_PPS_OUT_WIDTH)) ∧
      (¬ rises → t.tim.ppsOut = s.tim.ppsOut ∧ t.tim.ppsEnd = s.tim.ppsEnd)) ∧
    (s.clocked = true → s.tim.second < sec → s.timeValid = false → completes .second s parts fun t =>
      t.tim.second = sec ∧ t.tim.gen = s.tim.gen + 1 ∧ t.get F.TIME_EVENT_SECOND = s.get F.TIME_EVENT_SECOND ∧
      t.tim.rtc = s.tim.rtc ∧ t.tim.rtcLost = s.tim.rtcLost ∧ t.tim.ppsOut = s.tim.ppsOut) ∧
    (s.clocked = true → s.tim.second < sec → s.isMaster = false → s.tim.port ≠ none →
      s.get F.TIME_LEAP_LO_S_L + 2 ^ 32 * s.get F.TIME_LEAP_HI_S_L = sec →
      (s.get F.TIME_UTC_LEAP_DIR = 1 → completes .second s parts fun t =>
        t.get F.TIME_UTC_OFFSET = (s.get F.TIME_UTC_OFFSET + 1) % 65536 ∧ t.get F.TIME_UTC_LEAP_DIR = 0) ∧
      (s.get F.TIME_UTC_LEAP_DIR = 2 → completes .second s parts fun t =>
        t.get F.TIME_UTC_OFFSET = (s.get F.TIME_UTC_OFFSET + 65535) % 65536 ∧ t.get F.TIME_UTC_LEAP_DIR = 0))) ∧
  (∀ s : State,
    let ended := s.live = true ∧ s.tim.ppsOut = true ∧ s.tim.ppsEnd ≤ s.cycles
    (ended → exec .ppsOutFall s = .next { s with tim := { s.tim with ppsOut := false } }) ∧
    (¬ ended → exec .ppsOutFall s = .next s)) ∧
  (∀ (v : Word) (s : State), s.clocked = true →
    let dir := F.TIME_LEAP_CMD_DIR.of v
    let leap (t : State) := t.get F.TIME_LEAP_LO_S_L + 2 ^ 32 * t.get F.TIME_LEAP_HI_S_L
    (s.isMaster = true → dir = 1 ∨ dir = 2 → completes (.announce v) s [.regs, .ic] fun t => t.get F.TIME_UTC_LEAP_DIR = dir ∧
      leap t = s.tim.leapHi.toNat * 2 ^ 32 + s.tim.leapLo.toNat ∧ t.get F.TIME_UTC_OFFSET = s.get F.TIME_UTC_OFFSET) ∧
    (s.isMaster = true → dir = 0 → completes (.announce v) s [.regs, .ic] fun t => t.get F.TIME_UTC_LEAP_DIR = 0 ∧ leap t = 0) ∧
    (s.isMaster = false ∨ dir = 3 → completes (.announce v) s [.regs] fun t => t.get F.TIME_LEAP_CMD_DIR = dir ∧
      regsBut [0x400B004C] s t))

/-- Outside Caldera and hold, on an enabled port: TRAINING_STEP takes an enabled dark drop port to T1; T1 to T2 for the leader when both ends are RX_OK (32 counts, the next attempt, full rate only if both offer it) and for the follower when it hears T2; T2 to T3 at full rate or T4 at half rate when the count has run out; T3 to T4 when both ends are ADAPTED; T4 to UP after 16 fields of each end, a ring port with its switch in then being inserted; and T4 back to T1, counted, when either flag is lost or a signal failure holds. On a port not wrapped it changes nothing before that. FALLBACK after 1000 ms in T3 goes to T2 at half rate, counted, with a fault. RETRAIN of an UP port on a write, or after 1 ms of failure, goes to T1, counted; otherwise both change nothing. Completes: TRAINING_STEP, FALLBACK, RETRAIN. -/
def Obligations.RingTraining : Prop :=
  (∀ (p : Fin 4) (s : State), s.live = true → s.portEnabled p = true →
    let o := s.ring.ports[p]
    let st := s.lineState p
    let goes (n : Nat) (post : State → Prop) := completes (.trainingStep p) s [.regs, .sup, .ic, .ring, .free] fun t =>
      t.lineState p = n ∧ t.get (F.LINE_EVENT_STATE p) = 1 ∧ post t
    let counted (t : State) := t.get (F.LINE_CNT_B_TRAIN_RUNS p) =
      min (s.get (F.LINE_CNT_B_TRAIN_RUNS p) + 1) (2 ^ (F.LINE_CNT_B_TRAIN_RUNS p).width - 1)
    let bothOk := s.ownRxOk p = true ∧ o.rxOk = true
    let flags := s.holds p = true ∧ s.rxHolds p = true ∧ s.sf p = false
    (st = 0 → 2 ≤ p.val → goes 2 counted) ∧
    (st = 2 → o.clash = false → s.leader p = true → bothOk → goes 3 fun t => t.ring.ports[p].count = 32 ∧
      t.ring.ports[p].seq = o.seq + 1 ∧ t.ring.ports[p].selFull = (s.offerFull p && o.rxOffer)) ∧
    (st = 2 → o.clash = false → s.leader p = false → o.rxStep = 2 → goes 3 fun _ => True) ∧
    (st = 3 → (s.leader p = true ∧ o.count = 0) ∨ (s.leader p = false ∧ o.rxCount = 1) →
      goes (if o.selFull = true then 4 else 5) fun _ => True) ∧
    (st = 4 → s.ownAdapted p = true → o.rxAdapted = true → goes 5 fun _ => True) ∧
    (st = 5 → ¬ flags → goes 2 counted) ∧
    (st = 5 → flags → 16 ≤ o.setRun → 16 ≤ o.sentRun → goes 6 fun t => t.ring.ports[p].everUp = true ∧
      t.get (F.LINE_EVENT_TRAIN p) = 1 ∧ (p.val < 2 → s.sup.switchIn = true → t.sup.inserted = true)) ∧
    (s.wrapped p = false →
      (st = 0 ∧ p.val < 2) ∨ st = 1 ∨ (st = 2 ∧ o.clash = true) ∨ (st = 2 ∧ s.leader p = true ∧ ¬ bothOk) ∨
      (st = 2 ∧ s.leader p = false ∧ o.rxStep ≠ 2) ∨ (st = 3 ∧ s.leader p = true ∧ o.count ≠ 0) ∨
      (st = 3 ∧ s.leader p = false ∧ o.rxCount ≠ 1) ∨ (st = 4 ∧ (s.ownAdapted p = false ∨ o.rxAdapted = false)) ∨
      (st = 5 ∧ flags ∧ (o.setRun < 16 ∨ o.sentRun < 16)) ∨ st = 6 → exec (.trainingStep p) s = .next s)) ∧
  (∀ (p : Fin 4) (s : State),
    let o := s.ring.ports[p]
    let late := s.live = true ∧ s.lineState p = 4 ∧ o.stepAt + 536870912 ≤ s.cycles
    (late → completes (.fallback p) s [.regs, .col, .ic, .ring] fun t => t.lineState p = 3 ∧ t.ring.ports[p].selFull = false ∧
      t.get (F.LINE_CNT_B_FALLBACKS p) = min (s.get (F.LINE_CNT_B_FALLBACKS p) + 1) (2 ^ (F.LINE_CNT_B_FALLBACKS p).width - 1) ∧
      (s.leader p = true → t.ring.ports[p].count = 32 ∧ t.ring.ports[p].seq = o.seq + 1 ∧ t.ring.ports[p].fallback = true) ∧
      t.col = (s.raise { src := BitVec.ofNat 8 (0x0C + p.val), kind := kDEFECT, cls := corrected, reason := 0x06,
                         detail := BitVec.ofNat 24 o.seq.toNat }).col) ∧
    (¬ late → exec (.fallback p) s = .next s)) ∧
  (∀ (p : Fin 4) (write : Bool) (s : State),
    let may := s.live = true ∧ s.lineState p = 6 ∧ (write = true ∨ ∃ c, s.ring.ports[p].failAt = some c ∧ c + 536870 ≤ s.cycles)
    (may → completes (.retrain p write) s [.regs, .ic, .ring, .free] fun t => t.lineState p = 2 ∧
      t.get (F.LINE_STATUS_NBR_VALID p) = 0 ∧ t.get (F.LINE_CNT_B_TRAIN_RUNS p) =
        min (s.get (F.LINE_CNT_B_TRAIN_RUNS p) + 1) (2 ^ (F.LINE_CNT_B_TRAIN_RUNS p).width - 1)) ∧
    (¬ may → exec (.retrain p write) s = .next s))

/-- Outside Caldera and hold, on a port from T1 on: a defect whose condition holds and that is not shown is shown with its event and, OOF apart, its fault; LOS hides LOL, OOF and LOF, LOL hides OOF and LOF; one already shown or whose condition fails changes nothing. A ring port's span is not measured from then on (SPAN 0xFFFF_FFFF). LOS holds below -22.0 dBm and clears above -19.0 dBm. A shown defect whose clearing condition holds is cleared with its event; otherwise nothing changes. At a port in bypass a declared defect takes the tap's rate to none. SLIP below 500 or above 3500 ns on an inserted node that is not master counts, re-centres at 1950 and raises LOSS_OF_SYNC. MASTER_SLIP on the inserted frequency master counts and moves the alignment. TX_FAIL of a transmitting port whose power is beyond ±3.0 dBm shows it and raises the CONTAINED fault. Otherwise the three change nothing. Completes: DEFECT_DECLARED, DEFECT_CLEARED, SLIP, MASTER_SLIP, TX_FAIL. -/
def Obligations.RingDefects : Prop :=
  (∀ (p : Fin 4) (d : Defect) (power : BitVec 16) (s : State), s.live = true →
    let due := 2 ≤ s.lineState p ∧ s.bit (defectField p d) = false ∧ s.declares p d power = true
    let fault : Option (BitVec 5 × BitVec 8 × Nat) := match d with
      | .los => some (kDEFECT, 0x01, power.toNat)
      | .lol => some (kDEFECT, 0x02, 0)
      | .oof => none
      | .lof => some (kLOSS_OF_SYNC, 0x03, s.get (F.LINE_STATUS_RATE p))
      | .deg => some (kDEFECT, 0x04, min 0xFFFFFF (s.get (F.LINE_FEC_CORR_CORR p) / 1024))
      | .rdiSf => some (kDEFECT, 0x05, 1)
      | .rdiSd => some (kDEFECT, 0x05, 2)
    (s.lineState p ≠ 1 → ¬ due → exec (.defectDeclared p d power) s = .next s) ∧
    (s.lineState p = 1 → completes (.defectDeclared p d power) s [.regs] fun t => t.get (F.LINE_TAP_TAP_RATE p) = 0) ∧
    (due → completes (.defectDeclared p d power) s [.regs, .col, .ic, .tim, .ring] fun t =>
      t.get (defectField p d) = 1 ∧ t.get (F.LINE_EVENT_DEFECT p) = 1 ∧
      (d = .los ∨ d = .lol → t.get (F.LINE_STATUS_OOF p) = 0 ∧ t.get (F.LINE_STATUS_LOF p) = 0) ∧
      (d = .los → t.get (F.LINE_STATUS_LOL p) = 0 ∧ t.get (F.LINE_POWER_RX p) = power.toNat) ∧
      (p.val < 2 → t.get (if p = 0 then F.TIME_SPAN_E_DELAY else F.TIME_SPAN_W_DELAY) = 0xFFFFFFFF) ∧
      (fault = none → t.col = s.col) ∧
      (∀ k r n, fault = some (k, r, n) → t.col = (s.raise
        { src := BitVec.ofNat 8 (0x0C + p.val), kind := k, cls := corrected, reason := r, detail := BitVec.ofNat 24 n }).col))) ∧
  (∀ (p : Fin 4) (d : Defect) (power : BitVec 16) (s : State),
    let due := s.live = true ∧ 2 ≤ s.lineState p ∧ s.bit (defectField p d) = true ∧ s.clears p d power = true
    (due → completes (.defectCleared p ⟨d, power⟩) s [.regs, .ic, .ring] fun t => t.get (defectField p d) = 0 ∧
      t.get (F.LINE_EVENT_DEFECT p) = 1 ∧ (d = .los → t.get (F.LINE_POWER_RX p) = power.toNat)) ∧
    (¬ due → exec (.defectCleared p ⟨d, power⟩) s = .next s) ∧
    (s.clears p .los power = true ↔ -190 < power.toInt) ∧ (s.declares p .los power = true ↔ power.toInt < -220)) ∧
  (∀ (p : Fin 2) (ns : BitVec 16) (s : State),
    let q : Fin 4 := p.castLE (by decide)
    let may := s.live = true ∧ s.sup.inserted = true ∧ s.isMaster = false ∧ (ns.toNat < 500 ∨ 3500 < ns.toNat)
    (may → completes (.slip p ns) s [.regs, .col, .ic, .ring] fun t => t.get (F.LINE_ELASTIC_FILL q) = 1950 ∧
      t.get (F.LINE_EVENT_SLIP q) = 1 ∧
      t.get (F.LINE_CNT_A_SLIPS q) = min (s.get (F.LINE_CNT_A_SLIPS q) + 1) (2 ^ (F.LINE_CNT_A_SLIPS q).width - 1) ∧
      t.col = (s.raise { src := BitVec.ofNat 8 (0x0C + p.val), kind := kLOSS_OF_SYNC, cls := corrected, reason := 0x07,
                         detail := BitVec.ofNat 24 ns.toNat }).col) ∧
    (¬ may → exec (.slip p ns) s = .next s)) ∧
  (∀ (p : Fin 2) (again : Bool) (align : BitVec 16) (s : State),
    let f := if p = 1 then F.RING_ALIGN_EAST_GOING else F.RING_ALIGN_WEST_GOING
    let may := s.live = true ∧ s.sup.inserted = true ∧ s.bit F.RING_STATUS_FREQ_MASTER = true
    (may → completes (.masterSlip p again align) s [.regs, .col, .ring] fun t => t.get f = align.toNat ∧
      t.get F.RING_CNT_MASTER_SLIPS = min (s.get F.RING_CNT_MASTER_SLIPS + 1) (2 ^ F.RING_CNT_MASTER_SLIPS.width - 1) ∧
      t.col = (s.raise { src := BitVec.ofNat 8 (0x0C + p.val), kind := kLOSS_OF_SYNC, cls := corrected, reason := 0x07,
                         detail := BitVec.ofNat 24 (align.toNat * 100) }).col) ∧
    (¬ may → exec (.masterSlip p again align) s = .next s)) ∧
  (∀ (p : Fin 4) (power : BitVec 16) (s : State),
    let may := s.live = true ∧ 2 ≤ s.lineState p ∧ (power.toInt < -30 ∨ 30 < power.toInt)
    (may → completes (.txFail p power) s [.regs, .col, .ic] fun t => t.get (F.LINE_POWER_TX p) = power.toNat ∧
      t.get (F.LINE_EVENT_TX_FAIL p) = 1 ∧
      t.col = (s.raise { src := BitVec.ofNat 8 (0x0C + p.val), kind := kDEFECT, cls := contained, reason := 0x09,
                         detail := BitVec.ofNat 24 power.toNat }).col) ∧
    (¬ may → exec (.txFail p power) s = .next s))

/-- Outside Caldera and hold: WRAP of an inserted node at a port for which a condition of R406 holds sets WRAPPED, the ring's wrap bit and ISOLATED when both ports are wrapped; the span there is not measured. WTR_DONE at a fit wrapped UP port ends the wait after WTR, or WTR_INS with a new neighbour. UNWRAP when its own wait is over, 16 fields have said the same and a multiframe begins clears the wrap bits and remembers the neighbour. INSERTION_REQUEST in K7 or K8 in bypass, both taps quiet for 2 s, observed for 50 ms, no backoff, no BYPASS_REQ and no PWRFAIL sets REQUESTED. INSERT_FAILED 5 s after the switch moved with no port ever UP withdraws the request, de-energises the coil and backs off 60 s doubling to 3600 s, with a fault. BACKOFF ends it when due. Otherwise none of them changes anything. BYPASS_REQ set on an inserted switch sends LEAVING for 16 frames, on a bypassed one withdraws the request; else it only takes its bit. Completes: WRAP, WTR_DONE, UNWRAP, INSERTION_REQUEST, INSERT_FAILED, BACKOFF, BYPASS_REQ. -/
def Obligations.RingProtection : Prop :=
  (∀ (p : Fin 2) (s : State),
    let q : Fin 4 := p.castLE (by decide)
    let o := s.ring.ports[q]
    let ringBit := if p = 0 then F.RING_STATUS_WRAP_E else F.RING_STATUS_WRAP_W
    let isolated (b : Bool) := (b && s.wrapped (opposite q)).toNat
    let mayWrap := s.live = true ∧ s.sup.inserted = true ∧ s.wrapped q = false ∧ s.unfit q = true
    let fit := s.live = true ∧ s.wrapped q = true ∧ s.unfit q = false
    let nbr := BitVec.ofNat 8 (s.get (F.LINE_STATUS_NBR_ADDR q))
    let wait := max 1 (if o.fitWith = some nbr then s.get (F.LINE_TIMERS_WTR q) else s.get (F.LINE_TIMERS_WTR_INS q))
    let ended := fit ∧ s.lineState q = 6 ∧ ∃ c, o.wtrAt = some c ∧ c + wait * 0x20000000 ≤ s.cycles
    let mayUnwrap := fit ∧ o.wtrDone = true ∧ 16 ≤ o.wtrDoneRun ∧ ∃ n, o.txNum = some n ∧ n.toNat % 16 = 0
    (mayWrap → completes (.wrap p) s [.regs, .ic, .tim, .ring] fun t => t.wrapped q = true ∧ t.get ringBit = 1 ∧
      t.get F.RING_STATUS_ISOLATED = isolated true ∧ t.get (F.LINE_EVENT_WRAP q) = 1 ∧ t.ring.ports[q].wtrAt = none ∧
      t.get (if p = 0 then F.TIME_SPAN_E_DELAY else F.TIME_SPAN_W_DELAY) = 0xFFFFFFFF) ∧
    (¬ mayWrap → exec (.wrap p) s = .next s) ∧
    (ended → completes (.wtrDone p) s [.regs, .ring] fun t => t.ring.ports[q] = { o with wtrDone := true } ∧
      t.get (F.LINE_STATUS_WTR_RUNNING q) = 0) ∧
    (¬ ended → exec (.wtrDone p) s = .next s) ∧
    (mayUnwrap → completes (.unwrap p) s [.regs, .ic, .ring] fun t => t.wrapped q = false ∧ t.get ringBit = 0 ∧
      t.get F.RING_STATUS_ISOLATED = 0 ∧ t.ring.ports[q] = { o with wtrAt := none, wtrDone := false, fitWith := some nbr }) ∧
    (¬ mayUnwrap → exec (.unwrap p) s = .next s)) ∧
  (∀ s : State,
    let quiet (x : Option Nat) := ∀ c, x = some c → c + 0x40000000 < s.cycles
    let may := s.live = true ∧ (s.node.phase = .k7 ∨ s.node.phase = .k8) ∧ s.sup.switchIn = false ∧ s.ring.requested = false ∧
      (∃ c, s.ring.monitorAt = some c ∧ c + 26843545 ≤ s.cycles) ∧
      (∀ p : Fin 4, p.val < 2 → quiet s.ring.ports[p].insertingSeen ∧ quiet s.ring.ports[p].leavingSeen) ∧
      s.bit F.RING_CTL_BYPASS_REQ = false ∧ s.ring.backoffEnd = none
    (may → completes .insertionRequest s [.regs, .ring] fun t => t.get F.RING_STATUS_INSERT = 2 ∧
      t.ring = { s.ring with requested := true, leaving := false, leaveFrames := none }) ∧
    (¬ may → exec .insertionRequest s = .next s)) ∧
  (∀ s : State,
    let n := s.ring.failures + 1
    let failed := s.live = true ∧ s.ring.requested = true ∧ s.ring.tapFramed = true ∧
      (∃ c, s.ring.switchAt = some c ∧ c + 2684354560 ≤ s.cycles) ∧
      s.ring.ports[(0 : Fin 4)].everUp = false ∧ s.ring.ports[(1 : Fin 4)].everUp = false
    let waited := s.live = true ∧ ∃ c, s.ring.backoffEnd = some c ∧ c ≤ s.cycles
    (failed → completes .insertFailed s [.regs, .sup, .col, .ring] fun t => t.get F.RING_STATUS_INSERT = 5 ∧
      t.sup.coil = false ∧ t.sup.switchIn = s.sup.switchIn ∧
      t.ring = { s.ring with requested := false, inserting := false, failures := n,
                             backoffEnd := some (s.cycles + min 3600 (60 * 2 ^ s.ring.failures) * 0x20000000) } ∧
      t.col = (s.raise { src := 0x19, kind := kTIMEOUT, cls := corrected, reason := 0x02, detail := BitVec.ofNat 24 n }).col) ∧
    (¬ failed → exec .insertFailed s = .next s) ∧
    (waited → completes .backoff s [.regs, .ring] fun t => t.ring = { s.ring with backoffEnd := none } ∧
      t.get F.RING_STATUS_INSERT = (if s.sup.switchIn = true then s.get F.RING_STATUS_INSERT else 1)) ∧
    (¬ waited → exec .backoff s = .next s)) ∧
  (∀ (v : Word) (s : State), s.clocked = true →
    let set := F.RING_CTL_BYPASS_REQ.of v = 1 ∧ s.bit F.RING_CTL_BYPASS_REQ = false
    (set → s.sup.switchIn = true → completes (.bypassReq v) s [.regs, .ring] fun t => t.get F.RING_STATUS_INSERT = 6 ∧
      t.bit F.RING_CTL_BYPASS_REQ = true ∧ t.ring = { s.ring with leaving := true, leaveFrames := some 16 }) ∧
    (set → s.sup.switchIn = false → completes (.bypassReq v) s [.regs, .sup, .ring] fun t => t.sup.coil = false ∧
      t.bit F.RING_CTL_BYPASS_REQ = true ∧ t.ring = { s.ring with requested := false, leaveFrames := none }) ∧
    (¬ set → completes (.bypassReq v) s [.regs] fun t => t.get F.RING_CTL_BYPASS_REQ = F.RING_CTL_BYPASS_REQ.of v ∧
      regsBut [0x40060404] s t))

/-- Outside Caldera and hold: a frame at a port in bypass with wrong alignment shows no rate on the tap; at a dark port, or one with LOS or LOL, nothing changes; at a port from T1 on with wrong alignment it counts as wrong; with at most 8 bits wrong at the port's rate and no OOF it is kept with its bad codewords, and at a ring port a sound number that is the one expected is taken and the next expected. FRAME_BUILT of a port that transmits, with the clocks running, puts the port's alignment pattern in bytes 0 to 15, a number field of its number in bytes 16 to 23, and, below T4 and not wrapped, nothing from byte 88 on; on a node that is not frequency master the number is the one received at the other side, or the last one sent plus one; EAST's last LEAVING frame withdraws the insertion request. In Caldera and hold, a ring port whose switch is still in sends the overhead alone, its departure noted. Of a port that does not transmit, or with the clocks stopped, it changes nothing. On the fibre: the scrambler is its own inverse; bits 128 and on are scrambled from all ones, those before are not (R382); two bits make the PAM4 level 2a + (a xor b), so that two streams of one length have the same levels only if they are the same (R381); a frame is 3525120 bits. Completes: FRAME_RECEIVED, FRAME_BUILT. -/
def Obligations.RingFrames : Prop :=
  (∀ (p : Fin 4) (full : Bool) (stamp : SysTime) (power : BitVec 16) (f : List (Nat × Byte)) (bad : List Nat) (corr : Nat) (s : State),
    let c := Instr.frameReceived p full stamp power f bad corr
    let o := s.ring.ports[p]
    let inUse := s.live = true ∧ 2 ≤ s.lineState p ∧ s.bit (F.LINE_STATUS_LOS p) = false ∧ s.bit (F.LINE_STATUS_LOL p) = false
    let aligned := full = decide (s.get (F.LINE_STATUS_RATE p) = 2) ∧ bitsWrong (frameAt f 0 16) (expectAlign p) ≤ 8
    let parts := [.regs, .now, .col, .ic, .rep, .chan, .tim, .flue, .ring, .free]
    (s.live = false → exec c s = .next s) ∧
    (s.lineState p ≠ 1 → ¬ inUse → exec c s = .next s) ∧
    (s.live = true → s.lineState p = 1 → 8 < bitsWrong (frameAt f 0 16) (expectAlign p) → completes c s [.regs] fun t =>
      t.get (F.LINE_TAP_TAP_RATE p) = 0 ∧ t.get (F.LINE_TAP_POWER p) = power.toNat) ∧
    (inUse → ¬ aligned → completes c s parts fun t => t.ring.ports[p].wrong = o.wrong + 1 ∧ t.ring.ports[p].right = 0 ∧
      t.get (F.LINE_POWER_RX p) = power.toNat) ∧
    (inUse → aligned → completes c s parts fun t => t.ring.ports[p].wrong = 0 ∧ t.ring.ports[p].right = o.right + 1 ∧
      t.get (F.LINE_POWER_RX p) = power.toNat) ∧
    (inUse → aligned → s.bit (F.LINE_STATUS_OOF p) = false → s.bit F.FLT_INJ_ARM = false → completes c s parts fun t =>
      t.ring.ports[p].rx = some ⟨f, bad, full, false⟩ ∧
      (∀ n, p.val < 2 → numberOf (frameAt f 16 8) = some n → o.expect = none ∨ o.expect = some n →
        t.ring.ports[p].rxNum = some n ∧ t.ring.ports[p].expect = some (n + 1) ∧ t.ring.ports[p].jumps = 0) ∧
      (p.val < 2 → numberOf (frameAt f 16 8) = none → t.ring.ports[p].rxNum = none ∧
        t.ring.ports[p].expect = o.expect.map fun e => e + 1))) ∧
  (∀ (p : Fin 4) (stamp : SysTime) (slips : List (Fin 4)) (s : State),
    let c := Instr.frameBuilt p stamp slips
    let o := s.ring.ports[p]
    let x := s.ring.ports[opposite p]
    let parts := [.regs, .sup, .col, .ic, .spm, .rep, .tim, .tsi, .flue, .ring, .work, .dist, .free]
    let follows := p.val < 2 ∧ s.bit F.RING_STATUS_FREQ_MASTER = false ∧ s.wrapped (opposite p) = false
    (s.clocked = false ∨ s.lineState p < 2 → exec c s = .next s) ∧
    (s.live = true → 2 ≤ s.lineState p → completes c s parts fun t => ∃ n : BitVec 48,
      t.ring.ports[p].txNum = some n ∧ frameAt t.ring.ports[p].tx 0 16 = sendAlign p ∧
      numberOf (frameAt t.ring.ports[p].tx 16 8) = some n ∧ tabGet 0 t.ring.ports[p].tx 22 = BitVec.ofNat 8 (n.toNat % 16) ∧
      (s.lineState p < 5 → s.wrapped p = false → ∀ a, 88 ≤ a → tabGet 0 t.ring.ports[p].tx a = 0) ∧
      (∀ r m, follows → x.rx = some r → r.taken = false → x.rxNum = some m → n = m) ∧
      (∀ m, follows → x.rx = none → o.txNum = some m → n = m + 1) ∧
      (p = 0 → s.ring.leaveFrames = some 1 → t.ring.requested = false ∧ t.sup.coil = false)) ∧
    (s.clocked = true → s.live = false → 2 ≤ s.lineState p → p.val < 2 → s.sup.switchIn = true →
      completes c s [.tim, .ring, .free] fun t => frameAt t.ring.ports[p].tx 0 16 = sendAlign p ∧
        (∀ a, 88 ≤ a → tabGet 0 t.ring.ports[p].tx a = 0) ∧ ∃ n : BitVec 48, t.ring.ports[p].txNum = some n ∧
          t.tim.spans[p].departs.head? = some (n.extractLsb' 0 16, stamp)) ∧
    (s.clocked = true → s.live = false → 2 ≤ p.val ∨ s.sup.switchIn = false → exec c s = .next s)) ∧
  (∀ (st : BitVec 31) (bs : List Bool), scramble st (scramble st bs) = bs) ∧
  (∀ bs : List Byte, (frameBits bs).take 128 = (sentBits bs).take 128 ∧
    (frameBits bs).drop 128 = scramble (BitVec.allOnes 31) ((sentBits bs).drop 128)) ∧
  (∀ (a b : Bool) (bs : List Bool), pam4 (a :: b :: bs) = (if a = true then 3 - b.toNat else b.toNat) :: pam4 bs) ∧
  (∀ a b : List Bool, a.length = b.length → a.length % 2 = 0 → (∀ x ∈ pam4 a, x < 4) ∧ (pam4 a = pam4 b → a = b)) ∧
  (∀ (p : Fin 4) (s : State), (s.onFibre p).length = 3525120)

/-- With the clocks running: a write of CM_DATA puts the word at the addressed standby entry and at no other, unless a swap or copy is pending (WRITE_REFUSED), an image is preloaded (a PROTOCOL fault) or the slot is past 12799; AUTOINC advances SLOT, 12799 going to 0; a read changes only SLOT. SWAP at a frame 2 to 2^20 ahead with nothing pending waits for that frame, otherwise it is refused with a fault; SWAP_CANCEL withdraws a microcode swap no port has made, otherwise changes nothing. COPY runs 51200 cycles, or is refused; COPY_DONE then makes the standby page equal to the active one, which stays (connection memory in canonical form), and changes nothing before. A sound entry gives nothing when IDLE or bad, the received slot when it connects a live one, REFUSED fill for a slot past 6143 of a half-rate input, FAIL fill with cause 1 for an input with no frame. Completes: CM_DATA, SWAP, SWAP_CANCEL, COPY, COPY_DONE. -/
def Obligations.ConnectionMemory : Prop :=
  (∀ (v : Word) (s : State), s.clocked = true →
    let key := cmKey (!s.activePage) s.cmPort s.cmSlot
    let busy := s.bit F.TSI_STATUS_SWAP_PENDING = true ∨ s.bit F.TSI_STATUS_COPY_BUSY = true
    let locked := ¬ busy ∧ s.bit F.TSI_STATUS_PRELOADED = true
    let moves (t : State) := t.get F.TSI_CM_ADDR_SLOT = if s.bit F.TSI_CM_ADDR_AUTOINC = false then s.cmSlot
      else if s.cmSlot = 12799 then 0 else (s.cmSlot + 1) % 16384
    (busy → completes (.cmData true v) s [.regs] fun t => moves t ∧ t.get F.TSI_STATUS_WRITE_REFUSED = 1) ∧
    (locked → completes (.cmData true v) s [.regs, .col] fun t => moves t ∧
      t.col = (s.raise { src := 0x10, kind := kPROTOCOL, cls := corrected, reason := 0x04 }).col) ∧
    (¬ busy → ¬ locked → 12800 ≤ s.cmSlot → completes (.cmData true v) s [.regs] moves) ∧
    (¬ busy → ¬ locked → s.cmSlot < 12800 → completes (.cmData true v) s [.regs, .col, .tsi] fun t => moves t ∧
      t.get F.TSI_STATUS_WRITE_REFUSED = 0 ∧ tabGet 0 t.tsi.cm key = v ∧ tabGet none t.tsi.ecc key = none ∧
      (∀ k, k ≠ key → tabGet 0 t.tsi.cm k = tabGet 0 s.tsi.cm k)) ∧
    (completes (.cmData false v) s [.regs, .free] fun t => moves t ∧ regsBut [F.TSI_CM_ADDR_SLOT.addr] s t)) ∧
  (∀ s : State, s.clocked = true →
    let f := s.get F.TSI_SWAP_FRAME_HI_F * 2 ^ 32 + s.get F.TSI_SWAP_FRAME_LO_F
    let refused (c : Instr) := completes c s [.regs, .col] fun t => t.get F.TSI_STATUS_LAST_REFUSED = 1 ∧
      t.col = (s.raise { src := 0x10, kind := kPROTOCOL, cls := corrected, reason := 0x05 }).col
    let may := s.cmBusy = false ∧ s.ringFrame + 2 ≤ f ∧ f ≤ s.ringFrame + 2 ^ 20
    (may → completes .swap s [.regs, .tsi] fun t => t.tsi = { s.tsi with swap := some f, swapImage := false } ∧
      t.get F.TSI_STATUS_SWAP_PENDING = 1 ∧ t.get F.TSI_STATUS_LAST_REFUSED = 0) ∧
    (¬ may → refused .swap) ∧
    (s.tsi.swap ≠ none → s.tsi.swapImage = false → s.swapUntouched = true → completes .swapCancel s [.regs, .tsi] fun t =>
      t.tsi.swap = none ∧ t.tsi.cm = s.tsi.cm ∧ t.get F.TSI_STATUS_SWAP_PENDING = 0 ∧ t.activePage = s.activePage) ∧
    (s.tsi.swap = none ∨ s.tsi.swapImage = true ∨ s.swapUntouched = false → exec .swapCancel s = .next s) ∧
    (s.cmBusy = false → completes .copy s [.regs, .tsi] fun t => t.tsi = { s.tsi with copy := some s.cycles } ∧
      t.get F.TSI_STATUS_COPY_BUSY = 1) ∧
    (s.cmBusy = true → refused .copy) ∧
    (s.tsi.copy = none ∨ (∃ c, s.tsi.copy = some c ∧ s.cycles < c + 51200) → exec .copyDone s = .next s) ∧
    (∀ c, s.tsi.copy = some c → c + 51200 ≤ s.cycles → tabWf 0 s.tsi.cm = true →
      completes .copyDone s [.regs, .tsi] fun t => t.tsi.copy = none ∧ t.get F.TSI_STATUS_COPY_BUSY = 0 ∧
        ∀ port slot, port < 4 → slot < 16384 →
          tabGet 0 t.tsi.cm (cmKey s.activePage port slot) = tabGet 0 s.tsi.cm (cmKey s.activePage port slot) ∧
          tabGet 0 t.tsi.cm (cmKey (!s.activePage) port slot) = tabGet 0 s.tsi.cm (cmKey s.activePage port slot))) ∧
  (∀ (p : Fin 4) (slot : Nat) (s : State), s.bit F.FLT_INJ_ARM = false → tabGet none s.tsi.ecc (cmKey s.tsi.page[p] p slot) = none →
    let e := CmEntry.ofWord (tabGet 0 s.tsi.cm (cmKey s.tsi.page[p] p slot))
    let x := s.input (Fin.ofNat 4 e.src)
    (e.mode = 0 ∨ e.mode = 3 ∨ 12800 ≤ e.slot → buildSlot p slot s = ((.idle, []), s)) ∧
    (∀ r, e.mode = 1 → e.slot < 12800 → x.frame = some r → x.live e.slot = true →
      buildSlot p slot s = ((.live, frameAt r.bytes (slotAt e.slot) 64), s)) ∧
    (e.mode = 1 → e.slot < 12800 → 6143 < e.slot → x.carrying = true → x.half = true → x.live e.slot = false →
      buildSlot p slot s = ((.refused, refusedFill s.address), s)) ∧
    (e.mode = 1 → e.slot < 12800 → x.frame = none → ¬ (x.carrying = true ∧ x.half = true ∧ 6143 < e.slot) →
      buildSlot p slot s = ((.failed 1, failFill s.address 1), s)))

/-- Outside Caldera and hold, Flue running: TXD_FRAME sends 459 bytes with the low 16 bits of RING.FRAME and a right CRC, in SPAN mode the span bytes of EAST and WEST, in LINE mode takes up to 12 waiting cells, and leaves the other port; RXD_FRAME with a wrong CRC counts, sets RXD_CRC and takes nothing; with a right one in SPAN mode its span bytes go to the next frames, in LINE mode up to 4 cells join the port's queue while it has room. In mode 0 or not running it changes nothing; a frame of another length is refused as ill-formed. BIN_CLOSE, once the second last begun is 10 s past the end of the 15-minute interval, pushes every port's bin into its history (SUSPECT if time was not valid in it), begins the next at that second with nothing counted and raises source 85; before it changes nothing. PERF_SEL copies the bin selected, or zeros where there is none. Completes: TXD_FRAME, RXD_FRAME, BIN_CLOSE, PERF_SEL. -/
def Obligations.FluePortsAndCounts : Prop :=
  (∀ (p : Fin 2) (s : State),
    let runs := s.live = true ∧ s.bit F.FLUE_STATUS_RUNNING = true
    (¬ runs → exec (.txdFrame p) s = .next s) ∧
    (runs → completes (.txdFrame p) s [.flue] fun t =>
      (∀ q : Fin 2, q ≠ p → t.flue.txd[q] = s.flue.txd[q] ∧ t.flue.txq[q] = s.flue.txq[q]) ∧
      t.flue.pq = s.flue.pq ∧ t.flue.txq[p] = (s.flue.txq[p]).drop 12 ∧ (t.flue.txd[p]).length = 459 ∧
      beAt t.flue.txd[p] 0 2 = s.ringFrame % 65536 ∧
      (s.flueMode p = 1 → crcBeOk 100 t.flue.txd[p] = true ∧ slice t.flue.txd[p] 4 48 = slice s.flue.spanRx[(0 : Fin 2)] 0 48 ∧
        slice t.flue.txd[p] 52 48 = slice s.flue.spanRx[(1 : Fin 2)] 0 48) ∧
      (s.flueMode p = 2 → crcBeOk 388 t.flue.txd[p] = true ∧
        slice t.flue.txd[p] 4 384 = slice ((s.flue.txq[p]).take 12).flatten 0 384))) ∧
  (∀ (p : Fin 2) (b : List Byte) (s : State),
    let runs := s.live = true ∧ s.bit F.FLUE_STATUS_RUNNING = true ∧ s.flueMode p ≠ 0
    let sound := crcBeOk (if s.flueMode p = 1 then 100 else 388) b
    let cnt := if p = 0 then F.FLUE_CNT_C_RXD_CRC0 else F.FLUE_CNT_C_RXD_CRC1
    let cells := (List.range (min 4 (byteAt b 2).toNat)).map fun i => slice b (8 + 32 * i) 24
    (b.length ≠ 459 → exec (.rxdFrame p b) s = .refused (.illFormed "RXD_FRAME")) ∧
    (b.length = 459 → ¬ runs → exec (.rxdFrame p b) s = .next s) ∧
    (b.length = 459 → runs → s.bit F.FLT_INJ_ARM = false →
      (sound = false → completes (.rxdFrame p b) s [.regs, .col, .ic, .flue] fun t => t.flue.spanTx = s.flue.spanTx ∧
        t.flue.pq = s.flue.pq ∧ t.get (F.FLUE_EVENT_RXD_CRC p) = 1 ∧ t.get cnt = min (s.get cnt + 1) (2 ^ cnt.width - 1)) ∧
      (sound = true → s.flueMode p = 1 → completes (.rxdFrame p b) s [.flue] fun t => t.flue = { s.flue with
        spanTx := (s.flue.spanTx.set 0 (slice b 4 48)).set 1 (slice b 52 48) }) ∧
      (sound = true → s.flueMode p = 2 → (s.flue.pq[p]).length + cells.length ≤ 16 →
        completes (.rxdFrame p b) s [.flue] fun t => t.flue = { s.flue with pq := s.flue.pq.set p (s.flue.pq[p] ++ cells) }))) ∧
  (∀ s : State,
    let stop := s.ring.perf[(0 : Fin 4)].now15.stop
    let due := s.clocked = true ∧ stop + 10 ≤ s.utcCount s.tim.second
    (¬ due → exec .binClose s = .next s) ∧
    (due → completes .binClose s [.regs, .ic, .rep, .ring] fun t => t.ic.lat = s.ic.lat ||| BitVec.twoPow 128 85 ∧
      t.ring.ports = s.ring.ports ∧ t.ring.dip = !s.timeValid ∧
      ∀ p : Fin 4,
        let q := s.ring.perf[p]
        t.ring.perf[p].now15 = Bin.fresh stop (stop + 900) false false ∧
        t.ring.perf[p].hist15 = ({ q.now15 with suspect := q.now15.suspect || s.ring.dip } :: q.hist15).take 16)) ∧
  (∀ (v : Word) (s : State), s.clocked = true →
    let d (t : State) (i : Nat) := t.reg (0x40070110 + 4 * i)
    let found := selectedBin (Fin.ofNat 4 (F.PERF_SEL_PORT.of v)) (F.PERF_SEL_KIND.of v) (F.PERF_SEL_INDEX.of v) s
    completes (.perfSel v) s [.regs] fun t => regsBut ([0x40070104] ++ (List.range 11).map fun i => 0x40070110 + 4 * i) s t ∧
      (found = none → ∀ i, i < 11 → d t i = 0) ∧
      (∀ b cur, found = some (b, cur) →
        d t 0 = BitVec.ofNat 32 (2 ^ 31 + b.suspect.toNat * 2 ^ 30 + b.partial_.toNat * 2 ^ 29 + cur.toNat * 2 ^ 28) ∧
        d t 1 = BitVec.ofInt 32 b.start ∧ d t 2 = BitVec.ofNat 32 b.es ∧ d t 3 = BitVec.ofNat 32 b.ses ∧
        d t 4 = BitVec.ofNat 32 b.uas ∧ d t 5 = BitVec.ofNat 32 b.ds ∧ d t 6 = BitVec.ofNat 32 b.ns))

/-- In K8 with no PWRFAIL, for the first cell of its type: an OFFER of an older epoch is reported refused 0x03; one not newer than the watermark of its epoch counts as a duplicate and adds no record; one for a group this node is not in is refused 0x01, one that breaks Table 14-1 0x02; one whose PRED is ahead of the watermark is deferred 0x10; one with no journal record free is deferred; one that finds four records with Peat is deferred 0x11; any other adds one journal record, not committed, with the next ORDER, raises the watermark and gives Peat its record. A QUERY newer than the watermark or of another epoch gets NOT_HELD, otherwise the record's state, APPLIED where none is held. RECORD_COMMIT with its read-back right writes the journal record's 64 bytes (with PVDD on) and no others, commits it, counts it in COMMITS and reports ACCEPTED to another node's item; twice wrong it raises the FATAL fault and commits nothing. Nothing queued, no plug or a later PWRFAIL stage: nothing changes. A REPORT cell carries its fields at their bytes. Completes: OFFER, QUERY, RECORD_COMMIT. -/
def Obligations.AcceptanceAtTarget : Prop :=
  (∀ (c : List Byte) (s : State), s.working = true → (s.work.inbox.find? fun x => byteAt x 0 == 0x01) = some c →
    let s1 : State := { s with work := { s.work with inbox := s.work.inbox.erase c } }
    let i := offerItem c
    let pred := BitVec.ofNat 32 (beAt c 12 4)
    let own := s.originOf i.origin
    let mark : Option Word := match own with
      | some o => if o.epoch = i.epoch then o.w else none
      | none => none
    let stale := ∃ o, own = some o ∧ newer 16 o.epoch.toNat i.epoch.toNat = true
    let known := ∃ x, mark = some x ∧ newer 32 i.seq.toNat x.toNat = false
    let ahead := pred ≠ 0 ∧ ∀ x, mark = some x → newer 32 pred.toNat x.toNat = true
    let member := i.tkind = 1 → s.node.ident.groups.getLsbD i.tid.toNat = true
    let fields := actionFields i = true ∧ i.tkind ≠ 3
    let fresh := ¬ stale ∧ ¬ known ∧ member ∧ fields
    let s2 := match own with
      | some o => if o.epoch = i.epoch then s1 else setOrigin ⟨i.origin.toNat, i.epoch, none⟩ s1
      | none => setOrigin ⟨i.origin.toNat, i.epoch, none⟩ s1
    let plus (f : Field) (t : State) := t.get f = min (s.get f + 1) (2 ^ f.width - 1)
    (stale → exec .offer s = .next (sendReport i 3 0x03 0 s1)) ∧
    (¬ stale → known → completes .offer s [.regs, .work] fun t => plus F.WRK_CNT_B_DUPLICATES t ∧ t.work.awq = s.work.awq ∧
      t.work.peat = s.work.peat ∧ t.work.origins = s.work.origins) ∧
    (¬ stale → ¬ known → ¬ member → exec .offer s = .next (sendReport i 3 0x01 0 s2)) ∧
    (¬ stale → ¬ known → member → ¬ fields → exec .offer s = .next (sendReport i 3 0x02 0 s2)) ∧
    (fresh → ahead → completes .offer s [.regs, .work] fun t => plus F.WRK_CNT_B_DEFERRED t ∧
      t.work = (sendReport i 4 0x10 0 s2).work) ∧
    (fresh → ¬ ahead → s.journalSlot = none → completes .offer s [.regs, .col, .work] fun t => plus F.WRK_CNT_B_DEFERRED t ∧
      t.work.awq = s.work.awq ∧ t.work.peat = s.work.peat) ∧
    (∀ k, fresh → ¬ ahead → s.journalSlot = some k → s.work.peat.length < 4 →
      completes .offer s [.regs, .ic, .work] fun t => t.originOf i.origin = some ⟨i.origin.toNat, i.epoch, some i.seq⟩ ∧
        t.work.awq = s.work.awq ++ [{ slot := k, item := i, order := s.work.orderNext, time := 0, committed := false,
                                      marking := false, applied := false, result := 0, spent := false, again := false }] ∧
        t.work.orderNext = s.work.orderNext + 1 ∧ t.work.peat = s.work.peat ++ [.journal k] ∧ t.work.reports = s.work.reports) ∧
    (∀ k, fresh → ¬ ahead → s.journalSlot = some k → 4 ≤ s.work.peat.length → completes .offer s [.regs, .work] fun t =>
      plus F.WRK_CNT_B_DEFERRED t ∧ t.work = (sendReport i 4 0x11 0 s2).work)) ∧
  (∀ (c : List Byte) (s : State), s.working = true → (s.work.inbox.find? fun x => byteAt x 0 == 0x03) = some c →
    let s1 : State := { s with work := { s.work with inbox := s.work.inbox.erase c } }
    let i := offerItem c
    let below := ∃ o x, s.originOf i.origin = some o ∧ o.epoch = i.epoch ∧ o.w = some x ∧ newer 32 i.seq.toNat x.toNat = false
    let rec? := s.work.awq.find? fun r => r.item.origin == i.origin && r.item.epoch == i.epoch && r.item.seq == i.seq
    (¬ below → exec .query s = .next (sendReport i 5 0 0 s1)) ∧
    (below → rec? = none → exec .query s = .next (sendReport i 2 0 0 s1)) ∧
    (∀ r, below → rec? = some r → r.committed = true → r.applied = true → exec .query s = .next (sendReport i 2 0 r.result s1)) ∧
    (∀ r, below → rec? = some r → r.committed = true → r.applied = false → exec .query s = .next (sendReport i 1 0 0 s1))) ∧
  (∀ (own : Nat) (i : Item) (state reason result : Byte),
    let c := reportCell own i state reason result
    c.length = 64 ∧ byteAt c 0 = 0x02 ∧ byteAt c 1 = BitVec.ofNat 8 own ∧ byteAt c 2 = i.origin ∧ byteAt c 3 = state ∧
    beAt c 4 2 = i.epoch.toNat ∧ beAt c 6 4 = i.seq.toNat ∧ byteAt c 10 = reason ∧ byteAt c 11 = result) ∧
  (∀ (fails : Fin 3) (s : State),
    let may := s.live = true ∧ s.node.plugPresent = true ∧ (s.node.pwr = .none ∨ s.node.pwr = .running)
    (¬ may ∨ s.work.peat = [] → exec (.recordCommit fails) s = .next s) ∧
    (∀ k l r, may → s.bit F.FLT_INJ_ARM = false → s.work.peat = .journal k :: l →
      (s.work.awq.find? fun x => x.slot == k) = some r → r.applied = false →
      let a := 0x82000 + 64 * k
      (fails.val = 0 → completes (.recordCommit fails) s [.regs, .ic, .plug, .work] fun t =>
        (∃ x ∈ t.work.awq, x.slot = k ∧ x.committed = true ∧ x.item = r.item ∧ x.time = s.now) ∧
        (s.node.pvdd = true → t.plugBytes a 64 = journalBytes { r with time := s.now }) ∧
        (∀ b, b < a ∨ a + 64 ≤ b → tabGet 0 t.plug.mem b = tabGet 0 s.plug.mem b) ∧
        t.get F.PEAT_CNT_COMMITS = min (s.get F.PEAT_CNT_COMMITS + 1) (2 ^ F.PEAT_CNT_COMMITS.width - 1) ∧
        (s.working = true → r.item.origin.toNat % 128 ≠ s.address →
          t.work.reports = s.work.reports ++ [reportCell s.address r.item 1 0 0])) ∧
      (fails.val = 2 → completes (.recordCommit fails) s [.regs, .col, .ic, .plug, .work] fun t => t.work.awq = s.work.awq ∧
        t.work.reports = s.work.reports ∧ t.col = (s.raise { src := 0x13, kind := kPROTOCOL, cls := fatal, reason := 0x01,
                                                             detail := BitVec.ofNat 24 (256 * k) }).col)))

/-- In K8 with no PWRFAIL: with a head ready of its action, CH_INSERT does the list INSERT; FULL leaves the item, its journal and the channels as they were, blocks the head and sets HEAD_BLOCKED; any other status is kept as RESULT of the head's record, which waits for its mark, and no other record changes. CH_CANCEL does the list CANCEL likewise. SET_VALUE to a bank On stores value and DUE in the entry's 16 bytes and nowhere else, shows the index, sets VALUE and marks the record; to a bank off it stores nothing and holds the head. HEAD_RETRY of a blocked head after 1 ms, or when the list's COUNT has fallen, inserts again; otherwise it changes nothing. With no head ready each changes nothing. SPENT of an applied insertion or cancellation past its time marks it spent, and every record not applied stays; otherwise it changes nothing. Completes: CH_INSERT, CH_CANCEL, SET_VALUE, HEAD_RETRY, SPENT. -/
def Obligations.ApplicationAtTarget : Prop :=
  (∀ s : State, s.working = true →
    let marked (r : JRec) (st : Nat) (l : List JRec) := l = s.work.awq.map fun x =>
      if x.slot = r.slot then (if r.again = true then { x with again := false }
        else { x with marking := true, result := BitVec.ofNat 8 st }) else x
    let ch (r : JRec) : Fin 64 := Fin.ofNat 64 r.item.channel.toNat
    let inserts (c : Instr) (r : JRec) := ∀ st s',
      listInsert (ch r) r.item.due r.item.arg0 r.item.arg1 s = (st, s') →
      (st ≠ 2 → completes c s [.regs, .ic, .chan, .bar, .work] fun t => t.chan = s'.chan ∧ t.get F.WRK_HEAD_BLOCKED = 0 ∧
        marked r st t.work.awq) ∧
      (st = 2 → completes c s [.regs, .col, .ic, .chan, .bar, .work] fun t => t.chan = s.chan ∧ t.get F.WRK_HEAD_BLOCKED = 1 ∧
        t.work.awq = s.work.awq)
    (s.headReady 1 = none → exec .chInsert s = .next s) ∧
    (s.headReady 2 = none → exec .chCancel s = .next s) ∧
    (s.headReady 3 = none → exec .setValue s = .next s) ∧
    (∀ r, s.headReady 1 = some r → inserts .chInsert r) ∧
    (∀ r st s', s.headReady 2 = some r → listCancel (ch r) r.item.arg1 s = (st, s') →
      completes .chCancel s [.regs, .ic, .chan, .bar, .work] fun t => t.chan = s'.chan ∧ marked r st t.work.awq) ∧
    (∀ r, s.headReady 3 = some r → (∀ w, w < 8 → s.window? w = none) →
      let a := s.get F.WRK_VAL_BASE_BASE / 16 * 16 + 16 * r.item.channel.toNat
      (s.bankOn (bankOf a) = true → completes .setValue s [.regs, .ic, .spm, .work] fun t =>
        t.bytesAt a 16 = leBytes 8 r.item.arg2.toNat ++ leBytes 8 r.item.due.toNat ∧
        (∀ b, b < a ∨ a + 16 ≤ b → tabGet 0 t.spm.mem b = tabGet 0 s.spm.mem b) ∧
        t.get F.WRK_VAL_LAST_INDEX = r.item.channel.toNat ∧ t.get F.WRK_EVENT_VALUE = 1 ∧ marked r 0 t.work.awq) ∧
      (s.bankOn (bankOf a) = false → completes .setValue s [.regs, .col, .ic, .work] fun t => t.work.valueHeld = true ∧
        t.work.awq = s.work.awq)) ∧
    (∀ r, s.head = some r →
      let again := s.work.tryAt + 536870 ≤ s.cycles
      let fell := s.chan[ch r].list.length < s.work.tryCount
      (s.bit F.WRK_HEAD_BLOCKED = true → again ∨ fell → inserts .headRetry r) ∧
      (s.bit F.WRK_HEAD_BLOCKED = true → s.work.valueHeld = false → ¬ again → ¬ fell → exec .headRetry s = .next s) ∧
      (s.bit F.WRK_HEAD_BLOCKED = false → s.work.valueHeld = false ∨ ¬ again → exec .headRetry s = .next s)) ∧
    (s.head = none → exec .headRetry s = .next s)) ∧
  (∀ (slot : Fin 4096) (s : State),
    let found := s.work.awq.find? fun r => r.slot == slot.val && r.applied && !r.spent
    let past (r : JRec) := (r.item.action = 1 ∨ r.item.action = 2) ∧ s.pastDue r.item = true
    (∀ r, s.live = true → found = some r → past r → completes (.spent slot) s [.regs, .ic, .work] fun t =>
      (∀ x ∈ t.work.awq, x.slot = slot.val → x.spent = true) ∧
      (∀ x ∈ s.work.awq, x.applied = false → x.slot ≠ slot.val → x ∈ t.work.awq)) ∧
    (s.live = false ∨ found = none ∨ (∃ r, found = some r ∧ ¬ past r) → exec (.spent slot) s = .next s))

/-- With the clocks running, a GO while HELD or COMMITTING, or no GO, changes nothing; else the first reason of Table 14-3 that holds refuses it with REASON, a fault and no SEQUENCE used; with no custody record free it is HELD (dated); otherwise it is COMMITTING: one custody record with the next SEQUENCE and every target of the set OFFERED, and Peat gets it while it holds fewer than four. CUSTODY_FULL after WRK.HOLD refuses it with 0x05. In K8 with no PWRFAIL: a REPORT that fits moves just its target as Table 14-5 says, and an entry whose targets are all final then ends; one that does not fit changes nothing else. RETRY queues an OFFER to an OFFERED target when due, a QUERY to a QUERYING one; POLL an OFFER to an ACCEPTED one; EXPIRES moves just the OFFERED targets to QUERYING and drops their OFFERs; before they are due they change nothing. ABANDON with GO leaves no target of that node unfinished in a live entry, without GO only takes the node. Completes: ORIGINATION, CUSTODY_FULL, REPORT, RETRY, POLL, EXPIRES, ABANDON. -/
def Obligations.CustodyAtOriginator : Prop :=
  (∀ (v : Word) (s : State), s.clocked = true →
    let st := s.get F.WRK_OR_STATUS_STATE
    let i := s.orItem
    let q := s.get F.WRK_NEXT_SEQ_SEQUENCE
    let idle := F.WRK_OR_CMD_GO.of v = 0 ∨ st = 1 ∨ st = 2
    let reason : Option Nat := if s.working = false then some 1
      else if i.tkind = 3 ∨ (i.tkind = 0 ∧ 127 < i.tid.toNat) ∨ (i.tkind = 1 ∧ 63 < i.tid.toNat) then some 2
      else if s.targetSet i = 0 then some 3
      else if actionFields i = false ∨ (i.action = 4 ∧ i.due ≠ 0) then some 4 else none
    (idle → exec (.origination v) s = .next s) ∧
    (∀ r, ¬ idle → reason = some r → completes (.origination v) s [.regs, .col, .ic, .rep, .work] fun t =>
      t.get F.WRK_OR_STATUS_STATE = 4 ∧ t.get F.WRK_OR_STATUS_REASON = r ∧ t.get F.WRK_EVENT_ORIG_REFUSED = 1 ∧
      t.work.cust = s.work.cust ∧ t.get F.WRK_NEXT_SEQ_SEQUENCE = q ∧
      t.col = (s.raise { src := 0x12, kind := kPROTOCOL, cls := corrected, reason := 0x03, detail := BitVec.ofNat 24 r }).col) ∧
    (¬ idle → reason = none → s.custodySlot = none → completes (.origination v) s [.regs, .work] fun t =>
      t.get F.WRK_OR_STATUS_STATE = 1 ∧ t.work = { s.work with hold := some (s.cycles, s.now.toNat / 0x20000000) } ∧
      t.get F.WRK_NEXT_SEQ_SEQUENCE = q) ∧
    (∀ k, ¬ idle → reason = none → s.custodySlot = some k → completes (.origination v) s [.regs, .ic, .work] fun t =>
      t.get F.WRK_OR_STATUS_STATE = 2 ∧ t.get F.WRK_NEXT_SEQ_SEQUENCE = (if q = 0xFFFFFFFF then 1 else q + 1) ∧
      (s.work.peat.length < 4 → t.work.peat = s.work.peat ++ [.custody k]) ∧
      ∃ x, t.work.cust = s.work.cust ++ [x] ∧ x.slot = k ∧ x.item = { i with seq := BitVec.ofNat 32 q } ∧
        x.set = s.targetSet i ∧ x.committed = false ∧ x.ended = false ∧ x.released = false ∧
        x.targets.map (fun y => (y.node, y.st)) =
          ((List.range 128).filter fun n => (s.targetSet i).getLsbD n).map fun n => (n, TState.offered))) ∧
  (∀ s : State,
    let full := s.working = true ∧ ∃ c x, s.work.hold = some (c, x) ∧ c + s.get F.WRK_HOLD_HOLD * 0x20000000 / 1000 ≤ s.cycles
    (full → completes .custodyFull s [.regs, .col, .ic, .rep, .work] fun t => t.get F.WRK_OR_STATUS_STATE = 4 ∧
      t.get F.WRK_OR_STATUS_REASON = 5 ∧ t.work = { s.work with hold := none } ∧
      t.col = (s.raise { src := 0x12, kind := kQUEUE_FULL, cls := corrected, reason := 0x03, detail := 5 }).col) ∧
    (¬ full → exec .custodyFull s = .next s)) ∧
  (∀ (c : List Byte) (s : State), s.working = true → (s.work.inbox.find? fun x => byteAt x 0 == 0x02) = some c →
    let s1 : State := { s with work := { s.work with inbox := s.work.inbox.erase c } }
    let entry := s.work.cust.find? fun r => r.committed && !r.ended && r.item.epoch == cellEpoch c && r.item.seq == cellSeq c
    let target (r : CRec) := r.targets.find? fun x => x.node == cellFrom c
    (∀ r x st, entry = some r → target r = some x → x.st.after (byteAt c 3) = some st →
      (∀ y ∈ s.work.cust, y.slot = r.slot → y = r) →
      completes .report s [.regs, .col, .ic, .spm, .rep, .work] fun t => ∃ r' ∈ t.work.cust, r'.slot = r.slot ∧ r'.item = r.item ∧
        r'.targets.map (fun y => (y.node, y.st)) =
          r.targets.map (fun y => (y.node, if y.node = x.node then st else y.st)) ∧
        (r'.ended = true ↔ ∀ y ∈ r'.targets, y.st.final = true)) ∧
    (entry = none ∨ (∃ r, entry = some r ∧ target r = none) ∨
      (∃ r x, entry = some r ∧ target r = some x ∧ x.st.after (byteAt c 3) = none) → exec .report s = .next s1)) ∧
  (∀ (slot : Fin 2048) (n : Fin 128) (s : State), s.working = true →
    let due (x : Target) (d : Nat) := ∀ c, x.sentAt = some c → c + d ≤ s.cycles
    (s.served slot n = none → exec (.retry slot n) s = .next s ∧ exec (.poll slot n) s = .next s) ∧
    (∀ r x, s.served slot n = some (r, x) →
      let offers (c : Instr) := completes c s [.work] fun t => n.val ≠ s.address →
        t.work.offers = s.work.offers ++ [offerCell r.item n (s.predOf r.item n)] ∧ t.work.queries = s.work.queries
      let asks := x.st = .querying ∧ x.offerAt + 5368709 ≤ s.cycles ∧ due x s.retryTime
      (x.st = .offered → due x s.retryTime → offers (.retry slot n)) ∧
      (asks → completes (.retry slot n) s [.work] fun t => n.val ≠ s.address →
        t.work.queries = s.work.queries ++ [queryCell r.item n] ∧ t.work.offers = s.work.offers) ∧
      (¬ (x.st = .offered ∧ due x s.retryTime) → ¬ asks → exec (.retry slot n) s = .next s) ∧
      (x.st = .accepted → due x s.pollTime → offers (.poll slot n)) ∧
      (¬ (x.st = .accepted ∧ due x s.pollTime) → exec (.poll slot n) s = .next s))) ∧
  (∀ (slot : Fin 2048) (s : State), s.working = true →
    let entry := s.work.cust.find? fun r => r.slot == slot.val && r.committed && !r.ended
    let passed (r : CRec) := r.expires ≠ 0 ∧ (BitVec.ofNat 32 (s.now.toNat / 0x20000000) - r.expires).toNat < 2 ^ 31
    (∀ r, entry = some r → passed r → completes (.expires slot) s [.regs, .ic, .work] fun t =>
      t.work.cust = s.work.cust.map (fun y => if y.slot = slot.val then { y with targets := y.targets.map fun x =>
        if x.st = .offered then { x with st := .querying, sentAt := none } else x } else y) ∧
      (∀ c ∈ t.work.offers, c ∈ s.work.offers ∧ ¬ (cellSeq c = r.item.seq ∧
        ∃ x ∈ r.targets, x.st = .offered ∧ x.node = cellTo c))) ∧
    (entry = none ∨ (∃ r, entry = some r ∧ ¬ passed r) → exec (.expires slot) s = .next s)) ∧
  (∀ (v : Word) (s : State), s.clocked = true →
    let node := F.WRK_ABANDON_NODE.of v
    (F.WRK_ABANDON_GO.of v = 0 → completes (.abandon v) s [.regs] fun t => t.get F.WRK_ABANDON_NODE = node) ∧
    (F.WRK_ABANDON_GO.of v ≠ 0 → completes (.abandon v) s [.regs, .col, .ic, .spm, .rep, .work] fun t =>
      ∀ r ∈ t.work.cust, r.ended = false → ∀ x ∈ r.targets, x.node = node → x.st.final = true))

/-- For every state and every command whose lists have their lengths, the command answers a next state. In it the queue of waiting commands and the count of CORE cycles are as before; system time is as before unless the command is STEP, K0 or FRAME_RECEIVED; a command of the MFE's side changes nothing but the MFE (and the count of free values drawn); a command of the logic side changes nothing of the MFE. A command with a list of another length is refused as ill formed and changes nothing. -/
def Obligations.CommandsAnswer : Prop :=
  (∀ (c : Instr) (s : State), c.wf = true → ∃ t, exec c s = .next t ∧ t.pending = s.pending ∧ t.cycles = s.cycles ∧
    (movesTime c = false → t.now = s.now) ∧ (onMfeSide c = true → only [.mfe, .free] s t) ∧
    (onMfeSide c = false → t.mfe = s.mfe)) ∧
  (∀ (c : Instr) (s : State), c.wf = false → ∃ n, exec c s = .refused (.illFormed n))

/-- Say that a memory is canonical when its listed addresses rise strictly and no listed value is the one an unlisted address reads as (0). For every state whose scratchpad, plug and connection memory are canonical, if a step answers a next state, they are canonical in it, so that equal memories are equal data whatever the node has done. The form is the model's own way to hold the spec's memories (log entry 3). That State.reset has it is stated of the reset state. -/
def Obligations.MemoriesCanonical : Prop :=
  ∀ s t : State, memoriesOk s → step s = .next t → memoriesOk t
end

