-- ==== Sys2Proof/Laws/Tab.lean ====
section
/-! SUPPORT. Laws of the sparse tables: reading after writing, and that every operation keeps the canonical form. -/

namespace Sys2Proof.Machine

variable {α : Type}

@[simp] theorem tabGet_nil (d : α) (k : Nat) : tabGet d [] k = d := rfl

theorem tabGet_filter (d : α) (p : Nat → Bool) (t : List (Nat × α)) (j : Nat) :
    tabGet d (t.filter fun e => p e.1) j = if p j then tabGet d t j else d := by
  induction t with
  | nil => simp
  | cons e t ih =>
    rw [List.filter_cons]
    by_cases h : e.1 = j
    · subst h
      by_cases hp : p e.1 = true
      · simp [hp, tabGet]
      · simp only [hp, if_false, Bool.false_eq_true]
        rw [ih]; simp [hp]
    · split
      · simp [tabGet, h, ih]
      · rw [ih]; simp [tabGet, h]

theorem tabGet_erase (d : α) (t : List (Nat × α)) (k j : Nat) :
    tabGet d (tabErase t k) j = if j = k then d else tabGet d t j := by
  have h := tabGet_filter d (fun x => decide (x ≠ k)) t j
  unfold tabErase
  rw [h]
  by_cases hj : j = k <;> simp [hj]

theorem tabGet_erase_same (d : α) (t : List (Nat × α)) (k : Nat) : tabGet d (tabErase t k) k = d := by
  simp [tabGet_erase]

theorem tabGet_erase_ne (d : α) (t : List (Nat × α)) {k j : Nat} (h : j ≠ k) :
    tabGet d (tabErase t k) j = tabGet d t j := by
  simp [tabGet_erase, h]

theorem tabGet_insert_same (d : α) (t : List (Nat × α)) (k : Nat) (v : α) (h : ∀ e ∈ t, e.1 ≠ k) :
    tabGet d (tabInsert t k v) k = v := by
  induction t with
  | nil => simp [tabInsert, tabGet]
  | cons e t ih =>
    have he : e.1 ≠ k := h e (by simp)
    have ht : ∀ e ∈ t, e.1 ≠ k := fun x hx => h x (by simp [hx])
    unfold tabInsert
    split
    · simp [tabGet]
    · simp [tabGet, he, ih ht]

theorem tabGet_insert_ne (d : α) (t : List (Nat × α)) {k j : Nat} (v : α) (h : j ≠ k) :
    tabGet d (tabInsert t k v) j = tabGet d t j := by
  induction t with
  | nil => simp [tabInsert, tabGet, Ne.symm h]
  | cons e t ih =>
    unfold tabInsert
    split
    · simp [tabGet, Ne.symm h]
    · simp [tabGet, ih]

/-! ## The canonical form -/

theorem tabRising_weaken {lo lo' : Option Nat} {t : List (Nat × α)} (h : tabRising lo t = true)
    (hl : ∀ l', lo' = some l' → ∃ l, lo = some l ∧ l' ≤ l) : tabRising lo' t = true := by
  cases t with
  | nil => rfl
  | cons e t =>
    unfold tabRising at h ⊢
    rw [Bool.and_eq_true] at h ⊢
    refine ⟨?_, h.2⟩
    cases lo' with
    | none => rfl
    | some l' =>
      obtain ⟨l, rfl, hle⟩ := hl l' rfl
      have := h.1
      simp only [decide_eq_true_eq] at this ⊢
      omega

theorem tabRising_filter (p : Nat × α → Bool) {lo : Option Nat} {t : List (Nat × α)} (h : tabRising lo t = true) :
    tabRising lo (t.filter p) = true := by
  induction t generalizing lo with
  | nil => rfl
  | cons e t ih =>
    unfold tabRising at h
    rw [Bool.and_eq_true] at h
    rw [List.filter_cons]
    split
    · unfold tabRising
      rw [Bool.and_eq_true]
      exact ⟨h.1, ih h.2⟩
    · refine tabRising_weaken (ih h.2) (fun l' hl => ⟨e.1, rfl, ?_⟩)
      subst hl
      have := h.1
      simp only [decide_eq_true_eq] at this
      omega

theorem tabRising_insert {lo : Option Nat} {t : List (Nat × α)} (k : Nat) (v : α) (h : tabRising lo t = true)
    (hk : ∀ l, lo = some l → l < k) (hne : ∀ e ∈ t, e.1 ≠ k) : tabRising lo (tabInsert t k v) = true := by
  induction t generalizing lo with
  | nil =>
    cases lo with
    | none => rfl
    | some l => simp [tabInsert, tabRising, hk l rfl]
  | cons e t ih =>
    unfold tabRising at h
    rw [Bool.and_eq_true] at h
    unfold tabInsert
    split
    · next hlt =>
      unfold tabRising
      rw [Bool.and_eq_true]
      refine ⟨?_, ?_⟩
      · cases lo with
        | none => rfl
        | some l => simp [hk l rfl]
      · unfold tabRising
        rw [Bool.and_eq_true]
        exact ⟨by simpa using hlt, h.2⟩
    · next hge =>
      unfold tabRising
      rw [Bool.and_eq_true]
      refine ⟨h.1, ih h.2 ?_ (fun x hx => hne x (by simp [hx]))⟩
      intro l hl
      have := hne e (by simp)
      injection hl with hl
      omega

variable [DecidableEq α]

/-! ## Writes -/

/-- Reading the key just written gives the value written. -/
@[simp] theorem tabGet_set_same (d : α) (t : List (Nat × α)) (k : Nat) (v : α) : tabGet d (tabSet d t k v) k = v := by
  unfold tabSet
  split
  · next h => rw [tabGet_erase_same, h]
  · exact tabGet_insert_same d _ k v (by simp [tabErase])

/-- A write leaves every other key alone. -/
theorem tabGet_set_ne (d : α) (t : List (Nat × α)) {k j : Nat} (v : α) (h : j ≠ k) :
    tabGet d (tabSet d t k v) j = tabGet d t j := by
  unfold tabSet
  split
  · exact tabGet_erase_ne d t h
  · rw [tabGet_insert_ne d _ v h, tabGet_erase_ne d t h]

theorem tabGet_set (d : α) (t : List (Nat × α)) (k j : Nat) (v : α) :
    tabGet d (tabSet d t k v) j = if j = k then v else tabGet d t j := by
  split
  · next h => rw [h, tabGet_set_same]
  · next h => exact tabGet_set_ne d t v h

/-- A run of consecutive keys reads as written, and every key outside it as before. -/
theorem tabGet_setRun (d : α) (vs : List α) (t : List (Nat × α)) (k j : Nat) :
    tabGet d (tabSetRun d t k vs) j = if k ≤ j ∧ j < k + vs.length then vs.getD (j - k) d else tabGet d t j := by
  induction vs generalizing t k with
  | nil =>
    have : ¬(k ≤ j ∧ j < k + 0) := by omega
    simp only [tabSetRun, List.length_nil, this, if_false]
  | cons v vs ih =>
    rw [tabSetRun, ih, tabGet_set]
    by_cases h : j = k
    · subst h
      have : ¬(j + 1 ≤ j ∧ j < j + 1 + vs.length) := by omega
      simp [this]
    · by_cases h1 : k + 1 ≤ j ∧ j < k + 1 + vs.length
      · have h2 : k ≤ j ∧ j < k + (v :: vs).length := by simp only [List.length_cons]; omega
        have h3 : j - k = (j - (k + 1)) + 1 := by omega
        simp only [h1, h2, and_self, if_true]
        rw [h3]; simp
      · have h2 : ¬(k ≤ j ∧ j < k + (v :: vs).length) := by simp only [List.length_cons]; omega
        simp only [h1, h2, h, if_false]

theorem tabWf_filter (d : α) (p : Nat × α → Bool) {t : List (Nat × α)} (h : tabWf d t = true) :
    tabWf d (t.filter p) = true := by
  unfold tabWf at h ⊢
  rw [Bool.and_eq_true] at h ⊢
  refine ⟨tabRising_filter p h.1, ?_⟩
  rw [List.all_eq_true] at h ⊢
  intro e he
  exact h.2 e (List.mem_filter.1 he).1

/-- A write keeps the canonical form. -/
theorem tabWf_set (d : α) {t : List (Nat × α)} (k : Nat) (v : α) (h : tabWf d t = true) :
    tabWf d (tabSet d t k v) = true := by
  have he : tabWf d (tabErase t k) = true := tabWf_filter d _ h
  unfold tabSet
  split
  · exact he
  · next hv =>
    unfold tabWf at he ⊢
    rw [Bool.and_eq_true] at he ⊢
    refine ⟨tabRising_insert k v he.1 (by simp) (by simp [tabErase]), ?_⟩
    have := he.2
    generalize tabErase t k = u at this
    induction u with
    | nil => simp [tabInsert, hv]
    | cons e u ih =>
      rw [List.all_cons, Bool.and_eq_true] at this
      unfold tabInsert
      split
      · simp only [List.all_cons, Bool.and_eq_true]
        exact ⟨by simpa using hv, this.1, this.2⟩
      · simp only [List.all_cons, Bool.and_eq_true]
        exact ⟨this.1, ih this.2⟩

theorem tabWf_setRun (d : α) (vs : List α) {t : List (Nat × α)} (k : Nat) (h : tabWf d t = true) :
    tabWf d (tabSetRun d t k vs) = true := by
  induction vs generalizing t k with
  | nil => exact h
  | cons v vs ih => exact ih (k + 1) (tabWf_set d k v h)

theorem tabWf_clear (d : α) {t : List (Nat × α)} (lo hi : Nat) (h : tabWf d t = true) : tabWf d (tabClear t lo hi) = true :=
  tabWf_filter d _ h

omit [DecidableEq α] in
/-- A cleared range reads as unlisted; every other key as before. -/
theorem tabGet_clear (d : α) (t : List (Nat × α)) (lo hi j : Nat) :
    tabGet d (tabClear t lo hi) j = if lo ≤ j ∧ j < hi then d else tabGet d t j := by
  have h := tabGet_filter d (fun k => decide (k < lo ∨ hi ≤ k)) t j
  unfold tabClear
  rw [h]
  by_cases h1 : lo ≤ j ∧ j < hi
  · have : ¬(j < lo ∨ hi ≤ j) := by omega
    simp [h1, this]
  · have : j < lo ∨ hi ≤ j := by omega
    simp [h1, this]

end Sys2Proof.Machine
end

