-- ==== Sys2Proof/Laws/Field.lean ====
section
/-! SUPPORT. Laws of register fields: a field reads as it was last written, modulo its width, and a write leaves every
other field alone. -/

namespace Sys2Proof.Machine

/-- The field lies in a 32-bit register. -/
abbrev Field.Fits (f : Field) : Prop := f.lo ≤ f.hi ∧ f.hi < 32

theorem Field.testBit_of (f : Field) (w : Word) (i : Nat) :
    (f.of w).testBit i = (decide (i < f.width) && w.getLsbD (f.lo + i)) := by
  unfold Field.of
  rw [Nat.testBit_mod_two_pow, Nat.testBit_div_two_pow, BitVec.getLsbD, Nat.add_comm]

theorem Field.getLsbD_mask (f : Field) (i : Nat) :
    f.mask.getLsbD i = (decide (i < 32) && decide (f.lo ≤ i ∧ i < f.lo + f.width)) := by
  unfold Field.mask
  rw [BitVec.getLsbD_ofNat, Nat.testBit_mul_two_pow, Nat.testBit_two_pow_sub_one]
  by_cases h1 : i < 32 <;> by_cases h2 : f.lo ≤ i <;> simp [h1, h2]
  omega

theorem Field.getLsbD_into (f : Field) (v : Nat) (w : Word) (i : Nat) :
    (f.into v w).getLsbD i = (decide (i < 32) &&
      if f.lo ≤ i ∧ i < f.lo + f.width then v.testBit (i - f.lo) else w.getLsbD i) := by
  unfold Field.into
  rw [BitVec.getLsbD_or, BitVec.getLsbD_and, BitVec.getLsbD_not, Field.getLsbD_mask, BitVec.getLsbD_ofNat,
    Nat.testBit_mul_two_pow, Nat.testBit_mod_two_pow]
  by_cases h1 : i < 32
  · by_cases h2 : f.lo ≤ i
    · by_cases h3 : i < f.lo + f.width
      · have : i - f.lo < f.width := by omega
        simp [h1, h2, h3, this]
      · have : ¬ i - f.lo < f.width := by omega
        simp [h1, h2, h3, this]
    · simp [h1, h2]
  · have : w.getLsbD i = false := BitVec.getLsbD_of_ge w i (by omega)
    simp [h1]

/-- What is written is read back, modulo the field's width. -/
theorem Field.of_into (f : Field) (h : f.Fits) (v : Nat) (w : Word) : f.of (f.into v w) = v % 2 ^ f.width := by
  apply Nat.eq_of_testBit_eq
  intro i
  rw [Field.testBit_of, Field.getLsbD_into, Nat.testBit_mod_two_pow]
  obtain ⟨h1, h2⟩ := h
  by_cases hi : i < f.width
  · have : f.lo + i < 32 := by unfold Field.width at hi; omega
    simp [hi, this]
  · simp [hi]

/-- A field apart from the one written is unchanged. -/
theorem Field.of_into_apart (f g : Field) (hg : g.Fits) (h : g.hi < f.lo ∨ f.hi < g.lo) (v : Nat) (w : Word) :
    g.of (f.into v w) = g.of w := by
  apply Nat.eq_of_testBit_eq
  intro i
  rw [Field.testBit_of, Field.testBit_of, Field.getLsbD_into]
  obtain ⟨h1, h2⟩ := hg
  by_cases hi : i < g.width
  · have hb : g.lo + i < 32 := by unfold Field.width at hi; omega
    have hn : ¬(f.lo ≤ g.lo + i ∧ g.lo + i < f.lo + f.width) := by
      unfold Field.width at hi ⊢; omega
    simp [hi, hb, hn]
  · simp [hi]

theorem regGet_regPut_same (r : Regs) (f : Field) (h : f.Fits) (v : Nat) : regGet (regPut r f v) f = v % 2 ^ f.width := by
  unfold regGet regPut
  rw [tabGet_set_same, Field.of_into f h]

theorem regGet_regPut_addr (r : Regs) (f g : Field) (h : g.addr ≠ f.addr) (v : Nat) :
    regGet (regPut r f v) g = regGet r g := by
  unfold regGet regPut
  rw [tabGet_set_ne _ _ _ h]

theorem regGet_regPut_apart (r : Regs) (f g : Field) (hg : g.Fits) (h : g.hi < f.lo ∨ f.hi < g.lo) (v : Nat) :
    regGet (regPut r f v) g = regGet r g := by
  by_cases ha : g.addr = f.addr
  · unfold regGet regPut
    rw [ha, tabGet_set_same, Field.of_into_apart f g hg h]
  · exact regGet_regPut_addr r f g ha v

theorem Field.of_lt (f : Field) (w : Word) : f.of w < 2 ^ f.width := Nat.mod_lt _ (Nat.two_pow_pos _)

theorem regGet_lt (r : Regs) (f : Field) : regGet r f < 2 ^ f.width := Field.of_lt f _

end Sys2Proof.Machine
end

