-- ==== Sys2Proof/Laws/Frame.lean ====
section
/-! SUPPORT. Frames: the state with some of its parts set aside, and how an equation of two such states gives
Safety.only. Every operation of the model has a lemma (its name, then _hide) that sets aside the parts it may change; a set of
parts is a number with one bit for each part, in the order of State. -/

set_option maxRecDepth 100000
set_option linter.all false

namespace Sys2Proof.Machine

/-- The state with the parts of `m`, one bit each in the order of State, set aside. -/
def State.hide (s : State) (m : Nat) : State :=
  { regs := if m.testBit 0 then State.reset.regs else s.regs,
    now := if m.testBit 1 then State.reset.now else s.now,
    cycles := if m.testBit 2 then State.reset.cycles else s.cycles,
    latches := if m.testBit 3 then State.reset.latches else s.latches,
    node := if m.testBit 4 then State.reset.node else s.node,
    sup := if m.testBit 5 then State.reset.sup else s.sup,
    col := if m.testBit 6 then State.reset.col else s.col,
    ic := if m.testBit 7 then State.reset.ic else s.ic,
    hrt := if m.testBit 8 then State.reset.hrt else s.hrt,
    emb := if m.testBit 9 then State.reset.emb else s.emb,
    spm := if m.testBit 10 then State.reset.spm else s.spm,
    gsr := if m.testBit 11 then State.reset.gsr else s.gsr,
    rep := if m.testBit 12 then State.reset.rep else s.rep,
    chan := if m.testBit 13 then State.reset.chan else s.chan,
    grp := if m.testBit 14 then State.reset.grp else s.grp,
    whl := if m.testBit 15 then State.reset.whl else s.whl,
    ph := if m.testBit 16 then State.reset.ph else s.ph,
    bar := if m.testBit 17 then State.reset.bar else s.bar,
    mfe := if m.testBit 18 then State.reset.mfe else s.mfe,
    tim := if m.testBit 19 then State.reset.tim else s.tim,
    tsi := if m.testBit 20 then State.reset.tsi else s.tsi,
    flue := if m.testBit 21 then State.reset.flue else s.flue,
    ring := if m.testBit 22 then State.reset.ring else s.ring,
    plug := if m.testBit 23 then State.reset.plug else s.plug,
    work := if m.testBit 24 then State.reset.work else s.work,
    dist := if m.testBit 25 then State.reset.dist else s.dist,
    free := if m.testBit 26 then State.reset.free else s.free,
    pending := if m.testBit 27 then State.reset.pending else s.pending }
theorem hide_congr {s t : State} (m : Nat) (h0 : m.testBit 0 = false → t.regs = s.regs) (h1 : m.testBit 1 = false
    → t.now = s.now) (h2 : m.testBit 2 = false → t.cycles = s.cycles) (h3 : m.testBit 3 = false → t.latches = s.latches)
    (h4 : m.testBit 4 = false → t.node = s.node) (h5 : m.testBit 5 = false → t.sup = s.sup) (h6 : m.testBit 6 = false
    → t.col = s.col) (h7 : m.testBit 7 = false → t.ic = s.ic) (h8 : m.testBit 8 = false → t.hrt = s.hrt) (h9 :
    m.testBit 9 = false → t.emb = s.emb) (h10 : m.testBit 10 = false → t.spm = s.spm) (h11 : m.testBit 11 = false
    → t.gsr = s.gsr) (h12 : m.testBit 12 = false → t.rep = s.rep) (h13 : m.testBit 13 = false → t.chan = s.chan) (h14 :
    m.testBit 14 = false → t.grp = s.grp) (h15 : m.testBit 15 = false → t.whl = s.whl) (h16 : m.testBit 16 = false
    → t.ph = s.ph) (h17 : m.testBit 17 = false → t.bar = s.bar) (h18 : m.testBit 18 = false → t.mfe = s.mfe) (h19 :
    m.testBit 19 = false → t.tim = s.tim) (h20 : m.testBit 20 = false → t.tsi = s.tsi) (h21 : m.testBit 21 = false
    → t.flue = s.flue) (h22 : m.testBit 22 = false → t.ring = s.ring) (h23 : m.testBit 23 = false → t.plug = s.plug) (h24 :
    m.testBit 24 = false → t.work = s.work) (h25 : m.testBit 25 = false → t.dist = s.dist) (h26 : m.testBit 26 = false
    → t.free = s.free) (h27 : m.testBit 27 = false → t.pending = s.pending) : t.hide m = s.hide m := by
  unfold State.hide
  congr 1
  · cases hb : m.testBit 0 <;> simp [h0, hb]
  · cases hb : m.testBit 1 <;> simp [h1, hb]
  · cases hb : m.testBit 2 <;> simp [h2, hb]
  · cases hb : m.testBit 3 <;> simp [h3, hb]
  · cases hb : m.testBit 4 <;> simp [h4, hb]
  · cases hb : m.testBit 5 <;> simp [h5, hb]
  · cases hb : m.testBit 6 <;> simp [h6, hb]
  · cases hb : m.testBit 7 <;> simp [h7, hb]
  · cases hb : m.testBit 8 <;> simp [h8, hb]
  · cases hb : m.testBit 9 <;> simp [h9, hb]
  · cases hb : m.testBit 10 <;> simp [h10, hb]
  · cases hb : m.testBit 11 <;> simp [h11, hb]
  · cases hb : m.testBit 12 <;> simp [h12, hb]
  · cases hb : m.testBit 13 <;> simp [h13, hb]
  · cases hb : m.testBit 14 <;> simp [h14, hb]
  · cases hb : m.testBit 15 <;> simp [h15, hb]
  · cases hb : m.testBit 16 <;> simp [h16, hb]
  · cases hb : m.testBit 17 <;> simp [h17, hb]
  · cases hb : m.testBit 18 <;> simp [h18, hb]
  · cases hb : m.testBit 19 <;> simp [h19, hb]
  · cases hb : m.testBit 20 <;> simp [h20, hb]
  · cases hb : m.testBit 21 <;> simp [h21, hb]
  · cases hb : m.testBit 22 <;> simp [h22, hb]
  · cases hb : m.testBit 23 <;> simp [h23, hb]
  · cases hb : m.testBit 24 <;> simp [h24, hb]
  · cases hb : m.testBit 25 <;> simp [h25, hb]
  · cases hb : m.testBit 26 <;> simp [h26, hb]
  · cases hb : m.testBit 27 <;> simp [h27, hb]
theorem hide_parts {s t : State} {m : Nat} (h : t.hide m = s.hide m) : (m.testBit 0 = false → t.regs = s.regs) ∧
    (m.testBit 1 = false → t.now = s.now) ∧ (m.testBit 2 = false → t.cycles = s.cycles) ∧ (m.testBit 3 = false
    → t.latches = s.latches) ∧ (m.testBit 4 = false → t.node = s.node) ∧ (m.testBit 5 = false → t.sup = s.sup) ∧
    (m.testBit 6 = false → t.col = s.col) ∧ (m.testBit 7 = false → t.ic = s.ic) ∧ (m.testBit 8 = false → t.hrt = s.hrt) ∧
    (m.testBit 9 = false → t.emb = s.emb) ∧ (m.testBit 10 = false → t.spm = s.spm) ∧ (m.testBit 11 = false
    → t.gsr = s.gsr) ∧ (m.testBit 12 = false → t.rep = s.rep) ∧ (m.testBit 13 = false → t.chan = s.chan) ∧
    (m.testBit 14 = false → t.grp = s.grp) ∧ (m.testBit 15 = false → t.whl = s.whl) ∧ (m.testBit 16 = false
    → t.ph = s.ph) ∧ (m.testBit 17 = false → t.bar = s.bar) ∧ (m.testBit 18 = false → t.mfe = s.mfe) ∧
    (m.testBit 19 = false → t.tim = s.tim) ∧ (m.testBit 20 = false → t.tsi = s.tsi) ∧ (m.testBit 21 = false
    → t.flue = s.flue) ∧ (m.testBit 22 = false → t.ring = s.ring) ∧ (m.testBit 23 = false → t.plug = s.plug) ∧
    (m.testBit 24 = false → t.work = s.work) ∧ (m.testBit 25 = false → t.dist = s.dist) ∧ (m.testBit 26 = false
    → t.free = s.free) ∧ (m.testBit 27 = false → t.pending = s.pending) := by
  unfold State.hide at h
  injection h with h0 h1 h2 h3 h4 h5 h6 h7 h8 h9 h10 h11 h12 h13 h14 h15 h16 h17 h18 h19 h20 h21 h22 h23 h24 h25 h26 h27
  refine ⟨?_, ?_, ?_, ?_, ?_, ?_, ?_, ?_, ?_, ?_, ?_, ?_, ?_, ?_, ?_, ?_, ?_, ?_, ?_, ?_, ?_, ?_, ?_, ?_, ?_, ?_, ?_, ?_⟩ <;> intro hb
  · simpa [hb] using h0
  · simpa [hb] using h1
  · simpa [hb] using h2
  · simpa [hb] using h3
  · simpa [hb] using h4
  · simpa [hb] using h5
  · simpa [hb] using h6
  · simpa [hb] using h7
  · simpa [hb] using h8
  · simpa [hb] using h9
  · simpa [hb] using h10
  · simpa [hb] using h11
  · simpa [hb] using h12
  · simpa [hb] using h13
  · simpa [hb] using h14
  · simpa [hb] using h15
  · simpa [hb] using h16
  · simpa [hb] using h17
  · simpa [hb] using h18
  · simpa [hb] using h19
  · simpa [hb] using h20
  · simpa [hb] using h21
  · simpa [hb] using h22
  · simpa [hb] using h23
  · simpa [hb] using h24
  · simpa [hb] using h25
  · simpa [hb] using h26
  · simpa [hb] using h27
theorem hide_mono {s t : State} {m k : Nat} (hm : m &&& k = k) (h : t.hide k = s.hide k) : t.hide m = s.hide m := by
  have hk : ∀ i, m.testBit i = false → k.testBit i = false := by
    intro i hi
    have := congrArg (fun x => x.testBit i) hm
    simp only [Nat.testBit_and, hi, Bool.false_and] at this
    exact this.symm
  have hp := hide_parts h
  apply hide_congr
  · exact fun hb => hp.1 (hk _ hb)
  · exact fun hb => hp.2.1 (hk _ hb)
  · exact fun hb => hp.2.2.1 (hk _ hb)
  · exact fun hb => hp.2.2.2.1 (hk _ hb)
  · exact fun hb => hp.2.2.2.2.1 (hk _ hb)
  · exact fun hb => hp.2.2.2.2.2.1 (hk _ hb)
  · exact fun hb => hp.2.2.2.2.2.2.1 (hk _ hb)
  · exact fun hb => hp.2.2.2.2.2.2.2.1 (hk _ hb)
  · exact fun hb => hp.2.2.2.2.2.2.2.2.1 (hk _ hb)
  · exact fun hb => hp.2.2.2.2.2.2.2.2.2.1 (hk _ hb)
  · exact fun hb => hp.2.2.2.2.2.2.2.2.2.2.1 (hk _ hb)
  · exact fun hb => hp.2.2.2.2.2.2.2.2.2.2.2.1 (hk _ hb)
  · exact fun hb => hp.2.2.2.2.2.2.2.2.2.2.2.2.1 (hk _ hb)
  · exact fun hb => hp.2.2.2.2.2.2.2.2.2.2.2.2.2.1 (hk _ hb)
  · exact fun hb => hp.2.2.2.2.2.2.2.2.2.2.2.2.2.2.1 (hk _ hb)
  · exact fun hb => hp.2.2.2.2.2.2.2.2.2.2.2.2.2.2.2.1 (hk _ hb)
  · exact fun hb => hp.2.2.2.2.2.2.2.2.2.2.2.2.2.2.2.2.1 (hk _ hb)
  · exact fun hb => hp.2.2.2.2.2.2.2.2.2.2.2.2.2.2.2.2.2.1 (hk _ hb)
  · exact fun hb => hp.2.2.2.2.2.2.2.2.2.2.2.2.2.2.2.2.2.2.1 (hk _ hb)
  · exact fun hb => hp.2.2.2.2.2.2.2.2.2.2.2.2.2.2.2.2.2.2.2.1 (hk _ hb)
  · exact fun hb => hp.2.2.2.2.2.2.2.2.2.2.2.2.2.2.2.2.2.2.2.2.1 (hk _ hb)
  · exact fun hb => hp.2.2.2.2.2.2.2.2.2.2.2.2.2.2.2.2.2.2.2.2.2.1 (hk _ hb)
  · exact fun hb => hp.2.2.2.2.2.2.2.2.2.2.2.2.2.2.2.2.2.2.2.2.2.2.1 (hk _ hb)
  · exact fun hb => hp.2.2.2.2.2.2.2.2.2.2.2.2.2.2.2.2.2.2.2.2.2.2.2.1 (hk _ hb)
  · exact fun hb => hp.2.2.2.2.2.2.2.2.2.2.2.2.2.2.2.2.2.2.2.2.2.2.2.2.1 (hk _ hb)
  · exact fun hb => hp.2.2.2.2.2.2.2.2.2.2.2.2.2.2.2.2.2.2.2.2.2.2.2.2.2.1 (hk _ hb)
  · exact fun hb => hp.2.2.2.2.2.2.2.2.2.2.2.2.2.2.2.2.2.2.2.2.2.2.2.2.2.2.1 (hk _ hb)
  · exact fun hb => hp.2.2.2.2.2.2.2.2.2.2.2.2.2.2.2.2.2.2.2.2.2.2.2.2.2.2.2 (hk _ hb)
@[simp] theorem hide_regs (s : State) (v) (m : Nat) (h : m &&& 1 = 1) : ({ s with regs := v } :
    State).hide m = s.hide m := by
  refine hide_mono h ?_; apply hide_congr <;> intro hb <;> first | rfl | exact absurd hb (by decide)
@[simp] theorem hide_now (s : State) (v) (m : Nat) (h : m &&& 2 = 2) : ({ s with now := v } : State).hide m = s.hide m := by
  refine hide_mono h ?_; apply hide_congr <;> intro hb <;> first | rfl | exact absurd hb (by decide)
@[simp] theorem hide_cycles (s : State) (v) (m : Nat) (h : m &&& 4 = 4) : ({ s with cycles := v } :
    State).hide m = s.hide m := by
  refine hide_mono h ?_; apply hide_congr <;> intro hb <;> first | rfl | exact absurd hb (by decide)
@[simp] theorem hide_latches (s : State) (v) (m : Nat) (h : m &&& 8 = 8) : ({ s with latches := v } :
    State).hide m = s.hide m := by
  refine hide_mono h ?_; apply hide_congr <;> intro hb <;> first | rfl | exact absurd hb (by decide)
@[simp] theorem hide_node (s : State) (v) (m : Nat) (h : m &&& 16 = 16) : ({ s with node := v } :
    State).hide m = s.hide m := by
  refine hide_mono h ?_; apply hide_congr <;> intro hb <;> first | rfl | exact absurd hb (by decide)
@[simp] theorem hide_sup (s : State) (v) (m : Nat) (h : m &&& 32 = 32) : ({ s with sup := v } :
    State).hide m = s.hide m := by
  refine hide_mono h ?_; apply hide_congr <;> intro hb <;> first | rfl | exact absurd hb (by decide)
@[simp] theorem hide_col (s : State) (v) (m : Nat) (h : m &&& 64 = 64) : ({ s with col := v } :
    State).hide m = s.hide m := by
  refine hide_mono h ?_; apply hide_congr <;> intro hb <;> first | rfl | exact absurd hb (by decide)
@[simp] theorem hide_ic (s : State) (v) (m : Nat) (h : m &&& 128 = 128) : ({ s with ic := v } :
    State).hide m = s.hide m := by
  refine hide_mono h ?_; apply hide_congr <;> intro hb <;> first | rfl | exact absurd hb (by decide)
@[simp] theorem hide_hrt (s : State) (v) (m : Nat) (h : m &&& 256 = 256) : ({ s with hrt := v } :
    State).hide m = s.hide m := by
  refine hide_mono h ?_; apply hide_congr <;> intro hb <;> first | rfl | exact absurd hb (by decide)
@[simp] theorem hide_emb (s : State) (v) (m : Nat) (h : m &&& 512 = 512) : ({ s with emb := v } :
    State).hide m = s.hide m := by
  refine hide_mono h ?_; apply hide_congr <;> intro hb <;> first | rfl | exact absurd hb (by decide)
@[simp] theorem hide_spm (s : State) (v) (m : Nat) (h : m &&& 1024 = 1024) : ({ s with spm := v } :
    State).hide m = s.hide m := by
  refine hide_mono h ?_; apply hide_congr <;> intro hb <;> first | rfl | exact absurd hb (by decide)
@[simp] theorem hide_gsr (s : State) (v) (m : Nat) (h : m &&& 2048 = 2048) : ({ s with gsr := v } :
    State).hide m = s.hide m := by
  refine hide_mono h ?_; apply hide_congr <;> intro hb <;> first | rfl | exact absurd hb (by decide)
@[simp] theorem hide_rep (s : State) (v) (m : Nat) (h : m &&& 4096 = 4096) : ({ s with rep := v } :
    State).hide m = s.hide m := by
  refine hide_mono h ?_; apply hide_congr <;> intro hb <;> first | rfl | exact absurd hb (by decide)
@[simp] theorem hide_chan (s : State) (v) (m : Nat) (h : m &&& 8192 = 8192) : ({ s with chan := v } :
    State).hide m = s.hide m := by
  refine hide_mono h ?_; apply hide_congr <;> intro hb <;> first | rfl | exact absurd hb (by decide)
@[simp] theorem hide_grp (s : State) (v) (m : Nat) (h : m &&& 16384 = 16384) : ({ s with grp := v } :
    State).hide m = s.hide m := by
  refine hide_mono h ?_; apply hide_congr <;> intro hb <;> first | rfl | exact absurd hb (by decide)
@[simp] theorem hide_whl (s : State) (v) (m : Nat) (h : m &&& 32768 = 32768) : ({ s with whl := v } :
    State).hide m = s.hide m := by
  refine hide_mono h ?_; apply hide_congr <;> intro hb <;> first | rfl | exact absurd hb (by decide)
@[simp] theorem hide_ph (s : State) (v) (m : Nat) (h : m &&& 65536 = 65536) : ({ s with ph := v } :
    State).hide m = s.hide m := by
  refine hide_mono h ?_; apply hide_congr <;> intro hb <;> first | rfl | exact absurd hb (by decide)
@[simp] theorem hide_bar (s : State) (v) (m : Nat) (h : m &&& 131072 = 131072) : ({ s with bar := v } :
    State).hide m = s.hide m := by
  refine hide_mono h ?_; apply hide_congr <;> intro hb <;> first | rfl | exact absurd hb (by decide)
@[simp] theorem hide_mfe (s : State) (v) (m : Nat) (h : m &&& 262144 = 262144) : ({ s with mfe := v } :
    State).hide m = s.hide m := by
  refine hide_mono h ?_; apply hide_congr <;> intro hb <;> first | rfl | exact absurd hb (by decide)
@[simp] theorem hide_tim (s : State) (v) (m : Nat) (h : m &&& 524288 = 524288) : ({ s with tim := v } :
    State).hide m = s.hide m := by
  refine hide_mono h ?_; apply hide_congr <;> intro hb <;> first | rfl | exact absurd hb (by decide)
@[simp] theorem hide_tsi (s : State) (v) (m : Nat) (h : m &&& 1048576 = 1048576) : ({ s with tsi := v } :
    State).hide m = s.hide m := by
  refine hide_mono h ?_; apply hide_congr <;> intro hb <;> first | rfl | exact absurd hb (by decide)
@[simp] theorem hide_flue (s : State) (v) (m : Nat) (h : m &&& 2097152 = 2097152) : ({ s with flue := v } :
    State).hide m = s.hide m := by
  refine hide_mono h ?_; apply hide_congr <;> intro hb <;> first | rfl | exact absurd hb (by decide)
@[simp] theorem hide_ring (s : State) (v) (m : Nat) (h : m &&& 4194304 = 4194304) : ({ s with ring := v } :
    State).hide m = s.hide m := by
  refine hide_mono h ?_; apply hide_congr <;> intro hb <;> first | rfl | exact absurd hb (by decide)
@[simp] theorem hide_plug (s : State) (v) (m : Nat) (h : m &&& 8388608 = 8388608) : ({ s with plug := v } :
    State).hide m = s.hide m := by
  refine hide_mono h ?_; apply hide_congr <;> intro hb <;> first | rfl | exact absurd hb (by decide)
@[simp] theorem hide_work (s : State) (v) (m : Nat) (h : m &&& 16777216 = 16777216) : ({ s with work := v } :
    State).hide m = s.hide m := by
  refine hide_mono h ?_; apply hide_congr <;> intro hb <;> first | rfl | exact absurd hb (by decide)
@[simp] theorem hide_dist (s : State) (v) (m : Nat) (h : m &&& 33554432 = 33554432) : ({ s with dist := v } :
    State).hide m = s.hide m := by
  refine hide_mono h ?_; apply hide_congr <;> intro hb <;> first | rfl | exact absurd hb (by decide)
@[simp] theorem hide_free (s : State) (v) (m : Nat) (h : m &&& 67108864 = 67108864) : ({ s with free := v } :
    State).hide m = s.hide m := by
  refine hide_mono h ?_; apply hide_congr <;> intro hb <;> first | rfl | exact absurd hb (by decide)
@[simp] theorem hide_pending (s : State) (v) (m : Nat) (h : m &&& 134217728 = 134217728) : ({ s with pending := v } :
    State).hide m = s.hide m := by
  refine hide_mono h ?_; apply hide_congr <;> intro hb <;> first | rfl | exact absurd hb (by decide)
@[simp] theorem hide_hrt_emb (s : State) (vhrt) (vemb) (m : Nat) (h : m &&& 768 = 768) :
    ({ s with hrt := vhrt, emb := vemb } : State).hide m = s.hide m := by
  refine hide_mono h ?_; apply hide_congr <;> intro hb <;> first | rfl | exact absurd hb (by decide)
@[simp] theorem hide_now_node (s : State) (vnow) (vnode) (m : Nat) (h : m &&& 18 = 18) :
    ({ s with now := vnow, node := vnode } : State).hide m = s.hide m := by
  refine hide_mono h ?_; apply hide_congr <;> intro hb <;> first | rfl | exact absurd hb (by decide)
@[simp] theorem hide_spm_free (s : State) (vspm) (vfree) (m : Nat) (h : m &&& 67109888 = 67109888) :
    ({ s with spm := vspm, free := vfree } : State).hide m = s.hide m := by
  refine hide_mono h ?_; apply hide_congr <;> intro hb <;> first | rfl | exact absurd hb (by decide)
theorem mask_sub {m k : Nat} (h : m &&& k = k) (j : Nat) (hj : k &&& j = j) : m &&& j = j := by
  rw [← hj, ← Nat.and_assoc, h]
@[simp] theorem ite_hide {c : Prop} [Decidable c] (a b : State) (m : Nat) :
    (if c then a else b).hide m = if c then a.hide m else b.hide m := apply_ite (fun s : State => s.hide m) _ _ _
@[simp] theorem State.each_hide {α : Type} (l : List α) (f : α → State → State) (s : State) (m : Nat) (h : ∀ a s,
    (f a s).hide m = s.hide m) : (s.each l f).hide m = s.hide m := by
  unfold State.each
  induction l generalizing s with
  | nil => rfl
  | cons a l ih => rw [List.foldl_cons, ih, h]
@[simp] theorem State.when_hide (c : Bool) (f : State → State) (s : State) (m : Nat) (h : ∀ s, (f s).hide m = s.hide m) :
    (s.when c f).hide m = s.hide m := by
  unfold State.when; split <;> simp [h]
@[simp] theorem State.foldl_hide {α : Type} (l : List α) (f : State → α → State) (s : State) (m : Nat) (h : ∀ s a,
    (f s a).hide m = s.hide m) : (l.foldl f s).hide m = s.hide m := by
  induction l generalizing s with
  | nil => rfl
  | cons a l ih => rw [List.foldl_cons, ih, h]
@[simp] theorem ite_fst_ {α β : Type} {c : Prop} [Decidable c] (a b : α × β) :
    (if c then a else b).1 = if c then a.1 else b.1 := apply_ite _ _ _ _
@[simp] theorem ite_snd_ {α β : Type} {c : Prop} [Decidable c] (a b : α × β) :
    (if c then a else b).2 = if c then a.2 else b.2 := apply_ite _ _ _ _
@[simp] theorem actWhen_next (c : Bool) (f : State → State) (s t : State) : actWhen c f s = .next t ↔
    (if c then f s else s) = t := by simp [actWhen]

end Sys2Proof.Machine

namespace Sys2Proof


/-- The bit of a part. -/
def Safety.Part.bit : Safety.Part → Nat
  | .regs => 0
  | .now => 1
  | .cycles => 2
  | .latches => 3
  | .node => 4
  | .sup => 5
  | .col => 6
  | .ic => 7
  | .hrt => 8
  | .emb => 9
  | .spm => 10
  | .gsr => 11
  | .rep => 12
  | .chan => 13
  | .grp => 14
  | .whl => 15
  | .ph => 16
  | .bar => 17
  | .mfe => 18
  | .tim => 19
  | .tsi => 20
  | .flue => 21
  | .ring => 22
  | .plug => 23
  | .work => 24
  | .dist => 25
  | .free => 26
  | .pending => 27

/-- The bits of the parts of a list. -/
def Safety.maskOf (l : List Safety.Part) : Nat := l.foldl (fun m p => m ||| 2 ^ p.bit) 0

theorem Safety.maskOf_testBit (l : List Safety.Part) (p : Safety.Part) (h : p ∉ l) : (Safety.maskOf l).testBit p.bit = false := by
  have inj : ∀ q : Safety.Part, q.bit = p.bit → q = p := by cases p <;> intro q <;> cases q <;> decide
  have gen : ∀ (l : List Safety.Part) (m : Nat), p ∉ l → m.testBit p.bit = false →
      (l.foldl (fun m p => m ||| 2 ^ p.bit) m).testBit p.bit = false := by
    intro l
    induction l with
    | nil => intro m _ hm; exact hm
    | cons q l ih =>
      intro m hl hm
      rw [List.foldl_cons]
      apply ih _ (fun h => hl (List.mem_cons_of_mem _ h))
      rw [Nat.testBit_or, hm, Nat.testBit_two_pow, Bool.false_or, decide_eq_false_iff_not]
      intro h
      exact hl (inj q h ▸ List.mem_cons_self ..)
  exact gen l 0 h (Nat.zero_testBit _)

/-- A state that agrees outside the bits `k` differs at most in the parts that hold them. -/
theorem Safety.only_of_hide {s t : Machine.State} {k : Nat} {l : List Safety.Part} (hl : Safety.maskOf l &&& k = k)
    (h : t.hide k = s.hide k) : Safety.only l s t := by
  have hp := Machine.hide_parts (Machine.hide_mono hl h)
  intro p hn
  have hb := Safety.maskOf_testBit l p hn
  cases p <;> simp only [Safety.Part.bit] at hb <;> simp only [Safety.same]
  · exact hp.1 hb
  · exact hp.2.1 hb
  · exact hp.2.2.1 hb
  · exact hp.2.2.2.1 hb
  · exact hp.2.2.2.2.1 hb
  · exact hp.2.2.2.2.2.1 hb
  · exact hp.2.2.2.2.2.2.1 hb
  · exact hp.2.2.2.2.2.2.2.1 hb
  · exact hp.2.2.2.2.2.2.2.2.1 hb
  · exact hp.2.2.2.2.2.2.2.2.2.1 hb
  · exact hp.2.2.2.2.2.2.2.2.2.2.1 hb
  · exact hp.2.2.2.2.2.2.2.2.2.2.2.1 hb
  · exact hp.2.2.2.2.2.2.2.2.2.2.2.2.1 hb
  · exact hp.2.2.2.2.2.2.2.2.2.2.2.2.2.1 hb
  · exact hp.2.2.2.2.2.2.2.2.2.2.2.2.2.2.1 hb
  · exact hp.2.2.2.2.2.2.2.2.2.2.2.2.2.2.2.1 hb
  · exact hp.2.2.2.2.2.2.2.2.2.2.2.2.2.2.2.2.1 hb
  · exact hp.2.2.2.2.2.2.2.2.2.2.2.2.2.2.2.2.2.1 hb
  · exact hp.2.2.2.2.2.2.2.2.2.2.2.2.2.2.2.2.2.2.1 hb
  · exact hp.2.2.2.2.2.2.2.2.2.2.2.2.2.2.2.2.2.2.2.1 hb
  · exact hp.2.2.2.2.2.2.2.2.2.2.2.2.2.2.2.2.2.2.2.2.1 hb
  · exact hp.2.2.2.2.2.2.2.2.2.2.2.2.2.2.2.2.2.2.2.2.2.1 hb
  · exact hp.2.2.2.2.2.2.2.2.2.2.2.2.2.2.2.2.2.2.2.2.2.2.1 hb
  · exact hp.2.2.2.2.2.2.2.2.2.2.2.2.2.2.2.2.2.2.2.2.2.2.2.1 hb
  · exact hp.2.2.2.2.2.2.2.2.2.2.2.2.2.2.2.2.2.2.2.2.2.2.2.2.1 hb
  · exact hp.2.2.2.2.2.2.2.2.2.2.2.2.2.2.2.2.2.2.2.2.2.2.2.2.2.1 hb
  · exact hp.2.2.2.2.2.2.2.2.2.2.2.2.2.2.2.2.2.2.2.2.2.2.2.2.2.2.1 hb
  · exact hp.2.2.2.2.2.2.2.2.2.2.2.2.2.2.2.2.2.2.2.2.2.2.2.2.2.2.2 hb

end Sys2Proof
end

