-- ==== Sys2Proof/Laws/FrameOps.lean ====
section
/-! SUPPORT. The frame of each operation and command. The operations every unit uses, faults, scratchpad, Geyser, interrupts and Hearth. -/

set_option maxRecDepth 100000
set_option linter.all false

namespace Sys2Proof.Machine

/-! ## Ops -/

@[simp] theorem State.put_hide (f : Field) (v : Nat) (s : State) (m_ : Nat) (h_ : m_ &&& 1 = 1) : (State.put f v s).hide m_ = s.hide m_ := by
  refine hide_mono h_ ?_
  simp [State.put]
@[simp] theorem State.putBit_hide (f : Field) (b : Bool) (s : State) (m_ : Nat) (h_ : m_ &&& 1 = 1) : (State.putBit f b s).hide m_ = s.hide m_ := by
  refine hide_mono h_ ?_
  simp [State.putBit]
@[simp] theorem State.putReg_hide (a : Nat) (w : Word) (s : State) (m_ : Nat) (h_ : m_ &&& 1 = 1) : (State.putReg a w s).hide m_ = s.hide m_ := by
  refine hide_mono h_ ?_
  simp [State.putReg]
@[simp] theorem State.count_hide (f : Field) (n : Nat) (s : State) (m_ : Nat) (h_ : m_ &&& 1 = 1) : (State.count f n s).hide m_ = s.hide m_ := by
  refine hide_mono h_ ?_
  simp [State.count]
@[simp] theorem State.wrap_hide (f : Field) (n : Nat) (s : State) (m_ : Nat) (h_ : m_ &&& 1 = 1) : (State.wrap f n s).hide m_ = s.hide m_ := by
  refine hide_mono h_ ?_
  simp [State.wrap]
@[simp] theorem State.setBitOf_hide (f : Field) (b : Nat) (s : State) (m_ : Nat) (h_ : m_ &&& 1 = 1) : (State.setBitOf f b s).hide m_ = s.hide m_ := by
  refine hide_mono h_ ?_
  simp [State.setBitOf]
@[simp] theorem State.strobe_hide (src : Nat) (s : State) (m_ : Nat) (h_ : m_ &&& 129 = 129) : (State.strobe src s).hide m_ = s.hide m_ := by
  refine hide_mono h_ ?_
  simp [State.strobe]
@[simp] theorem State.interrupt_hide (src : Nat) (s : State) (m_ : Nat) (h_ : m_ &&& 129 = 129) : (State.interrupt src s).hide m_ = s.hide m_ := by
  refine hide_mono h_ ?_
  simp [State.interrupt]
@[simp] theorem State.event_hide (ev ien : Field) (b src : Nat) (s : State) (m_ : Nat) (h_ : m_ &&& 129 = 129) : (State.event ev ien b src s).hide m_ = s.hide m_ := by
  refine hide_mono h_ ?_
  simp [State.event]
@[simp] theorem State.eventBit_hide (ev ien : Field) (b src : Nat) (s : State) (m_ : Nat) (h_ : m_ &&& 129 = 129) : (State.eventBit ev ien b src s).hide m_ = s.hide m_ := by
  refine hide_mono h_ ?_
  simp [State.eventBit]
@[simp] theorem State.sendRecord_hide (r : FaultRec) (s : State) (m_ : Nat) (h_ : m_ &&& 65 = 65) : (State.sendRecord r s).hide m_ = s.hide m_ := by
  refine hide_mono h_ ?_
  simp [State.sendRecord]
@[simp] theorem State.raise_hide (f : FaultSpec) (s : State) (m_ : Nat) (h_ : m_ &&& 65 = 65) : (State.raise f s).hide m_ = s.hide m_ := by
  refine hide_mono h_ ?_
  simp [State.raise]
@[simp] theorem State.admitReports_hide (s : State) (m_ : Nat) (h_ : m_ &&& 4096 = 4096) : (State.admitReports s).hide m_ = s.hide m_ := by
  refine hide_mono h_ ?_
  simp [State.admitReports]
@[simp] theorem State.queueReport_hide (r : Report) (s : State) (m_ : Nat) (h_ : m_ &&& 4096 = 4096) : (State.queueReport r s).hide m_ = s.hide m_ := by
  refine hide_mono h_ ?_
  simp [State.queueReport]
@[simp] theorem State.draw_hide (s : State) (m_ : Nat) (h_ : m_ &&& 67108864 = 67108864) : (State.draw s).2.hide m_ = s.hide m_ := by
  refine hide_mono h_ ?_
  simp [State.draw]
@[simp] theorem writePlain_hide (fs : List Field) (v : Word) (s : State) (m_ : Nat) (h_ : m_ &&& 1 = 1) : (writePlain fs v s).hide m_ = s.hide m_ := by
  refine hide_mono h_ ?_
  unfold writePlain
  try dsimp only
  repeat' (first | (simp; done) | rw [State.each_hide] | rw [State.when_hide] | rw [State.foldl_hide] | (intro _ _; try dsimp only) | (intro _; try dsimp only) | split)

/-! ## Faults -/

@[simp] theorem State.injectDone_hide (s : State) (m_ : Nat) (h_ : m_ &&& 1 = 1) : (State.injectDone s).hide m_ = s.hide m_ := by
  refine hide_mono h_ ?_
  simp [State.injectDone]
@[simp] theorem State.inject_hide (c sel : Nat) (s : State) (m_ : Nat) (h_ : m_ &&& 1 = 1) : (State.inject c sel s).2.hide m_ = s.hide m_ := by
  refine hide_mono h_ ?_
  simp [State.inject]
@[simp] theorem writeInj_hide (v : Word) (s : State) (m_ : Nat) (h_ : m_ &&& 65 = 65) : (writeInj v s).hide m_ = s.hide m_ := by
  refine hide_mono h_ ?_
  simp [writeInj]
@[simp] theorem State.logRecord_hide (r : FaultRec) (s : State) (m_ : Nat) (h_ : m_ &&& 65 = 65) : (State.logRecord r s).hide m_ = s.hide m_ := by
  refine hide_mono h_ ?_
  simp [State.logRecord]
@[simp] theorem State.captureFirst_hide (r : FaultRec) (s : State) (m_ : Nat) (h_ : m_ &&& 65 = 65) : (State.captureFirst r s).hide m_ = s.hide m_ := by
  refine hide_mono h_ ?_
  simp [State.captureFirst]
@[simp] theorem State.takeCause_hide (r : FaultRec) (s : State) (m_ : Nat) (h_ : m_ &&& 64 = 64) : (State.takeCause r s).hide m_ = s.hide m_ := by
  refine hide_mono h_ ?_
  unfold State.takeCause
  dsimp only
  repeat' split
  all_goals simp
@[simp] theorem State.reportFault_hide (r : FaultRec) (s : State) (m_ : Nat) (h_ : m_ &&& 4289 = 4289) : (State.reportFault r s).hide m_ = s.hide m_ := by
  refine hide_mono h_ ?_
  simp [State.reportFault]
@[simp] theorem State.escalate_hide (r : FaultRec) (s : State) (m_ : Nat) (h_ : m_ &&& 4289 = 4289) : (State.escalate r s).hide m_ = s.hide m_ := by
  refine hide_mono h_ ?_
  simp [State.escalate]
@[simp] theorem State.pendFault_hide (r : FaultRec) (s : State) (m_ : Nat) (h_ : m_ &&& 4289 = 4289) : (State.pendFault r s).hide m_ = s.hide m_ := by
  refine hide_mono h_ ?_
  unfold State.pendFault
  dsimp only
  repeat' split
  all_goals simp
@[simp] theorem State.stickyFault_hide (r : FaultRec) (s : State) (m_ : Nat) (h_ : m_ &&& 65 = 65) : (State.stickyFault r s).hide m_ = s.hide m_ := by
  refine hide_mono h_ ?_
  simp [State.stickyFault]
@[simp] theorem State.acceptRecord_hide (r : FaultRec) (s : State) (m_ : Nat) (h_ : m_ &&& 4289 = 4289) : (State.acceptRecord r s).hide m_ = s.hide m_ := by
  refine hide_mono h_ ?_
  simp [State.acceptRecord]
@[simp] theorem State.acceptNext_hide (s : State) (m_ : Nat) (h_ : m_ &&& 4289 = 4289) : (State.acceptNext s).hide m_ = s.hide m_ := by
  refine hide_mono h_ ?_
  unfold State.acceptNext
  dsimp only
  repeat' split
  all_goals simp
theorem execFaultMessage_hide (s : State) : ∀ u_, execFaultMessage s = .next u_ → u_.hide 4289 = s.hide 4289 := by
  intro u_ h
  simp only [execFaultMessage, actWhen_next] at h
  subst h
  simp
theorem execWarned_hide (i : Fin 8) (s : State) : ∀ u_, execWarned i s = .next u_ → u_.hide 193 = s.hide 193 := by
  intro u_ h
  simp only [execWarned, actWhen_next] at h
  subst h
  repeat' split
  all_goals simp
theorem execEscalation_hide (i : Fin 8) (s : State) : ∀ u_, execEscalation i s = .next u_ → u_.hide 4289 = s.hide 4289 := by
  intro u_ h
  simp only [execEscalation, actWhen_next] at h
  subst h
  repeat' split
  all_goals simp
@[simp] theorem writeAck_hide (v : Word) (s : State) (m_ : Nat) (h_ : m_ &&& 65 = 65) : (writeAck v s).hide m_ = s.hide m_ := by
  refine hide_mono h_ ?_
  unfold writeAck
  dsimp only
  repeat' split
  all_goals simp
theorem execAck_hide (v : Word) (s : State) : ∀ u_, execAck v s = .next u_ → u_.hide 65 = s.hide 65 := by
  intro u_ h
  simp only [execAck, actWhen_next] at h
  subst h
  simp
@[simp] theorem writeFltCtl_hide (v : Word) (s : State) (m_ : Nat) (h_ : m_ &&& 1 = 1) : (writeFltCtl v s).hide m_ = s.hide m_ := by
  refine hide_mono h_ ?_
  simp [writeFltCtl]
theorem execClearFirst_hide (s : State) : ∀ u_, execClearFirst s = .next u_ → u_.hide 1 = s.hide 1 := by
  intro u_ h
  simp only [execClearFirst, actWhen_next] at h
  subst h
  simp
theorem execPulseEnd_hide (s : State) : ∀ u_, execPulseEnd s = .next u_ → u_.hide 64 = s.hide 64 := by
  intro u_ h
  simp only [execPulseEnd, actWhen_next] at h
  subst h
  simp
theorem execArm_hide (v : Word) (s : State) : ∀ u_, execArm v s = .next u_ → u_.hide 65 = s.hide 65 := by
  intro u_ h
  simp only [execArm, actWhen_next] at h
  subst h
  simp
theorem execSelfParity_hide (off : BitVec 16) (s : State) : ∀ u_, execSelfParity off s = .next u_ → u_.hide 65 = s.hide 65 := by
  intro u_ h
  simp only [execSelfParity, actWhen_next] at h
  subst h
  simp

/-! ## Scratch -/

@[simp] theorem writeWinCtl_hide (w : Nat) (v : Word) (s : State) (m_ : Nat) (h_ : m_ &&& 1 = 1) : (writeWinCtl w v s).hide m_ = s.hide m_ := by
  refine hide_mono h_ ?_
  simp [writeWinCtl]
@[simp] theorem State.eccCheck_hide (wa : Nat) (s : State) (m_ : Nat) (h_ : m_ &&& 1 = 1) : (State.eccCheck wa s).2.2.hide m_ = s.hide m_ := by
  refine hide_mono h_ ?_
  simp [State.eccCheck]
@[simp] theorem State.spmFault_hide (kind : BitVec 5) (cls : BitVec 2) (reason : BitVec 8) (a m acc : Nat) (withAcc injected : Bool) (s : State) (m_ : Nat) (h_ : m_ &&& 65 = 65) : (State.spmFault kind cls reason a m acc withAcc injected s).hide m_ = s.hide m_ := by
  refine hide_mono h_ ?_
  simp [State.spmFault]
@[simp] theorem State.checkWord_hide (a m acc : Nat) (s : State) (m_ : Nat) (h_ : m_ &&& 1089 = 1089) : (State.checkWord a m acc s).2.hide m_ = s.hide m_ := by
  refine hide_mono h_ ?_
  simp [State.checkWord]
@[simp] theorem State.offAccess_hide (a m acc : Nat) (s : State) (m_ : Nat) (h_ : m_ &&& 65 = 65) : (State.offAccess a m acc s).hide m_ = s.hide m_ := by
  refine hide_mono h_ ?_
  simp [State.offAccess]
@[simp] theorem State.spmRead_hide (m a n : Nat) (s : State) (m_ : Nat) (h_ : m_ &&& 1089 = 1089) : (State.spmRead m a n s).2.2.hide m_ = s.hide m_ := by
  refine hide_mono h_ ?_
  simp [State.spmRead]
@[simp] theorem State.spmStore_hide (p : Nat) (bs : List Byte) (s : State) (m_ : Nat) (h_ : m_ &&& 1024 = 1024) : (State.spmStore p bs s).hide m_ = s.hide m_ := by
  refine hide_mono h_ ?_
  simp [State.spmStore]
@[simp] theorem State.spmWrite_hide (m a n v : Nat) (s : State) (m_ : Nat) (h_ : m_ &&& 1089 = 1089) : (State.spmWrite m a n v s).2.hide m_ = s.hide m_ := by
  refine hide_mono h_ ?_
  first
  | (simp [State.spmWrite]; done)
  | (unfold State.spmWrite; (try dsimp only); (repeat' (first | with_reducible rfl | (simp; done) | (rw [State.each_hide]) | (rw [State.when_hide]) | (rw [State.foldl_hide]) | (refine upRequest_hide _ _ _ _ (by decide) ?_) | (refine downRequest_hide _ _ _ _ (by decide) ?_) | (intro _ _; (try dsimp only)) | (intro _; (try dsimp only)) | split)) <;> first | with_reducible rfl | (simp [*]; done) | (apply hide_congr <;> intro hb <;> first | rfl | exact absurd hb (by decide)) | grind [State.checkWord_hide, State.offAccess_hide, State.spmStore_hide])
@[simp] theorem State.spmReadBlock_hide (m a : Nat) (x0 : Nat) (s : State) (m_ : Nat) (h_ : m_ &&& 1089 = 1089) : (State.spmReadBlock m a x0 s).2.2.hide m_ = s.hide m_ := by
  refine hide_mono h_ ?_
  clear h_
  induction x0 generalizing s m a  <;> first | with_reducible rfl | (simp [State.spmReadBlock]; done) | (simp [State.spmReadBlock, *]; done) | (unfold State.spmReadBlock; (try dsimp only); (repeat' (first | with_reducible rfl | (simp; done) | (rw [State.each_hide]) | (rw [State.when_hide]) | (rw [State.foldl_hide]) | (refine upRequest_hide _ _ _ _ (by decide) ?_) | (refine downRequest_hide _ _ _ _ (by decide) ?_) | (intro _ _; (try dsimp only)) | (intro _; (try dsimp only)) | split)) <;> first | with_reducible rfl | (simp [*]; done) | (apply hide_congr <;> intro hb <;> first | rfl | exact absurd hb (by decide)) | grind [State.spmRead_hide]) | grind [State.spmReadBlock, State.spmRead_hide]
@[simp] theorem State.spmWriteBlock_hide (m a : Nat) (x0 : List (List Byte)) (s : State) (m_ : Nat) (h_ : m_ &&& 1089 = 1089) : (State.spmWriteBlock m a x0 s).2.hide m_ = s.hide m_ := by
  refine hide_mono h_ ?_
  clear h_
  induction x0 generalizing s m a  <;> first | with_reducible rfl | (simp [State.spmWriteBlock]; done) | (simp [State.spmWriteBlock, *]; done) | (unfold State.spmWriteBlock; (try dsimp only); (repeat' (first | with_reducible rfl | (simp; done) | (rw [State.each_hide]) | (rw [State.when_hide]) | (rw [State.foldl_hide]) | (refine upRequest_hide _ _ _ _ (by decide) ?_) | (refine downRequest_hide _ _ _ _ (by decide) ?_) | (intro _ _; (try dsimp only)) | (intro _; (try dsimp only)) | split)) <;> first | with_reducible rfl | (simp [*]; done) | (apply hide_congr <;> intro hb <;> first | rfl | exact absurd hb (by decide)) | grind [State.spmWrite_hide]) | grind [State.spmWriteBlock, State.spmWrite_hide]
@[simp] theorem State.noteGrant_hide (b g cyc : Nat) (s : State) (m_ : Nat) (h_ : m_ &&& 1024 = 1024) : (State.noteGrant b g cyc s).hide m_ = s.hide m_ := by
  refine hide_mono h_ ?_
  simp [State.noteGrant]
@[simp] theorem State.grant_hide (b m cyc : Nat) (others : BitVec 9) (s : State) (m_ : Nat) (h_ : m_ &&& 1025 = 1025) : (State.grant b m cyc others s).2.hide m_ = s.hide m_ := by
  refine hide_mono h_ ?_
  unfold State.grant
  try dsimp only
  repeat' (first | (simp; done) | rw [State.each_hide] | rw [State.when_hide] | rw [State.foldl_hide] | (intro _ _; try dsimp only) | (intro _; try dsimp only) | split)
@[simp] theorem State.clearBank_hide (b : Nat) (s : State) (m_ : Nat) (h_ : m_ &&& 1024 = 1024) : (State.clearBank b s).hide m_ = s.hide m_ := by
  refine hide_mono h_ ?_
  simp [State.clearBank]
@[simp] theorem State.setOn_hide (b : Nat) (on : Bool) (s : State) (m_ : Nat) (h_ : m_ &&& 1 = 1) : (State.setOn b on s).hide m_ = s.hide m_ := by
  refine hide_mono h_ ?_
  simp [State.setOn]
@[simp] theorem State.undefineBank_hide (b reached : Nat) (s : State) (m_ : Nat) (h_ : m_ &&& 67109888 = 67109888) : (State.undefineBank b reached s).hide m_ = s.hide m_ := by
  refine hide_mono h_ ?_
  simp [State.undefineBank]
@[simp] theorem powerBank_hide (b q reached : Nat) (s : State) (m_ : Nat) (h_ : m_ &&& 67109889 = 67109889) : (powerBank b q reached s).hide m_ = s.hide m_ := by
  refine hide_mono h_ ?_
  unfold powerBank
  dsimp only
  repeat' split
  all_goals simp
@[simp] theorem writePower_hide (hi : Bool) (v : Word) (reached : Nat) (s : State) (m_ : Nat) (h_ : m_ &&& 67109889 = 67109889) : (writePower hi v reached s).hide m_ = s.hide m_ := by
  refine hide_mono h_ ?_
  simp [writePower]
theorem execPowerWrite_hide (hi : Bool) (v : Word) (reached : Nat) (s : State) : ∀ u_, execPowerWrite hi v reached s = .next u_ → u_.hide 67109889 = s.hide 67109889 := by
  intro u_ h
  simp only [execPowerWrite, actWhen_next] at h
  subst h
  simp
@[simp] theorem wakeBank_hide (b : Fin 17) (s : State) (m_ : Nat) (h_ : m_ &&& 1025 = 1025) : (wakeBank b s).hide m_ = s.hide m_ := by
  refine hide_mono h_ ?_
  unfold wakeBank
  dsimp only
  repeat' split
  all_goals simp
theorem execBankOn_hide (b : Fin 17) (s : State) : ∀ u_, execBankOn b s = .next u_ → u_.hide 1025 = s.hide 1025 := by
  intro u_ h
  simp only [execBankOn, actWhen_next] at h
  subst h
  simp
theorem execWriteBack_hide (a : Word) (s : State) : ∀ u_, execWriteBack a s = .next u_ → u_.hide 1024 = s.hide 1024 := by
  intro u_ h
  simp only [execWriteBack, actWhen_next] at h
  subst h
  simp
@[simp] theorem repairRow_hide (b row : Nat) (s : State) (m_ : Nat) (h_ : m_ &&& 65 = 65) : (repairRow b row s).hide m_ = s.hide m_ := by
  refine hide_mono h_ ?_
  simp [repairRow]
@[simp] theorem foundRow_hide (b row : Nat) (s : State) (m_ : Nat) (h_ : m_ &&& 1089 = 1089) : (foundRow b row s).hide m_ = s.hide m_ := by
  refine hide_mono h_ ?_
  simp [foundRow]
@[simp] theorem marchTake_hide (b : Nat) (s : State) (m_ : Nat) (h_ : m_ &&& 1089 = 1089) : (marchTake b s).hide m_ = s.hide m_ := by
  refine hide_mono h_ ?_
  simp [marchTake]
@[simp] theorem marchNext_hide (x0 : List Nat) (s : State) (m_ : Nat) (h_ : m_ &&& 1089 = 1089) : (marchNext x0 s).hide m_ = s.hide m_ := by
  refine hide_mono h_ ?_
  clear h_
  induction x0 generalizing s <;> first | with_reducible rfl | (simp [marchNext]; done) | (simp [marchNext, *]; done) | (unfold marchNext; (try dsimp only); (repeat' (first | with_reducible rfl | (simp; done) | (rw [State.each_hide]) | (rw [State.when_hide]) | (rw [State.foldl_hide]) | (refine upRequest_hide _ _ _ _ (by decide) ?_) | (refine downRequest_hide _ _ _ _ (by decide) ?_) | (intro _ _; (try dsimp only)) | (intro _; (try dsimp only)) | split)) <;> first | with_reducible rfl | (simp [*]; done) | (apply hide_congr <;> intro hb <;> first | rfl | exact absurd hb (by decide)) | grind [State.setBitOf_hide, marchTake_hide]) | grind [marchNext, State.setBitOf_hide, marchTake_hide]
@[simp] theorem tickMarch_hide (s : State) (m_ : Nat) (h_ : m_ &&& 1089 = 1089) : (tickMarch s).hide m_ = s.hide m_ := by
  refine hide_mono h_ ?_
  simp [tickMarch]
@[simp] theorem writeMarch_hide (v : Word) (s : State) (m_ : Nat) (h_ : m_ &&& 1089 = 1089) : (writeMarch v s).hide m_ = s.hide m_ := by
  refine hide_mono h_ ?_
  simp [writeMarch]
theorem execMarch_hide (preserve : Bool) (banks : BitVec 17) (s : State) : ∀ u_, execMarch preserve banks s = .next u_ → u_.hide 1089 = s.hide 1089 := by
  intro u_ h
  simp only [execMarch, actWhen_next] at h
  subst h
  simp
theorem execMarchDone_hide (fails : List (Nat × Nat)) (s : State) : ∀ u_, execMarchDone fails s = .next u_ → u_.hide 1217 = s.hide 1217 := by
  intro u_ h
  simp only [execMarchDone, actWhen_next] at h
  subst h
  simp

/-! ## Geyser -/

@[simp] theorem State.setG_hide (g : Fin 8) (c : GChan) (s : State) (m_ : Nat) (h_ : m_ &&& 2048 = 2048) : (State.setG g c s).hide m_ = s.hide m_ := by
  refine hide_mono h_ ?_
  simp [State.setG]
@[simp] theorem State.gEvent_hide (g : Fin 8) (f : Field) (b : Nat) (s : State) (m_ : Nat) (h_ : m_ &&& 129 = 129) : (State.gEvent g f b s).hide m_ = s.hide m_ := by
  refine hide_mono h_ ?_
  simp [State.gEvent]
@[simp] theorem geyserRefuse_hide (g : Fin 8) (addr : Nat) (r : Nat) (s : State) (m_ : Nat) (h_ : m_ &&& 2241 = 2241) : (geyserRefuse g addr r s).hide m_ = s.hide m_ := by
  refine hide_mono h_ ?_
  simp [geyserRefuse]
@[simp] theorem geyserCharge_hide (g : Fin 8) (cyc : Nat) (s : State) (m_ : Nat) (h_ : m_ &&& 2049 = 2049) : (geyserCharge g cyc s).hide m_ = s.hide m_ := by
  refine hide_mono h_ ?_
  simp [geyserCharge]
@[simp] theorem geyserStop_hide (g : Fin 8) (st : GState) (s : State) (m_ : Nat) (h_ : m_ &&& 2048 = 2048) : (geyserStop g st s).hide m_ = s.hide m_ := by
  refine hide_mono h_ ?_
  simp [geyserStop]
@[simp] theorem geyserBusStop_hide (addr : Nat) (write : Bool) (ch : Nat) (s : State) (m_ : Nat) (h_ : m_ &&& 2241 = 2241) : (geyserBusStop addr write ch s).hide m_ = s.hide m_ := by
  refine hide_mono h_ ?_
  simp [geyserBusStop]
@[simp] theorem readDesc_hide (g : Fin 8) (addr : Nat) (x0 : Nat) (s : State) (m_ : Nat) (h_ : m_ &&& 3137 = 3137) : (readDesc g addr x0 s).2.hide m_ = s.hide m_ := by
  refine hide_mono h_ ?_
  clear h_
  induction x0 generalizing s g addr <;> first | with_reducible rfl | (simp [readDesc]; done) | (simp [readDesc, *]; done) | (unfold readDesc; (try dsimp only); (repeat' (first | with_reducible rfl | (simp; done) | (rw [State.each_hide]) | (rw [State.when_hide]) | (rw [State.foldl_hide]) | (refine upRequest_hide _ _ _ _ (by decide) ?_) | (refine downRequest_hide _ _ _ _ (by decide) ?_) | (intro _ _; (try dsimp only)) | (intro _; (try dsimp only)) | split)) <;> first | with_reducible rfl | (simp [*]; done) | (apply hide_congr <;> intro hb <;> first | rfl | exact absurd hb (by decide)) | grind [State.spmRead_hide, geyserCharge_hide]) | grind [readDesc, State.spmRead_hide, geyserCharge_hide]
@[simp] theorem geyserCheck_hide (g : Fin 8) (addr pos : Nat) (outs : List Nat) (full : Bool) (s : State) (m_ : Nat) (h_ : m_ &&& 3265 = 3265) : (geyserCheck g addr pos outs full s).2.hide m_ = s.hide m_ := by
  refine hide_mono h_ ?_
  first
  | (simp [geyserCheck]; done)
  | (unfold geyserCheck; (try dsimp only); (repeat' (first | with_reducible rfl | (simp; done) | (rw [State.each_hide]) | (rw [State.when_hide]) | (rw [State.foldl_hide]) | (refine upRequest_hide _ _ _ _ (by decide) ?_) | (refine downRequest_hide _ _ _ _ (by decide) ?_) | (intro _ _; (try dsimp only)) | (intro _; (try dsimp only)) | split)) <;> first | with_reducible rfl | (simp [*]; done) | (apply hide_congr <;> intro hb <;> first | rfl | exact absurd hb (by decide)) | grind [State.put_hide, State.setG_hide, geyserBusStop_hide, geyserRefuse_hide, readDesc_hide])
@[simp] theorem geyserStart_hide (g : Fin 8) (addr : Nat) (s : State) (m_ : Nat) (h_ : m_ &&& 3265 = 3265) : (geyserStart g addr s).2.hide m_ = s.hide m_ := by
  refine hide_mono h_ ?_
  first
  | (simp [geyserStart]; done)
  | (unfold geyserStart; (try dsimp only); (repeat' (first | with_reducible rfl | (simp; done) | (rw [State.each_hide]) | (rw [State.when_hide]) | (rw [State.foldl_hide]) | (refine upRequest_hide _ _ _ _ (by decide) ?_) | (refine downRequest_hide _ _ _ _ (by decide) ?_) | (intro _ _; (try dsimp only)) | (intro _; (try dsimp only)) | split)) <;> first | with_reducible rfl | (simp [*]; done) | (apply hide_congr <;> intro hb <;> first | rfl | exact absurd hb (by decide)) | grind [geyserCheck_hide])
@[simp] theorem geyserResume_hide (g : Fin 8) (s : State) (m_ : Nat) (h_ : m_ &&& 3265 = 3265) : (geyserResume g s).hide m_ = s.hide m_ := by
  refine hide_mono h_ ?_
  simp [geyserResume]
@[simp] theorem geyserClear_hide (s : State) (m_ : Nat) (h_ : m_ &&& 2048 = 2048) : (geyserClear s).hide m_ = s.hide m_ := by
  refine hide_mono h_ ?_
  simp [geyserClear]
@[simp] theorem geyserHalt_hide (s : State) (m_ : Nat) (h_ : m_ &&& 2048 = 2048) : (geyserHalt s).hide m_ = s.hide m_ := by
  refine hide_mono h_ ?_
  simp [geyserHalt]

/-! ## IntCtl -/

@[simp] theorem State.takeInterrupt_hide (e : Fin 4) (src : Nat) (s : State) (m_ : Nat) (h_ : m_ &&& 513 = 513) : (State.takeInterrupt e src s).hide m_ = s.hide m_ := by
  refine hide_mono h_ ?_
  simp [State.takeInterrupt]
theorem execInterrupt_hide (s : State) : ∀ u_, execInterrupt s = .next u_ → u_.hide 67109441 = s.hide 67109441 := by
  intro u_ h
  unfold execInterrupt at h
  try dsimp only at h
  first
  | (simp only [actWhen_next] at h; subst h; first | (simp; done) | ((try dsimp only); (repeat' (first | with_reducible rfl | (simp; done) | (rw [State.each_hide]) | (rw [State.when_hide]) | (rw [State.foldl_hide]) | (refine upRequest_hide _ _ _ _ (by decide) ?_) | (refine downRequest_hide _ _ _ _ (by decide) ?_) | (intro _ _; (try dsimp only)) | (intro _; (try dsimp only)) | split)) <;> first | with_reducible rfl | (simp [*]; done) | (apply hide_congr <;> intro hb <;> first | rfl | exact absurd hb (by decide)) | grind [State.draw_hide, State.inject_hide, State.raise_hide, State.takeInterrupt_hide]))
  | (repeat' split at h
     all_goals first | contradiction | (cases h; first | (simp; done) | grind [State.draw_hide, State.inject_hide, State.raise_hide, State.takeInterrupt_hide]) | (simp only [actWhen_next] at h; subst h; first | (simp; done) | ((try dsimp only); (repeat' (first | with_reducible rfl | (simp; done) | (rw [State.each_hide]) | (rw [State.when_hide]) | (rw [State.foldl_hide]) | (refine upRequest_hide _ _ _ _ (by decide) ?_) | (refine downRequest_hide _ _ _ _ (by decide) ?_) | (intro _ _; (try dsimp only)) | (intro _; (try dsimp only)) | split)) <;> first | with_reducible rfl | (simp [*]; done) | (apply hide_congr <;> intro hb <;> first | rfl | exact absurd hb (by decide)) | grind [State.draw_hide, State.inject_hide, State.raise_hide, State.takeInterrupt_hide])))
@[simp] theorem writeLatSet_hide (i : Nat) (v : Word) (s : State) (m_ : Nat) (h_ : m_ &&& 129 = 129) : (writeLatSet i v s).hide m_ = s.hide m_ := by
  refine hide_mono h_ ?_
  simp [writeLatSet]
@[simp] theorem writeLatClr_hide (i : Nat) (v : Word) (s : State) (m_ : Nat) (h_ : m_ &&& 128 = 128) : (writeLatClr i v s).hide m_ = s.hide m_ := by
  refine hide_mono h_ ?_
  simp [writeLatClr]
@[simp] theorem writeEnSet_hide (i : Nat) (v : Word) (s : State) (m_ : Nat) (h_ : m_ &&& 128 = 128) : (writeEnSet i v s).hide m_ = s.hide m_ := by
  refine hide_mono h_ ?_
  simp [writeEnSet]
@[simp] theorem writeEnClr_hide (i : Nat) (v : Word) (s : State) (m_ : Nat) (h_ : m_ &&& 128 = 128) : (writeEnClr i v s).hide m_ = s.hide m_ := by
  refine hide_mono h_ ?_
  simp [writeEnClr]
@[simp] theorem writeArrived_hide (i : Nat) (v : Word) (s : State) (m_ : Nat) (h_ : m_ &&& 128 = 128) : (writeArrived i v s).hide m_ = s.hide m_ := by
  refine hide_mono h_ ?_
  simp [writeArrived]
@[simp] theorem writeSrc_hide (src : Nat) (v : Word) (s : State) (m_ : Nat) (h_ : m_ &&& 1 = 1) : (writeSrc src v s).hide m_ = s.hide m_ := by
  refine hide_mono h_ ?_
  simp [writeSrc]
@[simp] theorem writeEctl_hide (e : Nat) (v : Word) (s : State) (m_ : Nat) (h_ : m_ &&& 1 = 1) : (writeEctl e v s).hide m_ = s.hide m_ := by
  refine hide_mono h_ ?_
  simp [writeEctl]
theorem execLatSet_hide (i : Fin 4) (v : Word) (s : State) : ∀ u_, execLatSet i v s = .next u_ → u_.hide 129 = s.hide 129 := by
  intro u_ h
  simp only [execLatSet, actWhen_next] at h
  subst h
  simp

/-! ## Hearth -/

@[simp] theorem State.setE_hide (e : Fin 4) (m : Ember) (s : State) (m_ : Nat) (h_ : m_ &&& 512 = 512) : (State.setE e m s).hide m_ = s.hide m_ := by
  refine hide_mono h_ ?_
  simp [State.setE]
@[simp] theorem State.modE_hide (e : Fin 4) (f : Ember → Ember) (s : State) (m_ : Nat) (h_ : m_ &&& 512 = 512) : (State.modE e f s).hide m_ = s.hide m_ := by
  refine hide_mono h_ ?_
  simp [State.modE]
@[simp] theorem State.setSlot_hide (i : Fin 64) (t : Slot) (s : State) (m_ : Nat) (h_ : m_ &&& 256 = 256) : (State.setSlot i t s).hide m_ = s.hide m_ := by
  refine hide_mono h_ ?_
  simp [State.setSlot]
@[simp] theorem State.enqueueSlot_hide (i : Fin 64) (s : State) (m_ : Nat) (h_ : m_ &&& 256 = 256) : (State.enqueueSlot i s).hide m_ = s.hide m_ := by
  refine hide_mono h_ ?_
  simp [State.enqueueSlot]
@[simp] theorem makeReady_hide (i : Fin 64) (s : State) (m_ : Nat) (h_ : m_ &&& 257 = 257) : (makeReady i s).hide m_ = s.hide m_ := by
  refine hide_mono h_ ?_
  unfold makeReady
  dsimp only
  repeat' split
  all_goals simp
@[simp] theorem unready_hide (i : Fin 64) (s : State) (m_ : Nat) (h_ : m_ &&& 256 = 256) : (unready i s).hide m_ = s.hide m_ := by
  refine hide_mono h_ ?_
  unfold unready
  dsimp only
  repeat' split
  all_goals simp
theorem execReady_hide (m : BitVec 64) (s : State) : ∀ u_, execReady m s = .next u_ → u_.hide 257 = s.hide 257 := by
  intro u_ h
  simp only [execReady, actWhen_next] at h
  subst h
  simp
theorem execUnready_hide (m : BitVec 64) (s : State) : ∀ u_, execUnready m s = .next u_ → u_.hide 256 = s.hide 256 := by
  intro u_ h
  simp only [execUnready, actWhen_next] at h
  subst h
  simp
@[simp] theorem State.endRun_hide (e : Fin 4) (aborted : Bool) (s : State) (m_ : Nat) (h_ : m_ &&& 769 = 769) : (State.endRun e aborted s).hide m_ = s.hide m_ := by
  refine hide_mono h_ ?_
  simp [State.endRun]
@[simp] theorem State.startTask_hide (e : Fin 4) (i : Fin 64) (s : State) (m_ : Nat) (h_ : m_ &&& 769 = 769) : (State.startTask e i s).hide m_ = s.hide m_ := by
  refine hide_mono h_ ?_
  simp [State.startTask]
@[simp] theorem State.dispatch_hide (s : State) (m_ : Nat) (h_ : m_ &&& 769 = 769) : (State.dispatch s).hide m_ = s.hide m_ := by
  refine hide_mono h_ ?_
  unfold State.dispatch
  repeat' split
  all_goals simp
theorem execDispatch_hide (s : State) : ∀ u_, execDispatch s = .next u_ → u_.hide 769 = s.hide 769 := by
  intro u_ h
  simp only [execDispatch, actWhen_next] at h
  subst h
  simp
@[simp] theorem restartEmber_hide (e : Fin 4) (s : State) (m_ : Nat) (h_ : m_ &&& 512 = 512) : (restartEmber e s).hide m_ = s.hide m_ := by
  refine hide_mono h_ ?_
  simp [restartEmber]
theorem execRestart_hide (e : Fin 4) (s : State) : ∀ u_, execRestart e s = .next u_ → u_.hide 512 = s.hide 512 := by
  intro u_ h
  simp only [execRestart, actWhen_next] at h
  subst h
  simp
@[simp] theorem haltEmbers_hide (s : State) (m_ : Nat) (h_ : m_ &&& 512 = 512) : (haltEmbers s).hide m_ = s.hide m_ := by
  refine hide_mono h_ ?_
  simp [haltEmbers]
@[simp] theorem discardBuffers_hide (s : State) (m_ : Nat) (h_ : m_ &&& 512 = 512) : (discardBuffers s).hide m_ = s.hide m_ := by
  refine hide_mono h_ ?_
  simp [discardBuffers]
@[simp] theorem releaseEmbers_hide (s : State) (m_ : Nat) (h_ : m_ &&& 512 = 512) : (releaseEmbers s).hide m_ = s.hide m_ := by
  refine hide_mono h_ ?_
  simp [releaseEmbers]
@[simp] theorem resetHearth_hide (s : State) (m_ : Nat) (h_ : m_ &&& 768 = 768) : (resetHearth s).hide m_ = s.hide m_ := by
  refine hide_mono h_ ?_
  simp [resetHearth]
@[simp] theorem State.putDue_hide (i t : Nat) (s : State) (m_ : Nat) (h_ : m_ &&& 1 = 1) : (State.putDue i t s).hide m_ = s.hide m_ := by
  refine hide_mono h_ ?_
  simp [State.putDue]
@[simp] theorem fireTimer_hide (i : Fin 16) (s : State) (m_ : Nat) (h_ : m_ &&& 385 = 385) : (fireTimer i s).hide m_ = s.hide m_ := by
  refine hide_mono h_ ?_
  simp [fireTimer]
theorem execTimerFire_hide (i : Fin 16) (s : State) : ∀ u_, execTimerFire i s = .next u_ → u_.hide 385 = s.hide 385 := by
  intro u_ h
  simp only [execTimerFire, actWhen_next] at h
  subst h
  simp
@[simp] theorem writeDueLo_hide (i : Nat) (v : Word) (s : State) (m_ : Nat) (h_ : m_ &&& 256 = 256) : (writeDueLo i v s).hide m_ = s.hide m_ := by
  refine hide_mono h_ ?_
  simp [writeDueLo]
@[simp] theorem writeDueHi_hide (i : Nat) (v : Word) (s : State) (m_ : Nat) (h_ : m_ &&& 1 = 1) : (writeDueHi i v s).hide m_ = s.hide m_ := by
  refine hide_mono h_ ?_
  simp [writeDueHi]
@[simp] theorem ringDoorbell_hide (d : Nat) (s : State) (m_ : Nat) (h_ : m_ &&& 129 = 129) : (ringDoorbell d s).hide m_ = s.hide m_ := by
  refine hide_mono h_ ?_
  simp [ringDoorbell]

end Sys2Proof.Machine
end

