-- ==== Sys2Proof/Laws/FrameOutputs.lean ====
section
/-! SUPPORT. The frame of each operation and command. Barrier, channels, planes and wheels. -/

set_option maxRecDepth 100000
set_option linter.all false

namespace Sys2Proof.Machine

/-! ## Barrier -/

@[simp] theorem State.setBar_hide (b : Barrier) (s : State) (m_ : Nat) (h_ : m_ &&& 131072 = 131072) : (State.setBar b s).hide m_ = s.hide m_ := by
  refine hide_mono h_ ?_
  simp [State.setBar]
@[simp] theorem barFault_hide (kind : BitVec 5) (detail : BitVec 24) (s : State) (m_ : Nat) (h_ : m_ &&& 65 = 65) : (barFault kind detail s).hide m_ = s.hide m_ := by
  refine hide_mono h_ ?_
  simp [barFault]
@[simp] theorem State.modEntry_hide (c : Nat) (tag : Word) (f : Entry → Entry) (s : State) (m_ : Nat) (h_ : m_ &&& 8192 = 8192) : (State.modEntry c tag f s).hide m_ = s.hide m_ := by
  refine hide_mono h_ ?_
  unfold State.modEntry
  dsimp only
  repeat' split
  all_goals simp
@[simp] theorem endMailbox_hide (result : Nat) (s : State) (m_ : Nat) (h_ : m_ &&& 129 = 129) : (endMailbox result s).hide m_ = s.hide m_ := by
  refine hide_mono h_ ?_
  simp [endMailbox]
@[simp] theorem handshakeAgain_hide (s : State) (m_ : Nat) (h_ : m_ &&& 131072 = 131072) : (handshakeAgain s).hide m_ = s.hide m_ := by
  refine hide_mono h_ ?_
  simp [handshakeAgain]
@[simp] theorem returnFailed_hide (i : Issuer) (s : State) (m_ : Nat) (h_ : m_ &&& 139393 = 139393) : (returnFailed i s).hide m_ = s.hide m_ := by
  refine hide_mono h_ ?_
  unfold returnFailed
  repeat' split
  all_goals simp
@[simp] theorem sendDown_hide (type : Byte) (retx : Bool) (seq ref : BitVec 16) (payload : List Byte) (s : State) (m_ : Nat) (h_ : m_ &&& 131072 = 131072) : (sendDown type retx seq ref payload s).hide m_ = s.hide m_ := by
  refine hide_mono h_ ?_
  simp [sendDown]
@[simp] theorem transmit_hide (r : Request) (s : State) (m_ : Nat) (h_ : m_ &&& 131072 = 131072) : (transmit r s).hide m_ = s.hide m_ := by
  refine hide_mono h_ ?_
  simp [transmit]
@[simp] theorem barSend_hide (type : Byte) (payload : List Byte) (i : Issuer) (s : State) (m_ : Nat) (h_ : m_ &&& 139393 = 139393) : (barSend type payload i s).hide m_ = s.hide m_ := by
  refine hide_mono h_ ?_
  simp [barSend]
@[simp] theorem sendWaiting_hide (x0 : Nat) (s : State) (m_ : Nat) (h_ : m_ &&& 139393 = 139393) : (sendWaiting x0 s).hide m_ = s.hide m_ := by
  refine hide_mono h_ ?_
  clear h_
  induction x0 generalizing s   <;> first | with_reducible rfl | (simp [sendWaiting]; done) | (simp [sendWaiting, *]; done) | (unfold sendWaiting; (try dsimp only); (repeat' (first | with_reducible rfl | (simp; done) | (rw [State.each_hide]) | (rw [State.when_hide]) | (rw [State.foldl_hide]) | (refine upRequest_hide _ _ _ _ (by decide) ?_) | (refine downRequest_hide _ _ _ _ (by decide) ?_) | (intro _ _; (try dsimp only)) | (intro _; (try dsimp only)) | split)) <;> first | with_reducible rfl | (simp [*]; done) | (apply hide_congr <;> intro hb <;> first | rfl | exact absurd hb (by decide)) | grind [State.setBar_hide, transmit_hide]) | grind [sendWaiting, State.setBar_hide, transmit_hide]
@[simp] theorem sendSchedule_hide (c : Nat) (level : Bool) (gate : SysTime) (tag : Word) (s : State) (m_ : Nat) (h_ : m_ &&& 139393 = 139393) : (sendSchedule c level gate tag s).hide m_ = s.hide m_ := by
  refine hide_mono h_ ?_
  simp [sendSchedule]
@[simp] theorem sendCancel_hide (c : Nat) (tag : Word) (s : State) (m_ : Nat) (h_ : m_ &&& 139393 = 139393) : (sendCancel c tag s).hide m_ = s.hide m_ := by
  refine hide_mono h_ ?_
  simp [sendCancel]
@[simp] theorem sendSetNow_hide (mask levels : Nat) (i : Issuer) (s : State) (m_ : Nat) (h_ : m_ &&& 139393 = 139393) : (sendSetNow mask levels i s).hide m_ = s.hide m_ := by
  refine hide_mono h_ ?_
  simp [sendSetNow]

/-! ## Wheel -/

@[simp] theorem State.setW_hide (w : Fin 8) (x : Wheel) (s : State) (m_ : Nat) (h_ : m_ &&& 32768 = 32768) : (State.setW w x s).hide m_ = s.hide m_ := by
  refine hide_mono h_ ?_
  simp [State.setW]
@[simp] theorem State.modW_hide (w : Fin 8) (f : Wheel → Wheel) (s : State) (m_ : Nat) (h_ : m_ &&& 32768 = 32768) : (State.modW w f s).hide m_ = s.hide m_ := by
  refine hide_mono h_ ?_
  simp [State.modW]

/-! ## Channel -/

@[simp] theorem State.setC_hide (c : Fin 64) (x : Chan) (s : State) (m_ : Nat) (h_ : m_ &&& 8192 = 8192) : (State.setC c x s).hide m_ = s.hide m_ := by
  refine hide_mono h_ ?_
  simp [State.setC]
@[simp] theorem State.modC_hide (c : Fin 64) (f : Chan → Chan) (s : State) (m_ : Nat) (h_ : m_ &&& 8192 = 8192) : (State.modC c f s).hide m_ = s.hide m_ := by
  refine hide_mono h_ ?_
  simp [State.modC]
@[simp] theorem State.chEvent_hide (c : Fin 64) (b : Nat) (s : State) (m_ : Nat) (h_ : m_ &&& 129 = 129) : (State.chEvent c b s).hide m_ = s.hide m_ := by
  refine hide_mono h_ ?_
  simp [State.chEvent]
@[simp] theorem chanFault_hide (kind : BitVec 5) (cls : BitVec 2) (reason : BitVec 8) (n : Nat) (injected : Bool) (s : State) (m_ : Nat) (h_ : m_ &&& 65 = 65) : (chanFault kind cls reason n injected s).hide m_ = s.hide m_ := by
  refine hide_mono h_ ?_
  simp [chanFault]
@[simp] theorem reforward_hide (c : Fin 64) (s : State) (m_ : Nat) (h_ : m_ &&& 139393 = 139393) : (reforward c s).hide m_ = s.hide m_ := by
  refine hide_mono h_ ?_
  unfold reforward
  dsimp only
  repeat' split
  all_goals simp
@[simp] theorem armHead_hide (c : Fin 64) (s : State) (m_ : Nat) (h_ : m_ &&& 139393 = 139393) : (armHead c s).hide m_ = s.hide m_ := by
  refine hide_mono h_ ?_
  unfold armHead
  dsimp only
  repeat' split
  all_goals simp
@[simp] theorem armHeads_hide (w : Fin 8) (s : State) (m_ : Nat) (h_ : m_ &&& 139393 = 139393) : (armHeads w s).hide m_ = s.hide m_ := by
  refine hide_mono h_ ?_
  simp [armHeads]
@[simp] theorem fixHeads_hide (w : Fin 8) (s : State) (m_ : Nat) (h_ : m_ &&& 8192 = 8192) : (fixHeads w s).hide m_ = s.hide m_ := by
  refine hide_mono h_ ?_
  unfold fixHeads
  try dsimp only
  repeat' (first | (simp; done) | rw [State.each_hide] | rw [State.when_hide] | rw [State.foldl_hide] | (intro _ _; try dsimp only) | (intro _; try dsimp only) | split)
@[simp] theorem setHvOutput_hide (c : Fin 64) (s : State) (m_ : Nat) (h_ : m_ &&& 139393 = 139393) : (setHvOutput c s).hide m_ = s.hide m_ := by
  refine hide_mono h_ ?_
  simp [setHvOutput]
@[simp] theorem logChanged_hide (c : Fin 64) (before : Nat) (s : State) (m_ : Nat) (h_ : m_ &&& 129 = 129) : (logChanged c before s).hide m_ = s.hide m_ := by
  refine hide_mono h_ ?_
  simp [logChanged]
@[simp] theorem restartLog_hide (c : Fin 64) (s : State) (m_ : Nat) (h_ : m_ &&& 129 = 129) : (restartLog c s).hide m_ = s.hide m_ := by
  refine hide_mono h_ ?_
  simp [restartLog]
@[simp] theorem markBehind_hide (c : Fin 64) (s : State) (m_ : Nat) (h_ : m_ &&& 8192 = 8192) : (markBehind c s).hide m_ = s.hide m_ := by
  refine hide_mono h_ ?_
  simp [markBehind]
@[simp] theorem enableChan_hide (c : Fin 64) (s : State) (m_ : Nat) (h_ : m_ &&& 139393 = 139393) : (enableChan c s).hide m_ = s.hide m_ := by
  refine hide_mono h_ ?_
  simp [enableChan]
@[simp] theorem cancelForwarded_hide (c : Fin 64) (e : Entry) (s : State) (m_ : Nat) (h_ : m_ &&& 139393 = 139393) : (cancelForwarded c e s).hide m_ = s.hide m_ := by
  refine hide_mono h_ ?_
  simp [cancelForwarded]
@[simp] theorem disableChan_hide (c : Fin 64) (s : State) (m_ : Nat) (h_ : m_ &&& 139393 = 139393) : (disableChan c s).hide m_ = s.hide m_ := by
  refine hide_mono h_ ?_
  simp [disableChan]
@[simp] theorem tryEnable_hide (c : Fin 64) (s : State) (m_ : Nat) (h_ : m_ &&& 139393 = 139393) : (tryEnable c s).2.hide m_ = s.hide m_ := by
  refine hide_mono h_ ?_
  simp [tryEnable]
@[simp] theorem loadChannel_hide (c : Fin 64) (b : List Byte) (s : State) (m_ : Nat) (h_ : m_ &&& 8193 = 8193) : (loadChannel c b s).hide m_ = s.hide m_ := by
  refine hide_mono h_ ?_
  simp [loadChannel]
@[simp] theorem takeNewConfig_hide (c : Fin 64) (s : State) (m_ : Nat) (h_ : m_ &&& 139393 = 139393) : (takeNewConfig c s).hide m_ = s.hide m_ := by
  refine hide_mono h_ ?_
  unfold takeNewConfig
  dsimp only
  repeat' split
  all_goals simp
@[simp] theorem setList_hide (c : Fin 64) (l : List Entry) (s : State) (m_ : Nat) (h_ : m_ &&& 139393 = 139393) : (setList c l s).hide m_ = s.hide m_ := by
  refine hide_mono h_ ?_
  simp [setList]
@[simp] theorem assignTag_hide (c : Fin 64) (tag : Word) (s : State) (m_ : Nat) (h_ : m_ &&& 8192 = 8192) : (assignTag c tag s).2.hide m_ = s.hide m_ := by
  refine hide_mono h_ ?_
  simp [assignTag]
@[simp] theorem listInsert_hide (c : Fin 64) (key : BitVec 64) (action tag : Word) (s : State) (m_ : Nat) (h_ : m_ &&& 139393 = 139393) : (listInsert c key action tag s).2.hide m_ = s.hide m_ := by
  refine hide_mono h_ ?_
  unfold listInsert
  dsimp only
  repeat' split
  all_goals simp
@[simp] theorem listCancel_hide (c : Fin 64) (tag : Word) (s : State) (m_ : Nat) (h_ : m_ &&& 139393 = 139393) : (listCancel c tag s).2.hide m_ = s.hide m_ := by
  refine hide_mono h_ ?_
  unfold listCancel
  dsimp only
  repeat' split
  all_goals simp
@[simp] theorem flushList_hide (c : Fin 64) (s : State) (m_ : Nat) (h_ : m_ &&& 139393 = 139393) : (flushList c s).hide m_ = s.hide m_ := by
  refine hide_mono h_ ?_
  simp [flushList]

/-! ## ChannelRun -/

@[simp] theorem fitHigh_hide (least period h : Nat) (s : State) (m_ : Nat) (h_ : m_ &&& 67108864 = 67108864) : (fitHigh least period h s).2.hide m_ = s.hide m_ := by
  refine hide_mono h_ ?_
  simp [fitHigh]
@[simp] theorem pwmHigh_hide (c : Fin 64) (period arg : Nat) (s : State) (m_ : Nat) (h_ : m_ &&& 67108864 = 67108864) : (pwmHigh c period arg s).2.hide m_ = s.hide m_ := by
  refine hide_mono h_ ?_
  simp [pwmHigh]
@[simp] theorem periodValues_hide (c : Fin 64) (shadow : Bool) (s : State) (m_ : Nat) (h_ : m_ &&& 67117056 = 67117056) : (periodValues c shadow s).hide m_ = s.hide m_ := by
  refine hide_mono h_ ?_
  unfold periodValues
  dsimp only
  repeat' split
  all_goals simp
@[simp] theorem startWave_hide (c : Fin 64) (arg fire : Nat) (s : State) (m_ : Nat) (h_ : m_ &&& 67117057 = 67117057) : (startWave c arg fire s).hide m_ = s.hide m_ := by
  refine hide_mono h_ ?_
  simp [startWave]
@[simp] theorem periodEnd_hide (c : Fin 64) (v : Wave) (s : State) (m_ : Nat) (h_ : m_ &&& 67117185 = 67117185) : (periodEnd c v s).hide m_ = s.hide m_ := by
  refine hide_mono h_ ?_
  unfold periodEnd
  dsimp only
  repeat' split
  all_goals simp
theorem execPeriodBoundary_hide (c : Fin 64) (s : State) : ∀ u_, execPeriodBoundary c s = .next u_ → u_.hide 67117185 = s.hide 67117185 := by
  intro u_ h
  simp only [execPeriodBoundary, actWhen_next] at h
  subst h
  repeat' split
  all_goals simp
@[simp] theorem snapAction_hide (c : Fin 64) (fire : Nat) (s : State) (m_ : Nat) (h_ : m_ &&& 1 = 1) : (snapAction c fire s).hide m_ = s.hide m_ := by
  refine hide_mono h_ ?_
  simp [snapAction]
@[simp] theorem setLevel_hide (c : Fin 64) (b hiz : Bool) (s : State) (m_ : Nat) (h_ : m_ &&& 8193 = 8193) : (setLevel c b hiz s).hide m_ = s.hide m_ := by
  refine hide_mono h_ ?_
  simp [setLevel]
@[simp] theorem performAction_hide (c : Fin 64) (e : Entry) (fire : Nat) (s : State) (m_ : Nat) (h_ : m_ &&& 67117057 = 67117057) : (performAction c e fire s).hide m_ = s.hide m_ := by
  refine hide_mono h_ ?_
  unfold performAction
  repeat' split
  all_goals simp
@[simp] theorem entryDone_hide (c : Fin 64) (e : Entry) (late : Bool) (s : State) (m_ : Nat) (h_ : m_ &&& 129 = 129) : (entryDone c e late s).hide m_ = s.hide m_ := by
  refine hide_mono h_ ?_
  simp [entryDone]
@[simp] theorem checkHead_hide (c : Fin 64) (e : Entry) (s : State) (m_ : Nat) (h_ : m_ &&& 139457 = 139457) : (checkHead c e s).2.hide m_ = s.hide m_ := by
  refine hide_mono h_ ?_
  simp [checkHead]
@[simp] theorem runDue_hide (c : Fin 64) (x0 : Nat) (s : State) (m_ : Nat) (h_ : m_ &&& 67248321 = 67248321) : (runDue c x0 s).hide m_ = s.hide m_ := by
  refine hide_mono h_ ?_
  clear h_
  induction x0 generalizing s c  <;> first | with_reducible rfl | (simp [runDue]; done) | (simp [runDue, *]; done) | (unfold runDue; (try dsimp only); (repeat' (first | with_reducible rfl | (simp; done) | (rw [State.each_hide]) | (rw [State.when_hide]) | (rw [State.foldl_hide]) | (refine upRequest_hide _ _ _ _ (by decide) ?_) | (refine downRequest_hide _ _ _ _ (by decide) ?_) | (intro _ _; (try dsimp only)) | (intro _; (try dsimp only)) | split)) <;> first | with_reducible rfl | (simp [*]; done) | (apply hide_congr <;> intro hb <;> first | rfl | exact absurd hb (by decide)) | grind [checkHead_hide, entryDone_hide, performAction_hide, setList_hide]) | grind [runDue, checkHead_hide, entryDone_hide, performAction_hide, setList_hide]
@[simp] theorem dropEntry_hide (c : Fin 64) (e : Entry) (s : State) (m_ : Nat) (h_ : m_ &&& 139393 = 139393) : (dropEntry c e s).hide m_ = s.hide m_ := by
  refine hide_mono h_ ?_
  simp [dropEntry]
@[simp] theorem hvFallback_hide (c : Fin 64) (e : Entry) (s : State) (m_ : Nat) (h_ : m_ &&& 139457 = 139457) : (hvFallback c e s).hide m_ = s.hide m_ := by
  refine hide_mono h_ ?_
  simp [hvFallback]
@[simp] theorem hvDue_hide (c : Fin 64) (x : Entry × Option Nat) (s : State) (m_ : Nat) (h_ : m_ &&& 139457 = 139457) : (hvDue c x s).hide m_ = s.hide m_ := by
  refine hide_mono h_ ?_
  unfold hvDue
  dsimp only
  repeat' split
  all_goals simp
theorem execDueKey_hide (c : Fin 64) (s : State) : ∀ u_, execDueKey c s = .next u_ → u_.hide 67248321 = s.hide 67248321 := by
  intro u_ h
  unfold execDueKey at h
  try dsimp only at h
  first
  | (simp only [actWhen_next] at h; subst h; first | (simp; done) | ((repeat' (first | with_reducible rfl | (simp; done) | (rw [State.each_hide]) | (rw [State.when_hide]) | (rw [State.foldl_hide]) | (refine upRequest_hide _ _ _ _ (by decide) ?_) | (refine downRequest_hide _ _ _ _ (by decide) ?_) | (intro _ _; (try dsimp only)) | (intro _; (try dsimp only)) | split)) <;> first | with_reducible rfl | (simp [*]; done) | (apply hide_congr <;> intro hb <;> first | rfl | exact absurd hb (by decide)) | grind [checkHead_hide, hvDue_hide, runDue_hide]))
  | (repeat' split at h) <;> first | (cases h; simp; done) | (cases h; done) | (simp only [actWhen_next] at h; subst h; first | (simp; done) | ((repeat' (first | with_reducible rfl | (simp; done) | (rw [State.each_hide]) | (rw [State.when_hide]) | (rw [State.foldl_hide]) | (refine upRequest_hide _ _ _ _ (by decide) ?_) | (refine downRequest_hide _ _ _ _ (by decide) ?_) | (intro _ _; (try dsimp only)) | (intro _; (try dsimp only)) | split)) <;> first | with_reducible rfl | (simp [*]; done) | (apply hide_congr <;> intro hb <;> first | rfl | exact absurd hb (by decide)) | grind [checkHead_hide, hvDue_hide, runDue_hide])) | (simp at h; done)
theorem execHvEntryBegin_hide (c : Fin 64) (s : State) : ∀ u_, execHvEntryBegin c s = .next u_ → u_.hide 8192 = s.hide 8192 := by
  intro u_ h
  unfold execHvEntryBegin at h
  simp only [actWhen_next] at h
  subst h
  repeat' (first | (simp; done) | rw [State.each_hide] | rw [State.when_hide] | rw [State.foldl_hide] | (intro _ _; try dsimp only) | (intro _; try dsimp only) | split)
@[simp] theorem forwardEntry_hide (c : Fin 64) (e : Entry) (g : Nat) (s : State) (m_ : Nat) (h_ : m_ &&& 139393 = 139393) : (forwardEntry c e g s).hide m_ = s.hide m_ := by
  refine hide_mono h_ ?_
  simp [forwardEntry]
theorem execForward_hide (c : Fin 64) (s : State) : ∀ u_, execForward c s = .next u_ → u_.hide 139393 = s.hide 139393 := by
  intro u_ h
  simp only [execForward, actWhen_next] at h
  subst h
  repeat' split
  all_goals simp
@[simp] theorem hvReported_hide (c : Fin 64) (tag : Word) (late : Bool) (s : State) (m_ : Nat) (h_ : m_ &&& 139393 = 139393) : (hvReported c tag late s).hide m_ = s.hide m_ := by
  refine hide_mono h_ ?_
  unfold hvReported
  dsimp only
  repeat' split
  all_goals simp
@[simp] theorem unforward_hide (s : State) (m_ : Nat) (h_ : m_ &&& 8192 = 8192) : (unforward s).hide m_ = s.hide m_ := by
  refine hide_mono h_ ?_
  simp [unforward]
@[simp] theorem writeChanCtl_hide (c : Fin 64) (v : Word) (s : State) (m_ : Nat) (h_ : m_ &&& 139393 = 139393) : (writeChanCtl c v s).hide m_ = s.hide m_ := by
  refine hide_mono h_ ?_
  simp [writeChanCtl]
theorem execChannelEnable_hide (c : Fin 64) (v : Word) (s : State) : ∀ u_, execChannelEnable c v s = .next u_ → u_.hide 139393 = s.hide 139393 := by
  intro u_ h
  simp only [execChannelEnable, actWhen_next] at h
  subst h
  simp
theorem execFlush_hide (c : Fin 64) (s : State) : ∀ u_, execFlush c s = .next u_ → u_.hide 139393 = s.hide 139393 := by
  intro u_ h
  simp only [execFlush, actWhen_next] at h
  subst h
  simp
@[simp] theorem writeChanCfg_hide (c : Fin 64) (i : Nat) (v : Word) (s : State) (m_ : Nat) (h_ : m_ &&& 8193 = 8193) : (writeChanCfg c i v s).hide m_ = s.hide m_ := by
  refine hide_mono h_ ?_
  simp [writeChanCfg]
@[simp] theorem writeLogRd_hide (c : Fin 64) (v : Word) (s : State) (m_ : Nat) (h_ : m_ &&& 129 = 129) : (writeLogRd c v s).hide m_ = s.hide m_ := by
  refine hide_mono h_ ?_
  simp [writeLogRd]

/-! ## ChannelIo -/

@[simp] theorem State.setGrp_hide (g : Fin 3) (x : Group) (s : State) (m_ : Nat) (h_ : m_ &&& 16384 = 16384) : (State.setGrp g x s).hide m_ = s.hide m_ := by
  refine hide_mono h_ ?_
  simp [State.setGrp]
@[simp] theorem State.modGrp_hide (g : Fin 3) (f : Group → Group) (s : State) (m_ : Nat) (h_ : m_ &&& 16384 = 16384) : (State.modGrp g f s).hide m_ = s.hide m_ := by
  refine hide_mono h_ ?_
  simp [State.modGrp]
@[simp] theorem frameBoundary_hide (g : Fin 3) (s : State) (m_ : Nat) (h_ : m_ &&& 8192 = 8192) : (frameBoundary g s).hide m_ = s.hide m_ := by
  refine hide_mono h_ ?_
  simp [frameBoundary]
@[simp] theorem setFifo_hide (g : Fin 3) (l : List (BitVec 16)) (s : State) (m_ : Nat) (h_ : m_ &&& 16513 = 16513) : (setFifo g l s).hide m_ = s.hide m_ := by
  refine hide_mono h_ ?_
  simp [setFifo]
@[simp] theorem applyConfig_hide (g : Fin 3) (s : State) (m_ : Nat) (h_ : m_ &&& 16513 = 16513) : (applyConfig g s).hide m_ = s.hide m_ := by
  refine hide_mono h_ ?_
  simp [applyConfig]
@[simp] theorem takePlane_hide (g : Fin 3) (from_ : Nat) (s : State) (m_ : Nat) (h_ : m_ &&& 24705 = 24705) : (takePlane g from_ s).hide m_ = s.hide m_ := by
  refine hide_mono h_ ?_
  unfold takePlane
  dsimp only
  repeat' split
  all_goals simp
@[simp] theorem wakeShifter_hide (g : Fin 3) (s : State) (m_ : Nat) (h_ : m_ &&& 24705 = 24705) : (wakeShifter g s).hide m_ = s.hide m_ := by
  refine hide_mono h_ ?_
  simp [wakeShifter]
@[simp] theorem writePlanes_hide (g : Fin 3) (v : Word) (s : State) (m_ : Nat) (h_ : m_ &&& 24769 = 24769) : (writePlanes g v s).hide m_ = s.hide m_ := by
  refine hide_mono h_ ?_
  simp [writePlanes]
@[simp] theorem requestApply_hide (g : Fin 3) (s : State) (m_ : Nat) (h_ : m_ &&& 16513 = 16513) : (requestApply g s).hide m_ = s.hide m_ := by
  refine hide_mono h_ ?_
  simp [requestApply]
@[simp] theorem writePgCfg.writePlainFields_hide (fs : List Field) (v : Word) (s : State) (m_ : Nat) (h_ : m_ &&& 1 = 1) :
    (writePgCfg.writePlainFields fs v s).hide m_ = s.hide m_ := by
  unfold writePgCfg.writePlainFields; simp [h_]
@[simp] theorem writePgCfg_hide (g : Fin 3) (v : Word) (s : State) (m_ : Nat) (h_ : m_ &&& 24705 = 24705) : (writePgCfg g v s).hide m_ = s.hide m_ := by
  refine hide_mono h_ ?_
  simp [writePgCfg]
theorem execApply_hide (g : Fin 3) (s : State) : ∀ u_, execApply g s = .next u_ → u_.hide 16513 = s.hide 16513 := by
  intro u_ h
  simp only [execApply, actWhen_next] at h
  subst h
  simp
theorem execPlanesWrite_hide (g : Fin 3) (v : Word) (s : State) : ∀ u_, execPlanesWrite g v s = .next u_ → u_.hide 24769 = s.hide 24769 := by
  intro u_ h
  simp only [execPlanesWrite, actWhen_next] at h
  subst h
  simp
@[simp] theorem planeEnd_hide (g : Fin 3) (s : State) (m_ : Nat) (h_ : m_ &&& 24705 = 24705) : (planeEnd g s).hide m_ = s.hide m_ := by
  refine hide_mono h_ ?_
  simp [planeEnd]
theorem execPlaneBoundary_hide (g : Fin 3) (s : State) : ∀ u_, execPlaneBoundary g s = .next u_ → u_.hide 24705 = s.hide 24705 := by
  intro u_ h
  simp only [execPlaneBoundary, actWhen_next] at h
  subst h
  simp
@[simp] theorem chanResult_hide (c : Fin 64) (t : SysTime) (r0 r1 : Nat) (edge : Bool) (s : State) (m_ : Nat) (h_ : m_ &&& 129 = 129) : (chanResult c t r0 r1 edge s).hide m_ = s.hide m_ := by
  refine hide_mono h_ ?_
  simp [chanResult]
@[simp] theorem logEdge_hide (c : Fin 64) (t : SysTime) (level : Bool) (s : State) (m_ : Nat) (h_ : m_ &&& 140481 = 140481) : (logEdge c t level s).hide m_ = s.hide m_ := by
  refine hide_mono h_ ?_
  first
  | (simp [logEdge]; done)
  | (unfold logEdge; (try dsimp only); (repeat' (first | with_reducible rfl | (simp; done) | (rw [State.each_hide]) | (rw [State.when_hide]) | (rw [State.foldl_hide]) | (refine upRequest_hide _ _ _ _ (by decide) ?_) | (refine downRequest_hide _ _ _ _ (by decide) ?_) | (intro _ _; (try dsimp only)) | (intro _; (try dsimp only)) | split)) <;> first | with_reducible rfl | (simp [*]; done) | (apply hide_congr <;> intro hb <;> first | rfl | exact absurd hb (by decide)) | grind [State.chEvent_hide, State.count_hide, State.put_hide, State.spmWrite_hide, chanFault_hide, disableChan_hide, logChanged_hide])
@[simp] theorem feedWheels_hide (c : Fin 64) (t : SysTime) (level : Bool) (s : State) (m_ : Nat) (h_ : m_ &&& 32768 = 32768) : (feedWheels c t level s).hide m_ = s.hide m_ := by
  refine hide_mono h_ ?_
  simp [feedWheels]
@[simp] theorem modeEdge_hide (c : Fin 64) (t : SysTime) (level : Bool) (s : State) (m_ : Nat) (h_ : m_ &&& 173249 = 173249) : (modeEdge c t level s).hide m_ = s.hide m_ := by
  refine hide_mono h_ ?_
  unfold modeEdge
  dsimp only
  repeat' split
  all_goals simp
@[simp] theorem takeEdge_hide (c : Fin 64) (level : Bool) (t : SysTime) (s : State) (m_ : Nat) (h_ : m_ &&& 173249 = 173249) : (takeEdge c level t s).hide m_ = s.hide m_ := by
  refine hide_mono h_ ?_
  simp [takeEdge]
theorem execEdge_hide (c : Fin 64) (level : Bool) (t : SysTime) (s : State) : ∀ u_, execEdge c level t s = .next u_ → u_.hide 173249 = s.hide 173249 := by
  intro u_ h
  simp only [execEdge, actWhen_next] at h
  subst h
  simp
theorem writeChan_hide (off : Nat) (v : Word) (s : State) : ∀ t', writeChan off v s = some t'
    → t'.hide 155841 = s.hide 155841 := by
  intro t h
  unfold writeChan at h
  dsimp only at h
  repeat' split at h
  all_goals first | (simp at h; done) | (simp only [Option.some.injEq] at h; subst h; simp)
@[simp] theorem chanK8_hide (s : State) (m_ : Nat) (h_ : m_ &&& 139393 = 139393) : (chanK8 s).hide m_ = s.hide m_ := by
  refine hide_mono h_ ?_
  simp [chanK8]

/-! ## WheelStep -/

@[simp] theorem State.whEvent_hide (w : Fin 8) (b : Nat) (s : State) (m_ : Nat) (h_ : m_ &&& 129 = 129) : (State.whEvent w b s).hide m_ = s.hide m_ := by
  refine hide_mono h_ ?_
  simp [State.whEvent]
@[simp] theorem wheelFault_hide (kind : BitVec 5) (cls : BitVec 2) (reason : BitVec 8) (w : Fin 8) (injected : Bool) (s : State) (m_ : Nat) (h_ : m_ &&& 65 = 65) : (wheelFault kind cls reason w injected s).hide m_ = s.hide m_ := by
  refine hide_mono h_ ?_
  simp [wheelFault]
@[simp] theorem leaveSynced_hide (w : Fin 8) (s : State) (m_ : Nat) (h_ : m_ &&& 41153 = 41153) : (leaveSynced w s).hide m_ = s.hide m_ := by
  refine hide_mono h_ ?_
  simp [leaveSynced]
@[simp] theorem goTo_hide (w : Fin 8) (y : Sync) (s : State) (m_ : Nat) (h_ : m_ &&& 41153 = 41153) : (goTo w y s).hide m_ = s.hide m_ := by
  refine hide_mono h_ ?_
  simp [goTo]
@[simp] theorem seek_hide (w : Fin 8) (s : State) (m_ : Nat) (h_ : m_ &&& 41153 = 41153) : (seek w s).hide m_ = s.hide m_ := by
  refine hide_mono h_ ?_
  simp [seek]
@[simp] theorem enterSynced_hide (w : Fin 8) (s : State) (m_ : Nat) (h_ : m_ &&& 32897 = 32897) : (enterSynced w s).hide m_ = s.hide m_ := by
  refine hide_mono h_ ?_
  simp [enterSynced]
@[simp] theorem phaseSample_hide (u : Fin 4) (n : Matched) (s : State) (m_ : Nat) (h_ : m_ &&& 65665 = 65665) : (phaseSample u n s).hide m_ = s.hide m_ := by
  refine hide_mono h_ ?_
  unfold phaseSample
  dsimp only
  repeat' split
  all_goals simp
theorem phaseUnits_hide (w : Fin 8) (f : Fin 4 → State → State) (s : State) (m : Nat) (h : ∀ u s, (f u s).hide m = s.hide m) :
    (phaseUnits w f s).hide m = s.hide m := by
  unfold phaseUnits
  rw [State.each_hide]
  intro u s
  split
  · exact h u s
  · rfl
@[simp] theorem phaseSamples_hide (w : Fin 8) (n : Matched) (s : State) (m_ : Nat) (h_ : m_ &&& 65665 = 65665) :
    (phaseSamples w n s).hide m_ = s.hide m_ := by
  unfold phaseSamples
  split
  · rfl
  · exact phaseUnits_hide _ _ _ _ fun u s => phaseSample_hide _ _ _ _ h_
@[simp] theorem phaseMissed_hide (w : Fin 8) (s : State) (m_ : Nat) (h_ : m_ &&& 1 = 1) :
    (phaseMissed w s).hide m_ = s.hide m_ := by
  unfold phaseMissed
  refine phaseUnits_hide _ _ _ _ fun u s => ?_
  split
  · rfl
  · exact State.count_hide _ _ _ _ h_
@[simp] theorem pushMatched_hide (w : Fin 8) (n : Matched) (s : State) (m_ : Nat) (h_ : m_ &&& 32897 = 32897) : (pushMatched w n s).hide m_ = s.hide m_ := by
  refine hide_mono h_ ?_
  simp [pushMatched]
@[simp] theorem recognised_hide (w : Fin 8) (t : ToothIn) (s : State) (m_ : Nat) (h_ : m_ &&& 98433 = 98433) : (recognised w t s).hide m_ = s.hide m_ := by
  refine hide_mono h_ ?_
  unfold recognised
  dsimp only
  repeat' split
  all_goals simp
@[simp] theorem toothError_hide (w : Fin 8) (s : State) (m_ : Nat) (h_ : m_ &&& 41153 = 41153) : (toothError w s).hide m_ = s.hide m_ := by
  refine hide_mono h_ ?_
  unfold toothError
  dsimp only
  repeat' split
  all_goals simp
@[simp] theorem matched_hide (w : Fin 8) (t : ToothIn) (s : State) (m_ : Nat) (h_ : m_ &&& 106689 = 106689) : (matched w t s).hide m_ = s.hide m_ := by
  refine hide_mono h_ ?_
  unfold matched
  dsimp only
  repeat' split
  all_goals simp
@[simp] theorem takeConfig_hide (w : Fin 8) (s : State) (m_ : Nat) (h_ : m_ &&& 32768 = 32768) : (takeConfig w s).hide m_ = s.hide m_ := by
  refine hide_mono h_ ?_
  simp [takeConfig]
@[simp] theorem startSynced_hide (w : Fin 8) (t : ToothIn) (i : Nat) (rev : Word) (s : State) (m_ : Nat) (h_ : m_ &&& 106689 = 106689) : (startSynced w t i rev s).hide m_ = s.hide m_ := by
  refine hide_mono h_ ?_
  simp [startSynced]
@[simp] theorem toothByState_hide (w : Fin 8) (t : ToothIn) (start : Option (Nat × Word)) (s : State) (m_ : Nat) (h_ : m_ &&& 106689 = 106689) : (toothByState w t start s).hide m_ = s.hide m_ := by
  refine hide_mono h_ ?_
  unfold toothByState
  repeat' split
  all_goals simp
@[simp] theorem processTooth_hide (w : Fin 8) (t : ToothIn) (start : Option (Nat × Word)) (s : State) (m_ : Nat) (h_ : m_ &&& 237761 = 237761) : (processTooth w t start s).hide m_ = s.hide m_ := by
  refine hide_mono h_ ?_
  unfold processTooth
  dsimp only
  repeat' split
  all_goals simp
@[simp] theorem clearIndexed_hide (w : Fin 8) (s : State) (m_ : Nat) (h_ : m_ &&& 32768 = 32768) : (clearIndexed w s).hide m_ = s.hide m_ := by
  refine hide_mono h_ ?_
  simp [clearIndexed]
@[simp] theorem takeInput_hide (w : Fin 8) (x : WheelIn) (s : State) (m_ : Nat) (h_ : m_ &&& 237761 = 237761) : (takeInput w x s).hide m_ = s.hide m_ := by
  refine hide_mono h_ ?_
  unfold takeInput
  repeat' split
  all_goals simp
@[simp] theorem takeSynthetic_hide (w : Fin 8) (t : SynTooth) (l : List SynTooth) (s : State) (m_ : Nat) (h_ : m_ &&& 237761 = 237761) : (takeSynthetic w t l s).hide m_ = s.hide m_ := by
  refine hide_mono h_ ?_
  simp [takeSynthetic]
@[simp] theorem dropFifo_hide (w : Fin 8) (s : State) (m_ : Nat) (h_ : m_ &&& 32897 = 32897) : (dropFifo w s).hide m_ = s.hide m_ := by
  refine hide_mono h_ ?_
  simp [dropFifo]
@[simp] theorem checkWheel_hide (w : Fin 8) (s : State) (m_ : Nat) (h_ : m_ &&& 41153 = 41153) : (checkWheel w s).2.hide m_ = s.hide m_ := by
  refine hide_mono h_ ?_
  simp [checkWheel]
theorem execTooth_hide (w : Fin 8) (s : State) : ∀ u_, execTooth w s = .next u_ → u_.hide 237761 = s.hide 237761 := by
  intro u_ h
  unfold execTooth at h
  try dsimp only at h
  first
  | (simp only [actWhen_next] at h; subst h; first | (simp; done) | ((repeat' (first | with_reducible rfl | (simp; done) | (rw [State.each_hide]) | (rw [State.when_hide]) | (rw [State.foldl_hide]) | (refine upRequest_hide _ _ _ _ (by decide) ?_) | (refine downRequest_hide _ _ _ _ (by decide) ?_) | (intro _ _; (try dsimp only)) | (intro _; (try dsimp only)) | split)) <;> first | with_reducible rfl | (simp [*]; done) | (apply hide_congr <;> intro hb <;> first | rfl | exact absurd hb (by decide)) | grind [State.modW_hide, checkWheel_hide, takeInput_hide, takeSynthetic_hide]))
  | (repeat' split at h) <;> first | (cases h; simp; done) | (cases h; done) | (simp only [actWhen_next] at h; subst h; first | (simp; done) | ((repeat' (first | with_reducible rfl | (simp; done) | (rw [State.each_hide]) | (rw [State.when_hide]) | (rw [State.foldl_hide]) | (refine upRequest_hide _ _ _ _ (by decide) ?_) | (refine downRequest_hide _ _ _ _ (by decide) ?_) | (intro _ _; (try dsimp only)) | (intro _; (try dsimp only)) | split)) <;> first | with_reducible rfl | (simp [*]; done) | (apply hide_congr <;> intro hb <;> first | rfl | exact absurd hb (by decide)) | grind [State.modW_hide, checkWheel_hide, takeInput_hide, takeSynthetic_hide])) | (simp at h; done)
theorem execStall_hide (w : Fin 8) (s : State) : ∀ u_, execStall w s = .next u_ → u_.hide 41153 = s.hide 41153 := by
  intro u_ h
  simp only [execStall, actWhen_next] at h
  subst h
  simp
@[simp] theorem wheelWritten_hide (w : Fin 8) (refused bad : Bool) (s : State) (m_ : Nat) (h_ : m_ &&& 1 = 1) : (wheelWritten w refused bad s).hide m_ = s.hide m_ := by
  refine hide_mono h_ ?_
  simp [wheelWritten]
@[simp] theorem rejectPush_hide (w : Fin 8) (s : State) (m_ : Nat) (h_ : m_ &&& 193 = 193) : (rejectPush w s).hide m_ = s.hide m_ := by
  refine hide_mono h_ ?_
  simp [rejectPush]
@[simp] theorem pushSynthetic_hide (w : Fin 8) (hi : Word) (s : State) (m_ : Nat) (h_ : m_ &&& 32961 = 32961) : (pushSynthetic w hi s).hide m_ = s.hide m_ := by
  refine hide_mono h_ ?_
  simp [pushSynthetic]
theorem execSyntheticToothPush_hide (w : Fin 8) (hi : Word) (s : State) : ∀ u_, execSyntheticToothPush w hi s = .next u_ → u_.hide 32961 = s.hide 32961 := by
  intro u_ h
  simp only [execSyntheticToothPush, actWhen_next] at h
  subst h
  simp
@[simp] theorem flushFifo_hide (w : Fin 8) (s : State) (m_ : Nat) (h_ : m_ &&& 172161 = 172161) : (flushFifo w s).hide m_ = s.hide m_ := by
  refine hide_mono h_ ?_
  simp [flushFifo]
theorem execFifoFlush_hide (w : Fin 8) (s : State) : ∀ u_, execFifoFlush w s = .next u_ → u_.hide 172161 = s.hide 172161 := by
  intro u_ h
  simp only [execFifoFlush, actWhen_next] at h
  subst h
  simp
@[simp] theorem resync_hide (w : Fin 8) (s : State) (m_ : Nat) (h_ : m_ &&& 41153 = 41153) : (resync w s).hide m_ = s.hide m_ := by
  refine hide_mono h_ ?_
  simp [resync]
theorem execResync_hide (w : Fin 8) (s : State) : ∀ u_, execResync w s = .next u_ → u_.hide 41153 = s.hide 41153 := by
  intro u_ h
  simp only [execResync, actWhen_next] at h
  subst h
  simp
@[simp] theorem tryEnableWheel_hide (w : Fin 8) (s : State) (m_ : Nat) (h_ : m_ &&& 32897 = 32897) : (tryEnableWheel w s).2.hide m_ = s.hide m_ := by
  refine hide_mono h_ ?_
  simp [tryEnableWheel]
@[simp] theorem disableWheel_hide (w : Fin 8) (s : State) (m_ : Nat) (h_ : m_ &&& 41153 = 41153) : (disableWheel w s).hide m_ = s.hide m_ := by
  refine hide_mono h_ ?_
  simp [disableWheel]
@[simp] theorem setFields_hide (fs : List Field) (v : Word) (s : State) (m_ : Nat) (h_ : m_ &&& 1 = 1) : (setFields fs v s).hide m_ = s.hide m_ := by
  refine hide_mono h_ ?_
  simp [setFields]
@[simp] theorem writeWheelCtl_hide (w : Fin 8) (v : Word) (s : State) (m_ : Nat) (h_ : m_ &&& 172225 = 172225) : (writeWheelCtl w v s).hide m_ = s.hide m_ := by
  refine hide_mono h_ ?_
  simp [writeWheelCtl]
theorem execWheelEnable_hide (w : Fin 8) (v : Word) (s : State) : ∀ u_, execWheelEnable w v s = .next u_ → u_.hide 172225 = s.hide 172225 := by
  intro u_ h
  simp only [execWheelEnable, actWhen_next] at h
  subst h
  simp
@[simp] theorem writeWheelCfg_hide (w : Fin 8) (i : Nat) (v : Word) (s : State) (m_ : Nat) (h_ : m_ &&& 1 = 1) : (writeWheelCfg w i v s).hide m_ = s.hide m_ := by
  refine hide_mono h_ ?_
  simp [writeWheelCfg]
@[simp] theorem writeWheelRev_hide (w : Fin 8) (v : Word) (s : State) (m_ : Nat) (h_ : m_ &&& 1 = 1) : (writeWheelRev w v s).hide m_ = s.hide m_ := by
  refine hide_mono h_ ?_
  simp [writeWheelRev]
@[simp] theorem writeTable_hide (t a : Nat) (v : Word) (s : State) (m_ : Nat) (h_ : m_ &&& 65 = 65) : (writeTable t a v s).hide m_ = s.hide m_ := by
  refine hide_mono h_ ?_
  unfold writeTable
  dsimp only
  repeat' split
  all_goals simp
@[simp] theorem writePhCfg_hide (u : Fin 4) (v : Word) (s : State) (m_ : Nat) (h_ : m_ &&& 65537 = 65537) : (writePhCfg u v s).hide m_ = s.hide m_ := by
  refine hide_mono h_ ?_
  simp [writePhCfg]
theorem writeWheel_hide (off : Nat) (v : Word) (s : State) : ∀ u_, writeWheel off v s = some u_ → u_.hide 237761 = s.hide 237761 := by
  intro u_ h
  unfold writeWheel at h
  try dsimp only at h
  repeat' split at h
  all_goals first | contradiction | (cases h; first | (simp; done) | grind [State.modW_hide, pushSynthetic_hide, writePhCfg_hide, writeTable_hide, writeWheelCfg_hide, writeWheelCtl_hide, writeWheelRev_hide]) | (simp at h; done) | (simp at h; subst h; simp)
theorem execHeadArming_hide (c : Fin 64) (s : State) : ∀ u_, execHeadArming c s = .next u_ → u_.hide 139393 = s.hide 139393 := by
  intro u_ h
  simp only [execHeadArming, actWhen_next] at h
  subst h
  simp
@[simp] theorem wheelK8_hide (s : State) (m_ : Nat) (h_ : m_ &&& 32897 = 32897) : (wheelK8 s).hide m_ = s.hide m_ := by
  refine hide_mono h_ ?_
  simp [wheelK8]

/-! ## BarrierUp -/

@[simp] theorem sendHello_hide (s : State) (m_ : Nat) (h_ : m_ &&& 139393 = 139393) : (sendHello s).hide m_ = s.hide m_ := by
  refine hide_mono h_ ?_
  simp [sendHello]
@[simp] theorem sendConfig_hide (i : Nat) (s : State) (m_ : Nat) (h_ : m_ &&& 139393 = 139393) : (sendConfig i s).hide m_ = s.hide m_ := by
  refine hide_mono h_ ?_
  simp [sendConfig]
@[simp] theorem sendFailstate_hide (s : State) (m_ : Nat) (h_ : m_ &&& 139393 = 139393) : (sendFailstate s).hide m_ = s.hide m_ := by
  refine hide_mono h_ ?_
  simp [sendFailstate]
@[simp] theorem syncReached_hide (s : State) (m_ : Nat) (h_ : m_ &&& 139393 = 139393) : (syncReached s).hide m_ = s.hide m_ := by
  refine hide_mono h_ ?_
  simp [syncReached]
@[simp] theorem decideRom_hide (versions : List Byte) (s : State) (m_ : Nat) (h_ : m_ &&& 131137 = 131137) : (decideRom versions s).hide m_ = s.hide m_ := by
  refine hide_mono h_ ?_
  simp [decideRom]
@[simp] theorem handshakeDone_hide (s : State) (m_ : Nat) (h_ : m_ &&& 139393 = 139393) : (handshakeDone s).hide m_ = s.hide m_ := by
  refine hide_mono h_ ?_
  simp [handshakeDone]
@[simp] theorem handshakeStep_hide (status : Byte) (payload : List Byte) (s : State) (m_ : Nat) (h_ : m_ &&& 139457 = 139457) : (handshakeStep status payload s).hide m_ = s.hide m_ := by
  refine hide_mono h_ ?_
  unfold handshakeStep
  dsimp only
  repeat' split
  all_goals simp
theorem execHandshake_hide (s : State) : ∀ u_, execHandshake s = .next u_ → u_.hide 139393 = s.hide 139393 := by
  intro u_ h
  simp only [execHandshake, actWhen_next] at h
  subst h
  simp
theorem upFrame_hide (f : List Byte) (type : Byte) (k : State → State) (s : State) (m : Nat) (hm : m &&& 131137 = 131137)
    (h : ∀ s, (k s).hide m = s.hide m) : ∀ t, upFrame f type k s = .next t → t.hide m = s.hide m := by
  intro t ht
  unfold upFrame at ht
  split at ht
  · simp at ht
  · simp only [actWhen_next] at ht; subst ht
    repeat' split
    all_goals simp [h, mask_sub hm]
@[simp] theorem answerUp_hide (seq : BitVec 16) (status : Byte) (s : State) (m_ : Nat) (h_ : m_ &&& 131072 = 131072) : (answerUp seq status s).hide m_ = s.hide m_ := by
  refine hide_mono h_ ?_
  simp [answerUp]
@[simp] theorem upRequest_hide (f : List Byte) (k : State → State) (s : State) (m : Nat) (hm : m &&& 131072 = 131072) (h :
    ∀ s, (k s).hide m = s.hide m) : (upRequest f k s).hide m = s.hide m := by
  unfold upRequest; dsimp only; split
  · simp [mask_sub hm]
  · simp [h, mask_sub hm]
@[simp] theorem takeOut_hide (seq : BitVec 16) (s : State) (m_ : Nat) (h_ : m_ &&& 131072 = 131072) : (takeOut seq s).hide m_ = s.hide m_ := by
  refine hide_mono h_ ?_
  simp [takeOut]
@[simp] theorem completed_hide (r : Request) (status : Byte) (payload : List Byte) (s : State) (m_ : Nat) (h_ : m_ &&& 139457 = 139457) : (completed r status payload s).hide m_ = s.hide m_ := by
  refine hide_mono h_ ?_
  unfold completed
  dsimp only
  repeat' split
  all_goals simp
theorem nodeCompletion_hide (f : List Byte) (s : State) : ∀ u_, nodeCompletion f s = .next u_ → u_.hide 139457 = s.hide 139457 := by
  intro u_ h
  unfold nodeCompletion at h
  refine upFrame_hide _ _ _ _ _ (by decide) ?_ u_ h
  intro s; (try dsimp only)
  (repeat' (first | with_reducible rfl | (simp; done) | (rw [State.each_hide]) | (rw [State.when_hide]) | (rw [State.foldl_hide]) | (refine upRequest_hide _ _ _ _ (by decide) ?_) | (refine downRequest_hide _ _ _ _ (by decide) ?_) | (intro _ _; (try dsimp only)) | (intro _; (try dsimp only)) | split)) <;> first | with_reducible rfl | (simp [*]; done) | (apply hide_congr <;> intro hb <;> first | rfl | exact absurd hb (by decide)) | grind [State.count_hide, State.interrupt_hide, barFault_hide, completed_hide, sendWaiting_hide, takeOut_hide, upFrame_hide]
theorem execStatusFrame_hide (f : List Byte) (s : State) : ∀ u_, execStatusFrame f s = .next u_ → u_.hide 139457 = s.hide 139457 := by
  intro u_ h
  unfold execStatusFrame at h
  refine upFrame_hide _ _ _ _ _ (by decide) ?_ u_ h
  intro s; (try dsimp only)
  (repeat' (first | with_reducible rfl | (simp; done) | (rw [State.each_hide]) | (rw [State.when_hide]) | (rw [State.foldl_hide]) | (refine upRequest_hide _ _ _ _ (by decide) ?_) | (refine downRequest_hide _ _ _ _ (by decide) ?_) | (intro _ _; (try dsimp only)) | (intro _; (try dsimp only)) | split)) <;> first | with_reducible rfl | (simp [*]; done) | (apply hide_congr <;> intro hb <;> first | rfl | exact absurd hb (by decide)) | grind [State.interrupt_hide, State.put_hide, State.putBit_hide, State.setBar_hide, handshakeAgain_hide, syncReached_hide, upFrame_hide]
theorem execTeeth_hide (f : List Byte) (s : State) : ∀ u_, execTeeth f s = .next u_ → u_.hide 163905 = s.hide 163905 := by
  intro u_ h
  unfold execTeeth at h
  refine upFrame_hide _ _ _ _ _ (by decide) ?_ u_ h
  intro s; (try dsimp only)
  (repeat' (first | with_reducible rfl | (simp; done) | (rw [State.each_hide]) | (rw [State.when_hide]) | (rw [State.foldl_hide]) | (refine upRequest_hide _ _ _ _ (by decide) ?_) | (refine downRequest_hide _ _ _ _ (by decide) ?_) | (intro _ _; (try dsimp only)) | (intro _; (try dsimp only)) | split)) <;> first | with_reducible rfl | (simp [*]; done) | (apply hide_congr <;> intro hb <;> first | rfl | exact absurd hb (by decide)) | grind [State.setW_hide, upFrame_hide, upRequest_hide]
@[simp] theorem State.putBitAt_hide (f : Field) (i : Nat) (b : Bool) (s : State) (m_ : Nat) (h_ : m_ &&& 1 = 1) : (State.putBitAt f i b s).hide m_ = s.hide m_ := by
  refine hide_mono h_ ?_
  simp [State.putBitAt]
theorem execHvEvent_hide (f : List Byte) (s : State) : ∀ u_, execHvEvent f s = .next u_ → u_.hide 173249 = s.hide 173249 := by
  intro u_ h
  unfold execHvEvent at h
  refine upFrame_hide _ _ _ _ _ (by decide) ?_ u_ h
  intro s; (try dsimp only)
  (repeat' (first | with_reducible rfl | (simp; done) | (rw [State.each_hide]) | (rw [State.when_hide]) | (rw [State.foldl_hide]) | (refine upRequest_hide _ _ _ _ (by decide) ?_) | (refine downRequest_hide _ _ _ _ (by decide) ?_) | (intro _ _; (try dsimp only)) | (intro _; (try dsimp only)) | split)) <;> first | with_reducible rfl | (simp [*]; done) | (apply hide_congr <;> intro hb <;> first | rfl | exact absurd hb (by decide)) | grind [State.interrupt_hide, State.putBitAt_hide, State.raise_hide, hvReported_hide, takeEdge_hide, upFrame_hide, upRequest_hide]
theorem execMeasure_hide (f : List Byte) (s : State) : ∀ u_, execMeasure f s = .next u_ → u_.hide 131265 = s.hide 131265 := by
  intro u_ h
  unfold execMeasure at h
  refine upFrame_hide _ _ _ _ _ (by decide) ?_ u_ h
  intro s; (try dsimp only)
  (repeat' (first | with_reducible rfl | (simp; done) | (rw [State.each_hide]) | (rw [State.when_hide]) | (rw [State.foldl_hide]) | (refine upRequest_hide _ _ _ _ (by decide) ?_) | (refine downRequest_hide _ _ _ _ (by decide) ?_) | (intro _ _; (try dsimp only)) | (intro _; (try dsimp only)) | split)) <;> first | with_reducible rfl | (simp [*]; done) | (apply hide_congr <;> intro hb <;> first | rfl | exact absurd hb (by decide)) | grind [State.interrupt_hide, State.put_hide, State.putBit_hide, upFrame_hide, upRequest_hide]
theorem execOptime_hide (f : List Byte) (s : State) : ∀ u_, execOptime f s = .next u_ → u_.hide 131137 = s.hide 131137 := by
  intro u_ h
  unfold execOptime at h
  refine upFrame_hide _ _ _ _ _ (by decide) ?_ u_ h
  intro s; (try dsimp only)
  (repeat' (first | with_reducible rfl | (simp; done) | (rw [State.each_hide]) | (rw [State.when_hide]) | (rw [State.foldl_hide]) | (refine upRequest_hide _ _ _ _ (by decide) ?_) | (refine downRequest_hide _ _ _ _ (by decide) ?_) | (intro _ _; (try dsimp only)) | (intro _; (try dsimp only)) | split)) <;> first | with_reducible rfl | (simp [*]; done) | (apply hide_congr <;> intro hb <;> first | rfl | exact absurd hb (by decide)) | grind [State.put_hide, upFrame_hide, upRequest_hide]
theorem nodeRetransmit_hide (seq : BitVec 16) (s : State) : ∀ u_, nodeRetransmit seq s = .next u_ → u_.hide 131073 = s.hide 131073 := by
  intro u_ h
  simp only [nodeRetransmit, actWhen_next] at h
  subst h
  repeat' split
  all_goals simp
@[simp] theorem failRequest_hide (r : Request) (s : State) (m_ : Nat) (h_ : m_ &&& 139457 = 139457) : (failRequest r s).hide m_ = s.hide m_ := by
  refine hide_mono h_ ?_
  simp [failRequest]
theorem nodeTimeout_hide (seq : BitVec 16) (s : State) : ∀ u_, nodeTimeout seq s = .next u_ → u_.hide 139457 = s.hide 139457 := by
  intro u_ h
  simp only [nodeTimeout, actWhen_next] at h
  subst h
  repeat' split
  all_goals simp
@[simp] theorem linkDown_hide (s : State) (m_ : Nat) (h_ : m_ &&& 139457 = 139457) : (linkDown s).hide m_ = s.hide m_ := by
  refine hide_mono h_ ?_
  simp [linkDown]
theorem execLinkDown_hide (s : State) : ∀ u_, execLinkDown s = .next u_ → u_.hide 139457 = s.hide 139457 := by
  intro u_ h
  simp only [execLinkDown, actWhen_next] at h
  subst h
  simp
theorem execTimeFrameSend_hide (s : State) : ∀ u_, execTimeFrameSend s = .next u_ → u_.hide 131072 = s.hide 131072 := by
  intro u_ h
  simp only [execTimeFrameSend, actWhen_next] at h
  subst h
  simp
@[simp] theorem mailboxGo_hide (s : State) (m_ : Nat) (h_ : m_ &&& 139393 = 139393) : (mailboxGo s).hide m_ = s.hide m_ := by
  refine hide_mono h_ ?_
  simp [mailboxGo]
@[simp] theorem writeMailbox_hide (v : Word) (s : State) (m_ : Nat) (h_ : m_ &&& 139393 = 139393) : (writeMailbox v s).hide m_ = s.hide m_ := by
  refine hide_mono h_ ?_
  simp [writeMailbox]
theorem execMailboxRequest_hide (v : Word) (s : State) : ∀ u_, execMailboxRequest v s = .next u_ → u_.hide 139393 = s.hide 139393 := by
  intro u_ h
  simp only [execMailboxRequest, actWhen_next] at h
  subst h
  simp
theorem writeBar_hide (off : Nat) (v : Word) (s : State) : ∀ u_, writeBar off v s = some u_ → u_.hide 139393 = s.hide 139393 := by
  intro u_ h
  unfold writeBar at h
  try dsimp only at h
  repeat' split at h
  all_goals first | contradiction | (cases h; first | (simp; done) | grind [writeMailbox_hide]) | (simp at h; done) | (simp at h; subst h; simp)
@[simp] theorem sendFailnow_hide (s : State) (m_ : Nat) (h_ : m_ &&& 131072 = 131072) : (sendFailnow s).hide m_ = s.hide m_ := by
  refine hide_mono h_ ?_
  simp [sendFailnow]

end Sys2Proof.Machine
end

