-- ==== Sys2Proof/Laws/FrameRing.lean ====
section
/-! SUPPORT. The frame of each operation and command. Performance monitoring, TSI, Flue, time and the ring. -/

set_option maxRecDepth 100000
set_option linter.all false

namespace Sys2Proof.Machine

/-! ## Perf -/

@[simp] theorem State.modRing_hide (f : Ring → Ring) (s : State) (m_ : Nat) (h_ : m_ &&& 4194304 = 4194304) : (State.modRing f s).hide m_ = s.hide m_ := by
  refine hide_mono h_ ?_
  simp [State.modRing]
@[simp] theorem State.modPort_hide (p : Fin 4) (f : Port → Port) (s : State) (m_ : Nat) (h_ : m_ &&& 4194304 = 4194304) : (State.modPort p f s).hide m_ = s.hide m_ := by
  refine hide_mono h_ ?_
  simp [State.modPort]
@[simp] theorem State.modPerf_hide (p : Fin 4) (f : PortPerf → PortPerf) (s : State) (m_ : Nat) (h_ : m_ &&& 4194304 = 4194304) : (State.modPerf p f s).hide m_ = s.hide m_ := by
  refine hide_mono h_ ?_
  simp [State.modPerf]
@[simp] theorem portSecond_hide (c : Int) (p : Fin 4) (s : State) (m_ : Nat) (h_ : m_ &&& 4194305 = 4194305) : (portSecond c p s).hide m_ = s.hide m_ := by
  refine hide_mono h_ ?_
  simp [portSecond]
@[simp] theorem secondEnds_hide (c : Int) (valid : Bool) (s : State) (m_ : Nat) (h_ : m_ &&& 6295553 = 6295553) : (secondEnds c valid s).hide m_ = s.hide m_ := by
  refine hide_mono h_ ?_
  unfold secondEnds
  dsimp only
  repeat' split
  all_goals first | rfl | simp
@[simp] theorem close15_hide (suspect partial_ : Bool) (start : Int) (p : Fin 4) (s : State) (m_ : Nat) (h_ : m_ &&& 4198400 = 4198400) : (close15 suspect partial_ start p s).hide m_ = s.hide m_ := by
  refine hide_mono h_ ?_
  simp [close15]
@[simp] theorem close24_hide (suspect partial_ : Bool) (start : Int) (p : Fin 4) (s : State) (m_ : Nat) (h_ : m_ &&& 4198400 = 4198400) : (close24 suspect partial_ start p s).hide m_ = s.hide m_ := by
  refine hide_mono h_ ?_
  simp [close24]
@[simp] theorem dayDip_hide (s : State) (m_ : Nat) (h_ : m_ &&& 4194304 = 4194304) : (dayDip s).hide m_ = s.hide m_ := by
  refine hide_mono h_ ?_
  simp [dayDip]
@[simp] theorem closeDue_hide (c : Int) (valid : Bool) (s : State) (m_ : Nat) (h_ : m_ &&& 4198529 = 4198529) : (closeDue c valid s).hide m_ = s.hide m_ := by
  refine hide_mono h_ ?_
  simp [closeDue]
@[simp] theorem stepPerf_hide (forward : Bool) (before after : Int) (valid : Bool) (s : State) (m_ : Nat) (h_ : m_ &&& 6295681 = 6295681) : (stepPerf forward before after valid s).hide m_ = s.hide m_ := by
  refine hide_mono h_ ?_
  simp [stepPerf]
@[simp] theorem resetBins_hide (c : Int) (s : State) (m_ : Nat) (h_ : m_ &&& 4194304 = 4194304) : (resetBins c s).hide m_ = s.hide m_ := by
  refine hide_mono h_ ?_
  simp [resetBins]
@[simp] theorem writePerfSel_hide (v : Word) (s : State) (m_ : Nat) (h_ : m_ &&& 1 = 1) : (writePerfSel v s).hide m_ = s.hide m_ := by
  refine hide_mono h_ ?_
  simp [writePerfSel]
theorem execPerfSel_hide (v : Word) (s : State) : ∀ u_, execPerfSel v s = .next u_ → u_.hide 1 = s.hide 1 := by
  intro u_ h
  simp only [execPerfSel, actWhen_next] at h
  subst h
  simp

/-! ## Tsi -/

@[simp] theorem State.modTsi_hide (f : Tsi → Tsi) (s : State) (m_ : Nat) (h_ : m_ &&& 1048576 = 1048576) : (State.modTsi f s).hide m_ = s.hide m_ := by
  refine hide_mono h_ ?_
  simp [State.modTsi]
@[simp] theorem tsiFault_hide (kind : BitVec 5) (cls : BitVec 2) (reason : BitVec 8) (detail : Nat) (injected : Bool) (s : State) (m_ : Nat) (h_ : m_ &&& 65 = 65) : (tsiFault kind cls reason detail injected s).hide m_ = s.hide m_ := by
  refine hide_mono h_ ?_
  simp [tsiFault]
@[simp] theorem noteBad_hide (port slot : Nat) (w : Word) (s : State) (m_ : Nat) (h_ : m_ &&& 1048641 = 1048641) : (noteBad port slot w s).hide m_ = s.hide m_ := by
  refine hide_mono h_ ?_
  simp [noteBad]
@[simp] theorem putEntry_hide (page : Bool) (port slot : Nat) (w : Word) (s : State) (m_ : Nat) (h_ : m_ &&& 1048641 = 1048641) : (putEntry page port slot w s).hide m_ = s.hide m_ := by
  refine hide_mono h_ ?_
  simp [putEntry]
@[simp] theorem cmAdvance_hide (s : State) (m_ : Nat) (h_ : m_ &&& 1 = 1) : (cmAdvance s).hide m_ = s.hide m_ := by
  refine hide_mono h_ ?_
  simp [cmAdvance]
@[simp] theorem readCmData_hide (s : State) (m_ : Nat) (h_ : m_ &&& 67108865 = 67108865) : (readCmData s).2.hide m_ = s.hide m_ := by
  refine hide_mono h_ ?_
  simp [readCmData]
@[simp] theorem writeCmData_hide (v : Word) (s : State) (m_ : Nat) (h_ : m_ &&& 1048641 = 1048641) : (writeCmData v s).hide m_ = s.hide m_ := by
  refine hide_mono h_ ?_
  simp [writeCmData]
theorem execCmData_hide (write : Bool) (v : Word) (s : State) : ∀ u_, execCmData write v s = .next u_ → u_.hide 68157505 = s.hide 68157505 := by
  intro u_ h
  simp only [execCmData, actWhen_next] at h
  subst h
  simp
@[simp] theorem swapRefused_hide (s : State) (m_ : Nat) (h_ : m_ &&& 65 = 65) : (swapRefused s).hide m_ = s.hide m_ := by
  refine hide_mono h_ ?_
  simp [swapRefused]
@[simp] theorem requestSwap_hide (s : State) (m_ : Nat) (h_ : m_ &&& 1048641 = 1048641) : (requestSwap s).hide m_ = s.hide m_ := by
  refine hide_mono h_ ?_
  simp [requestSwap]
@[simp] theorem dropSwap_hide (s : State) (m_ : Nat) (h_ : m_ &&& 1048577 = 1048577) : (dropSwap s).hide m_ = s.hide m_ := by
  refine hide_mono h_ ?_
  simp [dropSwap]
@[simp] theorem cancelSwap_hide (s : State) (m_ : Nat) (h_ : m_ &&& 1048577 = 1048577) : (cancelSwap s).hide m_ = s.hide m_ := by
  refine hide_mono h_ ?_
  simp [cancelSwap]
@[simp] theorem requestCopy_hide (s : State) (m_ : Nat) (h_ : m_ &&& 1048641 = 1048641) : (requestCopy s).hide m_ = s.hide m_ := by
  refine hide_mono h_ ?_
  simp [requestCopy]
@[simp] theorem writeTsiCtl_hide (v : Word) (s : State) (m_ : Nat) (h_ : m_ &&& 1048641 = 1048641) : (writeTsiCtl v s).hide m_ = s.hide m_ := by
  refine hide_mono h_ ?_
  simp [writeTsiCtl]
theorem execSwap_hide (s : State) : ∀ u_, execSwap s = .next u_ → u_.hide 1048641 = s.hide 1048641 := by
  intro u_ h
  simp only [execSwap, actWhen_next] at h
  subst h
  simp
theorem execSwapCancel_hide (s : State) : ∀ u_, execSwapCancel s = .next u_ → u_.hide 1048577 = s.hide 1048577 := by
  intro u_ h
  simp only [execSwapCancel, actWhen_next] at h
  subst h
  simp
theorem execCopy_hide (s : State) : ∀ u_, execCopy s = .next u_ → u_.hide 1048641 = s.hide 1048641 := by
  intro u_ h
  simp only [execCopy, actWhen_next] at h
  subst h
  simp
@[simp] theorem setPage_hide (page : Bool) (entries : List (Nat × Word)) (s : State) (m_ : Nat) (h_ : m_ &&& 1048576 = 1048576) : (setPage page entries s).hide m_ = s.hide m_ := by
  refine hide_mono h_ ?_
  simp [setPage]
theorem execCopyDone_hide (s : State) : ∀ u_, execCopyDone s = .next u_ → u_.hide 1048577 = s.hide 1048577 := by
  intro u_ h
  simp only [execCopyDone, actWhen_next] at h
  subst h
  repeat' split
  all_goals simp
@[simp] theorem enableDrops_hide (s : State) (m_ : Nat) (h_ : m_ &&& 4194305 = 4194305) : (enableDrops s).hide m_ = s.hide m_ := by
  refine hide_mono h_ ?_
  simp [enableDrops]
@[simp] theorem swapDone_hide (s : State) (m_ : Nat) (h_ : m_ &&& 5243009 = 5243009) : (swapDone s).hide m_ = s.hide m_ := by
  refine hide_mono h_ ?_
  simp [swapDone]
@[simp] theorem portSwap_hide (p : Fin 4) (n : Nat) (s : State) (m_ : Nat) (h_ : m_ &&& 5243009 = 5243009) : (portSwap p n s).hide m_ = s.hide m_ := by
  refine hide_mono h_ ?_
  unfold portSwap
  dsimp only
  repeat' split
  all_goals simp
@[simp] theorem loadPage_hide (page : Bool) (entries : List (Nat × Nat × Word)) (s : State) (m_ : Nat) (h_ : m_ &&& 1048641 = 1048641) : (loadPage page entries s).hide m_ = s.hide m_ := by
  refine hide_mono h_ ?_
  simp [loadPage]
@[simp] theorem loadPages_hide (entries : List (Nat × Nat × Word)) (s : State) (m_ : Nat) (h_ : m_ &&& 1048641 = 1048641) : (loadPages entries s).hide m_ = s.hide m_ := by
  refine hide_mono h_ ?_
  simp [loadPages]

/-! ## Flue -/

@[simp] theorem State.modFlue_hide (f : Flue → Flue) (s : State) (m_ : Nat) (h_ : m_ &&& 2097152 = 2097152) : (State.modFlue f s).hide m_ = s.hide m_ := by
  refine hide_mono h_ ?_
  simp [State.modFlue]
@[simp] theorem flueFault_hide (kind : BitVec 5) (cls : BitVec 2) (reason : BitVec 8) (detail : Nat) (injected : Bool) (s : State) (m_ : Nat) (h_ : m_ &&& 65 = 65) : (flueFault kind cls reason detail injected s).hide m_ = s.hide m_ := by
  refine hide_mono h_ ?_
  simp [flueFault]
@[simp] theorem appAdvance_hide (s : State) (m_ : Nat) (h_ : m_ &&& 129 = 129) : (appAdvance s).hide m_ = s.hide m_ := by
  refine hide_mono h_ ?_
  simp [appAdvance]
@[simp] theorem appTake_hide (x0 : Nat) (s : State) (m_ : Nat) (h_ : m_ &&& 1217 = 1217) :
    (appTake x0 s).2.hide m_ = s.hide m_ := by
  refine hide_mono h_ ?_
  clear h_
  induction x0 generalizing s   <;> first | with_reducible rfl | (simp [appTake]; done) | (simp [appTake, *]; done) | (unfold appTake; (try dsimp only); (repeat' (first | with_reducible rfl | (simp; done) | (rw [State.each_hide]) | (rw [State.when_hide]) | (rw [State.foldl_hide]) | (refine upRequest_hide _ _ _ _ (by decide) ?_) | (refine downRequest_hide _ _ _ _ (by decide) ?_) | (intro _ _; (try dsimp only)) | (intro _; (try dsimp only)) | split)) <;> first | with_reducible rfl | (simp [*]; done) | (apply hide_congr <;> intro hb <;> first | rfl | exact absurd hb (by decide)) | grind [State.eventBit_hide, State.put_hide, State.spmReadBlock_hide, appAdvance_hide, flueFault_hide]) | grind [appTake, State.eventBit_hide, State.put_hide, State.spmReadBlock_hide, appAdvance_hide, flueFault_hide]
@[simp] theorem takeCell_hide (s : State) (m_ : Nat) (h_ : m_ &&& 2102465 = 2102465) :
    (takeCell s).2.hide m_ = s.hide m_ := by
  refine hide_mono h_ ?_
  first
  | (simp [takeCell]; done)
  | (unfold takeCell; (try dsimp only); (repeat' (first | with_reducible rfl | (simp; done) | (rw [State.each_hide]) | (rw [State.when_hide]) | (rw [State.foldl_hide]) | (refine upRequest_hide _ _ _ _ (by decide) ?_) | (refine downRequest_hide _ _ _ _ (by decide) ?_) | (intro _ _; (try dsimp only)) | (intro _; (try dsimp only)) | split)) <;> first | with_reducible rfl | (simp [*]; done) | (apply hide_congr <;> intro hb <;> first | rfl | exact absurd hb (by decide)) | grind [State.admitReports_hide, State.modFlue_hide, appTake_hide])
@[simp] theorem toTxd_hide (c : List Byte) (s : State) (m_ : Nat) (h_ : m_ &&& 2097281 = 2097281) : (toTxd c s).hide m_ = s.hide m_ := by
  refine hide_mono h_ ?_
  simp [toTxd]
@[simp] theorem cellCrcFault_hide (dir : Nat) (injected : Bool) (s : State) (m_ : Nat) (h_ : m_ &&& 2097217 = 2097217) : (cellCrcFault dir injected s).hide m_ = s.hide m_ := by
  refine hide_mono h_ ?_
  simp [cellCrcFault]
@[simp] theorem lineCellStep_hide (dir : Nat) (open_ : Bool) (c : List Byte) (s : State) (m_ : Nat) (h_ : m_ &&& 2102465 = 2102465) : (lineCellStep dir open_ c s).2.hide m_ = s.hide m_ := by
  refine hide_mono h_ ?_
  first
  | (simp [lineCellStep]; done)
  | (unfold lineCellStep; (try dsimp only); (repeat' (first | with_reducible rfl | (simp; done) | (rw [State.each_hide]) | (rw [State.when_hide]) | (rw [State.foldl_hide]) | (refine upRequest_hide _ _ _ _ (by decide) ?_) | (refine downRequest_hide _ _ _ _ (by decide) ?_) | (intro _ _; (try dsimp only)) | (intro _; (try dsimp only)) | split)) <;> first | with_reducible rfl | (simp [*]; done) | (apply hide_congr <;> intro hb <;> first | rfl | exact absurd hb (by decide)) | grind [State.count_hide, State.inject_hide, State.modFlue_hide, cellCrcFault_hide, takeCell_hide])
@[simp] theorem lineCells_hide (dir : Nat) (open_ : Bool) (x0 : List (List Byte)) (s : State) (m_ : Nat) (h_ : m_ &&& 2102465 = 2102465) : (lineCells dir open_ x0 s).2.hide m_ = s.hide m_ := by
  refine hide_mono h_ ?_
  clear h_
  induction x0 generalizing s dir open_  <;> first | with_reducible rfl | (simp [lineCells]; done) | (simp [lineCells, *]; done) | (unfold lineCells; (try dsimp only); (repeat' (first | with_reducible rfl | (simp; done) | (rw [State.each_hide]) | (rw [State.when_hide]) | (rw [State.foldl_hide]) | (refine upRequest_hide _ _ _ _ (by decide) ?_) | (refine downRequest_hide _ _ _ _ (by decide) ?_) | (intro _ _; (try dsimp only)) | (intro _; (try dsimp only)) | split)) <;> first | with_reducible rfl | (simp [*]; done) | (apply hide_congr <;> intro hb <;> first | rfl | exact absurd hb (by decide)) | grind [lineCellStep_hide, toTxd_hide]) | grind [lineCells, lineCellStep_hide, toTxd_hide]
theorem execTxdFrame_hide (p : Fin 2) (s : State) : ∀ u_, execTxdFrame p s = .next u_ → u_.hide 2097152 = s.hide 2097152 := by
  intro u_ h
  simp only [execTxdFrame, actWhen_next] at h
  subst h
  simp
@[simp] theorem queuePortCell_hide (p : Fin 2) (c : List Byte) (s : State) (m_ : Nat) (h_ : m_ &&& 2097281 = 2097281) : (queuePortCell p c s).hide m_ = s.hide m_ := by
  refine hide_mono h_ ?_
  simp [queuePortCell]
@[simp] theorem rxdBad_hide (p : Fin 2) (injected : Bool) (s : State) (m_ : Nat) (h_ : m_ &&& 2097345 = 2097345) : (rxdBad p injected s).hide m_ = s.hide m_ := by
  refine hide_mono h_ ?_
  simp [rxdBad]
@[simp] theorem rxdTake_hide (p : Fin 2) (m : Nat) (b : List Byte) (s : State) (m_ : Nat) (h_ : m_ &&& 2097281 = 2097281) : (rxdTake p m b s).hide m_ = s.hide m_ := by
  refine hide_mono h_ ?_
  simp [rxdTake]
theorem execRxdFrame_hide (p : Fin 2) (b : List Byte) (s : State) : ∀ u_, execRxdFrame p b s = .next u_ → u_.hide 2097345 = s.hide 2097345 := by
  intro u_ h
  unfold execRxdFrame at h
  try dsimp only at h
  first
  | (simp only [actWhen_next] at h; subst h; first | (simp; done) | ((repeat' (first | with_reducible rfl | (simp; done) | (rw [State.each_hide]) | (rw [State.when_hide]) | (rw [State.foldl_hide]) | (refine upRequest_hide _ _ _ _ (by decide) ?_) | (refine downRequest_hide _ _ _ _ (by decide) ?_) | (intro _ _; (try dsimp only)) | (intro _; (try dsimp only)) | split)) <;> first | with_reducible rfl | (simp [*]; done) | (apply hide_congr <;> intro hb <;> first | rfl | exact absurd hb (by decide)) | grind [State.inject_hide, rxdBad_hide, rxdTake_hide]))
  | (repeat' split at h) <;> first | (cases h; simp; done) | (cases h; done) | (simp only [actWhen_next] at h; subst h; first | (simp; done) | ((repeat' (first | with_reducible rfl | (simp; done) | (rw [State.each_hide]) | (rw [State.when_hide]) | (rw [State.foldl_hide]) | (refine upRequest_hide _ _ _ _ (by decide) ?_) | (refine downRequest_hide _ _ _ _ (by decide) ?_) | (intro _ _; (try dsimp only)) | (intro _; (try dsimp only)) | split)) <;> first | with_reducible rfl | (simp [*]; done) | (apply hide_congr <;> intro hb <;> first | rfl | exact absurd hb (by decide)) | grind [State.inject_hide, rxdBad_hide, rxdTake_hide])) | (simp at h; done)
theorem writeFlue_hide (off : Nat) (v : Word) (s : State) : ∀ u_, writeFlue off v s = some u_ → u_.hide 1 = s.hide 1 := by
  intro u_ h
  unfold writeFlue at h
  try dsimp only at h
  repeat' split at h
  all_goals first | contradiction | (cases h; first | (simp; done) | grind [State.put_hide]) | (simp at h; done) | (simp at h; subst h; simp)

/-! ## Time -/

@[simp] theorem State.modT_hide (f : TimeUnit → TimeUnit) (s : State) (m_ : Nat) (h_ : m_ &&& 524288 = 524288) : (State.modT f s).hide m_ = s.hide m_ := by
  refine hide_mono h_ ?_
  simp [State.modT]
@[simp] theorem nearest_hide (n : Int) (d : Nat) (s : State) (m_ : Nat) (h_ : m_ &&& 67108864 = 67108864) : (nearest n d s).2.hide m_ = s.hide m_ := by
  refine hide_mono h_ ?_
  simp [nearest]
@[simp] theorem openDiv_hide (n : Int) (d : Nat) (s : State) (m_ : Nat) (h_ : m_ &&& 67108864 = 67108864) : (openDiv n d s).2.hide m_ = s.hide m_ := by
  refine hide_mono h_ ?_
  simp [openDiv]
@[simp] theorem State.timeEvent_hide (f : Field) (src : Nat) (s : State) (m_ : Nat) (h_ : m_ &&& 129 = 129) : (State.timeEvent f src s).hide m_ = s.hide m_ := by
  refine hide_mono h_ ?_
  simp [State.timeEvent]
@[simp] theorem timeFault_hide (kind : BitVec 5) (reason : BitVec 8) (detail : BitVec 24) (s : State) (m_ : Nat) (h_ : m_ &&& 65 = 65) : (timeFault kind reason detail s).hide m_ = s.hide m_ := by
  refine hide_mono h_ ?_
  simp [timeFault]
@[simp] theorem noteValid_hide (s : State) (m_ : Nat) (h_ : m_ &&& 4194304 = 4194304) : (noteValid s).hide m_ = s.hide m_ := by
  refine hide_mono h_ ?_
  simp [noteValid]
@[simp] theorem setTimeState_hide (n : Nat) (s : State) (m_ : Nat) (h_ : m_ &&& 4718785 = 4718785) : (setTimeState n s).hide m_ = s.hide m_ := by
  refine hide_mono h_ ?_
  simp [setTimeState]
@[simp] theorem steer_hide (x : Int) (s : State) (m_ : Nat) (h_ : m_ &&& 524289 = 524289) : (steer x s).hide m_ = s.hide m_ := by
  refine hide_mono h_ ?_
  simp [steer]
@[simp] theorem stepTime_hide (d : Int) (s : State) (m_ : Nat) (h_ : m_ &&& 73937091 = 73937091) : (stepTime d s).hide m_ = s.hide m_ := by
  refine hide_mono h_ ?_
  simp [stepTime]
theorem execStep_hide (s : State) : ∀ u_, execStep s = .next u_ → u_.hide 73937091 = s.hide 73937091 := by
  intro u_ h
  simp only [execStep, actWhen_next] at h
  subst h
  repeat' split
  all_goals simp
@[simp] theorem offsetSample_hide (x : Int) (source : Bool) (s : State) (m_ : Nat) (h_ : m_ &&& 71827649 = 71827649) : (offsetSample x source s).hide m_ = s.hide m_ := by
  refine hide_mono h_ ?_
  unfold offsetSample
  dsimp only
  repeat' split
  all_goals simp
theorem execLocked_hide (s : State) : ∀ u_, execLocked s = .next u_ → u_.hide 4718785 = s.hide 4718785 := by
  intro u_ h
  simp only [execLocked, actWhen_next] at h
  subst h
  repeat' split
  all_goals simp
theorem execHoldoverExpired_hide (s : State) : ∀ u_, execHoldoverExpired s = .next u_ → u_.hide 4718785 = s.hide 4718785 := by
  intro u_ h
  simp only [execHoldoverExpired, actWhen_next] at h
  subst h
  simp
@[simp] theorem referenceChanged_hide (s : State) (m_ : Nat) (h_ : m_ &&& 4718785 = 4718785) : (referenceChanged s).hide m_ = s.hide m_ := by
  refine hide_mono h_ ?_
  simp [referenceChanged]
@[simp] theorem timeResume_hide (s : State) (m_ : Nat) (h_ : m_ &&& 4718785 = 4718785) : (timeResume s).hide m_ = s.hide m_ := by
  refine hide_mono h_ ?_
  simp [timeResume]
@[simp] theorem sourceInvalid_hide (s : State) (m_ : Nat) (h_ : m_ &&& 4718785 = 4718785) : (sourceInvalid s).hide m_ = s.hide m_ := by
  refine hide_mono h_ ?_
  simp [sourceInvalid]
@[simp] theorem sourceReject_hide (path : Nat) (s : State) (m_ : Nat) (h_ : m_ &&& 65 = 65) : (sourceReject path s).hide m_ = s.hide m_ := by
  refine hide_mono h_ ?_
  simp [sourceReject]
@[simp] theorem writeTimeCtl_hide (v : Word) (s : State) (m_ : Nat) (h_ : m_ &&& 4718785 = 4718785) : (writeTimeCtl v s).hide m_ = s.hide m_ := by
  refine hide_mono h_ ?_
  simp [writeTimeCtl]
@[simp] theorem ppsEdge_hide (t : SysTime) (s : State) (m_ : Nat) (h_ : m_ &&& 4718785 = 4718785) : (ppsEdge t s).hide m_ = s.hide m_ := by
  refine hide_mono h_ ?_
  simp [ppsEdge]
theorem execPpsInEdge_hide (t : SysTime) (s : State) : ∀ u_, execPpsInEdge t s = .next u_ → u_.hide 4718785 = s.hide 4718785 := by
  intro u_ h
  simp only [execPpsInEdge, actWhen_next] at h
  subst h
  simp
@[simp] theorem sourceGood_hide (need : Nat) (s : State) (m_ : Nat) (h_ : m_ &&& 4718785 = 4718785) : (sourceGood need s).hide m_ = s.hide m_ := by
  refine hide_mono h_ ?_
  simp [sourceGood]
@[simp] theorem sourceSample_hide (x : Int) (s : State) (m_ : Nat) (h_ : m_ &&& 71827649 = 71827649) : (sourceSample x s).hide m_ = s.hide m_ := by
  refine hide_mono h_ ?_
  simp [sourceSample]
@[simp] theorem labelEdge_hide (s : State) (m_ : Nat) (h_ : m_ &&& 71827649 = 71827649) : (labelEdge s).hide m_ = s.hide m_ := by
  refine hide_mono h_ ?_
  unfold labelEdge
  dsimp only
  repeat' split
  all_goals simp
@[simp] theorem softSubmission_hide (s : State) (m_ : Nat) (h_ : m_ &&& 71827649 = 71827649) : (softSubmission s).hide m_ = s.hide m_ := by
  refine hide_mono h_ ?_
  simp [softSubmission]
@[simp] theorem writeSrcCmd_hide (v : Word) (s : State) (m_ : Nat) (h_ : m_ &&& 71827649 = 71827649) : (writeSrcCmd v s).hide m_ = s.hide m_ := by
  refine hide_mono h_ ?_
  unfold writeSrcCmd
  dsimp only
  repeat' split
  all_goals simp
theorem execSrcLabel_hide (v : Word) (s : State) : ∀ u_, execSrcLabel v s = .next u_ → u_.hide 71827649 = s.hide 71827649 := by
  intro u_ h
  simp only [execSrcLabel, actWhen_next] at h
  subst h
  simp
theorem execSoftSubmission_hide (v : Word) (s : State) : ∀ u_, execSoftSubmission v s = .next u_ → u_.hide 71827649 = s.hide 71827649 := by
  intro u_ h
  simp only [execSoftSubmission, actWhen_next] at h
  subst h
  simp
theorem execSourceInvalid_hide (s : State) : ∀ u_, execSourceInvalid s = .next u_ → u_.hide 4718785 = s.hide 4718785 := by
  intro u_ h
  simp only [execSourceInvalid, actWhen_next] at h
  subst h
  simp
@[simp] theorem setUtc_hide (o : Int) (s : State) (m_ : Nat) (h_ : m_ &&& 129 = 129) : (setUtc o s).hide m_ = s.hide m_ := by
  refine hide_mono h_ ?_
  simp [setUtc]
@[simp] theorem setLeap_hide (dir sec : Nat) (s : State) (m_ : Nat) (h_ : m_ &&& 129 = 129) : (setLeap dir sec s).hide m_ = s.hide m_ := by
  refine hide_mono h_ ?_
  simp [setLeap]
@[simp] theorem takeTable_hide (s : State) (m_ : Nat) (h_ : m_ &&& 524417 = 524417) : (takeTable s).hide m_ = s.hide m_ := by
  refine hide_mono h_ ?_
  simp [takeTable]
@[simp] theorem applyLeap_hide (s : State) (m_ : Nat) (h_ : m_ &&& 129 = 129) : (applyLeap s).hide m_ = s.hide m_ := by
  refine hide_mono h_ ?_
  simp [applyLeap]
@[simp] theorem takeReceivedUtc_hide (o : Int) (dir sec : Nat) (s : State) (m_ : Nat) (h_ : m_ &&& 524481 = 524481) : (takeReceivedUtc o dir sec s).hide m_ = s.hide m_ := by
  refine hide_mono h_ ?_
  unfold takeReceivedUtc
  dsimp only
  repeat' split
  all_goals simp
@[simp] theorem writeLeapCmd_hide (v : Word) (s : State) (m_ : Nat) (h_ : m_ &&& 129 = 129) : (writeLeapCmd v s).hide m_ = s.hide m_ := by
  refine hide_mono h_ ?_
  unfold writeLeapCmd
  dsimp only
  repeat' split
  all_goals simp
theorem execAnnounce_hide (v : Word) (s : State) : ∀ u_, execAnnounce v s = .next u_ → u_.hide 129 = s.hide 129 := by
  intro u_ h
  simp only [execAnnounce, actWhen_next] at h
  subst h
  simp
@[simp] theorem adoptNothing_hide (s : State) (m_ : Nat) (h_ : m_ &&& 4718785 = 4718785) : (adoptNothing s).hide m_ = s.hide m_ := by
  refine hide_mono h_ ?_
  simp [adoptNothing]
@[simp] theorem dropReference_hide (best : Adv) (s : State) (m_ : Nat) (h_ : m_ &&& 4718785 = 4718785) : (dropReference best s).hide m_ = s.hide m_ := by
  refine hide_mono h_ ?_
  simp [dropReference]
@[simp] theorem showBest_hide (best : Adv) (master : Bool) (s : State) (m_ : Nat) (h_ : m_ &&& 129 = 129) : (showBest best master s).hide m_ = s.hide m_ := by
  refine hide_mono h_ ?_
  simp [showBest]
@[simp] theorem takePort_hide (port : Option (Fin 4)) (s : State) (m_ : Nat) (h_ : m_ &&& 71827649 = 71827649) : (takePort port s).hide m_ = s.hide m_ := by
  refine hide_mono h_ ?_
  unfold takePort
  dsimp only
  repeat' split
  all_goals simp
@[simp] theorem adopt_hide (best own : Adv) (s : State) (m_ : Nat) (h_ : m_ &&& 71827649 = 71827649) : (adopt best own s).hide m_ = s.hide m_ := by
  refine hide_mono h_ ?_
  simp [adopt]
@[simp] theorem elect_hide (s : State) (m_ : Nat) (h_ : m_ &&& 71827649 = 71827649) : (elect s).hide m_ = s.hide m_ := by
  refine hide_mono h_ ?_
  unfold elect
  dsimp only
  repeat' split
  all_goals simp
@[simp] theorem leaveElection_hide (s : State) (m_ : Nat) (h_ : m_ &&& 4718785 = 4718785) : (leaveElection s).hide m_ = s.hide m_ := by
  refine hide_mono h_ ?_
  simp [leaveElection]
@[simp] theorem noteDeparture_hide (p : Fin 4) (n : BitVec 16) (t : SysTime) (s : State) (m_ : Nat) (h_ : m_ &&& 524288 = 524288) : (noteDeparture p n t s).hide m_ = s.hide m_ := by
  refine hide_mono h_ ?_
  simp [noteDeparture]
@[simp] theorem putSpan_hide (p : Fin 4) (v : Nat) (s : State) (m_ : Nat) (h_ : m_ &&& 1 = 1) : (putSpan p v s).hide m_ = s.hide m_ := by
  refine hide_mono h_ ?_
  simp [putSpan]
@[simp] theorem filterEnd_hide (p : Fin 4) (s : State) (m_ : Nat) (h_ : m_ &&& 71827649 = 71827649) : (filterEnd p s).hide m_ = s.hide m_ := by
  refine hide_mono h_ ?_
  simp [filterEnd]
@[simp] theorem spanSample_hide (p : Fin 4) (t1 t2 t3 t4 : SysTime) (s : State) (m_ : Nat) (h_ : m_ &&& 71827649 = 71827649) : (spanSample p t1 t2 t3 t4 s).hide m_ = s.hide m_ := by
  refine hide_mono h_ ?_
  simp [spanSample]
@[simp] theorem coarseSet_hide (f : TimeField) (arrived : SysTime) (s : State) (m_ : Nat) (h_ : m_ &&& 73937091 = 73937091) : (coarseSet f arrived s).hide m_ = s.hide m_ := by
  refine hide_mono h_ ?_
  simp [coarseSet]
@[simp] theorem spanLost_hide (p : Fin 4) (s : State) (m_ : Nat) (h_ : m_ &&& 524289 = 524289) : (spanLost p s).hide m_ = s.hide m_ := by
  refine hide_mono h_ ?_
  simp [spanLost]
@[simp] theorem timeTransfer_hide (p : Fin 4) (n : BitVec 16) (t : SysTime) (clean : Bool) (bytes : List Byte) (s : State) (m_ : Nat) (h_ : m_ &&& 73937091 = 73937091) : (timeTransfer p n t clean bytes s).hide m_ = s.hide m_ := by
  refine hide_mono h_ ?_
  unfold timeTransfer
  dsimp only
  repeat' split
  all_goals simp
@[simp] theorem secondBoundary_hide (s : State) (m_ : Nat) (h_ : m_ &&& 524417 = 524417) : (secondBoundary s).hide m_ = s.hide m_ := by
  refine hide_mono h_ ?_
  simp [secondBoundary]
theorem execPpsOutFall_hide (s : State) : ∀ u_, execPpsOutFall s = .next u_ → u_.hide 524288 = s.hide 524288 := by
  intro u_ h
  simp only [execPpsOutFall, actWhen_next] at h
  subst h
  simp
theorem execRtcLost_hide (s : State) : ∀ u_, execRtcLost s = .next u_ → u_.hide 524288 = s.hide 524288 := by
  intro u_ h
  cases h
  simp
@[simp] theorem rtcLoad_hide (s : State) (m_ : Nat) (h_ : m_ &&& 524371 = 524371) : (rtcLoad s).hide m_ = s.hide m_ := by
  refine hide_mono h_ ?_
  simp [rtcLoad]
@[simp] theorem clockFault_hide (kind : BitVec 5) (cls : BitVec 2) (reason : BitVec 8) (s : State) (m_ : Nat) (h_ : m_ &&& 65 = 65) : (clockFault kind cls reason s).hide m_ = s.hide m_ := by
  refine hide_mono h_ ?_
  simp [clockFault]
theorem execRefFail_hide (s : State) : ∀ u_, execRefFail s = .next u_ → u_.hide 81 = s.hide 81 := by
  intro u_ h
  simp only [execRefFail, actWhen_next] at h
  subst h
  simp
theorem execCoreUnlock_hide (s : State) : ∀ u_, execCoreUnlock s = .next u_ → u_.hide 81 = s.hide 81 := by
  intro u_ h
  simp only [execCoreUnlock, actWhen_next] at h
  subst h
  simp
theorem execAuxUnlock_hide (s : State) : ∀ u_, execAuxUnlock s = .next u_ → u_.hide 81 = s.hide 81 := by
  intro u_ h
  simp only [execAuxUnlock, actWhen_next] at h
  subst h
  simp
theorem execRtcFail_hide (s : State) : ∀ u_, execRtcFail s = .next u_ → u_.hide 81 = s.hide 81 := by
  intro u_ h
  simp only [execRtcFail, actWhen_next] at h
  subst h
  simp
theorem writeTime_hide (off : Nat) (v : Word) (s : State) : ∀ u_, writeTime off v s = some u_ → u_.hide 71827649 = s.hide 71827649 := by
  intro u_ h
  unfold writeTime at h
  try dsimp only at h
  repeat' split at h
  all_goals first | contradiction | (cases h; first | (simp; done) | grind [State.modT_hide, writeLeapCmd_hide, writeSrcCmd_hide, writeTimeCtl_hide]) | (simp at h; done) | (simp at h; subst h; simp)

/-! ## Ring -/

@[simp] theorem lineFault_hide (p : Fin 4) (kind : BitVec 5) (cls : BitVec 2) (reason : BitVec 8) (detail : Nat) (s : State) (m_ : Nat) (h_ : m_ &&& 65 = 65) : (lineFault p kind cls reason detail s).hide m_ = s.hide m_ := by
  refine hide_mono h_ ?_
  simp [lineFault]
@[simp] theorem State.lineEvent_hide (p : Fin 4) (f : Field) (b : Nat) (s : State) (m_ : Nat) (h_ : m_ &&& 129 = 129) : (State.lineEvent p f b s).hide m_ = s.hide m_ := by
  refine hide_mono h_ ?_
  simp [State.lineEvent]
@[simp] theorem setLine_hide (p : Fin 4) (st : Nat) (s : State) (m_ : Nat) (h_ : m_ &&& 4194433 = 4194433) : (setLine p st s).hide m_ = s.hide m_ := by
  refine hide_mono h_ ?_
  simp [setLine]
@[simp] theorem enterT1_hide (p : Fin 4) (s : State) (m_ : Nat) (h_ : m_ &&& 71303297 = 71303297) : (enterT1 p s).hide m_ = s.hide m_ := by
  refine hide_mono h_ ?_
  simp [enterT1]
@[simp] theorem goDark_hide (p : Fin 4) (st : Nat) (s : State) (m_ : Nat) (h_ : m_ &&& 4194433 = 4194433) : (goDark p st s).hide m_ = s.hide m_ := by
  refine hide_mono h_ ?_
  simp [goDark]
@[simp] theorem noteFail_hide (p : Fin 4) (s : State) (m_ : Nat) (h_ : m_ &&& 4194304 = 4194304) : (noteFail p s).hide m_ = s.hide m_ := by
  refine hide_mono h_ ?_
  simp [noteFail]
@[simp] theorem restoreTimer_hide (p : Fin 4) (s : State) (m_ : Nat) (h_ : m_ &&& 4194305 = 4194305) : (restoreTimer p s).hide m_ = s.hide m_ := by
  refine hide_mono h_ ?_
  simp [restoreTimer]
@[simp] theorem txClocks_hide (s : State) (m_ : Nat) (h_ : m_ &&& 1 = 1) : (txClocks s).hide m_ = s.hide m_ := by
  refine hide_mono h_ ?_
  simp [txClocks]
@[simp] theorem setWrapped_hide (p : Fin 4) (b : Bool) (s : State) (m_ : Nat) (h_ : m_ &&& 524417 = 524417) : (setWrapped p b s).hide m_ = s.hide m_ := by
  refine hide_mono h_ ?_
  simp [setWrapped]
theorem execWrap_hide (p : Fin 2) (s : State) : ∀ u_, execWrap p s = .next u_ → u_.hide 4718721 = s.hide 4718721 := by
  intro u_ h
  simp only [execWrap, actWhen_next] at h
  subst h
  simp
theorem execWtrDone_hide (p : Fin 2) (s : State) : ∀ u_, execWtrDone p s = .next u_ → u_.hide 4194305 = s.hide 4194305 := by
  intro u_ h
  simp only [execWtrDone, actWhen_next] at h
  subst h
  repeat' split
  all_goals simp
theorem execUnwrap_hide (p : Fin 2) (s : State) : ∀ u_, execUnwrap p s = .next u_ → u_.hide 4718721 = s.hide 4718721 := by
  intro u_ h
  simp only [execUnwrap, actWhen_next] at h
  subst h
  simp
@[simp] theorem setInsert_hide (n : Nat) (s : State) (m_ : Nat) (h_ : m_ &&& 1 = 1) : (setInsert n s).hide m_ = s.hide m_ := by
  refine hide_mono h_ ?_
  simp [setInsert]
theorem execInsertionRequest_hide (s : State) : ∀ u_, execInsertionRequest s = .next u_ → u_.hide 4194305 = s.hide 4194305 := by
  intro u_ h
  simp only [execInsertionRequest, actWhen_next] at h
  subst h
  simp
@[simp] theorem noteInserted_hide (s : State) (m_ : Nat) (h_ : m_ &&& 4194337 = 4194337) : (noteInserted s).hide m_ = s.hide m_ := by
  refine hide_mono h_ ?_
  simp [noteInserted]
@[simp] theorem switchInserted_hide (s : State) (m_ : Nat) (h_ : m_ &&& 71303297 = 71303297) : (switchInserted s).hide m_ = s.hide m_ := by
  refine hide_mono h_ ?_
  simp [switchInserted]
@[simp] theorem switchBypassed_hide (s : State) (m_ : Nat) (h_ : m_ &&& 4718817 = 4718817) : (switchBypassed s).hide m_ = s.hide m_ := by
  refine hide_mono h_ ?_
  simp [switchBypassed]
@[simp] theorem setCoil_hide (on : Bool) (s : State) (m_ : Nat) (h_ : m_ &&& 32 = 32) : (setCoil on s).hide m_ = s.hide m_ := by
  refine hide_mono h_ ?_
  simp [setCoil]
theorem execInsertFailed_hide (s : State) : ∀ u_, execInsertFailed s = .next u_ → u_.hide 4194401 = s.hide 4194401 := by
  intro u_ h
  simp only [execInsertFailed, actWhen_next] at h
  subst h
  simp
theorem execBackoff_hide (s : State) : ∀ u_, execBackoff s = .next u_ → u_.hide 4194305 = s.hide 4194305 := by
  intro u_ h
  simp only [execBackoff, actWhen_next] at h
  subst h
  simp
@[simp] theorem withdraw_hide (s : State) (m_ : Nat) (h_ : m_ &&& 4194336 = 4194336) : (withdraw s).hide m_ = s.hide m_ := by
  refine hide_mono h_ ?_
  simp [withdraw]
@[simp] theorem writeRingCtl_hide (v : Word) (s : State) (m_ : Nat) (h_ : m_ &&& 4194337 = 4194337) : (writeRingCtl v s).hide m_ = s.hide m_ := by
  refine hide_mono h_ ?_
  simp [writeRingCtl]
theorem execBypassReq_hide (v : Word) (s : State) : ∀ u_, execBypassReq v s = .next u_ → u_.hide 4194337 = s.hide 4194337 := by
  intro u_ h
  simp only [execBypassReq, actWhen_next] at h
  subst h
  simp
@[simp] theorem afterT2_hide (p : Fin 4) (s : State) (m_ : Nat) (h_ : m_ &&& 4194433 = 4194433) : (afterT2 p s).hide m_ = s.hide m_ := by
  refine hide_mono h_ ?_
  simp [afterT2]
@[simp] theorem leaderT2_hide (p : Fin 4) (full fallback : Bool) (s : State) (m_ : Nat) (h_ : m_ &&& 4194433 = 4194433) : (leaderT2 p full fallback s).hide m_ = s.hide m_ := by
  refine hide_mono h_ ?_
  simp [leaderT2]
@[simp] theorem trainStep_hide (p : Fin 4) (s : State) (m_ : Nat) (h_ : m_ &&& 71303329 = 71303329) : (trainStep p s).hide m_ = s.hide m_ := by
  refine hide_mono h_ ?_
  simp [trainStep]
theorem execTrainingStep_hide (p : Fin 4) (s : State) : ∀ u_, execTrainingStep p s = .next u_ → u_.hide 71303329 = s.hide 71303329 := by
  intro u_ h
  simp only [execTrainingStep, actWhen_next] at h
  subst h
  simp
theorem execFallback_hide (p : Fin 4) (s : State) : ∀ u_, execFallback p s = .next u_ → u_.hide 4194497 = s.hide 4194497 := by
  intro u_ h
  simp only [execFallback, actWhen_next] at h
  subst h
  simp
theorem execRetrain_hide (p : Fin 4) (write : Bool) (s : State) : ∀ u_, execRetrain p write s = .next u_ → u_.hide 71303297 = s.hide 71303297 := by
  intro u_ h
  simp only [execRetrain, actWhen_next] at h
  subst h
  simp
@[simp] theorem writeLineCtl_hide (p : Fin 4) (v : Word) (s : State) (m_ : Nat) (h_ : m_ &&& 71303297 = 71303297) : (writeLineCtl p v s).hide m_ = s.hide m_ := by
  refine hide_mono h_ ?_
  simp [writeLineCtl]
@[simp] theorem maskDefects_hide (p : Fin 4) (d : Defect) (s : State) (m_ : Nat) (h_ : m_ &&& 4194305 = 4194305) : (maskDefects p d s).hide m_ = s.hide m_ := by
  refine hide_mono h_ ?_
  unfold maskDefects
  dsimp only
  repeat' split
  all_goals simp
@[simp] theorem defectFault_hide (p : Fin 4) (d : Defect) (power : Nat) (s : State) (m_ : Nat) (h_ : m_ &&& 65 = 65) : (defectFault p d power s).hide m_ = s.hide m_ := by
  refine hide_mono h_ ?_
  unfold defectFault
  repeat' split
  all_goals simp
@[simp] theorem declareDefect_hide (p : Fin 4) (d : Defect) (power : BitVec 16) (s : State) (m_ : Nat) (h_ : m_ &&& 4718785 = 4718785) : (declareDefect p d power s).hide m_ = s.hide m_ := by
  refine hide_mono h_ ?_
  unfold declareDefect
  dsimp only
  repeat' split
  all_goals simp
theorem execDefectDeclared_hide (p : Fin 4) (d : Defect) (power : BitVec 16) (s : State) : ∀ u_, execDefectDeclared p d power s = .next u_ → u_.hide 4718785 = s.hide 4718785 := by
  intro u_ h
  simp only [execDefectDeclared, actWhen_next] at h
  subst h
  simp
theorem execDefectCleared_hide (p : Fin 4) (d : Cleared) (s : State) : ∀ u_, execDefectCleared p d s = .next u_ → u_.hide 4194433 = s.hide 4194433 := by
  intro u_ h
  simp only [execDefectCleared, actWhen_next] at h
  subst h
  simp
theorem execTxFail_hide (p : Fin 4) (power : BitVec 16) (s : State) : ∀ u_, execTxFail p power s = .next u_ → u_.hide 193 = s.hide 193 := by
  intro u_ h
  simp only [execTxFail, actWhen_next] at h
  subst h
  simp
theorem execSlip_hide (p : Fin 2) (fill : BitVec 16) (s : State) : ∀ u_, execSlip p fill s = .next u_ → u_.hide 4194497 = s.hide 4194497 := by
  intro u_ h
  simp only [execSlip, actWhen_next] at h
  subst h
  simp
theorem execMasterSlip_hide (p : Fin 2) (again : Bool) (align : BitVec 16) (s : State) : ∀ u_, execMasterSlip p again align s = .next u_ → u_.hide 4194369 = s.hide 4194369 := by
  intro u_ h
  simp only [execMasterSlip, actWhen_next] at h
  subst h
  simp
@[simp] theorem takeNeighbour_hide (p : Fin 4) (f : RingField) (s : State) (m_ : Nat) (h_ : m_ &&& 71303361 = 71303361) : (takeNeighbour p f s).hide m_ = s.hide m_ := by
  refine hide_mono h_ ?_
  simp [takeNeighbour]
@[simp] theorem followLeader_hide (p : Fin 4) (f : RingField) (s : State) (m_ : Nat) (h_ : m_ &&& 4194433 = 4194433) : (followLeader p f s).hide m_ = s.hide m_ := by
  refine hide_mono h_ ?_
  simp [followLeader]
@[simp] theorem takeRingControl_hide (p : Fin 4) (f : RingField) (s : State) (m_ : Nat) (h_ : m_ &&& 71303361 = 71303361) : (takeRingControl p f s).hide m_ = s.hide m_ := by
  refine hide_mono h_ ?_
  simp [takeRingControl]
theorem writeLine_hide (off : Nat) (v : Word) (s : State) : ∀ u_, writeLine off v s = some u_ → u_.hide 71303329 = s.hide 71303329 := by
  intro u_ h
  unfold writeLine at h
  try dsimp only at h
  repeat' split at h
  all_goals first | contradiction | (cases h; first | (simp; done) | grind [writeLineCtl_hide, writeRingCtl_hide]) | (simp at h; done) | (simp at h; subst h; simp)
theorem writeTsi_hide (off : Nat) (v : Word) (s : State) : ∀ u_, writeTsi off v s = some u_ → u_.hide 1048641 = s.hide 1048641 := by
  intro u_ h
  unfold writeTsi at h
  try dsimp only at h
  repeat' split at h
  all_goals first | contradiction | (cases h; first | (simp; done) | grind [writeCmData_hide, writePerfSel_hide, writeTsiCtl_hide]) | (simp at h; done) | (simp at h; subst h; simp)

end Sys2Proof.Machine
end

