-- ==== Sys2Proof/Laws/FrameWork.lean ====
section
/-! SUPPORT. The frame of each operation and command. Images, the work engine, frames built and received, the plug and the register windows. -/

set_option maxRecDepth 100000
set_option linter.all false

namespace Sys2Proof.Machine

/-! ## ControlStore -/

@[simp] theorem State.csCheck_hide (p i : Nat) (s : State) (m_ : Nat) (h_ : m_ &&& 1 = 1) : (State.csCheck p i s).2.hide m_ = s.hide m_ := by
  refine hide_mono h_ ?_
  simp [State.csCheck]
@[simp] theorem noteBadWord_hide (i : Nat) (s : State) (m_ : Nat) (h_ : m_ &&& 256 = 256) : (noteBadWord i s).hide m_ = s.hide m_ := by
  refine hide_mono h_ ?_
  simp [noteBadWord]

/-! ## Image -/

@[simp] theorem writePlug_hide (a : Nat) (bs : List Byte) (s : State) (m_ : Nat) (h_ : m_ &&& 8388608 = 8388608) : (writePlug a bs s).hide m_ = s.hide m_ := by
  refine hide_mono h_ ?_
  simp [writePlug]
@[simp] theorem writeCommit_hide (c : Bool) (commit seq act source : Nat) (s : State) (m_ : Nat) (h_ : m_ &&& 8388608 = 8388608) : (writeCommit c commit seq act source s).hide m_ = s.hide m_ := by
  refine hide_mono h_ ?_
  simp [writeCommit]
@[simp] theorem rewriteCommit_hide (c : Bool) (commit act : Nat) (s : State) (m_ : Nat) (h_ : m_ &&& 8388608 = 8388608) : (rewriteCommit c commit act s).hide m_ = s.hide m_ := by
  refine hide_mono h_ ?_
  simp [rewriteCommit]
@[simp] theorem loadMicrocode_hide (page : Nat) (c : Bool) (e : Section) (s : State) (m_ : Nat) (h_ : m_ &&& 256 = 256) : (loadMicrocode page c e s).hide m_ = s.hide m_ := by
  refine hide_mono h_ ?_
  simp [loadMicrocode]

/-! ## Work -/

@[simp] theorem State.modWork_hide (f : Work → Work) (s : State) (m_ : Nat) (h_ : m_ &&& 16777216 = 16777216) : (State.modWork f s).hide m_ = s.hide m_ := by
  refine hide_mono h_ ?_
  simp [State.modWork]
@[simp] theorem wrkFault_hide (kind : BitVec 5) (reason : BitVec 8) (detail : Nat) (s : State) (m_ : Nat) (h_ : m_ &&& 65 = 65) : (wrkFault kind reason detail s).hide m_ = s.hide m_ := by
  refine hide_mono h_ ?_
  simp [wrkFault]
@[simp] theorem State.wrkEvent_hide (f : Field) (b : Nat) (s : State) (m_ : Nat) (h_ : m_ &&& 129 = 129) : (State.wrkEvent f b s).hide m_ = s.hide m_ := by
  refine hide_mono h_ ?_
  simp [State.wrkEvent]
@[simp] theorem showWork_hide (s : State) (m_ : Nat) (h_ : m_ &&& 129 = 129) : (showWork s).hide m_ = s.hide m_ := by
  refine hide_mono h_ ?_
  simp [showWork]
@[simp] theorem sendWork_hide (c : List Byte) (s : State) (m_ : Nat) (h_ : m_ &&& 16777216 = 16777216) : (sendWork c s).hide m_ = s.hide m_ := by
  refine hide_mono h_ ?_
  simp [sendWork]
@[simp] theorem sendReport_hide (i : Item) (state reason result : Byte) (s : State) (m_ : Nat) (h_ : m_ &&& 16777216 = 16777216) : (sendReport i state reason result s).hide m_ = s.hide m_ := by
  refine hide_mono h_ ?_
  simp [sendReport]
@[simp] theorem modJournal_hide (slot : Nat) (f : JRec → JRec) (s : State) (m_ : Nat) (h_ : m_ &&& 16777216 = 16777216) : (modJournal slot f s).hide m_ = s.hide m_ := by
  refine hide_mono h_ ?_
  simp [modJournal]
@[simp] theorem modCustody_hide (slot : Nat) (f : CRec → CRec) (s : State) (m_ : Nat) (h_ : m_ &&& 16777216 = 16777216) : (modCustody slot f s).hide m_ = s.hide m_ := by
  refine hide_mono h_ ?_
  simp [modCustody]
@[simp] theorem State.sweepLog_hide (s : State) (m_ : Nat) (h_ : m_ &&& 16777216 = 16777216) : (State.sweepLog s).hide m_ = s.hide m_ := by
  refine hide_mono h_ ?_
  simp [State.sweepLog]
@[simp] theorem queuePeat_hide (j : PeatJob) (s : State) (m_ : Nat) (h_ : m_ &&& 16777216 = 16777216) : (queuePeat j s).hide m_ = s.hide m_ := by
  refine hide_mono h_ ?_
  simp [queuePeat]
@[simp] theorem setOrigin_hide (o : Origin) (s : State) (m_ : Nat) (h_ : m_ &&& 16777216 = 16777216) : (setOrigin o s).hide m_ = s.hide m_ := by
  refine hide_mono h_ ?_
  simp [setOrigin]
@[simp] theorem reportState_hide (i : Item) (s : State) (m_ : Nat) (h_ : m_ &&& 16777216 = 16777216) : (reportState i s).hide m_ = s.hide m_ := by
  refine hide_mono h_ ?_
  unfold reportState
  repeat' split
  all_goals simp
@[simp] theorem defer_hide (i : Item) (reason : Byte) (s : State) (m_ : Nat) (h_ : m_ &&& 16777217 = 16777217) : (defer i reason s).hide m_ = s.hide m_ := by
  refine hide_mono h_ ?_
  simp [defer]
@[simp] theorem awqFull_hide (i : Item) (s : State) (m_ : Nat) (h_ : m_ &&& 16777281 = 16777281) : (awqFull i s).hide m_ = s.hide m_ := by
  refine hide_mono h_ ?_
  simp [awqFull]
@[simp] theorem acceptOffer_hide (i : Item) (w : Option Word) (pred : Word) (s : State) (m_ : Nat) (h_ : m_ &&& 16777409 = 16777409) : (acceptOffer i w pred s).hide m_ = s.hide m_ := by
  refine hide_mono h_ ?_
  unfold acceptOffer
  dsimp only
  repeat' split
  all_goals simp
@[simp] theorem takeOffer_hide (c : List Byte) (s : State) (m_ : Nat) (h_ : m_ &&& 16777409 = 16777409) : (takeOffer c s).hide m_ = s.hide m_ := by
  refine hide_mono h_ ?_
  unfold takeOffer
  dsimp only
  repeat' split
  all_goals simp
@[simp] theorem takeQuery_hide (c : List Byte) (s : State) (m_ : Nat) (h_ : m_ &&& 16777216 = 16777216) : (takeQuery c s).hide m_ = s.hide m_ := by
  refine hide_mono h_ ?_
  unfold takeQuery
  dsimp only
  repeat' split
  all_goals simp
theorem popWork_hide (type : Byte) (s : State) : ∀ c t, popWork type s = some (c, t)
    → t.hide 16777216 = s.hide 16777216 := by
  intro c t h
  unfold popWork at h
  split at h <;> simp at h
  obtain ⟨-, rfl⟩ := h; simp
theorem onCell_hide (type : Byte) (f : List Byte → State → State) (s : State) (m : Nat) (hm : m &&& 16777216 = 16777216)
    (hf : ∀ c s, (f c s).hide m = s.hide m) : ∀ t, onCell type f s = .next t → t.hide m = s.hide m := by
  intro t h
  unfold onCell at h
  simp only [actWhen_next] at h; subst h
  split
  · split
    · rfl
    · next h => rw [hf]; exact hide_mono (mask_sub hm _ (by decide)) (popWork_hide _ _ _ _ h)
  · rfl
theorem execOffer_hide (s : State) : ∀ u_, execOffer s = .next u_ → u_.hide 16777409 = s.hide 16777409 := by
  intro u_ h
  unfold execOffer at h
  refine onCell_hide _ _ _ _ (by decide) ?_ u_ h
  intro c s; (try dsimp only)
  (repeat' (first | with_reducible rfl | (simp; done) | (rw [State.each_hide]) | (rw [State.when_hide]) | (rw [State.foldl_hide]) | (refine upRequest_hide _ _ _ _ (by decide) ?_) | (refine downRequest_hide _ _ _ _ (by decide) ?_) | (intro _ _; (try dsimp only)) | (intro _; (try dsimp only)) | split)) <;> first | with_reducible rfl | (simp [*]; done) | (apply hide_congr <;> intro hb <;> first | rfl | exact absurd hb (by decide)) | grind [onCell_hide, takeOffer_hide]
theorem execQuery_hide (s : State) : ∀ u_, execQuery s = .next u_ → u_.hide 16777216 = s.hide 16777216 := by
  intro u_ h
  unfold execQuery at h
  refine onCell_hide _ _ _ _ (by decide) ?_ u_ h
  intro c s; (try dsimp only)
  (repeat' (first | with_reducible rfl | (simp; done) | (rw [State.each_hide]) | (rw [State.when_hide]) | (rw [State.foldl_hide]) | (refine upRequest_hide _ _ _ _ (by decide) ?_) | (refine downRequest_hide _ _ _ _ (by decide) ?_) | (intro _ _; (try dsimp only)) | (intro _; (try dsimp only)) | split)) <;> first | with_reducible rfl | (simp [*]; done) | (apply hide_congr <;> intro hb <;> first | rfl | exact absurd hb (by decide)) | grind [onCell_hide, takeQuery_hide]
@[simp] theorem modTarget_hide (slot t : Nat) (f : Target → Target) (s : State) (m_ : Nat) (h_ : m_ &&& 16777216 = 16777216) : (modTarget slot t f s).hide m_ = s.hide m_ := by
  refine hide_mono h_ ?_
  simp [modTarget]
@[simp] theorem queueOffer_hide (r : CRec) (t : Nat) (s : State) (m_ : Nat) (h_ : m_ &&& 16777216 = 16777216) : (queueOffer r t s).hide m_ = s.hide m_ := by
  refine hide_mono h_ ?_
  simp [queueOffer]
@[simp] theorem offerAll_hide (r : CRec) (s : State) (m_ : Nat) (h_ : m_ &&& 16777216 = 16777216) : (offerAll r s).hide m_ = s.hide m_ := by
  refine hide_mono h_ ?_
  simp [offerAll]
@[simp] theorem writeCompletion_hide (r : CRec) (s : State) (m_ : Nat) (h_ : m_ &&& 1217 = 1217) : (writeCompletion r s).hide m_ = s.hide m_ := by
  refine hide_mono h_ ?_
  first
  | (simp [writeCompletion]; done)
  | (unfold writeCompletion; (try dsimp only); (repeat' (first | with_reducible rfl | (simp; done) | (rw [State.each_hide]) | (rw [State.when_hide]) | (rw [State.foldl_hide]) | (refine upRequest_hide _ _ _ _ (by decide) ?_) | (refine downRequest_hide _ _ _ _ (by decide) ?_) | (intro _ _; (try dsimp only)) | (intro _; (try dsimp only)) | split)) <;> first | with_reducible rfl | (simp [*]; done) | (apply hide_congr <;> intro hb <;> first | rfl | exact absurd hb (by decide)) | grind [State.count_hide, State.put_hide, State.spmWriteBlock_hide, State.wrkEvent_hide])
@[simp] theorem endEntry_hide (slot : Nat) (s : State) (m_ : Nat) (h_ : m_ &&& 16778433 = 16778433) : (endEntry slot s).hide m_ = s.hide m_ := by
  refine hide_mono h_ ?_
  unfold endEntry
  dsimp only
  repeat' split
  all_goals simp
@[simp] theorem setTarget_hide (slot t : Nat) (st : TState) (s : State) (m_ : Nat) (h_ : m_ &&& 16781313 = 16781313) : (setTarget slot t st s).hide m_ = s.hide m_ := by
  refine hide_mono h_ ?_
  simp [setTarget]
@[simp] theorem takeReport_hide (c : List Byte) (s : State) (m_ : Nat) (h_ : m_ &&& 16782529 = 16782529) : (takeReport c s).hide m_ = s.hide m_ := by
  refine hide_mono h_ ?_
  unfold takeReport
  repeat' split
  all_goals simp
theorem execReport_hide (s : State) : ∀ u_, execReport s = .next u_ → u_.hide 16782529 = s.hide 16782529 := by
  intro u_ h
  unfold execReport at h
  refine onCell_hide _ _ _ _ (by decide) ?_ u_ h
  intro c s; (try dsimp only)
  (repeat' (first | with_reducible rfl | (simp; done) | (rw [State.each_hide]) | (rw [State.when_hide]) | (rw [State.foldl_hide]) | (refine upRequest_hide _ _ _ _ (by decide) ?_) | (refine downRequest_hide _ _ _ _ (by decide) ?_) | (intro _ _; (try dsimp only)) | (intro _; (try dsimp only)) | split)) <;> first | with_reducible rfl | (simp [*]; done) | (apply hide_congr <;> intro hb <;> first | rfl | exact absurd hb (by decide)) | grind [onCell_hide, takeReport_hide]
theorem execRetry_hide (slot : Fin 2048) (t : Fin 128) (s : State) : ∀ u_, execRetry slot t s = .next u_ → u_.hide 16777216 = s.hide 16777216 := by
  intro u_ h
  simp only [execRetry, actWhen_next] at h
  subst h
  repeat' split
  all_goals simp
theorem execPoll_hide (slot : Fin 2048) (t : Fin 128) (s : State) : ∀ u_, execPoll slot t s = .next u_ → u_.hide 16777216 = s.hide 16777216 := by
  intro u_ h
  simp only [execPoll, actWhen_next] at h
  subst h
  repeat' split
  all_goals simp
theorem execExpires_hide (slot : Fin 2048) (s : State) : ∀ u_, execExpires slot s = .next u_ → u_.hide 16777345 = s.hide 16777345 := by
  intro u_ h
  simp only [execExpires, actWhen_next] at h
  subst h
  repeat' split
  all_goals simp
@[simp] theorem writeAbandon_hide (v : Word) (s : State) (m_ : Nat) (h_ : m_ &&& 16782529 = 16782529) : (writeAbandon v s).hide m_ = s.hide m_ := by
  refine hide_mono h_ ?_
  simp [writeAbandon]
theorem execAbandon_hide (v : Word) (s : State) : ∀ u_, execAbandon v s = .next u_ → u_.hide 16782529 = s.hide 16782529 := by
  intro u_ h
  simp only [execAbandon, actWhen_next] at h
  subst h
  simp
@[simp] theorem refuseOrigination_hide (reason : Nat) (s : State) (m_ : Nat) (h_ : m_ &&& 16781505 = 16781505) : (refuseOrigination reason s).hide m_ = s.hide m_ := by
  refine hide_mono h_ ?_
  simp [refuseOrigination]
@[simp] theorem commitItem_hide (slot : Nat) (i : Item) (set : BitVec 128) (expires : Word) (inner : Bool) (s : State) (m_ : Nat) (h_ : m_ &&& 16777345 = 16777345) : (commitItem slot i set expires inner s).hide m_ = s.hide m_ := by
  refine hide_mono h_ ?_
  simp [commitItem]
@[simp] theorem originate_hide (at_ sec : Nat) (s : State) (m_ : Nat) (h_ : m_ &&& 16777345 = 16777345) : (originate at_ sec s).hide m_ = s.hide m_ := by
  refine hide_mono h_ ?_
  unfold originate
  dsimp only
  repeat' split
  all_goals simp
@[simp] theorem writeOrCmd_hide (v : Word) (s : State) (m_ : Nat) (h_ : m_ &&& 16781505 = 16781505) : (writeOrCmd v s).hide m_ = s.hide m_ := by
  refine hide_mono h_ ?_
  unfold writeOrCmd
  dsimp only
  repeat' split
  all_goals simp
theorem execOrigination_hide (v : Word) (s : State) : ∀ u_, execOrigination v s = .next u_ → u_.hide 16781505 = s.hide 16781505 := by
  intro u_ h
  simp only [execOrigination, actWhen_next] at h
  subst h
  simp
theorem execCustodyFull_hide (s : State) : ∀ u_, execCustodyFull s = .next u_ → u_.hide 16781505 = s.hide 16781505 := by
  intro u_ h
  simp only [execCustodyFull, actWhen_next] at h
  subst h
  repeat' split
  all_goals simp
@[simp] theorem originateArming_hide (x0 : Nat) (s : State) (m_ : Nat) (h_ : m_ &&& 16777345 = 16777345) : (originateArming x0 s).hide m_ = s.hide m_ := by
  refine hide_mono h_ ?_
  clear h_
  induction x0 generalizing s   <;> first | with_reducible rfl | (simp [originateArming]; done) | (simp [originateArming, *]; done) | (unfold originateArming; (try dsimp only); (repeat' (first | with_reducible rfl | (simp; done) | (rw [State.each_hide]) | (rw [State.when_hide]) | (rw [State.foldl_hide]) | (refine upRequest_hide _ _ _ _ (by decide) ?_) | (refine downRequest_hide _ _ _ _ (by decide) ?_) | (intro _ _; (try dsimp only)) | (intro _; (try dsimp only)) | split)) <;> first | with_reducible rfl | (simp [*]; done) | (apply hide_congr <;> intro hb <;> first | rfl | exact absurd hb (by decide)) | grind [State.modWork_hide, commitItem_hide]) | grind [originateArming, State.modWork_hide, commitItem_hide]
@[simp] theorem serveHeld_hide (s : State) (m_ : Nat) (h_ : m_ &&& 16777345 = 16777345) : (serveHeld s).hide m_ = s.hide m_ := by
  refine hide_mono h_ ?_
  unfold serveHeld
  dsimp only
  repeat' split
  all_goals simp
@[simp] theorem jobBytes_hide (j : PeatJob) (s : State) (m_ : Nat) (h_ : m_ &&& 67108864 = 67108864) : (jobBytes j s).2.hide m_ = s.hide m_ := by
  refine hide_mono h_ ?_
  unfold jobBytes
  dsimp only
  repeat' split
  all_goals simp
@[simp] theorem committed_hide (j : PeatJob) (s : State) (m_ : Nat) (h_ : m_ &&& 16778433 = 16778433) : (committed j s).hide m_ = s.hide m_ := by
  refine hide_mono h_ ?_
  unfold committed
  dsimp only
  split
  all_goals (try split)
  all_goals (try split)
  all_goals simp
@[simp] theorem refillPeat_hide (s : State) (m_ : Nat) (h_ : m_ &&& 16777216 = 16777216) : (refillPeat s).hide m_ = s.hide m_ := by
  refine hide_mono h_ ?_
  simp [refillPeat]
@[simp] theorem commitNext_hide (fails : Nat) (s : State) (m_ : Nat) (h_ : m_ &&& 92275905 = 92275905) : (commitNext fails s).hide m_ = s.hide m_ := by
  refine hide_mono h_ ?_
  unfold commitNext
  dsimp only
  repeat' split
  all_goals simp
theorem execRecordCommit_hide (fails : Fin 3) (s : State) : ∀ u_, execRecordCommit fails s = .next u_ → u_.hide 92275905 = s.hide 92275905 := by
  intro u_ h
  simp only [execRecordCommit, actWhen_next] at h
  subst h
  simp
@[simp] theorem commitAll_hide (s : State) (m_ : Nat) (h_ : m_ &&& 92275905 = 92275905) : (commitAll s).hide m_ = s.hide m_ := by
  refine hide_mono h_ ?_
  simp [commitAll]
@[simp] theorem stopOriginating_hide (s : State) (m_ : Nat) (h_ : m_ &&& 16781505 = 16781505) : (stopOriginating s).hide m_ = s.hide m_ := by
  refine hide_mono h_ ?_
  unfold stopOriginating
  dsimp only
  repeat' split
  all_goals simp
@[simp] theorem rebuildWork_hide (s : State) (m_ : Nat) (h_ : m_ &&& 83886273 = 83886273) : (rebuildWork s).hide m_ = s.hide m_ := by
  refine hide_mono h_ ?_
  simp [rebuildWork]
@[simp] theorem offerCustody_hide (s : State) (m_ : Nat) (h_ : m_ &&& 16777216 = 16777216) : (offerCustody s).hide m_ = s.hide m_ := by
  refine hide_mono h_ ?_
  simp [offerCustody]
@[simp] theorem writeCrCtl_hide (v : Word) (s : State) (m_ : Nat) (h_ : m_ &&& 1 = 1) : (writeCrCtl v s).hide m_ = s.hide m_ := by
  refine hide_mono h_ ?_
  simp [writeCrCtl]
theorem writeWork_hide (off : Nat) (v : Word) (s : State) : ∀ u_, writeWork off v s = some u_ → u_.hide 16782529 = s.hide 16782529 := by
  intro u_ h
  unfold writeWork at h
  try dsimp only at h
  repeat' split at h
  all_goals first | contradiction | (cases h; first | (simp; done) | grind [writeAbandon_hide, writeOrCmd_hide]) | (simp at h; done) | (simp at h; subst h; simp)

/-! ## Apply -/

@[simp] theorem carriedOut_hide (r : JRec) (st : Nat) (s : State) (m_ : Nat) (h_ : m_ &&& 16777345 = 16777345) : (carriedOut r st s).hide m_ = s.hide m_ := by
  refine hide_mono h_ ?_
  simp [carriedOut]
@[simp] theorem blockHead_hide (c : Fin 64) (s : State) (m_ : Nat) (h_ : m_ &&& 16777409 = 16777409) : (blockHead c s).hide m_ = s.hide m_ := by
  refine hide_mono h_ ?_
  simp [blockHead]
@[simp] theorem applyInsert_hide (r : JRec) (s : State) (m_ : Nat) (h_ : m_ &&& 16916673 = 16916673) : (applyInsert r s).hide m_ = s.hide m_ := by
  refine hide_mono h_ ?_
  simp [applyInsert]
@[simp] theorem applyCancel_hide (r : JRec) (s : State) (m_ : Nat) (h_ : m_ &&& 16916609 = 16916609) : (applyCancel r s).hide m_ = s.hide m_ := by
  refine hide_mono h_ ?_
  simp [applyCancel]
@[simp] theorem applyValue_hide (r : JRec) (s : State) (m_ : Nat) (h_ : m_ &&& 16778433 = 16778433) : (applyValue r s).hide m_ = s.hide m_ := by
  refine hide_mono h_ ?_
  first
  | (simp [applyValue]; done)
  | (unfold applyValue; (try dsimp only); (repeat' (first | with_reducible rfl | (simp; done) | (rw [State.each_hide]) | (rw [State.when_hide]) | (rw [State.foldl_hide]) | (refine upRequest_hide _ _ _ _ (by decide) ?_) | (refine downRequest_hide _ _ _ _ (by decide) ?_) | (intro _ _; (try dsimp only)) | (intro _; (try dsimp only)) | split)) <;> first | with_reducible rfl | (simp [*]; done) | (apply hide_congr <;> intro hb <;> first | rfl | exact absurd hb (by decide)) | grind [State.modWork_hide, State.put_hide, State.raise_hide, State.spmWriteBlock_hide, State.wrkEvent_hide, carriedOut_hide])
theorem execChInsert_hide (s : State) : ∀ u_, execChInsert s = .next u_ → u_.hide 16916673 = s.hide 16916673 := by
  intro u_ h
  simp only [execChInsert, actWhen_next] at h
  subst h
  repeat' split
  all_goals simp
theorem execChCancel_hide (s : State) : ∀ u_, execChCancel s = .next u_ → u_.hide 16916609 = s.hide 16916609 := by
  intro u_ h
  simp only [execChCancel, actWhen_next] at h
  subst h
  repeat' split
  all_goals simp
theorem execSetValue_hide (s : State) : ∀ u_, execSetValue s = .next u_ → u_.hide 16778433 = s.hide 16778433 := by
  intro u_ h
  simp only [execSetValue, actWhen_next] at h
  subst h
  repeat' split
  all_goals simp
theorem execHeadRetry_hide (s : State) : ∀ u_, execHeadRetry s = .next u_ → u_.hide 16917697 = s.hide 16917697 := by
  intro u_ h
  simp only [execHeadRetry, actWhen_next] at h
  subst h
  repeat' split
  all_goals simp
theorem execSpent_hide (slot : Fin 4096) (s : State) : ∀ u_, execSpent slot s = .next u_ → u_.hide 16777345 = s.hide 16777345 := by
  intro u_ h
  simp only [execSpent, actWhen_next] at h
  subst h
  repeat' split
  all_goals simp
@[simp] theorem applyAgain_hide (x0 : Nat) (s : State) (m_ : Nat) (h_ : m_ &&& 16917697 = 16917697) : (applyAgain x0 s).hide m_ = s.hide m_ := by
  refine hide_mono h_ ?_
  clear h_
  induction x0 generalizing s   <;> first | with_reducible rfl | (simp [applyAgain]; done) | (simp [applyAgain, *]; done) | (unfold applyAgain; (try dsimp only); (repeat' (first | with_reducible rfl | (simp; done) | (rw [State.each_hide]) | (rw [State.when_hide]) | (rw [State.foldl_hide]) | (refine upRequest_hide _ _ _ _ (by decide) ?_) | (refine downRequest_hide _ _ _ _ (by decide) ?_) | (intro _ _; (try dsimp only)) | (intro _; (try dsimp only)) | split)) <;> first | with_reducible rfl | (simp [*]; done) | (apply hide_congr <;> intro hb <;> first | rfl | exact absurd hb (by decide)) | grind [applyCancel_hide, applyInsert_hide, applyValue_hide, carriedOut_hide]) | grind [applyAgain, applyCancel_hide, applyInsert_hide, applyValue_hide, carriedOut_hide]
@[simp] theorem reapply_hide (s : State) (m_ : Nat) (h_ : m_ &&& 16917697 = 16917697) : (reapply s).hide m_ = s.hide m_ := by
  refine hide_mono h_ ?_
  simp [reapply]
@[simp] theorem takeImage_hide (s : State) (m_ : Nat) (h_ : m_ &&& 50331648 = 50331648) :
    (takeImage s).2.hide m_ = s.hide m_ := by
  refine hide_mono h_ ?_
  unfold takeImage
  dsimp only
  repeat' split
  all_goals simp
@[simp] theorem workCrcFault_hide (injected : Bool) (s : State) (m_ : Nat) (h_ : m_ &&& 16777281 = 16777281) : (workCrcFault injected s).hide m_ = s.hide m_ := by
  refine hide_mono h_ ?_
  simp [workCrcFault]
@[simp] theorem noteOffered_hide (c : List Byte) (s : State) (m_ : Nat) (h_ : m_ &&& 16777216 = 16777216) : (noteOffered c s).hide m_ = s.hide m_ := by
  refine hide_mono h_ ?_
  simp [noteOffered]
@[simp] theorem takeWorkCell_hide (images : Nat) (s : State) (m_ : Nat) (h_ : m_ &&& 50331648 = 50331648) :
    (takeWorkCell images s).2.2.hide m_ = s.hide m_ := by
  refine hide_mono h_ ?_
  first
  | (simp [takeWorkCell]; done)
  | (unfold takeWorkCell; (try dsimp only); (repeat' (first | with_reducible rfl | (simp; done) | (rw [State.each_hide]) | (rw [State.when_hide]) | (rw [State.foldl_hide]) | (refine upRequest_hide _ _ _ _ (by decide) ?_) | (refine downRequest_hide _ _ _ _ (by decide) ?_) | (intro _ _; (try dsimp only)) | (intro _; (try dsimp only)) | split)) <;> first | with_reducible rfl | (simp [*]; done) | (apply hide_congr <;> intro hb <;> first | rfl | exact absurd hb (by decide)) | grind [State.modWork_hide, noteOffered_hide, takeImage_hide])
@[simp] theorem noteImage_hide (c : List Byte) (s : State) (m_ : Nat) (h_ : m_ &&& 33554432 = 33554432) : (noteImage c s).hide m_ = s.hide m_ := by
  refine hide_mono h_ ?_
  simp [noteImage]
@[simp] theorem passCell_hide (dir : Nat) (c : List Byte) (s : State) (m_ : Nat) (h_ : m_ &&& 50331713 = 50331713) : (passCell dir c s).2.2.hide m_ = s.hide m_ := by
  refine hide_mono h_ ?_
  unfold passCell
  by_cases ht : byteAt c 0 = 0
  · simp [ht]
  · simp only [ht, if_false]
    generalize hs : s.inject 0x0B dir = r
    obtain ⟨inj, r⟩ := r
    have hr : r.hide 50331713 = s.hide 50331713 := by
      have := State.inject_hide 0x0B dir s 50331713 (by decide)
      rwa [hs] at this
    rw [← hr]
    dsimp only
    (repeat' split) <;> simp
@[simp] theorem workCellStep_hide (dir : Nat) (inserts : Bool) (credit images : Nat) (c : List Byte) (s : State) (m_ : Nat) (h_ : m_ &&& 50331713 = 50331713) : (workCellStep dir inserts credit images c s).2.2.2.hide m_ = s.hide m_ := by
  refine hide_mono h_ ?_
  unfold workCellStep
  have hp := passCell_hide dir c s 50331713 rfl
  generalize passCell dir c s = r at hp
  obtain ⟨out, freed, r⟩ := r
  rw [← hp]
  dsimp only
  split
  · have ht := takeWorkCell_hide images r 50331713 rfl
    generalize takeWorkCell images r = y at ht
    obtain ⟨x, i, y⟩ := y
    rw [← ht]
    cases x <;> simp
  · rfl
@[simp] theorem workCellsFrom_hide (dir : Nat) (inserts : Bool) (x0 : Nat) (x1 : Nat) (x2 : List (List Byte)) (s : State) (m_ : Nat) (h_ : m_ &&& 50331713 = 50331713) : (workCellsFrom dir inserts x0 x1 x2 s).2.hide m_ = s.hide m_ := by
  refine hide_mono h_ ?_
  clear h_
  induction x2 generalizing x0 x1 s with
  | nil => rfl
  | cons c l ih => unfold workCellsFrom; dsimp only; rw [ih]; simp
@[simp] theorem workCells_hide (dir : Nat) (inserts : Bool) (cells : List (List Byte)) (s : State) (m_ : Nat) (h_ : m_ &&& 50331713 = 50331713) : (workCells dir inserts cells s).2.hide m_ = s.hide m_ := by
  refine hide_mono h_ ?_
  simp [workCells]

/-! ## RingFrame -/

@[simp] theorem tapFrame_hide (p : Fin 4) (full : Bool) (stamp : SysTime) (power : BitVec 16) (f : List (Nat × Byte)) (bad : List Nat) (s : State) (m_ : Nat) (h_ : m_ &&& 73937091 = 73937091) : (tapFrame p full stamp power f bad s).hide m_ = s.hide m_ := by
  refine hide_mono h_ ?_
  unfold tapFrame
  dsimp only
  repeat' split
  all_goals simp
@[simp] theorem takeNumber_hide (p : Fin 4) (n : Option (BitVec 48)) (s : State) (m_ : Nat) (h_ : m_ &&& 4194433 = 4194433) : (takeNumber p n s).hide m_ = s.hide m_ := by
  refine hide_mono h_ ?_
  unfold takeNumber
  dsimp only
  repeat' split
  all_goals simp
@[simp] theorem takeControl_hide (p : Fin 4) (rc : List Byte) (valid : Bool) (s : State) (m_ : Nat) (h_ : m_ &&& 71303361 = 71303361) : (takeControl p rc valid s).hide m_ = s.hide m_ := by
  refine hide_mono h_ ?_
  simp [takeControl]
@[simp] theorem takeTime_hide (p : Fin 4) (n : Option (BitVec 48)) (stamp : SysTime) (b : List Byte) (s : State) (m_ : Nat) (h_ : m_ &&& 73937091 = 73937091) : (takeTime p n stamp b s).hide m_ = s.hide m_ := by
  refine hide_mono h_ ?_
  unfold takeTime
  dsimp only
  repeat' split
  all_goals simp
@[simp] theorem takeSpan_hide (p : Fin 4) (ok : Bool) (b : List Byte) (s : State) (m_ : Nat) (h_ : m_ &&& 2097152 = 2097152) : (takeSpan p ok b s).hide m_ = s.hide m_ := by
  refine hide_mono h_ ?_
  unfold takeSpan
  dsimp only
  repeat' split
  all_goals simp
@[simp] theorem takeFrame_hide (p : Fin 4) (full : Bool) (stamp : SysTime) (f : List (Nat × Byte)) (bad : List Nat) (corr : Nat) (s : State) (m_ : Nat) (h_ : m_ &&& 73937091 = 73937091) : (takeFrame p full stamp f bad corr s).hide m_ = s.hide m_ := by
  refine hide_mono h_ ?_
  simp [takeFrame]
theorem execFrameReceived_hide (p : Fin 4) (full : Bool) (stamp : SysTime) (power : BitVec 16) (f : List (Nat × Byte)) (bad : List Nat) (corr : Nat) (s : State) : ∀ u_, execFrameReceived p full stamp power f bad corr s = .next u_ → u_.hide 73937091 = s.hide 73937091 := by
  intro u_ h
  simp only [execFrameReceived, actWhen_next] at h
  subst h
  simp
@[simp] theorem masterNumber_hide (p : Fin 4) (stamp : SysTime) (s : State) (m_ : Nat) (h_ : m_ &&& 4194304 = 4194304) : (masterNumber p stamp s).2.hide m_ = s.hide m_ := by
  refine hide_mono h_ ?_
  unfold masterNumber
  dsimp only
  repeat' split
  all_goals simp
@[simp] theorem buildNumber_hide (p : Fin 4) (stamp : SysTime) (s : State) (m_ : Nat) (h_ : m_ &&& 71303168 = 71303168) : (buildNumber p stamp s).2.hide m_ = s.hide m_ := by
  refine hide_mono h_ ?_
  unfold buildNumber
  dsimp only
  repeat' split
  all_goals simp
@[simp] theorem setClocks_hide (s : State) (m_ : Nat) (h_ : m_ &&& 67108865 = 67108865) : (setClocks s).hide m_ = s.hide m_ := by
  refine hide_mono h_ ?_
  simp [setClocks]
@[simp] theorem cmCheck_hide (page : Bool) (port slot : Nat) (s : State) (m_ : Nat) (h_ : m_ &&& 1048641 = 1048641) : (cmCheck page port slot s).2.hide m_ = s.hide m_ := by
  refine hide_mono h_ ?_
  simp [cmCheck]
@[simp] theorem buildSlot_hide (p : Fin 4) (slot : Nat) (s : State) (m_ : Nat) (h_ : m_ &&& 1048641 = 1048641) : (buildSlot p slot s).2.hide m_ = s.hide m_ := by
  refine hide_mono h_ ?_
  first
  | (simp [buildSlot]; done)
  | (unfold buildSlot; (try dsimp only); (repeat' (first | with_reducible rfl | (simp; done) | (rw [State.each_hide]) | (rw [State.when_hide]) | (rw [State.foldl_hide]) | (refine upRequest_hide _ _ _ _ (by decide) ?_) | (refine downRequest_hide _ _ _ _ (by decide) ?_) | (intro _ _; (try dsimp only)) | (intro _; (try dsimp only)) | split)) <;> first | with_reducible rfl | (simp [*]; done) | (apply hide_congr <;> intro hb <;> first | rfl | exact absurd hb (by decide)) | grind [State.count_hide, State.modTsi_hide, cmCheck_hide])
theorem foldl5_hide {α β γ δ ε : Type} (m : Nat) (l : List ε) (f : α × β × γ × δ × State → ε → α × β × γ × δ × State) (a :
    α × β × γ × δ × State) (h : ∀ a k, (f a k).2.2.2.2.hide m = a.2.2.2.2.hide m) :
    (l.foldl f a).2.2.2.2.hide m = a.2.2.2.2.hide m := by
  induction l generalizing a with
  | nil => rfl
  | cons k l ih => rw [List.foldl_cons, ih, h]
@[simp] theorem buildSlots_hide (p : Fin 4) (s : State) (m_ : Nat) (h_ : m_ &&& 5242945 = 5242945) : (buildSlots p s).2.hide m_ = s.hide m_ := by
  refine hide_mono h_ ?_
  unfold buildSlots
  dsimp only
  rw [State.modPort_hide _ _ _ _ (by decide), foldl5_hide]
  intro a k
  dsimp only
  split <;> simp
@[simp] theorem takeSpanTx_hide (p : Fin 4) (s : State) (m_ : Nat) (h_ : m_ &&& 2097152 = 2097152) : (takeSpanTx p s).2.hide m_ = s.hide m_ := by
  refine hide_mono h_ ?_
  unfold takeSpanTx
  dsimp only
  repeat' split
  all_goals simp
@[simp] theorem buildCells_hide (p : Fin 4) (s : State) (m_ : Nat) (h_ : m_ &&& 52434113 = 52434113) : (buildCells p s).2.hide m_ = s.hide m_ := by
  unfold buildCells
  simp only [workCells_hide _ _ _ _ _ (mask_sub h_ _ (by decide)), lineCells_hide _ _ _ _ _ (mask_sub h_ _ (by decide))]
  split
  · rfl
  · exact takeSpanTx_hide _ _ _ (mask_sub h_ _ (by decide))
@[simp] theorem buildBody_hide (p : Fin 4) (s : State) (m_ : Nat) (h_ : m_ &&& 57676993 = 57676993) : (buildBody p s).2.hide m_ = s.hide m_ := by
  unfold buildBody
  dsimp only
  rw [buildSlots_hide _ _ _ (mask_sub h_ _ (by decide))]
  generalize List.replicate 8432 (0 : Byte) = l
  split
  · exact buildCells_hide _ _ _ (mask_sub h_ _ (by decide))
  · rfl
@[simp] theorem afterFrame_hide (p : Fin 4) (n : Nat) (stamp : SysTime) (s : State) (m_ : Nat) (h_ : m_ &&& 4718624 = 4718624) : (afterFrame p n stamp s).hide m_ = s.hide m_ := by
  refine hide_mono h_ ?_
  simp [afterFrame]
@[simp] theorem bufferSlips_hide (p : Fin 4) (slips : List (Fin 4)) (s : State) (m_ : Nat) (h_ : m_ &&& 65 = 65) : (bufferSlips p slips s).hide m_ = s.hide m_ := by
  refine hide_mono h_ ?_
  simp [bufferSlips]
@[simp] theorem beginFrame_hide (p : Fin 4) (stamp : SysTime) (s : State) (m_ : Nat) (h_ : m_ &&& 74973377 = 74973377) : (beginFrame p stamp s).2.hide m_ = s.hide m_ := by
  refine hide_mono h_ ?_
  simp [beginFrame]
@[simp] theorem buildFrame_hide (p : Fin 4) (stamp : SysTime) (slips : List (Fin 4)) (s : State) (m_ : Nat) (h_ : m_ &&& 125310177 = 125310177) : (buildFrame p stamp slips s).hide m_ = s.hide m_ := by
  refine hide_mono h_ ?_
  simp [buildFrame]
@[simp] theorem buildLeaving_hide (p : Fin 4) (stamp : SysTime) (s : State) (m_ : Nat) (h_ : m_ &&& 71827456 = 71827456) : (buildLeaving p stamp s).hide m_ = s.hide m_ := by
  refine hide_mono h_ ?_
  simp [buildLeaving]
theorem execFrameBuilt_hide (p : Fin 4) (stamp : SysTime) (slips : List (Fin 4)) (s : State) : ∀ u_, execFrameBuilt p stamp slips s = .next u_ → u_.hide 125310177 = s.hide 125310177 := by
  intro u_ h
  simp only [execFrameBuilt, actWhen_next] at h
  subst h
  simp

/-! ## Dist -/

@[simp] theorem State.modDist_hide (f : Dist → Dist) (s : State) (m_ : Nat) (h_ : m_ &&& 33554432 = 33554432) : (State.modDist f s).hide m_ = s.hide m_ := by
  refine hide_mono h_ ?_
  simp [State.modDist]
@[simp] theorem setDist_hide (st : Nat) (s : State) (m_ : Nat) (h_ : m_ &&& 129 = 129) : (setDist st s).hide m_ = s.hide m_ := by
  refine hide_mono h_ ?_
  simp [setDist]
@[simp] theorem setAct_hide (act : Nat) (s : State) (m_ : Nat) (h_ : m_ &&& 1 = 1) : (setAct act s).hide m_ = s.hide m_ := by
  refine hide_mono h_ ?_
  simp [setAct]
theorem popImage_hide (type : Byte) (s : State) : ∀ c t, popImage type s = some (c, t)
    → t.hide 33554432 = s.hide 33554432 := by
  intro c t h
  unfold popImage at h
  split at h <;> simp at h
  obtain ⟨-, rfl⟩ := h; simp
theorem onImage_hide (type : Byte) (f : List Byte → State → State) (s : State) (m : Nat) (hm : m &&& 33554432 = 33554432)
    (hf : ∀ c s, (f c s).hide m = s.hide m) : ∀ t, onImage type f s = .next t → t.hide m = s.hide m := by
  intro t h
  unfold onImage at h
  simp only [actWhen_next] at h; subst h
  split
  · split
    · rfl
    · next h => rw [hf]; exact hide_mono (mask_sub hm _ (by decide)) (popImage_hide _ _ _ _ h)
  · rfl
@[simp] theorem sendStatus_hide (seq state code dst : Nat) (mismatch : Bool) (ranges : List (Nat × Nat)) (s : State) (m_ : Nat) (h_ : m_ &&& 16777216 = 16777216) : (sendStatus seq state code dst mismatch ranges s).hide m_ = s.hide m_ := by
  refine hide_mono h_ ?_
  simp [sendStatus]
@[simp] theorem imgFault_hide (kind : BitVec 5) (reason : BitVec 8) (detail : Nat) (s : State) (m_ : Nat) (h_ : m_ &&& 65 = 65) : (imgFault kind reason detail s).hide m_ = s.hide m_ := by
  refine hide_mono h_ ?_
  simp [imgFault]
@[simp] theorem imgRefused_hide (code seq : Nat) (s : State) (m_ : Nat) (h_ : m_ &&& 65 = 65) : (imgRefused code seq s).hide m_ = s.hide m_ := by
  refine hide_mono h_ ?_
  simp [imgRefused]
@[simp] theorem sendNeed_hide (s : State) (m_ : Nat) (h_ : m_ &&& 50331648 = 50331648) : (sendNeed s).hide m_ = s.hide m_ := by
  refine hide_mono h_ ?_
  simp [sendNeed]
@[simp] theorem clearChunks_hide (s : State) (m_ : Nat) (h_ : m_ &&& 33554433 = 33554433) : (clearChunks s).hide m_ = s.hide m_ := by
  refine hide_mono h_ ?_
  simp [clearChunks]
@[simp] theorem dropPreload_hide (s : State) (m_ : Nat) (h_ : m_ &&& 1 = 1) : (dropPreload s).hide m_ = s.hide m_ := by
  refine hide_mono h_ ?_
  simp [dropPreload]
@[simp] theorem endDrain_hide (s : State) (m_ : Nat) (h_ : m_ &&& 33554688 = 33554688) : (endDrain s).hide m_ = s.hide m_ := by
  refine hide_mono h_ ?_
  simp [endDrain]
@[simp] theorem startReceiving_hide (c : List Byte) (seq : Nat) (s : State) (m_ : Nat) (h_ : m_ &&& 58720641 = 58720641) : (startReceiving c seq s).hide m_ = s.hide m_ := by
  refine hide_mono h_ ?_
  simp [startReceiving]
@[simp] theorem acceptImageOffer_hide (c : List Byte) (s : State) (m_ : Nat) (h_ : m_ &&& 58720641 = 58720641) : (acceptImageOffer c s).hide m_ = s.hide m_ := by
  refine hide_mono h_ ?_
  simp [acceptImageOffer]
@[simp] theorem takeImageOffer_hide (c : List Byte) (s : State) (m_ : Nat) (h_ : m_ &&& 58720705 = 58720705) : (takeImageOffer c s).hide m_ = s.hide m_ := by
  refine hide_mono h_ ?_
  unfold takeImageOffer
  repeat' split
  all_goals simp
theorem execImageOffer_hide (s : State) : ∀ u_, execImageOffer s = .next u_ → u_.hide 58720705 = s.hide 58720705 := by
  intro u_ h
  unfold execImageOffer at h
  refine onImage_hide _ _ _ _ (by decide) ?_ u_ h
  intro c s; (try dsimp only)
  (repeat' (first | with_reducible rfl | (simp; done) | (rw [State.each_hide]) | (rw [State.when_hide]) | (rw [State.foldl_hide]) | (refine upRequest_hide _ _ _ _ (by decide) ?_) | (refine downRequest_hide _ _ _ _ (by decide) ?_) | (intro _ _; (try dsimp only)) | (intro _; (try dsimp only)) | split)) <;> first | with_reducible rfl | (simp [*]; done) | (apply hide_congr <;> intro hb <;> first | rfl | exact absurd hb (by decide)) | grind [onImage_hide, takeImageOffer_hide]
@[simp] theorem refuseStaged_hide (code seq : Nat) (s : State) (m_ : Nat) (h_ : m_ &&& 50331841 = 50331841) : (refuseStaged code seq s).hide m_ = s.hide m_ := by
  refine hide_mono h_ ?_
  simp [refuseStaged]
@[simp] theorem verifyImage_hide (s : State) (m_ : Nat) (h_ : m_ &&& 58720449 = 58720449) : (verifyImage s).hide m_ = s.hide m_ := by
  refine hide_mono h_ ?_
  unfold verifyImage
  dsimp only
  repeat' split
  all_goals simp
@[simp] theorem takeChunk_hide (c : List Byte) (s : State) (m_ : Nat) (h_ : m_ &&& 58720449 = 58720449) : (takeChunk c s).hide m_ = s.hide m_ := by
  refine hide_mono h_ ?_
  simp [takeChunk]
theorem execChunk_hide (s : State) : ∀ u_, execChunk s = .next u_ → u_.hide 58720449 = s.hide 58720449 := by
  intro u_ h
  unfold execChunk at h
  refine onImage_hide _ _ _ _ (by decide) ?_ u_ h
  intro c s; (try dsimp only)
  (repeat' (first | with_reducible rfl | (simp; done) | (rw [State.each_hide]) | (rw [State.when_hide]) | (rw [State.foldl_hide]) | (refine upRequest_hide _ _ _ _ (by decide) ?_) | (refine downRequest_hide _ _ _ _ (by decide) ?_) | (intro _ _; (try dsimp only)) | (intro _; (try dsimp only)) | split)) <;> first | with_reducible rfl | (simp [*]; done) | (apply hide_congr <;> intro hb <;> first | rfl | exact absurd hb (by decide)) | grind [onImage_hide, takeChunk_hide]
theorem execNeedReport_hide (s : State) : ∀ u_, execNeedReport s = .next u_ → u_.hide 50331648 = s.hide 50331648 := by
  intro u_ h
  simp only [execNeedReport, actWhen_next] at h
  subst h
  simp
@[simp] theorem takeBeacon_hide (c : List Byte) (s : State) (m_ : Nat) (h_ : m_ &&& 16777216 = 16777216) : (takeBeacon c s).hide m_ = s.hide m_ := by
  refine hide_mono h_ ?_
  simp [takeBeacon]
theorem execBeacon_hide (s : State) : ∀ u_, execBeacon s = .next u_ → u_.hide 50331648 = s.hide 50331648 := by
  intro u_ h
  unfold execBeacon at h
  refine onImage_hide _ _ _ _ (by decide) ?_ u_ h
  intro c s; (try dsimp only)
  (repeat' (first | with_reducible rfl | (simp; done) | (rw [State.each_hide]) | (rw [State.when_hide]) | (rw [State.foldl_hide]) | (refine upRequest_hide _ _ _ _ (by decide) ?_) | (refine downRequest_hide _ _ _ _ (by decide) ?_) | (intro _ _; (try dsimp only)) | (intro _; (try dsimp only)) | split)) <;> first | with_reducible rfl | (simp [*]; done) | (apply hide_congr <;> intro hb <;> first | rfl | exact absurd hb (by decide)) | grind [onImage_hide, takeBeacon_hide]
theorem execBeaconSend_hide (s : State) : ∀ u_, execBeaconSend s = .next u_ → u_.hide 50331648 = s.hide 50331648 := by
  intro u_ h
  simp only [execBeaconSend, actWhen_next] at h
  subst h
  simp
@[simp] theorem showRoster_hide (v : Serve) (s : State) (m_ : Nat) (h_ : m_ &&& 1 = 1) : (showRoster v s).hide m_ = s.hide m_ := by
  refine hide_mono h_ ?_
  simp [showRoster]
@[simp] theorem endServe_hide (s : State) (m_ : Nat) (h_ : m_ &&& 33554433 = 33554433) : (endServe s).hide m_ = s.hide m_ := by
  refine hide_mono h_ ?_
  simp [endServe]
@[simp] theorem takeStatus_hide (c : List Byte) (s : State) (m_ : Nat) (h_ : m_ &&& 33554433 = 33554433) : (takeStatus c s).hide m_ = s.hide m_ := by
  refine hide_mono h_ ?_
  unfold takeStatus
  dsimp only
  repeat' split
  all_goals simp
theorem execImageStatus_hide (s : State) : ∀ u_, execImageStatus s = .next u_ → u_.hide 33554433 = s.hide 33554433 := by
  intro u_ h
  unfold execImageStatus at h
  refine onImage_hide _ _ _ _ (by decide) ?_ u_ h
  intro c s; (try dsimp only)
  (repeat' (first | with_reducible rfl | (simp; done) | (rw [State.each_hide]) | (rw [State.when_hide]) | (rw [State.foldl_hide]) | (refine upRequest_hide _ _ _ _ (by decide) ?_) | (refine downRequest_hide _ _ _ _ (by decide) ?_) | (intro _ _; (try dsimp only)) | (intro _; (try dsimp only)) | split)) <;> first | with_reducible rfl | (simp [*]; done) | (apply hide_congr <;> intro hb <;> first | rfl | exact absurd hb (by decide)) | grind [onImage_hide, takeStatus_hide]
@[simp] theorem State.nodesInRing_hide (s : State) (m_ : Nat) (h_ : m_ &&& 67108864 = 67108864) : s.nodesInRing.2.hide m_ = s.hide m_ := by
  refine hide_mono h_ ?_
  simp [State.nodesInRing]
@[simp] theorem serveRound_hide (v : Serve) (c : Bool) (s : State) (m_ : Nat) (h_ : m_ &&& 83886080 = 83886080) : (serveRound v c s).2.hide m_ = s.hide m_ := by
  refine hide_mono h_ ?_
  simp [serveRound]
theorem execOfferRound_hide (s : State) : ∀ u_, execOfferRound s = .next u_ → u_.hide 117440512 = s.hide 117440512 := by
  intro u_ h
  simp only [execOfferRound, actWhen_next] at h
  subst h
  repeat' split
  all_goals simp
@[simp] theorem armNodes_hide (m : BitVec 128) (seq : Word) (act : Nat) (s : State) (m_ : Nat) (h_ : m_ &&& 16777345 = 16777345) : (armNodes m seq act s).hide m_ = s.hide m_ := by
  refine hide_mono h_ ?_
  simp [armNodes]
@[simp] theorem armServe_hide (v : Serve) (s : State) (m_ : Nat) (h_ : m_ &&& 58720385 = 58720385) : (armServe v s).hide m_ = s.hide m_ := by
  refine hide_mono h_ ?_
  simp [armServe]
theorem execArming_hide (s : State) : ∀ u_, execArming s = .next u_ → u_.hide 58720385 = s.hide 58720385 := by
  intro u_ h
  simp only [execArming, actWhen_next] at h
  subst h
  repeat' split
  all_goals simp
@[simp] theorem activate_hide (r : JRec) (s : State) (m_ : Nat) (h_ : m_ &&& 58720705 = 58720705) : (activate r s).hide m_ = s.hide m_ := by
  refine hide_mono h_ ?_
  simp [activate]
theorem execActivateImage_hide (s : State) : ∀ u_, execActivateImage s = .next u_ → u_.hide 58720705 = s.hide 58720705 := by
  intro u_ h
  simp only [execActivateImage, actWhen_next] at h
  subst h
  repeat' split
  all_goals simp
@[simp] theorem preloadMissing_hide (s : State) (m_ : Nat) (h_ : m_ &&& 8388801 = 8388801) : (preloadMissing s).hide m_ = s.hide m_ := by
  refine hide_mono h_ ?_
  simp [preloadMissing]
@[simp] theorem preloadFailed_hide (index : Nat) (s : State) (m_ : Nat) (h_ : m_ &&& 58720449 = 58720449) : (preloadFailed index s).hide m_ = s.hide m_ := by
  refine hide_mono h_ ?_
  simp [preloadFailed]
@[simp] theorem preload_hide (s : State) (m_ : Nat) (h_ : m_ &&& 59769281 = 59769281) : (preload s).hide m_ = s.hide m_ := by
  refine hide_mono h_ ?_
  simp [preload]
theorem execPreload_hide (s : State) : ∀ u_, execPreload s = .next u_ → u_.hide 59769281 = s.hide 59769281 := by
  intro u_ h
  simp only [execPreload, actWhen_next] at h
  subst h
  simp
theorem execDraining_hide (s : State) : ∀ u_, execDraining s = .next u_ → u_.hide 33554688 = s.hide 33554688 := by
  intro u_ h
  simp only [execDraining, actWhen_next] at h
  subst h
  simp
@[simp] theorem swapPages_hide (w : Nat) (s : State) (m_ : Nat) (h_ : m_ &&& 38797761 = 38797761) : (swapPages w s).hide m_ = s.hide m_ := by
  refine hide_mono h_ ?_
  simp [swapPages]
@[simp] theorem abandonSwap_hide (s : State) (m_ : Nat) (h_ : m_ &&& 33554753 = 33554753) : (abandonSwap s).hide m_ = s.hide m_ := by
  refine hide_mono h_ ?_
  simp [abandonSwap]
theorem execPageSwap_hide (s : State) : ∀ u_, execPageSwap s = .next u_ → u_.hide 38797761 = s.hide 38797761 := by
  intro u_ h
  simp only [execPageSwap, actWhen_next] at h
  subst h
  repeat' split
  all_goals simp
@[simp] theorem startDist_hide (s : State) (m_ : Nat) (h_ : m_ &&& 33554561 = 33554561) : (startDist s).hide m_ = s.hide m_ := by
  refine hide_mono h_ ?_
  simp [startDist]
theorem execScrub_hide (s : State) : ∀ u_, execScrub s = .next u_ → u_.hide 257 = s.hide 257 := by
  intro u_ h
  simp only [execScrub, actWhen_next] at h
  subst h
  simp
@[simp] theorem csFault_hide (reason : BitVec 8) (cls : BitVec 2) (i : Nat) (s : State) (m_ : Nat) (h_ : m_ &&& 65 = 65) : (csFault reason cls i s).hide m_ = s.hide m_ := by
  refine hide_mono h_ ?_
  simp [csFault]
@[simp] theorem endBad_hide (i : Nat) (gaveUp : Bool) (s : State) (m_ : Nat) (h_ : m_ &&& 256 = 256) : (endBad i gaveUp s).hide m_ = s.hide m_ := by
  refine hide_mono h_ ?_
  simp [endBad]
theorem execCsScrubbed_hide (s : State) : ∀ u_, execCsScrubbed s = .next u_ → u_.hide 833 = s.hide 833 := by
  intro u_ h
  unfold execCsScrubbed at h
  simp only [actWhen_next] at h
  subst h
  split
  · split
    · rfl
    · next b _ =>
      try dsimp only
      generalize hx : ({ s with hrt := { s.hrt with
        cs := tabSet 0 s.hrt.cs (csKey (s.get F.HRT_SWAP_ACTIVE_PAGE) b.word) (s.imageWord b.word) } } : State) = x
      have h1 : x.hide 833 = s.hide 833 := by subst hx; simp
      have h2 := State.csCheck_hide (s.get F.HRT_SWAP_ACTIVE_PAGE) b.word x 833 (by decide)
      split <;> (next h => rw [h] at h2; rw [← h1, ← h2]; simp)
  · rfl
theorem execCsUncorr_hide (s : State) : ∀ u_, execCsUncorr s = .next u_ → u_.hide 321 = s.hide 321 := by
  intro u_ h
  simp only [execCsUncorr, actWhen_next] at h
  subst h
  repeat' split
  all_goals simp

/-! ## PlugIo -/

@[simp] theorem spmPut_hide (m a : Nat) (x0 : Nat) (x1 : List Byte) (s : State) (m_ : Nat) (h_ : m_ &&& 1089 = 1089) : (spmPut m a x0 x1 s).2.hide m_ = s.hide m_ := by
  refine hide_mono h_ ?_
  clear h_
  induction x0 generalizing s m a x1 <;> first | with_reducible rfl | (simp [spmPut]; done) | (simp [spmPut, *]; done) | (unfold spmPut; (try dsimp only); (repeat' (first | with_reducible rfl | (simp; done) | (rw [State.each_hide]) | (rw [State.when_hide]) | (rw [State.foldl_hide]) | (refine upRequest_hide _ _ _ _ (by decide) ?_) | (refine downRequest_hide _ _ _ _ (by decide) ?_) | (intro _ _; (try dsimp only)) | (intro _; (try dsimp only)) | split)) <;> first | with_reducible rfl | (simp [*]; done) | (apply hide_congr <;> intro hb <;> first | rfl | exact absurd hb (by decide)) | grind [State.spmWrite_hide]) | grind [spmPut, State.spmWrite_hide]
@[simp] theorem spmGet_hide (m a : Nat) (x0 : Nat) (x1 : Nat) (s : State) (m_ : Nat) (h_ : m_ &&& 1089 = 1089) : (spmGet m a x0 x1 s).2.hide m_ = s.hide m_ := by
  refine hide_mono h_ ?_
  clear h_
  induction x0 generalizing s m a x1 <;> first | with_reducible rfl | (simp [spmGet]; done) | (simp [spmGet, *]; done) | (unfold spmGet; (try dsimp only); (repeat' (first | with_reducible rfl | (simp; done) | (rw [State.each_hide]) | (rw [State.when_hide]) | (rw [State.foldl_hide]) | (refine upRequest_hide _ _ _ _ (by decide) ?_) | (refine downRequest_hide _ _ _ _ (by decide) ?_) | (intro _ _; (try dsimp only)) | (intro _; (try dsimp only)) | split)) <;> first | with_reducible rfl | (simp [*]; done) | (apply hide_congr <;> intro hb <;> first | rfl | exact absurd hb (by decide)) | grind [State.spmRead_hide]) | grind [spmGet, State.spmRead_hide]
@[simp] theorem moveBytes_hide (x : Transfer) (n : Nat) (s : State) (m_ : Nat) (h_ : m_ &&& 8389697 = 8389697) : (moveBytes x n s).2.hide m_ = s.hide m_ := by
  refine hide_mono h_ ?_
  simp [moveBytes]
@[simp] theorem xferOver_hide (result done : Nat) (s : State) (m_ : Nat) (h_ : m_ &&& 8388737 = 8388737) : (xferOver result done s).hide m_ = s.hide m_ := by
  refine hide_mono h_ ?_
  simp [xferOver]
@[simp] theorem writePlgCtl_hide (v : Word) (s : State) (m_ : Nat) (h_ : m_ &&& 8388801 = 8388801) : (writePlgCtl v s).hide m_ = s.hide m_ := by
  refine hide_mono h_ ?_
  simp [writePlgCtl]
theorem execTransfer_hide (v : Word) (s : State) : ∀ u_, execTransfer v s = .next u_ → u_.hide 8388801 = s.hide 8388801 := by
  intro u_ h
  simp only [execTransfer, actWhen_next] at h
  subst h
  simp
theorem execTransferEnd_hide (s : State) : ∀ u_, execTransferEnd s = .next u_ → u_.hide 8389825 = s.hide 8389825 := by
  intro u_ h
  simp only [execTransferEnd, actWhen_next] at h
  subst h
  repeat' split
  all_goals simp
@[simp] theorem abortTransfer_hide (s : State) (m_ : Nat) (h_ : m_ &&& 75498689 = 75498689) : (abortTransfer s).hide m_ = s.hide m_ := by
  refine hide_mono h_ ?_
  unfold abortTransfer
  dsimp only
  repeat' split
  all_goals simp
@[simp] theorem plugLog_hide (type cause : Byte) (time : SysTime) (state : Word) (verdicts : Nat) (s : State) (m_ : Nat) (h_ : m_ &&& 8388608 = 8388608) : (plugLog type cause time state verdicts s).hide m_ = s.hide m_ := by
  refine hide_mono h_ ?_
  simp [plugLog]
@[simp] theorem shutdownRecord_hide (cause : Byte) (time : SysTime) (done : Nat) (s : State) (m_ : Nat) (h_ : m_ &&& 8388608 = 8388608) : (shutdownRecord cause time done s).hide m_ = s.hide m_ := by
  refine hide_mono h_ ?_
  simp [shutdownRecord]

/-! ## Kin -/

@[simp] theorem State.modNode_hide (f : Node → Node) (s : State) (m_ : Nat) (h_ : m_ &&& 16 = 16) : (State.modNode f s).hide m_ = s.hide m_ := by
  refine hide_mono h_ ?_
  simp [State.modNode]
@[simp] theorem endPhase_hide (f : Field) (next : Phase) (s : State) (m_ : Nat) (h_ : m_ &&& 17 = 17) : (endPhase f next s).hide m_ = s.hide m_ := by
  refine hide_mono h_ ?_
  simp [endPhase]
@[simp] theorem kinFault_hide (kind : BitVec 5) (cls : BitVec 2) (reason : BitVec 8) (detail : BitVec 24) (s : State) (m_ : Nat) (h_ : m_ &&& 65 = 65) : (kinFault kind cls reason detail s).hide m_ = s.hide m_ := by
  refine hide_mono h_ ?_
  simp [kinFault]
@[simp] theorem kinFatal_hide (kind : BitVec 5) (reason : BitVec 8) (detail : BitVec 24) (s : State) (m_ : Nat) (h_ : m_ &&& 81 = 81) : (kinFatal kind reason detail s).hide m_ = s.hide m_ := by
  refine hide_mono h_ ?_
  simp [kinFatal]

/-! ## RegAccess -/

@[simp] theorem regRead_hide (m a : Nat) (s : State) (m_ : Nat) (h_ : m_ &&& 67108873 = 67108873) : (regRead m a s).2.hide m_ = s.hide m_ := by
  refine hide_mono h_ ?_
  unfold regRead
  dsimp only
  repeat' split
  all_goals simp
theorem writeHrt_hide (off : Nat) (v : Word) (s : State) : ∀ u_, writeHrt off v s = some u_ → u_.hide 769 = s.hide 769 := by
  intro u_ h
  unfold writeHrt at h
  try dsimp only at h
  repeat' split at h
  all_goals first | contradiction | (cases h; first | (simp; done) | grind [makeReady_hide, restartEmber_hide, unready_hide, writeDueHi_hide, writeDueLo_hide]) | (simp at h; done) | (simp at h; subst h; simp)
theorem writeIc_hide (off : Nat) (v : Word) (s : State) : ∀ u_, writeIc off v s = some u_ → u_.hide 129 = s.hide 129 := by
  intro u_ h
  unfold writeIc at h
  try dsimp only at h
  repeat' split at h
  all_goals first | contradiction | (cases h; first | (simp; done) | grind [writeArrived_hide, writeEctl_hide, writeEnClr_hide, writeEnSet_hide, writeLatClr_hide, writeLatSet_hide, writeSrc_hide]) | (simp at h; done) | (simp at h; subst h; simp)
@[simp] theorem writeGsrCtl_hide (g : Fin 8) (v : Word) (s : State) (m_ : Nat) (h_ : m_ &&& 3265 = 3265) : (writeGsrCtl g v s).hide m_ = s.hide m_ := by
  refine hide_mono h_ ?_
  simp [writeGsrCtl]
@[simp] theorem writePowerFree_hide (hi : Bool) (v : Word) (s : State) (m_ : Nat) (h_ : m_ &&& 67109889 = 67109889) : (writePowerFree hi v s).hide m_ = s.hide m_ := by
  refine hide_mono h_ ?_
  simp [writePowerFree]
theorem writeSpm_hide (off : Nat) (v : Word) (s : State) : ∀ u_, writeSpm off v s = some u_ → u_.hide 67109953 = s.hide 67109953 := by
  intro u_ h
  unfold writeSpm at h
  try dsimp only at h
  repeat' split at h
  all_goals first | contradiction | (cases h; first | (simp; done) | grind [writeMarch_hide, writePowerFree_hide, writeWinCtl_hide]) | (simp at h; done) | (simp at h; subst h; simp)
theorem writeFlt_hide (off : Nat) (v : Word) (s : State) : ∀ u_, writeFlt off v s = some u_ → u_.hide 65 = s.hide 65 := by
  intro u_ h
  unfold writeFlt at h
  try dsimp only at h
  repeat' split at h
  all_goals first | contradiction | (cases h; first | (simp; done) | grind [writeAck_hide, writeFltCtl_hide, writeInj_hide]) | (simp at h; done) | (simp at h; subst h; simp)
theorem writeOwn_hide (_m a : Nat) (v : Word) (s : State) : ∀ t, writeOwn _m a v s = some t
    → t.hide 98303969 = s.hide 98303969 := by
  intro t h
  unfold writeOwn at h
  dsimp only at h
  split at h
  · exact hide_mono (by decide) (writeHrt_hide _ _ _ _ h)
  · exact hide_mono (by decide) (writeIc_hide _ _ _ _ h)
  · exact hide_mono (by decide) (writeChan_hide _ _ _ _ h)
  · exact hide_mono (by decide) (writeWheel_hide _ _ _ _ h)
  · split at h
    · simp only [Option.some.injEq] at h; subst h; simp
    · simp at h
  · exact hide_mono (by decide) (writeSpm_hide _ _ _ _ h)
  · exact hide_mono (by decide) (writeLine_hide _ _ _ _ h)
  · exact hide_mono (by decide) (writeTsi_hide _ _ _ _ h)
  · exact hide_mono (by decide) (writeFlue_hide _ _ _ _ h)
  · exact hide_mono (by decide) (writeWork_hide _ _ _ _ h)
  · exact hide_mono (by decide) (writeTime_hide _ _ _ _ h)
  · exact hide_mono (by decide) (writeBar_hide _ _ _ _ h)
  · exact hide_mono (by decide) (writeFlt_hide _ _ _ _ h)
  · split at h
    · simp only [Option.some.injEq] at h; subst h; simp
    · simp at h
  · simp at h
theorem writeOwn_cases_hide (m a : Nat) (v : Word) (o : Option (List Field)) (s : State) (m_ : Nat) (h_ :
    m_ &&& 98303969 = 98303969) : (match o with
  | none => s
  | some fs => match writeOwn m a v s with
    | some s => s
    | none => writePlain fs v s).hide m_ = s.hide m_ := by
  refine hide_mono h_ ?_
  cases o with
  | none => rfl
  | some fs =>
    cases h : writeOwn m a v s with
    | some t => exact hide_mono (by decide) (writeOwn_hide _ _ _ _ _ h)
    | none => simp
@[simp] theorem regWrite_hide (m a : Nat) (v : Word) (s : State) (m_ : Nat) (h_ : m_ &&& 98303969 = 98303969) :
    (regWrite m a v s).hide m_ = s.hide m_ :=
  writeOwn_cases_hide m a v (F.fieldsAt a) s m_ h_
theorem execLatchedRead_hide (m : Fin 11) (a : Word) (s : State) : ∀ u_, execLatchedRead m a s = .next u_ → u_.hide 67108873 = s.hide 67108873 := by
  intro u_ h
  simp only [execLatchedRead, actWhen_next] at h
  subst h
  simp
theorem execClearingRead_hide (m : Fin 11) (a : Word) (s : State) : ∀ u_, execClearingRead m a s = .next u_ → u_.hide 67108873 = s.hide 67108873 := by
  intro u_ h
  simp only [execClearingRead, actWhen_next] at h
  subst h
  simp
theorem execRegisterWrite_hide (m : Fin 11) (a v : Word) (s : State) : ∀ u_, execRegisterWrite m a v s = .next u_ → u_.hide 98303969 = s.hide 98303969 := by
  intro u_ h
  simp only [execRegisterWrite, actWhen_next] at h
  subst h
  simp

end Sys2Proof.Machine
end

