-- ==== Sys2Proof/Laws/FrameEmber.lean ====
section
/-! SUPPORT. The frame of each operation and command. Geyser moves and the Embers. -/

set_option maxRecDepth 100000
set_option linter.all false

namespace Sys2Proof.Machine

/-! ## GeyserMove -/

/-- The state a move leaves behind it. -/
def Moved.inner : Moved → State
  | .ok s => s
  | .held s => s
  | .error _ _ s => s

/-- The state a read leaves behind it. -/
def Got.inner : Got → State
  | .value _ s => s
  | .held s => s
  | .error s => s
@[simp] theorem State.modG_hide (g : Fin 8) (f : GChan → GChan) (s : State) (m_ : Nat) (h_ : m_ &&& 2048 = 2048) : (State.modG g f s).hide m_ = s.hide m_ := by
  refine hide_mono h_ ?_
  simp [State.modG]
@[simp] theorem geyserGranted_hide (a cyc : Nat) (s : State) (m_ : Nat) (h_ : m_ &&& 1025 = 1025) : (geyserGranted a cyc s).2.hide m_ = s.hide m_ := by
  refine hide_mono h_ ?_
  simp [geyserGranted]
theorem gRead_hide (g : Fin 8) (a n : Nat) (s : State) (m_ : Nat) (h_ : m_ &&& 67112009 = 67112009) :
    (gRead g a n s).inner.hide m_ = s.hide m_ := by
  refine hide_mono h_ ?_
  unfold gRead
  (try dsimp only)
  repeat' split
  all_goals first
    | (simp [Got.inner]; done)
    | grind [Got.inner, geyserGranted_hide, State.spmRead_hide, geyserCharge_hide]
theorem gWrite_hide (g : Fin 8) (a n v : Nat) (s : State) (m_ : Nat) (h_ : m_ &&& 98303969 = 98303969) :
    (gWrite g a n v s).inner.hide m_ = s.hide m_ := by
  refine hide_mono h_ ?_
  unfold gWrite
  (try dsimp only)
  repeat' split
  all_goals first
    | (simp [Moved.inner]; done)
    | grind [Moved.inner, geyserGranted_hide, State.spmWrite_hide, geyserCharge_hide]
theorem readElems_hide (g : Fin 8) (d : Desc) (x0 : Nat) (s : State) (m_ : Nat) (h_ : m_ &&& 67112009 = 67112009) :
    (readElems g d x0 s).inner.hide m_ = s.hide m_ := by
  induction x0 generalizing s with
  | zero => rfl
  | succ k ih =>
    unfold readElems
    have h := gRead_hide g (d.srcOf (s.gsr[g].pos + s.gsr[g].ins.length)).toNat d.esize s m_ h_
    dsimp only
    split
    · next hx => rw [hx] at h; rw [ih, State.modG_hide _ _ _ _ (mask_sub h_ _ (by decide))]; exact h
    · next hx => rw [hx] at h; exact h
    · next hx => rw [hx] at h; exact h
theorem writeElems_hide (g : Fin 8) (d : Desc) (x0 : Nat) (s : State) (m_ : Nat) (h_ : m_ &&& 98303969 = 98303969) :
    (writeElems g d x0 s).inner.hide m_ = s.hide m_ := by
  induction x0 generalizing s with
  | zero => rfl
  | succ k ih =>
    unfold writeElems
    split
    · rfl
    · next v vs _ =>
      have h := gWrite_hide g (d.dstOf (s.gsr[g].pos + (d.block - (v :: vs).length))).toNat d.esize v s m_ h_
      split
      · next hx => rw [hx] at h; rw [ih, State.modG_hide _ _ _ _ (mask_sub h_ _ (by decide))]; exact h
      · exact h
theorem readBlock_hide (g : Fin 8) (d : Desc) (s : State) (m_ : Nat) (h_ : m_ &&& 67112009 = 67112009) :
    (readBlock g d s).inner.hide m_ = s.hide m_ := by
  unfold readBlock
  split
  · have h := readElems_hide g d (d.block - s.gsr[g].ins.length) s m_ h_
    split
    · next hx => rw [hx] at h; simp only [Moved.inner]; rw [State.modG_hide _ _ _ _ (mask_sub h_ _ (by decide))]; exact h
    · exact h
  · rfl
theorem moveBlock_hide (g : Fin 8) (d : Desc) (s : State) (m_ : Nat) (h_ : m_ &&& 98303977 = 98303977) :
    (moveBlock g d s).inner.hide m_ = s.hide m_ := by
  unfold moveBlock
  have h := readBlock_hide g d s m_ (mask_sub h_ _ (by decide))
  split
  · next s' hx =>
    rw [hx] at h
    have h' := writeElems_hide g d d.block s' m_ (mask_sub h_ _ (by decide))
    split
    · next hy =>
      rw [hy] at h'
      simp only [Moved.inner]
      rw [State.modG_hide _ _ _ _ (mask_sub h_ _ (by decide))]; exact h'.trans h
    · exact h'.trans h
  · exact h
theorem moveBlocks_hide (g : Fin 8) (x0 : Nat) (s : State) (m_ : Nat) (h_ : m_ &&& 98303977 = 98303977) :
    (moveBlocks g x0 s).inner.hide m_ = s.hide m_ := by
  induction x0 generalizing s with
  | zero => rfl
  | succ k ih =>
    unfold moveBlocks
    split
    · rfl
    · next d _ =>
      split
      · rfl
      · split
        · rfl
        · have h := moveBlock_hide g d s m_ h_
          split
          · next hx => rw [hx] at h; rw [ih]; exact h
          · exact h
@[simp] theorem Moved.state_hide (g : Fin 8) (m : Moved) (m_ : Nat) (h_ : m_ &&& 2241 = 2241) :
    (m.state g).hide m_ = m.inner.hide m_ := by
  cases m <;> simp [Moved.state, Moved.inner, mask_sub h_]
@[simp] theorem geyserFinish_hide (g : Fin 8) (d : Desc) (s : State) (m_ : Nat) (h_ : m_ &&& 3265 = 3265) : (geyserFinish g d s).hide m_ = s.hide m_ := by
  refine hide_mono h_ ?_
  simp [geyserFinish]
@[simp] theorem moveThenFinish_hide (g : Fin 8) (k : Nat) (s : State) (m_ : Nat) (h_ : m_ &&& 98303977 = 98303977) :
    (moveThenFinish g k s).hide m_ = s.hide m_ := by
  have h1 : ((moveBlocks g k s).state g).hide m_ = s.hide m_ := by
    rw [Moved.state_hide _ _ _ (mask_sub h_ _ (by decide)), moveBlocks_hide _ _ _ _ h_]
  unfold moveThenFinish
  generalize (moveBlocks g k s).state g = s1 at h1
  dsimp only
  split
  · exact h1
  · split
    · rw [geyserFinish_hide _ _ _ _ (mask_sub h_ _ (by decide))]; exact h1
    · exact h1
theorem execGeyserGo_hide (g : Fin 8) (s : State) : ∀ u_, execGeyserGo g s = .next u_ → u_.hide 3265 = s.hide 3265 := by
  intro u_ h
  simp only [execGeyserGo, actWhen_next] at h
  subst h
  simp
theorem execResume_hide (g : Fin 8) (s : State) : ∀ u_, execResume g s = .next u_ → u_.hide 3265 = s.hide 3265 := by
  intro u_ h
  simp only [execResume, actWhen_next] at h
  subst h
  simp
theorem execAbort_hide (g : Fin 8) (moved : Nat) (s : State) : ∀ u_, execAbort g moved s = .next u_ → u_.hide 98303977 = s.hide 98303977 := by
  intro t h
  unfold execAbort at h
  simp only [actWhen_next] at h; subst h
  split
  · rw [geyserStop_hide _ _ _ _ (by decide)]; split <;> simp
  · rfl
theorem execDescriptorComplete_hide (g : Fin 8) (s : State) : ∀ u_, execDescriptorComplete g s = .next u_ → u_.hide 98303977 = s.hide 98303977 := by
  intro t h
  unfold execDescriptorComplete at h
  simp only [actWhen_next] at h; subst h
  split
  · rw [moveThenFinish_hide _ _ _ _ (by decide)]
  · rfl
theorem execBusStop_hide (g : Fin 8) (moved : List Nat) (s : State) : ∀ u_, execBusStop g moved s = .next u_
    → u_.hide 98303977 = s.hide 98303977 := by
  intro t h
  unfold execBusStop at h
  split at h
  · simp at h
  · simp only [actWhen_next] at h; subst h
    split
    · have h1 : (s.each (List.finRange 8) fun c s => s.when (s.gMoves c) fun s =>
          (moveBlocks c (moved.getD c 0) s).state c).hide 98303977 = s.hide 98303977 := by
        rw [State.each_hide]; intro c s; rw [State.when_hide]; intro s
        rw [Moved.state_hide _ _ _ (by decide), moveBlocks_hide _ _ _ _ (by decide)]
      split
      · rw [Moved.state_hide _ _ _ (by decide), moveBlocks_hide _ _ _ _ (by decide)]; exact h1
      · exact h1
    · rfl

/-! ## Embers -/

@[simp] theorem emberFault_hide (e : Fin 4) (kind : BitVec 5) (reason : BitVec 8) (detail : Nat) (addr : Word) (access : BitVec 8) (s : State) (m_ : Nat) (h_ : m_ &&& 65 = 65) : (emberFault e kind reason detail addr access s).hide m_ = s.hide m_ := by
  refine hide_mono h_ ?_
  simp [emberFault]
@[simp] theorem parityFault_hide (e : Fin 4) (where_ : Nat) (s : State) (m_ : Nat) (h_ : m_ &&& 65 = 65) : (parityFault e where_ s).hide m_ = s.hide m_ := by
  refine hide_mono h_ ?_
  simp [parityFault]
@[simp] theorem storeFaulted_hide (e : Fin 4) (a : Word) (s : State) (m_ : Nat) (h_ : m_ &&& 512 = 512) : (storeFaulted e a s).hide m_ = s.hide m_ := by
  refine hide_mono h_ ?_
  unfold storeFaulted
  repeat' split
  all_goals simp
@[simp] theorem performStore_hide (e : Fin 4) (t : StoreEntry) (s : State) (m_ : Nat) (h_ : m_ &&& 98303969 = 98303969) : (performStore e t s).hide m_ = s.hide m_ := by
  refine hide_mono h_ ?_
  first
  | (simp [performStore]; done)
  | (unfold performStore; (try dsimp only); (repeat' (first | with_reducible rfl | (simp; done) | (rw [State.each_hide]) | (rw [State.when_hide]) | (rw [State.foldl_hide]) | (refine upRequest_hide _ _ _ _ (by decide) ?_) | (refine downRequest_hide _ _ _ _ (by decide) ?_) | (intro _ _; (try dsimp only)) | (intro _; (try dsimp only)) | split)) <;> first | with_reducible rfl | (simp [*]; done) | (apply hide_congr <;> intro hb <;> first | rfl | exact absurd hb (by decide)) | grind [State.spmWrite_hide, emberFault_hide, regWrite_hide, storeFaulted_hide])
@[simp] theorem drainFirst_hide (e : Fin 4) (p : StoreEntry → Bool) (s : State) (m_ : Nat) (h_ : m_ &&& 98303969 = 98303969) : (drainFirst e p s).hide m_ = s.hide m_ := by
  refine hide_mono h_ ?_
  first
  | (simp [drainFirst]; done)
  | (unfold drainFirst; (try dsimp only); (repeat' (first | with_reducible rfl | (simp; done) | (rw [State.each_hide]) | (rw [State.when_hide]) | (rw [State.foldl_hide]) | (refine upRequest_hide _ _ _ _ (by decide) ?_) | (refine downRequest_hide _ _ _ _ (by decide) ?_) | (intro _ _; (try dsimp only)) | (intro _; (try dsimp only)) | split)) <;> first | with_reducible rfl | (simp [*]; done) | (apply hide_congr <;> intro hb <;> first | rfl | exact absurd hb (by decide)) | grind [State.inject_hide, State.modE_hide, parityFault_hide, performStore_hide])
@[simp] theorem drainMany_hide (e : Fin 4) (p : StoreEntry → Bool) (x0 : Nat) (s : State) (m_ : Nat) (h_ : m_ &&& 98303969 = 98303969) : (drainMany e p x0 s).hide m_ = s.hide m_ := by
  refine hide_mono h_ ?_
  clear h_
  induction x0 generalizing s e p  <;> first | with_reducible rfl | (simp [drainMany]; done) | (simp [drainMany, *]; done) | (unfold drainMany; (try dsimp only); (repeat' (first | with_reducible rfl | (simp; done) | (rw [State.each_hide]) | (rw [State.when_hide]) | (rw [State.foldl_hide]) | (refine upRequest_hide _ _ _ _ (by decide) ?_) | (refine downRequest_hide _ _ _ _ (by decide) ?_) | (intro _ _; (try dsimp only)) | (intro _; (try dsimp only)) | split)) <;> first | with_reducible rfl | (simp [*]; done) | (apply hide_congr <;> intro hb <;> first | rfl | exact absurd hb (by decide)) | grind [drainFirst_hide]) | grind [drainMany, drainFirst_hide]
@[simp] theorem drainAll_hide (e : Fin 4) (s : State) (m_ : Nat) (h_ : m_ &&& 98303969 = 98303969) : (drainAll e s).hide m_ = s.hide m_ := by
  refine hide_mono h_ ?_
  simp [drainAll]
@[simp] theorem drainWindow_hide (e : Fin 4) (s : State) (m_ : Nat) (h_ : m_ &&& 98303969 = 98303969) : (drainWindow e s).hide m_ = s.hide m_ := by
  refine hide_mono h_ ?_
  simp [drainWindow]
@[simp] theorem causeFault_hide (e : Fin 4) (c : Exc) (eaddr : Word) (s : State) (m_ : Nat) (h_ : m_ &&& 65 = 65) : (causeFault e c eaddr s).hide m_ = s.hide m_ := by
  refine hide_mono h_ ?_
  unfold causeFault
  dsimp only
  repeat' split
  all_goals simp
@[simp] theorem doubleException_hide (e : Fin 4) (c : Exc) (eaddr : Word) (s : State) (m_ : Nat) (h_ : m_ &&& 98303969 = 98303969) : (doubleException e c eaddr s).hide m_ = s.hide m_ := by
  refine hide_mono h_ ?_
  simp [doubleException]
@[simp] theorem enterException_hide (e : Fin 4) (c : Exc) (epc : BitVec 13) (eaddr : Word) (s : State) (m_ : Nat) (h_ : m_ &&& 98303969 = 98303969) : (enterException e c epc eaddr s).hide m_ = s.hide m_ := by
  refine hide_mono h_ ?_
  simp [enterException]
@[simp] theorem boundary_hide (e : Fin 4) (s : State) (m_ : Nat) (h_ : m_ &&& 98303969 = 98303969) : (boundary e s).hide m_ = s.hide m_ := by
  refine hide_mono h_ ?_
  unfold boundary
  dsimp only
  repeat' split
  all_goals simp
@[simp] theorem retire_hide (e : Fin 4) (pc : BitVec 13) (s : State) (m_ : Nat) (h_ : m_ &&& 98303969 = 98303969) : (retire e pc s).hide m_ = s.hide m_ := by
  refine hide_mono h_ ?_
  simp [retire]
/-- Every state an outcome carries agrees with `s` outside the bits `m`. -/
def IRes.Keeps (m : Nat) (s : State) : IRes → Prop
  | .done s' => s'.hide m = s.hide m
  | .jump _ s' => s'.hide m = s.hide m
  | .exc _ _ s' => s'.hide m = s.hide m
  | .wait _ _ s' => s'.hide m = s.hide m
  | .hold s' => s'.hide m = s.hide m
theorem IRes.apply_hide (e : Fin 4) (s s0 : State) (r : IRes) (m : Nat) (hm : m &&& 98303969 = 98303969) (h : r.Keeps m s0) :
    (r.apply e s).hide m = s0.hide m := by
  cases r <;> simp only [IRes.Keeps] at h <;> unfold IRes.apply <;> (try dsimp only) <;> (repeat' split) <;>
    simp [h, mask_sub hm]
theorem IRes.keeps_of {r : IRes} {m : Nat} {s t : State} (h : r.Keeps m t) (ht : t.hide m = s.hide m) : r.Keeps m s := by
  cases r <;> exact Eq.trans h ht
@[simp] theorem readCheck_hide (e : Fin 4) (m : Micro) (s : State) (m_ : Nat) (h_ : m_ &&& 1 = 1) : (readCheck e m s).2.hide m_ = s.hide m_ := by
  refine hide_mono h_ ?_
  first
  | (simp [readCheck]; done)
  | (unfold readCheck; (try dsimp only); (repeat' (first | with_reducible rfl | (simp; done) | (rw [State.each_hide]) | (rw [State.when_hide]) | (rw [State.foldl_hide]) | (refine upRequest_hide _ _ _ _ (by decide) ?_) | (refine downRequest_hide _ _ _ _ (by decide) ?_) | (intro _ _; (try dsimp only)) | (intro _; (try dsimp only)) | split)) <;> first | with_reducible rfl | (simp [*]; done) | (apply hide_congr <;> intro hb <;> first | rfl | exact absurd hb (by decide)) | grind [State.inject_hide])
theorem runInstr_hide (e : Fin 4) (w : Micro) (body : State → IRes) (s : State) (m : Nat) (hm : m &&& 98303969 = 98303969) (hb : ∀ s,
    (body s).Keeps m s) : ∀ t, runInstr e w body s = .next t → t.hide m = s.hide m := by
  intro t ht
  unfold runInstr at ht
  simp only [actWhen_next] at ht
  subst ht
  split
  · have h1 := State.csCheck_hide (s.get F.HRT_SWAP_ACTIVE_PAGE) s.emb[e].pc.toNat s m (mask_sub hm _ (by decide))
    split
    · next h => rw [h] at h1; simpa [mask_sub hm] using h1
    · next s1 h =>
      rw [h] at h1
      split
      · split
        · exact h1
        · exact (IRes.apply_hide e s1 s1 (.exc _ _ s1) m (mask_sub hm _ (by decide)) rfl).trans h1
      · have h2 := readCheck_hide e w s1 m (mask_sub hm _ (by decide))
        split
        · next h => rw [h] at h2; rw [IRes.apply_hide _ _ _ _ m (mask_sub hm _ (by decide)) (hb _)]; exact h2.trans h1
        · next h => rw [h] at h2; rw [parityFault_hide _ _ _ _ (mask_sub hm _ (by decide))]; exact h2.trans h1
  · rfl
theorem legal_hide (e : Fin 4) (ok : Bool) (s : State) (k : IRes) (m : Nat) (h : k.Keeps m s) :
    (legal e ok s k).Keeps m s := by
  unfold legal; split
  · exact h
  · exact rfl
theorem doneWith_hide (e : Fin 4) (f : Ember → Ember) (s : State) (m : Nat) (hm : m &&& 512 = 512) :
    (doneWith e f s).Keeps m s := by
  simp [doneWith, IRes.Keeps, hm]
@[simp] theorem drainCycle_hide (e : Fin 4) (others : List (BitVec 9)) (x0 : List StoreEntry) (s : State) (m_ : Nat) (h_ : m_ &&& 98303969 = 98303969) : (drainCycle e others x0 s).hide m_ = s.hide m_ := by
  refine hide_mono h_ ?_
  clear h_
  induction x0 generalizing s e others <;> first | with_reducible rfl | (simp [drainCycle]; done) | (simp [drainCycle, *]; done) | (unfold drainCycle; (try dsimp only); (repeat' (first | with_reducible rfl | (simp; done) | (rw [State.each_hide]) | (rw [State.when_hide]) | (rw [State.foldl_hide]) | (refine upRequest_hide _ _ _ _ (by decide) ?_) | (refine downRequest_hide _ _ _ _ (by decide) ?_) | (intro _ _; (try dsimp only)) | (intro _; (try dsimp only)) | split)) <;> first | with_reducible rfl | (simp [*]; done) | (apply hide_congr <;> intro hb <;> first | rfl | exact absurd hb (by decide)) | grind [State.grant_hide, drainFirst_hide]) | grind [drainCycle, State.grant_hide, drainFirst_hide]
theorem execStoreDrain_hide (e : Fin 4) (dual : BitVec 9) (others : List (BitVec 9)) (s : State) : ∀ u_, execStoreDrain e dual others s = .next u_ → u_.hide 98303969 = s.hide 98303969 := by
  intro u_ h
  simp only [execStoreDrain, actWhen_next] at h
  subst h
  simp
theorem execWatchdog_hide (e : Fin 4) (s : State) : ∀ u_, execWatchdog e s = .next u_ → u_.hide 98303969 = s.hide 98303969 := by
  intro u_ h
  simp only [execWatchdog, actWhen_next] at h
  subst h
  repeat' split
  all_goals simp
@[simp] theorem budgetFault_hide (e : Fin 4) (cls : BitVec 2) (reason : BitVec 8) (s : State) (m_ : Nat) (h_ : m_ &&& 65 = 65) : (budgetFault e cls reason s).hide m_ = s.hide m_ := by
  refine hide_mono h_ ?_
  simp [budgetFault]
theorem execBudgetWarn_hide (e : Fin 4) (s : State) : ∀ u_, execBudgetWarn e s = .next u_ → u_.hide 98303969 = s.hide 98303969 := by
  intro u_ h
  simp only [execBudgetWarn, actWhen_next] at h
  subst h
  simp
theorem execBudgetAbort_hide (e : Fin 4) (s : State) : ∀ u_, execBudgetAbort e s = .next u_ → u_.hide 833 = s.hide 833 := by
  intro u_ h
  simp only [execBudgetAbort, actWhen_next] at h
  subst h
  simp

/-! ## EmberAlu -/

theorem aluInstr_hide (e : Fin 4) (op : Nat) (f : Alu) (d a b : Fin 32) (s : State) : ∀ u_, aluInstr e op f d a b s = .next u_ → u_.hide 98303969 = s.hide 98303969 := by
  intro u_ h
  unfold aluInstr at h
  revert u_
  refine runInstr_hide _ _ _ _ _ (by decide) ?_
  intro s
  repeat (first | with_reducible refine legal_hide _ _ _ _ _ ?_ | (with_reducible refine engine_hide _ _ _ _ ?_ ?_; decide; intro s))
  (try dsimp only)
  repeat' split
  all_goals first | (with_reducible exact rfl) | (with_reducible refine doneWith_hide _ _ _ _ ?_; decide) | (simp [IRes.Keeps]; done) | grind [IRes.Keeps]
theorem aluImm_hide (e : Fin 4) (op : Nat) (f : Alu) (d a : Fin 32) (imm : Word) (s : State) : ∀ u_, aluImm e op f d a imm s = .next u_ → u_.hide 98303969 = s.hide 98303969 := by
  intro u_ h
  unfold aluImm at h
  revert u_
  refine runInstr_hide _ _ _ _ _ (by decide) ?_
  intro s
  repeat (first | with_reducible refine legal_hide _ _ _ _ _ ?_ | (with_reducible refine engine_hide _ _ _ _ ?_ ?_; decide; intro s))
  (try dsimp only)
  repeat' split
  all_goals first | (with_reducible exact rfl) | (with_reducible refine doneWith_hide _ _ _ _ ?_; decide) | (simp [IRes.Keeps]; done) | grind [IRes.Keeps]
theorem testInstr_hide (e : Fin 4) (w : Micro) (f : Alu) (a : Fin 32) (s2 : Ember → Word) (s : State) : ∀ u_, testInstr e w f a s2 s = .next u_ → u_.hide 98303969 = s.hide 98303969 := by
  intro u_ h
  unfold testInstr at h
  revert u_
  refine runInstr_hide _ _ _ _ _ (by decide) ?_
  intro s
  repeat (first | with_reducible refine legal_hide _ _ _ _ _ ?_ | (with_reducible refine engine_hide _ _ _ _ ?_ ?_; decide; intro s))
  (try dsimp only)
  repeat' split
  all_goals first | (with_reducible exact rfl) | (with_reducible refine doneWith_hide _ _ _ _ ?_; decide) | (simp [IRes.Keeps]; done) | grind [IRes.Keeps]
theorem execMovi_hide (e : Fin 4) (d : Fin 32) (imm : Word) (s : State) : ∀ u_, execMovi e d imm s = .next u_ → u_.hide 98303969 = s.hide 98303969 := by
  intro u_ h
  unfold execMovi at h
  revert u_
  refine runInstr_hide _ _ _ _ _ (by decide) ?_
  intro s
  repeat (first | with_reducible refine legal_hide _ _ _ _ _ ?_ | (with_reducible refine engine_hide _ _ _ _ ?_ ?_; decide; intro s))
  (try dsimp only)
  repeat' split
  all_goals first | (with_reducible exact rfl) | (with_reducible refine doneWith_hide _ _ _ _ ?_; decide) | (simp [IRes.Keeps]; done) | grind [IRes.Keeps]
theorem execMov_hide (e : Fin 4) (d a : Fin 32) (s : State) : ∀ u_, execMov e d a s = .next u_ → u_.hide 98303969 = s.hide 98303969 := by
  intro u_ h
  unfold execMov at h
  revert u_
  refine runInstr_hide _ _ _ _ _ (by decide) ?_
  intro s
  repeat (first | with_reducible refine legal_hide _ _ _ _ _ ?_ | (with_reducible refine engine_hide _ _ _ _ ?_ ?_; decide; intro s))
  (try dsimp only)
  repeat' split
  all_goals first | (with_reducible exact rfl) | (with_reducible refine doneWith_hide _ _ _ _ ?_; decide) | (simp [IRes.Keeps]; done) | grind [IRes.Keeps]
theorem execNop_hide (e : Fin 4) (s : State) : ∀ u_, execNop e s = .next u_ → u_.hide 98303969 = s.hide 98303969 := by
  intro u_ h
  unfold execNop at h
  revert u_
  refine runInstr_hide _ _ _ _ _ (by decide) ?_
  intro s
  repeat (first | with_reducible refine legal_hide _ _ _ _ _ ?_ | (with_reducible refine engine_hide _ _ _ _ ?_ ?_; decide; intro s))
  (try dsimp only)
  repeat' split
  all_goals first | (with_reducible exact rfl) | (with_reducible refine doneWith_hide _ _ _ _ ?_; decide) | (simp [IRes.Keeps]; done) | grind [IRes.Keeps]
theorem execAdd_hide (e : Fin 4) (d a b : Fin 32) (s : State) : ∀ u_, execAdd e d a b s = .next u_ → u_.hide 98303969 = s.hide 98303969 := by
  intro u_ h
  unfold execAdd at h
  exact aluInstr_hide _ _ _ _ _ _ _ u_ h
theorem execAddi_hide (e : Fin 4) (d a : Fin 32) (imm : Word) (s : State) : ∀ u_, execAddi e d a imm s = .next u_ → u_.hide 98303969 = s.hide 98303969 := by
  intro u_ h
  unfold execAddi at h
  exact aluImm_hide _ _ _ _ _ _ _ u_ h
theorem execAdc_hide (e : Fin 4) (d a b : Fin 32) (s : State) : ∀ u_, execAdc e d a b s = .next u_ → u_.hide 98303969 = s.hide 98303969 := by
  intro u_ h
  unfold execAdc at h
  exact aluInstr_hide _ _ _ _ _ _ _ u_ h
theorem execAdci_hide (e : Fin 4) (d a : Fin 32) (imm : Word) (s : State) : ∀ u_, execAdci e d a imm s = .next u_ → u_.hide 98303969 = s.hide 98303969 := by
  intro u_ h
  unfold execAdci at h
  exact aluImm_hide _ _ _ _ _ _ _ u_ h
theorem execSub_hide (e : Fin 4) (d a b : Fin 32) (s : State) : ∀ u_, execSub e d a b s = .next u_ → u_.hide 98303969 = s.hide 98303969 := by
  intro u_ h
  unfold execSub at h
  exact aluInstr_hide _ _ _ _ _ _ _ u_ h
theorem execSubi_hide (e : Fin 4) (d a : Fin 32) (imm : Word) (s : State) : ∀ u_, execSubi e d a imm s = .next u_ → u_.hide 98303969 = s.hide 98303969 := by
  intro u_ h
  unfold execSubi at h
  exact aluImm_hide _ _ _ _ _ _ _ u_ h
theorem execSbc_hide (e : Fin 4) (d a b : Fin 32) (s : State) : ∀ u_, execSbc e d a b s = .next u_ → u_.hide 98303969 = s.hide 98303969 := by
  intro u_ h
  unfold execSbc at h
  exact aluInstr_hide _ _ _ _ _ _ _ u_ h
theorem execSbci_hide (e : Fin 4) (d a : Fin 32) (imm : Word) (s : State) : ∀ u_, execSbci e d a imm s = .next u_ → u_.hide 98303969 = s.hide 98303969 := by
  intro u_ h
  unfold execSbci at h
  exact aluImm_hide _ _ _ _ _ _ _ u_ h
theorem execAnd_hide (e : Fin 4) (d a b : Fin 32) (s : State) : ∀ u_, execAnd e d a b s = .next u_ → u_.hide 98303969 = s.hide 98303969 := by
  intro u_ h
  unfold execAnd at h
  exact aluInstr_hide _ _ _ _ _ _ _ u_ h
theorem execAndi_hide (e : Fin 4) (d a : Fin 32) (imm : Word) (s : State) : ∀ u_, execAndi e d a imm s = .next u_ → u_.hide 98303969 = s.hide 98303969 := by
  intro u_ h
  unfold execAndi at h
  exact aluImm_hide _ _ _ _ _ _ _ u_ h
theorem execOr_hide (e : Fin 4) (d a b : Fin 32) (s : State) : ∀ u_, execOr e d a b s = .next u_ → u_.hide 98303969 = s.hide 98303969 := by
  intro u_ h
  unfold execOr at h
  exact aluInstr_hide _ _ _ _ _ _ _ u_ h
theorem execOri_hide (e : Fin 4) (d a : Fin 32) (imm : Word) (s : State) : ∀ u_, execOri e d a imm s = .next u_ → u_.hide 98303969 = s.hide 98303969 := by
  intro u_ h
  unfold execOri at h
  exact aluImm_hide _ _ _ _ _ _ _ u_ h
theorem execXor_hide (e : Fin 4) (d a b : Fin 32) (s : State) : ∀ u_, execXor e d a b s = .next u_ → u_.hide 98303969 = s.hide 98303969 := by
  intro u_ h
  unfold execXor at h
  exact aluInstr_hide _ _ _ _ _ _ _ u_ h
theorem execXori_hide (e : Fin 4) (d a : Fin 32) (imm : Word) (s : State) : ∀ u_, execXori e d a imm s = .next u_ → u_.hide 98303969 = s.hide 98303969 := by
  intro u_ h
  unfold execXori at h
  exact aluImm_hide _ _ _ _ _ _ _ u_ h
theorem execAndn_hide (e : Fin 4) (d a b : Fin 32) (s : State) : ∀ u_, execAndn e d a b s = .next u_ → u_.hide 98303969 = s.hide 98303969 := by
  intro u_ h
  unfold execAndn at h
  exact aluInstr_hide _ _ _ _ _ _ _ u_ h
theorem execAndni_hide (e : Fin 4) (d a : Fin 32) (imm : Word) (s : State) : ∀ u_, execAndni e d a imm s = .next u_ → u_.hide 98303969 = s.hide 98303969 := by
  intro u_ h
  unfold execAndni at h
  exact aluImm_hide _ _ _ _ _ _ _ u_ h
theorem execMin_hide (e : Fin 4) (d a b : Fin 32) (s : State) : ∀ u_, execMin e d a b s = .next u_ → u_.hide 98303969 = s.hide 98303969 := by
  intro u_ h
  unfold execMin at h
  exact aluInstr_hide _ _ _ _ _ _ _ u_ h
theorem execMini_hide (e : Fin 4) (d a : Fin 32) (imm : Word) (s : State) : ∀ u_, execMini e d a imm s = .next u_ → u_.hide 98303969 = s.hide 98303969 := by
  intro u_ h
  unfold execMini at h
  exact aluImm_hide _ _ _ _ _ _ _ u_ h
theorem execMax_hide (e : Fin 4) (d a b : Fin 32) (s : State) : ∀ u_, execMax e d a b s = .next u_ → u_.hide 98303969 = s.hide 98303969 := by
  intro u_ h
  unfold execMax at h
  exact aluInstr_hide _ _ _ _ _ _ _ u_ h
theorem execMaxi_hide (e : Fin 4) (d a : Fin 32) (imm : Word) (s : State) : ∀ u_, execMaxi e d a imm s = .next u_ → u_.hide 98303969 = s.hide 98303969 := by
  intro u_ h
  unfold execMaxi at h
  exact aluImm_hide _ _ _ _ _ _ _ u_ h
theorem execMinu_hide (e : Fin 4) (d a b : Fin 32) (s : State) : ∀ u_, execMinu e d a b s = .next u_ → u_.hide 98303969 = s.hide 98303969 := by
  intro u_ h
  unfold execMinu at h
  exact aluInstr_hide _ _ _ _ _ _ _ u_ h
theorem execMinui_hide (e : Fin 4) (d a : Fin 32) (imm : Word) (s : State) : ∀ u_, execMinui e d a imm s = .next u_ → u_.hide 98303969 = s.hide 98303969 := by
  intro u_ h
  unfold execMinui at h
  exact aluImm_hide _ _ _ _ _ _ _ u_ h
theorem execMaxu_hide (e : Fin 4) (d a b : Fin 32) (s : State) : ∀ u_, execMaxu e d a b s = .next u_ → u_.hide 98303969 = s.hide 98303969 := by
  intro u_ h
  unfold execMaxu at h
  exact aluInstr_hide _ _ _ _ _ _ _ u_ h
theorem execMaxui_hide (e : Fin 4) (d a : Fin 32) (imm : Word) (s : State) : ∀ u_, execMaxui e d a imm s = .next u_ → u_.hide 98303969 = s.hide 98303969 := by
  intro u_ h
  unfold execMaxui at h
  exact aluImm_hide _ _ _ _ _ _ _ u_ h
theorem execCmp_hide (e : Fin 4) (a b : Fin 32) (s : State) : ∀ u_, execCmp e a b s = .next u_ → u_.hide 98303969 = s.hide 98303969 := by
  intro u_ h
  unfold execCmp at h
  exact testInstr_hide _ _ _ _ _ _ u_ h
theorem execCmpi_hide (e : Fin 4) (a : Fin 32) (imm : Word) (s : State) : ∀ u_, execCmpi e a imm s = .next u_ → u_.hide 98303969 = s.hide 98303969 := by
  intro u_ h
  unfold execCmpi at h
  exact testInstr_hide _ _ _ _ _ _ u_ h
theorem execTst_hide (e : Fin 4) (a b : Fin 32) (s : State) : ∀ u_, execTst e a b s = .next u_ → u_.hide 98303969 = s.hide 98303969 := by
  intro u_ h
  unfold execTst at h
  exact testInstr_hide _ _ _ _ _ _ u_ h
theorem execTsti_hide (e : Fin 4) (a : Fin 32) (imm : Word) (s : State) : ∀ u_, execTsti e a imm s = .next u_ → u_.hide 98303969 = s.hide 98303969 := by
  intro u_ h
  unfold execTsti at h
  exact testInstr_hide _ _ _ _ _ _ u_ h

/-! ## EmberShift -/

theorem execLsl_hide (e : Fin 4) (d a b : Fin 32) (s : State) : ∀ u_, execLsl e d a b s = .next u_ → u_.hide 98303969 = s.hide 98303969 := by
  intro u_ h
  unfold execLsl at h
  exact aluInstr_hide _ _ _ _ _ _ _ u_ h
theorem execLsli_hide (e : Fin 4) (d a k : Fin 32) (s : State) : ∀ u_, execLsli e d a k s = .next u_ → u_.hide 98303969 = s.hide 98303969 := by
  intro u_ h
  unfold execLsli at h
  exact aluImm_hide _ _ _ _ _ _ _ u_ h
theorem execLsr_hide (e : Fin 4) (d a b : Fin 32) (s : State) : ∀ u_, execLsr e d a b s = .next u_ → u_.hide 98303969 = s.hide 98303969 := by
  intro u_ h
  unfold execLsr at h
  exact aluInstr_hide _ _ _ _ _ _ _ u_ h
theorem execLsri_hide (e : Fin 4) (d a k : Fin 32) (s : State) : ∀ u_, execLsri e d a k s = .next u_ → u_.hide 98303969 = s.hide 98303969 := by
  intro u_ h
  unfold execLsri at h
  exact aluImm_hide _ _ _ _ _ _ _ u_ h
theorem execAsr_hide (e : Fin 4) (d a b : Fin 32) (s : State) : ∀ u_, execAsr e d a b s = .next u_ → u_.hide 98303969 = s.hide 98303969 := by
  intro u_ h
  unfold execAsr at h
  exact aluInstr_hide _ _ _ _ _ _ _ u_ h
theorem execAsri_hide (e : Fin 4) (d a k : Fin 32) (s : State) : ∀ u_, execAsri e d a k s = .next u_ → u_.hide 98303969 = s.hide 98303969 := by
  intro u_ h
  unfold execAsri at h
  exact aluImm_hide _ _ _ _ _ _ _ u_ h
theorem execRor_hide (e : Fin 4) (d a b : Fin 32) (s : State) : ∀ u_, execRor e d a b s = .next u_ → u_.hide 98303969 = s.hide 98303969 := by
  intro u_ h
  unfold execRor at h
  exact aluInstr_hide _ _ _ _ _ _ _ u_ h
theorem execRori_hide (e : Fin 4) (d a k : Fin 32) (s : State) : ∀ u_, execRori e d a k s = .next u_ → u_.hide 98303969 = s.hide 98303969 := by
  intro u_ h
  unfold execRori at h
  exact aluImm_hide _ _ _ _ _ _ _ u_ h
theorem execBfx_hide (e : Fin 4) (d a pos len1 : Fin 32) (s : State) : ∀ u_, execBfx e d a pos len1 s = .next u_ → u_.hide 98303969 = s.hide 98303969 := by
  intro u_ h
  unfold execBfx at h
  revert u_
  refine runInstr_hide _ _ _ _ _ (by decide) ?_
  intro s
  repeat (first | with_reducible refine legal_hide _ _ _ _ _ ?_ | (with_reducible refine engine_hide _ _ _ _ ?_ ?_; decide; intro s))
  (try dsimp only)
  repeat' split
  all_goals first | (with_reducible exact rfl) | (with_reducible refine doneWith_hide _ _ _ _ ?_; decide) | (simp [IRes.Keeps]; done) | grind [IRes.Keeps]
theorem execBfi_hide (e : Fin 4) (d a pos len1 : Fin 32) (s : State) : ∀ u_, execBfi e d a pos len1 s = .next u_ → u_.hide 98303969 = s.hide 98303969 := by
  intro u_ h
  unfold execBfi at h
  revert u_
  refine runInstr_hide _ _ _ _ _ (by decide) ?_
  intro s
  repeat (first | with_reducible refine legal_hide _ _ _ _ _ ?_ | (with_reducible refine engine_hide _ _ _ _ ?_ ?_; decide; intro s))
  (try dsimp only)
  repeat' split
  all_goals first | (with_reducible exact rfl) | (with_reducible refine doneWith_hide _ _ _ _ ?_; decide) | (simp [IRes.Keeps]; done) | grind [IRes.Keeps]
theorem execClz_hide (e : Fin 4) (d a : Fin 32) (s : State) : ∀ u_, execClz e d a s = .next u_ → u_.hide 98303969 = s.hide 98303969 := by
  intro u_ h
  unfold execClz at h
  revert u_
  refine runInstr_hide _ _ _ _ _ (by decide) ?_
  intro s
  repeat (first | with_reducible refine legal_hide _ _ _ _ _ ?_ | (with_reducible refine engine_hide _ _ _ _ ?_ ?_; decide; intro s))
  (try dsimp only)
  repeat' split
  all_goals first | (with_reducible exact rfl) | (with_reducible refine doneWith_hide _ _ _ _ ?_; decide) | (simp [IRes.Keeps]; done) | grind [IRes.Keeps]
theorem execPopc_hide (e : Fin 4) (d a : Fin 32) (s : State) : ∀ u_, execPopc e d a s = .next u_ → u_.hide 98303969 = s.hide 98303969 := by
  intro u_ h
  unfold execPopc at h
  revert u_
  refine runInstr_hide _ _ _ _ _ (by decide) ?_
  intro s
  repeat (first | with_reducible refine legal_hide _ _ _ _ _ ?_ | (with_reducible refine engine_hide _ _ _ _ ?_ ?_; decide; intro s))
  (try dsimp only)
  repeat' split
  all_goals first | (with_reducible exact rfl) | (with_reducible refine doneWith_hide _ _ _ _ ?_; decide) | (simp [IRes.Keeps]; done) | grind [IRes.Keeps]
theorem execMul_hide (e : Fin 4) (d a b : Fin 32) (s : State) : ∀ u_, execMul e d a b s = .next u_ → u_.hide 98303969 = s.hide 98303969 := by
  intro u_ h
  unfold execMul at h
  exact aluInstr_hide _ _ _ _ _ _ _ u_ h
theorem wideMul_hide (e : Fin 4) (op : Nat) (prod : Word → Word → BitVec 64) (d a b : Fin 32) (s : State) : ∀ u_, wideMul e op prod d a b s = .next u_ → u_.hide 98303969 = s.hide 98303969 := by
  intro u_ h
  unfold wideMul at h
  revert u_
  refine runInstr_hide _ _ _ _ _ (by decide) ?_
  intro s
  repeat (first | with_reducible refine legal_hide _ _ _ _ _ ?_ | (with_reducible refine engine_hide _ _ _ _ ?_ ?_; decide; intro s))
  (try dsimp only)
  repeat' split
  all_goals first | (with_reducible exact rfl) | (with_reducible refine doneWith_hide _ _ _ _ ?_; decide) | (simp [IRes.Keeps]; done) | grind [IRes.Keeps]
theorem execMulu_hide (e : Fin 4) (d a b : Fin 32) (s : State) : ∀ u_, execMulu e d a b s = .next u_ → u_.hide 98303969 = s.hide 98303969 := by
  intro u_ h
  unfold execMulu at h
  exact wideMul_hide _ _ _ _ _ _ _ u_ h
theorem execMuls_hide (e : Fin 4) (d a b : Fin 32) (s : State) : ∀ u_, execMuls e d a b s = .next u_ → u_.hide 98303969 = s.hide 98303969 := by
  intro u_ h
  unfold execMuls at h
  exact wideMul_hide _ _ _ _ _ _ _ u_ h
theorem execDstep_hide (e : Fin 4) (d a : Fin 32) (n : Fin 64) (s : State) : ∀ u_, execDstep e d a n s = .next u_ → u_.hide 98303969 = s.hide 98303969 := by
  intro u_ h
  unfold execDstep at h
  revert u_
  refine runInstr_hide _ _ _ _ _ (by decide) ?_
  intro s
  repeat (first | with_reducible refine legal_hide _ _ _ _ _ ?_ | (with_reducible refine engine_hide _ _ _ _ ?_ ?_; decide; intro s))
  (try dsimp only)
  repeat' split
  all_goals first | (with_reducible exact rfl) | (with_reducible refine doneWith_hide _ _ _ _ ?_; decide) | (simp [IRes.Keeps]; done) | grind [IRes.Keeps]
theorem execSincos_hide (e : Fin 4) (d a : Fin 32) (s : State) : ∀ u_, execSincos e d a s = .next u_ → u_.hide 98303969 = s.hide 98303969 := by
  intro u_ h
  unfold execSincos at h
  revert u_
  refine runInstr_hide _ _ _ _ _ (by decide) ?_
  intro s
  repeat (first | with_reducible refine legal_hide _ _ _ _ _ ?_ | (with_reducible refine engine_hide _ _ _ _ ?_ ?_; decide; intro s))
  (try dsimp only)
  repeat' split
  all_goals first | (with_reducible exact rfl) | (with_reducible refine doneWith_hide _ _ _ _ ?_; decide) | (simp [IRes.Keeps]; done) | grind [IRes.Keeps]
theorem execAtan2_hide (e : Fin 4) (d a b : Fin 32) (s : State) : ∀ u_, execAtan2 e d a b s = .next u_ → u_.hide 98303969 = s.hide 98303969 := by
  intro u_ h
  unfold execAtan2 at h
  revert u_
  refine runInstr_hide _ _ _ _ _ (by decide) ?_
  intro s
  repeat (first | with_reducible refine legal_hide _ _ _ _ _ ?_ | (with_reducible refine engine_hide _ _ _ _ ?_ ?_; decide; intro s))
  (try dsimp only)
  repeat' split
  all_goals first | (with_reducible exact rfl) | (with_reducible refine doneWith_hide _ _ _ _ ?_; decide) | (simp [IRes.Keeps]; done) | grind [IRes.Keeps]
theorem execSqrt_hide (e : Fin 4) (d a : Fin 32) (s : State) : ∀ u_, execSqrt e d a s = .next u_ → u_.hide 98303969 = s.hide 98303969 := by
  intro u_ h
  unfold execSqrt at h
  revert u_
  refine runInstr_hide _ _ _ _ _ (by decide) ?_
  intro s
  repeat (first | with_reducible refine legal_hide _ _ _ _ _ ?_ | (with_reducible refine engine_hide _ _ _ _ ?_ ?_; decide; intro s))
  (try dsimp only)
  repeat' split
  all_goals first | (with_reducible exact rfl) | (with_reducible refine doneWith_hide _ _ _ _ ?_; decide) | (simp [IRes.Keeps]; done) | grind [IRes.Keeps]

/-! ## EmberMem -/

@[simp] theorem busErr_hide (e : Fin 4) (a : Word) (access : BitVec 8) (s : State) (m_ : Nat) (h_ : m_ &&& 65 = 65) : (busErr e a access s).hide m_ = s.hide m_ := by
  refine hide_mono h_ ?_
  simp [busErr]
theorem loadBank_hide (e : Fin 4) (d : Fin 32) (size : Fin 4) (signed : Bool) (a : Word) (others : BitVec 9) (s : State)
    (m_ : Nat) (h_ : m_ &&& 1601 = 1601) : (loadBank e d size signed a others s).Keeps m_ s := by
  unfold loadBank
  have sub := mask_sub h_
  dsimp only
  split
  · exact rfl
  · have h1 := State.grant_hide (bankOf (s.fold a.toNat)) e 1 others s m_ (sub _ (by decide))
    split
    · next h => rw [h] at h1; exact h1
    · next s1 h =>
      rw [h] at h1
      exact ((State.modE_hide _ _ _ _ (sub _ (by decide))).trans (State.spmRead_hide _ _ _ s1 _ (sub _ (by decide)))).trans h1
theorem loadSpad_hide (e : Fin 4) (d : Fin 32) (size : Fin 4) (signed : Bool) (a : Word) (others : BitVec 9) (s : State)
    (m_ : Nat) (h_ : m_ &&& 98303969 = 98303969) : (loadSpad e d size signed a others s).Keeps m_ s := by
  unfold loadSpad
  have sub := mask_sub h_
  split
  · exact State.modE_hide _ _ _ _ (sub _ (by decide))
  · exact IRes.keeps_of (loadBank_hide _ _ _ _ _ _ _ _ (sub _ (by decide))) (drainMany_hide _ _ _ _ _ (sub _ (by decide)))
  · exact loadBank_hide _ _ _ _ _ _ _ _ (sub _ (by decide))
theorem loadColumn_hide (e : Fin 4) (d : Fin 32) (a : Word) (p i k : Nat) (s : State) (m_ : Nat) (h_ : m_ &&& 769 = 769) :
    (loadColumn e d a p i k s).Keeps m_ s := by
  have sub := mask_sub h_
  unfold loadColumn
  dsimp only
  generalize hx : (if p = s.get F.HRT_SWAP_ACTIVE_PAGE then s.csCheck p i else (true, s)) = x
  have h2 : x.2.hide m_ = s.hide m_ := by
    rw [← hx]; split
    · exact State.csCheck_hide _ _ _ _ (sub _ (by decide))
    · rfl
  split
  · exact (noteBadWord_hide _ _ _ (sub _ (by decide))).trans h2
  · exact (State.modE_hide _ _ _ _ (sub _ (by decide))).trans h2
theorem loadCs_hide (e : Fin 4) (d : Fin 32) (a : Word) (s : State) (m_ : Nat) (h_ : m_ &&& 769 = 769) :
    (loadCs e d a s).Keeps m_ s :=
  loadColumn_hide e d a _ _ _ s m_ h_
theorem loadWindow_hide (e : Fin 4) (d : Fin 32) (a : Word) (s : State) (m_ : Nat) (h_ : m_ &&& 98303977 = 98303977) :
    (loadWindow e d a s).Keeps m_ s := by
  simp [loadWindow, IRes.Keeps, mask_sub h_]
theorem execLd_hide (e : Fin 4) (d a : Fin 32) (imm : Word) (size : Fin 4) (signed : Bool) (others : BitVec 9) (s : State) : ∀ u_, execLd e d a imm size signed others s = .next u_ → u_.hide 98303977 = s.hide 98303977 := by
  intro u_ h
  unfold execLd at h
  revert u_
  refine runInstr_hide _ _ _ _ _ (by decide) ?_
  intro s
  repeat (first | with_reducible refine legal_hide _ _ _ _ _ ?_ | (with_reducible refine engine_hide _ _ _ _ ?_ ?_; decide; intro s))
  (try dsimp only)
  repeat' split
  all_goals first | (with_reducible exact rfl) | (with_reducible refine doneWith_hide _ _ _ _ ?_; decide) | (with_reducible refine loadCs_hide _ _ _ _ _ ?_; decide) | (with_reducible refine loadSpad_hide _ _ _ _ _ _ _ _ ?_; decide) | (with_reducible refine loadWindow_hide _ _ _ _ _ ?_; decide) | (simp [IRes.Keeps]; done) | grind [IRes.Keeps, State.modE_hide, busErr_hide, loadCs_hide, loadSpad_hide, loadWindow_hide]
@[simp] theorem enterStore_hide (e : Fin 4) (t : StoreEntry) (s : State) (m_ : Nat) (h_ : m_ &&& 98303969 = 98303969) :
    (enterStore e t s).hide m_ = s.hide m_ := by
  have sub := mask_sub h_
  unfold enterStore
  dsimp only
  have h1 : (if s.emb[e].sbuf.length < 8 then s else drainFirst e (fun _ => true) s).hide m_ = s.hide m_ := by
    split
    · rfl
    · exact drainFirst_hide _ _ _ _ h_
  generalize (if s.emb[e].sbuf.length < 8 then s else drainFirst e (fun _ => true) s) = x at h1
  have h2 := (State.modE_hide e (fun m => { m with sbuf := m.sbuf ++ [t] }) x m_ (sub _ (by decide))).trans h1
  split
  · exact h2
  · exact (drainAll_hide _ _ _ h_).trans h2
theorem execSt_hide (e : Fin 4) (a b : Fin 32) (imm : Word) (size : Fin 4) (s : State) : ∀ u_, execSt e a b imm size s = .next u_ → u_.hide 98303969 = s.hide 98303969 := by
  intro u_ h
  unfold execSt at h
  revert u_
  refine runInstr_hide _ _ _ _ _ (by decide) ?_
  intro s
  repeat (first | with_reducible refine legal_hide _ _ _ _ _ ?_ | (with_reducible refine engine_hide _ _ _ _ ?_ ?_; decide; intro s))
  (try dsimp only)
  repeat' split
  all_goals first | (with_reducible exact rfl) | (with_reducible refine doneWith_hide _ _ _ _ ?_; decide) | (simp [IRes.Keeps]; done) | grind [IRes.Keeps, busErr_hide, enterStore_hide]
theorem execFence_hide (e : Fin 4) (s : State) : ∀ u_, execFence e s = .next u_ → u_.hide 98303969 = s.hide 98303969 := by
  intro u_ h
  unfold execFence at h
  revert u_
  refine runInstr_hide _ _ _ _ _ (by decide) ?_
  intro s
  repeat (first | with_reducible refine legal_hide _ _ _ _ _ ?_ | (with_reducible refine engine_hide _ _ _ _ ?_ ?_; decide; intro s))
  (try dsimp only)
  repeat' split
  all_goals first | (with_reducible exact rfl) | (with_reducible refine doneWith_hide _ _ _ _ ?_; decide) | (simp [IRes.Keeps]; done) | grind [IRes.Keeps, drainAll_hide]
theorem execTime_hide (e : Fin 4) (d : Fin 32) (s : State) : ∀ u_, execTime e d s = .next u_ → u_.hide 98303969 = s.hide 98303969 := by
  intro u_ h
  unfold execTime at h
  revert u_
  refine runInstr_hide _ _ _ _ _ (by decide) ?_
  intro s
  repeat (first | with_reducible refine legal_hide _ _ _ _ _ ?_ | (with_reducible refine engine_hide _ _ _ _ ?_ ?_; decide; intro s))
  (try dsimp only)
  repeat' split
  all_goals first | (with_reducible exact rfl) | (with_reducible refine doneWith_hide _ _ _ _ ?_; decide) | (simp [IRes.Keeps]; done) | grind [IRes.Keeps]
theorem execWho_hide (e : Fin 4) (d : Fin 32) (s : State) : ∀ u_, execWho e d s = .next u_ → u_.hide 98303969 = s.hide 98303969 := by
  intro u_ h
  unfold execWho at h
  revert u_
  refine runInstr_hide _ _ _ _ _ (by decide) ?_
  intro s
  repeat (first | with_reducible refine legal_hide _ _ _ _ _ ?_ | (with_reducible refine engine_hide _ _ _ _ ?_ ?_; decide; intro s))
  (try dsimp only)
  repeat' split
  all_goals first | (with_reducible exact rfl) | (with_reducible refine doneWith_hide _ _ _ _ ?_; decide) | (simp [IRes.Keeps]; done) | grind [IRes.Keeps]
theorem execException_hide (e : Fin 4) (c : Exc) (addr : Word) (s : State) : ∀ u_, execException e c addr s = .next u_
    → u_.hide 98303969 = s.hide 98303969 := by
  intro u_ h
  unfold execException at h
  simp only [actWhen_next] at h
  subst h
  split
  · try dsimp only
    repeat' split
    all_goals first
      | rfl
      | exact boundary_hide _ _ _ (by decide)
      | exact enterException_hide _ _ _ _ _ _ (by decide)
  · rfl

/-! ## EmberFlow -/

theorem execGstart_hide (e : Fin 4) (d : Fin 32) (g : Fin 8) (a : Fin 32) (s : State) : ∀ u_, execGstart e d g a s = .next u_ → u_.hide 98303969 = s.hide 98303969 := by
  intro u_ h
  unfold execGstart at h
  revert u_
  refine runInstr_hide _ _ _ _ _ (by decide) ?_
  intro s
  repeat (first | with_reducible refine legal_hide _ _ _ _ _ ?_ | (with_reducible refine engine_hide _ _ _ _ ?_ ?_; decide; intro s))
  (try dsimp only)
  repeat' split
  all_goals first | (with_reducible exact rfl) | (with_reducible refine doneWith_hide _ _ _ _ ?_; decide) | (simp [IRes.Keeps]; done) | grind [IRes.Keeps, State.modE_hide, drainAll_hide, geyserStart_hide]
theorem execDoorbell_hide (e : Fin 4) (d : Bell) (s : State) : ∀ u_, execDoorbell e d s = .next u_ → u_.hide 98303969 = s.hide 98303969 := by
  intro u_ h
  unfold execDoorbell at h
  revert u_
  refine runInstr_hide _ _ _ _ _ (by decide) ?_
  intro s
  repeat (first | with_reducible refine legal_hide _ _ _ _ _ ?_ | (with_reducible refine engine_hide _ _ _ _ ?_ ?_; decide; intro s))
  (try dsimp only)
  repeat' split
  all_goals first | (with_reducible exact rfl) | (with_reducible refine doneWith_hide _ _ _ _ ?_; decide) | (simp [IRes.Keeps]; done) | grind [IRes.Keeps, State.setBitOf_hide, drainAll_hide, ringDoorbell_hide]
theorem execYield_hide (e : Fin 4) (s : State) : ∀ u_, execYield e s = .next u_ → u_.hide 98303969 = s.hide 98303969 := by
  intro u_ h
  unfold execYield at h
  revert u_
  refine runInstr_hide _ _ _ _ _ (by decide) ?_
  intro s
  repeat (first | with_reducible refine legal_hide _ _ _ _ _ ?_ | (with_reducible refine engine_hide _ _ _ _ ?_ ?_; decide; intro s))
  (try dsimp only)
  repeat' split
  all_goals first | (with_reducible exact rfl) | (with_reducible refine doneWith_hide _ _ _ _ ?_; decide) | (simp [IRes.Keeps]; done) | grind [IRes.Keeps, State.endRun_hide, State.modE_hide]
theorem execWait_hide (e : Fin 4) (a : Fin 32) (fn : Fin 256) (s : State) : ∀ u_, execWait e a fn s = .next u_ → u_.hide 98303969 = s.hide 98303969 := by
  intro u_ h
  unfold execWait at h
  revert u_
  refine runInstr_hide _ _ _ _ _ (by decide) ?_
  intro s
  repeat (first | with_reducible refine legal_hide _ _ _ _ _ ?_ | (with_reducible refine engine_hide _ _ _ _ ?_ ?_; decide; intro s))
  (try dsimp only)
  repeat' split
  all_goals first | (with_reducible exact rfl) | (with_reducible refine doneWith_hide _ _ _ _ ?_; decide) | (simp [IRes.Keeps]; done) | grind [IRes.Keeps, State.setE_hide]
theorem execB_hide (e : Fin 4) (c : Fin 16) (t : BitVec 13) (s : State) : ∀ u_, execB e c t s = .next u_ → u_.hide 98303969 = s.hide 98303969 := by
  intro u_ h
  unfold execB at h
  revert u_
  refine runInstr_hide _ _ _ _ _ (by decide) ?_
  intro s
  repeat (first | with_reducible refine legal_hide _ _ _ _ _ ?_ | (with_reducible refine engine_hide _ _ _ _ ?_ ?_; decide; intro s))
  (try dsimp only)
  repeat' split
  all_goals first | (with_reducible exact rfl) | (with_reducible refine doneWith_hide _ _ _ _ ?_; decide) | (simp [IRes.Keeps]; done) | grind [IRes.Keeps]
theorem execCall_hide (e : Fin 4) (c : Fin 16) (t : BitVec 13) (s : State) : ∀ u_, execCall e c t s = .next u_ → u_.hide 98303969 = s.hide 98303969 := by
  intro u_ h
  unfold execCall at h
  revert u_
  refine runInstr_hide _ _ _ _ _ (by decide) ?_
  intro s
  repeat (first | with_reducible refine legal_hide _ _ _ _ _ ?_ | (with_reducible refine engine_hide _ _ _ _ ?_ ?_; decide; intro s))
  (try dsimp only)
  repeat' split
  all_goals first | (with_reducible exact rfl) | (with_reducible refine doneWith_hide _ _ _ _ ?_; decide) | (simp [IRes.Keeps]; done) | grind [IRes.Keeps, State.setE_hide]
theorem execJr_hide (e : Fin 4) (a : Fin 32) (s : State) : ∀ u_, execJr e a s = .next u_ → u_.hide 98303969 = s.hide 98303969 := by
  intro u_ h
  unfold execJr at h
  revert u_
  refine runInstr_hide _ _ _ _ _ (by decide) ?_
  intro s
  repeat (first | with_reducible refine legal_hide _ _ _ _ _ ?_ | (with_reducible refine engine_hide _ _ _ _ ?_ ?_; decide; intro s))
  (try dsimp only)
  repeat' split
  all_goals first | (with_reducible exact rfl) | (with_reducible refine doneWith_hide _ _ _ _ ?_; decide) | (simp [IRes.Keeps]; done) | grind [IRes.Keeps]
theorem execReturn_hide (e : Fin 4) (s : State) : ∀ u_, execReturn e s = .next u_ → u_.hide 98303969 = s.hide 98303969 := by
  intro u_ h
  unfold execReturn at h
  revert u_
  refine runInstr_hide _ _ _ _ _ (by decide) ?_
  intro s
  repeat (first | with_reducible refine legal_hide _ _ _ _ _ ?_ | (with_reducible refine engine_hide _ _ _ _ ?_ ?_; decide; intro s))
  (try dsimp only)
  repeat' split
  all_goals first | (with_reducible exact rfl) | (with_reducible refine doneWith_hide _ _ _ _ ?_; decide) | (simp [IRes.Keeps]; done) | grind [IRes.Keeps, State.modE_hide]
theorem execReti_hide (e : Fin 4) (s : State) : ∀ u_, execReti e s = .next u_ → u_.hide 98303969 = s.hide 98303969 := by
  intro u_ h
  unfold execReti at h
  revert u_
  refine runInstr_hide _ _ _ _ _ (by decide) ?_
  intro s
  repeat (first | with_reducible refine legal_hide _ _ _ _ _ ?_ | (with_reducible refine engine_hide _ _ _ _ ?_ ?_; decide; intro s))
  (try dsimp only)
  repeat' split
  all_goals first | (with_reducible exact rfl) | (with_reducible refine doneWith_hide _ _ _ _ ?_; decide) | (simp [IRes.Keeps]; done) | grind [IRes.Keeps, State.modE_hide]
theorem execEret_hide (e : Fin 4) (s : State) : ∀ u_, execEret e s = .next u_ → u_.hide 98303969 = s.hide 98303969 := by
  intro u_ h
  unfold execEret at h
  revert u_
  refine runInstr_hide _ _ _ _ _ (by decide) ?_
  intro s
  repeat (first | with_reducible refine legal_hide _ _ _ _ _ ?_ | (with_reducible refine engine_hide _ _ _ _ ?_ ?_; decide; intro s))
  (try dsimp only)
  repeat' split
  all_goals first | (with_reducible exact rfl) | (with_reducible refine doneWith_hide _ _ _ _ ?_; decide) | (simp [IRes.Keeps]; done) | grind [IRes.Keeps, State.modE_hide]
theorem execBz_hide (e : Fin 4) (a : Fin 32) (t : BitVec 13) (s : State) : ∀ u_, execBz e a t s = .next u_ → u_.hide 98303969 = s.hide 98303969 := by
  intro u_ h
  unfold execBz at h
  revert u_
  refine runInstr_hide _ _ _ _ _ (by decide) ?_
  intro s
  repeat (first | with_reducible refine legal_hide _ _ _ _ _ ?_ | (with_reducible refine engine_hide _ _ _ _ ?_ ?_; decide; intro s))
  (try dsimp only)
  repeat' split
  all_goals first | (with_reducible exact rfl) | (with_reducible refine doneWith_hide _ _ _ _ ?_; decide) | (simp [IRes.Keeps]; done) | grind [IRes.Keeps]
theorem execBnz_hide (e : Fin 4) (a : Fin 32) (t : BitVec 13) (s : State) : ∀ u_, execBnz e a t s = .next u_ → u_.hide 98303969 = s.hide 98303969 := by
  intro u_ h
  unfold execBnz at h
  revert u_
  refine runInstr_hide _ _ _ _ _ (by decide) ?_
  intro s
  repeat (first | with_reducible refine legal_hide _ _ _ _ _ ?_ | (with_reducible refine engine_hide _ _ _ _ ?_ ?_; decide; intro s))
  (try dsimp only)
  repeat' split
  all_goals first | (with_reducible exact rfl) | (with_reducible refine doneWith_hide _ _ _ _ ?_; decide) | (simp [IRes.Keeps]; done) | grind [IRes.Keeps]
theorem execDbnz_hide (e : Fin 4) (a : Fin 32) (t : BitVec 13) (s : State) : ∀ u_, execDbnz e a t s = .next u_ → u_.hide 98303969 = s.hide 98303969 := by
  intro u_ h
  unfold execDbnz at h
  revert u_
  refine runInstr_hide _ _ _ _ _ (by decide) ?_
  intro s
  repeat (first | with_reducible refine legal_hide _ _ _ _ _ ?_ | (with_reducible refine engine_hide _ _ _ _ ?_ ?_; decide; intro s))
  (try dsimp only)
  repeat' split
  all_goals first | (with_reducible exact rfl) | (with_reducible refine doneWith_hide _ _ _ _ ?_; decide) | (simp [IRes.Keeps]; done) | grind [IRes.Keeps, State.modE_hide]

/-! ## EmberEngine -/

theorem engine_hide (e : Fin 4) (k : State → IRes) (s : State) (m : Nat) (hm : m &&& 98303969 = 98303969)
    (h : ∀ s, (k s).Keeps m s) : (engine e k s).Keeps m s := by
  unfold engine
  exact IRes.keeps_of (h _) (drainWindow_hide _ _ _ hm)
theorem execInsert_hide (e : Fin 4) (d a b t : Fin 32) (ch : ChanSel) (s : State) : ∀ u_, execInsert e d a b t ch s = .next u_ → u_.hide 98303969 = s.hide 98303969 := by
  intro u_ h
  unfold execInsert at h
  revert u_
  refine runInstr_hide _ _ _ _ _ (by decide) ?_
  intro s
  repeat (first | with_reducible refine legal_hide _ _ _ _ _ ?_ | (with_reducible refine engine_hide _ _ _ _ ?_ ?_; decide; intro s))
  (try dsimp only)
  repeat' split
  all_goals first | (with_reducible exact rfl) | (with_reducible refine doneWith_hide _ _ _ _ ?_; decide) | (simp [IRes.Keeps]; done) | grind [IRes.Keeps, State.modE_hide, listInsert_hide]
theorem execCancel_hide (e : Fin 4) (d t : Fin 32) (ch : ChanSel) (s : State) : ∀ u_, execCancel e d t ch s = .next u_ → u_.hide 98303969 = s.hide 98303969 := by
  intro u_ h
  unfold execCancel at h
  revert u_
  refine runInstr_hide _ _ _ _ _ (by decide) ?_
  intro s
  repeat (first | with_reducible refine legal_hide _ _ _ _ _ ?_ | (with_reducible refine engine_hide _ _ _ _ ?_ ?_; decide; intro s))
  (try dsimp only)
  repeat' split
  all_goals first | (with_reducible exact rfl) | (with_reducible refine doneWith_hide _ _ _ _ ?_; decide) | (simp [IRes.Keeps]; done) | grind [IRes.Keeps, State.modE_hide, listCancel_hide]
theorem execShift_hide (e : Fin 4) (d : Fin 32) (g : Fin 3) (a : Fin 32) (n1 : Fin 8) (s : State) : ∀ u_, execShift e d g a n1 s = .next u_ → u_.hide 98303969 = s.hide 98303969 := by
  intro u_ h
  unfold execShift at h
  revert u_
  refine runInstr_hide _ _ _ _ _ (by decide) ?_
  intro s
  repeat (first | with_reducible refine legal_hide _ _ _ _ _ ?_ | (with_reducible refine engine_hide _ _ _ _ ?_ ?_; decide; intro s))
  (try dsimp only)
  repeat' split
  all_goals first | (with_reducible exact rfl) | (with_reducible refine doneWith_hide _ _ _ _ ?_; decide) | (simp [IRes.Keeps]; done) | grind [IRes.Keeps, State.count_hide, State.modE_hide, chanFault_hide, writePlanes_hide]
theorem execWpos_hide (e : Fin 4) (d : Fin 32) (w : Fin 8) (s : State) : ∀ u_, execWpos e d w s = .next u_ → u_.hide 98303969 = s.hide 98303969 := by
  intro u_ h
  unfold execWpos at h
  revert u_
  refine runInstr_hide _ _ _ _ _ (by decide) ?_
  intro s
  repeat (first | with_reducible refine legal_hide _ _ _ _ _ ?_ | (with_reducible refine engine_hide _ _ _ _ ?_ ?_; decide; intro s))
  (try dsimp only)
  repeat' split
  all_goals first | (with_reducible exact rfl) | (with_reducible refine doneWith_hide _ _ _ _ ?_; decide) | (simp [IRes.Keeps]; done) | grind [IRes.Keeps, State.modE_hide]
theorem execWpred_hide (e : Fin 4) (d b : Fin 32) (w : Fin 8) (s : State) : ∀ u_, execWpred e d b w s = .next u_ → u_.hide 98303969 = s.hide 98303969 := by
  intro u_ h
  unfold execWpred at h
  revert u_
  refine runInstr_hide _ _ _ _ _ (by decide) ?_
  intro s
  repeat (first | with_reducible refine legal_hide _ _ _ _ _ ?_ | (with_reducible refine engine_hide _ _ _ _ ?_ ?_; decide; intro s))
  (try dsimp only)
  repeat' split
  all_goals first | (with_reducible exact rfl) | (with_reducible refine doneWith_hide _ _ _ _ ?_; decide) | (simp [IRes.Keeps]; done) | grind [IRes.Keeps, State.modE_hide]
theorem execBsend_hide (e : Fin 4) (d a : Fin 32) (type : Byte) (s : State) : ∀ u_, execBsend e d a type s = .next u_ → u_.hide 98303969 = s.hide 98303969 := by
  intro u_ h
  unfold execBsend at h
  revert u_
  refine runInstr_hide _ _ _ _ _ (by decide) ?_
  intro s
  repeat (first | with_reducible refine legal_hide _ _ _ _ _ ?_ | (with_reducible refine engine_hide _ _ _ _ ?_ ?_; decide; intro s))
  (try dsimp only)
  repeat' split
  all_goals first | (with_reducible exact rfl) | (with_reducible refine doneWith_hide _ _ _ _ ?_; decide) | (simp [IRes.Keeps]; done) | grind [IRes.Keeps, State.modE_hide, State.put_hide, mailboxGo_hide]

end Sys2Proof.Machine
end

