-- ==== Sys2Proof/Laws/FrameNode.lean ====
section
/-! SUPPORT. The frame of each operation and command. The MFE, power, Caldera, resets, Kindling, freeze and the tick. -/

set_option maxRecDepth 100000
set_option linter.all false

namespace Sys2Proof.Machine

/-! ## Mfe -/

@[simp] theorem State.setM_hide (m : Mfe) (s : State) (m_ : Nat) (h_ : m_ &&& 262144 = 262144) : (State.setM m s).hide m_ = s.hide m_ := by
  refine hide_mono h_ ?_
  simp [State.setM]
@[simp] theorem State.modM_hide (f : Mfe → Mfe) (s : State) (m_ : Nat) (h_ : m_ &&& 262144 = 262144) : (State.modM f s).hide m_ = s.hide m_ := by
  refine hide_mono h_ ?_
  simp [State.modM]
@[simp] theorem sendUp_hide (type : Byte) (retx : Bool) (seq ref : BitVec 16) (payload : List Byte) (s : State) (m_ : Nat) (h_ : m_ &&& 262144 = 262144) : (sendUp type retx seq ref payload s).hide m_ = s.hide m_ := by
  refine hide_mono h_ ?_
  simp [sendUp]
@[simp] theorem countTeeth_hide (type : Byte) (payload : List Byte) (s : State) (m_ : Nat) (h_ : m_ &&& 262144 = 262144) : (countTeeth type payload s).hide m_ = s.hide m_ := by
  refine hide_mono h_ ?_
  unfold countTeeth
  dsimp only
  repeat' split
  all_goals simp
@[simp] theorem upTransmit_hide (type : Byte) (payload : List Byte) (s : State) (m_ : Nat) (h_ : m_ &&& 262144 = 262144) : (upTransmit type payload s).hide m_ = s.hide m_ := by
  refine hide_mono h_ ?_
  simp [upTransmit]
@[simp] theorem upSend_hide (type : Byte) (payload : List Byte) (s : State) (m_ : Nat) (h_ : m_ &&& 262144 = 262144) : (upSend type payload s).hide m_ = s.hide m_ := by
  refine hide_mono h_ ?_
  simp [upSend]
@[simp] theorem sendWaitingUps_hide (x0 : Nat) (s : State) (m_ : Nat) (h_ : m_ &&& 262144 = 262144) : (sendWaitingUps x0 s).hide m_ = s.hide m_ := by
  refine hide_mono h_ ?_
  clear h_
  induction x0 generalizing s <;> first | with_reducible rfl | (simp [sendWaitingUps]; done) | (simp [sendWaitingUps, *]; done) | (unfold sendWaitingUps; (try dsimp only); (repeat' (first | with_reducible rfl | (simp; done) | (rw [State.each_hide]) | (rw [State.when_hide]) | (rw [State.foldl_hide]) | (refine upRequest_hide _ _ _ _ (by decide) ?_) | (refine downRequest_hide _ _ _ _ (by decide) ?_) | (intro _ _; (try dsimp only)) | (intro _; (try dsimp only)) | split)) <;> first | with_reducible rfl | (simp [*]; done) | (apply hide_congr <;> intro hb <;> first | rfl | exact absurd hb (by decide)) | grind [State.modM_hide, upTransmit_hide]) | grind [sendWaitingUps, State.modM_hide, upTransmit_hide]
@[simp] theorem flushHeld_hide (s : State) (m_ : Nat) (h_ : m_ &&& 262144 = 262144) : (flushHeld s).hide m_ = s.hide m_ := by
  refine hide_mono h_ ?_
  simp [flushHeld]
@[simp] theorem sendHvEvent_hide (what flags : Nat) (time : SysTime) (tag : Word) (s : State) (m_ : Nat) (h_ : m_ &&& 262144 = 262144) : (sendHvEvent what flags time tag s).hide m_ = s.hide m_ := by
  refine hide_mono h_ ?_
  simp [sendHvEvent]
@[simp] theorem sendOptime_hide (i : Fin 12) (s : State) (m_ : Nat) (h_ : m_ &&& 262144 = 262144) : (sendOptime i s).hide m_ = s.hide m_ := by
  refine hide_mono h_ ?_
  simp [sendOptime]
@[simp] theorem State.setOut_hide (i : Fin 12) (o : HvOut) (s : State) (m_ : Nat) (h_ : m_ &&& 262144 = 262144) : (State.setOut i o s).hide m_ = s.hide m_ := by
  refine hide_mono h_ ?_
  simp [State.setOut]
@[simp] theorem applyFail_hide (s : State) (m_ : Nat) (h_ : m_ &&& 262144 = 262144) : (applyFail s).hide m_ = s.hide m_ := by
  refine hide_mono h_ ?_
  simp [applyFail]
@[simp] theorem dropSchedule_hide (s : State) (m_ : Nat) (h_ : m_ &&& 262144 = 262144) : (dropSchedule s).hide m_ = s.hide m_ := by
  refine hide_mono h_ ?_
  simp [dropSchedule]
theorem downFrame_hide (f : List Byte) (ok : Byte → Bool) (k : State → State) (s : State) (m : Nat) (hm :
    m &&& 262144 = 262144) (h : ∀ s, (k s).hide m = s.hide m) : ∀ t, downFrame f ok k s = .next t → t.hide m = s.hide m := by
  intro t ht
  unfold downFrame at ht
  split at ht
  · simp at ht
  · simp only [actWhen_next] at ht; subst ht
    repeat' split
    all_goals simp [h, mask_sub hm]
@[simp] theorem answerDown_hide (seq : BitVec 16) (payload : List Byte) (s : State) (m_ : Nat) (h_ : m_ &&& 262144 = 262144) : (answerDown seq payload s).hide m_ = s.hide m_ := by
  refine hide_mono h_ ?_
  simp [answerDown]
@[simp] theorem downRequest_hide (f : List Byte) (k : State → Byte × List Byte × State) (s : State) (m : Nat) (hm :
    m &&& 262144 = 262144) (h : ∀ s, (k s).2.2.hide m = s.hide m) : (downRequest f k s).hide m = s.hide m := by
  unfold downRequest; split
  · simp [mask_sub hm]
  · simp [h, mask_sub hm]
theorem execHello_hide (f : List Byte) (s : State) : ∀ u_, execHello f s = .next u_ → u_.hide 262144 = s.hide 262144 := by
  intro u_ h
  unfold execHello at h
  refine downFrame_hide _ _ _ _ _ (by decide) ?_ u_ h
  intro s; (try dsimp only)
  (repeat' (first | with_reducible rfl | (simp; done) | (rw [State.each_hide]) | (rw [State.when_hide]) | (rw [State.foldl_hide]) | (refine upRequest_hide _ _ _ _ (by decide) ?_) | (refine downRequest_hide _ _ _ _ (by decide) ?_) | (intro _ _; (try dsimp only)) | (intro _; (try dsimp only)) | split)) <;> first | with_reducible rfl | (simp [*]; done) | (apply hide_congr <;> intro hb <;> first | rfl | exact absurd hb (by decide)) | grind [State.modM_hide, downFrame_hide]
theorem execFailstate_hide (f : List Byte) (s : State) : ∀ u_, execFailstate f s = .next u_ → u_.hide 262144 = s.hide 262144 := by
  intro u_ h
  unfold execFailstate at h
  refine downFrame_hide _ _ _ _ _ (by decide) ?_ u_ h
  intro s; (try dsimp only)
  (repeat' (first | with_reducible rfl | (simp; done) | (rw [State.each_hide]) | (rw [State.when_hide]) | (rw [State.foldl_hide]) | (refine upRequest_hide _ _ _ _ (by decide) ?_) | (refine downRequest_hide _ _ _ _ (by decide) ?_) | (intro _ _; (try dsimp only)) | (intro _; (try dsimp only)) | split)) <;> first | with_reducible rfl | (simp [*]; done) | (apply hide_congr <;> intro hb <;> first | rfl | exact absurd hb (by decide)) | grind [State.modM_hide, applyFail_hide, downFrame_hide, downRequest_hide, dropSchedule_hide, sendOptime_hide]
@[simp] theorem mfeSchedule_hide (f : List Byte) (s : State) (m_ : Nat) (h_ : m_ &&& 262144 = 262144) : (mfeSchedule f s).2.2.hide m_ = s.hide m_ := by
  refine hide_mono h_ ?_
  unfold mfeSchedule
  dsimp only
  repeat' split
  all_goals simp
theorem execSchedule_hide (f : List Byte) (s : State) : ∀ u_, execSchedule f s = .next u_ → u_.hide 262144 = s.hide 262144 := by
  intro u_ h
  unfold execSchedule at h
  refine downFrame_hide _ _ _ _ _ (by decide) ?_ u_ h
  intro s; (try dsimp only)
  (repeat' (first | with_reducible rfl | (simp; done) | (rw [State.each_hide]) | (rw [State.when_hide]) | (rw [State.foldl_hide]) | (refine upRequest_hide _ _ _ _ (by decide) ?_) | (refine downRequest_hide _ _ _ _ (by decide) ?_) | (intro _ _; (try dsimp only)) | (intro _; (try dsimp only)) | split)) <;> first | with_reducible rfl | (simp [*]; done) | (apply hide_congr <;> intro hb <;> first | rfl | exact absurd hb (by decide)) | grind [downFrame_hide, downRequest_hide, mfeSchedule_hide]
@[simp] theorem mfeCancel_hide (f : List Byte) (s : State) (m_ : Nat) (h_ : m_ &&& 262144 = 262144) : (mfeCancel f s).2.2.hide m_ = s.hide m_ := by
  refine hide_mono h_ ?_
  unfold mfeCancel
  dsimp only
  repeat' split
  all_goals simp
theorem execBarrierCancel_hide (f : List Byte) (s : State) : ∀ u_, execBarrierCancel f s = .next u_ → u_.hide 262144 = s.hide 262144 := by
  intro u_ h
  unfold execBarrierCancel at h
  refine downFrame_hide _ _ _ _ _ (by decide) ?_ u_ h
  intro s; (try dsimp only)
  (repeat' (first | with_reducible rfl | (simp; done) | (rw [State.each_hide]) | (rw [State.when_hide]) | (rw [State.foldl_hide]) | (refine upRequest_hide _ _ _ _ (by decide) ?_) | (refine downRequest_hide _ _ _ _ (by decide) ?_) | (intro _ _; (try dsimp only)) | (intro _; (try dsimp only)) | split)) <;> first | with_reducible rfl | (simp [*]; done) | (apply hide_congr <;> intro hb <;> first | rfl | exact absurd hb (by decide)) | grind [downFrame_hide, downRequest_hide, mfeCancel_hide]
theorem execSetNow_hide (f : List Byte) (s : State) : ∀ u_, execSetNow f s = .next u_ → u_.hide 262144 = s.hide 262144 := by
  intro u_ h
  unfold execSetNow at h
  refine downFrame_hide _ _ _ _ _ (by decide) ?_ u_ h
  intro s; (try dsimp only)
  (repeat' (first | with_reducible rfl | (simp; done) | (rw [State.each_hide]) | (rw [State.when_hide]) | (rw [State.foldl_hide]) | (refine upRequest_hide _ _ _ _ (by decide) ?_) | (refine downRequest_hide _ _ _ _ (by decide) ?_) | (intro _ _; (try dsimp only)) | (intro _; (try dsimp only)) | split)) <;> first | with_reducible rfl | (simp [*]; done) | (apply hide_congr <;> intro hb <;> first | rfl | exact absurd hb (by decide)) | grind [State.modM_hide, downFrame_hide, downRequest_hide]
@[simp] theorem mfeConfig_hide (f : List Byte) (s : State) (m_ : Nat) (h_ : m_ &&& 262144 = 262144) : (mfeConfig f s).2.2.hide m_ = s.hide m_ := by
  refine hide_mono h_ ?_
  unfold mfeConfig
  dsimp only
  repeat' split
  all_goals simp
theorem execConfig_hide (f : List Byte) (s : State) : ∀ u_, execConfig f s = .next u_ → u_.hide 262144 = s.hide 262144 := by
  intro u_ h
  unfold execConfig at h
  refine downFrame_hide _ _ _ _ _ (by decide) ?_ u_ h
  intro s; (try dsimp only)
  (repeat' (first | with_reducible rfl | (simp; done) | (rw [State.each_hide]) | (rw [State.when_hide]) | (rw [State.foldl_hide]) | (refine upRequest_hide _ _ _ _ (by decide) ?_) | (refine downRequest_hide _ _ _ _ (by decide) ?_) | (intro _ _; (try dsimp only)) | (intro _; (try dsimp only)) | split)) <;> first | with_reducible rfl | (simp [*]; done) | (apply hide_congr <;> intro hb <;> first | rfl | exact absurd hb (by decide)) | grind [downFrame_hide, downRequest_hide, mfeConfig_hide]
theorem execBarrierQuery_hide (f : List Byte) (s : State) : ∀ u_, execBarrierQuery f s = .next u_ → u_.hide 262144 = s.hide 262144 := by
  intro u_ h
  unfold execBarrierQuery at h
  refine downFrame_hide _ _ _ _ _ (by decide) ?_ u_ h
  intro s; (try dsimp only)
  (repeat' (first | with_reducible rfl | (simp; done) | (rw [State.each_hide]) | (rw [State.when_hide]) | (rw [State.foldl_hide]) | (refine upRequest_hide _ _ _ _ (by decide) ?_) | (refine downRequest_hide _ _ _ _ (by decide) ?_) | (intro _ _; (try dsimp only)) | (intro _; (try dsimp only)) | split)) <;> first | with_reducible rfl | (simp [*]; done) | (apply hide_congr <;> intro hb <;> first | rfl | exact absurd hb (by decide)) | grind [downFrame_hide, downRequest_hide]
theorem execFailnow_hide (f : List Byte) (s : State) : ∀ u_, execFailnow f s = .next u_ → u_.hide 262144 = s.hide 262144 := by
  intro u_ h
  unfold execFailnow at h
  refine downFrame_hide _ _ _ _ _ (by decide) ?_ u_ h
  intro s; (try dsimp only)
  (repeat' (first | with_reducible rfl | (simp; done) | (rw [State.each_hide]) | (rw [State.when_hide]) | (rw [State.foldl_hide]) | (refine upRequest_hide _ _ _ _ (by decide) ?_) | (refine downRequest_hide _ _ _ _ (by decide) ?_) | (intro _ _; (try dsimp only)) | (intro _; (try dsimp only)) | split)) <;> first | with_reducible rfl | (simp [*]; done) | (apply hide_congr <;> intro hb <;> first | rfl | exact absurd hb (by decide)) | grind [applyFail_hide, downFrame_hide, downRequest_hide, dropSchedule_hide]
theorem execTimeFrame_hide (f : List Byte) (transit : Nat) (s : State) : ∀ u_, execTimeFrame f transit s = .next u_ → u_.hide 262144 = s.hide 262144 := by
  intro u_ h
  unfold execTimeFrame at h
  refine downFrame_hide _ _ _ _ _ (by decide) ?_ u_ h
  intro s; (try dsimp only)
  (repeat' (first | with_reducible rfl | (simp; done) | (rw [State.each_hide]) | (rw [State.when_hide]) | (rw [State.foldl_hide]) | (refine upRequest_hide _ _ _ _ (by decide) ?_) | (refine downRequest_hide _ _ _ _ (by decide) ?_) | (intro _ _; (try dsimp only)) | (intro _; (try dsimp only)) | split)) <;> first | with_reducible rfl | (simp [*]; done) | (apply hide_congr <;> intro hb <;> first | rfl | exact absurd hb (by decide)) | grind [State.modM_hide, downFrame_hide]
theorem execGate_hide (i : Fin 12) (s : State) : ∀ u_, execGate i s = .next u_ → u_.hide 262144 = s.hide 262144 := by
  intro u_ h
  simp only [execGate, actWhen_next] at h
  subst h
  repeat' split
  all_goals simp
theorem execOvercurrent_hide (i : Fin 12) (s : State) : ∀ u_, execOvercurrent i s = .next u_ → u_.hide 262144 = s.hide 262144 := by
  intro u_ h
  simp only [execOvercurrent, actWhen_next] at h
  subst h
  simp
@[simp] theorem openQuot_hide (n d : Int) (s : State) (m_ : Nat) (h_ : m_ &&& 67108864 = 67108864) : (openQuot n d s).2.hide m_ = s.hide m_ := by
  refine hide_mono h_ ?_
  simp [openQuot]
@[simp] theorem measured_hide (gate edge : SysTime) (s : State) (m_ : Nat) (h_ : m_ &&& 67108864 = 67108864) : (measured gate edge s).2.hide m_ = s.hide m_ := by
  refine hide_mono h_ ?_
  simp [measured]
@[simp] theorem learn_hide (old : Option Nat) (m : Nat) (s : State) (m_ : Nat) (h_ : m_ &&& 67108864 = 67108864) : (learn old m s).2.hide m_ = s.hide m_ := by
  refine hide_mono h_ ?_
  unfold learn
  dsimp only
  repeat' split
  all_goals simp
@[simp] theorem endMeasurements_hide (i : Fin 4) (on : Bool) (t : SysTime) (s : State) (m_ : Nat) (h_ : m_ &&& 67371008 = 67371008) : (endMeasurements i on t s).hide m_ = s.hide m_ := by
  refine hide_mono h_ ?_
  first
  | (simp [endMeasurements]; done)
  | (unfold endMeasurements; (try dsimp only); (repeat' (first | with_reducible rfl | (simp; done) | (rw [State.each_hide]) | (rw [State.when_hide]) | (rw [State.foldl_hide]) | (refine upRequest_hide _ _ _ _ (by decide) ?_) | (refine downRequest_hide _ _ _ _ (by decide) ?_) | (intro _ _; (try dsimp only)) | (intro _; (try dsimp only)) | split)) <;> first | with_reducible rfl | (simp [*]; done) | (apply hide_congr <;> intro hb <;> first | rfl | exact absurd hb (by decide)) | grind [State.setOut_hide, learn_hide, measured_hide, sendOptime_hide])
@[simp] theorem inputEdge_hide (i : Fin 4) (on dead : Bool) (t : SysTime) (s : State) (m_ : Nat) (h_ : m_ &&& 67371008 = 67371008) : (inputEdge i on dead t s).hide m_ = s.hide m_ := by
  refine hide_mono h_ ?_
  unfold inputEdge
  dsimp only
  repeat' split
  all_goals simp
theorem execHviOn_hide (i : Fin 4) (first : SysTime) (later : List SysTime) (below : Option (SysTime × SysTime)) (s : State) : ∀ u_, execHviOn i first later below s = .next u_ → u_.hide 67371008 = s.hide 67371008 := by
  intro u_ h
  simp only [execHviOn, actWhen_next] at h
  subst h
  repeat' split
  all_goals simp
theorem execHviOff_hide (i : Fin 4) (last : SysTime) (s : State) : ∀ u_, execHviOff i last s = .next u_ → u_.hide 67371008 = s.hide 67371008 := by
  intro u_ h
  simp only [execHviOff, actWhen_next] at h
  subst h
  simp
@[simp] theorem sendTeeth_hide (p : Fin 3) (x0 : Nat) (x1 : Bool) (x2 : List SysTime) (s : State) (m_ : Nat) (h_ : m_ &&& 262144 = 262144) : (sendTeeth p x0 x1 x2 s).hide m_ = s.hide m_ := by
  refine hide_mono h_ ?_
  clear h_
  induction x0 generalizing s p x1 x2 <;> first | with_reducible rfl | (simp [sendTeeth]; done) | (simp [sendTeeth, *]; done) | (unfold sendTeeth; (try dsimp only); (repeat' (first | with_reducible rfl | (simp; done) | (rw [State.each_hide]) | (rw [State.when_hide]) | (rw [State.foldl_hide]) | (refine upRequest_hide _ _ _ _ (by decide) ?_) | (refine downRequest_hide _ _ _ _ (by decide) ?_) | (intro _ _; (try dsimp only)) | (intro _; (try dsimp only)) | split)) <;> first | with_reducible rfl | (simp [*]; done) | (apply hide_congr <;> intro hb <;> first | rfl | exact absurd hb (by decide)) | grind [State.modM_hide, upSend_hide]) | grind [sendTeeth, State.modM_hide, upSend_hide]
@[simp] theorem openTeeth_hide (thd : Byte) (s : State) (x0 : List (SysTime × Nat)) (m_ : Nat) (h_ : m_ &&& 67108864 = 67108864) : (openTeeth thd s x0).2.hide m_ = s.hide m_ := by
  refine hide_mono h_ ?_
  clear h_
  induction x0 generalizing s thd <;> first | with_reducible rfl | (simp [openTeeth]; done) | (simp [openTeeth, *]; done) | (unfold openTeeth; (try dsimp only); (repeat' (first | with_reducible rfl | (simp; done) | (rw [State.each_hide]) | (rw [State.when_hide]) | (rw [State.foldl_hide]) | (refine upRequest_hide _ _ _ _ (by decide) ?_) | (refine downRequest_hide _ _ _ _ (by decide) ?_) | (intro _ _; (try dsimp only)) | (intro _; (try dsimp only)) | split)) <;> first | with_reducible rfl | (simp [*]; done) | (apply hide_congr <;> intro hb <;> first | rfl | exact absurd hb (by decide)) | grind [State.draw_hide]) | grind [openTeeth, State.draw_hide]
theorem execMainsZeroCrossing_hide (p : Fin 3) (t : SysTime) (rms freq : BitVec 16) (thd : Byte) (cycle : Word) (s : State) : ∀ u_, execMainsZeroCrossing p t rms freq thd cycle s = .next u_ → u_.hide 67371008 = s.hide 67371008 := by
  intro u_ h
  unfold execMainsZeroCrossing at h
  try dsimp only at h
  first
  | (simp only [actWhen_next] at h; subst h; first | (simp; done) | ((repeat' (first | with_reducible rfl | (simp; done) | (rw [State.each_hide]) | (rw [State.when_hide]) | (rw [State.foldl_hide]) | (refine upRequest_hide _ _ _ _ (by decide) ?_) | (refine downRequest_hide _ _ _ _ (by decide) ?_) | (intro _ _; (try dsimp only)) | (intro _; (try dsimp only)) | split)) <;> first | with_reducible rfl | (simp [*]; done) | (apply hide_congr <;> intro hb <;> first | rfl | exact absurd hb (by decide)) | grind [State.modM_hide, sendTeeth_hide, upSend_hide]))
  | (repeat' split at h) <;> first | (cases h; simp; done) | (cases h; done) | (simp only [actWhen_next] at h; subst h; first | (simp; done) | ((repeat' (first | with_reducible rfl | (simp; done) | (rw [State.each_hide]) | (rw [State.when_hide]) | (rw [State.foldl_hide]) | (refine upRequest_hide _ _ _ _ (by decide) ?_) | (refine downRequest_hide _ _ _ _ (by decide) ?_) | (intro _ _; (try dsimp only)) | (intro _; (try dsimp only)) | split)) <;> first | with_reducible rfl | (simp [*]; done) | (apply hide_congr <;> intro hb <;> first | rfl | exact absurd hb (by decide)) | grind [State.modM_hide, sendTeeth_hide, upSend_hide])) | (simp at h; done)
theorem execMfeBoot_hide (s : State) : ∀ u_, execMfeBoot s = .next u_ → u_.hide 262144 = s.hide 262144 := by
  intro u_ h
  simp only [execMfeBoot, actWhen_next] at h
  subst h
  simp
@[simp] theorem clearMeasurements_hide (s : State) (m_ : Nat) (h_ : m_ &&& 129 = 129) : (clearMeasurements s).hide m_ = s.hide m_ := by
  refine hide_mono h_ ?_
  simp [clearMeasurements]
theorem execMfeSupplyLost_hide (unpowered : Bool) (s : State) : ∀ u_, execMfeSupplyLost unpowered s = .next u_ → u_.hide 262273 = s.hide 262273 := by
  intro u_ h
  simp only [execMfeSupplyLost, actWhen_next] at h
  subst h
  simp
theorem execMfeHeartbeatLost_hide (s : State) : ∀ u_, execMfeHeartbeatLost s = .next u_ → u_.hide 262144 = s.hide 262144 := by
  intro u_ h
  simp only [execMfeHeartbeatLost, actWhen_next] at h
  subst h
  simp
theorem execMfeHoldEnd_hide (s : State) : ∀ u_, execMfeHoldEnd s = .next u_ → u_.hide 262144 = s.hide 262144 := by
  intro u_ h
  simp only [execMfeHoldEnd, actWhen_next] at h
  subst h
  repeat' split
  all_goals simp
theorem execStatusFrameSend_hide (temp : Byte) (overtemp : Bool) (s : State) : ∀ u_, execStatusFrameSend temp overtemp s = .next u_ → u_.hide 262144 = s.hide 262144 := by
  intro u_ h
  simp only [execStatusFrameSend, actWhen_next] at h
  subst h
  simp
theorem mfeCompletion_hide (f : List Byte) (s : State) : ∀ u_, mfeCompletion f s = .next u_ → u_.hide 262144 = s.hide 262144 := by
  intro u_ h
  unfold mfeCompletion at h
  refine downFrame_hide _ _ _ _ _ (by decide) ?_ u_ h
  intro s; (try dsimp only)
  (repeat' (first | with_reducible rfl | (simp; done) | (rw [State.each_hide]) | (rw [State.when_hide]) | (rw [State.foldl_hide]) | (refine upRequest_hide _ _ _ _ (by decide) ?_) | (refine downRequest_hide _ _ _ _ (by decide) ?_) | (intro _ _; (try dsimp only)) | (intro _; (try dsimp only)) | split)) <;> first | with_reducible rfl | (simp [*]; done) | (apply hide_congr <;> intro hb <;> first | rfl | exact absurd hb (by decide)) | grind [State.modM_hide, downFrame_hide, flushHeld_hide]
theorem mfeRetransmit_hide (seq : BitVec 16) (s : State) : ∀ u_, mfeRetransmit seq s = .next u_ → u_.hide 262144 = s.hide 262144 := by
  intro u_ h
  simp only [mfeRetransmit, actWhen_next] at h
  subst h
  repeat' split
  all_goals simp
theorem mfeTimeout_hide (seq : BitVec 16) (s : State) : ∀ u_, mfeTimeout seq s = .next u_ → u_.hide 262144 = s.hide 262144 := by
  intro u_ h
  simp only [mfeTimeout, actWhen_next] at h
  subst h
  repeat' split
  all_goals simp
theorem execCompletion_hide (atMfe : Bool) (f : List Byte) (s : State) : ∀ u_, execCompletion atMfe f s = .next u_ → u_.hide 401601 = s.hide 401601 := by
  unfold execCompletion; split
  · exact fun t h => hide_mono (by decide) (mfeCompletion_hide f s t h)
  · exact fun t h => hide_mono (by decide) (nodeCompletion_hide f s t h)
theorem execRetransmission_hide (atMfe : Bool) (seq : BitVec 16) (s : State) : ∀ u_, execRetransmission atMfe seq s = .next u_ → u_.hide 393217 = s.hide 393217 := by
  unfold execRetransmission; split
  · exact fun t h => hide_mono (by decide) (mfeRetransmit_hide seq s t h)
  · exact fun t h => hide_mono (by decide) (nodeRetransmit_hide seq s t h)
theorem execRequestTimeout_hide (atMfe : Bool) (seq : BitVec 16) (s : State) : ∀ u_, execRequestTimeout atMfe seq s = .next u_ → u_.hide 401601 = s.hide 401601 := by
  unfold execRequestTimeout; split
  · exact fun t h => hide_mono (by decide) (mfeTimeout_hide seq s t h)
  · exact fun t h => hide_mono (by decide) (nodeTimeout_hide seq s t h)

/-! ## Seconds -/

@[simp] theorem queueState_hide (s : State) (m_ : Nat) (h_ : m_ &&& 4096 = 4096) : (queueState s).hide m_ = s.hide m_ := by
  refine hide_mono h_ ?_
  simp [queueState]
theorem execSecond_hide (s : State) : ∀ u_, execSecond s = .next u_ → u_.hide 23597185 = s.hide 23597185 := by
  intro u_ h
  simp only [execSecond, actWhen_next] at h
  subst h
  simp
theorem execBinClose_hide (s : State) : ∀ u_, execBinClose s = .next u_ → u_.hide 4198529 = s.hide 4198529 := by
  intro u_ h
  simp only [execBinClose, actWhen_next] at h
  subst h
  simp

/-! ## Power -/

@[simp] theorem startHeartbeat_hide (s : State) (m_ : Nat) (h_ : m_ &&& 48 = 48) : (startHeartbeat s).hide m_ = s.hide m_ := by
  refine hide_mono h_ ?_
  simp [startHeartbeat]
@[simp] theorem stopHeartbeat_hide (s : State) (m_ : Nat) (h_ : m_ &&& 16 = 16) : (stopHeartbeat s).hide m_ = s.hide m_ := by
  refine hide_mono h_ ?_
  simp [stopHeartbeat]
theorem execHeartbeatLost_hide (s : State) : ∀ u_, execHeartbeatLost s = .next u_ → u_.hide 32 = s.hide 32 := by
  intro u_ h
  simp only [execHeartbeatLost, actWhen_next] at h
  subst h
  simp
theorem execCoilEnergise_hide (s : State) : ∀ u_, execCoilEnergise s = .next u_ → u_.hide 32 = s.hide 32 := by
  intro u_ h
  simp only [execCoilEnergise, actWhen_next] at h
  subst h
  simp
@[simp] theorem switchMoved_hide (s : State) (m_ : Nat) (h_ : m_ &&& 71827681 = 71827681) : (switchMoved s).hide m_ = s.hide m_ := by
  refine hide_mono h_ ?_
  simp [switchMoved]
theorem execSwitchPosition_hide (inserted : Bool) (s : State) : ∀ u_, execSwitchPosition inserted s = .next u_ → u_.hide 71827681 = s.hide 71827681 := by
  intro u_ h
  simp only [execSwitchPosition, actWhen_next] at h
  subst h
  simp
theorem execSwitchMismatch_hide (s : State) : ∀ u_, execSwitchMismatch s = .next u_ → u_.hide 65 = s.hide 65 := by
  intro u_ h
  simp only [execSwitchMismatch, actWhen_next] at h
  subst h
  simp
@[simp] theorem stopClocks_hide (bypassFirst onFatal : Bool) (s : State) (m_ : Nat) (h_ : m_ &&& 16 = 16) : (stopClocks bypassFirst onFatal s).hide m_ = s.hide m_ := by
  refine hide_mono h_ ?_
  simp [stopClocks]
@[simp] theorem retrainPort_hide (p : Fin 4) (s : State) (m_ : Nat) (h_ : m_ &&& 71303297 = 71303297) : (retrainPort p s).hide m_ = s.hide m_ := by
  refine hide_mono h_ ?_
  simp [retrainPort]
@[simp] theorem startClocks_hide (reason : BitVec 8) (kind : BitVec 5) (s : State) (m_ : Nat) (h_ : m_ &&& 71827697 = 71827697) : (startClocks reason kind s).hide m_ = s.hide m_ := by
  refine hide_mono h_ ?_
  simp [startClocks]
@[simp] theorem drainBuffer_hide (e : Fin 4) (s : State) (m_ : Nat) (h_ : m_ &&& 98303969 = 98303969) : (drainBuffer e s).hide m_ = s.hide m_ := by
  refine hide_mono h_ ?_
  simp [drainBuffer]
@[simp] theorem completeRecords_hide (s : State) (m_ : Nat) (h_ : m_ &&& 92275905 = 92275905) : (completeRecords s).2.hide m_ = s.hide m_ := by
  refine hide_mono h_ ?_
  simp [completeRecords]
@[simp] theorem drainNode_hide (s : State) (m_ : Nat) (h_ : m_ &&& 131858417 = 131858417) : (drainNode s).hide m_ = s.hide m_ := by
  refine hide_mono h_ ?_
  simp [drainNode]
@[simp] theorem setLeaving_hide (s : State) (m_ : Nat) (h_ : m_ &&& 4194305 = 4194305) : (setLeaving s).hide m_ = s.hide m_ := by
  refine hide_mono h_ ?_
  simp [setLeaving]
@[simp] theorem pwrfail_hide (vbulk : BitVec 16) (s : State) (m_ : Nat) (h_ : m_ &&& 131858417 = 131858417) : (pwrfail vbulk s).hide m_ = s.hide m_ := by
  refine hide_mono h_ ?_
  simp [pwrfail]
@[simp] theorem pwrRecord_hide (s : State) (m_ : Nat) (h_ : m_ &&& 8388624 = 8388624) : (pwrRecord s).hide m_ = s.hide m_ := by
  refine hide_mono h_ ?_
  simp [pwrRecord]
theorem execPwrfailHalt_hide (s : State) : ∀ u_, execPwrfailHalt s = .next u_ → u_.hide 8389136 = s.hide 8389136 := by
  intro u_ h
  simp only [execPwrfailHalt, actWhen_next] at h
  subst h
  simp
theorem execPwrfailHeartbeatStop_hide (s : State) : ∀ u_, execPwrfailHeartbeatStop s = .next u_ → u_.hide 16 = s.hide 16 := by
  intro u_ h
  simp only [execPwrfailHeartbeatStop, actWhen_next] at h
  subst h
  simp

/-! ## Caldera -/

@[simp] theorem writeCapture_hide (bad : Bool) (at_ : SysTime) (s : State) (m_ : Nat) (h_ : m_ &&& 75497472 = 75497472) : (writeCapture bad at_ s).hide m_ = s.hide m_ := by
  refine hide_mono h_ ?_
  simp [writeCapture]
@[simp] theorem calderaOutputs_hide (r : FaultRec) (s : State) (m_ : Nat) (h_ : m_ &&& 4325393 = 4325393) : (calderaOutputs r s).hide m_ = s.hide m_ := by
  refine hide_mono h_ ?_
  simp [calderaOutputs]
@[simp] theorem calderaHalt_hide (s : State) (m_ : Nat) (h_ : m_ &&& 33557248 = 33557248) : (calderaHalt s).hide m_ = s.hide m_ := by
  refine hide_mono h_ ?_
  simp [calderaHalt]
@[simp] theorem calderaRest_hide (bad : Bool) (s : State) (m_ : Nat) (h_ : m_ &&& 125833169 = 125833169) : (calderaRest bad s).hide m_ = s.hide m_ := by
  refine hide_mono h_ ?_
  simp [calderaRest]
theorem execCaldera_hide (bad : Bool) (s : State) : ∀ u_, execCaldera bad s = .next u_ → u_.hide 130158545 = s.hide 130158545 := by
  intro u_ h
  simp only [execCaldera, actWhen_next] at h
  subst h
  repeat' split
  all_goals simp
@[simp] theorem continueCaldera_hide (s : State) (m_ : Nat) (h_ : m_ &&& 125833169 = 125833169) : (continueCaldera s).hide m_ = s.hide m_ := by
  refine hide_mono h_ ?_
  simp [continueCaldera]

/-! ## Reset -/

@[simp] theorem keepFirst_hide (s r : State) (m_ : Nat) (h_ : m_ &&& 65 = 65) : (keepFirst s r).hide m_ = r.hide m_ := by
  refine hide_mono h_ ?_
  simp [keepFirst]
@[simp] theorem coldReset_hide (kind : ResetKind) (s : State) (m_ : Nat) (h_ : m_ &&& 66846713 = 66846713) : (coldReset kind s).hide m_ = s.hide m_ := by
  refine hide_mono h_ ?_
  unfold coldReset
  dsimp only
  repeat' split
  all_goals first | rfl | simp
@[simp] theorem beginK0_hide (s : State) (m_ : Nat) (h_ : m_ &&& 16 = 16) : (beginK0 s).hide m_ = s.hide m_ := by
  refine hide_mono h_ ?_
  simp [beginK0]
theorem execPowerOn_hide (low : Bool) (vbulk : BitVec 16) (vaux conv : Bool) (off : BitVec 64) (resetLow holdLow : Bool) (s : State) : ∀ u_, execPowerOn low vbulk vaux conv off resetLow holdLow s = .next u_ → u_.hide 66846713 = s.hide 66846713 := by
  intro u_ h
  simp only [execPowerOn, actWhen_next] at h
  subst h
  simp
@[simp] theorem beforeReset_hide (s : State) (m_ : Nat) (h_ : m_ &&& 92280001 = 92280001) : (beforeReset s).hide m_ = s.hide m_ := by
  refine hide_mono h_ ?_
  simp [beforeReset]
@[simp] theorem holdInReset_hide (kind : ResetKind) (s : State) (m_ : Nat) (h_ : m_ &&& 66846713 = 66846713) : (holdInReset kind s).hide m_ = s.hide m_ := by
  refine hide_mono h_ ?_
  simp [holdInReset]
theorem execResetN_hide (s : State) : ∀ u_, execResetN s = .next u_ → u_.hide 133955577 = s.hide 133955577 := by
  intro u_ h
  simp only [execResetN, actWhen_next] at h
  subst h
  simp
theorem execCalderaExit_hide (s : State) : ∀ u_, execCalderaExit s = .next u_ → u_.hide 133955577 = s.hide 133955577 := by
  intro u_ h
  simp only [execCalderaExit, actWhen_next] at h
  subst h
  simp
theorem execResetNRelease_hide (s : State) : ∀ u_, execResetNRelease s = .next u_ → u_.hide 16 = s.hide 16 := by
  intro u_ h
  simp only [execResetNRelease, actWhen_next] at h
  subst h
  simp
theorem execPlugInserted_hide (mem : List (Nat × Byte)) (rdid rdsr : Byte) (s : State) : ∀ u_, execPlugInserted mem rdid rdsr s = .next u_ → u_.hide 8388624 = s.hide 8388624 := by
  intro u_ h
  simp only [execPlugInserted, actWhen_next] at h
  subst h
  simp
@[simp] theorem tearRecord_hide (s : State) (m_ : Nat) (h_ : m_ &&& 92274688 = 92274688) : (tearRecord s).hide m_ = s.hide m_ := by
  refine hide_mono h_ ?_
  unfold tearRecord
  dsimp only
  repeat' split
  all_goals simp
@[simp] theorem plugLost_hide (s : State) (m_ : Nat) (h_ : m_ &&& 92275905 = 92275905) : (plugLost s).hide m_ = s.hide m_ := by
  refine hide_mono h_ ?_
  simp [plugLost]
theorem execPlugRemoved_hide (s : State) : ∀ u_, execPlugRemoved s = .next u_ → u_.hide 92275921 = s.hide 92275921 := by
  intro u_ h
  simp only [execPlugRemoved, actWhen_next] at h
  subst h
  simp
@[simp] theorem enterHold_hide (s : State) (m_ : Nat) (h_ : m_ &&& 131858417 = 131858417) : (enterHold s).hide m_ = s.hide m_ := by
  refine hide_mono h_ ?_
  simp [enterHold]
theorem execPlugHold_hide (s : State) : ∀ u_, execPlugHold s = .next u_ → u_.hide 131858417 = s.hide 131858417 := by
  intro u_ h
  cases h
  simp
theorem execPlugHoldRelease_hide (patch : List (Nat × Byte)) (s : State) : ∀ u_, execPlugHoldRelease patch s = .next u_ → u_.hide 66846713 = s.hide 66846713 := by
  intro u_ h
  simp only [execPlugHoldRelease, actWhen_next] at h
  subst h
  simp
@[simp] theorem afterFreeze_hide (s : State) (m_ : Nat) (h_ : m_ &&& 133955577 = 133955577) : (afterFreeze s).hide m_ = s.hide m_ := by
  refine hide_mono h_ ?_
  simp [afterFreeze]
@[simp] theorem resumeNode_hide (reason : BitVec 8) (kind : BitVec 5) (s : State) (m_ : Nat) (h_ : m_ &&& 133955577 = 133955577) : (resumeNode reason kind s).hide m_ = s.hide m_ := by
  refine hide_mono h_ ?_
  simp [resumeNode]
theorem execPwrfail_hide (vbulk : BitVec 16) (s : State) : ∀ u_, execPwrfail vbulk s = .next u_ → u_.hide 133955577 = s.hide 133955577 := by
  intro u_ h
  simp only [execPwrfail, actWhen_next] at h
  subst h
  simp

/-! ## Kindling -/

@[simp] theorem k0_hide (s : State) (m_ : Nat) (h_ : m_ &&& 4718675 = 4718675) : (k0 s).hide m_ = s.hide m_ := by
  refine hide_mono h_ ?_
  simp [k0]
theorem execK0_hide (s : State) : ∀ u_, execK0 s = .next u_ → u_.hide 4718675 = s.hide 4718675 := by
  intro u_ h
  simp only [execK0, actWhen_next] at h
  subst h
  simp
@[simp] theorem takeSamples_hide (last : Sample) (b : Nat × Nat × Nat) (s : State) (m_ : Nat) (h_ : m_ &&& 1 = 1) : (takeSamples last b s).hide m_ = s.hide m_ := by
  refine hide_mono h_ ?_
  simp [takeSamples]
@[simp] theorem samplesFailed_hide (l : List Sample) (s : State) (m_ : Nat) (h_ : m_ &&& 81 = 81) : (samplesFailed l s).hide m_ = s.hide m_ := by
  refine hide_mono h_ ?_
  simp [samplesFailed]
theorem sampleSets_hide (ok : State → State) (l : List (List Sample)) (s : State) (m : Nat) (hm : m &&& 81 = 81) (h : ∀ s,
    (ok s).hide m = s.hide m) : (sampleSets ok l s).hide m = s.hide m := by
  induction l with
  | nil => rfl
  | cons a l ih =>
    unfold sampleSets
    split
    · rw [h, takeSamples_hide _ _ _ _ (mask_sub hm _ (by decide))]
    · split
      · exact samplesFailed_hide _ _ _ (mask_sub hm _ (by decide))
      · exact ih
theorem execK1_hide (sets : Vector (Vector Sample 8) 4) (s : State) : ∀ u_, execK1 sets s = .next u_ → u_.hide 81 = s.hide 81 := by
  intro u h
  unfold execK1 at h
  simp only [actWhen_next] at h; subst h
  split
  · exact sampleSets_hide _ _ _ _ (by decide) (fun s => endPhase_hide _ _ _ _ (by decide))
  · rfl
@[simp] theorem plugAbsent_hide (s : State) (m_ : Nat) (h_ : m_ &&& 81 = 81) : (plugAbsent s).hide m_ = s.hide m_ := by
  refine hide_mono h_ ?_
  simp [plugAbsent]
theorem execPlugAbsent_hide (s : State) : ∀ u_, execPlugAbsent s = .next u_ → u_.hide 81 = s.hide 81 := by
  intro u_ h
  simp only [execPlugAbsent, actWhen_next] at h
  subst h
  simp
@[simp] theorem k2_hide (fails : List (Nat × Nat)) (s : State) (m_ : Nat) (h_ : m_ &&& 1041 = 1041) : (k2 fails s).hide m_ = s.hide m_ := by
  refine hide_mono h_ ?_
  simp [k2]
theorem execK2_hide (fails : List (Nat × Nat)) (s : State) : ∀ u_, execK2 fails s = .next u_ → u_.hide 1041 = s.hide 1041 := by
  intro u_ h
  simp only [execK2, actWhen_next] at h
  subst h
  simp
@[simp] theorem k2Warm_hide (fails : List (Nat × Nat)) (s : State) (m_ : Nat) (h_ : m_ &&& 1041 = 1041) : (k2Warm fails s).hide m_ = s.hide m_ := by
  refine hide_mono h_ ?_
  simp [k2Warm]
@[simp] theorem takeIdent_hide (b : List Byte) (s : State) (m_ : Nat) (h_ : m_ &&& 16 = 16) : (takeIdent b s).hide m_ = s.hide m_ := by
  refine hide_mono h_ ?_
  simp [takeIdent]
@[simp] theorem putRepair_hide (k : Nat) (rows : List Nat) (s : State) (m_ : Nat) (h_ : m_ &&& 1 = 1) : (putRepair k rows s).hide m_ = s.hide m_ := by
  refine hide_mono h_ ?_
  simp [putRepair]
@[simp] theorem repairBanks_hide (map : List (Nat × Nat)) (x0 : List Nat) (s : State) (m_ : Nat) (h_ : m_ &&& 81 = 81) : (repairBanks map x0 s).2.hide m_ = s.hide m_ := by
  refine hide_mono h_ ?_
  clear h_
  induction x0 generalizing s map  <;> first | with_reducible rfl | (simp [repairBanks]; done) | (simp [repairBanks, *]; done) | (unfold repairBanks; (try dsimp only); (repeat' (first | with_reducible rfl | (simp; done) | (rw [State.each_hide]) | (rw [State.when_hide]) | (rw [State.foldl_hide]) | (refine upRequest_hide _ _ _ _ (by decide) ?_) | (refine downRequest_hide _ _ _ _ (by decide) ?_) | (intro _ _; (try dsimp only)) | (intro _; (try dsimp only)) | split)) <;> first | with_reducible rfl | (simp [*]; done) | (apply hide_congr <;> intro hb <;> first | rfl | exact absurd hb (by decide)) | grind [putRepair_hide]) | grind [repairBanks, putRepair_hide]
@[simp] theorem commitIdent_hide (c : Bool) (bytes : List Byte) (bad : Bool) (s : State) (m_ : Nat) (h_ : m_ &&& 75497537 = 75497537) : (commitIdent c bytes bad s).2.hide m_ = s.hide m_ := by
  refine hide_mono h_ ?_
  simp [commitIdent]
@[simp] theorem rewriteIdents_hide (force : Bool) (bytes : List Byte) (grown : Bool) (map : List (Nat × Nat)) (other : Bool) (bad : Bool → Bool) (s : State) (m_ : Nat) (h_ : m_ &&& 75497553 = 75497553) : (rewriteIdents force bytes grown map other bad s).hide m_ = s.hide m_ := by
  refine hide_mono h_ ?_
  simp [rewriteIdents]
@[simp] theorem k3_hide (warm : Bool) (bad : Bool → Bool) (s : State) (m_ : Nat) (h_ : m_ &&& 75497553 = 75497553) : (k3 warm bad s).hide m_ = s.hide m_ := by
  refine hide_mono h_ ?_
  unfold k3
  dsimp only
  repeat' split
  all_goals simp
theorem execK3_hide (bad : BitVec 2) (s : State) : ∀ u_, execK3 bad s = .next u_ → u_.hide 75497553 = s.hide 75497553 := by
  intro u_ h
  simp only [execK3, actWhen_next] at h
  subst h
  simp
@[simp] theorem showVerdict_hide (c : Bool) (v : Verdict) (s : State) (m_ : Nat) (h_ : m_ &&& 1 = 1) : (showVerdict c v s).hide m_ = s.hide m_ := by
  refine hide_mono h_ ?_
  simp [showVerdict]
@[simp] theorem refuseOther_hide (c : Bool) (s : State) (m_ : Nat) (h_ : m_ &&& 65 = 65) : (refuseOther c s).hide m_ = s.hide m_ := by
  refine hide_mono h_ ?_
  simp [refuseOther]
@[simp] theorem takeCopy_hide (c : Bool) (s : State) (m_ : Nat) (h_ : m_ &&& 17 = 17) : (takeCopy c s).hide m_ = s.hide m_ := by
  refine hide_mono h_ ?_
  simp [takeCopy]
@[simp] theorem k4_hide (s : State) (m_ : Nat) (h_ : m_ &&& 81 = 81) : (k4 s).2.hide m_ = s.hide m_ := by
  refine hide_mono h_ ?_
  unfold k4
  dsimp only
  repeat' split
  all_goals simp
@[simp] theorem imageNone_hide (s : State) (m_ : Nat) (h_ : m_ &&& 81 = 81) : (imageNone s).hide m_ = s.hide m_ := by
  refine hide_mono h_ ?_
  simp [imageNone]
theorem execK4_hide (s : State) : ∀ u_, execK4 s = .next u_ → u_.hide 81 = s.hide 81 := by
  intro u h
  unfold execK4 at h
  simp only [actWhen_next] at h; subst h
  split
  · have h1 := k4_hide s 81 (by decide)
    split
    · next h => rw [h] at h1; rw [imageNone_hide _ _ (by decide)]; exact h1
    · next h => rw [h] at h1; rw [endPhase_hide _ _ _ _ (by decide)]; exact h1
  · rfl

/-! ## Load -/

@[simp] theorem loadChannels_hide (s : State) (m_ : Nat) (h_ : m_ &&& 8209 = 8209) : (loadChannels s).hide m_ = s.hide m_ := by
  refine hide_mono h_ ?_
  simp [loadChannels]
@[simp] theorem loadWheel_hide (entry : Option (List Byte)) (w : Fin 8) (s : State) (m_ : Nat) (h_ : m_ &&& 1 = 1) : (loadWheel entry w s).hide m_ = s.hide m_ := by
  refine hide_mono h_ ?_
  unfold loadWheel
  dsimp only
  repeat' split
  all_goals simp
@[simp] theorem loadTeeth_hide (s : State) (m_ : Nat) (h_ : m_ &&& 1 = 1) : (loadTeeth s).hide m_ = s.hide m_ := by
  refine hide_mono h_ ?_
  unfold loadTeeth
  try dsimp only
  repeat' (first | (simp; done) | rw [State.each_hide] | rw [State.when_hide] | rw [State.foldl_hide] | (intro _ _; try dsimp only) | (intro _; try dsimp only) | split)
@[simp] theorem loadWheels_hide (s : State) (m_ : Nat) (h_ : m_ &&& 1 = 1) : (loadWheels s).hide m_ = s.hide m_ := by
  refine hide_mono h_ ?_
  simp [loadWheels]
@[simp] theorem loadData_hide (s : State) (m_ : Nat) (h_ : m_ &&& 17302657 = 17302657) : (loadData s).hide m_ = s.hide m_ := by
  have sub := mask_sub h_
  unfold loadData
  dsimp only
  rw [State.each_hide, takeTable_hide _ _ (sub _ (by decide)), State.modT_hide _ _ _ (sub _ (by decide)),
      State.modWork_hide _ _ _ (sub _ (by decide))]
  intro k s
  split
  · exact State.spmStore_hide _ _ _ _ (sub _ (by decide))
  · rfl
@[simp] theorem startScrub_hide (s : State) (m_ : Nat) (h_ : m_ &&& 256 = 256) : (startScrub s).hide m_ = s.hide m_ := by
  refine hide_mono h_ ?_
  simp [startScrub]
@[simp] theorem loadTables_hide (s : State) (m_ : Nat) (h_ : m_ &&& 18351553 = 18351553) : (loadTables s).hide m_ = s.hide m_ := by
  have sub := mask_sub h_
  unfold loadTables
  dsimp only
  rw [loadData_hide _ _ (sub _ (by decide)), loadPages_hide _ _ _ (sub _ (by decide)),
      loadTeeth_hide _ _ (sub _ (by decide)), loadWheels_hide _ _ (sub _ (by decide)),
      startScrub_hide _ _ (sub _ (by decide)), State.put_hide _ _ _ _ (sub _ (by decide))]
  split
  · exact loadMicrocode_hide _ _ _ _ _ (sub _ (by decide))
  · rfl
@[simp] theorem loadFailed_hide (k i : Nat) (s : State) (m_ : Nat) (h_ : m_ &&& 8273 = 8273) : (loadFailed k i s).hide m_ = s.hide m_ := by
  refine hide_mono h_ ?_
  simp [loadFailed]
theorem execK5_hide (bad : Option (Fin 64)) (s : State) : ∀ u_, execK5 bad s = .next u_ → u_.hide 85468625 = s.hide 85468625 := by
  intro u h
  unfold execK5 at h
  simp only [actWhen_next] at h; subst h
  split
  · split
    · exact loadFailed_hide _ _ _ _ (by decide)
    · rw [endPhase_hide _ _ _ _ (by decide), rebuildWork_hide _ _ (by decide), loadTables_hide _ _ (by decide),
        loadChannels_hide _ _ (by decide)]
  · rfl
@[simp] theorem endK6_hide (s : State) (m_ : Nat) (h_ : m_ &&& 17 = 17) : (endK6 s).hide m_ = s.hide m_ := by
  refine hide_mono h_ ?_
  simp [endK6]
@[simp] theorem startTask_hide (b : List Byte) (i : Fin 64) (s : State) (m_ : Nat) (h_ : m_ &&& 257 = 257) : (startTask b i s).hide m_ = s.hide m_ := by
  refine hide_mono h_ ?_
  simp [startTask]
@[simp] theorem startTasks_hide (s : State) (m_ : Nat) (h_ : m_ &&& 257 = 257) : (startTasks s).hide m_ = s.hide m_ := by
  refine hide_mono h_ ?_
  simp [startTasks]
@[simp] theorem queueStart_hide (s : State) (m_ : Nat) (h_ : m_ &&& 4289 = 4289) : (queueStart s).hide m_ = s.hide m_ := by
  refine hide_mono h_ ?_
  simp [queueStart]
@[simp] theorem startRecord_hide (s : State) (m_ : Nat) (h_ : m_ &&& 8388608 = 8388608) : (startRecord s).hide m_ = s.hide m_ := by
  refine hide_mono h_ ?_
  simp [startRecord]
@[simp] theorem setNowAll_hide (s : State) (m_ : Nat) (h_ : m_ &&& 139393 = 139393) : (setNowAll s).hide m_ = s.hide m_ := by
  refine hide_mono h_ ?_
  simp [setNowAll]
theorem enterK8_hide (wheels : State → State) (setNow again : Bool) (s : State) (m_ : Nat) (h_ :
    m_ &&& 58865617 = 58865617) (hw : ∀ s, (wheels s).hide m_ = s.hide m_) :
    (enterK8 wheels setNow again s).hide m_ = s.hide m_ := by
  have sub := mask_sub h_
  clear h_
  unfold enterK8
  dsimp only
  have h1 : (wheels (chanK8 (startTasks (releaseEmbers (s.modNode fun x => { x with phase := .k8, phaseAt := s.cycles }))))).hide m_ = s.hide m_ := by
    rw [hw, chanK8_hide _ _ (sub _ (by decide)), startTasks_hide _ _ (sub _ (by decide)),
        releaseEmbers_hide _ _ (sub _ (by decide)), State.modNode_hide _ _ _ (sub _ (by decide))]
  generalize wheels _ = s1 at h1 ⊢
  rw [queueStart_hide _ _ (sub _ (by decide)), startDist_hide _ _ (sub _ (by decide))]
  have h2 : (if setNow = true then setNowAll s1 else s1).hide m_ = s.hide m_ := by
    split
    · rw [setNowAll_hide _ _ (sub _ (by decide))]; exact h1
    · exact h1
  generalize (if setNow = true then setNowAll s1 else s1) = s2 at h2 ⊢
  have h3 : (if again = true then offerCustody (reapply s2) else s2).hide m_ = s.hide m_ := by
    split
    · rw [offerCustody_hide _ _ (sub _ (by decide)), reapply_hide _ _ (sub _ (by decide))]; exact h2
    · exact h2
  generalize (if again = true then offerCustody (reapply s2) else s2) = s3 at h3 ⊢
  split
  · rw [startRecord_hide _ _ (sub _ (by decide))]; exact h3
  · exact h3
@[simp] theorem warmWheels_hide (s : State) (m_ : Nat) (h_ : m_ &&& 41153 = 41153) : (warmWheels s).hide m_ = s.hide m_ := by
  refine hide_mono h_ ?_
  simp [warmWheels]
@[simp] theorem warmChannel_hide (b : List Byte) (c : Fin 64) (s : State) (m_ : Nat) (h_ : m_ &&& 8385 = 8385) : (warmChannel b c s).hide m_ = s.hide m_ := by
  refine hide_mono h_ ?_
  simp [warmChannel]
@[simp] theorem warmTables_hide (s : State) (m_ : Nat) (h_ : m_ &&& 17311169 = 17311169) : (warmTables s).hide m_ = s.hide m_ := by
  have sub := mask_sub h_
  unfold warmTables
  dsimp only
  rw [loadData_hide _ _ (sub _ (by decide)), startScrub_hide _ _ (sub _ (by decide)), State.each_hide]
  intro c s
  exact warmChannel_hide _ _ _ _ (sub _ (by decide))
@[simp] theorem resetRegs_hide (p : Nat → Bool) (s : State) (m_ : Nat) (h_ : m_ &&& 1 = 1) :
    (resetRegs p s).hide m_ = s.hide m_ := hide_regs _ _ _ h_
@[simp] theorem warmK0_hide (s : State) (m_ : Nat) (h_ : m_ &&& 109121497 = 109121497) : (warmK0 s).hide m_ = s.hide m_ := by
  have sub := mask_sub h_
  unfold warmK0
  dsimp only
  rw [State.modNode_hide _ _ _ (sub _ (by decide)), clearChunks_hide _ _ (sub _ (by decide)),
      State.modDist_hide _ _ _ (sub _ (by decide)), State.put_hide _ _ _ _ (sub _ (by decide)),
      State.put_hide _ _ _ _ (sub _ (by decide)), geyserClear_hide _ _ (sub _ (by decide)),
      resetHearth_hide _ _ (sub _ (by decide))]
  have h1 : ((resetRegs warmResets (abortTransfer (rewriteCommit s.inactive 0x3C3CA5A5 0 s))).put F.HRT_SWAP_ACTIVE_PAGE
      ((rewriteCommit s.inactive 0x3C3CA5A5 0 s).get F.HRT_SWAP_ACTIVE_PAGE)).hide m_ = s.hide m_ := by
    rw [State.put_hide _ _ _ _ (sub _ (by decide)), resetRegs_hide _ _ _ (sub _ (by decide)),
        abortTransfer_hide _ _ (sub _ (by decide)), rewriteCommit_hide _ _ _ _ _ (sub _ (by decide))]
  generalize State.put _ _ _ = s1 at h1 ⊢
  rw [← h1]
  refine hide_mono (sub 65736 (by decide)) ?_
  apply hide_congr <;> intro hb <;> first | rfl | exact absurd hb (by decide)
@[simp] theorem warmFailed_hide (activated : Bool) (index : Nat) (s : State) (m_ : Nat) (h_ : m_ &&& 133955577 = 133955577) : (warmFailed activated index s).hide m_ = s.hide m_ := by
  refine hide_mono h_ ?_
  simp [warmFailed]
@[simp] theorem warmK6_hide (changed : Bool) (s : State) (m_ : Nat) (h_ : m_ &&& 139473 = 139473) : (warmK6 changed s).hide m_ = s.hide m_ := by
  refine hide_mono h_ ?_
  simp [warmK6]
@[simp] theorem warmK8_hide (s : State) (m_ : Nat) (h_ : m_ &&& 58898385 = 58898385) : (warmK8 s).hide m_ = s.hide m_ := by
  unfold warmK8
  exact enterK8_hide _ _ _ _ _ (mask_sub h_ _ (by decide)) (fun s => warmWheels_hide _ _ (mask_sub h_ _ (by decide)))
@[simp] theorem warmRun_hide (fails : List (Nat × Nat)) (rewriteBad : BitVec 2) (bad : Option (Fin 64)) (s : State) (m_ :
    Nat) (h_ : m_ &&& 133955577 = 133955577) : (warmRun fails rewriteBad bad s).hide m_ = s.hide m_ := by
  have sub := mask_sub h_
  clear h_
  unfold warmRun
  dsimp only
  have h1 : (k3 true (fun c => rewriteBad.getLsbD c.toNat) (endPhase F.KIN_TIME1_END_K2 .k3 (k2Warm fails
      (endPhase F.KIN_TIME0_END_K0 .k2 s)))).hide m_ = s.hide m_ := by
    rw [k3_hide _ _ _ _ (sub _ (by decide)), endPhase_hide _ _ _ _ (sub _ (by decide)),
        k2Warm_hide _ _ _ (sub _ (by decide)), endPhase_hide _ _ _ _ (sub _ (by decide))]
  generalize k3 _ _ _ = s1 at h1 ⊢
  split
  · exact h1
  · have h2 := (k4_hide (endPhase F.KIN_TIME1_END_K3 .k4 s1) m_ (sub _ (by decide))).trans ((endPhase_hide _ _ _ _ (sub _ (by decide))).trans h1)
    have fail : ∀ (a : Bool) (i : Nat) (t : State), t.hide m_ = s.hide m_ → (warmFailed a i t).hide m_ = s.hide m_ :=
      fun a i t ht => (warmFailed_hide a i t m_ (sub _ (by decide))).trans ht
    split
    · next c s2 h =>
      rw [h] at h2
      dsimp only at h2
      split
      · exact fail _ _ _ h2
      · split
        · exact fail _ _ _ h2
        · split
          · exact fail _ _ _ h2
          · have h3 : ∀ b, (warmK6 b (endPhase F.KIN_TIME2_END_K5 .k6 (warmTables (endPhase F.KIN_TIME2_END_K4 .k5 s2)))).hide m_ = s.hide m_ := by
              intro b
              rw [warmK6_hide _ _ _ (sub _ (by decide)), endPhase_hide _ _ _ _ (sub _ (by decide)),
                  warmTables_hide _ _ (sub _ (by decide)), endPhase_hide _ _ _ _ (sub _ (by decide))]; exact h2
            generalize (warmTables (endPhase F.KIN_TIME2_END_K4 .k5 s2)).hvConfig = cfg
            have h3 := h3 (cfg != s2.hvConfig)
            generalize warmK6 _ _ = s3 at h3 ⊢
            split
            · exact h3
            · rw [warmK8_hide _ _ (sub _ (by decide))]; exact h3
    · next s2 h =>
      rw [h] at h2
      exact fail _ _ _ h2
theorem execWarmRestart_hide (fails : List (Nat × Nat)) (rewriteBad : BitVec 2) (bad : Option (Fin 64)) (s : State) : ∀ u_, execWarmRestart fails rewriteBad bad s = .next u_ → u_.hide 133955577 = s.hide 133955577 := by
  intro u h
  unfold execWarmRestart at h
  simp only [actWhen_next] at h; subst h
  split
  · rw [warmRun_hide _ _ _ _ _ (by decide), warmK0_hide _ _ (by decide)]
  · rfl
theorem execK6_hide (s : State) : ∀ u_, execK6 s = .next u_ → u_.hide 58898385 = s.hide 58898385 := by
  intro u h
  unfold execK6 at h
  simp only [actWhen_next] at h; subst h
  split
  · split
    · split
      · rw [warmK8_hide _ _ (by decide), endPhase_hide _ _ _ _ (by decide)]
      · rfl
    · split
      · rfl
      · split
        · exact endK6_hide _ _ (by decide)
        · split
          · exact sendHello_hide _ _ (by decide)
          · rfl
  · rfl
theorem execMfeAbsent_hide (s : State) : ∀ u_, execMfeAbsent s = .next u_ → u_.hide 81 = s.hide 81 := by
  intro u_ h
  simp only [execMfeAbsent, actWhen_next] at h
  subst h
  simp
@[simp] theorem k7_hide (s : State) (m_ : Nat) (h_ : m_ &&& 4194481 = 4194481) : (k7 s).hide m_ = s.hide m_ := by
  refine hide_mono h_ ?_
  simp [k7]
theorem execK7_hide (s : State) : ∀ u_, execK7 s = .next u_ → u_.hide 4194481 = s.hide 4194481 := by
  intro u_ h
  simp only [execK7, actWhen_next] at h
  subst h
  simp
theorem execK8_hide (s : State) : ∀ u_, execK8 s = .next u_ → u_.hide 58898385 = s.hide 58898385 := by
  intro u h
  unfold execK8 at h
  simp only [actWhen_next] at h; subst h
  split
  · rw [enterK8_hide _ _ _ _ _ (by decide) (fun s => wheelK8_hide _ _ (by decide)), endPhase_hide _ _ _ _ (by decide),
      State.putBit_hide _ _ _ _ (by decide)]
  · rfl

/-! ## Sinter -/

@[simp] theorem bypassFirst_hide (s : State) (m_ : Nat) (h_ : m_ &&& 4194337 = 4194337) : (bypassFirst s).hide m_ = s.hide m_ := by
  refine hide_mono h_ ?_
  simp [bypassFirst]
@[simp] theorem calderaBeforeFreeze_hide (s : State) (m_ : Nat) (h_ : m_ &&& 37882641 = 37882641) : (calderaBeforeFreeze s).hide m_ = s.hide m_ := by
  refine hide_mono h_ ?_
  unfold calderaBeforeFreeze
  repeat' split
  all_goals simp
@[simp] theorem freezeNode_hide (s : State) (m_ : Nat) (h_ : m_ &&& 37882673 = 37882673) : (freezeNode s).hide m_ = s.hide m_ := by
  refine hide_mono h_ ?_
  simp [freezeNode]
theorem execFreeze_hide (s : State) : ∀ u_, execFreeze s = .next u_ → u_.hide 37882673 = s.hide 37882673 := by
  intro u_ h
  simp only [execFreeze, actWhen_next] at h
  subst h
  simp
@[simp] theorem tapInstruction_hide (op : BitVec 8) (s : State) (m_ : Nat) (h_ : m_ &&& 16 = 16) : (tapInstruction op s).hide m_ = s.hide m_ := by
  refine hide_mono h_ ?_
  simp [tapInstruction]
theorem execSinterResume_hide (frzHigh : Bool) (s : State) : ∀ u_, execSinterResume frzHigh s = .next u_ → u_.hide 133955577 = s.hide 133955577 := by
  intro u_ h
  cases h
  simp
@[simp] theorem sinterCapture_hide (s : State) (m_ : Nat) (h_ : m_ &&& 16 = 16) : (sinterCapture s).hide m_ = s.hide m_ := by
  refine hide_mono h_ ?_
  simp [sinterCapture]
theorem execSinterRead_hide (seg word : BitVec 16) (s : State) : ∀ u_, execSinterRead seg word s = .next u_ → u_.hide 16 = s.hide 16 := by
  intro u_ h
  cases h
  simp
@[simp] theorem memaccFail_hide (write uncorr off : Bool) (addr : BitVec 20) (data : BitVec 64) (s : State) (m_ : Nat) (h_ : m_ &&& 67108880 = 67108880) : (memaccFail write uncorr off addr data s).hide m_ = s.hide m_ := by
  refine hide_mono h_ ?_
  simp [memaccFail]
@[simp] theorem memaccAccess_hide (write : Bool) (addr : BitVec 20) (data : BitVec 64) (s : State) (m_ : Nat) (h_ : m_ &&& 67109904 = 67109904) : (memaccAccess write addr data s).hide m_ = s.hide m_ := by
  refine hide_mono h_ ?_
  unfold memaccAccess
  dsimp only
  repeat' split
  all_goals simp
theorem execMemacc_hide (write : Bool) (addr : BitVec 20) (data : BitVec 64) (s : State) : ∀ u_, execMemacc write addr data s = .next u_ → u_.hide 67109904 = s.hide 67109904 := by
  intro u_ h
  cases h
  simp
@[simp] theorem boundaryScan_hide (pins shift : BitVec 149) (s : State) (m_ : Nat) (h_ : m_ &&& 16 = 16) : (boundaryScan pins shift s).hide m_ = s.hide m_ := by
  refine hide_mono h_ ?_
  simp [boundaryScan]
theorem execExtest_hide (pins shift : BitVec 149) (s : State) : ∀ u_, execExtest pins shift s = .next u_ → u_.hide 16 = s.hide 16 := by
  intro u_ h
  cases h
  simp
theorem execSamplePreload_hide (pins shift : BitVec 149) (s : State) : ∀ u_, execSamplePreload pins shift s = .next u_ → u_.hide 16 = s.hide 16 := by
  intro u_ h
  cases h
  simp
theorem execBypass_hide (s : State) : ∀ u_, execBypass s = .next u_ → u_.hide 16 = s.hide 16 := by
  intro u_ h
  cases h
  simp

/-! ## Tick -/

@[simp] theorem tickRtc_hide (s : State) (m_ : Nat) (h_ : m_ &&& 524288 = 524288) : (tickRtc s).hide m_ = s.hide m_ := by
  refine hide_mono h_ ?_
  simp [tickRtc]
@[simp] theorem tickMfe_hide (s : State) (m_ : Nat) (h_ : m_ &&& 262144 = 262144) : (tickMfe s).hide m_ = s.hide m_ := by
  refine hide_mono h_ ?_
  simp [tickMfe]
@[simp] theorem tickEmber_hide (e : Fin 4) (s : State) (m_ : Nat) (h_ : m_ &&& 513 = 513) : (tickEmber e s).hide m_ = s.hide m_ := by
  refine hide_mono h_ ?_
  simp [tickEmber]
@[simp] theorem tickPending_hide (s : State) (m_ : Nat) (h_ : m_ &&& 64 = 64) : (tickPending s).hide m_ = s.hide m_ := by
  refine hide_mono h_ ?_
  simp [tickPending]
@[simp] theorem tickGeyser_hide (s : State) (m_ : Nat) (h_ : m_ &&& 2048 = 2048) : (tickGeyser s).hide m_ = s.hide m_ := by
  refine hide_mono h_ ?_
  simp [tickGeyser]
@[simp] theorem tickTime_hide (s : State) (m_ : Nat) (h_ : m_ &&& 6 = 6) : (tickTime s).hide m_ = s.hide m_ := by
  refine hide_mono h_ ?_
  unfold tickTime
  dsimp only
  repeat' split
  all_goals first | rfl | simp
@[simp] theorem tickOutside_hide (s : State) (m_ : Nat) (h_ : m_ &&& 67108881 = 67108881) : (tickOutside s).hide m_ = s.hide m_ := by
  refine hide_mono h_ ?_
  simp [tickOutside]
@[simp] theorem tickPower_hide (s : State) (m_ : Nat) (h_ : m_ &&& 16 = 16) : (tickPower s).hide m_ = s.hide m_ := by
  refine hide_mono h_ ?_
  simp [tickPower]
@[simp] theorem tick_hide (s : State) (m_ : Nat) (h_ : m_ &&& 67898967 = 67898967) : (tick s).hide m_ = s.hide m_ := by
  refine hide_mono h_ ?_
  simp [tick]

end Sys2Proof.Machine
end

