-- ==== Sys2Proof/Laws/Memory.lean ====
section
/-! SUPPORT. Every memory operation keeps the canonical form of the memory it writes, and what a byte reads as after it:
scratchpad, plug, connection memory, control store, registers. -/

set_option linter.all false

namespace Sys2Proof.Machine

open Safety

section tables
variable {α : Type} [DecidableEq α]

/-- Keys that rise, each at least `lo`. -/
theorem tabRising_append {lo : Option Nat} {a b : List (Nat × α)} (ha : tabRising lo a = true)
    (hb : tabRising lo b = true) (h : ∀ x ∈ a, ∀ y ∈ b, x.1 < y.1) : tabRising lo (a ++ b) = true := by
  induction a generalizing lo with
  | nil => exact hb
  | cons e a ih =>
    rw [List.cons_append]
    unfold tabRising at ha ⊢
    rw [Bool.and_eq_true] at ha ⊢
    refine ⟨ha.1, ih ha.2 ?_ fun x hx y hy => h x (by simp [hx]) y hy⟩
    cases b with
    | nil => rfl
    | cons f b =>
      unfold tabRising at hb ⊢
      rw [Bool.and_eq_true] at hb ⊢
      exact ⟨by simpa using h e (by simp) f (by simp), hb.2⟩

/-- The keys of a run rise from its first. -/
theorem tabRising_zipIdx (vs : List α) (k : Nat) : ∀ lo : Option Nat, (∀ l, lo = some l → l < k) →
    tabRising lo ((vs.zipIdx k).map fun p => (p.2, p.1)) = true := by
  induction vs generalizing k with
  | nil => intro lo _; rfl
  | cons v vs ih =>
    intro lo h
    rw [List.zipIdx_cons, List.map_cons]
    unfold tabRising
    rw [Bool.and_eq_true]
    constructor
    · cases lo with
      | none => rfl
      | some l => simpa using h l rfl
    · apply ih
      intro l hl
      injection hl with hl
      omega

theorem zipIdx_range {vs : List α} {k : Nat} {x : Nat × α} (h : x ∈ (vs.zipIdx k).map fun p => (p.2, p.1)) :
    k ≤ x.1 ∧ x.1 < k + vs.length := by
  obtain ⟨p, hp, rfl⟩ := List.mem_map.1 h
  have := List.mem_zipIdx hp
  exact ⟨this.1, by omega⟩

/-- A splice keeps the canonical form. -/
theorem tabWf_splice (d : α) {t : List (Nat × α)} (lo : Nat) (vs : List α) (h : tabWf d t = true) :
    tabWf d (tabSplice d t lo vs) = true := by
  unfold tabWf at h ⊢
  rw [Bool.and_eq_true] at h ⊢
  unfold tabSplice
  constructor
  · refine tabRising_append (tabRising_append (tabRising_filter _ h.1)
      (tabRising_filter _ (tabRising_zipIdx vs lo none (by simp))) ?_) (tabRising_filter _ h.1) ?_
    · intro x hx y hy
      have h1 := (List.mem_filter.1 hx).2
      have h2 := zipIdx_range (List.mem_filter.1 hy).1
      simp only [decide_eq_true_eq] at h1
      omega
    · intro x hx y hy
      have h2 := (List.mem_filter.1 hy).2
      simp only [decide_eq_true_eq] at h2
      rcases List.mem_append.1 hx with hx | hx
      · have h1 := (List.mem_filter.1 hx).2
        simp only [decide_eq_true_eq] at h1
        omega
      · have h1 := zipIdx_range (List.mem_filter.1 hx).1
        omega
  · have ht := List.all_eq_true.1 h.2
    rw [List.all_eq_true]
    intro e he
    rcases List.mem_append.1 he with he | he
    · rcases List.mem_append.1 he with he | he
      · exact ht e (List.mem_filter.1 he).1
      · exact (List.mem_filter.1 he).2
    · exact ht e (List.mem_filter.1 he).1

/-- A fold of writes, some of them left out, keeps the canonical form. -/
theorem tabWf_foldl (d : α) {β : Type} (l : List β) (c : β → Prop) [DecidablePred c] (k : β → Nat) (v : β → α)
    {t : List (Nat × α)} (h : tabWf d t = true) :
    tabWf d (l.foldl (fun t e => if c e then tabSet d t (k e) (v e) else t) t) = true := by
  induction l generalizing t with
  | nil => exact h
  | cons e l ih =>
    rw [List.foldl_cons]
    apply ih
    split
    · exact tabWf_set d _ _ h
    · exact h

theorem tabWf_foldl_set (d : α) {β : Type} (l : List β) (k : β → Nat) (v : β → α)
    {t : List (Nat × α)} (h : tabWf d t = true) :
    tabWf d (l.foldl (fun t e => tabSet d t (k e) (v e)) t) = true := by
  induction l generalizing t with
  | nil => exact h
  | cons e l ih => exact ih (tabWf_set d _ _ h)

end tables

/-! ## Memories of the node -/

/-- At reset nothing is listed. -/
theorem reset_memoriesOk : memoriesOk State.reset := ⟨rfl, rfl, rfl⟩

/-- What touches none of the parts that hold the memories keeps their form. -/
theorem memoriesOk_of_only {l : List Part} {s t : State} (h : only l s t) (hs : Part.spm ∉ l) (hp : Part.plug ∉ l)
    (hc : Part.tsi ∉ l) (hm : memoriesOk s) : memoriesOk t := by
  have h1 := h _ hs
  have h2 := h _ hp
  have h3 := h _ hc
  simp only [same] at h1 h2 h3
  unfold memoriesOk at hm ⊢
  rw [h1, h2, h3]
  exact hm

/-- A scratchpad store. -/
theorem spmStore_memoriesOk (p : Nat) (bs : List Byte) {s : State} (h : memoriesOk s) : memoriesOk (s.spmStore p bs) :=
  ⟨tabWf_setRun 0 bs p h.1, h.2⟩

/-- A bank cleared. -/
theorem clearBank_memoriesOk (b : Nat) {s : State} (h : memoriesOk s) : memoriesOk (s.clearBank b) :=
  ⟨tabWf_clear 0 _ _ h.1, h.2⟩

/-- A bank left with no defined content. -/
theorem undefineBank_memoriesOk (b reached : Nat) {s : State} (h : memoriesOk s) : memoriesOk (s.undefineBank b reached) :=
  ⟨tabWf_splice 0 _ _ h.1, h.2⟩

/-- A plug WRITE. -/
theorem writePlug_memoriesOk (a : Nat) (bs : List Byte) {s : State} (h : memoriesOk s) : memoriesOk (writePlug a bs s) := by
  unfold writePlug
  split
  · exact ⟨h.1, tabWf_setRun 0 bs a h.2.1, h.2.2⟩
  · exact h

/-- A page of connection memory replaced. -/
theorem setPage_memoriesOk (page : Bool) (entries : List (Nat × Word)) {s : State} (h : memoriesOk s) :
    memoriesOk (setPage page entries s) :=
  ⟨h.1, h.2.1, tabWf_foldl_set 0 entries _ _ (tabWf_filter 0 _ h.2.2)⟩

/-- CM_ENTRY_BAD touches no memory. -/
theorem noteBad_memoriesOk (port slot : Nat) (w : Word) {u : State} (hm : memoriesOk u) : memoriesOk (noteBad port slot w u) := by
  unfold noteBad
  split
  · obtain ⟨_, _, _, _, _, _, _, _, _, _, hspm, _, _, _, _, _, _, _, _, _, htsi, _, _, hplug, _⟩ :=
      hide_parts (State.raise_hide { src := 0x10, kind := kPROTOCOL, cls := corrected, reason := 0x03, detail := BitVec.ofNat 24 (port + 256 * slot), injected := false }
        (u.modTsi fun t => { t with badRaised := true }) 65 (by decide))
    unfold memoriesOk tsiFault
    rw [hspm (by decide), htsi (by decide), hplug (by decide)]
    exact hm
  · exact hm

/-- An entry of connection memory written. -/
theorem putEntry_memoriesOk (page : Bool) (port slot : Nat) (w : Word) {s : State} (h : memoriesOk s) :
    memoriesOk (putEntry page port slot w s) := by
  refine noteBad_memoriesOk port slot w ?_
  exact ⟨h.1, h.2.1, tabWf_set 0 _ _ h.2.2⟩

/-- What a programmer or an inserted plug brings. -/
theorem patch_wf (l : List (Nat × Byte)) {t : List (Nat × Byte)} (h : tabWf 0 t = true) :
    tabWf 0 (l.foldl (fun t e => if e.1 < 0x100000 then tabSet 0 t e.1 e.2 else t) t) = true :=
  tabWf_foldl 0 l (fun e => e.1 < 0x100000) Prod.fst Prod.snd h

/-- A register word or field written. -/
theorem put_regs_wf (f : Field) (v : Nat) {s : State} (h : tabWf 0 s.regs = true) : tabWf 0 (s.put f v).regs = true :=
  tabWf_set 0 _ _ h

theorem putReg_regs_wf (a : Nat) (w : Word) {s : State} (h : tabWf 0 s.regs = true) : tabWf 0 (s.putReg a w).regs = true :=
  tabWf_set 0 _ _ h

/-- Microcode loaded into a page of the control store. -/
theorem loadPage_wf (k : Nat) (ws : List (BitVec 96)) {s : State} (h : tabWf 0 s.hrt.cs = true) :
    tabWf 0 (tabSplice 0 s.hrt.cs k ws) = true :=
  tabWf_splice 0 k ws h

end Sys2Proof.Machine
end

