-- ==== Sys2Proof/Laws/Node.lean ====
section
/-! SUPPORT. The part of the node that Safety.nodeOk speaks of, and what the operations of the power monitor, the resets,
Kindling, Caldera and freeze make of it. -/

set_option maxRecDepth 100000
set_option linter.all false

namespace Sys2Proof.Machine
open Safety

theorem node_of_hide {s t : State} (h : t.hide 268435439 = s.hide 268435439) : t.node = s.node :=
  (hide_parts h).2.2.2.2.1 (by decide)
@[simp] theorem State.put_node (f : Field) (v : Nat) (s : State) : (State.put f v s).node = s.node :=
  node_of_hide (State.put_hide _ _ _ _ (by decide))
@[simp] theorem State.putBit_node (f : Field) (b : Bool) (s : State) : (State.putBit f b s).node = s.node :=
  node_of_hide (State.putBit_hide _ _ _ _ (by decide))
@[simp] theorem State.interrupt_node (src : Nat) (s : State) : (State.interrupt src s).node = s.node :=
  node_of_hide (State.interrupt_hide _ _ _ (by decide))
@[simp] theorem State.raise_node (f : FaultSpec) (s : State) : (State.raise f s).node = s.node :=
  node_of_hide (State.raise_hide _ _ _ (by decide))
@[simp] theorem State.draw_node (s : State) : (State.draw s).2.node = s.node :=
  node_of_hide (State.draw_hide _ _ (by decide))
@[simp] theorem State.spmStore_node (p : Nat) (bs : List Byte) (s : State) : (State.spmStore p bs s).node = s.node :=
  node_of_hide (State.spmStore_hide _ _ _ _ (by decide))
@[simp] theorem State.clearBank_node (b : Nat) (s : State) : (State.clearBank b s).node = s.node :=
  node_of_hide (State.clearBank_hide _ _ _ (by decide))
@[simp] theorem State.setOn_node (b : Nat) (on : Bool) (s : State) : (State.setOn b on s).node = s.node :=
  node_of_hide (State.setOn_hide _ _ _ _ (by decide))
@[simp] theorem geyserClear_node (s : State) : (geyserClear s).node = s.node :=
  node_of_hide (geyserClear_hide _ _ (by decide))
@[simp] theorem geyserHalt_node (s : State) : (geyserHalt s).node = s.node :=
  node_of_hide (geyserHalt_hide _ _ (by decide))
@[simp] theorem haltEmbers_node (s : State) : (haltEmbers s).node = s.node :=
  node_of_hide (haltEmbers_hide _ _ (by decide))
@[simp] theorem releaseEmbers_node (s : State) : (releaseEmbers s).node = s.node :=
  node_of_hide (releaseEmbers_hide _ _ (by decide))
@[simp] theorem resetHearth_node (s : State) : (resetHearth s).node = s.node :=
  node_of_hide (resetHearth_hide _ _ (by decide))
@[simp] theorem State.setBar_node (b : Barrier) (s : State) : (State.setBar b s).node = s.node :=
  node_of_hide (State.setBar_hide _ _ _ (by decide))
@[simp] theorem loadChannel_node (c : Fin 64) (b : List Byte) (s : State) : (loadChannel c b s).node = s.node :=
  node_of_hide (loadChannel_hide _ _ _ _ (by decide))
@[simp] theorem chanK8_node (s : State) : (chanK8 s).node = s.node :=
  node_of_hide (chanK8_hide _ _ (by decide))
@[simp] theorem wheelK8_node (s : State) : (wheelK8 s).node = s.node :=
  node_of_hide (wheelK8_hide _ _ (by decide))
@[simp] theorem sendHello_node (s : State) : (sendHello s).node = s.node :=
  node_of_hide (sendHello_hide _ _ (by decide))
@[simp] theorem sendConfig_node (i : Nat) (s : State) : (sendConfig i s).node = s.node :=
  node_of_hide (sendConfig_hide _ _ _ (by decide))
@[simp] theorem decideRom_node (versions : List Byte) (s : State) : (decideRom versions s).node = s.node :=
  node_of_hide (decideRom_hide _ _ _ (by decide))
@[simp] theorem sendFailnow_node (s : State) : (sendFailnow s).node = s.node :=
  node_of_hide (sendFailnow_hide _ _ (by decide))
@[simp] theorem State.modRing_node (f : Ring → Ring) (s : State) : (State.modRing f s).node = s.node :=
  node_of_hide (State.modRing_hide _ _ _ (by decide))
@[simp] theorem resetBins_node (c : Int) (s : State) : (resetBins c s).node = s.node :=
  node_of_hide (resetBins_hide _ _ _ (by decide))
@[simp] theorem enableDrops_node (s : State) : (enableDrops s).node = s.node :=
  node_of_hide (enableDrops_hide _ _ (by decide))
@[simp] theorem State.modT_node (f : TimeUnit → TimeUnit) (s : State) : (State.modT f s).node = s.node :=
  node_of_hide (State.modT_hide _ _ _ (by decide))
@[simp] theorem timeFault_node (kind : BitVec 5) (reason : BitVec 8) (detail : BitVec 24) (s : State) : (timeFault kind reason detail s).node = s.node :=
  node_of_hide (timeFault_hide _ _ _ _ _ (by decide))
@[simp] theorem timeResume_node (s : State) : (timeResume s).node = s.node :=
  node_of_hide (timeResume_hide _ _ (by decide))
@[simp] theorem clockFault_node (kind : BitVec 5) (cls : BitVec 2) (reason : BitVec 8) (s : State) : (clockFault kind cls reason s).node = s.node :=
  node_of_hide (clockFault_hide _ _ _ _ _ (by decide))
@[simp] theorem setLine_node (p : Fin 4) (st : Nat) (s : State) : (setLine p st s).node = s.node :=
  node_of_hide (setLine_hide _ _ _ _ (by decide))
@[simp] theorem setInsert_node (n : Nat) (s : State) : (setInsert n s).node = s.node :=
  node_of_hide (setInsert_hide _ _ _ (by decide))
@[simp] theorem switchBypassed_node (s : State) : (switchBypassed s).node = s.node :=
  node_of_hide (switchBypassed_hide _ _ (by decide))
@[simp] theorem stopOriginating_node (s : State) : (stopOriginating s).node = s.node :=
  node_of_hide (stopOriginating_hide _ _ (by decide))
@[simp] theorem rebuildWork_node (s : State) : (rebuildWork s).node = s.node :=
  node_of_hide (rebuildWork_hide _ _ (by decide))
@[simp] theorem offerCustody_node (s : State) : (offerCustody s).node = s.node :=
  node_of_hide (offerCustody_hide _ _ (by decide))
@[simp] theorem reapply_node (s : State) : (reapply s).node = s.node :=
  node_of_hide (reapply_hide _ _ (by decide))
@[simp] theorem State.modDist_node (f : Dist → Dist) (s : State) : (State.modDist f s).node = s.node :=
  node_of_hide (State.modDist_hide _ _ _ (by decide))
@[simp] theorem preload_node (s : State) : (preload s).node = s.node :=
  node_of_hide (preload_hide _ _ (by decide))
@[simp] theorem endDrain_node (s : State) : (endDrain s).node = s.node :=
  node_of_hide (endDrain_hide _ _ (by decide))
@[simp] theorem startDist_node (s : State) : (startDist s).node = s.node :=
  node_of_hide (startDist_hide _ _ (by decide))
@[simp] theorem abortTransfer_node (s : State) : (abortTransfer s).node = s.node :=
  node_of_hide (abortTransfer_hide _ _ (by decide))
@[simp] theorem shutdownRecord_node (cause : Byte) (time : SysTime) (done : Nat) (s : State) : (shutdownRecord cause time done s).node = s.node :=
  node_of_hide (shutdownRecord_hide _ _ _ _ _ (by decide))
@[simp] theorem kinFault_node (kind : BitVec 5) (cls : BitVec 2) (reason : BitVec 8) (detail : BitVec 24) (s : State) : (kinFault kind cls reason detail s).node = s.node :=
  node_of_hide (kinFault_hide _ _ _ _ _ _ (by decide))
@[simp] theorem retrainPort_node (p : Fin 4) (s : State) : (retrainPort p s).node = s.node :=
  node_of_hide (retrainPort_hide _ _ _ (by decide))
@[simp] theorem drainBuffer_node (e : Fin 4) (s : State) : (drainBuffer e s).node = s.node :=
  node_of_hide (drainBuffer_hide _ _ _ (by decide))
@[simp] theorem completeRecords_node (s : State) : (completeRecords s).2.node = s.node :=
  node_of_hide (completeRecords_hide _ _ (by decide))
@[simp] theorem setLeaving_node (s : State) : (setLeaving s).node = s.node :=
  node_of_hide (setLeaving_hide _ _ (by decide))
@[simp] theorem writeCapture_node (bad : Bool) (at_ : SysTime) (s : State) : (writeCapture bad at_ s).node = s.node :=
  node_of_hide (writeCapture_hide _ _ _ _ (by decide))
@[simp] theorem calderaHalt_node (s : State) : (calderaHalt s).node = s.node :=
  node_of_hide (calderaHalt_hide _ _ (by decide))
@[simp] theorem keepFirst_node (s r : State) : (keepFirst s r).node = r.node :=
  node_of_hide (keepFirst_hide _ _ _ (by decide))
@[simp] theorem beforeReset_node (s : State) : (beforeReset s).node = s.node :=
  node_of_hide (beforeReset_hide _ _ (by decide))
@[simp] theorem tearRecord_node (s : State) : (tearRecord s).node = s.node :=
  node_of_hide (tearRecord_hide _ _ (by decide))
@[simp] theorem takeSamples_node (last : Sample) (b : Nat × Nat × Nat) (s : State) : (takeSamples last b s).node = s.node :=
  node_of_hide (takeSamples_hide _ _ _ _ (by decide))
@[simp] theorem putRepair_node (k : Nat) (rows : List Nat) (s : State) : (putRepair k rows s).node = s.node :=
  node_of_hide (putRepair_hide _ _ _ _ (by decide))
@[simp] theorem commitIdent_node (c : Bool) (bytes : List Byte) (bad : Bool) (s : State) : (commitIdent c bytes bad s).2.node = s.node :=
  node_of_hide (commitIdent_hide _ _ _ _ _ (by decide))
@[simp] theorem showVerdict_node (c : Bool) (v : Verdict) (s : State) : (showVerdict c v s).node = s.node :=
  node_of_hide (showVerdict_hide _ _ _ _ (by decide))
@[simp] theorem refuseOther_node (c : Bool) (s : State) : (refuseOther c s).node = s.node :=
  node_of_hide (refuseOther_hide _ _ _ (by decide))
@[simp] theorem loadTables_node (s : State) : (loadTables s).node = s.node :=
  node_of_hide (loadTables_hide _ _ (by decide))
@[simp] theorem startTasks_node (s : State) : (startTasks s).node = s.node :=
  node_of_hide (startTasks_hide _ _ (by decide))
@[simp] theorem queueStart_node (s : State) : (queueStart s).node = s.node :=
  node_of_hide (queueStart_hide _ _ (by decide))
@[simp] theorem startRecord_node (s : State) : (startRecord s).node = s.node :=
  node_of_hide (startRecord_hide _ _ (by decide))
@[simp] theorem setNowAll_node (s : State) : (setNowAll s).node = s.node :=
  node_of_hide (setNowAll_hide _ _ (by decide))
@[simp] theorem warmWheels_node (s : State) : (warmWheels s).node = s.node :=
  node_of_hide (warmWheels_hide _ _ (by decide))
@[simp] theorem warmTables_node (s : State) : (warmTables s).node = s.node :=
  node_of_hide (warmTables_hide _ _ (by decide))
@[simp] theorem resetRegs_node (p : Nat → Bool) (s : State) : (resetRegs p s).node = s.node :=
  node_of_hide (resetRegs_hide _ _ _ (by decide))
@[simp] theorem State.strobe_node (src : Nat) (s : State) : (State.strobe src s).node = s.node :=
  node_of_hide (State.strobe_hide _ _ _ (by decide))
@[simp] theorem plugLost_node (s : State) : (plugLost s).node = s.node :=
  node_of_hide (plugLost_hide _ _ (by decide))
@[simp] theorem rewriteCommit_node (c : Bool) (commit act : Nat) (s : State) : (rewriteCommit c commit act s).node = s.node :=
  node_of_hide (rewriteCommit_hide _ _ _ _ _ (by decide))
@[simp] theorem clearChunks_node (s : State) : (clearChunks s).node = s.node :=
  node_of_hide (clearChunks_hide _ _ (by decide))
@[simp] theorem discardBuffers_node (s : State) : (discardBuffers s).node = s.node :=
  node_of_hide (discardBuffers_hide _ _ (by decide))
@[simp] theorem writePlug_node (a : Nat) (bs : List Byte) (s : State) : (writePlug a bs s).node = s.node :=
  node_of_hide (writePlug_hide _ _ _ _ (by decide))
@[simp] theorem switchMoved_node (s : State) : (switchMoved s).node = s.node :=
  node_of_hide (switchMoved_hide _ _ (by decide))
@[simp] theorem bypassFirst_node (s : State) : (bypassFirst s).node = s.node :=
  node_of_hide (bypassFirst_hide _ _ (by decide))

@[simp] theorem ite_node {c : Prop} [Decidable c] (a b : State) : (if c then a else b).node = if c then a.node else b.node := apply_ite _ _ _ _
@[simp] theorem State.modNode_node (f : Node → Node) (s : State) : (s.modNode f).node = f s.node := rfl
@[simp] theorem kinFatal_node (kind cls reason s) : (kinFatal kind cls reason s).node = { s.node with kinHalted := true } := by simp [kinFatal, kinFault]
@[simp] theorem endPhase_node (f p s) : (endPhase f p s).node = { s.node with phase := p, phaseAt := s.cycles } := by simp [endPhase]
@[simp] theorem startHeartbeat_node (s) : (startHeartbeat s).node = { s.node with heartbeat := true, hbAt := s.cycles } := by simp [startHeartbeat]
@[simp] theorem stopHeartbeat_node (s) : (stopHeartbeat s).node = { s.node with heartbeat := false } := by simp [stopHeartbeat]
def Node.core (n : Node) : Bool × FreezeState × Bool × PwrStep × Phase × Bool :=
  (n.heartbeat, n.freeze, n.heldInReset, n.pwr, n.phase, n.pvdd)
def coreOk (c : Bool × FreezeState × Bool × PwrStep × Phase × Bool) : Prop :=
  (c.1 = true → c.2.1 = .running ∧ c.2.2.1 = false) ∧ (c.2.1 = .frozen → c.2.2.1 = false ∧ c.2.2.2.1 = .none) ∧
  (c.2.2.2.1 = .complete → c.2.2.1 = true) ∧ (c.2.2.2.1 = .stopped → c.1 = false) ∧ (c.2.2.2.2.1 = .hold → c.2.2.2.2.2 = false ∧ c.1 = false) ∧
  (c.2.2.2.2.1 = .caldera → c.1 = false)
@[simp] theorem core_kinHalted (n : Node) (v) : ({ n with kinHalted := v } : Node).core = n.core := rfl
@[simp] theorem core_badRows (n : Node) (v) : ({ n with badRows := v } : Node).core = n.core := rfl
@[simp] theorem core_ident (n : Node) (v) : ({ n with ident := v } : Node).core = n.core := rfl
@[simp] theorem core_mfeRoms (n : Node) (v) : ({ n with mfeRoms := v } : Node).core = n.core := rfl
@[simp] theorem core_frzLow (n : Node) (v) : ({ n with frzLow := v } : Node).core = n.core := rfl
@[simp] theorem core_calderaStep (n : Node) (v) : ({ n with calderaStep := v } : Node).core = n.core := rfl
@[simp] theorem core_afterFreeze (n : Node) (v) : ({ n with afterFreeze := v } : Node).core = n.core := rfl
@[simp] theorem core_excludedA (n : Node) (v) : ({ n with excludedA := v } : Node).core = n.core := rfl
@[simp] theorem core_excludedB (n : Node) (v) : ({ n with excludedB := v } : Node).core = n.core := rfl
@[simp] theorem core_lvOn (n : Node) (v) : ({ n with lvOn := v } : Node).core = n.core := rfl
@[simp] theorem core_vio (n : Node) (v) : ({ n with vio := v } : Node).core = n.core := rfl
@[simp] theorem core_plugPresent (n : Node) (v) : ({ n with plugPresent := v } : Node).core = n.core := rfl
@[simp] theorem core_holdLow (n : Node) (v) : ({ n with holdLow := v } : Node).core = n.core := rfl
@[simp] theorem core_resumeRefused (n : Node) (v) : ({ n with resumeRefused := v } : Node).core = n.core := rfl
@[simp] theorem core_memacc (n : Node) (v) : ({ n with memacc := v } : Node).core = n.core := rfl
@[simp] theorem core_sinterData (n : Node) (v) : ({ n with sinterData := v } : Node).core = n.core := rfl
@[simp] theorem core_resetLow (n : Node) (v) : ({ n with resetLow := v } : Node).core = n.core := rfl
@[simp] theorem core_pwrRecords_pwrAt (n : Node) (vpwrRecords) (vpwrAt) : ({ n with pwrRecords := vpwrRecords, pwrAt := vpwrAt } : Node).core = n.core := rfl
@[simp] theorem core_tapOut_tapIr (n : Node) (vtapOut) (vtapIr) : ({ n with tapOut := vtapOut, tapIr := vtapIr } : Node).core = n.core := rfl
@[simp] theorem core_sinterData_sinterWord (n : Node) (vsinterData) (vsinterWord) : ({ n with sinterData := vsinterData, sinterWord := vsinterWord } : Node).core = n.core := rfl
@[simp] theorem core_sinterSeg_sinterWord (n : Node) (vsinterSeg) (vsinterWord) : ({ n with sinterSeg := vsinterSeg, sinterWord := vsinterWord } : Node).core = n.core := rfl
@[simp] theorem core_memacc_memaccWritten (n : Node) (vmemacc) (vmemaccWritten) : ({ n with memacc := vmemacc, memaccWritten := vmemaccWritten } : Node).core = n.core := rfl
@[simp] theorem core_identChosen (n : Node) (v) : ({ n with identChosen := v } : Node).core = n.core := rfl
@[simp] theorem core_pwrLogged (n : Node) (v) : ({ n with pwrLogged := v } : Node).core = n.core := rfl
@[simp] theorem core_v24_hot (n : Node) (v h) : ({ n with v24 := v, hot := h } : Node).core = n.core := rfl
@[simp] theorem core_boundary_preload (n : Node) (vboundary) (vpreload) : ({ n with boundary := vboundary, preload := vpreload } : Node).core = n.core := rfl
theorem nodeOk_core (n : Node) : nodeOk n ↔ coreOk n.core := Iff.rfl
@[simp] theorem core_node {s t : State} (h : t.node = s.node) : t.node.core = s.node.core := by rw [h]
@[simp] theorem kinFatal_core (kind cls reason s) : (kinFatal kind cls reason s).node.core = s.node.core := by simp [kinFatal, kinFault]
@[simp] theorem plugAbsent_core (s) : (plugAbsent s).node.core = s.node.core := by simp [plugAbsent]
theorem each_core (α : Type) (l : List α) (f : α → State → State) (s : State) (h : ∀ a s, (f a s).node.core = s.node.core) : (s.each l f).node.core = s.node.core := by
    unfold State.each
    induction l generalizing s with
    | nil => rfl
    | cons a l ih => rw [List.foldl_cons, ih, h]
@[simp] theorem takeIdent_core (b s) : (takeIdent b s).node.core = s.node.core := by simp [takeIdent]
@[simp] theorem k2_core (b s) : (k2 b s).node.core = s.node.core := by
  simp only [k2, State.modNode_node, core_badRows, State.put_node]
  exact each_core _ _ _ _ (by intros; simp)
@[simp] theorem imageNone_core (s) : (imageNone s).node.core = s.node.core := by simp [imageNone]
@[simp] theorem takeCopy_core (c s) : (takeCopy c s).node.core = s.node.core := by simp [takeCopy]
@[simp] theorem k4_core (s) : (k4 s).2.node.core = s.node.core := by
  unfold k4; dsimp only; split <;> simp
theorem repairBanks_core (m l s) : (repairBanks m l s).2.node.core = s.node.core := by
  induction l generalizing s with
  | nil => rfl
  | cons k ks ih =>
    unfold repairBanks; dsimp only
    split
    · simp
    · rw [ih]; split <;> simp
theorem rewriteIdents_core (f b g m o bad s) : (rewriteIdents f b g m o bad s).node.core = s.node.core := by
  unfold rewriteIdents; dsimp only; repeat' split
  all_goals simp [Node.core]
theorem chosen_core (b s) : ((takeIdent b s).modNode fun x => { x with identChosen := true }).node.core = s.node.core := by
  rw [State.modNode_node, core_identChosen, takeIdent_core]
theorem k3_core (w bad s) : (k3 w bad s).node.core = s.node.core := by
  unfold k3; repeat' (first | split | dsimp only)
  all_goals simp only [kinFatal_core, plugAbsent_core, repairBanks_core, rewriteIdents_core, chosen_core, State.putBit_node]
theorem k2Warm_core (f s) : (k2Warm f s).node.core = s.node.core := by
  unfold k2Warm; dsimp only
  simp only [State.put_node]
  rw [each_core]
  · show Node.core (State.node (State.each _ _ _)) = _
    rw [each_core]
    intro a s; repeat' split
    all_goals simp
  · intro a s; repeat' split
    all_goals simp
@[simp] theorem drainNode_core (s) : (drainNode s).node.core = s.node.core := by
  simp only [drainNode, State.modNode_node, core_pwrRecords_pwrAt]
  simp
  exact each_core _ _ _ _ (by intros; simp [node_of_hide (drainBuffer_hide _ _ _ (by decide))])
theorem pwrRun_node (s) : (setLeaving s).node = s.node := by simp
@[simp] theorem sendFailnow_n (s) : (sendFailnow s).node = s.node := node_of_hide (sendFailnow_hide _ _ (by decide))
@[simp] theorem startClocks_rest (s : State) (r k) : (startClocks r k s).node = (if s.node.hbFrozen && (s.modNode fun x => { x with freeze := .running }).live then { s.node with freeze := .running, heartbeat := true, hbAt := s.cycles } else { s.node with freeze := .running }) := by
  have e : ∀ l (s : State), (s.each l retrainPort).node = s.node := fun l s => by
    unfold State.each
    induction l generalizing s with
    | nil => rfl
    | cons a l ih => rw [List.foldl_cons, ih]; exact node_of_hide (retrainPort_hide _ _ _ (by decide))
  simp only [startClocks, State.raise_node]
  rw [apply_ite (fun s : State => s.node)]
  simp only [node_of_hide (switchBypassed_hide _ _ (by decide)), e, node_of_hide (timeResume_hide _ _ (by decide)), ite_self, State.when]
  split <;> simp_all <;> rfl
theorem haltEmbers_n (s) : (haltEmbers s).node = s.node := node_of_hide (haltEmbers_hide _ _ (by decide))
@[simp] theorem shutdownRecord_n (a b c s) : (shutdownRecord a b c s).node = s.node := node_of_hide (shutdownRecord_hide _ _ _ _ _ (by decide))
@[simp] theorem stopClocks_core (b f s) : (stopClocks b f s).node.core = (false, .frozen, s.node.heldInReset, s.node.pwr, s.node.phase, s.node.pvdd) := by
  simp [stopClocks, Node.core]
theorem core_def (n : Node) : n.core = (n.heartbeat, n.freeze, n.heldInReset, n.pwr, n.phase, n.pvdd) := rfl
@[simp] theorem coldReset_core (k s) : (coldReset k s).node.core = (false, .running, false, .none, .k0, !s.node.holdLow) := by
  unfold coldReset; dsimp only
  split
  · rw [keepFirst_node]; rfl
  · rfl
@[simp] theorem beginK0_core (s) : (beginK0 s).node.core = if s.node.holdLow then (s.node.heartbeat, s.node.freeze, s.node.heldInReset, s.node.pwr, .hold, false) else s.node.core := by
  unfold beginK0; split <;> rfl
theorem pwrfail_core (v s) : (pwrfail v s).node.core = if s.node.phase = .hold then s.node.core else (s.node.heartbeat, s.node.freeze, s.node.heldInReset, .running, s.node.phase, s.node.pvdd) := by
  unfold pwrfail; dsimp only
  simp only [State.strobe_node, State.raise_node, State.put_node]
  split
  · simp
  · split
    · rw [drainNode_core]; simp [core_def]
    · simp [core_def]
theorem calderaOutputs_core (r s) : (calderaOutputs r s).node.core = (false, s.node.freeze, s.node.heldInReset, s.node.pwr, .caldera, s.node.pvdd) := by
  simp [calderaOutputs, core_def]
theorem calderaRest_core (b s) : (calderaRest b s).node.core = s.node.core := by
  unfold calderaRest; dsimp only; repeat' split
  all_goals simp [node_of_hide (writeCapture_hide _ _ _ _ (by decide)), node_of_hide (abortTransfer_hide _ _ (by decide))]
theorem continueCaldera_core (s) : (continueCaldera s).node.core = s.node.core := by
  unfold continueCaldera; split
  · exact calderaRest_core _ _
  · rfl
theorem enterHold_core (s) : (enterHold s).node.core = (s.node.heartbeat && s.node.phase == .caldera, s.node.freeze, s.node.heldInReset, s.node.pwr, .hold, false) := by
  unfold enterHold
  dsimp only
  generalize hs : (if (s.node.phase == .k8) = true then drainNode (setLeaving s) else _) = s1
  have h1 : s1.node.core = s.node.core := by
    rw [← hs]; split
    · simp
    · split <;> simp [node_of_hide (beforeReset_hide _ _ (by decide))]
  generalize hs : (if ((s.node.phase == .k8) && State.plugReachable s1) = true then _ else _) = s2
  have h2 : s2.node.core = s.node.core := by
    rw [← hs, ← h1]; split <;> simp
  simp only [core_def, State.modNode_node, geyserHalt_node, endDrain_node, haltEmbers_node]
  generalize hs : (if s.node.phase = .caldera then s2 else setLeaving (stopHeartbeat (sendFailnow s2))) = s3
  have h3 : s3.node.core = (s.node.heartbeat && s.node.phase == .caldera, s.node.freeze, s.node.heldInReset, s.node.pwr, s2.node.phase, s2.node.pvdd) := by
    rw [← hs]; simp only [core_def, Prod.mk.injEq] at h2 ⊢
    split
    · next c => simp [h2, c]
    · next c => simp [h2, c]
  simp only [core_def, Prod.mk.injEq] at h3
  simp [h3]
theorem enterK8_core (w a b s) (hw : ∀ s, (w s).node = s.node) : (enterK8 w a b s).node.core = (s.node.heartbeat, s.node.freeze, s.node.heldInReset, s.node.pwr, .k8, s.node.pvdd) := by
  unfold enterK8; dsimp only
  simp only [queueStart_node, startDist_node]
  repeat' split
  all_goals simp [hw, core_def]
theorem warmK0_core (s) : (warmK0 s).node.core = (s.node.heartbeat, s.node.freeze, s.node.heldInReset, s.node.pwr, .k0, s.node.pvdd) := by
  have e : ∀ (l : List Nat) (s : State), (s.each l fun a => State.putReg a 0).node = s.node := fun l s => by
    unfold State.each
    induction l generalizing s with
    | nil => rfl
    | cons a l ih => rw [List.foldl_cons, ih]; rfl
  unfold warmK0; dsimp only
  simp only [State.modNode_node, State.modDist_node, State.put_node, e]
  simp [core_def, State.putReg]
theorem endPhase_core (f p s) : (endPhase f p s).node.core = (s.node.heartbeat, s.node.freeze, s.node.heldInReset, s.node.pwr, p, s.node.pvdd) := by simp [core_def]
def Quiet (c d : Bool × FreezeState × Bool × PwrStep × Phase × Bool) : Prop := d.1 = c.1 ∧ d.2.1 = c.2.1 ∧ d.2.2.1 = c.2.2.1 ∧ d.2.2.2.1 = c.2.2.2.1 ∧ d.2.2.2.2.2 = c.2.2.2.2.2 ∧ d.2.2.2.2.1 ≠ .hold ∧ d.2.2.2.2.1 ≠ .caldera
theorem coreOk_quiet {c d} (h : Quiet c d) (hc : coreOk c) : coreOk d := by
  obtain ⟨h1, h2, h3, h4, h5, h6, h7⟩ := h
  unfold coreOk at *
  rw [h1, h2, h3, h4, h5]
  exact ⟨hc.1, hc.2.1, hc.2.2.1, hc.2.2.2.1, fun h => absurd h h6, fun h => absurd h h7⟩
theorem warmFailed_ok (a n s) : coreOk (warmFailed a n s).node.core := by
  simp [warmFailed, coreOk]
theorem warmK6_core (c s) (h : s.node.phase = .k6) : (warmK6 c s).node.core = s.node.core := by
  unfold warmK6; dsimp only
  repeat' split
  all_goals simp [core_def, h]
theorem warmRun_ok (f b bad s) (hs : coreOk s.node.core) : coreOk (warmRun f b bad s).node.core := by
  unfold warmRun; dsimp only
  generalize h0 : k3 true _ (endPhase F.KIN_TIME1_END_K2 .k3 (k2Warm f (endPhase F.KIN_TIME0_END_K0 .k2 s))) = s1
  have h1 : Quiet s.node.core s1.node.core := by
    rw [← h0, k3_core, endPhase_core]
    have := k2Warm_core f (endPhase F.KIN_TIME0_END_K0 .k2 s)
    rw [endPhase_core] at this
    simp only [core_def, Prod.mk.injEq] at this
    simp [Quiet, core_def, this]
  split
  · exact coreOk_quiet h1 hs
  · split
    · next c s2 h =>
      have h2 : Quiet s.node.core s2.node.core := by
        have := k4_core (endPhase F.KIN_TIME1_END_K3 .k4 s1)
        rw [h, endPhase_core] at this
        dsimp only at this
        rw [this]
        simpa [Quiet, core_def] using ⟨h1.1, h1.2.1, h1.2.2.1, h1.2.2.2.1, h1.2.2.2.2.1⟩
      split
      · exact warmFailed_ok _ _ _
      · split
        · exact warmFailed_ok _ _ _
        · split
          · exact warmFailed_ok _ _ _
          · generalize hb : ((warmTables (endPhase F.KIN_TIME2_END_K4 .k5 s2)).hvConfig != s2.hvConfig) = bb
            have h3 : Quiet s.node.core (warmK6 bb (endPhase F.KIN_TIME2_END_K5 .k6 (warmTables (endPhase F.KIN_TIME2_END_K4 .k5 s2)))).node.core := by
              rw [warmK6_core _ _ (by simp), endPhase_core, warmTables_node]
              simpa [Quiet, core_def] using ⟨h2.1, h2.2.1, h2.2.2.1, h2.2.2.2.1, h2.2.2.2.2.1⟩
            split
            · exact coreOk_quiet h3 hs
            · refine coreOk_quiet ?_ hs
              unfold warmK8
              rw [enterK8_core _ _ _ _ (by simp)]
              simpa [Quiet, core_def] using ⟨h3.1, h3.2.1, h3.2.2.1, h3.2.2.2.1, h3.2.2.2.2.1⟩
    · exact warmFailed_ok _ _ _

end Sys2Proof.Machine
end

