-- ==== Sys2Proof/Laws/State.lean ====
section
/-! SUPPORT. What each shared update leaves alone, field by field, and what a register field reads after it. -/

set_option maxRecDepth 100000
set_option linter.all false

namespace Sys2Proof.Machine

/-! ## Register fields -/

theorem State.get_put_same (f : Field) (v : Nat) (s : State) (h : f.Fits) : (s.put f v).get f = v % 2 ^ f.width :=
  regGet_regPut_same s.regs f h v

theorem State.get_put_addr (f g : Field) (v : Nat) (s : State) (h : g.addr ≠ f.addr) : (s.put f v).get g = s.get g :=
  regGet_regPut_addr s.regs f g h v

theorem State.get_put_apart (f g : Field) (v : Nat) (s : State) (hg : g.Fits) (h : g.hi < f.lo ∨ f.hi < g.lo) :
    (s.put f v).get g = s.get g :=
  regGet_regPut_apart s.regs f g hg h v

theorem State.get_lt (f : Field) (s : State) : s.get f < 2 ^ f.width := regGet_lt s.regs f

/-! ## A part replaced -/

@[simp] theorem State.get_now (s : State) (x) (f : Field) : ({ s with now := x } : State).get f = s.get f := rfl
@[simp] theorem State.get_cycles (s : State) (x) (f : Field) : ({ s with cycles := x } : State).get f = s.get f := rfl
@[simp] theorem State.get_latches (s : State) (x) (f : Field) : ({ s with latches := x } : State).get f = s.get f := rfl
@[simp] theorem State.get_node (s : State) (x) (f : Field) : ({ s with node := x } : State).get f = s.get f := rfl
@[simp] theorem State.get_sup (s : State) (x) (f : Field) : ({ s with sup := x } : State).get f = s.get f := rfl
@[simp] theorem State.get_col (s : State) (x) (f : Field) : ({ s with col := x } : State).get f = s.get f := rfl
@[simp] theorem State.get_ic (s : State) (x) (f : Field) : ({ s with ic := x } : State).get f = s.get f := rfl
@[simp] theorem State.get_hrt (s : State) (x) (f : Field) : ({ s with hrt := x } : State).get f = s.get f := rfl
@[simp] theorem State.get_emb (s : State) (x) (f : Field) : ({ s with emb := x } : State).get f = s.get f := rfl
@[simp] theorem State.get_spm (s : State) (x) (f : Field) : ({ s with spm := x } : State).get f = s.get f := rfl
@[simp] theorem State.get_gsr (s : State) (x) (f : Field) : ({ s with gsr := x } : State).get f = s.get f := rfl
@[simp] theorem State.get_rep (s : State) (x) (f : Field) : ({ s with rep := x } : State).get f = s.get f := rfl
@[simp] theorem State.get_chan (s : State) (x) (f : Field) : ({ s with chan := x } : State).get f = s.get f := rfl
@[simp] theorem State.get_grp (s : State) (x) (f : Field) : ({ s with grp := x } : State).get f = s.get f := rfl
@[simp] theorem State.get_whl (s : State) (x) (f : Field) : ({ s with whl := x } : State).get f = s.get f := rfl
@[simp] theorem State.get_ph (s : State) (x) (f : Field) : ({ s with ph := x } : State).get f = s.get f := rfl
@[simp] theorem State.get_bar (s : State) (x) (f : Field) : ({ s with bar := x } : State).get f = s.get f := rfl
@[simp] theorem State.get_mfe (s : State) (x) (f : Field) : ({ s with mfe := x } : State).get f = s.get f := rfl
@[simp] theorem State.get_tim (s : State) (x) (f : Field) : ({ s with tim := x } : State).get f = s.get f := rfl
@[simp] theorem State.get_tsi (s : State) (x) (f : Field) : ({ s with tsi := x } : State).get f = s.get f := rfl
@[simp] theorem State.get_flue (s : State) (x) (f : Field) : ({ s with flue := x } : State).get f = s.get f := rfl
@[simp] theorem State.get_ring (s : State) (x) (f : Field) : ({ s with ring := x } : State).get f = s.get f := rfl
@[simp] theorem State.get_plug (s : State) (x) (f : Field) : ({ s with plug := x } : State).get f = s.get f := rfl
@[simp] theorem State.get_work (s : State) (x) (f : Field) : ({ s with work := x } : State).get f = s.get f := rfl
@[simp] theorem State.get_dist (s : State) (x) (f : Field) : ({ s with dist := x } : State).get f = s.get f := rfl
@[simp] theorem State.get_free (s : State) (x) (f : Field) : ({ s with free := x } : State).get f = s.get f := rfl
@[simp] theorem State.get_pending (s : State) (x) (f : Field) : ({ s with pending := x } : State).get f = s.get f := rfl

/-! ## The shared updates -/

@[simp] theorem State.put_rest (f : Field) (v : Nat) (s : State) :
    (State.put f v s).now = s.now ∧ (State.put f v s).cycles = s.cycles ∧ (State.put f v s).latches = s.latches ∧ (State.put f v s).node = s.node ∧
    (State.put f v s).sup = s.sup ∧ (State.put f v s).col = s.col ∧ (State.put f v s).ic = s.ic ∧ (State.put f v s).hrt = s.hrt ∧
    (State.put f v s).emb = s.emb ∧ (State.put f v s).spm = s.spm ∧ (State.put f v s).gsr = s.gsr ∧ (State.put f v s).rep = s.rep ∧
    (State.put f v s).chan = s.chan ∧ (State.put f v s).grp = s.grp ∧ (State.put f v s).whl = s.whl ∧ (State.put f v s).ph = s.ph ∧
    (State.put f v s).bar = s.bar ∧ (State.put f v s).mfe = s.mfe ∧ (State.put f v s).tim = s.tim ∧ (State.put f v s).tsi = s.tsi ∧
    (State.put f v s).flue = s.flue ∧ (State.put f v s).ring = s.ring ∧ (State.put f v s).plug = s.plug ∧ (State.put f v s).work = s.work ∧
    (State.put f v s).dist = s.dist ∧ (State.put f v s).free = s.free ∧ (State.put f v s).pending = s.pending := by
  obtain ⟨h0, h1, h2, h3, h4, h5, h6, h7, h8, h9, h10, h11, h12, h13, h14, h15, h16, h17, h18, h19, h20, h21, h22, h23,
      h24, h25, h26, h27⟩ :=
    hide_parts (State.put_hide _ _ _ _ (by decide : (1 : Nat) &&& 1 = 1))
  exact ⟨h1 (by decide), h2 (by decide), h3 (by decide), h4 (by decide), h5 (by decide), h6 (by decide), h7 (by decide),
      h8 (by decide), h9 (by decide), h10 (by decide), h11 (by decide), h12 (by decide), h13 (by decide),
      h14 (by decide), h15 (by decide), h16 (by decide), h17 (by decide), h18 (by decide), h19 (by decide),
      h20 (by decide), h21 (by decide), h22 (by decide), h23 (by decide), h24 (by decide), h25 (by decide),
      h26 (by decide), h27 (by decide)⟩

@[simp] theorem State.putBit_rest (f : Field) (b : Bool) (s : State) :
    (State.putBit f b s).now = s.now ∧ (State.putBit f b s).cycles = s.cycles ∧ (State.putBit f b s).latches = s.latches ∧ (State.putBit f b s).node = s.node ∧
    (State.putBit f b s).sup = s.sup ∧ (State.putBit f b s).col = s.col ∧ (State.putBit f b s).ic = s.ic ∧ (State.putBit f b s).hrt = s.hrt ∧
    (State.putBit f b s).emb = s.emb ∧ (State.putBit f b s).spm = s.spm ∧ (State.putBit f b s).gsr = s.gsr ∧ (State.putBit f b s).rep = s.rep ∧
    (State.putBit f b s).chan = s.chan ∧ (State.putBit f b s).grp = s.grp ∧ (State.putBit f b s).whl = s.whl ∧ (State.putBit f b s).ph = s.ph ∧
    (State.putBit f b s).bar = s.bar ∧ (State.putBit f b s).mfe = s.mfe ∧ (State.putBit f b s).tim = s.tim ∧ (State.putBit f b s).tsi = s.tsi ∧
    (State.putBit f b s).flue = s.flue ∧ (State.putBit f b s).ring = s.ring ∧ (State.putBit f b s).plug = s.plug ∧ (State.putBit f b s).work = s.work ∧
    (State.putBit f b s).dist = s.dist ∧ (State.putBit f b s).free = s.free ∧ (State.putBit f b s).pending = s.pending := by
  obtain ⟨h0, h1, h2, h3, h4, h5, h6, h7, h8, h9, h10, h11, h12, h13, h14, h15, h16, h17, h18, h19, h20, h21, h22, h23,
      h24, h25, h26, h27⟩ :=
    hide_parts (State.putBit_hide _ _ _ _ (by decide : (1 : Nat) &&& 1 = 1))
  exact ⟨h1 (by decide), h2 (by decide), h3 (by decide), h4 (by decide), h5 (by decide), h6 (by decide), h7 (by decide),
      h8 (by decide), h9 (by decide), h10 (by decide), h11 (by decide), h12 (by decide), h13 (by decide),
      h14 (by decide), h15 (by decide), h16 (by decide), h17 (by decide), h18 (by decide), h19 (by decide),
      h20 (by decide), h21 (by decide), h22 (by decide), h23 (by decide), h24 (by decide), h25 (by decide),
      h26 (by decide), h27 (by decide)⟩

@[simp] theorem State.putReg_rest (a : Nat) (w : Word) (s : State) :
    (State.putReg a w s).now = s.now ∧ (State.putReg a w s).cycles = s.cycles ∧ (State.putReg a w s).latches = s.latches ∧ (State.putReg a w s).node = s.node ∧
    (State.putReg a w s).sup = s.sup ∧ (State.putReg a w s).col = s.col ∧ (State.putReg a w s).ic = s.ic ∧ (State.putReg a w s).hrt = s.hrt ∧
    (State.putReg a w s).emb = s.emb ∧ (State.putReg a w s).spm = s.spm ∧ (State.putReg a w s).gsr = s.gsr ∧ (State.putReg a w s).rep = s.rep ∧
    (State.putReg a w s).chan = s.chan ∧ (State.putReg a w s).grp = s.grp ∧ (State.putReg a w s).whl = s.whl ∧ (State.putReg a w s).ph = s.ph ∧
    (State.putReg a w s).bar = s.bar ∧ (State.putReg a w s).mfe = s.mfe ∧ (State.putReg a w s).tim = s.tim ∧ (State.putReg a w s).tsi = s.tsi ∧
    (State.putReg a w s).flue = s.flue ∧ (State.putReg a w s).ring = s.ring ∧ (State.putReg a w s).plug = s.plug ∧ (State.putReg a w s).work = s.work ∧
    (State.putReg a w s).dist = s.dist ∧ (State.putReg a w s).free = s.free ∧ (State.putReg a w s).pending = s.pending := by
  obtain ⟨h0, h1, h2, h3, h4, h5, h6, h7, h8, h9, h10, h11, h12, h13, h14, h15, h16, h17, h18, h19, h20, h21, h22, h23,
      h24, h25, h26, h27⟩ :=
    hide_parts (State.putReg_hide _ _ _ _ (by decide : (1 : Nat) &&& 1 = 1))
  exact ⟨h1 (by decide), h2 (by decide), h3 (by decide), h4 (by decide), h5 (by decide), h6 (by decide), h7 (by decide),
      h8 (by decide), h9 (by decide), h10 (by decide), h11 (by decide), h12 (by decide), h13 (by decide),
      h14 (by decide), h15 (by decide), h16 (by decide), h17 (by decide), h18 (by decide), h19 (by decide),
      h20 (by decide), h21 (by decide), h22 (by decide), h23 (by decide), h24 (by decide), h25 (by decide),
      h26 (by decide), h27 (by decide)⟩

@[simp] theorem State.count_rest (f : Field) (n : Nat) (s : State) :
    (State.count f n s).now = s.now ∧ (State.count f n s).cycles = s.cycles ∧ (State.count f n s).latches = s.latches ∧ (State.count f n s).node = s.node ∧
    (State.count f n s).sup = s.sup ∧ (State.count f n s).col = s.col ∧ (State.count f n s).ic = s.ic ∧ (State.count f n s).hrt = s.hrt ∧
    (State.count f n s).emb = s.emb ∧ (State.count f n s).spm = s.spm ∧ (State.count f n s).gsr = s.gsr ∧ (State.count f n s).rep = s.rep ∧
    (State.count f n s).chan = s.chan ∧ (State.count f n s).grp = s.grp ∧ (State.count f n s).whl = s.whl ∧ (State.count f n s).ph = s.ph ∧
    (State.count f n s).bar = s.bar ∧ (State.count f n s).mfe = s.mfe ∧ (State.count f n s).tim = s.tim ∧ (State.count f n s).tsi = s.tsi ∧
    (State.count f n s).flue = s.flue ∧ (State.count f n s).ring = s.ring ∧ (State.count f n s).plug = s.plug ∧ (State.count f n s).work = s.work ∧
    (State.count f n s).dist = s.dist ∧ (State.count f n s).free = s.free ∧ (State.count f n s).pending = s.pending := by
  obtain ⟨h0, h1, h2, h3, h4, h5, h6, h7, h8, h9, h10, h11, h12, h13, h14, h15, h16, h17, h18, h19, h20, h21, h22, h23,
      h24, h25, h26, h27⟩ :=
    hide_parts (State.count_hide _ _ _ _ (by decide : (1 : Nat) &&& 1 = 1))
  exact ⟨h1 (by decide), h2 (by decide), h3 (by decide), h4 (by decide), h5 (by decide), h6 (by decide), h7 (by decide),
      h8 (by decide), h9 (by decide), h10 (by decide), h11 (by decide), h12 (by decide), h13 (by decide),
      h14 (by decide), h15 (by decide), h16 (by decide), h17 (by decide), h18 (by decide), h19 (by decide),
      h20 (by decide), h21 (by decide), h22 (by decide), h23 (by decide), h24 (by decide), h25 (by decide),
      h26 (by decide), h27 (by decide)⟩

@[simp] theorem State.wrap_rest (f : Field) (n : Nat) (s : State) :
    (State.wrap f n s).now = s.now ∧ (State.wrap f n s).cycles = s.cycles ∧ (State.wrap f n s).latches = s.latches ∧ (State.wrap f n s).node = s.node ∧
    (State.wrap f n s).sup = s.sup ∧ (State.wrap f n s).col = s.col ∧ (State.wrap f n s).ic = s.ic ∧ (State.wrap f n s).hrt = s.hrt ∧
    (State.wrap f n s).emb = s.emb ∧ (State.wrap f n s).spm = s.spm ∧ (State.wrap f n s).gsr = s.gsr ∧ (State.wrap f n s).rep = s.rep ∧
    (State.wrap f n s).chan = s.chan ∧ (State.wrap f n s).grp = s.grp ∧ (State.wrap f n s).whl = s.whl ∧ (State.wrap f n s).ph = s.ph ∧
    (State.wrap f n s).bar = s.bar ∧ (State.wrap f n s).mfe = s.mfe ∧ (State.wrap f n s).tim = s.tim ∧ (State.wrap f n s).tsi = s.tsi ∧
    (State.wrap f n s).flue = s.flue ∧ (State.wrap f n s).ring = s.ring ∧ (State.wrap f n s).plug = s.plug ∧ (State.wrap f n s).work = s.work ∧
    (State.wrap f n s).dist = s.dist ∧ (State.wrap f n s).free = s.free ∧ (State.wrap f n s).pending = s.pending := by
  obtain ⟨h0, h1, h2, h3, h4, h5, h6, h7, h8, h9, h10, h11, h12, h13, h14, h15, h16, h17, h18, h19, h20, h21, h22, h23,
      h24, h25, h26, h27⟩ :=
    hide_parts (State.wrap_hide _ _ _ _ (by decide : (1 : Nat) &&& 1 = 1))
  exact ⟨h1 (by decide), h2 (by decide), h3 (by decide), h4 (by decide), h5 (by decide), h6 (by decide), h7 (by decide),
      h8 (by decide), h9 (by decide), h10 (by decide), h11 (by decide), h12 (by decide), h13 (by decide),
      h14 (by decide), h15 (by decide), h16 (by decide), h17 (by decide), h18 (by decide), h19 (by decide),
      h20 (by decide), h21 (by decide), h22 (by decide), h23 (by decide), h24 (by decide), h25 (by decide),
      h26 (by decide), h27 (by decide)⟩

@[simp] theorem State.setBitOf_rest (f : Field) (b : Nat) (s : State) :
    (State.setBitOf f b s).now = s.now ∧ (State.setBitOf f b s).cycles = s.cycles ∧ (State.setBitOf f b s).latches = s.latches ∧ (State.setBitOf f b s).node = s.node ∧
    (State.setBitOf f b s).sup = s.sup ∧ (State.setBitOf f b s).col = s.col ∧ (State.setBitOf f b s).ic = s.ic ∧ (State.setBitOf f b s).hrt = s.hrt ∧
    (State.setBitOf f b s).emb = s.emb ∧ (State.setBitOf f b s).spm = s.spm ∧ (State.setBitOf f b s).gsr = s.gsr ∧ (State.setBitOf f b s).rep = s.rep ∧
    (State.setBitOf f b s).chan = s.chan ∧ (State.setBitOf f b s).grp = s.grp ∧ (State.setBitOf f b s).whl = s.whl ∧ (State.setBitOf f b s).ph = s.ph ∧
    (State.setBitOf f b s).bar = s.bar ∧ (State.setBitOf f b s).mfe = s.mfe ∧ (State.setBitOf f b s).tim = s.tim ∧ (State.setBitOf f b s).tsi = s.tsi ∧
    (State.setBitOf f b s).flue = s.flue ∧ (State.setBitOf f b s).ring = s.ring ∧ (State.setBitOf f b s).plug = s.plug ∧ (State.setBitOf f b s).work = s.work ∧
    (State.setBitOf f b s).dist = s.dist ∧ (State.setBitOf f b s).free = s.free ∧ (State.setBitOf f b s).pending = s.pending := by
  obtain ⟨h0, h1, h2, h3, h4, h5, h6, h7, h8, h9, h10, h11, h12, h13, h14, h15, h16, h17, h18, h19, h20, h21, h22, h23,
      h24, h25, h26, h27⟩ :=
    hide_parts (State.setBitOf_hide _ _ _ _ (by decide : (1 : Nat) &&& 1 = 1))
  exact ⟨h1 (by decide), h2 (by decide), h3 (by decide), h4 (by decide), h5 (by decide), h6 (by decide), h7 (by decide),
      h8 (by decide), h9 (by decide), h10 (by decide), h11 (by decide), h12 (by decide), h13 (by decide),
      h14 (by decide), h15 (by decide), h16 (by decide), h17 (by decide), h18 (by decide), h19 (by decide),
      h20 (by decide), h21 (by decide), h22 (by decide), h23 (by decide), h24 (by decide), h25 (by decide),
      h26 (by decide), h27 (by decide)⟩

@[simp] theorem State.strobe_rest (src : Nat) (s : State) :
    (State.strobe src s).now = s.now ∧ (State.strobe src s).cycles = s.cycles ∧ (State.strobe src s).latches = s.latches ∧ (State.strobe src s).node = s.node ∧
    (State.strobe src s).sup = s.sup ∧ (State.strobe src s).col = s.col ∧ (State.strobe src s).hrt = s.hrt ∧ (State.strobe src s).emb = s.emb ∧
    (State.strobe src s).spm = s.spm ∧ (State.strobe src s).gsr = s.gsr ∧ (State.strobe src s).rep = s.rep ∧ (State.strobe src s).chan = s.chan ∧
    (State.strobe src s).grp = s.grp ∧ (State.strobe src s).whl = s.whl ∧ (State.strobe src s).ph = s.ph ∧ (State.strobe src s).bar = s.bar ∧
    (State.strobe src s).mfe = s.mfe ∧ (State.strobe src s).tim = s.tim ∧ (State.strobe src s).tsi = s.tsi ∧ (State.strobe src s).flue = s.flue ∧
    (State.strobe src s).ring = s.ring ∧ (State.strobe src s).plug = s.plug ∧ (State.strobe src s).work = s.work ∧ (State.strobe src s).dist = s.dist ∧
    (State.strobe src s).free = s.free ∧ (State.strobe src s).pending = s.pending := by
  obtain ⟨h0, h1, h2, h3, h4, h5, h6, h7, h8, h9, h10, h11, h12, h13, h14, h15, h16, h17, h18, h19, h20, h21, h22, h23,
      h24, h25, h26, h27⟩ :=
    hide_parts (State.strobe_hide _ _ _ (by decide : (129 : Nat) &&& 129 = 129))
  exact ⟨h1 (by decide), h2 (by decide), h3 (by decide), h4 (by decide), h5 (by decide), h6 (by decide), h8 (by decide),
      h9 (by decide), h10 (by decide), h11 (by decide), h12 (by decide), h13 (by decide), h14 (by decide),
      h15 (by decide), h16 (by decide), h17 (by decide), h18 (by decide), h19 (by decide), h20 (by decide),
      h21 (by decide), h22 (by decide), h23 (by decide), h24 (by decide), h25 (by decide), h26 (by decide), h27 (by decide)⟩

@[simp] theorem State.interrupt_rest (src : Nat) (s : State) :
    (State.interrupt src s).now = s.now ∧ (State.interrupt src s).cycles = s.cycles ∧ (State.interrupt src s).latches = s.latches ∧ (State.interrupt src s).node = s.node ∧
    (State.interrupt src s).sup = s.sup ∧ (State.interrupt src s).col = s.col ∧ (State.interrupt src s).hrt = s.hrt ∧ (State.interrupt src s).emb = s.emb ∧
    (State.interrupt src s).spm = s.spm ∧ (State.interrupt src s).gsr = s.gsr ∧ (State.interrupt src s).rep = s.rep ∧ (State.interrupt src s).chan = s.chan ∧
    (State.interrupt src s).grp = s.grp ∧ (State.interrupt src s).whl = s.whl ∧ (State.interrupt src s).ph = s.ph ∧ (State.interrupt src s).bar = s.bar ∧
    (State.interrupt src s).mfe = s.mfe ∧ (State.interrupt src s).tim = s.tim ∧ (State.interrupt src s).tsi = s.tsi ∧ (State.interrupt src s).flue = s.flue ∧
    (State.interrupt src s).ring = s.ring ∧ (State.interrupt src s).plug = s.plug ∧ (State.interrupt src s).work = s.work ∧ (State.interrupt src s).dist = s.dist ∧
    (State.interrupt src s).free = s.free ∧ (State.interrupt src s).pending = s.pending := by
  obtain ⟨h0, h1, h2, h3, h4, h5, h6, h7, h8, h9, h10, h11, h12, h13, h14, h15, h16, h17, h18, h19, h20, h21, h22, h23,
      h24, h25, h26, h27⟩ :=
    hide_parts (State.interrupt_hide _ _ _ (by decide : (129 : Nat) &&& 129 = 129))
  exact ⟨h1 (by decide), h2 (by decide), h3 (by decide), h4 (by decide), h5 (by decide), h6 (by decide), h8 (by decide),
      h9 (by decide), h10 (by decide), h11 (by decide), h12 (by decide), h13 (by decide), h14 (by decide),
      h15 (by decide), h16 (by decide), h17 (by decide), h18 (by decide), h19 (by decide), h20 (by decide),
      h21 (by decide), h22 (by decide), h23 (by decide), h24 (by decide), h25 (by decide), h26 (by decide), h27 (by decide)⟩

@[simp] theorem State.event_rest (ev ien : Field) (b src : Nat) (s : State) :
    (State.event ev ien b src s).now = s.now ∧ (State.event ev ien b src s).cycles = s.cycles ∧ (State.event ev ien b src s).latches = s.latches ∧ (State.event ev ien b src s).node = s.node ∧
    (State.event ev ien b src s).sup = s.sup ∧ (State.event ev ien b src s).col = s.col ∧ (State.event ev ien b src s).hrt = s.hrt ∧ (State.event ev ien b src s).emb = s.emb ∧
    (State.event ev ien b src s).spm = s.spm ∧ (State.event ev ien b src s).gsr = s.gsr ∧ (State.event ev ien b src s).rep = s.rep ∧ (State.event ev ien b src s).chan = s.chan ∧
    (State.event ev ien b src s).grp = s.grp ∧ (State.event ev ien b src s).whl = s.whl ∧ (State.event ev ien b src s).ph = s.ph ∧ (State.event ev ien b src s).bar = s.bar ∧
    (State.event ev ien b src s).mfe = s.mfe ∧ (State.event ev ien b src s).tim = s.tim ∧ (State.event ev ien b src s).tsi = s.tsi ∧ (State.event ev ien b src s).flue = s.flue ∧
    (State.event ev ien b src s).ring = s.ring ∧ (State.event ev ien b src s).plug = s.plug ∧ (State.event ev ien b src s).work = s.work ∧ (State.event ev ien b src s).dist = s.dist ∧
    (State.event ev ien b src s).free = s.free ∧ (State.event ev ien b src s).pending = s.pending := by
  obtain ⟨h0, h1, h2, h3, h4, h5, h6, h7, h8, h9, h10, h11, h12, h13, h14, h15, h16, h17, h18, h19, h20, h21, h22, h23,
      h24, h25, h26, h27⟩ :=
    hide_parts (State.event_hide _ _ _ _ _ _ (by decide : (129 : Nat) &&& 129 = 129))
  exact ⟨h1 (by decide), h2 (by decide), h3 (by decide), h4 (by decide), h5 (by decide), h6 (by decide), h8 (by decide),
      h9 (by decide), h10 (by decide), h11 (by decide), h12 (by decide), h13 (by decide), h14 (by decide),
      h15 (by decide), h16 (by decide), h17 (by decide), h18 (by decide), h19 (by decide), h20 (by decide),
      h21 (by decide), h22 (by decide), h23 (by decide), h24 (by decide), h25 (by decide), h26 (by decide), h27 (by decide)⟩

@[simp] theorem State.eventBit_rest (ev ien : Field) (b src : Nat) (s : State) :
    (State.eventBit ev ien b src s).now = s.now ∧ (State.eventBit ev ien b src s).cycles = s.cycles ∧ (State.eventBit ev ien b src s).latches = s.latches ∧ (State.eventBit ev ien b src s).node = s.node ∧
    (State.eventBit ev ien b src s).sup = s.sup ∧ (State.eventBit ev ien b src s).col = s.col ∧ (State.eventBit ev ien b src s).hrt = s.hrt ∧ (State.eventBit ev ien b src s).emb = s.emb ∧
    (State.eventBit ev ien b src s).spm = s.spm ∧ (State.eventBit ev ien b src s).gsr = s.gsr ∧ (State.eventBit ev ien b src s).rep = s.rep ∧ (State.eventBit ev ien b src s).chan = s.chan ∧
    (State.eventBit ev ien b src s).grp = s.grp ∧ (State.eventBit ev ien b src s).whl = s.whl ∧ (State.eventBit ev ien b src s).ph = s.ph ∧ (State.eventBit ev ien b src s).bar = s.bar ∧
    (State.eventBit ev ien b src s).mfe = s.mfe ∧ (State.eventBit ev ien b src s).tim = s.tim ∧ (State.eventBit ev ien b src s).tsi = s.tsi ∧ (State.eventBit ev ien b src s).flue = s.flue ∧
    (State.eventBit ev ien b src s).ring = s.ring ∧ (State.eventBit ev ien b src s).plug = s.plug ∧ (State.eventBit ev ien b src s).work = s.work ∧ (State.eventBit ev ien b src s).dist = s.dist ∧
    (State.eventBit ev ien b src s).free = s.free ∧ (State.eventBit ev ien b src s).pending = s.pending := by
  obtain ⟨h0, h1, h2, h3, h4, h5, h6, h7, h8, h9, h10, h11, h12, h13, h14, h15, h16, h17, h18, h19, h20, h21, h22, h23,
      h24, h25, h26, h27⟩ :=
    hide_parts (State.eventBit_hide _ _ _ _ _ _ (by decide : (129 : Nat) &&& 129 = 129))
  exact ⟨h1 (by decide), h2 (by decide), h3 (by decide), h4 (by decide), h5 (by decide), h6 (by decide), h8 (by decide),
      h9 (by decide), h10 (by decide), h11 (by decide), h12 (by decide), h13 (by decide), h14 (by decide),
      h15 (by decide), h16 (by decide), h17 (by decide), h18 (by decide), h19 (by decide), h20 (by decide),
      h21 (by decide), h22 (by decide), h23 (by decide), h24 (by decide), h25 (by decide), h26 (by decide), h27 (by decide)⟩

@[simp] theorem State.sendRecord_rest (r : FaultRec) (s : State) :
    (State.sendRecord r s).now = s.now ∧ (State.sendRecord r s).cycles = s.cycles ∧ (State.sendRecord r s).latches = s.latches ∧ (State.sendRecord r s).node = s.node ∧
    (State.sendRecord r s).sup = s.sup ∧ (State.sendRecord r s).ic = s.ic ∧ (State.sendRecord r s).hrt = s.hrt ∧ (State.sendRecord r s).emb = s.emb ∧
    (State.sendRecord r s).spm = s.spm ∧ (State.sendRecord r s).gsr = s.gsr ∧ (State.sendRecord r s).rep = s.rep ∧ (State.sendRecord r s).chan = s.chan ∧
    (State.sendRecord r s).grp = s.grp ∧ (State.sendRecord r s).whl = s.whl ∧ (State.sendRecord r s).ph = s.ph ∧ (State.sendRecord r s).bar = s.bar ∧
    (State.sendRecord r s).mfe = s.mfe ∧ (State.sendRecord r s).tim = s.tim ∧ (State.sendRecord r s).tsi = s.tsi ∧ (State.sendRecord r s).flue = s.flue ∧
    (State.sendRecord r s).ring = s.ring ∧ (State.sendRecord r s).plug = s.plug ∧ (State.sendRecord r s).work = s.work ∧ (State.sendRecord r s).dist = s.dist ∧
    (State.sendRecord r s).free = s.free ∧ (State.sendRecord r s).pending = s.pending := by
  obtain ⟨h0, h1, h2, h3, h4, h5, h6, h7, h8, h9, h10, h11, h12, h13, h14, h15, h16, h17, h18, h19, h20, h21, h22, h23,
      h24, h25, h26, h27⟩ :=
    hide_parts (State.sendRecord_hide _ _ _ (by decide : (65 : Nat) &&& 65 = 65))
  exact ⟨h1 (by decide), h2 (by decide), h3 (by decide), h4 (by decide), h5 (by decide), h7 (by decide), h8 (by decide),
      h9 (by decide), h10 (by decide), h11 (by decide), h12 (by decide), h13 (by decide), h14 (by decide),
      h15 (by decide), h16 (by decide), h17 (by decide), h18 (by decide), h19 (by decide), h20 (by decide),
      h21 (by decide), h22 (by decide), h23 (by decide), h24 (by decide), h25 (by decide), h26 (by decide), h27 (by decide)⟩

@[simp] theorem State.raise_rest (f : FaultSpec) (s : State) :
    (State.raise f s).now = s.now ∧ (State.raise f s).cycles = s.cycles ∧ (State.raise f s).latches = s.latches ∧ (State.raise f s).node = s.node ∧
    (State.raise f s).sup = s.sup ∧ (State.raise f s).ic = s.ic ∧ (State.raise f s).hrt = s.hrt ∧ (State.raise f s).emb = s.emb ∧
    (State.raise f s).spm = s.spm ∧ (State.raise f s).gsr = s.gsr ∧ (State.raise f s).rep = s.rep ∧ (State.raise f s).chan = s.chan ∧
    (State.raise f s).grp = s.grp ∧ (State.raise f s).whl = s.whl ∧ (State.raise f s).ph = s.ph ∧ (State.raise f s).bar = s.bar ∧
    (State.raise f s).mfe = s.mfe ∧ (State.raise f s).tim = s.tim ∧ (State.raise f s).tsi = s.tsi ∧ (State.raise f s).flue = s.flue ∧
    (State.raise f s).ring = s.ring ∧ (State.raise f s).plug = s.plug ∧ (State.raise f s).work = s.work ∧ (State.raise f s).dist = s.dist ∧
    (State.raise f s).free = s.free ∧ (State.raise f s).pending = s.pending := by
  obtain ⟨h0, h1, h2, h3, h4, h5, h6, h7, h8, h9, h10, h11, h12, h13, h14, h15, h16, h17, h18, h19, h20, h21, h22, h23,
      h24, h25, h26, h27⟩ :=
    hide_parts (State.raise_hide _ _ _ (by decide : (65 : Nat) &&& 65 = 65))
  exact ⟨h1 (by decide), h2 (by decide), h3 (by decide), h4 (by decide), h5 (by decide), h7 (by decide), h8 (by decide),
      h9 (by decide), h10 (by decide), h11 (by decide), h12 (by decide), h13 (by decide), h14 (by decide),
      h15 (by decide), h16 (by decide), h17 (by decide), h18 (by decide), h19 (by decide), h20 (by decide),
      h21 (by decide), h22 (by decide), h23 (by decide), h24 (by decide), h25 (by decide), h26 (by decide), h27 (by decide)⟩

@[simp] theorem State.draw_rest (s : State) :
    (State.draw s).2.regs = s.regs ∧ (State.draw s).2.now = s.now ∧ (State.draw s).2.cycles = s.cycles ∧ (State.draw s).2.latches = s.latches ∧
    (State.draw s).2.node = s.node ∧ (State.draw s).2.sup = s.sup ∧ (State.draw s).2.col = s.col ∧ (State.draw s).2.ic = s.ic ∧
    (State.draw s).2.hrt = s.hrt ∧ (State.draw s).2.emb = s.emb ∧ (State.draw s).2.spm = s.spm ∧ (State.draw s).2.gsr = s.gsr ∧
    (State.draw s).2.rep = s.rep ∧ (State.draw s).2.chan = s.chan ∧ (State.draw s).2.grp = s.grp ∧ (State.draw s).2.whl = s.whl ∧
    (State.draw s).2.ph = s.ph ∧ (State.draw s).2.bar = s.bar ∧ (State.draw s).2.mfe = s.mfe ∧ (State.draw s).2.tim = s.tim ∧
    (State.draw s).2.tsi = s.tsi ∧ (State.draw s).2.flue = s.flue ∧ (State.draw s).2.ring = s.ring ∧ (State.draw s).2.plug = s.plug ∧
    (State.draw s).2.work = s.work ∧ (State.draw s).2.dist = s.dist ∧ (State.draw s).2.pending = s.pending := by
  obtain ⟨h0, h1, h2, h3, h4, h5, h6, h7, h8, h9, h10, h11, h12, h13, h14, h15, h16, h17, h18, h19, h20, h21, h22, h23,
      h24, h25, h26, h27⟩ :=
    hide_parts (State.draw_hide _ _ (by decide : (67108864 : Nat) &&& 67108864 = 67108864))
  exact ⟨h0 (by decide), h1 (by decide), h2 (by decide), h3 (by decide), h4 (by decide), h5 (by decide), h6 (by decide),
      h7 (by decide), h8 (by decide), h9 (by decide), h10 (by decide), h11 (by decide), h12 (by decide), h13 (by decide),
      h14 (by decide), h15 (by decide), h16 (by decide), h17 (by decide), h18 (by decide), h19 (by decide),
      h20 (by decide), h21 (by decide), h22 (by decide), h23 (by decide), h24 (by decide), h25 (by decide), h27 (by decide)⟩

@[simp] theorem State.draw_get (s : State) (f_ : Field) : (State.draw s).2.get f_ = s.get f_ := by
  unfold State.get; rw [(State.draw_rest _).1]

@[simp] theorem State.admitReports_rest (s : State) :
    (State.admitReports s).regs = s.regs ∧ (State.admitReports s).now = s.now ∧ (State.admitReports s).cycles = s.cycles ∧ (State.admitReports s).latches = s.latches ∧
    (State.admitReports s).node = s.node ∧ (State.admitReports s).sup = s.sup ∧ (State.admitReports s).col = s.col ∧ (State.admitReports s).ic = s.ic ∧
    (State.admitReports s).hrt = s.hrt ∧ (State.admitReports s).emb = s.emb ∧ (State.admitReports s).spm = s.spm ∧ (State.admitReports s).gsr = s.gsr ∧
    (State.admitReports s).chan = s.chan ∧ (State.admitReports s).grp = s.grp ∧ (State.admitReports s).whl = s.whl ∧ (State.admitReports s).ph = s.ph ∧
    (State.admitReports s).bar = s.bar ∧ (State.admitReports s).mfe = s.mfe ∧ (State.admitReports s).tim = s.tim ∧ (State.admitReports s).tsi = s.tsi ∧
    (State.admitReports s).flue = s.flue ∧ (State.admitReports s).ring = s.ring ∧ (State.admitReports s).plug = s.plug ∧ (State.admitReports s).work = s.work ∧
    (State.admitReports s).dist = s.dist ∧ (State.admitReports s).free = s.free ∧ (State.admitReports s).pending = s.pending := by
  obtain ⟨h0, h1, h2, h3, h4, h5, h6, h7, h8, h9, h10, h11, h12, h13, h14, h15, h16, h17, h18, h19, h20, h21, h22, h23,
      h24, h25, h26, h27⟩ :=
    hide_parts (State.admitReports_hide _ _ (by decide : (4096 : Nat) &&& 4096 = 4096))
  exact ⟨h0 (by decide), h1 (by decide), h2 (by decide), h3 (by decide), h4 (by decide), h5 (by decide), h6 (by decide),
      h7 (by decide), h8 (by decide), h9 (by decide), h10 (by decide), h11 (by decide), h13 (by decide), h14 (by decide),
      h15 (by decide), h16 (by decide), h17 (by decide), h18 (by decide), h19 (by decide), h20 (by decide),
      h21 (by decide), h22 (by decide), h23 (by decide), h24 (by decide), h25 (by decide), h26 (by decide), h27 (by decide)⟩

@[simp] theorem State.admitReports_get (s : State) (f_ : Field) : (State.admitReports s).get f_ = s.get f_ := by
  unfold State.get; rw [(State.admitReports_rest _).1]

@[simp] theorem State.queueReport_rest (r : Report) (s : State) :
    (State.queueReport r s).regs = s.regs ∧ (State.queueReport r s).now = s.now ∧ (State.queueReport r s).cycles = s.cycles ∧ (State.queueReport r s).latches = s.latches ∧
    (State.queueReport r s).node = s.node ∧ (State.queueReport r s).sup = s.sup ∧ (State.queueReport r s).col = s.col ∧ (State.queueReport r s).ic = s.ic ∧
    (State.queueReport r s).hrt = s.hrt ∧ (State.queueReport r s).emb = s.emb ∧ (State.queueReport r s).spm = s.spm ∧ (State.queueReport r s).gsr = s.gsr ∧
    (State.queueReport r s).chan = s.chan ∧ (State.queueReport r s).grp = s.grp ∧ (State.queueReport r s).whl = s.whl ∧ (State.queueReport r s).ph = s.ph ∧
    (State.queueReport r s).bar = s.bar ∧ (State.queueReport r s).mfe = s.mfe ∧ (State.queueReport r s).tim = s.tim ∧ (State.queueReport r s).tsi = s.tsi ∧
    (State.queueReport r s).flue = s.flue ∧ (State.queueReport r s).ring = s.ring ∧ (State.queueReport r s).plug = s.plug ∧ (State.queueReport r s).work = s.work ∧
    (State.queueReport r s).dist = s.dist ∧ (State.queueReport r s).free = s.free ∧ (State.queueReport r s).pending = s.pending := by
  obtain ⟨h0, h1, h2, h3, h4, h5, h6, h7, h8, h9, h10, h11, h12, h13, h14, h15, h16, h17, h18, h19, h20, h21, h22, h23,
      h24, h25, h26, h27⟩ :=
    hide_parts (State.queueReport_hide _ _ _ (by decide : (4096 : Nat) &&& 4096 = 4096))
  exact ⟨h0 (by decide), h1 (by decide), h2 (by decide), h3 (by decide), h4 (by decide), h5 (by decide), h6 (by decide),
      h7 (by decide), h8 (by decide), h9 (by decide), h10 (by decide), h11 (by decide), h13 (by decide), h14 (by decide),
      h15 (by decide), h16 (by decide), h17 (by decide), h18 (by decide), h19 (by decide), h20 (by decide),
      h21 (by decide), h22 (by decide), h23 (by decide), h24 (by decide), h25 (by decide), h26 (by decide), h27 (by decide)⟩

@[simp] theorem State.queueReport_get (r : Report) (s : State) (f_ : Field) : (State.queueReport r s).get f_ = s.get f_ := by
  unfold State.get; rw [(State.queueReport_rest _ _).1]

@[simp] theorem State.setBar_rest (b : Barrier) (s : State) :
    (State.setBar b s).regs = s.regs ∧ (State.setBar b s).now = s.now ∧ (State.setBar b s).cycles = s.cycles ∧ (State.setBar b s).latches = s.latches ∧
    (State.setBar b s).node = s.node ∧ (State.setBar b s).sup = s.sup ∧ (State.setBar b s).col = s.col ∧ (State.setBar b s).ic = s.ic ∧
    (State.setBar b s).hrt = s.hrt ∧ (State.setBar b s).emb = s.emb ∧ (State.setBar b s).spm = s.spm ∧ (State.setBar b s).gsr = s.gsr ∧
    (State.setBar b s).rep = s.rep ∧ (State.setBar b s).chan = s.chan ∧ (State.setBar b s).grp = s.grp ∧ (State.setBar b s).whl = s.whl ∧
    (State.setBar b s).ph = s.ph ∧ (State.setBar b s).mfe = s.mfe ∧ (State.setBar b s).tim = s.tim ∧ (State.setBar b s).tsi = s.tsi ∧
    (State.setBar b s).flue = s.flue ∧ (State.setBar b s).ring = s.ring ∧ (State.setBar b s).plug = s.plug ∧ (State.setBar b s).work = s.work ∧
    (State.setBar b s).dist = s.dist ∧ (State.setBar b s).free = s.free ∧ (State.setBar b s).pending = s.pending := by
  obtain ⟨h0, h1, h2, h3, h4, h5, h6, h7, h8, h9, h10, h11, h12, h13, h14, h15, h16, h17, h18, h19, h20, h21, h22, h23,
      h24, h25, h26, h27⟩ :=
    hide_parts (State.setBar_hide _ _ _ (by decide : (131072 : Nat) &&& 131072 = 131072))
  exact ⟨h0 (by decide), h1 (by decide), h2 (by decide), h3 (by decide), h4 (by decide), h5 (by decide), h6 (by decide),
      h7 (by decide), h8 (by decide), h9 (by decide), h10 (by decide), h11 (by decide), h12 (by decide), h13 (by decide),
      h14 (by decide), h15 (by decide), h16 (by decide), h18 (by decide), h19 (by decide), h20 (by decide),
      h21 (by decide), h22 (by decide), h23 (by decide), h24 (by decide), h25 (by decide), h26 (by decide), h27 (by decide)⟩

@[simp] theorem State.setBar_get (b : Barrier) (s : State) (f_ : Field) : (State.setBar b s).get f_ = s.get f_ := by
  unfold State.get; rw [(State.setBar_rest _ _).1]

@[simp] theorem State.setC_rest (c : Fin 64) (x : Chan) (s : State) :
    (State.setC c x s).regs = s.regs ∧ (State.setC c x s).now = s.now ∧ (State.setC c x s).cycles = s.cycles ∧ (State.setC c x s).latches = s.latches ∧
    (State.setC c x s).node = s.node ∧ (State.setC c x s).sup = s.sup ∧ (State.setC c x s).col = s.col ∧ (State.setC c x s).ic = s.ic ∧
    (State.setC c x s).hrt = s.hrt ∧ (State.setC c x s).emb = s.emb ∧ (State.setC c x s).spm = s.spm ∧ (State.setC c x s).gsr = s.gsr ∧
    (State.setC c x s).rep = s.rep ∧ (State.setC c x s).grp = s.grp ∧ (State.setC c x s).whl = s.whl ∧ (State.setC c x s).ph = s.ph ∧
    (State.setC c x s).bar = s.bar ∧ (State.setC c x s).mfe = s.mfe ∧ (State.setC c x s).tim = s.tim ∧ (State.setC c x s).tsi = s.tsi ∧
    (State.setC c x s).flue = s.flue ∧ (State.setC c x s).ring = s.ring ∧ (State.setC c x s).plug = s.plug ∧ (State.setC c x s).work = s.work ∧
    (State.setC c x s).dist = s.dist ∧ (State.setC c x s).free = s.free ∧ (State.setC c x s).pending = s.pending := by
  obtain ⟨h0, h1, h2, h3, h4, h5, h6, h7, h8, h9, h10, h11, h12, h13, h14, h15, h16, h17, h18, h19, h20, h21, h22, h23,
      h24, h25, h26, h27⟩ :=
    hide_parts (State.setC_hide _ _ _ _ (by decide : (8192 : Nat) &&& 8192 = 8192))
  exact ⟨h0 (by decide), h1 (by decide), h2 (by decide), h3 (by decide), h4 (by decide), h5 (by decide), h6 (by decide),
      h7 (by decide), h8 (by decide), h9 (by decide), h10 (by decide), h11 (by decide), h12 (by decide), h14 (by decide),
      h15 (by decide), h16 (by decide), h17 (by decide), h18 (by decide), h19 (by decide), h20 (by decide),
      h21 (by decide), h22 (by decide), h23 (by decide), h24 (by decide), h25 (by decide), h26 (by decide), h27 (by decide)⟩

@[simp] theorem State.setC_get (c : Fin 64) (x : Chan) (s : State) (f_ : Field) : (State.setC c x s).get f_ = s.get f_ := by
  unfold State.get; rw [(State.setC_rest _ _ _).1]

@[simp] theorem State.modC_rest (c : Fin 64) (f : Chan → Chan) (s : State) :
    (State.modC c f s).regs = s.regs ∧ (State.modC c f s).now = s.now ∧ (State.modC c f s).cycles = s.cycles ∧ (State.modC c f s).latches = s.latches ∧
    (State.modC c f s).node = s.node ∧ (State.modC c f s).sup = s.sup ∧ (State.modC c f s).col = s.col ∧ (State.modC c f s).ic = s.ic ∧
    (State.modC c f s).hrt = s.hrt ∧ (State.modC c f s).emb = s.emb ∧ (State.modC c f s).spm = s.spm ∧ (State.modC c f s).gsr = s.gsr ∧
    (State.modC c f s).rep = s.rep ∧ (State.modC c f s).grp = s.grp ∧ (State.modC c f s).whl = s.whl ∧ (State.modC c f s).ph = s.ph ∧
    (State.modC c f s).bar = s.bar ∧ (State.modC c f s).mfe = s.mfe ∧ (State.modC c f s).tim = s.tim ∧ (State.modC c f s).tsi = s.tsi ∧
    (State.modC c f s).flue = s.flue ∧ (State.modC c f s).ring = s.ring ∧ (State.modC c f s).plug = s.plug ∧ (State.modC c f s).work = s.work ∧
    (State.modC c f s).dist = s.dist ∧ (State.modC c f s).free = s.free ∧ (State.modC c f s).pending = s.pending := by
  obtain ⟨h0, h1, h2, h3, h4, h5, h6, h7, h8, h9, h10, h11, h12, h13, h14, h15, h16, h17, h18, h19, h20, h21, h22, h23,
      h24, h25, h26, h27⟩ :=
    hide_parts (State.modC_hide _ _ _ _ (by decide : (8192 : Nat) &&& 8192 = 8192))
  exact ⟨h0 (by decide), h1 (by decide), h2 (by decide), h3 (by decide), h4 (by decide), h5 (by decide), h6 (by decide),
      h7 (by decide), h8 (by decide), h9 (by decide), h10 (by decide), h11 (by decide), h12 (by decide), h14 (by decide),
      h15 (by decide), h16 (by decide), h17 (by decide), h18 (by decide), h19 (by decide), h20 (by decide),
      h21 (by decide), h22 (by decide), h23 (by decide), h24 (by decide), h25 (by decide), h26 (by decide), h27 (by decide)⟩

@[simp] theorem State.modC_get (c : Fin 64) (f : Chan → Chan) (s : State) (f_ : Field) : (State.modC c f s).get f_ = s.get f_ := by
  unfold State.get; rw [(State.modC_rest _ _ _).1]

@[simp] theorem State.setGrp_rest (g : Fin 3) (x : Group) (s : State) :
    (State.setGrp g x s).regs = s.regs ∧ (State.setGrp g x s).now = s.now ∧ (State.setGrp g x s).cycles = s.cycles ∧ (State.setGrp g x s).latches = s.latches ∧
    (State.setGrp g x s).node = s.node ∧ (State.setGrp g x s).sup = s.sup ∧ (State.setGrp g x s).col = s.col ∧ (State.setGrp g x s).ic = s.ic ∧
    (State.setGrp g x s).hrt = s.hrt ∧ (State.setGrp g x s).emb = s.emb ∧ (State.setGrp g x s).spm = s.spm ∧ (State.setGrp g x s).gsr = s.gsr ∧
    (State.setGrp g x s).rep = s.rep ∧ (State.setGrp g x s).chan = s.chan ∧ (State.setGrp g x s).whl = s.whl ∧ (State.setGrp g x s).ph = s.ph ∧
    (State.setGrp g x s).bar = s.bar ∧ (State.setGrp g x s).mfe = s.mfe ∧ (State.setGrp g x s).tim = s.tim ∧ (State.setGrp g x s).tsi = s.tsi ∧
    (State.setGrp g x s).flue = s.flue ∧ (State.setGrp g x s).ring = s.ring ∧ (State.setGrp g x s).plug = s.plug ∧ (State.setGrp g x s).work = s.work ∧
    (State.setGrp g x s).dist = s.dist ∧ (State.setGrp g x s).free = s.free ∧ (State.setGrp g x s).pending = s.pending := by
  obtain ⟨h0, h1, h2, h3, h4, h5, h6, h7, h8, h9, h10, h11, h12, h13, h14, h15, h16, h17, h18, h19, h20, h21, h22, h23,
      h24, h25, h26, h27⟩ :=
    hide_parts (State.setGrp_hide _ _ _ _ (by decide : (16384 : Nat) &&& 16384 = 16384))
  exact ⟨h0 (by decide), h1 (by decide), h2 (by decide), h3 (by decide), h4 (by decide), h5 (by decide), h6 (by decide),
      h7 (by decide), h8 (by decide), h9 (by decide), h10 (by decide), h11 (by decide), h12 (by decide), h13 (by decide),
      h15 (by decide), h16 (by decide), h17 (by decide), h18 (by decide), h19 (by decide), h20 (by decide),
      h21 (by decide), h22 (by decide), h23 (by decide), h24 (by decide), h25 (by decide), h26 (by decide), h27 (by decide)⟩

@[simp] theorem State.setGrp_get (g : Fin 3) (x : Group) (s : State) (f_ : Field) : (State.setGrp g x s).get f_ = s.get f_ := by
  unfold State.get; rw [(State.setGrp_rest _ _ _).1]

@[simp] theorem State.modGrp_rest (g : Fin 3) (f : Group → Group) (s : State) :
    (State.modGrp g f s).regs = s.regs ∧ (State.modGrp g f s).now = s.now ∧ (State.modGrp g f s).cycles = s.cycles ∧ (State.modGrp g f s).latches = s.latches ∧
    (State.modGrp g f s).node = s.node ∧ (State.modGrp g f s).sup = s.sup ∧ (State.modGrp g f s).col = s.col ∧ (State.modGrp g f s).ic = s.ic ∧
    (State.modGrp g f s).hrt = s.hrt ∧ (State.modGrp g f s).emb = s.emb ∧ (State.modGrp g f s).spm = s.spm ∧ (State.modGrp g f s).gsr = s.gsr ∧
    (State.modGrp g f s).rep = s.rep ∧ (State.modGrp g f s).chan = s.chan ∧ (State.modGrp g f s).whl = s.whl ∧ (State.modGrp g f s).ph = s.ph ∧
    (State.modGrp g f s).bar = s.bar ∧ (State.modGrp g f s).mfe = s.mfe ∧ (State.modGrp g f s).tim = s.tim ∧ (State.modGrp g f s).tsi = s.tsi ∧
    (State.modGrp g f s).flue = s.flue ∧ (State.modGrp g f s).ring = s.ring ∧ (State.modGrp g f s).plug = s.plug ∧ (State.modGrp g f s).work = s.work ∧
    (State.modGrp g f s).dist = s.dist ∧ (State.modGrp g f s).free = s.free ∧ (State.modGrp g f s).pending = s.pending := by
  obtain ⟨h0, h1, h2, h3, h4, h5, h6, h7, h8, h9, h10, h11, h12, h13, h14, h15, h16, h17, h18, h19, h20, h21, h22, h23,
      h24, h25, h26, h27⟩ :=
    hide_parts (State.modGrp_hide _ _ _ _ (by decide : (16384 : Nat) &&& 16384 = 16384))
  exact ⟨h0 (by decide), h1 (by decide), h2 (by decide), h3 (by decide), h4 (by decide), h5 (by decide), h6 (by decide),
      h7 (by decide), h8 (by decide), h9 (by decide), h10 (by decide), h11 (by decide), h12 (by decide), h13 (by decide),
      h15 (by decide), h16 (by decide), h17 (by decide), h18 (by decide), h19 (by decide), h20 (by decide),
      h21 (by decide), h22 (by decide), h23 (by decide), h24 (by decide), h25 (by decide), h26 (by decide), h27 (by decide)⟩

@[simp] theorem State.modGrp_get (g : Fin 3) (f : Group → Group) (s : State) (f_ : Field) : (State.modGrp g f s).get f_ = s.get f_ := by
  unfold State.get; rw [(State.modGrp_rest _ _ _).1]

@[simp] theorem State.setE_rest (e : Fin 4) (m : Ember) (s : State) :
    (State.setE e m s).regs = s.regs ∧ (State.setE e m s).now = s.now ∧ (State.setE e m s).cycles = s.cycles ∧ (State.setE e m s).latches = s.latches ∧
    (State.setE e m s).node = s.node ∧ (State.setE e m s).sup = s.sup ∧ (State.setE e m s).col = s.col ∧ (State.setE e m s).ic = s.ic ∧
    (State.setE e m s).hrt = s.hrt ∧ (State.setE e m s).spm = s.spm ∧ (State.setE e m s).gsr = s.gsr ∧ (State.setE e m s).rep = s.rep ∧
    (State.setE e m s).chan = s.chan ∧ (State.setE e m s).grp = s.grp ∧ (State.setE e m s).whl = s.whl ∧ (State.setE e m s).ph = s.ph ∧
    (State.setE e m s).bar = s.bar ∧ (State.setE e m s).mfe = s.mfe ∧ (State.setE e m s).tim = s.tim ∧ (State.setE e m s).tsi = s.tsi ∧
    (State.setE e m s).flue = s.flue ∧ (State.setE e m s).ring = s.ring ∧ (State.setE e m s).plug = s.plug ∧ (State.setE e m s).work = s.work ∧
    (State.setE e m s).dist = s.dist ∧ (State.setE e m s).free = s.free ∧ (State.setE e m s).pending = s.pending := by
  obtain ⟨h0, h1, h2, h3, h4, h5, h6, h7, h8, h9, h10, h11, h12, h13, h14, h15, h16, h17, h18, h19, h20, h21, h22, h23,
      h24, h25, h26, h27⟩ :=
    hide_parts (State.setE_hide _ _ _ _ (by decide : (512 : Nat) &&& 512 = 512))
  exact ⟨h0 (by decide), h1 (by decide), h2 (by decide), h3 (by decide), h4 (by decide), h5 (by decide), h6 (by decide),
      h7 (by decide), h8 (by decide), h10 (by decide), h11 (by decide), h12 (by decide), h13 (by decide),
      h14 (by decide), h15 (by decide), h16 (by decide), h17 (by decide), h18 (by decide), h19 (by decide),
      h20 (by decide), h21 (by decide), h22 (by decide), h23 (by decide), h24 (by decide), h25 (by decide),
      h26 (by decide), h27 (by decide)⟩

@[simp] theorem State.setE_get (e : Fin 4) (m : Ember) (s : State) (f_ : Field) : (State.setE e m s).get f_ = s.get f_ := by
  unfold State.get; rw [(State.setE_rest _ _ _).1]

@[simp] theorem State.modE_rest (e : Fin 4) (f : Ember → Ember) (s : State) :
    (State.modE e f s).regs = s.regs ∧ (State.modE e f s).now = s.now ∧ (State.modE e f s).cycles = s.cycles ∧ (State.modE e f s).latches = s.latches ∧
    (State.modE e f s).node = s.node ∧ (State.modE e f s).sup = s.sup ∧ (State.modE e f s).col = s.col ∧ (State.modE e f s).ic = s.ic ∧
    (State.modE e f s).hrt = s.hrt ∧ (State.modE e f s).spm = s.spm ∧ (State.modE e f s).gsr = s.gsr ∧ (State.modE e f s).rep = s.rep ∧
    (State.modE e f s).chan = s.chan ∧ (State.modE e f s).grp = s.grp ∧ (State.modE e f s).whl = s.whl ∧ (State.modE e f s).ph = s.ph ∧
    (State.modE e f s).bar = s.bar ∧ (State.modE e f s).mfe = s.mfe ∧ (State.modE e f s).tim = s.tim ∧ (State.modE e f s).tsi = s.tsi ∧
    (State.modE e f s).flue = s.flue ∧ (State.modE e f s).ring = s.ring ∧ (State.modE e f s).plug = s.plug ∧ (State.modE e f s).work = s.work ∧
    (State.modE e f s).dist = s.dist ∧ (State.modE e f s).free = s.free ∧ (State.modE e f s).pending = s.pending := by
  obtain ⟨h0, h1, h2, h3, h4, h5, h6, h7, h8, h9, h10, h11, h12, h13, h14, h15, h16, h17, h18, h19, h20, h21, h22, h23,
      h24, h25, h26, h27⟩ :=
    hide_parts (State.modE_hide _ _ _ _ (by decide : (512 : Nat) &&& 512 = 512))
  exact ⟨h0 (by decide), h1 (by decide), h2 (by decide), h3 (by decide), h4 (by decide), h5 (by decide), h6 (by decide),
      h7 (by decide), h8 (by decide), h10 (by decide), h11 (by decide), h12 (by decide), h13 (by decide),
      h14 (by decide), h15 (by decide), h16 (by decide), h17 (by decide), h18 (by decide), h19 (by decide),
      h20 (by decide), h21 (by decide), h22 (by decide), h23 (by decide), h24 (by decide), h25 (by decide),
      h26 (by decide), h27 (by decide)⟩

@[simp] theorem State.modE_get (e : Fin 4) (f : Ember → Ember) (s : State) (f_ : Field) : (State.modE e f s).get f_ = s.get f_ := by
  unfold State.get; rw [(State.modE_rest _ _ _).1]

@[simp] theorem State.setG_rest (g : Fin 8) (c : GChan) (s : State) :
    (State.setG g c s).regs = s.regs ∧ (State.setG g c s).now = s.now ∧ (State.setG g c s).cycles = s.cycles ∧ (State.setG g c s).latches = s.latches ∧
    (State.setG g c s).node = s.node ∧ (State.setG g c s).sup = s.sup ∧ (State.setG g c s).col = s.col ∧ (State.setG g c s).ic = s.ic ∧
    (State.setG g c s).hrt = s.hrt ∧ (State.setG g c s).emb = s.emb ∧ (State.setG g c s).spm = s.spm ∧ (State.setG g c s).rep = s.rep ∧
    (State.setG g c s).chan = s.chan ∧ (State.setG g c s).grp = s.grp ∧ (State.setG g c s).whl = s.whl ∧ (State.setG g c s).ph = s.ph ∧
    (State.setG g c s).bar = s.bar ∧ (State.setG g c s).mfe = s.mfe ∧ (State.setG g c s).tim = s.tim ∧ (State.setG g c s).tsi = s.tsi ∧
    (State.setG g c s).flue = s.flue ∧ (State.setG g c s).ring = s.ring ∧ (State.setG g c s).plug = s.plug ∧ (State.setG g c s).work = s.work ∧
    (State.setG g c s).dist = s.dist ∧ (State.setG g c s).free = s.free ∧ (State.setG g c s).pending = s.pending := by
  obtain ⟨h0, h1, h2, h3, h4, h5, h6, h7, h8, h9, h10, h11, h12, h13, h14, h15, h16, h17, h18, h19, h20, h21, h22, h23,
      h24, h25, h26, h27⟩ :=
    hide_parts (State.setG_hide _ _ _ _ (by decide : (2048 : Nat) &&& 2048 = 2048))
  exact ⟨h0 (by decide), h1 (by decide), h2 (by decide), h3 (by decide), h4 (by decide), h5 (by decide), h6 (by decide),
      h7 (by decide), h8 (by decide), h9 (by decide), h10 (by decide), h12 (by decide), h13 (by decide), h14 (by decide),
      h15 (by decide), h16 (by decide), h17 (by decide), h18 (by decide), h19 (by decide), h20 (by decide),
      h21 (by decide), h22 (by decide), h23 (by decide), h24 (by decide), h25 (by decide), h26 (by decide), h27 (by decide)⟩

@[simp] theorem State.setG_get (g : Fin 8) (c : GChan) (s : State) (f_ : Field) : (State.setG g c s).get f_ = s.get f_ := by
  unfold State.get; rw [(State.setG_rest _ _ _).1]

@[simp] theorem State.modG_rest (g : Fin 8) (f : GChan → GChan) (s : State) :
    (State.modG g f s).regs = s.regs ∧ (State.modG g f s).now = s.now ∧ (State.modG g f s).cycles = s.cycles ∧ (State.modG g f s).latches = s.latches ∧
    (State.modG g f s).node = s.node ∧ (State.modG g f s).sup = s.sup ∧ (State.modG g f s).col = s.col ∧ (State.modG g f s).ic = s.ic ∧
    (State.modG g f s).hrt = s.hrt ∧ (State.modG g f s).emb = s.emb ∧ (State.modG g f s).spm = s.spm ∧ (State.modG g f s).rep = s.rep ∧
    (State.modG g f s).chan = s.chan ∧ (State.modG g f s).grp = s.grp ∧ (State.modG g f s).whl = s.whl ∧ (State.modG g f s).ph = s.ph ∧
    (State.modG g f s).bar = s.bar ∧ (State.modG g f s).mfe = s.mfe ∧ (State.modG g f s).tim = s.tim ∧ (State.modG g f s).tsi = s.tsi ∧
    (State.modG g f s).flue = s.flue ∧ (State.modG g f s).ring = s.ring ∧ (State.modG g f s).plug = s.plug ∧ (State.modG g f s).work = s.work ∧
    (State.modG g f s).dist = s.dist ∧ (State.modG g f s).free = s.free ∧ (State.modG g f s).pending = s.pending := by
  obtain ⟨h0, h1, h2, h3, h4, h5, h6, h7, h8, h9, h10, h11, h12, h13, h14, h15, h16, h17, h18, h19, h20, h21, h22, h23,
      h24, h25, h26, h27⟩ :=
    hide_parts (State.modG_hide _ _ _ _ (by decide : (2048 : Nat) &&& 2048 = 2048))
  exact ⟨h0 (by decide), h1 (by decide), h2 (by decide), h3 (by decide), h4 (by decide), h5 (by decide), h6 (by decide),
      h7 (by decide), h8 (by decide), h9 (by decide), h10 (by decide), h12 (by decide), h13 (by decide), h14 (by decide),
      h15 (by decide), h16 (by decide), h17 (by decide), h18 (by decide), h19 (by decide), h20 (by decide),
      h21 (by decide), h22 (by decide), h23 (by decide), h24 (by decide), h25 (by decide), h26 (by decide), h27 (by decide)⟩

@[simp] theorem State.modG_get (g : Fin 8) (f : GChan → GChan) (s : State) (f_ : Field) : (State.modG g f s).get f_ = s.get f_ := by
  unfold State.get; rw [(State.modG_rest _ _ _).1]

@[simp] theorem State.modNode_rest (f : Node → Node) (s : State) :
    (State.modNode f s).regs = s.regs ∧ (State.modNode f s).now = s.now ∧ (State.modNode f s).cycles = s.cycles ∧ (State.modNode f s).latches = s.latches ∧
    (State.modNode f s).sup = s.sup ∧ (State.modNode f s).col = s.col ∧ (State.modNode f s).ic = s.ic ∧ (State.modNode f s).hrt = s.hrt ∧
    (State.modNode f s).emb = s.emb ∧ (State.modNode f s).spm = s.spm ∧ (State.modNode f s).gsr = s.gsr ∧ (State.modNode f s).rep = s.rep ∧
    (State.modNode f s).chan = s.chan ∧ (State.modNode f s).grp = s.grp ∧ (State.modNode f s).whl = s.whl ∧ (State.modNode f s).ph = s.ph ∧
    (State.modNode f s).bar = s.bar ∧ (State.modNode f s).mfe = s.mfe ∧ (State.modNode f s).tim = s.tim ∧ (State.modNode f s).tsi = s.tsi ∧
    (State.modNode f s).flue = s.flue ∧ (State.modNode f s).ring = s.ring ∧ (State.modNode f s).plug = s.plug ∧ (State.modNode f s).work = s.work ∧
    (State.modNode f s).dist = s.dist ∧ (State.modNode f s).free = s.free ∧ (State.modNode f s).pending = s.pending := by
  obtain ⟨h0, h1, h2, h3, h4, h5, h6, h7, h8, h9, h10, h11, h12, h13, h14, h15, h16, h17, h18, h19, h20, h21, h22, h23,
      h24, h25, h26, h27⟩ :=
    hide_parts (State.modNode_hide _ _ _ (by decide : (16 : Nat) &&& 16 = 16))
  exact ⟨h0 (by decide), h1 (by decide), h2 (by decide), h3 (by decide), h5 (by decide), h6 (by decide), h7 (by decide),
      h8 (by decide), h9 (by decide), h10 (by decide), h11 (by decide), h12 (by decide), h13 (by decide),
      h14 (by decide), h15 (by decide), h16 (by decide), h17 (by decide), h18 (by decide), h19 (by decide),
      h20 (by decide), h21 (by decide), h22 (by decide), h23 (by decide), h24 (by decide), h25 (by decide),
      h26 (by decide), h27 (by decide)⟩

@[simp] theorem State.modNode_get (f : Node → Node) (s : State) (f_ : Field) : (State.modNode f s).get f_ = s.get f_ := by
  unfold State.get; rw [(State.modNode_rest _ _).1]

@[simp] theorem State.setM_rest (m : Mfe) (s : State) :
    (State.setM m s).regs = s.regs ∧ (State.setM m s).now = s.now ∧ (State.setM m s).cycles = s.cycles ∧ (State.setM m s).latches = s.latches ∧
    (State.setM m s).node = s.node ∧ (State.setM m s).sup = s.sup ∧ (State.setM m s).col = s.col ∧ (State.setM m s).ic = s.ic ∧
    (State.setM m s).hrt = s.hrt ∧ (State.setM m s).emb = s.emb ∧ (State.setM m s).spm = s.spm ∧ (State.setM m s).gsr = s.gsr ∧
    (State.setM m s).rep = s.rep ∧ (State.setM m s).chan = s.chan ∧ (State.setM m s).grp = s.grp ∧ (State.setM m s).whl = s.whl ∧
    (State.setM m s).ph = s.ph ∧ (State.setM m s).bar = s.bar ∧ (State.setM m s).tim = s.tim ∧ (State.setM m s).tsi = s.tsi ∧
    (State.setM m s).flue = s.flue ∧ (State.setM m s).ring = s.ring ∧ (State.setM m s).plug = s.plug ∧ (State.setM m s).work = s.work ∧
    (State.setM m s).dist = s.dist ∧ (State.setM m s).free = s.free ∧ (State.setM m s).pending = s.pending := by
  obtain ⟨h0, h1, h2, h3, h4, h5, h6, h7, h8, h9, h10, h11, h12, h13, h14, h15, h16, h17, h18, h19, h20, h21, h22, h23,
      h24, h25, h26, h27⟩ :=
    hide_parts (State.setM_hide _ _ _ (by decide : (262144 : Nat) &&& 262144 = 262144))
  exact ⟨h0 (by decide), h1 (by decide), h2 (by decide), h3 (by decide), h4 (by decide), h5 (by decide), h6 (by decide),
      h7 (by decide), h8 (by decide), h9 (by decide), h10 (by decide), h11 (by decide), h12 (by decide), h13 (by decide),
      h14 (by decide), h15 (by decide), h16 (by decide), h17 (by decide), h19 (by decide), h20 (by decide),
      h21 (by decide), h22 (by decide), h23 (by decide), h24 (by decide), h25 (by decide), h26 (by decide), h27 (by decide)⟩

@[simp] theorem State.setM_get (m : Mfe) (s : State) (f_ : Field) : (State.setM m s).get f_ = s.get f_ := by
  unfold State.get; rw [(State.setM_rest _ _).1]

@[simp] theorem State.modM_rest (f : Mfe → Mfe) (s : State) :
    (State.modM f s).regs = s.regs ∧ (State.modM f s).now = s.now ∧ (State.modM f s).cycles = s.cycles ∧ (State.modM f s).latches = s.latches ∧
    (State.modM f s).node = s.node ∧ (State.modM f s).sup = s.sup ∧ (State.modM f s).col = s.col ∧ (State.modM f s).ic = s.ic ∧
    (State.modM f s).hrt = s.hrt ∧ (State.modM f s).emb = s.emb ∧ (State.modM f s).spm = s.spm ∧ (State.modM f s).gsr = s.gsr ∧
    (State.modM f s).rep = s.rep ∧ (State.modM f s).chan = s.chan ∧ (State.modM f s).grp = s.grp ∧ (State.modM f s).whl = s.whl ∧
    (State.modM f s).ph = s.ph ∧ (State.modM f s).bar = s.bar ∧ (State.modM f s).tim = s.tim ∧ (State.modM f s).tsi = s.tsi ∧
    (State.modM f s).flue = s.flue ∧ (State.modM f s).ring = s.ring ∧ (State.modM f s).plug = s.plug ∧ (State.modM f s).work = s.work ∧
    (State.modM f s).dist = s.dist ∧ (State.modM f s).free = s.free ∧ (State.modM f s).pending = s.pending := by
  obtain ⟨h0, h1, h2, h3, h4, h5, h6, h7, h8, h9, h10, h11, h12, h13, h14, h15, h16, h17, h18, h19, h20, h21, h22, h23,
      h24, h25, h26, h27⟩ :=
    hide_parts (State.modM_hide _ _ _ (by decide : (262144 : Nat) &&& 262144 = 262144))
  exact ⟨h0 (by decide), h1 (by decide), h2 (by decide), h3 (by decide), h4 (by decide), h5 (by decide), h6 (by decide),
      h7 (by decide), h8 (by decide), h9 (by decide), h10 (by decide), h11 (by decide), h12 (by decide), h13 (by decide),
      h14 (by decide), h15 (by decide), h16 (by decide), h17 (by decide), h19 (by decide), h20 (by decide),
      h21 (by decide), h22 (by decide), h23 (by decide), h24 (by decide), h25 (by decide), h26 (by decide), h27 (by decide)⟩

@[simp] theorem State.modM_get (f : Mfe → Mfe) (s : State) (f_ : Field) : (State.modM f s).get f_ = s.get f_ := by
  unfold State.get; rw [(State.modM_rest _ _).1]

@[simp] theorem State.modRing_rest (f : Ring → Ring) (s : State) :
    (State.modRing f s).regs = s.regs ∧ (State.modRing f s).now = s.now ∧ (State.modRing f s).cycles = s.cycles ∧ (State.modRing f s).latches = s.latches ∧
    (State.modRing f s).node = s.node ∧ (State.modRing f s).sup = s.sup ∧ (State.modRing f s).col = s.col ∧ (State.modRing f s).ic = s.ic ∧
    (State.modRing f s).hrt = s.hrt ∧ (State.modRing f s).emb = s.emb ∧ (State.modRing f s).spm = s.spm ∧ (State.modRing f s).gsr = s.gsr ∧
    (State.modRing f s).rep = s.rep ∧ (State.modRing f s).chan = s.chan ∧ (State.modRing f s).grp = s.grp ∧ (State.modRing f s).whl = s.whl ∧
    (State.modRing f s).ph = s.ph ∧ (State.modRing f s).bar = s.bar ∧ (State.modRing f s).mfe = s.mfe ∧ (State.modRing f s).tim = s.tim ∧
    (State.modRing f s).tsi = s.tsi ∧ (State.modRing f s).flue = s.flue ∧ (State.modRing f s).plug = s.plug ∧ (State.modRing f s).work = s.work ∧
    (State.modRing f s).dist = s.dist ∧ (State.modRing f s).free = s.free ∧ (State.modRing f s).pending = s.pending := by
  obtain ⟨h0, h1, h2, h3, h4, h5, h6, h7, h8, h9, h10, h11, h12, h13, h14, h15, h16, h17, h18, h19, h20, h21, h22, h23,
      h24, h25, h26, h27⟩ :=
    hide_parts (State.modRing_hide _ _ _ (by decide : (4194304 : Nat) &&& 4194304 = 4194304))
  exact ⟨h0 (by decide), h1 (by decide), h2 (by decide), h3 (by decide), h4 (by decide), h5 (by decide), h6 (by decide),
      h7 (by decide), h8 (by decide), h9 (by decide), h10 (by decide), h11 (by decide), h12 (by decide), h13 (by decide),
      h14 (by decide), h15 (by decide), h16 (by decide), h17 (by decide), h18 (by decide), h19 (by decide),
      h20 (by decide), h21 (by decide), h23 (by decide), h24 (by decide), h25 (by decide), h26 (by decide), h27 (by decide)⟩

@[simp] theorem State.modRing_get (f : Ring → Ring) (s : State) (f_ : Field) : (State.modRing f s).get f_ = s.get f_ := by
  unfold State.get; rw [(State.modRing_rest _ _).1]

@[simp] theorem State.modPort_rest (p : Fin 4) (f : Port → Port) (s : State) :
    (State.modPort p f s).regs = s.regs ∧ (State.modPort p f s).now = s.now ∧ (State.modPort p f s).cycles = s.cycles ∧ (State.modPort p f s).latches = s.latches ∧
    (State.modPort p f s).node = s.node ∧ (State.modPort p f s).sup = s.sup ∧ (State.modPort p f s).col = s.col ∧ (State.modPort p f s).ic = s.ic ∧
    (State.modPort p f s).hrt = s.hrt ∧ (State.modPort p f s).emb = s.emb ∧ (State.modPort p f s).spm = s.spm ∧ (State.modPort p f s).gsr = s.gsr ∧
    (State.modPort p f s).rep = s.rep ∧ (State.modPort p f s).chan = s.chan ∧ (State.modPort p f s).grp = s.grp ∧ (State.modPort p f s).whl = s.whl ∧
    (State.modPort p f s).ph = s.ph ∧ (State.modPort p f s).bar = s.bar ∧ (State.modPort p f s).mfe = s.mfe ∧ (State.modPort p f s).tim = s.tim ∧
    (State.modPort p f s).tsi = s.tsi ∧ (State.modPort p f s).flue = s.flue ∧ (State.modPort p f s).plug = s.plug ∧ (State.modPort p f s).work = s.work ∧
    (State.modPort p f s).dist = s.dist ∧ (State.modPort p f s).free = s.free ∧ (State.modPort p f s).pending = s.pending := by
  obtain ⟨h0, h1, h2, h3, h4, h5, h6, h7, h8, h9, h10, h11, h12, h13, h14, h15, h16, h17, h18, h19, h20, h21, h22, h23,
      h24, h25, h26, h27⟩ :=
    hide_parts (State.modPort_hide _ _ _ _ (by decide : (4194304 : Nat) &&& 4194304 = 4194304))
  exact ⟨h0 (by decide), h1 (by decide), h2 (by decide), h3 (by decide), h4 (by decide), h5 (by decide), h6 (by decide),
      h7 (by decide), h8 (by decide), h9 (by decide), h10 (by decide), h11 (by decide), h12 (by decide), h13 (by decide),
      h14 (by decide), h15 (by decide), h16 (by decide), h17 (by decide), h18 (by decide), h19 (by decide),
      h20 (by decide), h21 (by decide), h23 (by decide), h24 (by decide), h25 (by decide), h26 (by decide), h27 (by decide)⟩

@[simp] theorem State.modPort_get (p : Fin 4) (f : Port → Port) (s : State) (f_ : Field) : (State.modPort p f s).get f_ = s.get f_ := by
  unfold State.get; rw [(State.modPort_rest _ _ _).1]

@[simp] theorem State.modPerf_rest (p : Fin 4) (f : PortPerf → PortPerf) (s : State) :
    (State.modPerf p f s).regs = s.regs ∧ (State.modPerf p f s).now = s.now ∧ (State.modPerf p f s).cycles = s.cycles ∧ (State.modPerf p f s).latches = s.latches ∧
    (State.modPerf p f s).node = s.node ∧ (State.modPerf p f s).sup = s.sup ∧ (State.modPerf p f s).col = s.col ∧ (State.modPerf p f s).ic = s.ic ∧
    (State.modPerf p f s).hrt = s.hrt ∧ (State.modPerf p f s).emb = s.emb ∧ (State.modPerf p f s).spm = s.spm ∧ (State.modPerf p f s).gsr = s.gsr ∧
    (State.modPerf p f s).rep = s.rep ∧ (State.modPerf p f s).chan = s.chan ∧ (State.modPerf p f s).grp = s.grp ∧ (State.modPerf p f s).whl = s.whl ∧
    (State.modPerf p f s).ph = s.ph ∧ (State.modPerf p f s).bar = s.bar ∧ (State.modPerf p f s).mfe = s.mfe ∧ (State.modPerf p f s).tim = s.tim ∧
    (State.modPerf p f s).tsi = s.tsi ∧ (State.modPerf p f s).flue = s.flue ∧ (State.modPerf p f s).plug = s.plug ∧ (State.modPerf p f s).work = s.work ∧
    (State.modPerf p f s).dist = s.dist ∧ (State.modPerf p f s).free = s.free ∧ (State.modPerf p f s).pending = s.pending := by
  obtain ⟨h0, h1, h2, h3, h4, h5, h6, h7, h8, h9, h10, h11, h12, h13, h14, h15, h16, h17, h18, h19, h20, h21, h22, h23,
      h24, h25, h26, h27⟩ :=
    hide_parts (State.modPerf_hide _ _ _ _ (by decide : (4194304 : Nat) &&& 4194304 = 4194304))
  exact ⟨h0 (by decide), h1 (by decide), h2 (by decide), h3 (by decide), h4 (by decide), h5 (by decide), h6 (by decide),
      h7 (by decide), h8 (by decide), h9 (by decide), h10 (by decide), h11 (by decide), h12 (by decide), h13 (by decide),
      h14 (by decide), h15 (by decide), h16 (by decide), h17 (by decide), h18 (by decide), h19 (by decide),
      h20 (by decide), h21 (by decide), h23 (by decide), h24 (by decide), h25 (by decide), h26 (by decide), h27 (by decide)⟩

@[simp] theorem State.modPerf_get (p : Fin 4) (f : PortPerf → PortPerf) (s : State) (f_ : Field) : (State.modPerf p f s).get f_ = s.get f_ := by
  unfold State.get; rw [(State.modPerf_rest _ _ _).1]

@[simp] theorem State.modFlue_rest (f : Flue → Flue) (s : State) :
    (State.modFlue f s).regs = s.regs ∧ (State.modFlue f s).now = s.now ∧ (State.modFlue f s).cycles = s.cycles ∧ (State.modFlue f s).latches = s.latches ∧
    (State.modFlue f s).node = s.node ∧ (State.modFlue f s).sup = s.sup ∧ (State.modFlue f s).col = s.col ∧ (State.modFlue f s).ic = s.ic ∧
    (State.modFlue f s).hrt = s.hrt ∧ (State.modFlue f s).emb = s.emb ∧ (State.modFlue f s).spm = s.spm ∧ (State.modFlue f s).gsr = s.gsr ∧
    (State.modFlue f s).rep = s.rep ∧ (State.modFlue f s).chan = s.chan ∧ (State.modFlue f s).grp = s.grp ∧ (State.modFlue f s).whl = s.whl ∧
    (State.modFlue f s).ph = s.ph ∧ (State.modFlue f s).bar = s.bar ∧ (State.modFlue f s).mfe = s.mfe ∧ (State.modFlue f s).tim = s.tim ∧
    (State.modFlue f s).tsi = s.tsi ∧ (State.modFlue f s).ring = s.ring ∧ (State.modFlue f s).plug = s.plug ∧ (State.modFlue f s).work = s.work ∧
    (State.modFlue f s).dist = s.dist ∧ (State.modFlue f s).free = s.free ∧ (State.modFlue f s).pending = s.pending := by
  obtain ⟨h0, h1, h2, h3, h4, h5, h6, h7, h8, h9, h10, h11, h12, h13, h14, h15, h16, h17, h18, h19, h20, h21, h22, h23,
      h24, h25, h26, h27⟩ :=
    hide_parts (State.modFlue_hide _ _ _ (by decide : (2097152 : Nat) &&& 2097152 = 2097152))
  exact ⟨h0 (by decide), h1 (by decide), h2 (by decide), h3 (by decide), h4 (by decide), h5 (by decide), h6 (by decide),
      h7 (by decide), h8 (by decide), h9 (by decide), h10 (by decide), h11 (by decide), h12 (by decide), h13 (by decide),
      h14 (by decide), h15 (by decide), h16 (by decide), h17 (by decide), h18 (by decide), h19 (by decide),
      h20 (by decide), h22 (by decide), h23 (by decide), h24 (by decide), h25 (by decide), h26 (by decide), h27 (by decide)⟩

@[simp] theorem State.modFlue_get (f : Flue → Flue) (s : State) (f_ : Field) : (State.modFlue f s).get f_ = s.get f_ := by
  unfold State.get; rw [(State.modFlue_rest _ _).1]

@[simp] theorem State.modT_rest (f : TimeUnit → TimeUnit) (s : State) :
    (State.modT f s).regs = s.regs ∧ (State.modT f s).now = s.now ∧ (State.modT f s).cycles = s.cycles ∧ (State.modT f s).latches = s.latches ∧
    (State.modT f s).node = s.node ∧ (State.modT f s).sup = s.sup ∧ (State.modT f s).col = s.col ∧ (State.modT f s).ic = s.ic ∧
    (State.modT f s).hrt = s.hrt ∧ (State.modT f s).emb = s.emb ∧ (State.modT f s).spm = s.spm ∧ (State.modT f s).gsr = s.gsr ∧
    (State.modT f s).rep = s.rep ∧ (State.modT f s).chan = s.chan ∧ (State.modT f s).grp = s.grp ∧ (State.modT f s).whl = s.whl ∧
    (State.modT f s).ph = s.ph ∧ (State.modT f s).bar = s.bar ∧ (State.modT f s).mfe = s.mfe ∧ (State.modT f s).tsi = s.tsi ∧
    (State.modT f s).flue = s.flue ∧ (State.modT f s).ring = s.ring ∧ (State.modT f s).plug = s.plug ∧ (State.modT f s).work = s.work ∧
    (State.modT f s).dist = s.dist ∧ (State.modT f s).free = s.free ∧ (State.modT f s).pending = s.pending := by
  obtain ⟨h0, h1, h2, h3, h4, h5, h6, h7, h8, h9, h10, h11, h12, h13, h14, h15, h16, h17, h18, h19, h20, h21, h22, h23,
      h24, h25, h26, h27⟩ :=
    hide_parts (State.modT_hide _ _ _ (by decide : (524288 : Nat) &&& 524288 = 524288))
  exact ⟨h0 (by decide), h1 (by decide), h2 (by decide), h3 (by decide), h4 (by decide), h5 (by decide), h6 (by decide),
      h7 (by decide), h8 (by decide), h9 (by decide), h10 (by decide), h11 (by decide), h12 (by decide), h13 (by decide),
      h14 (by decide), h15 (by decide), h16 (by decide), h17 (by decide), h18 (by decide), h20 (by decide),
      h21 (by decide), h22 (by decide), h23 (by decide), h24 (by decide), h25 (by decide), h26 (by decide), h27 (by decide)⟩

@[simp] theorem State.modT_get (f : TimeUnit → TimeUnit) (s : State) (f_ : Field) : (State.modT f s).get f_ = s.get f_ := by
  unfold State.get; rw [(State.modT_rest _ _).1]

@[simp] theorem State.modTsi_rest (f : Tsi → Tsi) (s : State) :
    (State.modTsi f s).regs = s.regs ∧ (State.modTsi f s).now = s.now ∧ (State.modTsi f s).cycles = s.cycles ∧ (State.modTsi f s).latches = s.latches ∧
    (State.modTsi f s).node = s.node ∧ (State.modTsi f s).sup = s.sup ∧ (State.modTsi f s).col = s.col ∧ (State.modTsi f s).ic = s.ic ∧
    (State.modTsi f s).hrt = s.hrt ∧ (State.modTsi f s).emb = s.emb ∧ (State.modTsi f s).spm = s.spm ∧ (State.modTsi f s).gsr = s.gsr ∧
    (State.modTsi f s).rep = s.rep ∧ (State.modTsi f s).chan = s.chan ∧ (State.modTsi f s).grp = s.grp ∧ (State.modTsi f s).whl = s.whl ∧
    (State.modTsi f s).ph = s.ph ∧ (State.modTsi f s).bar = s.bar ∧ (State.modTsi f s).mfe = s.mfe ∧ (State.modTsi f s).tim = s.tim ∧
    (State.modTsi f s).flue = s.flue ∧ (State.modTsi f s).ring = s.ring ∧ (State.modTsi f s).plug = s.plug ∧ (State.modTsi f s).work = s.work ∧
    (State.modTsi f s).dist = s.dist ∧ (State.modTsi f s).free = s.free ∧ (State.modTsi f s).pending = s.pending := by
  obtain ⟨h0, h1, h2, h3, h4, h5, h6, h7, h8, h9, h10, h11, h12, h13, h14, h15, h16, h17, h18, h19, h20, h21, h22, h23,
      h24, h25, h26, h27⟩ :=
    hide_parts (State.modTsi_hide _ _ _ (by decide : (1048576 : Nat) &&& 1048576 = 1048576))
  exact ⟨h0 (by decide), h1 (by decide), h2 (by decide), h3 (by decide), h4 (by decide), h5 (by decide), h6 (by decide),
      h7 (by decide), h8 (by decide), h9 (by decide), h10 (by decide), h11 (by decide), h12 (by decide), h13 (by decide),
      h14 (by decide), h15 (by decide), h16 (by decide), h17 (by decide), h18 (by decide), h19 (by decide),
      h21 (by decide), h22 (by decide), h23 (by decide), h24 (by decide), h25 (by decide), h26 (by decide), h27 (by decide)⟩

@[simp] theorem State.modTsi_get (f : Tsi → Tsi) (s : State) (f_ : Field) : (State.modTsi f s).get f_ = s.get f_ := by
  unfold State.get; rw [(State.modTsi_rest _ _).1]

@[simp] theorem State.setW_rest (w : Fin 8) (x : Wheel) (s : State) :
    (State.setW w x s).regs = s.regs ∧ (State.setW w x s).now = s.now ∧ (State.setW w x s).cycles = s.cycles ∧ (State.setW w x s).latches = s.latches ∧
    (State.setW w x s).node = s.node ∧ (State.setW w x s).sup = s.sup ∧ (State.setW w x s).col = s.col ∧ (State.setW w x s).ic = s.ic ∧
    (State.setW w x s).hrt = s.hrt ∧ (State.setW w x s).emb = s.emb ∧ (State.setW w x s).spm = s.spm ∧ (State.setW w x s).gsr = s.gsr ∧
    (State.setW w x s).rep = s.rep ∧ (State.setW w x s).chan = s.chan ∧ (State.setW w x s).grp = s.grp ∧ (State.setW w x s).ph = s.ph ∧
    (State.setW w x s).bar = s.bar ∧ (State.setW w x s).mfe = s.mfe ∧ (State.setW w x s).tim = s.tim ∧ (State.setW w x s).tsi = s.tsi ∧
    (State.setW w x s).flue = s.flue ∧ (State.setW w x s).ring = s.ring ∧ (State.setW w x s).plug = s.plug ∧ (State.setW w x s).work = s.work ∧
    (State.setW w x s).dist = s.dist ∧ (State.setW w x s).free = s.free ∧ (State.setW w x s).pending = s.pending := by
  obtain ⟨h0, h1, h2, h3, h4, h5, h6, h7, h8, h9, h10, h11, h12, h13, h14, h15, h16, h17, h18, h19, h20, h21, h22, h23,
      h24, h25, h26, h27⟩ :=
    hide_parts (State.setW_hide _ _ _ _ (by decide : (32768 : Nat) &&& 32768 = 32768))
  exact ⟨h0 (by decide), h1 (by decide), h2 (by decide), h3 (by decide), h4 (by decide), h5 (by decide), h6 (by decide),
      h7 (by decide), h8 (by decide), h9 (by decide), h10 (by decide), h11 (by decide), h12 (by decide), h13 (by decide),
      h14 (by decide), h16 (by decide), h17 (by decide), h18 (by decide), h19 (by decide), h20 (by decide),
      h21 (by decide), h22 (by decide), h23 (by decide), h24 (by decide), h25 (by decide), h26 (by decide), h27 (by decide)⟩

@[simp] theorem State.setW_get (w : Fin 8) (x : Wheel) (s : State) (f_ : Field) : (State.setW w x s).get f_ = s.get f_ := by
  unfold State.get; rw [(State.setW_rest _ _ _).1]

@[simp] theorem State.modW_rest (w : Fin 8) (f : Wheel → Wheel) (s : State) :
    (State.modW w f s).regs = s.regs ∧ (State.modW w f s).now = s.now ∧ (State.modW w f s).cycles = s.cycles ∧ (State.modW w f s).latches = s.latches ∧
    (State.modW w f s).node = s.node ∧ (State.modW w f s).sup = s.sup ∧ (State.modW w f s).col = s.col ∧ (State.modW w f s).ic = s.ic ∧
    (State.modW w f s).hrt = s.hrt ∧ (State.modW w f s).emb = s.emb ∧ (State.modW w f s).spm = s.spm ∧ (State.modW w f s).gsr = s.gsr ∧
    (State.modW w f s).rep = s.rep ∧ (State.modW w f s).chan = s.chan ∧ (State.modW w f s).grp = s.grp ∧ (State.modW w f s).ph = s.ph ∧
    (State.modW w f s).bar = s.bar ∧ (State.modW w f s).mfe = s.mfe ∧ (State.modW w f s).tim = s.tim ∧ (State.modW w f s).tsi = s.tsi ∧
    (State.modW w f s).flue = s.flue ∧ (State.modW w f s).ring = s.ring ∧ (State.modW w f s).plug = s.plug ∧ (State.modW w f s).work = s.work ∧
    (State.modW w f s).dist = s.dist ∧ (State.modW w f s).free = s.free ∧ (State.modW w f s).pending = s.pending := by
  obtain ⟨h0, h1, h2, h3, h4, h5, h6, h7, h8, h9, h10, h11, h12, h13, h14, h15, h16, h17, h18, h19, h20, h21, h22, h23,
      h24, h25, h26, h27⟩ :=
    hide_parts (State.modW_hide _ _ _ _ (by decide : (32768 : Nat) &&& 32768 = 32768))
  exact ⟨h0 (by decide), h1 (by decide), h2 (by decide), h3 (by decide), h4 (by decide), h5 (by decide), h6 (by decide),
      h7 (by decide), h8 (by decide), h9 (by decide), h10 (by decide), h11 (by decide), h12 (by decide), h13 (by decide),
      h14 (by decide), h16 (by decide), h17 (by decide), h18 (by decide), h19 (by decide), h20 (by decide),
      h21 (by decide), h22 (by decide), h23 (by decide), h24 (by decide), h25 (by decide), h26 (by decide), h27 (by decide)⟩

@[simp] theorem State.modW_get (w : Fin 8) (f : Wheel → Wheel) (s : State) (f_ : Field) : (State.modW w f s).get f_ = s.get f_ := by
  unfold State.get; rw [(State.modW_rest _ _ _).1]

@[simp] theorem State.modWork_rest (f : Work → Work) (s : State) :
    (State.modWork f s).regs = s.regs ∧ (State.modWork f s).now = s.now ∧ (State.modWork f s).cycles = s.cycles ∧ (State.modWork f s).latches = s.latches ∧
    (State.modWork f s).node = s.node ∧ (State.modWork f s).sup = s.sup ∧ (State.modWork f s).col = s.col ∧ (State.modWork f s).ic = s.ic ∧
    (State.modWork f s).hrt = s.hrt ∧ (State.modWork f s).emb = s.emb ∧ (State.modWork f s).spm = s.spm ∧ (State.modWork f s).gsr = s.gsr ∧
    (State.modWork f s).rep = s.rep ∧ (State.modWork f s).chan = s.chan ∧ (State.modWork f s).grp = s.grp ∧ (State.modWork f s).whl = s.whl ∧
    (State.modWork f s).ph = s.ph ∧ (State.modWork f s).bar = s.bar ∧ (State.modWork f s).mfe = s.mfe ∧ (State.modWork f s).tim = s.tim ∧
    (State.modWork f s).tsi = s.tsi ∧ (State.modWork f s).flue = s.flue ∧ (State.modWork f s).ring = s.ring ∧ (State.modWork f s).plug = s.plug ∧
    (State.modWork f s).dist = s.dist ∧ (State.modWork f s).free = s.free ∧ (State.modWork f s).pending = s.pending := by
  obtain ⟨h0, h1, h2, h3, h4, h5, h6, h7, h8, h9, h10, h11, h12, h13, h14, h15, h16, h17, h18, h19, h20, h21, h22, h23,
      h24, h25, h26, h27⟩ :=
    hide_parts (State.modWork_hide _ _ _ (by decide : (16777216 : Nat) &&& 16777216 = 16777216))
  exact ⟨h0 (by decide), h1 (by decide), h2 (by decide), h3 (by decide), h4 (by decide), h5 (by decide), h6 (by decide),
      h7 (by decide), h8 (by decide), h9 (by decide), h10 (by decide), h11 (by decide), h12 (by decide), h13 (by decide),
      h14 (by decide), h15 (by decide), h16 (by decide), h17 (by decide), h18 (by decide), h19 (by decide),
      h20 (by decide), h21 (by decide), h22 (by decide), h23 (by decide), h25 (by decide), h26 (by decide), h27 (by decide)⟩

@[simp] theorem State.modWork_get (f : Work → Work) (s : State) (f_ : Field) : (State.modWork f s).get f_ = s.get f_ := by
  unfold State.get; rw [(State.modWork_rest _ _).1]

@[simp] theorem State.modDist_rest (f : Dist → Dist) (s : State) :
    (State.modDist f s).regs = s.regs ∧ (State.modDist f s).now = s.now ∧ (State.modDist f s).cycles = s.cycles ∧ (State.modDist f s).latches = s.latches ∧
    (State.modDist f s).node = s.node ∧ (State.modDist f s).sup = s.sup ∧ (State.modDist f s).col = s.col ∧ (State.modDist f s).ic = s.ic ∧
    (State.modDist f s).hrt = s.hrt ∧ (State.modDist f s).emb = s.emb ∧ (State.modDist f s).spm = s.spm ∧ (State.modDist f s).gsr = s.gsr ∧
    (State.modDist f s).rep = s.rep ∧ (State.modDist f s).chan = s.chan ∧ (State.modDist f s).grp = s.grp ∧ (State.modDist f s).whl = s.whl ∧
    (State.modDist f s).ph = s.ph ∧ (State.modDist f s).bar = s.bar ∧ (State.modDist f s).mfe = s.mfe ∧ (State.modDist f s).tim = s.tim ∧
    (State.modDist f s).tsi = s.tsi ∧ (State.modDist f s).flue = s.flue ∧ (State.modDist f s).ring = s.ring ∧ (State.modDist f s).plug = s.plug ∧
    (State.modDist f s).work = s.work ∧ (State.modDist f s).free = s.free ∧ (State.modDist f s).pending = s.pending := by
  obtain ⟨h0, h1, h2, h3, h4, h5, h6, h7, h8, h9, h10, h11, h12, h13, h14, h15, h16, h17, h18, h19, h20, h21, h22, h23,
      h24, h25, h26, h27⟩ :=
    hide_parts (State.modDist_hide _ _ _ (by decide : (33554432 : Nat) &&& 33554432 = 33554432))
  exact ⟨h0 (by decide), h1 (by decide), h2 (by decide), h3 (by decide), h4 (by decide), h5 (by decide), h6 (by decide),
      h7 (by decide), h8 (by decide), h9 (by decide), h10 (by decide), h11 (by decide), h12 (by decide), h13 (by decide),
      h14 (by decide), h15 (by decide), h16 (by decide), h17 (by decide), h18 (by decide), h19 (by decide),
      h20 (by decide), h21 (by decide), h22 (by decide), h23 (by decide), h24 (by decide), h26 (by decide), h27 (by decide)⟩

@[simp] theorem State.modDist_get (f : Dist → Dist) (s : State) (f_ : Field) : (State.modDist f s).get f_ = s.get f_ := by
  unfold State.get; rw [(State.modDist_rest _ _).1]


end Sys2Proof.Machine
end

