-- ==== Sys2Proof/Tests/Slice0.lean ====
section
/-! SUPPORT. Small tests: ill-formed commands are refused, the spec's own worked values come out, and the hypotheses of every
statement in Certificates/Slice0/Obligations.lean are met by a state and operands written out here, clause by clause. -/

set_option maxRecDepth 100000
set_option linter.all false
set_option Elab.async false

open Sys2Proof Sys2Proof.Machine Sys2Proof.Safety

namespace Sys2Proof.Tests

/-! ## States -/

/-- A node in K8, nothing in progress. -/
def k8 : State :=
  { State.reset with
    node := { State.reset.node with phase := .k8 }
    emb := Vector.replicate 4 { Ember.reset with halted := false } }

/-- The node in another phase. -/
def inPhase (p : Phase) : State := { State.reset with node := { State.reset.node with phase := p } }

/-- In K8 the Ember is `m`; the control store reads 0, a word of even parity. -/
def withEmber (e : Fin 4) (m : Ember) : State := { k8 with emb := k8.emb.set e m }

/-- The word of instruction command `c` stands at its Ember's pc. -/
def atPc (c : Instr) (s : State) : State := match wordOf c with
  | some (e, m) => { s with hrt := { s.hrt with cs := [(csKey 0 s.emb[e].pc.toNat, m.word)] } }
  | none => s

/-- An Ember at address 0 in a task, registers as given. -/
def running (w : List (Fin 32 × Word)) : Ember :=
  { Ember.reset with halted := false, inTask := true, w := w.foldl (fun v p => v.set p.1 p.2) Ember.reset.w }

/-- Ember 0 runs a task. -/
def task : State := withEmber 0 (running [])

/-- The word of `c` stands, sound, at the pc of Ember `e`, which runs it. -/
def ready (e : Fin 4) (c : Instr) (s : State) : Bool := runs e (atPc c s) && atWord c (atPc c s)

/-- A frozen node. -/
def frozen : State := { k8 with node := { k8.node with freeze := .frozen } }

/-- A fault record of a class. -/
def fault (c : BitVec 2) : FaultRec :=
  { source := 0x0B, injected := false, cls := c, kind := 1, reason := 1, detail := 0, address := 0, master := 0, access := 0,
    escalated := false, first := false, tsInvalid := false, collectorSelf := false, time := 0, ext := 0 }

def modCol (f : Collector → Collector) : State := { k8 with col := f k8.col }

/-! ## Witnesses: general, Embers -/

theorem witness_StepRunsFrontCommand :
    ({ k8 with pending := [.k0, .k4] } : State).pending = Instr.k0 :: [.k4] ∧ k8.pending = [] ∧
    (k8.clocked = true ∧ k8.node.coreFailed = false ∧ k8.node.auxFailed = false ∧ k8.node.phase ≠ .k0) ∧
    frozen.node.freeze = .frozen := by decide +kernel

theorem witness_EmberArithmeticAndLogic :
    (∀ c ∈ [Instr.movi 0 31 0xFFFFFFFF, .mov 0 31 30, .nop 0, .add 0 1 2 3, .addi 0 1 2 7, .adc 0 1 2 3, .adci 0 1 2 7, .sub 0 1 2 3,
      .subi 0 1 2 7, .sbc 0 1 2 3, .sbci 0 1 2 7, .cmp 0 2 3, .cmpi 0 2 7, .and 0 1 2 3, .andi 0 1 2 7, .or 0 1 2 3], ready 0 c task = true) ∧
    (∀ c ∈ [Instr.ori 3 1 2 7, .xor 3 1 2 3, .xori 3 1 2 7, .andn 3 1 2 3, .andni 3 1 2 7, .tst 3 2 3, .tsti 3 2 7, .min 3 1 2 3,
      .mini 3 1 2 7, .max 3 1 2 3, .maxi 3 1 2 7, .minu 3 1 2 3, .minui 3 1 2 7, .maxu 3 1 2 3, .maxui 3 1 2 7],
      ready 3 c (withEmber 3 (running [])) = true) := by decide +kernel

/-- BFX and BFI at the last position inside 32 bits and the first beyond; MULU and MULS of an even and an odd pair. -/
theorem witness_EmberShiftsAndMultiply :
    (∀ c ∈ [Instr.lsl 0 1 2 3, .lsli 0 1 2 31, .lsr 0 1 2 3, .lsri 0 1 2 31, .asr 0 1 2 3, .asri 0 1 2 31, .ror 0 1 2 3, .rori 0 1 2 31,
      .bfx 0 1 2 31 0, .bfi 0 1 2 31 0, .bfx 0 1 2 31 1, .bfi 0 1 2 31 1, .clz 0 1 2, .popc 0 1 2, .mul 0 1 2 3, .mulu 0 2 2 3, .muls 0 2 2 3,
      .mulu 0 31 2 3, .muls 0 31 2 3], ready 0 c task = true) ∧
    (31 : Fin 32).val + (0 : Fin 32).val + 1 ≤ 32 ∧ 32 < (31 : Fin 32).val + (1 : Fin 32).val + 1 := by decide +kernel

/-- 7 / 2 and 7 / 0 in W0, W1. -/
theorem witness_DstepDivides :
    (let s := withEmber 0 (running [(1, 7), (4, 2)])
     ready 0 (.dstep 0 0 4 32) s = true ∧ ready 0 (.dstep 0 0 5 1) s = true ∧ (0 : Fin 32).val % 2 = 0 ∧ 1 ≤ (32 : Fin 64).val ∧
       (32 : Fin 64).val ≤ 32 ∧ s.emb[0].w[0] = 0 ∧
       (s.emb[0].w[4]).toNat ≠ 0 ∧ (s.emb[0].w[5]).toNat = 0) ∧ 1 ≤ (1 : Fin 64).val := by decide +kernel

theorem witness_CordicAccuracy :
    (let s := withEmber 0 (running [(4, 0x80000000)])
     (∀ c ∈ [Instr.sqrt 0 30 4, .sincos 0 30 4, .atan2 0 30 5 6, .atan2 0 30 4 5], ready 0 c s = true) ∧ (30 : Fin 32).val % 2 = 0 ∧
       s.emb[0].w[5] = 0 ∧ s.emb[0].w[6] = 0 ∧
       ¬(s.emb[0].w[4] = 0 ∧ s.emb[0].w[5] = 0)) := by decide +kernel

/-- LD: the last doubleword of scratchpad; a covering store; a misaligned address; a register window. ST and FENCE beside. -/
theorem witness_EmberMemory_ld :
    (let s := withEmber 0 (running [(4, 0x83FF8)])
     ready 0 (.ld 0 0 4 0 3 false 0) s = true ∧ ready 0 (.ld 0 0 4 1 3 false 7) s = true ∧ (0 : Fin 32).val % 2 = 0 ∧
       (s.emb[0].w[4] + 0).toNat < spmTop ∧
       (s.emb[0].w[4] + 0).toNat % 8 = 0 ∧ s.emb[0].sbuf = [] ∧ s.bankOn (bankOf (s.fold 0x83FF8)) = true ∧
       s.marchHolds (bankOf (s.fold 0x83FF8)) = false ∧
       tabGet none s.spm.ecc (s.fold 0x83FF8 / 8 * 8) = none ∧ (s.emb[0].w[4] + 1).toNat % 2 ^ (3 : Fin 4).val ≠ 0 ∧
       (s.emb[0].w[4] + 1).toNat < spmTop) ∧
    (let x : StoreEntry := ⟨0x10, 8, 5⟩
     let s := withEmber 0 { running [(4, 0x14)] with sbuf := [⟨0, 1, 0⟩] ++ x :: [⟨0x18, 1, 0⟩] }
     ready 0 (.ld 0 1 4 0 2 false 0xF) s = true ∧ (∀ y ∈ [(⟨0x18, 1, 0⟩ : StoreEntry)], s.fold 0x14 + 4 ≤ s.fold y.addr.toNat) ∧
       x.addr.toNat < spmTop ∧ s.fold x.addr.toNat ≤ s.fold 0x14 ∧ s.fold 0x14 + 4 ≤ s.fold x.addr.toNat + x.size ∧
       s.emb[0].sbuf.length ≤ 8 ∧ (∀ y ∈ s.emb[0].sbuf, y.addr.toNat < spmTop) ∧ ready 0 (.fence 0) s = true) := by decide +kernel

theorem witness_EmberMemory_st :
    (let s := withEmber 0 (running [(4, 0x83FF8)])
     ready 0 (.st 0 4 4 0 3) s = true ∧ ready 0 (.st 0 4 4 1 1) s = true ∧ (4 : Fin 32).val % 2 = 0 ∧ (s.emb[0].w[4] + 0).toNat < spmTop ∧
       (s.emb[0].w[4] + 0).toNat % 2 ^ (3 : Fin 4).val = 0 ∧ (s.emb[0].w[4] + 1).toNat % 2 ^ (1 : Fin 4).val ≠ 0 ∧ s.emb[0].sbuf.length < 8 ∧
       s.node.pwr = .none ∧ ready 0 (.fence 0) s = true ∧ s.emb[0].sbuf = []) := by decide +kernel

theorem witness_EmberMemory_window :
    (let s := withEmber 0 (running [(4, 0x40000000)])
     ready 0 (.ld 0 1 4 0 2 false 0) s = true ∧ s.emb[0].sbuf = [] ∧ regionOf (s.emb[0].w[4] + 0).toNat = .window ∧ (s.emb[0].w[4] + 0).toNat % 4 = 0 ∧
       (regRead 0 (s.emb[0].w[4] + 0).toNat s).2.emb = s.emb) := by decide +kernel

theorem witness_EmberFlow :
    (∀ c ∈ [Instr.time 0 0, .who 0 1, .b 0 14 77, .b 0 15 77, .jr 0 1, .bz 0 1 77, .bnz 0 1 77, .dbnz 0 1 77, .call 0 0 77, .call 0 1 77, .ret 0,
      .reti 0, .eret 0], ready 0 c task = true) ∧ (0 : Fin 32).val % 2 = 0 ∧ (14 : Fin 16).val < 15 ∧ (15 : Fin 16).val = 15 ∧
    task.emb[0].flags.holds 0 = true ∧ task.emb[0].flags.holds 1 = false ∧ task.emb[0].rstack = [] ∧ task.emb[0].frames = [] ∧
    task.emb[0].excActive = false ∧
    (let s := withEmber 0 { running [] with rstack := List.replicate 8 5, excActive := true,
                                            frames := [⟨7, Flags.reset, true, false, 120, 1⟩] }
     (∀ c ∈ [Instr.call 0 0 77, .ret 0, .reti 0, .eret 0], ready 0 c s = true) ∧ 8 ≤ s.emb[0].rstack.length ∧ s.emb[0].rstack = 5 :: List.replicate 7 5 ∧
       s.emb[0].frames = ⟨7, Flags.reset, true, false, 120, 1⟩ :: [] ∧ s.emb[0].excActive = true) ∧
    ready 0 (.call 0 0 77) (withEmber 0 { running [] with rstack := List.replicate 7 5 }) = true := by decide +kernel

theorem witness_EmberYieldAndWait :
    ready 0 (.yield 0) task = true ∧ task.emb[0].frames = [] ∧ task.emb[0].inTask = true ∧
    task.hrt.slots[task.emb[0].slot].rerun = false ∧
    (let s := { task with hrt := { task.hrt with slots := task.hrt.slots.set 0 { task.hrt.slots[0] with rerun := true } } }
     ready 0 (.yield 0) s = true ∧ s.emb[0].frames = [] ∧ s.hrt.slots[s.emb[0].slot].rerun = true) ∧
    (let s := withEmber 0 { running [(4, 1)] with frames := [⟨7, Flags.reset, true, false, 120, 1⟩] }
     (∀ c ∈ [Instr.yield 0, .wait 0 4 0, .wait 0 6 0, .wait 0 5 1], ready 0 c s = true) ∧ s.emb[0].frames ≠ [] ∧ (4 : Fin 32).val % 2 = 0 ∧
       s.now.toNat < (s.emb[0].w[5] ++ s.emb[0].w[4]).toNat ∧ (s.emb[0].w[7] ++ s.emb[0].w[6]).toNat ≤ s.now.toNat) := by decide +kernel

/-! ## Witnesses: faults -/

theorem witness_FaultMessageAccepted :
    (∀ c ∈ [corrected, contained, fatal],
      let s := modCol fun x => { x with queue := [(0, fault c)] }
      s.clocked = true ∧ s.col.queue = (0, fault c) :: [] ∧ s.col.held = [] ∧ s.rep.queue.length ≤ 24 ∧
        (freeEntry s.col.pend).isSome = true ∧ s.bit F.FLT_STATUS_FIRST_VALID = false ∧ (fault c).cls = c) ∧
    k8.col.queue = [] := by decide +kernel

/-- An entry of the pending table whose time is over, one that has time left, one halfway and one warned. -/
theorem witness_EscalationAndAcknowledge :
    (∀ left ∈ [0, 1], ∀ w ∈ [true, false],
      let e : PendEntry := ⟨fault contained, 3, w, left, 1⟩
      let s := modCol fun x => { x with pend := x.pend.set 7 (some e) }
      s.escRuns = true ∧ s.col.pend[(7 : Fin 8)] = some e ∧ s.rep.queue.length ≤ 24 ∧ e.left ≤ e.half ∧ e.warned = w ∧
        e.left = left) ∧
    (let v : Word := F.FLT_ACK_GO.into 1 (F.FLT_ACK_ENTRY.into 7 (F.FLT_ACK_TAG.into 3 0))
     F.FLT_ACK_GO.of v ≠ 0 ∧ (Fin.ofNat 8 (F.FLT_ACK_ENTRY.of v)) = 7 ∧ (3 : BitVec 16).toNat = F.FLT_ACK_TAG.of v ∧
       (4 : BitVec 16).toNat ≠ F.FLT_ACK_TAG.of v) ∧
    F.FLT_ACK_GO.of 0 = 0 ∧ k8.col.pend[(0 : Fin 8)] = none ∧ k8.clocked = true := by decide +kernel

/-- Sound: checker 0x03 with FATAL_OK. Not sound: BITS 3, or outside K8. -/
theorem witness_ArmingRefused : k8.clocked = true ∧ State.reset.clocked = true ∧
    (let v : Word := F.FLT_INJ_CHECKER.into 3 (F.FLT_INJ_FATAL_OK.into 1 0)
     k8.inK8 = true ∧ checkerInstances (F.FLT_INJ_CHECKER.of v) ≠ none ∧ F.FLT_INJ_SEL.of v = 0 ∧ F.FLT_INJ_BITS.of v = 0 ∧
       F.FLT_INJ_FATAL_OK.of v ≠ 0) ∧
    F.FLT_INJ_BITS.of (F.FLT_INJ_BITS.into 3 0) = 3 ∧ State.reset.inK8 = false := by decide +kernel

theorem witness_CollectorCommands :
    (let s := modCol fun x => { x with pulse := true }
     s.clocked = true ∧ s.col.pulse = true ∧ s.col.pulseEnd ≤ s.cycles) ∧
    (∀ w ∈ [true, false],
      let e : PendEntry := ⟨fault contained, 3, w, 1, 1⟩
      let s := modCol fun x => { x with pend := x.pend.set 0 (some e) }
      s.escRuns = true ∧ s.col.pend[(0 : Fin 8)] = some e ∧ e.warned = w ∧ e.left ≤ e.half) := by decide +kernel

/-! ## Witnesses: Hearth, interrupts, engine instructions -/

theorem witness_HearthReady : k8.clocked = true := by decide +kernel

/-- Slot 5 ready. -/
def readyNode : State := { k8 with hrt := { k8.hrt with slots := k8.hrt.slots.set 5 { k8.hrt.slots[5] with st := .ready } } }

theorem witness_TasksAndTimers_dispatch : readyNode.inK8 = true ∧ readyNode.hrt.draining = false ∧
    readyNode.emb[(0 : Fin 4)].idle = true ∧ (∀ p ∈ readyNode.presented, p.1 ≠ 0) ∧
    readyNode.hrt.slots[(5 : Fin 64)].st = .ready ∧ (readyNode.affinity 5).testBit 0 = true ∧
    (∀ x : Fin 4, ¬ x < 0) ∧ ({ k8 with hrt := { k8.hrt with draining := true } } : State).hrt.draining = true := by decide +kernel

/-- Timer 15 due now, without and with a period; not due; a stopped Ember. -/
theorem witness_TasksAndTimers_timer :
    (∀ p ∈ [0, 100],
      let s := (k8.put (F.TMR_CTL_EN 15) 1).put (F.TMR_PERIOD_PERIOD 15) p
      s.live = true ∧ s.hrt.timersStopped = false ∧ s.bit (F.TMR_CTL_EN 15) = true ∧ s.due 15 ≤ s.now.toNat ∧
        s.get (F.TMR_PERIOD_PERIOD 15) = p ∧ s.bit (F.TMR_CTL_TASK_EN 15) = false ∧ s.now.toNat + p < 2 ^ 64) ∧
    k8.bit (F.TMR_CTL_EN 0) = false ∧ (k8.put (F.TMR_DUE_LO_DUE 0) 1).now.toNat < (k8.put (F.TMR_DUE_LO_DUE 0) 1).due 0 ∧
    (withEmber 1 { Ember.reset with stopped := true }).emb[(1 : Fin 4)].stopped = true := by decide +kernel

/-- A doorbell latched, enabled, of PRIO 1, routed to Ember 2. -/
theorem witness_InterruptPresentation :
    (let s0 := (k8.put (F.IC_SRC_PRIO 120) 1).put (F.IC_SRC_ROUTE 120) 4
     let s := { s0 with ic := { s0.ic with lat := BitVec.twoPow 128 120, en := BitVec.twoPow 128 120 } }
     s.inK8 = true ∧ s.bit F.FLT_INJ_ARM = false ∧ s.candidates = 120 :: [] ∧ s.choose [] 120 = some 2) ∧
    k8.clocked = true := by decide +kernel

theorem witness_EngineInstructions :
    (∀ c ∈ [Instr.insert 0 1 0 2 3 (.num 63), .insert 0 1 31 2 3 (.reg 4), .cancel 0 1 2 (.num 63), .cancel 0 1 2 (.reg 4), .gstart 0 1 7 2,
      .doorbell 0 ⟨3, false⟩, .doorbell 0 ⟨3, true⟩, .wpos 0 0 7, .wpos 0 31 7, .wpred 0 0 2 7, .wpred 0 31 2 7], ready 0 c task = true) ∧
    (∀ type ∈ [tCONFIG, tHELLO], ready 0 (.bsend 0 1 26 type) task = true ∧ ready 0 (.bsend 0 1 27 type) task = true ∧
      ready 0 (.bsend 0 1 26 type) (task.put F.BAR_MBX_TXCTL_BUSY 1) = true) ∧
    task.emb[0].sbuf = [] ∧ (0 : Fin 32).val % 2 = 0 ∧ (31 : Fin 32).val % 2 = 1 ∧
    26 < (27 : Fin 32).val ∧ (26 : Fin 32).val ≤ 26 ∧ task.bit F.BAR_MBX_TXCTL_BUSY = false ∧
    (task.put F.BAR_MBX_TXCTL_BUSY 1).bit F.BAR_MBX_TXCTL_BUSY = true ∧ tHELLO ≠ tCONFIG ∧ tHELLO ≠ tQUERY ∧
    (0 : BitVec 64).extractLsb' 20 12 = 0 ∧ (0x100000 : BitVec 64).extractLsb' 20 12 ≠ 0 ∧ task.predict 7 (posOf 0 0) = none ∧
    ready 0 (.shift 0 1 25 2 7) task = true ∧ ready 0 (.shift 0 1 24 2 7) task = true ∧
    32 ≤ (25 : Fin 32).val + (7 : Fin 8).val ∧ (24 : Fin 32).val + (7 : Fin 8).val < 32 ∧ task.grp[(2 : Fin 3)].pending = false ∧
    task.grp[(2 : Fin 3)].fifo.length + 2 * 8 ≤ 32 ∧
    (let s := { task with grp := task.grp.set 0 { task.grp[0] with pending := true } }
     ready 0 (.shift 0 1 24 0 0) s = true ∧ s.grp[(0 : Fin 3)].pending = true) ∧
    (let s := { task with grp := task.grp.set 0 { task.grp[0] with fifo := List.replicate 31 0 } }
     ready 0 (.shift 0 1 24 0 0) s = true ∧ s.grp[(0 : Fin 3)].pending = false ∧ 32 < s.grp[(0 : Fin 3)].fifo.length + 2 * 1) := by
  decide +kernel

/-! ## Witnesses: stores, aborts, scratchpad, Geyser -/

/-- Ember 0's slot 0 runs with a budget used up. -/
def spending (m : Ember) : State :=
  let s := withEmber 0 m
  ({ s with hrt := { s.hrt with slots := s.hrt.slots.set 0 { st := .running, rerun := false, since := 0, budget := 1 } } } : State).put
    (F.EMB_RUNCYC_CYCLES 0) 0xFFFFFFFF

/-- The oldest store drains; or, its bank held by a march, the next to another bank. -/
theorem witness_StoreDrainAndAborts_drain :
    (∀ held ∈ [false, true],
      let x : StoreEntry := ⟨8, 8, 5⟩
      let y : StoreEntry := ⟨0x83FF8, 8, 7⟩
      let s0 := withEmber 0 { running [] with sbuf := [x, y] }
      let s := { s0 with spm := { s0.spm with marchBank := if held then some 0 else none } }
      s.live = true ∧ s.emb[(0 : Fin 4)].sbuf = x :: [y] ∧ s.emb[(0 : Fin 4)].storeFault = none ∧ s.emb[(0 : Fin 4)].budgetHeld = false ∧
        s.bit F.FLT_INJ_ARM = false ∧ x.size = 8 ∧ x.addr.toNat < spmTop ∧ s.bankOn (s.targetOf x) = true ∧
        s.marchHolds (s.targetOf x) = held ∧ y.size = 8 ∧ y.addr.toNat < spmTop ∧ s.targetOf y ≠ s.targetOf x ∧
        s.bankOn (s.targetOf y) = true ∧ (asking 0 []).getD (s.targetOf x) 0 = 0 ∧ (asking 0 []).getD (s.targetOf y) 0 = 0) ∧
    (task.emb[(0 : Fin 4)].sbuf = [] ∧ task.emb[(0 : Fin 4)].storeFault = none ∧ task.emb[(0 : Fin 4)].budgetHeld = false) := by
  decide +kernel

/-- A cause of each kind that is due, outside an exception and in one. -/
theorem witness_StoreDrainAndAborts_exception (x : Bool) :
    (let s := withEmber 3 { running [] with storeFault := some 1, excActive := x }
     s.inK8 = true ∧ s.emb[(3 : Fin 4)].busy = true ∧ s.emb[(3 : Fin 4)].sbuf = [] ∧ s.emb[(3 : Fin 4)].excActive = x ∧ causeDue 3 .store 1 s) ∧
    causeDue 0 .budget 0 (withEmber 0 { running [] with budgetHeld := true }) ∧
    causeDue 0 .watchdog 9 (withEmber 0 { running [] with excActive := x, stall := some ⟨9, 2 ^ 20, false⟩ }) ∧
    causeDue 0 .align 1 (atPc (.ld 0 4 4 1 2 false 0) (withEmber 0 { running [] with excActive := x })) := by
  refine ⟨⟨?_, ?_, ?_, ?_, ?_⟩, ?_, ⟨_, rfl, ?_⟩, ?_⟩ <;> cases x <;> first | decide +kernel | exact ⟨by decide +kernel, by decide +kernel⟩

/-- A command that is not the word at the pc: another legal word stands there, or one of an undefined OP. -/
theorem witness_StoreDrainAndAborts_word :
    (let s := atPc (.ret 0) task
     runs 0 s = true ∧ wordOf (.nop 0) ≠ none ∧ atWord (.nop 0) s = false ∧
       microLegal (s.csWord (s.get F.HRT_SWAP_ACTIVE_PAGE) s.emb[(0 : Fin 4)].pc.toNat) = true) ∧
    (let s := { task with hrt := { task.hrt with cs := [(csKey 0 0, ({ op := 0xFF } : Micro).word)] } }
     runs 0 s = true ∧ atWord (.nop 0) s = false ∧
       microLegal (s.csWord (s.get F.HRT_SWAP_ACTIVE_PAGE) s.emb[(0 : Fin 4)].pc.toNat) = false) := by decide +kernel

theorem witness_StoreDrainAndAborts :
    (∀ n ∈ [2 ^ 20 - 1, 2 ^ 20],
      let s := withEmber 0 { running [] with stall := some ⟨0, n, false⟩ }
      s.inK8 = true ∧ s.emb[(0 : Fin 4)].busy = true ∧ s.emb[(0 : Fin 4)].stall = some ⟨0, n, false⟩) ∧
    (let s := spending (running [])
     s.inK8 = true ∧ s.emb[(0 : Fin 4)].busy = true ∧ s.overBudget 0 = true ∧ s.emb[(0 : Fin 4)].overran = false ∧
       s.col.queue.length < 32 ∧ s.emb[(0 : Fin 4)].stall = none ∧ s.emb[(0 : Fin 4)].excActive = false ∧
       s.emb[(0 : Fin 4)].scrubWait = false ∧ s.emb[(0 : Fin 4)].sbuf = []) ∧
    (let s := spending { running [] with stall := some ⟨0, 0, false⟩ }
     s.overBudget 0 = true ∧ s.emb[(0 : Fin 4)].stall ≠ none ∧ s.emb[(0 : Fin 4)].busy = true) ∧
    (∀ again ∈ [true, false],
      let s0 := spending { running [] with renewed := true }
      let s := { s0 with hrt := { s0.hrt with slots := s0.hrt.slots.set 0 { s0.hrt.slots[0] with rerun := again } } }
      s.inK8 = true ∧ s.emb[(0 : Fin 4)].busy = true ∧ s.overBudget 0 = true ∧ s.emb[(0 : Fin 4)].renewed = true ∧
       s.emb[(0 : Fin 4)].excActive = false ∧ s.emb[(0 : Fin 4)].frames = [] ∧ s.emb[(0 : Fin 4)].scrubWait = false ∧
       s.emb[(0 : Fin 4)].stall = none ∧ s.hrt.slots[s.emb[(0 : Fin 4)].slot].rerun = again) := by decide +kernel

/-- Scratchpad with bank `b` in its wake from `w`. -/
def waking (b : Fin 17) (w : Wake) : State := { k8 with spm := { k8.spm with wake := k8.spm.wake.set b (some w) } }

/-- Each move of bank 16; a wake not over, and one that is over. -/
theorem witness_BankPowerStates :
    (∀ old ∈ [0, 1, 2, 3], (k8.put (powerField 16) old).clocked = true ∧ (k8.put (powerField 16) old).get (powerField 16) = old) ∧
    (∀ w ∈ [Wake.fromRetention, .fromOff], (waking 16 w).clocked = true ∧ (waking 16 w).spm.wake[(16 : Fin 17)] = some w ∧
      (waking 16 w).cycles < (waking 16 w).spm.wakeAt[(16 : Fin 17)] + wakeCycles 16 w ∧
      ({ waking 16 w with cycles := 2585 } : State).spm.wakeAt[(16 : Fin 17)] + wakeCycles 16 w ≤ 2585) ∧
    k8.spm.wake[(0 : Fin 17)] ≠ some .fromOff := by decide +kernel

/-- One doubleword from the first to the last of scratchpad. -/
def plain : Desc :=
  { irqDone := false, chain := false, reshuffle := 0, esize := 8, reservedSet := false, next := 0, src := 0, dst := 0x83FF8,
    c0 := 1, c1 := 1, c2 := 1, ss0 := 8, ss1 := 0, ss2 := 0, ds0 := 8, ds1 := 0, ds2 := 0 }

/-- Channel 7 runs it. -/
def copying : State :=
  ({ k8 with gsr := k8.gsr.set 7 ⟨.running, some plain, 0, [], [], 0⟩ } : State).put (F.GSR_RATE_RATE 7) 256

theorem witness_GeyserCopies :
    copying.live = true ∧ copying.gsr[(7 : Fin 8)].st = .running ∧ 256 ≤ copying.get (F.GSR_RATE_RATE 7) ∧ copying.gsr[(7 : Fin 8)].ins = [] ∧
    copying.gsr[(7 : Fin 8)].outs = [] ∧ copying.spm.marchBank = none ∧ (∀ e : Fin 4, copying.emb[e].sbuf = [] ∧ copying.emb[e].stall = none) ∧
    copying.gsr[(7 : Fin 8)].desc = some plain ∧ copying.gsr[(7 : Fin 8)].pos = 0 ∧ plain.esize = 8 ∧ plain.reshuffle = 0 ∧
    plain.chain = false ∧ plain.irqDone = false ∧ 1 ≤ plain.c0 ∧ plain.c1 = 1 ∧ plain.c2 = 1 ∧ plain.ss0 = 8 ∧ plain.ds0 = 8 ∧
    plain.src % 8 = 0 ∧ plain.dst % 8 = 0 ∧ plain.src + 8 * plain.c0 ≤ 0x84000 ∧ plain.dst + 8 * plain.c0 ≤ 0x84000 ∧
    plain.src + 8 * plain.c0 ≤ plain.dst ∧ copying.get F.SPM_PSTAT_ON = 0x1FFFF ∧ copying.spm.ecc = [] ∧
    (∀ w, w < 8 → copying.window? w = none) ∧ copying.bit F.FLT_INJ_ARM = false := by decide +kernel

/-- GO and RESUME of a descriptor of bytes 0x10 apart, in the last 48 bytes of scratchpad: read and not refused. -/
def placed (st : GState) : State :=
  let s : State := { k8 with
    gsr := k8.gsr.set 0 ⟨st, none, 0, [], [], 0⟩
    spm := { k8.spm with mem := [(0x83FDC, 0x10), (0x83FE0, 1), (0x83FE2, 1), (0x83FE4, 1)] } }
  (s.put (F.GSR_DESC_ADDR 0) 0x83FD0).put (F.GSR_CUR_ADDR 0) 0x83FD0

/-- A descriptor read and run, and one read and refused for its element size. -/
theorem witness_GeyserStartsAndStops_go : (∀ st ∈ [GState.idle, .stopped, .aborted],
    let s := placed st
    let a := s.get (F.GSR_DESC_ADDR 0)
    s.live = true ∧ s.gsr[(0 : Fin 8)].st = st ∧ s.bit F.GSR_GSTATUS_BUSERR = false ∧ a % 8 = 0 ∧ a + 48 ≤ 0x84000 ∧
      s.get (F.GSR_CUR_ADDR 0) = a ∧ s.get F.SPM_PSTAT_ON = 0x1FFFF ∧ s.spm.ecc = [] ∧ (∀ w, w < 8 → s.window? w = none) ∧
      s.bit F.FLT_INJ_ARM = false ∧ s.descRefusal (Desc.ofBytes (s.bytesAt a 48)) = none ∧
      s.descRefusal (Desc.ofBytes (({ s with spm := { s.spm with mem := [] } } : State).bytesAt a 48)) ≠ none) := by decide +kernel

theorem witness_GeyserStartsAndStops :
    (let s := k8.put (F.GSR_DESC_ADDR 0) 0x83FD8
     s.live = true ∧ s.gsr[(0 : Fin 8)].st ≠ .running ∧ s.gsr[(0 : Fin 8)].st ≠ .stopped ∧ s.gsr[(0 : Fin 8)].st ≠ .aborted ∧
       s.bit F.GSR_GSTATUS_BUSERR = false ∧ 0x84000 < s.get (F.GSR_DESC_ADDR 0) + 48) ∧
    (k8.put F.GSR_GSTATUS_BUSERR 1).bit F.GSR_GSTATUS_BUSERR = true ∧ copying.gsr[(7 : Fin 8)].st = .running ∧
    copying.gsr[(7 : Fin 8)].pos < ((copying.gsr[(7 : Fin 8)].desc).map Desc.count).getD 1 ∧
    (let s := copying.put F.SPM_PSTAT_ON 0x1FFFE
     s.live = true ∧ s.gsr[(7 : Fin 8)].st = .running ∧ 256 ≤ s.get (F.GSR_RATE_RATE 7) ∧ s.gsr[(7 : Fin 8)].ins = [] ∧
       s.gsr[(7 : Fin 8)].outs = [] ∧ plain.esize = 8 ∧ plain.reshuffle = 0 ∧ s.gsr[(7 : Fin 8)].desc = some plain ∧
       s.gsr[(7 : Fin 8)].pos < plain.count ∧ plain.srcOf s.gsr[(7 : Fin 8)].pos = ((0 : Nat) : Int) ∧
       s.bankOn (bankOf 0) = false ∧ (∀ w, w < 8 → s.window? w = none)) ∧
    (List.replicate 8 0).length = 8 ∧ ([] : List Nat).length ≠ 8 := by decide +kernel

/-! ## Witnesses: the MFE -/

/-- A sound barrier frame (Table 02-5). -/
def mk (type : Byte) (seq ref : Nat) (body : List Byte) : List Byte :=
  let b := slice ([type, 0] ++ leBytes 2 seq ++ leBytes 2 ref ++ body) 0 30
  b ++ leBytes 2 (crc16 b).toNat

/-- A powered MFE with HV enabled, in SYNC at time 0. -/
def mfeOn : Mfe :=
  { Mfe.reset with powered := true, link := true, time := some 0, sync := true, fail := some 1, enable := true }

def withMfe (m : Mfe) : State := { k8 with mfe := m }

/-- Four entries on output 11, tags 1 to 4. -/
def fullOut : HvOut := { HvOut.reset with sched := [1, 2, 3, 4].map fun i => ⟨i, true, 0x100000, 0⟩ }

/-- The tag 9 at 50 µs from now. -/
def sched11 (gate tag : Nat) : List Byte := mk tSCHEDULE 1 0 ([11, 1] ++ leBytes 8 gate ++ leBytes 4 tag)

theorem witness_MfeSchedule :
    (let s := withMfe mfeOn
     (frame (sched11 26844 9) tSCHEDULE ∧ s.mfe.powered = true ∧ ∀ x ∈ s.mfe.store, x.1 ≠ fSeq (sched11 26844 9)) ∧
       (byteAt (sched11 26844 9) 6).toNat = (11 : Fin 12).val ∧ s.mfe.enabled = true ∧ s.mfe.sync = true ∧
       s.mfe.tooLate (BitVec.ofNat 64 (leAt (sched11 26844 9) 8 8)) = false ∧
       s.mfe.tooLate (BitVec.ofNat 64 (leAt (sched11 26843 9) 8 8)) = true ∧ s.mfe.outs[(11 : Fin 12)].sched = []) ∧
    (let s := withMfe { mfeOn with outs := mfeOn.outs.set 11 fullOut }
     4 ≤ s.mfe.outs[(11 : Fin 12)].sched.length ∧ (∀ e ∈ s.mfe.outs[(11 : Fin 12)].sched, e.tag ≠ 9) ∧
       s.mfe.outs[(11 : Fin 12)].sched.find? (fun e => e.tag == 4) = some ⟨4, true, 0x100000, 0⟩ ∧
       s.mfe.tooLate 0x100000 = false ∧ ({ s.mfe with time := some 0x100000 } : Mfe).tooLate 0x100000 = true) ∧
    (withMfe { mfeOn with enable := false }).mfe.enabled = false ∧ (withMfe { mfeOn with sync := false }).mfe.sync = false ∧
    frame (mk tCANCEL 1 0 [12]) tCANCEL ∧ 12 ≤ (byteAt (mk tCANCEL 1 0 [12]) 6).toNat := by decide +kernel

theorem witness_MfeSchedule_once :
    (let f := mk tSET_NOW 1 0 []
     let s := withMfe { mfeOn with store := [(1, [])] }
     s.mfe.powered = true ∧ f.length = 32 ∧ frameOk f = true ∧ (∃ x ∈ s.mfe.store, x.1 = fSeq f)) ∧
    (List.replicate 32 (0 : Byte)).length = 32 ∧ frameOk (List.replicate 32 0) = false ∧
    frame (mk tQUERY 1 0 [4, 0]) tQUERY ∧ (byteAt (mk tQUERY 1 0 [4, 0]) 6).toNat = 4 ∧
    (byteAt (mk tQUERY 1 0 [4, 0]) 7).toNat = 0 ∧ 6 < (byteAt (mk tQUERY 1 0 [7]) 6).toNat ∧ mfeOn.heldUps = [] ∧ mfeOn.waiting = [] ∧
    frame (mk tHELLO 1 0 []) tHELLO ∧ frame (mk tCOMPLETION 1 0 []) tCOMPLETION := by decide +kernel

theorem witness_MfeLevelsAndGates :
    frame (mk tSET_NOW 1 0 []) tSET_NOW ∧ mfeOn.enabled = true ∧ Mfe.reset.enabled = false ∧
    frame (mk tFAILSTATE 1 0 [0, 0, 1]) tFAILSTATE ∧ (byteAt (mk tFAILSTATE 1 0 [0, 0, 1]) 8).getLsbD 0 = true ∧
    (byteAt (mk tFAILSTATE 1 0 []) 8).getLsbD 0 = false ∧ mfeOn.fail ≠ none ∧ mfeOn.failHeld = false ∧
    frame (mk tFAILNOW 1 0 []) tFAILNOW ∧
    (let m := { mfeOn with outs := mfeOn.outs.set 11 fullOut }
     m.powered = true ∧ m.time = some 0 ∧ (∀ e ∈ m.outs[(11 : Fin 12)].sched, (0 : SysTime).toNat < e.gate.toNat)) ∧
    (let m := { mfeOn with outs := mfeOn.outs.set 11 fullOut, time := some 0x100000 }
     m.time = some 0x100000 ∧ ∃ e ∈ m.outs[(11 : Fin 12)].sched, e.gate.toNat ≤ (0x100000 : SysTime).toNat) ∧
    mfeOn.outs[(0 : Fin 12)].level = false ∧ (mfeOn.outs.set 0 { HvOut.reset with level := true })[(0 : Fin 12)].level = true ∧
    mfeOn.ins[(3 : Fin 4)].level = false ∧ (mfeOn.ins.set 3 ⟨true, 0xFF, false, none⟩)[(3 : Fin 4)].level = true ∧
    mfeOn.time.isSome = true := by decide +kernel

/-- No phase present: one sample in each of two successive 10 ms, after 20 ms; a sample of the second alone confirms nothing. The
input off 12 ms after its last sample, and not just before. Its feed phase present beside a lower sample. -/
theorem witness_MfeLevelsAndGates_inputs :
    (let m := { mfeOn with time := some 10737419 }
     (∀ p : Fin 3, m.phases[p].present = false) ∧ m.ins[(3 : Fin 4)].level = false ∧ m.confirmed 3 0 [5368709, 5368710] = true ∧
       m.confirmed 3 0 [5368710] = false) ∧
    timeDiff 6442450 0 < 6442451 ∧ 6442451 ≤ timeDiff 6442451 0 ∧
    (let m := { mfeOn with time := some 10737419, phases := mfeOn.phases.set 0 { mfeOn.phases[0] with present := true, freqOk := true, freq := 5000 },
                           ins := mfeOn.ins.set 3 { mfeOn.ins[3] with feed := 0 } }
     m.phases[(0 : Fin 3)].present = true ∧ m.phases[m.ins[(3 : Fin 4)].feed.toNat]? = some m.phases[(0 : Fin 3)] ∧
       m.confirmed 3 0 [100, 5368710] = true) := by decide +kernel

/-- An UP request sent once at 0. -/
def up (type : Byte) (sends : Nat) : UpReq := ⟨5, type, [], sends, 0, 0⟩

theorem witness_MfeOwnLife :
    frame (mk tCONFIG 1 0 [1, 11, 2]) tCONFIG ∧ byteAt (mk tCONFIG 1 0 [1, 11, 2]) 6 = 0x01 ∧
    (byteAt (mk tCONFIG 1 0 [1, 11, 2]) 7).toNat = (11 : Fin 12).val ∧ byteAt (mk tCONFIG 1 0 [2, 3]) 6 = 0x02 ∧
    (byteAt (mk tCONFIG 1 0 [2, 3]) 7).toNat = (3 : Fin 4).val ∧ 12 ≤ (byteAt (mk tCONFIG 1 0 [1, 12]) 7).toNat ∧
    frame (mk tTIME 1 0 []) tTIME ∧ Mfe.reset.time = none ∧ mfeOn.time = some 0 ∧ mfeOn.sync = true ∧ Mfe.reset.sync = false ∧
    1073 < (timeDiff 1074 0).natAbs ∧ (timeDiff 1073 0).natAbs ≤ 1073 ∧ Mfe.reset.powered = false ∧ mfeOn.powered = true ∧
    mfeOn.link = true ∧ mfeOn.clock < mfeOn.heard + usCycles 1000 ∧
    ({ mfeOn with clock := usCycles 1000 } : Mfe).heard + usCycles 1000 ≤ usCycles 1000 ∧
    (let m := { mfeOn with hold := some 0 }
     m.hold = some 0 ∧ m.clock < 0 + usCycles 100000 ∧ 0 + usCycles 100000 ≤ ({ m with clock := usCycles 100000 } : Mfe).clock) ∧
    (let m := { mfeOn with ups := [up tMEASURE 3], clock := usCycles 200 }
     m.ups.find? (fun r => r.seq == 5) = some (up tMEASURE 3) ∧ (up tMEASURE 3).sends < 4 ∧ (up tMEASURE 3).last + 22893 ≤ m.clock ∧
       (up tMEASURE 3).first + usCycles 200 ≤ m.clock ∧ m.waiting = [] ∧ mfeOn.failHeld = false ∧ (up tMEASURE 3).type ≠ tHV_EVENT ∧ (up tMEASURE 3).type ≠ tOPTIME ∧
       mfeOn.clock < (up tMEASURE 3).last + 22893 ∧ mfeOn.clock < (up tMEASURE 3).first + usCycles 200 ∧
       4 ≤ (up tMEASURE 4).sends) := by decide +kernel

/-- The link up with at most eight requests out, with 16 out, and down; an MFE without power. -/
theorem witness_MainsCycles : mfeOn.powered = true ∧ mfeOn.link = true ∧ mfeOn.ups.length ≤ 8 ∧ mfeOn.waiting = [] ∧
    (80 : Byte).toNat ≤ 80 ∧ ({ mfeOn with ups := List.replicate 16 (up tTEETH 1) } : Mfe).ups.length = 16 ∧
    ({ mfeOn with link := false } : Mfe).link = false ∧ Mfe.reset.powered = false := by decide +kernel

/-! ## Witnesses: the barrier link, logic side -/

def modBar (f : Barrier → Barrier) (s : State) : State := { s with bar := f s.bar }

/-- A frame no longer than 32 bytes reaches the running node. -/
theorem witness_UpReports :
    toNode (mk tSTATUS 1 0 []) tSTATUS k8 ∧ k8.bar.step = .idle ∧ (byteAt (mk tSTATUS 1 0 []) 7).getLsbD 3 = false ∧
    (k8.bar.store.all fun x => x.1 != fSeq (mk tMEASURE 1 0 [2])) = true ∧ toNode (mk tMEASURE 1 0 [2]) tMEASURE k8 ∧
    (byteAt (mk tMEASURE 1 0 [2]) 6).toNat = (2 : Fin 3).val ∧ toNode (mk tOPTIME 1 0 [11]) tOPTIME k8 ∧
    (byteAt (mk tOPTIME 1 0 [11]) 6).toNat = (11 : Fin 12).val ∧ toNode (mk tHV_EVENT 1 0 [11, 8]) tHV_EVENT k8 ∧
    (byteAt (mk tHV_EVENT 1 0 [11, 8]) 7).getLsbD 3 = true ∧ toNode (mk tTEETH 1 0 [2]) tTEETH k8 ∧ k8.whl[(2 : Fin 8)].sync = .off ∧
    k8.mfeFlags.getLsbD 3 = false ∧ ((modBar (fun b => { b with store := [(1, 0)] }) k8).bar.store.any fun x => x.1 == fSeq (mk tTEETH 1 0 [2])) = true ∧
    ([] : List Byte).length ≠ 32 ∧ frameOk (List.replicate 32 0) = false ∧ k8.bit F.FLT_INJ_ARM = false := by decide +kernel

/-- Wheel 2 on, with four teeth waiting and four more coming. -/
theorem witness_UpReports_teeth :
    (let s := k8.modW 2 fun x => { x with sync := .seeking, inbox := List.replicate 4 ⟨0, false, false, false⟩ }
     let f := mk tTEETH 1 0 [2, 4]
     toNode f tTEETH s ∧ (s.bar.store.all fun x => x.1 != fSeq f) = true ∧ (byteAt f 6).toNat = (2 : Fin 3).val ∧ s.whl[(2 : Fin 3)].sync ≠ .off ∧
       (byteAt f 7).toNat % 8 ≤ 4 ∧ s.teethWaiting 2 + (byteAt f 7).toNat % 8 ≤ 8) ∧
    toNode (mk tHV_EVENT 1 0 [0x83, 1]) tHV_EVENT k8 ∧ (byteAt (mk tHV_EVENT 1 0 [0x83, 1]) 6).toNat = 0x80 + (3 : Fin 4).val ∧
    k8.chRuns (Fin.ofNat 64 63) = false := by decide +kernel

/-- A channel enabled in a mode, its list as given. -/
def chanOn (c : Fin 64) (mode : Nat) (l : List Entry) : State :=
  let s := (k8.put (F.CH_CTL_MODE c) mode).put (F.CH_CTL_EN c) 1
  { s with chan := s.chan.set c { s.chan[c] with list := l } }

/-- SET_HIGH at a key, with a tag. -/
def high (key : Nat) (tag : Word) : Entry := newEntry (BitVec.ofNat 64 key) 2 tag

theorem witness_UpReports_event :
    (let e := { high 5 7 with fwd := .sent }
     let s := chanOn 59 mCOMPARE [e]
     let f := mk tHV_EVENT 1 0 ([11, 1] ++ leBytes 8 0 ++ leBytes 4 7)
     toNode f tHV_EVENT s ∧ (s.bar.store.all fun x => x.1 != fSeq f) = true ∧ (byteAt f 6).toNat = (11 : Fin 12).val ∧
       (byteAt f 7).getLsbD 3 = false ∧ BitVec.ofNat 32 (leAt f 16 4) = 7 ∧
       s.chan[(Fin.ofNat 64 (48 + 11) : Fin 64)].list.find? (fun e => e.tag == 7) = some e ∧ e.bad = false ∧ e.fwd = .sent ∧
       s.wheelDomain (Fin.ofNat 64 (48 + 11)) = false ∧ s.chan[(Fin.ofNat 64 (48 + 11) : Fin 64)].newConfig = none) := by decide +kernel

/-- A request sent once at cycle 0 under number 5. -/
def request (i : Issuer) (sends : Nat) : Request := ⟨5, tQUERY, [], i, sends, 0, 0⟩

/-- The link up, these requests outstanding. -/
def linked (l : List Request) : State := (modBar (fun b => { b with outs := l }) k8).put F.BAR_STATUS_LINK_UP 1

theorem witness_BarrierRequests :
    (let s := linked []
     s.live = true ∧ s.node.phase = .k8 ∧ s.linkUp = true ∧ s.bar.step = .idle ∧ s.bit F.BAR_STATUS_HELLO_DONE = false ∧
       s.bar.outs.length < 16 ∧ s.bar.step ≠ .hello ∧ s.bit F.BAR_MBX_TXCTL_BUSY = false ∧ s.node.pwr ≠ .stopped ∧
       s.node.pwr ≠ .complete) ∧ PwrStep.stopped ≠ .none ∧
    BitVec.ofNat 8 (F.BAR_MBX_TXCTL_TYPE.of (F.BAR_MBX_TXCTL_TYPE.into 7 0)) = tCONFIG ∧
    BitVec.ofNat 8 (F.BAR_MBX_TXCTL_TYPE.of 0) ≠ tCONFIG ∧ BitVec.ofNat 8 (F.BAR_MBX_TXCTL_TYPE.of 0) ≠ tQUERY ∧
    k8.linkUp = false ∧ (k8.put F.BAR_MBX_TXCTL_BUSY 1).bit F.BAR_MBX_TXCTL_BUSY = true ∧
    (let s : State := { linked [request .mailbox 3] with cycles := usCycles 200 }
     s.clocked = true ∧ s.bar.outs.find? (fun r => r.seq == 5) = some (request .mailbox 3) ∧ (request .mailbox 3).sends < 4 ∧
       (request .mailbox 3).last + 22893 ≤ s.cycles ∧ (request .mailbox 3).first + usCycles 200 ≤ s.cycles ∧ s.bar.waiting = [] ∧
       (request .mailbox 3).issuer = .mailbox ∧ (∀ r ∈ s.bar.outs, r.seq ≠ 6)) ∧
    4 ≤ (request .mailbox 4).sends ∧ (linked []).cycles < (request .mailbox 1).last + 22893 ∧
    (linked []).cycles < (request .mailbox 1).first + usCycles 200 := by decide +kernel

theorem witness_CompletionsAndLinkDown :
    (let f := mk tCOMPLETION 9 5 [0]
     (∀ i ∈ [Issuer.mailbox, .handshake], toNode f tCOMPLETION (linked [request i 1]) ∧
       (linked [request i 1]).bar.outs.find? (fun r => r.seq == fRef f) = some (request i 1)) ∧
     (linked []).bar.waiting = [] ∧ (modBar (fun b => { b with step := .hello }) (linked [request .handshake 1])).bar.step = .hello ∧
     (linked []).mfeFlags.getLsbD 0 = false ∧ (linked []).bar.outs.find? (fun r => r.seq == fRef f) = none ∧
     (∀ failed ∈ [true, false],
       (modBar (fun b => { b with sent := [(5, failed)] }) k8).bar.sent.find? (fun x => x.1 == fRef f) = some (fRef f, failed)) ∧
     (k8.bar.sent.all fun x => x.1 != fRef f) = true) ∧
    (linked []).clocked = true ∧ (linked []).linkUp = true ∧ (linked []).cycles < (linked []).bar.heard + usCycles 1000 ∧
    ({ linked [] with cycles := usCycles 1000 } : State).bar.heard + usCycles 1000 ≤ usCycles 1000 := by decide +kernel

/-! ## Witnesses: registers, channels -/

/-- GSR.GSTATUS has fields side by side, none of them latching; WHL.CFG0 has no effect of its own. -/
theorem witness_RegisterAccess_fields :
    ((0x40040200 : Word).toNat % 4 = 0 ∧ (F.fieldsAt 0x40040200).isSome = true ∧
      (F.fieldsAt 0x40040200).all (fun fs => fs.all fun f => f.addr == 0x40040200 && decide (f.lo ≤ f.hi) && decide (f.hi < 32)) = true ∧
      (F.fieldsAt 0x40040200).all (fun fs => decide (fs.Pairwise fun f g => f.hi < g.lo ∨ g.hi < f.lo)) = true) ∧
    isPartner 0x40040200 = false ∧ partners 0x40040200 = [] := by decide +kernel

theorem witness_RegisterAccess_write : writeOwn 0 0x40000020 0 k8 = none ∧ (F.fieldsAt 0x40000020).isSome = true ∧
    k8.clocked = true := by decide +kernel

/-- TIME.NOW_LO latches. -/
theorem witness_RegisterAccess_latch : isPartner 0x400B0000 = false ∧ partners 0x400B0000 ≠ [] ∧
    (F.fieldsAt 0x400B0000).isSome = true := by decide +kernel

theorem witness_RegisterAccess_absent : (0x40000001 : Word).toNat % 4 ≠ 0 ∧ F.fieldsAt (0x40000003 : Word).toNat = none := by decide +kernel

/-- Every status of the list operations is reached: channel 59 in COMPARE. -/
theorem witness_ListOperations :
    (let s := chanOn 59 mCOMPARE [high 5 7]
     (s.chEn 59 = true ∧ s.mode 59 ≠ 0 ∧ s.inK8 = true) ∧ ((0 : Word).getLsbD 31 = false ∧ actionOk 59 (s.mode 59) 2 = true ∧
       s.keyInRange 59 0 = true) ∧ ¬ (k8.chEn 0 = true) ∧ (0x80000000 : Word).getLsbD 31 = true ∧
       actionOk 59 (s.mode 59) 3 = false ∧ s.chan[(59 : Fin 64)].list.length < 32 ∧
       s.chan[(59 : Fin 64)].list.find? (fun e => e.tag == 7) = some (high 5 7) ∧
       s.tagged 59 7 = some (high 5 7, some 5) ∧ s.hasBegun 59 (high 5 7) (some 5) = true ∧ s.chan[(59 : Fin 64)].newConfig = none ∧
       (∀ e ∈ s.chan[(59 : Fin 64)].list, e.tag ≠ 8) ∧ s.clocked = true) ∧
    (let s := chanOn 47 mCOMPARE [high 5 7]
     (s.chEn 47 = true ∧ s.mode 47 ≠ 0 ∧ s.inK8 = true) ∧ s.tagged 47 7 = some (high 5 7, some 5) ∧
       s.hasBegun 47 (high 5 7) (some 5) = false) ∧
    32 ≤ (chanOn 0 mCOMPARE (List.replicate 32 (high 5 7))).chan[(0 : Fin 64)].list.length ∧
    (let s := (chanOn 0 mCOMPARE []).put (F.CH_CTL_DOMAIN 0) 1
     s.chEn 0 = true ∧ s.keyInRange 0 0x100000 = false ∧ s.keyInRange 0 0xFFFFF = true) := by decide +kernel

theorem witness_EntriesExecute_low :
    (let s := chanOn 47 mCOMPARE [high 5 7, high 6 8]
     s.chRuns 47 = true ∧ (47 : Fin 64).val < 48 ∧ s.wheelDomain 47 = false ∧ s.chan[(47 : Fin 64)].list = high 5 7 :: [high 6 8] ∧
       s.bit F.FLT_INJ_ARM = false ∧ (high 5 7).bad = false ∧ s.chan[(47 : Fin 64)].newConfig = none ∧
       s.now.toNat < (high 5 7).key.toNat ∧ (high 5 7).key.toNat ≤ ({ s with now := 5 } : State).now.toNat ∧
       (∀ x ∈ [high 6 8].head?, (5 : SysTime).toNat < x.key.toNat) ∧ (high 5 7).op ≤ 4) ∧
    (chanOn 47 mCOMPARE []).chan[(47 : Fin 64)].list = [] ∧ (chanOn 47 mPULSE []).chan[(47 : Fin 64)].wave = none ∧
    (∀ n ∈ [0, 1],
      let s0 := chanOn 47 mPULSE []
      let s : State := { s0 with chan := s0.chan.set 47 { s0.chan[(47 : Fin 64)] with wave := some ⟨10, 5, 1, n⟩ } }
      s.chRuns 47 = true ∧ s.chan[(47 : Fin 64)].wave = some ⟨10, 5, 1, n⟩ ∧ s.cycles < 1 ∧ s.chan[(47 : Fin 64)].newCount = none ∧
        s.chan[(47 : Fin 64)].newHigh = none ∧ s.chan[(47 : Fin 64)].update = false) := by decide +kernel

/-- Channel 59 with an entry whose gate is at 0x100000, and the HV path open. -/
def hvReady (l : List Entry) : State :=
  (((chanOn 59 mCOMPARE l).put F.BAR_STATUS_HV_ENABLED 1).put F.BAR_STATUS_LINK_UP 1)

/-- An entry 4 units more than 250 µs ahead within the lead goes; one nearer, one further off and one behind four others does not. -/
theorem witness_EntriesExecute_hv :
    (∀ g ∈ [0x20C49, 0x20C48],
      let e := { high 0x200000 7 with gate := some (BitVec.ofNat 64 g) }
      let s := (hvReady [e]).put (F.CH_CFG1_V 59) 1000
      s.chRuns 59 = true ∧ isHv 59 = true ∧ s.forwarding = true ∧
       ((s.gates 59).find? fun x => !x.1.mark && x.1.fwd == .no && !s.hasBegun 59 x.1 x.2) = some (e, some g) ∧
       (s.chan[(59 : Fin 64)].list.filter fun e => e.fwd == .sent).length < 4 ∧ g ≤ s.now.toNat + s.lead 59 ∧
       (s.now.toNat + 134217 ≤ g ∨ g < s.now.toNat + 134217) ∧
       s.bar.outs.length < 16 ∧ (s.chan[(59 : Fin 64)].list.map Entry.tag).Nodup) ∧
    134217 = 0x20C49 ∧
    (let e := { high 0x200000 7 with gate := some 0x200000 }
     let s := hvReady (List.replicate 4 { high 1 6 with fwd := .sent, gate := some 0x200000 } ++ [e])
     ((s.gates 59).find? fun x => !x.1.mark && x.1.fwd == .no && !s.hasBegun 59 x.1 x.2) = some (e, some 0x200000) ∧
       4 ≤ (s.chan[(59 : Fin 64)].list.filter fun e => e.fwd == .sent).length ∧ s.now.toNat + s.lead 59 < 0x200000) ∧
    ((high 5 7, some 5) ∈ (chanOn 59 mCOMPARE [high 5 7]).gates 59 ∧ (5 : Nat) ≤ k8.now.toNat + beginUnits ∧
      (high 5 7).begun = false) := by decide +kernel

theorem witness_PatternsAndEdges :
    k8.clocked = true ∧ k8.shadowOk 2 = false ∧
    (let s := (k8.put (F.PG_CFG_DEPTH 2) 16).put (F.PG_T0_T0 2) 0xFFFF
     s.shadowOk 2 = true ∧ s.grp[(2 : Fin 3)].started = false) ∧
    (let g : Group := { Group.reset with started := true, holding := false, fresh := false, depth := 16, fifo := [1] }
     let s : State := { k8.put (F.PG_CFG_EN 2) 1 with grp := k8.grp.set 2 g }
     s.grp[(2 : Fin 3)].started = true ∧ s.listsRun = true ∧ s.grp[(2 : Fin 3)].holding = false ∧
       s.grp[(2 : Fin 3)].due ≤ s.cycles ∧ s.grp[(2 : Fin 3)].plane + 1 < s.grp[(2 : Fin 3)].depth ∧
       s.grp[(2 : Fin 3)].fresh = false ∧ s.grp[(2 : Fin 3)].fifo = 1 :: [] ∧ s.pgEn 2 = true ∧
       ({ g with fifo := [] } : Group).fifo = [] ∧ s.cycles < ({ g with due := 1 } : Group).due) ∧
    (let s := (k8.put (F.PG_CFG_DEPTH 2) 16).put (F.PG_T0_T0 2) 0xFFFF
     ({ s with grp := s.grp.set 2 { s.grp[2] with started := true } } : State).shadowOk 2 = true) ∧
    k8.pgEn 0 = false ∧ k8.grp[(0 : Fin 3)].pending = false ∧ k8.grp[(0 : Fin 3)].fifo.length ≤ 30 ∧ 30 < (List.replicate 31 (0 : BitVec 16)).length ∧
    (let s := (chanOn 47 mCAPTURE []).put (F.CH_CFG0_EDGE 47) 1
     s.chRuns 47 = true ∧ s.mode 47 = mCAPTURE ∧ s.qualified 47 true ≠ s.qualified 47 false) ∧
    48 ≤ (48 : Fin 64).val ∧ k8.chRuns 0 = false := by decide +kernel

/-! ## Witnesses: wheels -/

/-- A change of MODE while enabled; an enable of a disabled channel; a disable. -/
theorem witness_ChannelAndWheelControl :
    (let s := chanOn 47 mCOMPARE []
     s.clocked = true ∧ (F.CH_CTL_FLUSH 47).of 0 = 0 ∧ (F.CH_CTL_MODE 47).of 0 ≠ s.get (F.CH_CTL_MODE 47) ∧ s.chEn 47 = true) ∧
    k8.chEn 47 = false ∧ (F.CH_CTL_EN 47).of ((F.CH_CTL_EN 47).into 1 0) = 1 ∧ (F.CH_CTL_EN 47).of 0 = 0 ∧
    3 ≤ (3 : Fin 8).val ∧ (F.WHL_CTL_FIFO_FLUSH 3).of ((F.WHL_CTL_EN 3).into 1 0) = 0 ∧ (F.WHL_CTL_RESYNC 3).of 0 = 0 ∧
    (let s := ((((((k8.put (F.WHL_CTL_SOURCE 3) 2).put (F.WHL_CFG0_N 3) 36).put (F.WHL_CFG0_SYNC 3) 2).put (F.WHL_CFG3_TOL 3) 16).put
        (F.WHL_CFG3_ERR_LIMIT 3) 3).put (F.WHL_CFG3_SPAN 3) 4).put (F.WHL_CFG4_STALL 3) 1000
     (s.put (F.WHL_CFG5_ARM 3) 1000).wheelEnableOk 3 = true) ∧ k8.wheelEnableOk 3 = false ∧
    k8.bit (F.WHL_CTL_EN 3) = false ∧ (F.WHL_CTL_EN 3).of ((F.WHL_CTL_EN 3).into 1 0) = 1 ∧ k8.whl[(3 : Fin 8)].sync = .off ∧
    (let s := k8.modW 3 fun x => { x with sync := .synced, cfg4 := (F.WHL_CFG4_STALL 3).into 1 0 }
     s.whl[(3 : Fin 8)].sync ≠ .off ∧ s.whl[(3 : Fin 8)].sync ≠ .stopped ∧ s.live = true ∧
       s.now.toNat < s.whl[(3 : Fin 8)].seen.toNat + (F.WHL_CFG4_STALL 3).of s.whl[(3 : Fin 8)].cfg4 * 1024 ∧
       (k8.whl[(3 : Fin 8)].seen.toNat + (F.WHL_CFG4_STALL 3).of k8.whl[(3 : Fin 8)].cfg4 * 1024 ≤ k8.now.toNat)) ∧
    (let s := k8.put (F.WHL_CTL_SOURCE 3) 2
     s.source 3 = 2 ∧ s.whl[(3 : Fin 8)].fifo.length < 1024 ∧ (∀ y ∈ s.whl[(3 : Fin 8)].fifo.getLast?, y.time.toNat < 2 ^ 32) ∧
       s.now.toNat + 1024 < ((1 : Word) ++ (s.whl[(3 : Fin 8)].synLo &&& 0xFFFFFFFE)).toNat ∧
       s.bit (F.WHL_FIFO_CFG_START_VALID 3) = false) ∧
    k8.source 3 ≠ 2 ∧ k8.wheelDomain 0 = false ∧ (k8.put (F.CH_CTL_DOMAIN 0) 1).wheelDomain 0 = true := by decide +kernel

/-- Wheel 0 after tooth 3, the next tooth at time 0x10000. -/
def turning (st : Sync) : State :=
  k8.modW 0 fun x => { x with sync := st, inbox := [⟨0x10000, false, false, false⟩], hist := [⟨0, posOf 0 152917, 3⟩] }

theorem witness_TeethAdvanceTheWheel :
    (∀ st ∈ [Sync.seeking, .synced, .provisional],
      let s := turning st
      let x : WheelIn := ⟨0x10000, false, false, false⟩
      let s2 := takeConfig 0 (clearIndexed 0 (s.modW 0 fun y => { y with inbox := [] }))
      let i := s.toothIn 0 x.time x.flag
      s.live = true ∧ s.bit F.FLT_INJ_ARM = false ∧ s.whl[(0 : Fin 8)].inbox = x :: [] ∧ x.index = false ∧
        (s.pattern 0).feature ≠ 3 ∧ s.tooClose 0 x.time = false ∧ s.whl[(0 : Fin 8)].sync = st ∧ s2.refTest 0 i = false ∧
        (s2.matchTooth 0 x.time).any (fun r => r.2.1 == 4) = true ∧ 4 ≠ (s.pattern 0).refIndex ∧ (s.pattern 0).sync ≠ 0) ∧
    k8.whl[(0 : Fin 8)].sync = .off ∧ (turning .synced).whl[(1 : Fin 8)].inbox = [] ∧ (turning .synced).synthetic 1 = false := by decide +kernel

/-- The flagged tooth of a wheel with SYNC FLAG is the reference; a tooth far from the one expected matches none. -/
theorem witness_TeethAdvanceTheWheel_others :
    (let x : WheelIn := ⟨0x10000, true, false, false⟩
     let s := (turning .synced).modW 0 fun y => { y with inbox := [x], hist := [⟨0, posOf 0 (43690 * 24), 24⟩] }
     let s2 := takeConfig 0 (clearIndexed 0 (s.modW 0 fun y => { y with inbox := [] }))
     s.tooClose 0 x.time = false ∧ (s2.matchTooth 0 x.time).any (fun r => r.2.1 == 24) = true ∧ (s.pattern 0).refIndex = 24 ∧
       (s.pattern 0).sync = 2 ∧ x.flag = true ∧ (s.pattern 0).feature ≠ 3) ∧
    (let x : WheelIn := ⟨0x8800, false, false, false⟩
     let s := (turning .provisional).modW 0 fun y => { y with
       cfg3 := 0xFFFFFFFF, hist := [⟨0x8000, posOf 0 152917, 3⟩, ⟨0x4000, posOf 0 (152917 - 43690), 2⟩], inbox := [x] }
     let s2 := takeConfig 0 (clearIndexed 0 (s.modW 0 fun y => { y with inbox := [] }))
     s.whl[(0 : Fin 8)].sync = .provisional ∧ s.tooClose 0 x.time = false ∧ s2.matchTooth 0 x.time = none) := by decide +kernel

/-- Two matched teeth: the wheel predicts. -/
theorem witness_EngineInstructions_wpred :
    (let s0 := turning .synced
     let s := { s0 with emb := task.emb, whl := s0.whl.set 0 { s0.whl[(0 : Fin 8)] with
       cfg3 := (F.WHL_CFG3_SPAN 0).into 1 0, hist := [⟨0x20000, posOf 0 196607, 4⟩, ⟨0x10000, posOf 0 152917, 3⟩] } }
     ready 0 (.wpred 0 0 2 0) s = true ∧ s.emb[0].sbuf = [] ∧ (s.predict 0 (posOf ((0 : BitVec 64).extractLsb' 32 32) 0)).isSome = true) := by decide +kernel

/-! ## Witnesses: resets, power, plug, Kindling -/

/-- The node as reset leaves it, changed by `f`. -/
def modNode (f : Node → Node) (s : State) : State := { s with node := f s.node }

theorem witness_ResetsBegin :
    (∀ s ∈ [State.reset, inPhase .k3, inPhase .k4, inPhase .k8], s.resetTaken = true ∧ s.node.phase ≠ .caldera ∧
      (s.plugKnown = false ∨ s.node.plugPresent = false)) ∧
    (let s := modNode (fun n => { n with calderaStep := 2 }) (inPhase .caldera)
     s.resetTaken = true ∧ s.node.phase = .caldera ∧ s.node.calderaStep = 2) ∧
    (modNode (fun n => { n with pwr := .complete }) k8).node.pwr = .complete ∧ 1650 ≤ 0xFFFF ∧ 0xFFFF < 2 ^ 16 ∧
    (let s := modNode (fun n => { n with heldInReset := true, resetLow := true }) State.reset
     s.node.heldInReset = true ∧ s.node.resetLow = true ∧ s.node.pwr = .none ∧ s.resetTaken = false) ∧
    State.reset.node.heldInReset = false := by decide +kernel

theorem witness_PwrfailSequence :
    (∀ p ∈ [Phase.k2, .hold],
      let s := inPhase p
      s.node.pwr = .none ∧ s.node.heldInReset = false ∧ (1499 : BitVec 16).toNat < 1500 ∧ s.node.freeze = .running ∧
        s.plugRead = false ∧ s.sup.switchIn = false) ∧
    1500 ≤ (1500 : BitVec 16).toNat ∧ frozen.node.freeze = .frozen ∧ frozen.node.pwr = .none ∧ frozen.node.heldInReset = false ∧
    (∀ c ∈ [msCycles 20, msCycles 20 - 1], ∀ logged ∈ [true, false],
      let s : State := { modNode (fun n => { n with pwr := .running, plugPresent := true, identChosen := true, pwrLogged := logged }) k8 with cycles := c }
      s.clocked = true ∧ s.node.pwr = .running ∧ (s.node.pwrCycle + msCycles 20 ≤ s.cycles ∨ s.cycles < s.node.pwrCycle + msCycles 20) ∧
        s.plugRead = true ∧ s.plugReachable = true ∧ s.node.pwrLogged = logged) ∧
    (∀ c ∈ [msCycles 21, msCycles 21 - 1],
      let s : State := { modNode (fun n => { n with pwr := .halted }) k8 with cycles := c }
      s.clocked = true ∧ s.node.pwr = .halted ∧ (s.node.pwrCycle + msCycles 21 ≤ s.cycles ∨ s.cycles < s.node.pwrCycle + msCycles 21)) ∧
    (let s : State := { modNode (fun n => { n with pwr := .stopped }) k8 with cycles := msCycles 30 }
     s.pending = [] ∧ s.clocked = true ∧ s.node.pwr = .stopped ∧ s.node.pwrCycle + msCycles 30 ≤ s.cycles) ∧
    State.reset.node.pwr ≠ .running ∧ State.reset.node.pwr ≠ .halted := by decide +kernel

theorem witness_PlugHoldAndBypass :
    State.reset.node.plugPresent = false ∧ 0xFFFFF < 0x100000 ∧
    (let s := modNode (fun n => { n with plugPresent := true }) (inPhase .k3)
     s.node.plugPresent = true ∧ s.plugKnown = false) ∧
    (let s := modNode (fun n => { n with plugPresent := true, freeze := .frozen }) (inPhase .k4)
     s.node.plugPresent = true ∧ s.clocked = false) ∧
    (let s := modNode (fun n => { n with pwr := .running }) (inPhase .k2)
     s.node.pwr ≠ .none ∧ s.plugRead = false) ∧
    (let s := modNode (fun n => { n with holdLow := true }) k8
     s.node.holdLow = true ∧ s.node.phase ≠ .hold ∧ s.node.phase ≠ .caldera) ∧
    (let s := modNode (fun n => { n with plugPresent := true }) (inPhase .k4)
     s.node.plugPresent = true ∧ s.plugKnown = true ∧ s.node.holdLow = false ∧ s.clocked = true ∧ s.work.peat = [] ∧
       s.plug.xfer = none) ∧
    (frozen.clocked = false ∧ (inPhase .hold).node.phase = .hold) ∧
    (∀ p ∈ [Phase.k0, .k3], (inPhase p).clocked = true ∧ (inPhase p).node.pwr = .none ∧ (inPhase p).node.phase = p) ∧
    (let s := modNode (fun n => { n with holdLow := true, plugPresent := true }) (inPhase .hold)
     s.clocked = true ∧ s.node.phase = .hold ∧ s.node.holdLow = true ∧ s.node.pwr = .none ∧ s.node.plugPresent = true) ∧
    State.reset.node.holdLow = false ∧ State.reset.node.heartbeat = false ∧ State.reset.sup.hbLost = true ∧
    (let s : State := { State.reset with sup := { State.reset.sup with hbLost := false } }
     s.node.heartbeat = false ∧ s.sup.hbLost = false) ∧
    (∀ at_ ∈ [0, 1],
      let s : State := { modNode (fun n => { n with heartbeat := true, hbAt := at_ }) k8 with
        ring := { k8.ring with requested := true }, cycles := msCycles 10 }
      s.clocked = true ∧ s.node.heartbeat = true ∧ s.sup.coil = false ∧ s.ring.requested = true ∧ s.live = true ∧
        s.node.freeze ≠ .frozen ∧ s.sup.switchIn = false ∧
        (s.node.hbAt + msCycles 10 ≤ s.cycles ∨ s.cycles < s.node.hbAt + msCycles 10)) ∧
    frozen.node.freeze = .frozen ∧ frozen.sup.switchIn = false ∧
    (∀ c ∈ [msCycles 12, msCycles 12 - 1],
      let s : State := { k8 with sup := { k8.sup with switchIn := true }, cycles := c }
      s.sup.switchIn = true ∧ s.node.freeze ≠ .frozen ∧ s.clocked = true ∧ s.sup.coil ≠ s.sup.switchIn ∧
        (s.sup.changedAt + msCycles 12 ≤ s.cycles ∨ s.cycles < s.sup.changedAt + msCycles 12)) := by decide +kernel

/-! ## Checksums over long runs of zeros -/

theorem crc_zeros (n : Nat) : (List.replicate n (0 : Byte)).foldl crc32cStep 0 = 0 := by
  induction n with
  | zero => rfl
  | succ n ih => rw [List.replicate_succ, List.foldl_cons, show crc32cStep 0 0 = 0 by decide, ih]

/-- A head that brings the register to 0, then zeros. -/
theorem crc_run {h : List Byte} (n : Nat) (hk : h.foldl crc32cStep 0xFFFFFFFF = 0) :
    crc32c (h ++ List.replicate n 0) = 0xFFFFFFFF := by
  rw [crc32c, List.foldl_append, hk, crc_zeros]; decide +kernel

theorem tabGet_unlisted {α : Type} [DecidableEq α] (d : α) (t : List (Nat × α)) (k : Nat) (h : ∀ e ∈ t, e.1 ≠ k) : tabGet d t k = d := by
  induction t with
  | nil => rfl
  | cons e t ih =>
    simp only [tabGet]
    rw [if_neg (h e (by simp)), ih fun x hx => h x (by simp [hx])]

/-- A run whose first `m` keys hold `h` and whose other keys are not listed. -/
theorem tabGetRun_zeros {α : Type} [DecidableEq α] (d : α) (t : List (Nat × α)) (k m n : Nat) (h : List α) (hm : tabGetRun d t k m = h)
    (ho : t.all (fun e => decide (e.1 < k + m) || decide (k + m + n ≤ e.1)) = true) :
    tabGetRun d t k (m + n) = h ++ List.replicate n d := by
  subst hm
  simp only [tabGetRun, List.range_add, List.map_append, List.map_map]
  congr 1
  refine List.ext_getElem (by simp) fun i h1 h2 => ?_
  simp only [List.length_map, List.length_range] at h1
  simp only [List.getElem_map, List.getElem_range, Function.comp, List.getElem_replicate]
  refine tabGet_unlisted d t _ fun e he hk => ?_
  have := List.all_eq_true.mp ho e he
  simp only [Bool.or_eq_true, decide_eq_true_eq] at this
  omega

theorem tabGetRun_append {α : Type} [DecidableEq α] (d : α) (t : List (Nat × α)) (k m n : Nat) :
    tabGetRun d t k (m + n) = tabGetRun d t k m ++ tabGetRun d t (k + m) n := by
  simp only [tabGetRun, List.range_add, List.map_append, List.map_map]
  congr 1
  exact List.map_congr_left fun i _ => by simp [Nat.add_assoc]

theorem slice_front (l r : List Byte) (n : Nat) (h : l.length = n) : slice (l ++ r) 0 n = l := by
  subst h
  refine List.ext_getElem (by simp [slice]) fun i h1 h2 => ?_
  simp [slice, List.getElem?_append, h2]

/-- The end of an identity copy's reserved bytes, and its CRC. -/
def identHead : List Byte :=
  let b := leBytes 4 0x44495A44 ++ leBytes 2 1 ++ List.replicate 58 0 ++ List.replicate 68 0xFF
  b ++ leBytes 4 (b.foldl crc32cStep 0xFFFFFFFF).toNat

/-- A sparse memory with these bytes at an address. -/
def bytesAt (a : Nat) (b : List Byte) : List (Nat × Byte) := ((b.zipIdx a).map fun p => (p.2, p.1)).filter fun e => e.2 != 0

/-- One identity copy of address 0 with no repair. -/
def identMem : List (Nat × Byte) := bytesAt 0 identHead ++ bytesAt 0xFFC [0xFF, 0xFF, 0xFF, 0xFF]

/-- An image of level 1 to 3 for ROM 0x24 and every band: microcode, personality set and channel table, the first and the last
of them FF FF FF FF and zeros. -/
def imageHead : List Byte :=
  let entry (type offset length : Nat) (crc : Word) : List Byte :=
    leBytes 2 type ++ leBytes 2 1 ++ leBytes 4 offset ++ leBytes 4 length ++ leBytes 4 crc.toNat
  let pset : List Byte := [0, 0, 2, 0] ++ List.replicate 60 0xFF
  let dir := entry 1 0x970 98304 0xFFFFFFFF ++ entry 2 0x130 64 (crc32c pset) ++ entry 3 0x170 2048 0xFFFFFFFF
  let header := leBytes 4 0x4D495A44 ++ leBytes 2 1 ++ leBytes 2 0xC0 ++ leBytes 4 1 ++ [1, 3, 0, 0, 0x24] ++
    List.replicate 23 0 ++ leBytes 4 0x18930 ++ leBytes 2 3 ++ List.replicate 58 0 ++ (List.replicate 8 [1, 0]).flatten ++
    leBytes 4 (crc32c dir).toNat ++ List.replicate 64 0
  commitBlock 0x3C3CA5A5 1 0 0 ++ header ++ leBytes 4 (crc32c header).toNat ++ dir ++ pset ++ [0xFF, 0xFF, 0xFF, 0xFF]

/-- The plug: identity copy A, and the image as copy B. -/
def plugMem : List (Nat × Byte) := identMem ++ bytesAt 0x42000 imageHead ++ bytesAt 0x42970 [0xFF, 0xFF, 0xFF, 0xFF]

/-- A node in a phase that holds this plug. -/
def plugged (p : Phase) : State :=
  let s := modNode (fun n => { n with plugPresent := true }) (inPhase p)
  { s with plug := { s.plug with mem := plugMem, rdid := 1 } }

/-- Bands 7, 7 and 15, jumpers and all. -/
def sampled (b : Bool) : Sample := ⟨0x7F, 3178, 3382, if b then 3705 else 3706⟩

theorem witness_KindlingK0toK3 :
    (inPhase .k0).kindles .k0 = true ∧ (inPhase .k0).node.frzLow = false ∧
    (let s := modNode (fun n => { n with plugPresent := true }) (inPhase .k1)
     s.kindles .k1 = true ∧ s.node.plugPresent = true) ∧
    setBands (Vector.replicate 8 (sampled true)).toList = some (7, 7, 15) ∧
    setBands (Vector.replicate 8 (sampled false)).toList = none ∧
    (let s : State := { inPhase .k1 with cycles := msCycles 100 }
     s.kindles .k1 = true ∧ s.node.plugPresent = false ∧ s.node.phaseAt + msCycles 100 ≤ s.cycles) ∧
    (∀ m ∈ [0, 1],
      let s := (inPhase .k2).put F.IDENT_STRAPS_MARCH m
      s.kindles .k2 = true ∧ s.bit F.IDENT_STRAPS_MARCH = (m == 1)) ∧
    (inPhase .k3).kindles .k3 = true ∧ (inPhase .k3).node.plugPresent = false ∧
    (inPhase .k8).node.phase = .k8 := by decide +kernel

/-- The copy as the node reads it. -/
def identBytes0 : List Byte := identHead ++ List.replicate 3956 0 ++ [0xFF, 0xFF, 0xFF, 0xFF]

theorem ident_valid : identVerdict identBytes0 = 0 := by
  have hc : crcLeOk 0xFFC identBytes0 = true := by
    unfold crcLeOk identBytes0
    rw [slice_front _ _ 0xFFC (by decide +kernel), crc_run 3956 (by decide +kernel)]
    decide +kernel
  simp only [identVerdict, hc]
  decide +kernel

theorem ident_read : tabGetRun 0 plugMem 0 0x1000 = identBytes0 := by
  rw [show 0x1000 = (136 + 3956) + 4 from rfl, tabGetRun_append,
    tabGetRun_zeros 0 plugMem 0 136 3956 identHead (by decide +kernel) (by decide +kernel)]
  unfold identBytes0
  rw [List.append_assoc, List.append_assoc]
  congr 2

theorem ident_chosen : chooseIdent (tabGetRun 0 plugMem 0 0x1000) (tabGetRun 0 plugMem 0x1000 0x1000) = some (false, false, true) := by
  have hb : identVerdict (tabGetRun 0 plugMem 0x1000 0x1000) = 1 := by decide +kernel
  rw [ident_read]
  simp only [chooseIdent, ident_valid, hb]

/-- Both copies of the identity, alike. -/
def twoIdents : List (Nat × Byte) := identMem ++ bytesAt 0x1000 identHead ++ bytesAt 0x1FFC [0xFF, 0xFF, 0xFF, 0xFF]

theorem twoIdents_read : tabGetRun 0 twoIdents 0 0x1000 = identBytes0 ∧ tabGetRun 0 twoIdents 0x1000 0x1000 = identBytes0 := by
  constructor <;>
  · rw [show 0x1000 = (136 + 3956) + 4 from rfl, tabGetRun_append,
      tabGetRun_zeros 0 twoIdents _ 136 3956 identHead (by decide +kernel) (by decide +kernel)]
    unfold identBytes0
    rw [List.append_assoc, List.append_assoc]
    congr 2

theorem witness_KindlingK0toK3_plug :
    let s : State := { plugged .k3 with plug := { (plugged .k3).plug with mem := twoIdents } }
    s.kindles .k3 = true ∧ s.node.plugPresent = true ∧ s.plug.rdid ≠ 0 ∧ s.plug.rdid ≠ 0xFF ∧ s.plug.rdsr &&& 0x0C = 0 ∧
      s.node.badRows = [] ∧ leAt (s.plugBytes 0 0x1000) 0xC 1 = s.get F.IDENT_CODES_ADDRESS ∧
      (chooseIdent (s.plugBytes 0 0x1000) (s.plugBytes 0x1000 0x1000)).any (fun x => !x.2.1 && !x.2.2) = true := by
  refine ⟨by decide, by decide, by decide, by decide, by decide, by decide, by decide +kernel, ?_⟩
  simp only [State.plugBytes, twoIdents_read, chooseIdent, ident_valid]
  decide +kernel

theorem witness_KindlingK0toK3_none : chooseIdent (k8.plugBytes 0 0x1000) (k8.plugBytes 0x1000 0x1000) = none := by
  decide +kernel

/-- A section of the image: FF FF FF FF, then zeros. -/
theorem section_read (off n : Nat) (hm : tabGetRun 0 plugMem (0x42000 + off) 4 = [0xFF, 0xFF, 0xFF, 0xFF])
    (ho : plugMem.all (fun e => decide (e.1 < 0x42000 + off + 4) || decide (0x42000 + off + 4 + n ≤ e.1)) = true) :
    tabGetRun 0 plugMem (0x42000 + off) (4 + n) = [0xFF, 0xFF, 0xFF, 0xFF] ++ List.replicate n 0 :=
  tabGetRun_zeros 0 plugMem _ 4 n _ hm ho

theorem section_crc (n : Nat) : crc32c ([0xFF, 0xFF, 0xFF, 0xFF] ++ List.replicate n 0) = 0xFFFFFFFF := crc_run n (by decide)

/-- A node that holds this plug. -/
theorem image_dir (s : State) (h : s.plug.mem = plugMem) : s.sections true =
    [⟨1, 1, 0x970, 98304, 0xFFFFFFFF⟩, ⟨2, 1, 0x130, 64, (crc32c ([0, 0, 2, 0] ++ List.replicate 60 0xFF)).toNat⟩,
     ⟨3, 1, 0x170, 2048, 0xFFFFFFFF⟩] := by
  simp only [State.sections, State.dirCount, State.entry, State.copyLe, State.copyBytes, State.plugLe, State.plugBytes, h]
  rfl

theorem image_code (s : State) (h : s.plug.mem = plugMem) :
    s.copyBytes true 0x970 98304 = [0xFF, 0xFF, 0xFF, 0xFF] ++ List.replicate 98300 0 := by
  simp only [State.copyBytes, State.plugBytes, h]
  exact section_read 0x970 98300 (by decide +kernel) (by decide +kernel)

theorem image_sections (s : State) (h : s.plug.mem = plugMem) :
    (s.sections true).all (fun e => s.sectionCrc true e) = true := by
  have c : s.copyBytes true 0x170 2048 = [0xFF, 0xFF, 0xFF, 0xFF] ++ List.replicate 2044 0 := by
    simp only [State.copyBytes, State.plugBytes, h]
    exact section_read 0x170 2044 (by decide +kernel) (by decide +kernel)
  have b : s.copyBytes true 0x130 64 = [0, 0, 2, 0] ++ List.replicate 60 0xFF := by
    simp only [State.copyBytes, State.plugBytes, h]; decide +kernel
  rw [image_dir s h]
  simp only [List.all_cons, List.all_nil, State.sectionCrc, State.body, image_code s h, b, c, section_crc]
  decide

theorem image_acceptable (s : State) (h : s.plug.mem = plugMem) (hb : s.band = 0) : s.verdict true = .acceptable := by
  have hd : s.directoryOk true = true := by
    simp only [State.directoryOk, image_dir s h, State.dirCount, State.pset, State.body, State.copyCrc, State.copyLe,
      State.copyBytes, State.plugLe, State.plugBytes, h]
    decide +kernel
  simp only [State.verdict, State.contentVerdict, hd, image_sections s h, hb, State.headerOk, State.commitOf, State.imageSeq, State.pset,
    State.copyCrc, State.copyLe, State.levelLo, State.levelHi, State.romList, State.copyBytes, State.plugLe, State.plugBytes, h]
  decide +kernel

theorem tail_zero (n i : Nat) (h : 4 ≤ i) : ([0xFF, 0xFF, 0xFF, 0xFF] ++ List.replicate n (0 : Byte)).getD i 0 = 0 := by
  rw [List.getD_eq_getElem?_getD, List.getElem?_append_right (by simpa using h), List.getElem?_replicate]
  split <;> rfl

/-- Every word of the image's microcode has the right parity. -/
theorem words_parity (n : Nat) : (microwords ([0xFF, 0xFF, 0xFF, 0xFF] ++ List.replicate n 0)).all parityOk = true := by
  refine List.all_eq_true.mpr fun w hw => ?_
  simp only [microwords, List.mem_map, List.mem_range] at hw
  obtain ⟨i, -, rfl⟩ := hw
  rcases i with _ | i
  · have : slice ([0xFF, 0xFF, 0xFF, 0xFF] ++ List.replicate n 0) (12 * 0) 12 =
        [0xFF, 0xFF, 0xFF, 0xFF] ++ List.replicate 8 0 := by
      simp only [slice, show List.range 12 = [0, 1, 2, 3, 4, 5, 6, 7, 8, 9, 10, 11] from rfl, List.map_cons, List.map_nil, Nat.mul_zero,
        Nat.zero_add, tail_zero n _ (show 4 ≤ 4 by decide), tail_zero n _ (show 4 ≤ 5 by decide), tail_zero n _ (show 4 ≤ 6 by decide),
        tail_zero n _ (show 4 ≤ 7 by decide), tail_zero n _ (show 4 ≤ 8 by decide), tail_zero n _ (show 4 ≤ 9 by decide),
        tail_zero n _ (show 4 ≤ 10 by decide), tail_zero n _ (show 4 ≤ 11 by decide)]
      rfl
    rw [leAt, this]; decide +kernel
  · have : slice ([0xFF, 0xFF, 0xFF, 0xFF] ++ List.replicate n 0) (12 * (i + 1)) 12 = List.replicate 12 0 := by
      refine List.ext_getElem (by simp [slice]) fun j h1 h2 => ?_
      simp only [slice, List.getElem_map, List.getElem_replicate]
      exact tail_zero n _ (by omega)
    rw [leAt, this]; decide +kernel

/-- What K5 reads of the chosen image. -/
theorem image_microcode (s : State) (h : s.plug.mem = plugMem) (hb : s.band = 0) (hs : s.selected = true) :
    s.failsAt none = none ∧ s.psetSection true 0 = some ⟨1, 1, 0x970, 98304, 0xFFFFFFFF⟩ := by
  have hp : s.psetSection true 0 = some ⟨1, 1, 0x970, 98304, 0xFFFFFFFF⟩ := by
    simp only [State.psetSection, State.psetIndex, State.personality, State.entry, State.pset, State.body, State.copyLe,
      State.copyBytes, State.plugLe, State.plugBytes, h, hb]
    rfl
  have hm : s.microcodeBad = false := by
    simp only [State.microcodeBad, hs, hp, State.body, image_code s h, words_parity, Bool.not_true]
  refine ⟨?_, hp⟩
  simp only [State.failsAt, hm, Bool.and_false, Bool.or_false, loadOrder]
  rfl

theorem witness_KindlingK4toK8_choice :
    (let s := plugged .k4
     s.kindles .k4 = true ∧ s.chooseCopy (s.startVerdict false) (s.startVerdict true) = some true) ∧
    (let s := inPhase .k4
     s.kindles .k4 = true ∧ s.chooseCopy (s.startVerdict false) (s.startVerdict true) = none) := by
  refine ⟨⟨by decide, ?_⟩, by decide +kernel⟩
  have a : (plugged .k4).startVerdict false = .headerBad := by decide +kernel
  have b : (plugged .k4).startVerdict true = .acceptable := by
    rw [State.startVerdict, if_neg (by decide), image_acceptable _ rfl (by decide)]
  rw [a, b]; rfl

/-- K5 of the image. -/
def loading : State := (plugged .k5).put F.KIN_STATUS_IMAGE_COPY 1

theorem witness_KindlingK4toK8_load : loading.kindles .k5 = true ∧ loading.node.plugPresent = true ∧ loading.failsAt none = none := by
  have h : loading.plug.mem = plugMem := rfl
  exact ⟨by decide +kernel, by decide +kernel, (image_microcode loading h (by decide +kernel) (by decide +kernel)).1⟩

theorem witness_KindlingK4toK8 :
    (∀ r ∈ [0, 1],
      let s := (modNode (fun n => { n with plugPresent := true }) (inPhase .k5)).put F.KIN_STATUS_RETURNED r
      s.kindles .k5 = true ∧ s.node.plugPresent = true ∧ s.failsAt (some 0) = some (1, 0) ∧
        s.bit F.KIN_STATUS_RETURNED = (r == 1)) ∧
    (∀ r ∈ [0, 1],
      let s := ((inPhase .k6).put F.BAR_STATUS_LINK_UP (1 - r)).put F.BAR_STATUS_FAILSTATE_SENT r
      s.kindles .k6 = true ∧ s.node.kind ≠ .warm ∧ s.bar.step = .idle ∧ s.bit F.BAR_STATUS_FAILSTATE_SENT = (r == 1) ∧
        s.linkUp = (r == 0) ∧ s.bar.outs.length < 16) ∧
    (let s : State := { inPhase .k6 with cycles := msCycles 300 }
     s.kindles .k6 = true ∧ s.linkUp = false ∧ s.node.phaseAt + msCycles 300 ≤ s.cycles) ∧
    (inPhase .k7).kindles .k7 = true ∧ (inPhase .k7).node.heartbeat = false ∧
    (∀ c ∈ [msCycles 2500 - 1, msCycles 2500],
      let s := modNode (fun n => { n with heartbeat := true }) { inPhase .k7 with cycles := c }
      s.kindles .k7 = true ∧ s.node.heartbeat = true ∧ s.sup.inserted = false ∧
        (s.cycles < s.node.phaseAt + msCycles 2500 ∨ s.node.phaseAt + msCycles 2500 ≤ s.cycles)) ∧
    (inPhase .k7).inK8 = false := by decide +kernel

/-- A running node on copy A whose inactive copy B is that image; word 0 of page 0 is the image's. -/
def restarting : State :=
  let s := plugged .k8
  { s with regs := [], dist := { s.dist with warmDue := true }, hrt := { s.hrt with cs := [(0, 0xFFFFFFFF)] } }

/-- At K3 of its warm restart, and after. -/
def warm2 : State := endPhase F.KIN_TIME1_END_K2 .k3 (k2Warm [] (endPhase F.KIN_TIME0_END_K0 .k2 (warmK0 restarting)))
def warmTaken : State :=
  (takeIdent identBytes0 (warm2.putBit F.KIN_STATUS_IDENT_COPY false)).modNode fun x => { x with identChosen := true }

/-- The repairs in force. -/
def inForce (s : State) : List (Nat × Nat) := (List.range 17).flatMap fun k =>
  ([s.get (F.SPM_REPAIR_FIRST k), s.get (F.SPM_REPAIR_SECOND k)].filter fun r => r != 0xFFFF).map fun r => (k, r)

def warm3 : State := (repairBanks (inForce warmTaken) (List.range 17) warmTaken).2
def warm4 : State := endPhase F.KIN_TIME1_END_K3 .k4 warm3

theorem warm2_mem : warm2.plug.mem = plugMem := by decide +kernel

/-- What K3 asks on the way. -/
theorem warm2_facts : (warm2.node.plugPresent = true ∧ warm2.plug.rdid = 1 ∧ warm2.plug.rdsr = 0) ∧
    warm3.node.kinHalted = false ∧ warmTaken.node.ident.address.toNat = warmTaken.get F.IDENT_CODES_ADDRESS ∧
    ((repairBanks (inForce warmTaken) (List.range 17) warmTaken).1.any fun r =>
      !warm3.node.ident.repair.contains r && warm3.node.badRows.contains r) = false := by decide +kernel

theorem warm_k3 : k3 true (fun c => (0 : BitVec 2).getLsbD c.toNat) warm2 = warm3 := by
  have e : chooseIdent (warm2.plugBytes (identBase false) 0x1000) (warm2.plugBytes (identBase true) 0x1000) =
      some (false, false, true) := by
    simp only [State.plugBytes, warm2_mem]; exact ident_chosen
  have r : warm2.plugBytes (identBase false) 0x1000 = identBytes0 := by
    simp only [State.plugBytes, warm2_mem]; exact ident_read
  obtain ⟨⟨h1, h2, h3⟩, k, a, g⟩ := warm2_facts
  unfold k3
  rw [if_neg (by rw [h1]; decide), if_neg (by rw [h2, h3]; decide)]
  simp only [e]
  simp only [r, if_true, if_false, Bool.false_eq_true]
  unfold warm3 inForce warmTaken at k
  unfold warm3 inForce warmTaken at g
  unfold warmTaken at a
  rw [if_neg (by rw [a]; simp), if_neg (by rw [k]; decide), rewriteIdents, if_neg (by rw [g]; decide), if_neg (by decide)]
  rfl

theorem plug_of_hide {s t : State} (h : t.hide 260046847 = s.hide 260046847) : t.plug = s.plug := by
  have := congrArg State.plug h; exact this

theorem after_k3_plug (s : State) (b : List Byte) (m : List (Nat × Nat)) (f g : Field) (c : Bool) (p : Phase) :
    (endPhase f p (repairBanks m (List.range 17) ((takeIdent b (s.putBit g c)).modNode fun x => { x with identChosen := true })).2).plug =
      s.plug :=
  (rfl : _ = (repairBanks m (List.range 17) ((takeIdent b (s.putBit g c)).modNode fun x => { x with identChosen := true })).2.plug).trans
    ((plug_of_hide (repairBanks_hide m (List.range 17) _ _ (by decide))).trans rfl)

theorem after_k4_plug (s : State) (a b c d : Bool) (v w : Verdict) :
    (takeCopy a (refuseOther b (showVerdict c v (showVerdict d w s)))).plug = s.plug :=
  (plug_of_hide (takeCopy_hide _ _ _ (by decide))).trans ((plug_of_hide (refuseOther_hide _ _ _ (by decide))).trans
    ((plug_of_hide (showVerdict_hide _ _ _ _ (by decide))).trans (plug_of_hide (showVerdict_hide _ _ _ _ (by decide)))))

theorem warm4_mem : warm4.plug.mem = plugMem := by
  have h : warm4.plug = warm2.plug := by unfold warm4 warm3 warmTaken; exact after_k3_plug warm2 _ _ _ _ _ _
  rw [h, warm2_mem]

/-- The chosen copy in force. -/
def warm5 : State :=
  takeCopy true (refuseOther false (showVerdict true .selected (showVerdict false .headerBad warm4)))

theorem warm4_facts : warm4.node.excludedA = false ∧ warm4.node.excludedB = false ∧ warm4.band = 0 := by decide +kernel

theorem first_bad (s : State) (h : s.plug.mem = plugMem) (hx : s.node.excludedA = false) : s.startVerdict false = .headerBad := by
  have hd : s.headerOk false = false := by
    simp only [State.headerOk, State.copyLe, State.plugLe, State.plugBytes, State.copyCrc, State.copyBytes, h]
    decide +kernel
  simp [State.startVerdict, State.verdict, hx, hd]

theorem second_good (s : State) (h : s.plug.mem = plugMem) (hx : s.node.excludedB = false) (hb : s.band = 0) :
    s.startVerdict true = .acceptable := by
  simp [State.startVerdict, hx, image_acceptable s h hb]

theorem k4_second (s : State) (a : s.startVerdict false = .headerBad) (b : s.startVerdict true = .acceptable) : k4 s =
    (some true, takeCopy true (refuseOther false (showVerdict true .selected (showVerdict false .headerBad s)))) := by
  have c : s.chooseCopy .headerBad .acceptable = some true := by simp [State.chooseCopy]
  simp only [k4, a, b, c]
  simp

theorem warm_k4 : k4 warm4 = (some true, warm5) :=
  k4_second warm4 (first_bad warm4 warm4_mem warm4_facts.1) (second_good warm4 warm4_mem warm4_facts.2.1 warm4_facts.2.2)

/-- What K5 asks of the copy in force. -/
theorem warm5_facts : warm5.band = 0 ∧ warm5.selected = true ∧ warm5.get F.HRT_SWAP_ACTIVE_PAGE = 0 ∧
    warm5.hrt.cs = [(0, 0xFFFFFFFF)] := by decide +kernel

/-- Page 0 of the control store holds the image's microcode. -/
theorem page_sound (s : State) (hp : s.get F.HRT_SWAP_ACTIVE_PAGE = 0) (hc : s.hrt.cs = [(0, 0xFFFFFFFF)]) (hs : s.selected = true)
    (hi : s.psetSection true 0 = some ⟨1, 1, 0x970, 98304, 0xFFFFFFFF⟩) : s.pageOk = true := by
  have h : tabGetRun (0 : BitVec 96) [(0, 0xFFFFFFFF)] (csKey 0 0) (1 + 8191) = [0xFFFFFFFF] ++ List.replicate 8191 0 :=
    tabGetRun_zeros 0 _ _ 1 8191 _ (by decide) (by decide)
  have k : leBytes 12 (0xFFFFFFFF : BitVec 96).toNat = [0xFF, 0xFF, 0xFF, 0xFF] ++ List.replicate 8 0 := by decide +kernel
  have z : leBytes 12 (0 : BitVec 96).toNat = List.replicate 12 0 := by decide +kernel
  have c : crc32c (([0xFF, 0xFF, 0xFF, 0xFF] ++ List.replicate 8 0) ++ List.replicate (8191 * 12) 0) = 0xFFFFFFFF :=
    crc_run _ (by decide)
  simp only [State.pageOk, hp, hc, hs, hi]
  rw [show 8192 = 1 + 8191 from rfl, h]
  simp only [List.flatMap_append, List.flatMap_cons, List.flatMap_nil, List.append_nil, k, List.flatMap_replicate, z,
    List.flatten_replicate_replicate, c]
  decide

theorem witness_KindlingK4toK8_warm :
    let s := restarting
    let s0 := warmK0 s
    let s3 := k3 true (fun c => (0 : BitVec 2).getLsbD c.toNat)
      (endPhase F.KIN_TIME1_END_K2 .k3 (k2Warm [] (endPhase F.KIN_TIME0_END_K0 .k2 s0)))
    let r := k4 (endPhase F.KIN_TIME1_END_K3 .k4 s3)
    s.inK8 = true ∧ s.dist.warmDue = true ∧ s.node.pwr = .none ∧ s3.node.kinHalted = false ∧ r.1 = some true ∧
      true ≠ s0.selected ∧ r.2.failsAt none = none ∧ r.2.pageOk = true := by
  intro s s0 s3 r
  have h3 : s3 = warm3 := warm_k3
  have hr : r = (some true, warm5) := by
    have : r = k4 (endPhase F.KIN_TIME1_END_K3 .k4 s3) := rfl
    rw [this, h3]; exact warm_k4
  have m : warm5.plug.mem = plugMem := by
    have h : warm5.plug = warm4.plug := by unfold warm5; exact after_k4_plug warm4 _ _ _ _ _ _
    rw [h, warm4_mem]
  obtain ⟨b, l, g, c⟩ := warm5_facts
  have i := image_microcode warm5 m b l
  have p := page_sound warm5 g c l i.2
  have k := warm2_facts.2.1
  have n : true ≠ s0.selected := by decide +kernel
  have e : s.inK8 = true ∧ s.dist.warmDue = true ∧ s.node.pwr = .none := by decide +kernel
  rw [hr, h3]
  exact ⟨e.1, e.2.1, e.2.2, k, rfl, n, i.1, p⟩

/-- The other ends of a warm restart: nothing to choose, and an identity that does not answer. -/
theorem witness_KindlingK4toK8_warmStops :
    let s : State := { k8 with dist := { k8.dist with warmDue := true } }
    s.inK8 = true ∧ s.dist.warmDue = true ∧ s.node.pwr = .none ∧
      (k3 true (fun c => (0 : BitVec 2).getLsbD c.toNat)
        (endPhase F.KIN_TIME1_END_K2 .k3 (k2Warm [] (endPhase F.KIN_TIME0_END_K0 .k2 (warmK0 s))))).node.kinHalted = true := by
  decide +kernel

/-! ## Witnesses: Caldera, freeze, the TAP, plug transfers -/

/-- A FATAL fault waits as a cause. -/
def caused : State := modCol (fun c => { c with cause := some (fault fatal) })

theorem witness_CalderaFreezeAndTap :
    (k8.clocked = true ∧ k8.node.phase ≠ .caldera ∧ k8.col.cause = none) ∧
    (∀ b ∈ [0, 1],
      let s := caused.put F.FLT_CFG_FREEZE_ON_FATAL b
      s.clocked = true ∧ s.node.phase ≠ .caldera ∧ s.col.cause = some (fault fatal) ∧ s.bit F.FLT_CFG_FREEZE_ON_FATAL = (b == 1) ∧
        s.node.pwr = .none ∧ s.plug.xfer = none) ∧
    (inPhase .caldera).node.phase = .caldera ∧ frozen.clocked = false ∧
    (let s := modNode (fun n => { n with holdLow := true }) frozen
     s.node.phase ≠ .caldera ∧ (s.node.phase = .hold ↔ s.node.holdLow = false)) ∧
    frozen.plugKnown = true ∧ (modNode (fun n => { n with plugPresent := true }) frozen).node.plugPresent = true ∧
    State.reset.node.phase = .k0 ∧ (k8.node.pwr = .none ∧ k8.node.freeze = .running ∧ k8.node.heldInReset = false ∧
      k8.node.phase ≠ .k0) ∧ frozen.node.freeze = .frozen ∧ frozen.node.phase ≠ .caldera ∧
    ((0x13 : BitVec 16).toNat = 0x10 + (3 : Fin 4).val ∧ (31 : BitVec 16).toNat = (31 : Fin 32).val) ∧
    ((0 : BitVec 16).toNat = 0 ∧ (1 : BitVec 16).toNat = 1 ∧ (0x20 : BitVec 16).toNat = 0x20) ∧
    (let a := (0x83FF8 : BitVec 20).toNat
     (∀ w, w < 8 → frozen.window? w = none) ∧ a % 8 = 0 ∧ a < 0x84000 ∧ frozen.bankOn (bankOf a) = true ∧
       tabGet none frozen.spm.ecc a ≠ some .double) ∧
    ((0x83FF9 : BitVec 20).toNat % 8 ≠ 0 ∧ 0x84000 ≤ (0x84000 : BitVec 20).toNat) := by decide +kernel

theorem witness_NodeInvariantKept :
    let s : State := { k8 with pending := [.bypass, .transferEnd] }
    nodeOk s.node ∧ ∃ s', step s = .next s' := ⟨by decide, _, rfl⟩

theorem witness_FrozenNodeStands : frozen.node.freeze = .frozen ∧ Instr.transferEnd.wf = true ∧ actsFrozen .transferEnd = false := by decide +kernel

/-- A transfer of the last scratchpad byte pair to the front of the writable area, or the other way; bank 16 on or off. -/
def moving (toPlug : Bool) (on : Nat) : State :=
  let s := (modNode (fun n => { n with plugPresent := true }) k8).put F.SPM_PSTAT_ON on
  { s with plug := { s.plug with xfer := some ⟨toPlug, 0xFA000, 0x83FFC, 4⟩ } }

theorem witness_PlugTransfers :
    (∀ len ∈ [0, 1, 4096, 4097], ∀ dir ∈ [0, 1], ∀ addr ∈ [0xF9FFF, 0xFA000, 0xFD000, 0xFD001],
      let v := (F.PLG_CTL_GO.into 1 0) ||| (F.PLG_CTL_DIR.into dir 0) ||| (F.PLG_CTL_LEN.into len 0)
      let s := k8.put F.PLG_ADDR_ADDR addr
      s.clocked = true ∧ F.PLG_CTL_GO.of v ≠ 0 ∧ F.PLG_CTL_DIR.of v = dir ∧ F.PLG_CTL_LEN.of v = len ∧ s.get F.PLG_ADDR_ADDR = addr ∧
        s.bit F.PLG_STATUS_BUSY = false) ∧
    F.PLG_CTL_GO.of 0 = 0 ∧ (k8.put F.PLG_STATUS_BUSY 1).bit F.PLG_STATUS_BUSY = true ∧
    (∀ d ∈ [true, false], ∀ on ∈ [0x1FFFF, 0xFFFF],
      let s := moving d on
      let x : Transfer := ⟨d, 0xFA000, 0x83FFC, 4⟩
      s.live = true ∧ s.node.plugPresent = true ∧ s.node.pwr = .none ∧ s.plug.xfer = some x ∧ 1 ≤ x.len ∧ x.len ≤ 4096 ∧
        x.spad % 4 = 0 ∧ x.spad + x.len ≤ 0x84000 ∧ s.spm.ecc = [] ∧ (∀ w, w < 8 → s.window? w = none) ∧
        s.bit F.FLT_INJ_ARM = false ∧ x.toPlug = d ∧
        (s.get F.SPM_PSTAT_ON = 0x1FFFF ∨ s.bankOn (bankOf x.spad) = false)) ∧
    k8.plug.xfer = none := by decide +kernel

/-! ## Witnesses: image delivery -/

/-- A cell in the image inbox, the rest of the node as given. -/
def gotCell (c : List Byte) (s : State) : State := { s with dist := { s.dist with inbox := [c] } }

/-- An OFFER of sequence 1 for node 0, levels `lo` to `hi`, or for node 127. -/
def offer (lo hi : Byte) (forUs : Bool) : List Byte :=
  [0x20, 5, 0, 0, 0, 1] ++ List.replicate 10 0 ++ [if forUs then 1 else 0] ++ List.replicate 14 0 ++ [if forUs then 0 else 0x80, lo, hi]

/-- With a plug whose copy B holds a STAGED commit block of sequence 1. -/
def holding : State :=
  let s := modNode (fun n => { n with plugPresent := true }) k8
  { s with plug := { s.plug with mem := bytesAt 0x42000 (commitBlock 0x3C3C5A5A 1 0 0) ++ [(0x42048, 1)] } }

/-- With a plug of zeros. -/
def blank : State := modNode (fun n => { n with plugPresent := true }) k8

theorem witness_ImageReception_offer :
    (∀ s ∈ [gotCell (offer 1 3 false) blank, gotCell (offer 1 3 true) blank, gotCell (offer 1 3 true) holding, gotCell (offer 4 4 true) blank,
        gotCell (offer 0 0 true) blank, gotCell (offer 1 1 true) blank, gotCell (offer 3 2 true) blank],
      s.working = true ∧ (s.dist.inbox.find? fun x => byteAt x 0 == 0x20) = s.dist.inbox.head? ∧ s.distState ≠ 1 ∧
        (s.dist.refusals.all fun r => r.1.toNat != 1) = true ∧ s.plugReachable = true ∧
        newer 32 1 (s.get F.KIN_IMAGE_SEQ_SEQUENCE) = true) ∧
    (byteAt (offer 1 3 false) 16).getLsbD 0 = false ∧ (byteAt (offer 1 3 true) 16).getLsbD 0 = true ∧ k8.address = 0 ∧
    beAt (offer 1 3 true) 2 4 = 1 ∧ (byteAt (offer 3 2 true) 32).toNat = 3 ∧ (byteAt (offer 3 2 true) 33).toNat = 2 ∧
    holding.holdsStaged 1 = true ∧ blank.commitOf blank.inactive ≠ .staged ∧
    newer 32 1 ((k8.put F.KIN_IMAGE_SEQ_SEQUENCE 1).get F.KIN_IMAGE_SEQ_SEQUENCE) = false := by decide +kernel

/-- Receiving sequence 0 of 96 bytes, one chunk held; the cell is chunk `k`. -/
def receiving (k : Nat) : State :=
  let s := (blank.put F.PLG_DIST_STATE_STATE 1).put F.PLG_DIST_STATE_CHUNKS k
  gotCell ([0x21, 5, 0, 0, 0, 0] ++ beBytes 2 k) { s with dist := { s.dist with len := 96, chunks := BitVec.ofNat 5462 (2 ^ k - 1) } }

theorem witness_ImageReception_chunk :
    (∀ k ∈ [0, 1, 2],
      let s := receiving k
      s.working = true ∧ (s.dist.inbox.find? fun x => byteAt x 0 == 0x21) = s.dist.inbox.head? ∧
        s.distState = 1 ∧ s.get F.PLG_DIST_SEQ_SEQUENCE = 0 ∧ (s.dist.len + 47) / 48 = 2 ∧ s.dist.chunks.getLsbD k = false ∧
        s.plugReachable = true ∧ k < 5460 ∧ s.get F.PLG_DIST_STATE_CHUNKS = k ∧ ∀ c ∈ s.dist.inbox, beAt c 6 2 = k ∧ beAt c 2 4 = 0) ∧
    (let s := receiving 1
     (writePlug (copyBase s.inactive + 0x40 + 48) (List.replicate 48 0) s).headerOk s.inactive = false ∧ s.dist.failedOnce = none) ∧
    ({ (receiving 1).dist with failedOnce := some 0 } : Dist).failedOnce = some (BitVec.ofNat 32 0) ∧
    (∀ x, (receiving 0).dist.needAt = some x → False) ∧ blank.distState ≠ 1 := by decide +kernel

/-- The last chunk of the image of copy B, all of it zeros. -/
def lastChunk : State :=
  let s := ((plugged .k8).put F.PLG_DIST_STATE_STATE 1).put F.PLG_DIST_STATE_CHUNKS 2096
  gotCell ([0x21, 5, 0, 0, 0, 0] ++ beBytes 2 2096) { s with dist := { s.dist with len := 0x18930, chunks := BitVec.ofNat 5462 (2 ^ 2096 - 1) } }

theorem unlisted_kept (t : List (Nat × Byte)) (n : Nat) : ∀ a, (t.all fun e => decide (e.1 < a) || decide (a + n ≤ e.1)) = true →
    tabSetRun 0 t a (List.replicate n 0) = t := by
  induction n with
  | zero => intros; rfl
  | succ n ih =>
    intro a h
    have hk : ∀ e ∈ t, e.1 ≠ a := fun e he hx => by
      have := List.all_eq_true.mp h e he
      simp only [Bool.or_eq_true, decide_eq_true_eq] at this
      omega
    have hs : tabSet 0 t a 0 = t := by
      rw [tabSet, if_pos rfl, tabErase, List.filter_eq_self]
      exact fun e he => by simpa using hk e he
    rw [List.replicate_succ, tabSetRun, hs]
    refine ih _ (List.all_eq_true.mpr fun e he => ?_)
    have h1 := List.all_eq_true.mp h e he
    have h2 := hk e he
    simp only [Bool.or_eq_true, decide_eq_true_eq] at h1 ⊢
    omega

theorem written_mem (s : State) (d : Dist) (f : Field) (v a : Nat) (bs : List Byte) (hp : s.plugReachable = true) :
    ((({ writePlug a bs s with dist := d } : State)).put f v).plug.mem = tabSetRun 0 s.plug.mem a bs := by
  show (writePlug a bs s).plug.mem = _
  rw [writePlug, if_pos (show s.plugWrites = true from hp)]

theorem chunk_acceptable (s : State) (hp : s.plugReachable = true) (hm : s.plug.mem = plugMem) (d : Dist) (f : Field) (v : Nat)
    (hb : ((({ writePlug 0x5A940 (List.replicate 48 0) s with dist := d } : State)).put f v).band = 0) :
    let s2 := (({ writePlug 0x5A940 (List.replicate 48 0) s with dist := d } : State)).put f v
    s2.headerOk true = true ∧ s2.contentVerdict true = .acceptable := by
  intro s2
  have hm : s2.plug.mem = plugMem := by
    rw [written_mem s d f v _ _ hp, hm]
    exact unlisted_kept _ _ _ (by decide +kernel)
  have hv := image_acceptable s2 hm hb
  have hh : s2.headerOk true = true := by
    simp only [State.headerOk, State.copyLe, State.plugLe, State.plugBytes, State.copyCrc, State.copyBytes, hm]
    decide +kernel
  refine ⟨hh, ?_⟩
  unfold State.verdict at hv
  rw [hh] at hv
  revert hv
  cases s2.commitOf true <;> simp

theorem witness_ImageReception_last :
    lastChunk.inactive = true ∧ copyBase true + 0x40 + 48 * 2096 = 0x5A940 ∧
    (lastChunk.working = true ∧ lastChunk.distState = 1 ∧ lastChunk.dist.chunks.getLsbD 2096 = false ∧
      lastChunk.plugReachable = true ∧ lastChunk.get F.PLG_DIST_STATE_CHUNKS + 1 = (lastChunk.dist.len + 47) / 48 ∧
      (lastChunk.dist.len + 47) / 48 ≤ 5460 ∧ (lastChunk.dist.inbox.map fun c => slice c 8 48) = [List.replicate 48 0]) ∧
    (let s2 : State := (({ writePlug 0x5A940 (List.replicate 48 0) lastChunk with dist := lastChunk.dist } : State)).put
       F.PLG_DIST_STATE_CHUNKS 2097
     s2.headerOk true = true ∧ s2.contentVerdict true = .acceptable) :=
  ⟨by decide +kernel, by decide, by decide +kernel,
    chunk_acceptable lastChunk (by decide) (by unfold lastChunk gotCell; rfl) _ _ _ (by decide +kernel)⟩

theorem witness_ImageReception_beacon :
    (∀ s ∈ [gotCell [0x23, 5, 0, 0, 0, 1] blank, gotCell [0x23, 5, 0, 0, 0, 1] holding, gotCell [0x23, 5, 0, 0, 0, 0] blank],
      s.working = true ∧ (s.dist.inbox.find? fun x => byteAt x 0 == 0x23) = s.dist.inbox.head?) ∧
    newer 32 1 (blank.get F.KIN_IMAGE_SEQ_SEQUENCE) = true ∧ blank.distState ≠ 1 ∧ blank.holdsStaged 1 = false ∧
    newer 32 0 (blank.get F.KIN_IMAGE_SEQ_SEQUENCE) = false := by decide +kernel

/-! ## Witnesses: image service and activation -/

/-- Serving sequence 1 to nodes 3 and 4, of which 3 has reported STAGED. -/
def service (staged : BitVec 128) (firstAt : Option Nat) : Serve :=
  { seq := 1, roster := 0x18, staged := staged, refused := 0, round := 0, needed := 0, firstAt := firstAt, offerAt := firstAt, armed := false }

/-- An item of node 5's, to a channel at a due key. -/
def item (action channel : BitVec 8) (due : BitVec 64) (arg0 : Word) (arg2 : BitVec 64) : Item :=
  { origin := 5, epoch := 1, seq := 1, tkind := 0, tid := 0, action := action, channel := channel, due := due, arg0 := arg0, arg1 := 0,
    arg2 := arg2 }

/-- A custody record of it. -/
def live (slot : Nat) : CRec :=
  { slot := slot, item := item 1 47 0 0 0, expires := 0, set := 0, targets := [], inner := false, committed := true, ended := false,
    released := false }

def serving (v : Serve) (s : State) : State := { s with dist := { s.dist with serve := some v } }

/-- A STATUS of node 3. -/
def status (dst : Byte) (seq : Byte) (st code : Byte) : List Byte := [0x22, 3, 0, 0, 0, seq, st, code, dst]

theorem witness_ImageServing :
    (∀ c ∈ [status 1 1 2 0, status 0 1 2 0, status 0 1 3 2, status 0 1 1 0, status 0 2 3 1],
      let s := gotCell c (serving (service 0 none) blank)
      s.working = true ∧ (s.dist.inbox.find? fun x => byteAt x 0 == 0x22) = some c ∧ beAt c 2 4 ≠ s.get F.KIN_IMAGE_SEQ_SEQUENCE ∧
        s.address = 0) ∧
    beAt (status 0 1 2 0) 2 4 = (service 0 none).seq.toNat ∧ newer 32 (beAt (status 0 2 3 1) 2 4) (service 0 none).seq.toNat = true ∧
    (service 0 none).round = 0 ∧ ({ service 0 none with round := 1 } : Serve).round ≠ 0 ∧
    (∀ v ∈ [service 0 none, service 8 (some 0), service 0x18 (some 0)],
      let s := serving v blank
      s.working = true ∧ s.dist.catchUp = none ∧ s.dist.serve = some v) ∧
    blank.dist.serve = none ∧ (service 0 none).firstAt = none ∧
    (∀ y, (service 0 none).offerAt = some y → False) ∧ (service 8 (some 0)).offerAt = some 0 ∧
    ({ service 8 none with roster := 0x10 } : Serve).armed = false ∧
    (let s := serving { service 8 (some 0) with roster := 0x8 } blank
     s.serveOver { service 8 (some 0) with roster := 0x8 } s.inactive = true ∧ s.plugReachable = true ∧ s.custodySlot ≠ none) ∧
    ({ blank with work := { blank.work with cust := List.replicate 2047 (live 0) } } : State).custodySlot = none ∧
    (∀ n, n < 128 → (service 0x18 none).roster.getLsbD n = true → (service 0x18 none).staged.getLsbD n = true) := by decide +kernel

/-- Both copies distributable, their roster nodes 3 and 4; a NEED and a STAGED of node 3 for the running image. -/
theorem witness_ImageServing_catchUp (st : Byte) (h : st = 1 ∨ st = 2) :
    let s := gotCell [0x22, 3, 0, 0, 0, 0, st, 0, 0] { plugged .k8 with
      plug := { (plugged .k8).plug with mem := bytesAt 0x204E [1, 0] ++ bytesAt 0x2058 [0x18] } }
    s.working = true ∧ s.dist.serve = none ∧ s.dist.catchUp = none ∧ s.get F.KIN_IMAGE_SEQ_SEQUENCE = 0 ∧
      s.distributes s.selected = true ∧ (s.rosterOf s.selected).getLsbD 3 = true ∧ (∀ x, s.dist.beaconAt = some x → False) := by
  rcases h with rfl | rfl <;> decide +kernel


/-- A journal record at the head of the apply queue. -/
def record (i : Item) : JRec :=
  { slot := 0, item := i, order := 0, time := 0, committed := true, marking := false, applied := false, result := 0, spent := false,
    again := false }

def applying (i : Item) (s : State) : State := { s with work := { s.work with awq := [record i] } }

/-- A plug whose copy B is STAGED with sequence 0, a personality set in section 0 and its empty microcode, of CRC `crc`, in 1. -/
def stagedMem (crc : Word) : List (Nat × Byte) :=
  bytesAt 0x42000 (commitBlock 0x3C3C5A5A 0 0 0) ++ bytesAt 0x42104 ([0, 2, 0, 0, 16, 0, 0, 0]) ++ bytesAt 0x4211C (leBytes 4 crc.toNat) ++
    [(0x42200, 1), (0x42208, 0xFF), (0x42209, 0xFF)]

/-- STATE of the delivery, ACT the 60th second, at time `t`. -/
def armed (st : Nat) (mem : List (Nat × Byte)) (t : SysTime) : State :=
  let s := (blank.put F.PLG_DIST_STATE_STATE st).put F.PLG_DIST_ACT_LO_ACT 60
  { s with now := t, plug := { s.plug with mem := mem } }

theorem words_empty : ∀ w ∈ microwords [], parityOk w = true := by
  intro w hw
  simp only [microwords, List.mem_map, List.mem_range] at hw
  obtain ⟨i, -, rfl⟩ := hw
  have : slice [] (12 * i) 12 = List.replicate 12 0 := by
    refine List.ext_getElem (by simp [slice]) fun j h1 h2 => ?_
    simp only [slice, List.getElem_map, List.getElem_replicate]
    rfl
  rw [leAt, this]; decide +kernel

theorem witness_ImageActivation :
    (blank.working = true ∧ blank.headReady 4 = none) ∧
    (applying (item 4 0 0 0 0) (armed 2 (stagedMem 0) 0)).headReady 4 = some (record (item 4 0 0 0 0)) ∧
    (let s := applying (item 4 0 0 0 60) (armed 2 (stagedMem 0) 0)
     s.headReady 4 = some (record (item 4 0 0 0 60)) ∧ s.holdsStaged 0 = true ∧ s.plugReachable = true ∧
       s.holdsStaged 1 = false ∧ s.working = true) ∧
    (let s := armed 3 (stagedMem 0) (BitVec.ofNat 64 (50 * 0x20000000))
     let c := s.inactive
     s.working = true ∧ s.distState = 3 ∧ s.act ≠ 0 ∧ s.tsi.copy = none ∧ s.act ≤ s.secNow + 10 ∧
       s.holdsStaged (s.get F.PLG_DIST_SEQ_SEQUENCE) = true ∧ s.pset c s.band ≠ 0xFFFF ∧
       s.sectionCrc c (s.entry c (s.psetIndex c 0)) = true ∧ s.body c (s.entry c (s.psetIndex c 0)) = [] ∧
       s.psetIndex c 4 = 0xFFFF ∧ s.tsi.swap = none) ∧
    (let s := armed 3 (stagedMem 1) (BitVec.ofNat 64 (50 * 0x20000000))
     let c := s.inactive
     s.holdsStaged (s.get F.PLG_DIST_SEQ_SEQUENCE) = true ∧ s.sectionCrc c (s.entry c (s.psetIndex c 0)) = false) ∧
    (let s := armed 3 [] (BitVec.ofNat 64 (50 * 0x20000000))
     s.act ≤ s.secNow + 10 ∧ s.holdsStaged (s.get F.PLG_DIST_SEQ_SEQUENCE) = false) ∧
    ¬ (armed 3 [] (BitVec.ofNat 64 (50 * 0x20000000 - 1))).act ≤ (armed 3 [] (BitVec.ofNat 64 (50 * 0x20000000 - 1))).secNow + 10 := by
  decide +kernel

/-- The window at the 60th second, SWAPWAIT's 512 µs before it and a unit more; the next frame one before it, its first, its last
and one past it; no port transmits, or one does. -/
theorem witness_ImageActivation_window :
    (∀ t ∈ [60 * 0x20000000 - 524288, 60 * 0x20000000 - 524289],
      let s := armed 4 [] (BitVec.ofNat 64 t)
      s.working = true ∧ s.distState = 4 ∧ s.dist.window = none ∧ s.act = 60 ∧ s.dist.k8At + 10 * 0x20000000 ≤ 60 * 0x20000000 ∧
        s.secNow + 1 ≤ 60 ∧
        (60 * 0x20000000 ≤ s.now.toNat + max 1 (s.get F.HRT_SWAP_SWAPWAIT) * 1024 ↔ t = 60 * 0x20000000 - 524288)) ∧
    (∀ v : Nat, (∃ k, v = (armed 4 [] 0).act + 60 * k) → 60 ≤ v) ∧
    (∀ t ∈ [60 * 0x20000000 - 67108, 60 * 0x20000000, 61 * 0x20000000 - 67108, 61 * 0x20000000],
      let s0 := ((armed 4 [] (BitVec.ofNat 64 t)).put F.HRT_SWAP_PRELOADED 1).put F.TSI_STATUS_PRELOADED 1
      let s : State := { s0 with hrt := { s0.hrt with draining := true }, dist := { s0.dist with window := some 60 } }
      s.working = true ∧ s.hrt.draining = true ∧ s.preloaded = true ∧ s.dist.window = some 60 ∧ s.quiescent = true ∧
        (s.nextFrame = 8000 * 60 - 1 ∨ s.nextFrame = 8000 * 60 ∨ s.nextFrame = 8000 * 61 - 1 ∨ s.nextFrame = 8000 * 61) ∧
        (∀ p, s.transmitting p = false) ∧ ({ s with emb := task.emb } : State).quiescent = false) ∧
    (let s0 := (((armed 4 [] 0).put F.HRT_SWAP_PRELOADED 1).put F.TSI_STATUS_PRELOADED 1).put (F.LINE_STATUS_STATE 0) 6
     let s : State := { s0 with
       hrt := { s0.hrt with draining := true }, dist := { s0.dist with window := some 60 }
       ring := { s0.ring with ports := s0.ring.ports.set 0 { s0.ring.ports[0] with txNum := some 479999 } } }
     s.working = true ∧ s.preloaded = true ∧ s.nextFrame = 8000 * 60 ∧ s.quiescent = true ∧ s.transmitting 0 = true) := by
  have h : (armed 4 [] 0).act = 60 := by decide +kernel
  refine ⟨by decide +kernel, fun v ⟨k, hk⟩ => by omega, by decide +kernel, by decide +kernel⟩

/-- A march of bank 16 alone that is over, with its repair entries. -/
def marched (first second : Nat) : State :=
  let s := ((k8.put F.SPM_MARCH_STATUS_BUSY 1).put (F.SPM_REPAIR_FIRST 16) first).put (F.SPM_REPAIR_SECOND 16) second
  { s with spm := { s.spm with marched := BitVec.twoPow 17 16 } }

theorem witness_WordsMended :
    (let s : State := { k8 with spm := { k8.spm with writeBacks := [0x83FF8] } }
     s.clocked = true ∧ (0x83FF8 : Word).toNat ∈ s.spm.writeBacks ∧ s.bankOn (bankOf (0x83FF8 : Word).toNat) = true ∧
       s.marchHolds (bankOf (0x83FF8 : Word).toNat) = false) ∧
    k8.get F.SPM_MARCH_STATUS_BUSY = 0 ∧ (marched 0 0).get F.SPM_MARCH_STATUS_BUSY = 1 ∧ k8.marchOver = false ∧
    (let banks : BitVec 17 := 0x18000
     let s := k8.put F.SPM_PSTAT_ON 0x17FFF
     banks.getLsbD 16 = true ∧ s.bankOn 16 = true ∧ (∀ d : Fin 17, d < 16 → banks.getLsbD d = true → s.bankOn d = false) ∧
       s.uncorrWords 16 = [] ∧ (∀ d : Fin 17, (0x8000 : BitVec 17).getLsbD d = true → s.bankOn d = false)) ∧
    (∀ r ∈ [(0xFFFF, 0xFFFF), (0, 0xFFFF), (0, 1)],
      let s := marched r.1 r.2
      s.clocked = true ∧ s.marchOver = true ∧ s.spm.marched.getLsbD (16 : Fin 17) = true ∧ s.spm.marched.getLsbD (15 : Fin 17) = false ∧
        (16, 63) ∉ s.spm.marchRows ∧ s.get (F.SPM_REPAIR_FIRST 16) = r.1 ∧ s.get (F.SPM_REPAIR_SECOND 16) = r.2) := by decide +kernel

/-- A store loaded; a word noted, before and after 100 µs, and one that has failed. -/
theorem witness_WordsMended_scrub :
    (∀ c ∈ [usCycles 100, usCycles 100 - 1],
      let b : BadWord := ⟨8191, 0, false⟩
      let s : State := { blank with hrt := { blank.hrt with loaded := true, scrubBad := [⟨5, 0, true⟩, b] }, cycles := c }
      s.clocked = true ∧ s.hrt.loaded = true ∧ s.bit F.FLT_INJ_ARM = false ∧ s.plugReachable = true ∧
        s.hrt.scrubBad.find? (fun b => !b.failed) = some b ∧ parityOk (s.imageWord 8191) = true ∧
        s.hrt.scrubBad.find? (fun b => !b.failed && decide (b.foundAt + usCycles 100 ≤ s.cycles)) =
          (if c = usCycles 100 then some b else none)) ∧
    (∀ b ∈ [(⟨5, 0, true⟩ : BadWord)], b.failed = true) ∧ k8.hrt.loaded = false ∧ frozen.clocked = false := by decide +kernel

/-- A word of wrong parity in the selected copy: the bit beside its microcode's first word's. -/
theorem witness_WordsMended_bad :
    let s0 := (plugged .k8).put F.KIN_STATUS_IMAGE_COPY 1
    let s : State := { s0 with
      plug := { s0.plug with mem := s0.plug.mem ++ [(0x4297C, 1)] }
      hrt := { s0.hrt with loaded := true, scrubBad := [⟨1, 0, false⟩] } }
    s.clocked = true ∧ s.hrt.scrubBad.find? (fun b => !b.failed) = some ⟨1, 0, false⟩ ∧ s.plugReachable = true ∧
      parityOk (s.imageWord 1) = false := by decide +kernel

/-! ## Witnesses: time -/

/-- SRC_EN chosen, the time unit as given, at a cycle. -/
def timed (srcEn : Nat) (at_ : Nat) (f : TimeUnit → TimeUnit) : State :=
  let s := k8.put F.TIME_CTL_SRC_EN srcEn
  { s with tim := f s.tim, cycles := at_ }

theorem witness_TimeSources :
    (k8.live = true ∧ k8.srcEn ≠ 1 ∧ k8.srcEn = 0) ∧
    (∀ d ∈ [134217, 134218], ∀ r ∈ [0, 1],
      let s := timed 1 (0x20000000 + d) fun t => { t with edgeAt := some 0, rejects := r }
      s.live = true ∧ s.srcEn = 1 ∧ s.tim.edgeAt = some 0 ∧ s.tim.stamp = none ∧ s.tim.rejects = r ∧
        ((((s.cycles - 0 : Nat) : Int) - 0x20000000).natAbs * 1000000 ≤ 250 * 0x20000000 ↔ d = 134217)) ∧
    (∀ good ∈ [6, 7], ∀ at_ ∈ [483183820, 483183821],
      let s := (timed 1 at_ fun t => { t with edgeAt := some 0, stamp := some 5, label := some 6, good := good }).putReg 0x400B0028 7
      s.clocked = true ∧ s.srcEn = 1 ∧ s.tim.stamp = some 5 ∧ s.tim.label = some 6 ∧ s.reg 0x400B0028 = 6 + 1 ∧ s.tim.good = good ∧
        (s.cycles ≤ 0 + 483183820 ↔ at_ = 483183820)) ∧
    (timed 2 0 id).srcEn = 2 ∧ (timed 1 0 id).tim.stamp = none ∧
    (let s := timed 1 0 fun t => { t with stamp := some 5, label := some 6 }
     s.tim.stamp = some 5 ∧ s.reg 0x400B0028 ≠ 6 + 1 ∧ s.reg 0x400B0028 ≠ 6) ∧
    F.TIME_SRC_CMD_LEAP60.of 0 = 0 ∧ F.TIME_SRC_CMD_ACC.of (F.TIME_SRC_CMD_ACC.into 18 0) = 18 ∧ F.TIME_SRC_CMD_ACC.of 0 = 0 := by
  decide +kernel

/-- A submission of an edge at 0 labelled 0: its offset is 0 less the UTC offset. -/
theorem witness_TimeSources_soft :
    (∀ good ∈ [1, 2],
      let s := timed 2 0 fun t => { t with soft := some (0, 0), good := good }
      let e : SysTime := s.reg 0x400B0024 ++ s.reg 0x400B0020
      let x : Int := (e.toNat : Int) - (((s.reg 0x400B0028).toNat : Int) + s.utcOffset + F.TIME_SRC_CMD_LEAP60.of 0) * 0x20000000
      s.clocked = true ∧ s.srcEn = 2 ∧ s.tim.soft = some (0, 0) ∧ s.tim.good = good ∧ ((e.toNat : Int) - s.now.toNat).natAbs = 0 ∧
        (x - 0).natAbs * 1000000 ≤ 2 * 2 ^ max 0 0 * 0x20000000) ∧
    (∀ bad ∈ [0, 1],
      let s := timed 2 0 fun t => { t with soft := some (1074, 0), badSoft := bad }
      let e : SysTime := s.reg 0x400B0024 ++ s.reg 0x400B0020
      let x : Int := (e.toNat : Int) - (((s.reg 0x400B0028).toNat : Int) + s.utcOffset + F.TIME_SRC_CMD_LEAP60.of 0) * 0x20000000
      s.tim.badSoft = bad ∧ ¬ (x - 1074).natAbs * 1000000 ≤ 2 * 2 ^ max 0 0 * 0x20000000) ∧
    (let s : State := { timed 2 0 id with now := 0x40000001 }
     let e : SysTime := s.reg 0x400B0024 ++ s.reg 0x400B0020
     2 * 0x20000000 < ((e.toNat : Int) - s.now.toNat).natAbs) := by decide +kernel

theorem witness_TimeSourcesAndStates :
    (∀ c ∈ [805306367, 805306368],
      let s := timed 1 c fun t => { t with edgeSeen := 0 }
      s.live = true ∧ s.srcEn = 1 ∧ s.tim.stamp = none ∧ (s.tim.edgeSeen + 805306368 ≤ s.cycles ↔ c = 805306368)) ∧
    (∀ c ∈ [483183820, 483183821],
      let s := timed 1 c fun t => { t with edgeAt := some 0, stamp := some 0 }
      s.tim.stamp ≠ none ∧ s.tim.edgeAt = some 0 ∧ (0 + 483183820 < s.cycles ↔ c = 483183821)) ∧
    (∀ c ∈ [5368709119, 5368709120],
      let s := timed 2 c fun t => { t with softAt := 0 }
      s.srcEn = 2 ∧ (s.tim.softAt + 5368709120 ≤ s.cycles ↔ c = 5368709120)) ∧
    (let s := timed 0 0 fun t => { t with hasRef := true, stepDue := some (-20000000000) }
     s.live = true ∧ s.tim.hasRef = true ∧ s.tim.stepDue = some (-20000000000)) ∧
    k8.tim.stepDue = none ∧ k8.tim.hasRef = false ∧
    (∀ c ∈ [0x3FFFFFFF, 0x40000000],
      let s := (timed 0 c fun t => { t with hasRef := true, inSince := some 0 }).put F.TIME_STATUS_STATE 2
      s.live = true ∧ s.tim.hasRef = true ∧ s.timeState = 2 ∧ s.tim.inSince = some 0 ∧
        (0 + 0x40000000 ≤ s.cycles ↔ c = 0x40000000)) ∧
    (∀ c ∈ [3600 * 0x20000000 - 1, 3600 * 0x20000000],
      let s := ((timed 0 c fun t => { t with holdAt := 0 }).put F.TIME_STATUS_STATE 4).put F.TIME_CTL_HOLD_MAX 0
      s.live = true ∧ s.timeState = 4 ∧
        (s.tim.holdAt + max 1 (s.get F.TIME_CTL_HOLD_MAX) * 3600 * 0x20000000 ≤ s.cycles ↔ c = 3600 * 0x20000000)) ∧
    k8.clocked = true ∧ frozen.clocked = false := by decide +kernel

theorem witness_SecondsAndLeaps :
    (∀ t ∈ [0x1FFFFFFF, 0x20000000], ∀ valid ∈ [3, 4],
      let s : State := { ((timed 0 0 fun u => { u with port := some 0 }).put F.TIME_STATUS_STATE valid) with now := BitVec.ofNat 64 t }
      s.clocked = true ∧ s.timeValid = (valid == 4) ∧ (s.tim.second < s.now.toNat / 0x20000000 ↔ t = 0x20000000) ∧ s.isMaster = false ∧
        s.tim.port ≠ none ∧ s.node.rtcFailed = false) ∧
    (∀ dir ∈ [1, 2],
      let s := (k8.put F.TIME_LEAP_LO_S_L 1).put F.TIME_UTC_LEAP_DIR dir
      s.get F.TIME_LEAP_LO_S_L + 2 ^ 32 * s.get F.TIME_LEAP_HI_S_L = 1 ∧ s.get F.TIME_UTC_LEAP_DIR = dir) ∧
    (let s := k8.put F.TIME_CTL_PPS_OUT_EN 1
     s.inK8 = true ∧ s.bit F.TIME_CTL_PPS_OUT_EN = true ∧ s.tim.stepAt = none) ∧
    (modNode (fun n => { n with rtcFailed := true }) k8).node.rtcFailed = true ∧
    (∀ e ∈ [0, 1], let s := timed 0 0 fun u => { u with ppsOut := true, ppsEnd := e }
      s.live = true ∧ s.tim.ppsOut = true ∧ (s.tim.ppsEnd ≤ s.cycles ↔ e = 0)) ∧
    (∀ d ∈ [0, 1, 2, 3], F.TIME_LEAP_CMD_DIR.of (F.TIME_LEAP_CMD_DIR.into d 0) = d) ∧
    (k8.put F.TIME_STATUS_IS_MASTER 1).isMaster = true ∧ k8.isMaster = false := by decide +kernel

/-! ## Witnesses: the ring -/

/-- Port `p` in a line state, changed by `f`, at a cycle. -/
def line (p : Fin 4) (st : Nat) (at_ : Nat) (f : Port → Port) : State :=
  let s := k8.put (F.LINE_STATUS_STATE p) st
  { s with ring := { s.ring with ports := s.ring.ports.set p (f s.ring.ports[p]) }, cycles := at_ }

theorem witness_RingTraining :
    (((line 3 0 0 id).put (F.LINE_CTL_EN 3) 1).live = true ∧ ((line 3 0 0 id).put (F.LINE_CTL_EN 3) 1).portEnabled 3 = true ∧
      (line 3 0 0 id).lineState 3 = 0 ∧
      (line 0 0 0 id).portEnabled 0 = true ∧ (line 0 0 0 id).wrapped 0 = false) ∧
    (let s := (line 0 2 0 fun o => { o with clash := false, validRun := 8, rxOk := true }).put (F.LINE_STATUS_LEADER 0) 1
     s.lineState 0 = 2 ∧ s.ring.ports[(0 : Fin 4)].clash = false ∧ s.leader 0 = true ∧ s.ownRxOk 0 = true ∧
       s.ring.ports[(0 : Fin 4)].rxOk = true) ∧
    (let s := line 0 2 0 fun o => { o with clash := false, rxStep := 2 }
     s.lineState 0 = 2 ∧ s.leader 0 = false ∧ s.ring.ports[(0 : Fin 4)].rxStep = 2) ∧
    (let s := (line 0 3 0 fun o => { o with count := 0 }).put (F.LINE_STATUS_LEADER 0) 1
     s.lineState 0 = 3 ∧ s.leader 0 = true ∧ s.ring.ports[(0 : Fin 4)].count = 0) ∧
    (let s := line 0 3 0 fun o => { o with rxCount := 1, selFull := true }
     s.leader 0 = false ∧ s.ring.ports[(0 : Fin 4)].rxCount = 1 ∧ s.ring.ports[(0 : Fin 4)].selFull = true) ∧
    (let s := (line 0 4 0 fun o => { o with adapt := List.replicate 80 0, rxAdapted := true }).put (F.LINE_DEG_THR_THR 0) 1
     s.lineState 0 = 4 ∧ s.ownAdapted 0 = true ∧ s.ring.ports[(0 : Fin 4)].rxAdapted = true) ∧
    (∀ n ∈ [15, 16],
      let s := line 0 5 0 fun o => { o with selFull := false, validRun := 8, rxOk := true, setRun := 16, sentRun := n }
      s.lineState 0 = 5 ∧ s.holds 0 = true ∧ s.rxHolds 0 = true ∧ s.sf 0 = false ∧ 16 ≤ s.ring.ports[(0 : Fin 4)].setRun ∧
        (16 ≤ s.ring.ports[(0 : Fin 4)].sentRun ↔ n = 16)) ∧
    (line 0 5 0 fun o => { o with selFull := false, validRun := 7 }).holds 0 = false ∧
    (∀ c ∈ [536870911, 536870912],
      let s := line 0 4 c fun o => { o with stepAt := 0 }
      s.live = true ∧ s.lineState 0 = 4 ∧ (s.ring.ports[(0 : Fin 4)].stepAt + 536870912 ≤ s.cycles ↔ c = 536870912)) ∧
    (∀ c ∈ [536869, 536870],
      let s := line 0 6 c fun o => { o with failAt := some 0 }
      s.live = true ∧ s.lineState 0 = 6 ∧ s.ring.ports[(0 : Fin 4)].failAt = some 0 ∧ (0 + 536870 ≤ s.cycles ↔ c = 536870)) := by
  decide +kernel

theorem witness_RingDefects :
    ((line 3 2 0 id).live = true ∧ 2 ≤ (line 3 2 0 id).lineState 3 ∧ (line 3 1 0 id).lineState 3 = 1) ∧
    (∀ d ∈ [Defect.los, .lol, .oof, .lof, .deg, .rdiSf, .rdiSd],
      let s := line 3 2 (msCycles 1) fun o => { o with wrong := 4, oofAt := some 0, degRun := 10, rdiSfRun := 3, rdiSdRun := 3 }
      s.bit (defectField 3 d) = false ∧ s.declares 3 d (-221) = true) ∧
    (∀ d ∈ [Defect.los, .lol, .oof, .lof, .deg, .rdiSf, .rdiSd],
      let s := (line 3 2 (msCycles 1) fun o => { o with right := 2, inFrameAt := some 0, cleanRun := 10, rdiSfClear := 3, rdiSdClear := 3 }).put
        (defectField 3 d) 1
      s.bit (defectField 3 d) = true ∧ s.clears 3 d (-189) = true) ∧
    (line 3 2 0 id).declares 3 .oof 0 = false ∧ (line 3 2 0 id).clears 3 .deg 0 = false ∧
    (-31 : BitVec 16).toInt < -30 ∧ 30 < (31 : BitVec 16).toInt ∧ ¬ ((-30 : BitVec 16).toInt < -30) ∧ ¬ (30 < (30 : BitVec 16).toInt) ∧
    (let s : State := { k8 with sup := { k8.sup with inserted := true } }
     s.live = true ∧ s.sup.inserted = true ∧ s.isMaster = false ∧ (499 : BitVec 16).toNat < 500 ∧ 3500 < (3501 : BitVec 16).toNat ∧
       ¬ ((500 : BitVec 16).toNat < 500) ∧ (s.put F.RING_STATUS_FREQ_MASTER 1).bit F.RING_STATUS_FREQ_MASTER = true) := by
  decide +kernel

theorem witness_RingProtection :
    (let s : State := { line 0 6 0 fun o => { o with everUp := false } with sup := { k8.sup with inserted := true } }
     s.live = true ∧ s.sup.inserted = true ∧ s.wrapped 0 = false ∧ s.unfit 0 = true) ∧
    (∀ c ∈ [0x20000, 5 * 0x20000000],
      let s := (line 0 6 c fun o => { o with everUp := true, wtrAt := some 0, fitWith := none }).put (F.LINE_STATUS_WRAPPED 0) 1
      let wait := max 1 (s.get (F.LINE_TIMERS_WTR_INS 0))
      s.live = true ∧ s.wrapped 0 = true ∧ s.unfit 0 = false ∧ s.lineState 0 = 6 ∧ s.ring.ports[(0 : Fin 4)].wtrAt = some 0 ∧
        (0 + wait * 0x20000000 ≤ s.cycles ∨ s.cycles < 0 + wait * 0x20000000)) ∧
    (let s := (line 0 6 0 fun o => { o with everUp := true, wtrDone := true, wtrDoneRun := 16, txNum := some 16 }).put (F.LINE_STATUS_WRAPPED 0) 1
     s.live = true ∧ s.wrapped 0 = true ∧ s.unfit 0 = false ∧ s.ring.ports[(0 : Fin 4)].wtrDone = true ∧
       16 ≤ s.ring.ports[(0 : Fin 4)].wtrDoneRun ∧ s.ring.ports[(0 : Fin 4)].txNum = some 16 ∧ (16 : BitVec 48).toNat % 16 = 0) ∧
    (let s : State := { k8 with ring := { k8.ring with monitorAt := some 0 }, cycles := 26843545 }
     s.live = true ∧ s.node.phase = .k8 ∧ s.sup.switchIn = false ∧ s.ring.requested = false ∧ s.ring.monitorAt = some 0 ∧
       0 + 26843545 ≤ s.cycles ∧ (∀ p : Fin 4, s.ring.ports[p].insertingSeen = none ∧ s.ring.ports[p].leavingSeen = none) ∧
       s.bit F.RING_CTL_BYPASS_REQ = false ∧ s.ring.backoffEnd = none ∧ s.node.pwr = .none) ∧
    (∀ c ∈ [2684354559, 2684354560],
      let s : State := { k8 with ring := { k8.ring with requested := true, tapFramed := true, switchAt := some 0, backoffEnd := some c }, cycles := c }
      s.live = true ∧ s.ring.requested = true ∧ s.ring.tapFramed = true ∧ s.ring.switchAt = some 0 ∧
        (0 + 2684354560 ≤ s.cycles ↔ c = 2684354560) ∧ s.ring.ports[(0 : Fin 4)].everUp = false ∧ s.ring.ports[(1 : Fin 4)].everUp = false ∧
        s.ring.backoffEnd = some c ∧ c ≤ s.cycles) ∧
    k8.ring.backoffEnd = none ∧ k8.ring.requested = false ∧ k8.wrapped 1 = false ∧
    (F.RING_CTL_BYPASS_REQ.of (F.RING_CTL_BYPASS_REQ.into 1 0) = 1 ∧ k8.bit F.RING_CTL_BYPASS_REQ = false ∧ k8.clocked = true ∧
      k8.sup.switchIn = false ∧ ({ k8 with sup := { k8.sup with switchIn := true } } : State).sup.switchIn = true ∧
      F.RING_CTL_BYPASS_REQ.of 0 ≠ 1) := by decide +kernel

theorem witness_RingFrames :
    (∀ p ∈ [(0 : Fin 4), 1, 2, 3],
      let s := line p 2 0 fun o => { o with expect := some 5 }
      let f := bytesAt 0 (expectAlign p ++ numberField 5)
      s.live = true ∧ 2 ≤ s.lineState p ∧ s.bit (F.LINE_STATUS_LOS p) = false ∧ s.bit (F.LINE_STATUS_LOL p) = false ∧
        s.bit (F.LINE_STATUS_OOF p) = false ∧ s.bit F.FLT_INJ_ARM = false ∧ bitsWrong (frameAt f 0 16) (expectAlign p) ≤ 8 ∧
        8 < bitsWrong (frameAt [] 0 16) (expectAlign p) ∧ numberOf (frameAt f 16 8) = some 5 ∧ s.ring.ports[p].expect = some 5) ∧
    numberOf (frameAt [(17, 1)] 16 8) = none ∧ (line 0 1 0 id).lineState 0 = 1 ∧ frozen.clocked = false ∧
    (let s := line 0 2 0 fun o => { o with txNum := some 5 }
     s.live = true ∧ s.clocked = true ∧ s.bit F.RING_STATUS_FREQ_MASTER = false ∧ s.wrapped (opposite 0) = false ∧
       s.ring.ports[opposite (0 : Fin 4)].rx = none ∧ s.ring.ports[(0 : Fin 4)].txNum = some 5 ∧ s.lineState 0 < 5 ∧ s.wrapped 0 = false) ∧
    (let s : State := { line 0 2 0 id with ring := { k8.ring with leaveFrames := some 1, ports := k8.ring.ports.set 1 {
       k8.ring.ports[(1 : Fin 4)] with rx := some ⟨[], [], false, false⟩, rxNum := some 7 } } }
     s.ring.leaveFrames = some 1 ∧ s.ring.ports[opposite (0 : Fin 4)].rxNum = some 7 ∧
       s.ring.ports[opposite (0 : Fin 4)].rx = some ⟨[], [], false, false⟩) ∧
    (∀ b ∈ [true, false],
      let s := modNode (fun n => { n with phase := .caldera }) { line 0 2 0 id with sup := { k8.sup with switchIn := b } }
      s.clocked = true ∧ s.live = false ∧ 2 ≤ s.lineState 0 ∧ s.sup.switchIn = b) := by decide +kernel

/-- Connection memory with one entry of page A, port 3, slot 12799. -/
def connected (w : Word) (f : Ring → Ring) : State :=
  { k8 with tsi := { k8.tsi with cm := [(cmKey false 3 12799, w)] }, ring := f k8.ring }

/-- Port 0 receives slot 0, or slot 6144, or nothing, at half rate. -/
def carried (r : Option RxFrame) (s : State) : State :=
  let s := (s.put (F.LINE_STATUS_STATE 0) 6).put (F.LINE_STATUS_RATE 0) 1
  { s with ring := { s.ring with ports := s.ring.ports.set 0 { s.ring.ports[(0 : Fin 4)] with rx := r } } }

theorem witness_ConnectionMemory :
    (k8.clocked = true ∧ k8.bit F.TSI_STATUS_SWAP_PENDING = false ∧ k8.bit F.TSI_STATUS_COPY_BUSY = false ∧
      k8.bit F.TSI_STATUS_PRELOADED = false ∧ k8.cmSlot < 12800 ∧ (k8.put F.TSI_CM_ADDR_SLOT 12800).cmSlot = 12800 ∧
      (k8.put F.TSI_STATUS_SWAP_PENDING 1).bit F.TSI_STATUS_SWAP_PENDING = true ∧
      (k8.put F.TSI_STATUS_PRELOADED 1).bit F.TSI_STATUS_PRELOADED = true) ∧
    (∀ f ∈ [1, 2, 2 ^ 20, 2 ^ 20 + 1],
      let s := k8.put F.TSI_SWAP_FRAME_LO_F f
      s.cmBusy = false ∧ s.ringFrame = 0 ∧ s.get F.TSI_SWAP_FRAME_HI_F * 2 ^ 32 + s.get F.TSI_SWAP_FRAME_LO_F = f) ∧
    (k8.put F.TSI_STATUS_COPY_BUSY 1).cmBusy = true ∧ k8.tsi.swap = none ∧ k8.tsi.copy = none ∧
    (let s : State := { k8 with tsi := { k8.tsi with swap := some 5 } }
     s.tsi.swap ≠ none ∧ s.tsi.swapImage = false ∧ s.swapUntouched = true) ∧
    (∀ c ∈ [51199, 51200],
      let s : State := { k8 with tsi := { k8.tsi with copy := some 0 }, cycles := c }
      s.tsi.copy = some 0 ∧ (0 + 51200 ≤ s.cycles ↔ c = 51200) ∧ tabWf 0 s.tsi.cm = true) ∧
    (let s := connected 0xC0000000 id
     s.bit F.FLT_INJ_ARM = false ∧ tabGet none s.tsi.ecc (cmKey s.tsi.page[(3 : Fin 4)] 3 12799) = none ∧
       (CmEntry.ofWord (tabGet 0 s.tsi.cm (cmKey s.tsi.page[(3 : Fin 4)] 3 12799))).mode = 3) ∧
    (let s := carried (some ⟨[(bitmapAt 6143, 0x01)], [], false, false⟩) (connected (0x40000000 ||| BitVec.ofNat 32 (6143 * 2 ^ 14)) id)
     let e := CmEntry.ofWord (tabGet 0 s.tsi.cm (cmKey s.tsi.page[(3 : Fin 4)] 3 12799))
     e.mode = 1 ∧ e.slot = 6143 ∧ (s.input (Fin.ofNat 4 e.src)).frame = some ⟨[(bitmapAt 6143, 0x01)], [], false, false⟩ ∧
       (s.input (Fin.ofNat 4 e.src)).live 6143 = true) ∧
    (let s := carried none (connected (0x40000000 ||| BitVec.ofNat 32 (6144 * 2 ^ 14)) id)
     let e := CmEntry.ofWord (tabGet 0 s.tsi.cm (cmKey s.tsi.page[(3 : Fin 4)] 3 12799))
     e.mode = 1 ∧ e.slot = 6144 ∧ (s.input (Fin.ofNat 4 e.src)).carrying = true ∧ (s.input (Fin.ofNat 4 e.src)).half = true ∧
       (s.input (Fin.ofNat 4 e.src)).live 6144 = false) ∧
    (let s := carried none (connected 0x40000000 id)
     let e := CmEntry.ofWord (tabGet 0 s.tsi.cm (cmKey s.tsi.page[(3 : Fin 4)] 3 12799))
     e.mode = 1 ∧ e.slot = 0 ∧ (s.input (Fin.ofNat 4 e.src)).frame = none) := by decide +kernel

/-- Flue runs, port 1 in a mode. -/
def flue (mode : Nat) : State := (k8.put F.FLUE_STATUS_RUNNING 1).put (F.FLUE_PCFG_MODE 1) mode

/-- A port frame of zeros with its CRC after `n` bytes, or with a wrong one. -/
def portFrame (n : Nat) (sound : Bool) : List Byte :=
  let b := List.replicate n (0 : Byte)
  b ++ (if sound then crcBe b else [1, 2, 3, 4]) ++ List.replicate (455 - n) 0

theorem witness_FluePortsAndCounts :
    (k8.live = true ∧ k8.bit F.FLUE_STATUS_RUNNING = false) ∧
    (∀ m ∈ [1, 2],
      let s := flue m
      let n := if m = 1 then 100 else 388
      s.live = true ∧ s.bit F.FLUE_STATUS_RUNNING = true ∧ s.flueMode 1 = m ∧ s.bit F.FLT_INJ_ARM = false ∧
        (portFrame n true).length = 459 ∧ crcBeOk n (portFrame n true) = true ∧ crcBeOk n (portFrame n false) = false ∧
        (s.flue.pq[(1 : Fin 2)]).length + min 4 (byteAt (portFrame n true) 2).toNat ≤ 16) ∧
    ([] : List Byte).length ≠ 459 ∧
    (∀ t ∈ [10, 9],
      let s : State := { k8 with tim := { k8.tim with second := t }, ring := { k8.ring with
        perf := Vector.replicate 4 { PortPerf.reset with now15 := Bin.fresh (-900) 0 false false } } }
      s.clocked = true ∧ (s.ring.perf[(0 : Fin 4)].now15.stop + 10 ≤ s.utcCount s.tim.second ↔ t = 10)) ∧
    (selectedBin 0 0 0 k8).isSome = true ∧ (selectedBin 0 0 1 k8).isNone = true := by decide +kernel

/-! ## Witnesses: custody -/

/-- A cell in the work inbox. -/
def gotWork (c : List Byte) (s : State) : State := { s with work := { s.work with inbox := [c] } }

/-- An OFFER or a QUERY of node 5, epoch `e`, sequence 1 after `pred`, to target `kind`/`id`, a CH_INSERT on channel 47. -/
def offerOf (type : Byte) (e pred : Nat) (kind id : Byte) : List Byte :=
  [type, 5, 0, 0] ++ beBytes 2 e ++ beBytes 4 1 ++ [kind, id] ++ beBytes 4 pred ++ beBytes 8 0 ++ [1, 47] ++ List.replicate 38 0

/-- Node 5 is known at epoch 1, its watermark `w`. -/
def knows (w : Option Word) (s : State) : State := { s with work := { s.work with origins := [⟨5, 1, w⟩] } }

theorem witness_AcceptanceAtTarget_offer :
    (∀ c ∈ [offerOf 1 0 0 0 0, offerOf 1 1 0 0 0, offerOf 1 1 0 1 63, offerOf 1 1 0 3 0, offerOf 1 1 0xFFFFFFFF 0 0],
      (gotWork c k8).working = true ∧ ((gotWork c k8).work.inbox.find? fun x => byteAt x 0 == 0x01) = some c ∧
        (offerItem c).origin = 5 ∧ (offerItem c).seq = 1) ∧
    (let s := knows none k8
     s.originOf 5 = some ⟨5, 1, none⟩ ∧ newer 16 1 (offerItem (offerOf 1 0 0 0 0)).epoch.toNat = true) ∧
    (let s := knows (some 1) k8
     s.originOf 5 = some ⟨5, 1, some 1⟩ ∧ (offerItem (offerOf 1 1 0 0 0)).epoch = 1 ∧ newer 32 1 1 = false) ∧
    k8.originOf 5 = none ∧ (offerItem (offerOf 1 1 0 1 63)).tkind = 1 ∧ k8.node.ident.groups.getLsbD 63 = false ∧
    (offerItem (offerOf 1 1 0 3 0)).tkind = 3 ∧ actionFields (offerItem (offerOf 1 1 0 0 0)) = true ∧
    (offerItem (offerOf 1 1 0 0 0)).tkind ≠ 3 ∧ beAt (offerOf 1 1 2 0 0) 12 4 = 2 ∧ beAt (offerOf 1 1 0 0 0) 12 4 = 0 ∧
    k8.journalSlot = some 0 ∧ k8.work.peat.length < 4 ∧
    (let s : State := { k8 with work := { k8.work with peat := List.replicate 4 (.journal 1) } }
     s.journalSlot = some 0 ∧ 4 ≤ s.work.peat.length) := by decide +kernel

/-- Every journal slot in use. -/
theorem witness_AcceptanceAtTarget_full :
    ({ k8 with work := { k8.work with awq := (List.range 4096).map fun k => { record (item 1 47 0 0 0) with slot := k } } } :
      State).journalSlot = none := by
  have : ∀ k, k < 4096 → (List.range 4096).contains k = true := fun k h => by simpa using h
  simp only [State.journalSlot, freeSlot, List.map_map, List.find?_eq_none]
  intro k hk
  have h : (JRec.slot ∘ fun k => { record (item 1 47 0 0 0) with slot := k }) = id := rfl
  rw [h, List.map_id, this k (List.mem_range.mp hk)]
  simp

theorem witness_AcceptanceAtTarget_query :
    (let c := offerOf 3 1 0 0 0
     let s := gotWork c k8
     s.working = true ∧ (s.work.inbox.find? fun x => byteAt x 0 == 0x03) = some c ∧ s.originOf (offerItem c).origin = none) ∧
    (∀ done ∈ [true, false],
      let s := gotWork (offerOf 3 1 0 0 0) (knows (some 1) k8)
      let r := { record (item 1 47 0 0 0) with applied := done }
      let s : State := { s with work := { s.work with awq := [r] } }
      (s.work.awq.find? fun x => x.item.origin == 5 && x.item.epoch == 1 && x.item.seq == 1) = some r ∧ r.committed = true ∧
        s.originOf 5 = some ⟨5, 1, some 1⟩ ∧ newer 32 1 1 = false) ∧
    (knows (some 1) k8).work.awq = [] := by decide +kernel

/-- Peat has one job on a plug that is there. -/
def committing (j : PeatJob) : State :=
  { blank with work := { blank.work with peat := [j], awq := [{ record (item 1 47 0 0 0) with committed := false }] } }

theorem witness_AcceptanceAtTarget_commit :
    let s := committing (.journal 0)
    s.live = true ∧ s.node.plugPresent = true ∧ s.node.pwr = .none ∧ s.bit F.FLT_INJ_ARM = false ∧ s.work.peat = .journal 0 :: [] ∧
      (s.work.awq.find? fun x => x.slot == 0) = some { record (item 1 47 0 0 0) with committed := false } ∧ s.working = true ∧
      (record (item 1 47 0 0 0)).applied = false ∧ s.node.pvdd = true ∧
      (record (item 1 47 0 0 0)).item.origin.toNat % 128 ≠ s.address ∧ k8.work.peat = [] := by decide +kernel

theorem witness_ApplicationAtTarget :
    (k8.working = true ∧ k8.headReady 1 = none ∧ k8.headReady 2 = none ∧ k8.headReady 3 = none ∧ k8.head = none) ∧
    (applying (item 1 47 0 2 0) k8).headReady 1 = some (record (item 1 47 0 2 0)) ∧
    (listInsert 47 0 2 0 (applying (item 1 47 0 2 0) (chanOn 47 mCOMPARE []))).1 = 0 ∧
    (listInsert 47 0 2 0 (applying (item 1 47 0 2 0) (chanOn 47 mCOMPARE (List.replicate 32 (high 5 7))))).1 = 2 ∧
    (applying (item 2 47 0 0 0) k8).headReady 2 = some (record (item 2 47 0 0 0)) ∧
    (∀ on ∈ [0x1FFFF, 0],
      let s := (applying (item 3 255 0 0 0) k8).put F.SPM_PSTAT_ON on
      s.headReady 3 = some (record (item 3 255 0 0 0)) ∧ (∀ w, w < 8 → s.window? w = none) ∧
        s.bankOn (bankOf (s.get F.WRK_VAL_BASE_BASE / 16 * 16 + 16 * (255 : BitVec 8).toNat)) = (on == 0x1FFFF)) ∧
    (∀ c ∈ [536869, 536870],
      let s : State := { (applying (item 1 47 0 0 0) k8).put F.WRK_HEAD_BLOCKED 1 with cycles := c }
      s.head = some (record (item 1 47 0 0 0)) ∧ s.bit F.WRK_HEAD_BLOCKED = true ∧ s.work.valueHeld = false ∧
        (s.work.tryAt + 536870 ≤ s.cycles ↔ c = 536870) ∧ ¬ (s.chan[(47 : Fin 64)].list.length < s.work.tryCount)) ∧
    (0 < ({ k8.work with tryCount := 1 } : Work).tryCount) ∧
    (∀ t ∈ [2 ^ 29 - 1, 2 ^ 29],
      let r := { record (item 1 47 0 0 0) with applied := true }
      let s : State := { k8 with work := { k8.work with awq := [r] }, now := BitVec.ofNat 64 t }
      s.live = true ∧ (s.work.awq.find? fun r => r.slot == (0 : Fin 4096).val && r.applied && !r.spent) = some r ∧
        s.pastDue r.item = (t == 2 ^ 29)) := by decide +kernel

/-- An item staged at the originator. -/
def staging (tkind tid action : Nat) : State :=
  ((k8.put F.WRK_OR_TGT_TKIND tkind).put F.WRK_OR_TGT_TID tid).put F.WRK_OR_ACT_ACTION action

theorem witness_CustodyAtOriginator_go :
    F.WRK_OR_CMD_GO.of 0 = 0 ∧ F.WRK_OR_CMD_GO.of (F.WRK_OR_CMD_GO.into 1 0) ≠ 0 ∧ k8.clocked = true ∧
    (k8.get F.WRK_OR_STATUS_STATE ≠ 1 ∧ k8.get F.WRK_OR_STATUS_STATE ≠ 2) ∧ (k8.put F.WRK_OR_STATUS_STATE 2).get F.WRK_OR_STATUS_STATE = 2 ∧
    (inPhase .k7).working = false ∧
    ((staging 0 127 1).working = true ∧ (staging 3 0 1).orItem.tkind = 3 ∧ (staging 0 127 1).orItem.tid.toNat = 127 ∧
      (staging 1 64 1).orItem.tid.toNat = 64 ∧ (staging 1 63 1).targetSet (staging 1 63 1).orItem = 0) ∧
    actionFields (staging 0 127 9).orItem = false ∧
    (let s := staging 0 127 1
     let i := s.orItem
     ¬ (i.tkind = 3 ∨ (i.tkind = 0 ∧ 127 < i.tid.toNat) ∨ (i.tkind = 1 ∧ 63 < i.tid.toNat)) ∧ s.targetSet i ≠ 0 ∧
       actionFields i = true ∧ s.custodySlot = some 0 ∧ s.work.peat.length < 4) ∧
    (let s0 := staging 0 127 1
     let s : State := { s0 with work := { s0.work with cust := List.replicate 2047 (live 0) } }
     s.custodySlot = none ∧ s.targetSet s.orItem ≠ 0 ∧ actionFields s.orItem = true) ∧
    (∀ c ∈ [0, 0x20000000],
      let s : State := { k8.put F.WRK_HOLD_HOLD 1000 with work := { k8.work with hold := some (0, 0) }, cycles := c }
      s.working = true ∧ s.work.hold = some (0, 0) ∧ (0 + s.get F.WRK_HOLD_HOLD * 0x20000000 / 1000 ≤ s.cycles ↔ c = 0x20000000)) := by
  decide +kernel

/-- A custody entry of one target. -/
def entry (st : TState) (expires : Word) : CRec :=
  { live 0 with expires := expires, targets := [{ node := 5, st := st, sentAt := some 0, offerAt := 0 }] }

def holdsEntry (st : TState) (expires : Word) (c : Nat) : State :=
  { k8 with work := { k8.work with cust := [entry st expires] }, cycles := c }

/-- A REPORT of node 5 of `state` about sequence `seq`. -/
def reportOf (state : Byte) (seq : Nat) : List Byte := [2, 5, 0, state] ++ beBytes 2 1 ++ beBytes 4 seq ++ List.replicate 54 0

theorem witness_CustodyAtOriginator :
    (∀ st ∈ [TState.offered, .accepted, .querying],
      let s := gotWork (reportOf 2 1) (holdsEntry st 0 0)
      let c := reportOf 2 1
      s.working = true ∧ (s.work.inbox.find? fun x => byteAt x 0 == 0x02) = some c ∧
        (s.work.cust.find? fun r => r.committed && !r.ended && r.item.epoch == cellEpoch c && r.item.seq == cellSeq c) = some (entry st 0) ∧
        (entry st 0).targets.head?.map Target.node = some (cellFrom c) ∧ st.after (byteAt c 3) = some .applied ∧
        (∀ y ∈ s.work.cust, y.slot = (entry st 0).slot → y = entry st 0)) ∧
    (let c := reportOf 2 2
     (k8.work.cust.find? fun r => r.committed && !r.ended && r.item.epoch == cellEpoch c && r.item.seq == cellSeq c) = none) ∧
    TState.applied.after 1 = none ∧
    (∀ st ∈ [TState.offered, .querying, .accepted],
      let s := holdsEntry st 0 0x100000000000
      s.working = true ∧ (s.served 0 5).map (fun x => x.2.st) = some st ∧ 0 + s.retryTime ≤ s.cycles ∧ 0 + s.pollTime ≤ s.cycles ∧
        0 + 5368709 ≤ s.cycles ∧ (5 : Nat) ≠ s.address) ∧
    (k8.served 0 5 = none ∧ (holdsEntry .offered 0 0).cycles < 0 + (holdsEntry .offered 0 0).retryTime ∧
      (holdsEntry .accepted 0 0).cycles < 0 + (holdsEntry .accepted 0 0).pollTime) ∧
    (∀ t ∈ [0, 1],
      let s : State := { holdsEntry .offered 1 0 with now := BitVec.ofNat 64 (t * 0x20000000) }
      (s.work.cust.find? fun r => r.slot == (0 : Fin 2048).val && r.committed && !r.ended) = some (entry .offered 1) ∧
        (entry .offered 1).expires ≠ 0 ∧
        ((BitVec.ofNat 32 (s.now.toNat / 0x20000000) - (entry .offered 1).expires).toNat < 2 ^ 31 ↔ t = 1)) ∧
    F.WRK_ABANDON_GO.of 0 = 0 ∧ F.WRK_ABANDON_GO.of (F.WRK_ABANDON_GO.into 1 0) ≠ 0 := by decide +kernel

theorem witness_CommandsAnswer : Instr.bypass.wf = true ∧ (Instr.hello []).wf = false ∧ movesTime .bypass = false ∧
    onMfeSide (.hello []) = true ∧ onMfeSide .bypass = false := by decide +kernel

theorem witness_MemoriesCanonical :
    let s : State := { k8 with pending := [.bypass] }
    memoriesOk s ∧ ∃ t, step s = .next t := ⟨by decide +kernel, _, rfl⟩

/-! ## Ill-formed commands are refused (a list of another length; Sys2Proof/WellFormed.lean) -/

/-- A frame of 31 bytes, and one of 33. -/
def shorts : List (List Byte) := [List.replicate 31 0, List.replicate 33 0]

def illFormed (c : Instr) : Bool := !c.wf && (match exec c k8 with
  | .refused (.illFormed _) => true
  | _ => false)

theorem test_illFormed_down : shorts.all (fun f => [Instr.hello f, .failstate f, .schedule f, .barrierCancel f, .setNow f, .timeFrame f 0,
    .config f, .barrierQuery f, .failnow f].all illFormed) = true := by decide +kernel
theorem test_illFormed_up : shorts.all (fun f => [Instr.completion false f, .statusFrame f, .teeth f, .hvEvent f, .measure f, .optime f].all
    illFormed) = true := by decide +kernel
theorem test_illFormed_busStop : illFormed (.busStop 0 [0, 0, 0, 0, 0, 0, 0]) = true := by decide +kernel
theorem test_illFormed_rxdFrame : illFormed (.rxdFrame 0 (List.replicate 458 0)) = true := by decide +kernel

/-! ## Values the spec works out -/

/-- R87: the nine ASCII bytes "123456789" give 0x29B1. -/
theorem test_crc16 : crc16 [0x31, 0x32, 0x33, 0x34, 0x35, 0x36, 0x37, 0x38, 0x39] = 0x29B1 := by decide +kernel

/-- 01, coding column 77: codes 2048, 3182 and 3215 are bands 4 and 13; 3263 is none. -/
theorem test_bands : bandOf bands8 2048 = some 4 ∧ bandOf bands16 3182 = some 13 ∧ bandOf bands16 3215 = some 13 ∧
    bandOf bands16 3263 = none := by decide +kernel

/-- 09.1, MOVI W3, 0x400: the word the spec writes out has right parity; without P1 it has not. -/
theorem test_parity : parityOk 0x602300000000040000000000 = true ∧ parityOk 0x202300000000040000000000 = false := by decide +kernel

/-- 13, connection memory: 0x58CA_0000 is MODE 1, SRC_PORT 1, slot 9000. -/
theorem test_cmEntry : let e := CmEntry.ofWord 0x58CA0000
    e.mode = 1 ∧ e.src = 1 ∧ e.slot = 9000 := by decide +kernel

/-- 17, addresses for the Old Corn Exchange. -/
theorem test_addresses : (F.CH_HEAD_KEY_LO_KEY 48).addr = 0x40023044 ∧ (F.WHL_SYN_HI_V 6).addr = 0x40030650 := by decide +kernel

/-- 02.9: 18.50 ms and a measured 17.86 ms give 18.42 ms. -/
theorem test_optime : (learn (some 1850) 1786 k8).1 = 1842 := by decide +kernel

/-- 05.6: column 8 measures half of 2242 + 2033 units, and theta 107.1 units with an asymmetry of −9.8 ns. -/
theorem test_span :
    let s := spanSample 1 1000000 1002242 1070000 1072033 (k8.put F.TIME_ASYM_WEST 65438)
    s.tim.spans[(1 : Fin 4)].delays = [2242 + 2033] ∧ s.tim.spans[(1 : Fin 4)].thetas.map (fun x => x / 2000000000) = [1071] := by decide +kernel

/-! ## One step -/

/-- What Ember 0 holds in register `d` after a command, from registers as given. -/
def gives (c : Instr) (w : List (Fin 32 × Word)) (d : Fin 32) : Option Word :=
  match exec c (atPc c (withEmber 0 (running w))) with
  | .next t => some t.emb[(0 : Fin 4)].w[d]
  | _ => none

theorem test_movi : gives (.movi 0 3 0x400) [] 3 = some 0x400 := by decide +kernel
theorem test_lsri : gives (.lsri 0 4 14 12) [(14, 0x50C9E800)] 4 = some 0x50C9E := by decide +kernel
theorem test_sub : gives (.sub 0 10 11 10) [(11, 0), (10, 1)] 10 = some 0xFFFFFFFF := by decide +kernel
theorem test_muls_high : gives (.muls 0 10 8 9) [(8, 0xFFFFFFFF), (9, 2)] 11 = some 0xFFFFFFFF := by decide +kernel
theorem test_mulu_high : gives (.mulu 0 10 8 9) [(8, 0xFFFFFFFF), (9, 2)] 11 = some 1 := by decide +kernel
theorem test_asr : gives (.asri 0 1 1 31) [(1, 0x80000000)] 1 = some 0xFFFFFFFF := by decide +kernel
theorem test_dstep : gives (.dstep 0 2 5 32) [(2, 0), (3, 100), (5, 7)] 3 = some 14 ∧
    gives (.dstep 0 2 5 32) [(2, 0), (3, 100), (5, 7)] 2 = some 2 := by decide +kernel

/-- An insertion on a disabled channel answers DISABLED, on an enabled one OK (Table 06-8). -/
theorem test_insert : (listInsert 48 0 2 0xD14 k8).1 = 6 ∧ (listInsert 48 0 2 0xD14 (chanOn 48 mCOMPARE [])).1 = 0 := by decide +kernel

/-- An empty queue: one CORE cycle passes (the tick). -/
theorem test_idle : (match step k8 with | .next t => t.cycles | _ => 0) = k8.cycles + 1 := by decide +kernel

end Sys2Proof.Tests
end

section
/-! Register accesses (R6 to R9, R294, R295): a plain write and a clearing read both alter a register field by field, and
what such an alteration leaves in each field is said here once, for any rule of alteration. -/

namespace Sys2Proof.Machine

/-! ## Altering one field -/

/-- Field `f` takes the value that `val` gives from its present one, or keeps it where `val` gives none. -/
def State.alter (val : Field → Nat → Option Nat) (f : Field) (s : State) : State :=
  match val f (s.get f) with
  | some n => s.put f n
  | none => s

theorem State.reg_latches (s : State) (l : List (Nat × Option Word)) (a : Nat) :
    ({ s with latches := l } : State).reg a = s.reg a := rfl

theorem State.reg_put_ne (f : Field) (v : Nat) (s : State) {a : Nat} (h : a ≠ f.addr) : (s.put f v).reg a = s.reg a :=
  tabGet_set_ne 0 s.regs _ h

theorem State.get_alter_same (val : Field → Nat → Option Nat) (f : Field) (s : State) (hf : f.Fits) :
    (s.alter val f).get f = ((val f (s.get f)).map (· % 2 ^ f.width)).getD (s.get f) := by
  unfold State.alter
  cases hv : val f (s.get f) with
  | none => rfl
  | some n => exact State.get_put_same f n s hf

theorem State.get_alter_apart (val : Field → Nat → Option Nat) (f g : Field) (s : State) (hg : g.Fits)
    (h : g.hi < f.lo ∨ f.hi < g.lo) : (s.alter val f).get g = s.get g := by
  unfold State.alter
  split
  · exact State.get_put_apart f g _ s hg h
  · rfl

theorem State.reg_alter_ne (val : Field → Nat → Option Nat) (f : Field) (s : State) {a : Nat} (h : a ≠ f.addr) :
    (s.alter val f).reg a = s.reg a := by
  unfold State.alter
  split
  · exact State.reg_put_ne f _ s h
  · rfl

theorem State.latches_alter (val : Field → Nat → Option Nat) (f : Field) (s : State) :
    (s.alter val f).latches = s.latches := by
  unfold State.alter
  split <;> rfl

@[simp] theorem State.alter_hide (val : Field → Nat → Option Nat) (f : Field) (s : State) (m : Nat) (h : m &&& 1 = 1) :
    (s.alter val f).hide m = s.hide m := by
  unfold State.alter
  split
  · exact State.put_hide f _ s m h
  · rfl

/-! ## Altering the fields of a register in turn -/

@[simp] theorem State.each_nil {α : Type} (f : α → State → State) (s : State) : s.each [] f = s := rfl

@[simp] theorem State.each_cons {α : Type} (a : α) (l : List α) (f : α → State → State) (s : State) :
    s.each (a :: l) f = (f a s).each l f := rfl

theorem State.get_each_alter_apart (val : Field → Nat → Option Nat) (g : Field) (hg : g.Fits) :
    ∀ (fs : List Field) (s : State), (∀ f ∈ fs, g.hi < f.lo ∨ f.hi < g.lo) →
      (s.each fs (State.alter val)).get g = s.get g
  | [], _, _ => rfl
  | f :: fs, s, h => by
    rw [State.each_cons, State.get_each_alter_apart val g hg fs _ fun f hf => h f (List.mem_cons_of_mem _ hf)]
    exact State.get_alter_apart val f g s hg (h f List.mem_cons_self)

/-- Of fields that stand side by side, each ends as its own alteration leaves it. -/
theorem State.get_each_alter (val : Field → Nat → Option Nat) (f : Field) (fs : List Field) (s : State)
    (hfit : ∀ f ∈ fs, f.Fits) (hpair : fs.Pairwise fun f g => f.hi < g.lo ∨ g.hi < f.lo) (hf : f ∈ fs) :
    (s.each fs (State.alter val)).get f = ((val f (s.get f)).map (· % 2 ^ f.width)).getD (s.get f) := by
  induction fs generalizing s with
  | nil => exact absurd hf List.not_mem_nil
  | cons g fs ih =>
    obtain ⟨hhead, htail⟩ := List.pairwise_cons.1 hpair
    obtain ⟨hgfit, hfits⟩ := List.forall_mem_cons.1 hfit
    rw [State.each_cons]
    rcases List.mem_cons.1 hf with rfl | hmem
    · rw [State.get_each_alter_apart val f hgfit fs _ hhead]
      exact State.get_alter_same val f s hgfit
    · rw [ih _ hfits htail hmem, State.get_alter_apart val g f s (hfits f hmem) (hhead f hmem).symm]

theorem State.reg_each_alter_ne (val : Field → Nat → Option Nat) {a : Nat} :
    ∀ (fs : List Field) (s : State), (∀ f ∈ fs, f.addr ≠ a) → (s.each fs (State.alter val)).reg a = s.reg a
  | [], _, _ => rfl
  | f :: fs, s, h => by
    rw [State.each_cons, State.reg_each_alter_ne val fs _ fun f hf => h f (List.mem_cons_of_mem _ hf)]
    exact State.reg_alter_ne val f s (h f List.mem_cons_self).symm

theorem State.latches_each_alter (val : Field → Nat → Option Nat) (fs : List Field) (s : State) :
    (s.each fs (State.alter val)).latches = s.latches := by
  induction fs generalizing s with
  | nil => rfl
  | cons f fs ih => rw [State.each_cons, ih, State.latches_alter]

/-! ## Plain writes and clearing reads as alterations -/

/-- What a plain write of `v` puts into a field that holds `n` (Table 00-3). -/
def writtenValue (v : Word) (f : Field) (n : Nat) : Option Nat :=
  match f.acc with
  | .rw => some (f.of v)
  | .w1s => some (n ||| f.of v)
  | .w1c => some (n - (n &&& f.of v))
  | _ => none

/-- What a read puts into a field: its reset value where the field is RC (R6). -/
def clearedValue (f : Field) (_ : Nat) : Option Nat := if f.acc = .rc then some f.reset else none

theorem writePlain_eq_each_alter (fs : List Field) (v : Word) (s : State) :
    writePlain fs v s = s.each fs (State.alter (writtenValue v)) := by
  unfold writePlain
  congr 1
  funext f s
  unfold State.alter writtenValue
  cases f.acc <;> rfl

theorem each_filter_rc_eq_each_alter (fs : List Field) (s : State) :
    s.each (fs.filter fun f => f.acc == .rc) (fun f => State.put f f.reset) = s.each fs (State.alter clearedValue) := by
  unfold State.each
  rw [List.foldl_filter]
  congr 1
  funext s f
  by_cases h : f.acc = .rc <;> simp [State.alter, clearedValue, h]

/-- A written value lies within its field, so nothing is lost as it is put there. -/
theorem writtenValue_lt (v : Word) (f : Field) (s : State) {n : Nat} (h : writtenValue v f (s.get f) = some n) :
    n < 2 ^ f.width := by
  have hv := Field.of_lt f v
  have hs := State.get_lt f s
  unfold writtenValue at h
  split at h <;> cases h
  · exact hv
  · exact Nat.or_lt_two_pow hs hv
  · exact (Nat.sub_le _ _).trans_lt hs

theorem get_writePlain (fs : List Field) (v : Word) (s : State) (hfit : ∀ f ∈ fs, f.Fits)
    (hpair : fs.Pairwise fun f g => f.hi < g.lo ∨ g.hi < f.lo) (f : Field) (hf : f ∈ fs) :
    (writePlain fs v s).get f = (writtenValue v f (s.get f)).getD (s.get f) := by
  rw [writePlain_eq_each_alter, State.get_each_alter _ f fs s hfit hpair hf]
  cases h : writtenValue v f (s.get f) with
  | none => rfl
  | some n => exact Nat.mod_eq_of_lt (writtenValue_lt v f s h)

theorem reg_writePlain_ne (fs : List Field) (v : Word) (s : State) {a : Nat} (h : ∀ f ∈ fs, f.addr ≠ a) :
    (writePlain fs v s).reg a = s.reg a := by
  rw [writePlain_eq_each_alter, State.reg_each_alter_ne _ fs s h]

/-! ## The register file read and written -/

theorem regWrite_of_absent (m a : Nat) (v : Word) (s : State) (h : F.fieldsAt a = none) : regWrite m a v s = s := by
  simp only [regWrite, h]

theorem regWrite_of_present (m a : Nat) (v : Word) (s : State) {fs : List Field} (h : F.fieldsAt a = some fs) :
    regWrite m a v s = (writeOwn m a v s).getD (writePlain fs v s) := by
  unfold regWrite
  rw [h]
  cases writeOwn m a v s <;> rfl

theorem regRead_of_absent (m a : Nat) (s : State) (h : F.fieldsAt a = none) : (regRead m a s).2 = s := by
  simp only [regRead, h]

/-- The latches with a copy of each register of `l`, as it reads now, in latch set `set`. -/
def State.latched (set : Nat) (l : List Nat) (s : State) : List (Nat × Option Word) :=
  l.foldl (fun t p => tabSet none t (set * 2 ^ 32 + p) (some (s.peek p))) s.latches

theorem regRead_state (m a : Nat) (s : State) {fs : List Field} (h : F.fieldsAt a = some fs) (hp : isPartner a = false)
    (ha : a ≠ 0x40070018) : (regRead m a s).2 =
      State.each fs (State.alter clearedValue) { s with latches := s.latched (s.latchSet m) (partners a) } := by
  simp only [regRead, h, hp, ha, if_false, Bool.false_eq_true, each_filter_rc_eq_each_alter, State.latched]

theorem tabGet_foldl_set {α : Type} [DecidableEq α] (d : α) (k p : Nat) (v : Nat → α) :
    ∀ (l : List Nat) (t : List (Nat × α)), tabGet d (l.foldl (fun t q => tabSet d t (k + q) (v q)) t) (k + p) =
      if p ∈ l then v p else tabGet d t (k + p)
  | [], _ => by simp
  | q :: l, t => by
    rw [List.foldl_cons, tabGet_foldl_set d k p v l]
    by_cases hl : p ∈ l
    · simp [hl]
    · by_cases hq : p = q <;> simp [hl, hq, tabGet_set]

theorem State.latched_get (set : Nat) (l : List Nat) (s : State) {p : Nat} (h : p ∈ l) :
    tabGet none (s.latched set l) (set * 2 ^ 32 + p) = some (s.peek p) := by
  unfold State.latched
  rw [tabGet_foldl_set none _ p fun q => some (s.peek q), if_pos h]

/-- Connection memory's data register is RW, not RL, and latches no other (Table 13-3). -/
theorem ne_cmData_of_latches {a : Nat} (h : partners a ≠ []) : a ≠ 0x40070018 := by
  rintro rfl
  exact h (by decide)

/-! ## The commands of chapter 0 -/

theorem exec_registerWrite (m : Fin 11) (a v : Word) (s : State) (hc : s.clocked = true) (ha : a.toNat % 4 = 0) :
    exec (.registerWrite m a v) s = .next (regWrite m a.toNat v s) := by
  simp [exec, execRegisterWrite, actWhen, hc, ha]

theorem exec_clearingRead (m : Fin 11) (a : Word) (s : State) (hc : s.clocked = true) (ha : a.toNat % 4 = 0) :
    exec (.clearingRead m a) s = .next (regRead m a.toNat s).2 := by
  simp [exec, execClearingRead, actWhen, hc, ha]

theorem exec_latchedRead (m : Fin 11) (a : Word) (s : State) (hc : s.clocked = true) (ha : a.toNat % 4 = 0)
    (hp : partners a.toNat ≠ []) : exec (.latchedRead m a) s = .next (regRead m a.toNat s).2 := by
  simp [exec, execLatchedRead, actWhen, hc, ha, hp]

end Sys2Proof.Machine

namespace Sys2Proof.Safety
open Sys2Proof.Machine

/-- Altering the fields of the register at `a` changes no other register. -/
theorem regsBut_each_alter (val : Field → Nat → Option Nat) (a : Nat) (fs : List Field) (s : State)
    (h : ∀ f ∈ fs, f.addr = a) : regsBut [a] s (s.each fs (State.alter val)) := fun _ hb =>
  State.reg_each_alter_ne val fs s fun f hf he => hb (List.mem_singleton.2 (he.symm.trans (h f hf)))

theorem regsBut_latches_each_alter (val : Field → Nat → Option Nat) (a : Nat) (fs : List Field)
    (l : List (Nat × Option Word)) (s : State) (h : ∀ f ∈ fs, f.addr = a) :
    regsBut [a] s (State.each fs (State.alter val) { s with latches := l }) := fun b hb =>
  (regsBut_each_alter val a fs { s with latches := l } h b hb).trans (State.reg_latches s l b)

theorem only_each_alter (val : Field → Nat → Option Nat) (fs : List Field) (s : State) :
    only [.regs] s (s.each fs (State.alter val)) :=
  only_of_hide (k := 1) (by decide) (State.each_hide fs _ s 1 fun f s => State.alter_hide val f s 1 rfl)

theorem only_latches_each_alter (val : Field → Nat → Option Nat) (fs : List Field) (l : List (Nat × Option Word))
    (s : State) : only [.regs, .latches] s (State.each fs (State.alter val) { s with latches := l }) :=
  only_of_hide (k := 9) (by decide)
    ((State.each_hide fs _ _ 9 fun f s => State.alter_hide val f s 9 rfl).trans (hide_latches s l 9 rfl))

theorem registerWrite_completes (m : Fin 11) (a v : Word) (fs : List Field) (s : State) (hc : s.clocked = true)
    (ha : a.toNat % 4 = 0) (hfs : F.fieldsAt a.toNat = some fs) (hw : writeOwn m a.toNat v s = none)
    (haddr : ∀ f ∈ fs, f.addr = a.toNat) (hfit : ∀ f ∈ fs, f.Fits)
    (hpair : fs.Pairwise fun f g => f.hi < g.lo ∨ g.hi < f.lo) :
    completes (.registerWrite m a v) s [.regs] fun t => regsBut [a.toNat] s t ∧
      ∀ f ∈ fs, t.get f = (writtenValue v f (s.get f)).getD (s.get f) := by
  refine ⟨writePlain fs v s, ?_, only_of_hide (by decide) (writePlain_hide fs v s 1 rfl), ?_,
    get_writePlain fs v s hfit hpair⟩
  · rw [exec_registerWrite m a v s hc ha, regWrite_of_present m a.toNat v s hfs, hw, Option.getD_none]
  · rw [writePlain_eq_each_alter]
    exact regsBut_each_alter _ _ fs s haddr

theorem clearingRead_completes (m : Fin 11) (a : Word) (fs : List Field) (s : State) (hc : s.clocked = true)
    (ha : a.toNat % 4 = 0) (hfs : F.fieldsAt a.toNat = some fs) (hp : isPartner a.toNat = false)
    (hl : partners a.toNat = []) (hcm : a.toNat ≠ 0x40070018) (haddr : ∀ f ∈ fs, f.addr = a.toNat)
    (hfit : ∀ f ∈ fs, f.Fits) (hpair : fs.Pairwise fun f g => f.hi < g.lo ∨ g.hi < f.lo) :
    completes (.clearingRead m a) s [.regs] fun t => regsBut [a.toNat] s t ∧
      ∀ f ∈ fs, t.get f = if f.acc = .rc then f.reset % 2 ^ f.width else s.get f := by
  refine ⟨s.each fs (State.alter clearedValue), ?_, only_each_alter _ fs s,
    regsBut_each_alter _ _ fs s haddr, fun f hf => ?_⟩
  · rw [exec_clearingRead m a s hc ha, regRead_state m a.toNat s hfs hp hcm, hl]
    rfl
  · rw [State.get_each_alter _ f fs s hfit hpair hf, clearedValue]
    split <;> rfl

theorem latchedRead_completes (m : Fin 11) (a : Word) (fs : List Field) (s : State) (hc : s.clocked = true)
    (ha : a.toNat % 4 = 0) (hfs : F.fieldsAt a.toNat = some fs) (hp : isPartner a.toNat = false)
    (hl : partners a.toNat ≠ []) (haddr : ∀ f ∈ fs, f.addr = a.toNat) :
    completes (.latchedRead m a) s [.regs, .latches] fun t => regsBut [a.toNat] s t ∧
      ∀ p ∈ partners a.toNat, tabGet none t.latches (s.latchSet m * 2 ^ 32 + p) = some (s.peek p) := by
  refine ⟨_, ?_, only_latches_each_alter clearedValue fs (s.latched (s.latchSet m) (partners a.toNat)) s,
    regsBut_latches_each_alter _ _ fs _ s haddr, fun p hpm => ?_⟩
  · rw [exec_latchedRead m a s hc ha hl, regRead_state m a.toNat s hfs hp (ne_cmData_of_latches hl)]
  · rw [State.latches_each_alter]
    exact State.latched_get _ _ s hpm

/-- An access off a word boundary is no occurrence (log entry 8), and where the window holds no register there is nothing
to alter. -/
theorem access_changes_nothing (m : Fin 11) (a v : Word) (s : State)
    (h : a.toNat % 4 ≠ 0 ∨ F.fieldsAt a.toNat = none) :
    exec (.registerWrite m a v) s = .next s ∧ exec (.clearingRead m a) s = .next s ∧
      exec (.latchedRead m a) s = .next s := by
  simp only [exec, execRegisterWrite, execClearingRead, execLatchedRead, actWhen]
  rcases h with hodd | habs
  · simp [hodd]
  · simp only [regWrite_of_absent _ _ _ _ habs, regRead_of_absent _ _ _ habs, ite_self, and_self]

/-- Settles O28: the plain write and both reads are alterations of the register's fields in turn, and fields side by side do
not disturb each other. -/
theorem registerAccess : Obligations.RegisterAccess := by
  unfold Obligations.RegisterAccess
  refine ⟨fun m a v fs s hc ha hfs hin hpair => ?_, access_changes_nothing⟩
  have haddr : ∀ f ∈ fs, f.addr = a.toNat := fun f hf => (hin f hf).1
  have hfit : ∀ f ∈ fs, f.Fits := fun f hf => (hin f hf).2
  refine ⟨fun hw => ?_, fun hp hl hcm => clearingRead_completes m a fs s hc ha hfs hp hl hcm haddr hfit hpair,
    fun hp hl => latchedRead_completes m a fs s hc ha hfs hp hl haddr⟩
  obtain ⟨t, hexec, honly, hbut, hget⟩ := registerWrite_completes m a v fs s hc ha hfs hw haddr hfit hpair
  refine ⟨t, hexec, honly, hbut, fun f hf => ?_⟩
  rw [hget f hf, writtenValue]
  cases f.acc <;> rfl

end Sys2Proof.Safety
end

section
/-! What a command leaves alone, said once for every command: the queue, and the node's own part but for the commands
that are about it. -/

namespace Sys2Proof.Safety
open Sys2Proof.Machine

/-- The commands that may change what the node holds of its phase, supplies, freeze and TAP. -/
def changesNode : Instr → Bool
  | .powerOn .. | .resetN | .resetNRelease | .calderaExit | .warmRestart .. => true
  | .k0 | .k1 .. | .plugAbsent | .k2 .. | .k3 .. | .k4 | .k5 .. | .k6 | .mfeAbsent | .k7 | .k8 => true
  | .pwrfail .. | .pwrfailHalt | .pwrfailHeartbeatStop => true
  | .plugInserted .. | .plugRemoved | .plugHold | .plugHoldRelease .. => true
  | .refFail | .coreUnlock | .auxUnlock | .rtcFail => true
  | .caldera .. | .freeze | .sinterResume .. | .sinterRead .. | .memacc .. | .extest .. | .samplePreload .. | .bypass => true
  | _ => false

/-- Every part but the node and the queue. -/
def otherParts : List Part :=
  [.regs, .now, .cycles, .latches, .sup, .col, .ic, .hrt, .emb, .spm, .gsr, .rep, .chan, .grp, .whl, .ph, .bar, .mfe, .tim,
   .tsi, .flue, .ring, .plug, .work, .dist, .free]

/-- The parts that command `c` may change: never the queue, and the node only where `changesNode` says so. -/
def mayChange (c : Instr) : List Part := if changesNode c then .node :: otherParts else otherParts

/-- A frame of the architect's (an equation of states with parts set aside) as one of the two sets of parts. -/
theorem only_others {s s' : State} {k : Nat} (hk : maskOf otherParts &&& k = k) (h : s'.hide k = s.hide k) :
    only otherParts s s' := only_of_hide hk h

theorem only_node_others {s s' : State} {k : Nat} (hk : maskOf (.node :: otherParts) &&& k = k) (h : s'.hide k = s.hide k) :
    only (.node :: otherParts) s s' := only_of_hide hk h

theorem exec_only {s s' : State} : ∀ {c : Instr}, exec c s = .next s' → only (mayChange c) s s'
  | .powerOn low vbulk vaux conv off resetLow holdLow, h =>
      only_node_others rfl (execPowerOn_hide low vbulk vaux conv off resetLow holdLow s s' h)
  | .resetN, h => only_node_others rfl (execResetN_hide s s' h)
  | .resetNRelease, h => only_node_others rfl (execResetNRelease_hide s s' h)
  | .calderaExit, h => only_node_others rfl (execCalderaExit_hide s s' h)
  | .warmRestart fails rewriteBad bad, h => only_node_others rfl (execWarmRestart_hide fails rewriteBad bad s s' h)
  | .k0, h => only_node_others rfl (execK0_hide s s' h)
  | .k1 sets, h => only_node_others rfl (execK1_hide sets s s' h)
  | .plugAbsent, h => only_node_others rfl (execPlugAbsent_hide s s' h)
  | .k2 fails, h => only_node_others rfl (execK2_hide fails s s' h)
  | .k3 bad, h => only_node_others rfl (execK3_hide bad s s' h)
  | .k4, h => only_node_others rfl (execK4_hide s s' h)
  | .k5 bad, h => only_node_others rfl (execK5_hide bad s s' h)
  | .k6, h => only_node_others rfl (execK6_hide s s' h)
  | .mfeAbsent, h => only_node_others rfl (execMfeAbsent_hide s s' h)
  | .k7, h => only_node_others rfl (execK7_hide s s' h)
  | .k8, h => only_node_others rfl (execK8_hide s s' h)
  | .pwrfail vbulk, h => only_node_others rfl (execPwrfail_hide vbulk s s' h)
  | .pwrfailHalt, h => only_node_others rfl (execPwrfailHalt_hide s s' h)
  | .pwrfailHeartbeatStop, h => only_node_others rfl (execPwrfailHeartbeatStop_hide s s' h)
  | .plugInserted mem rdid rdsr, h => only_node_others rfl (execPlugInserted_hide mem rdid rdsr s s' h)
  | .plugRemoved, h => only_node_others rfl (execPlugRemoved_hide s s' h)
  | .plugHold, h => only_node_others rfl (execPlugHold_hide s s' h)
  | .plugHoldRelease patch, h => only_node_others rfl (execPlugHoldRelease_hide patch s s' h)
  | .heartbeatLost, h => only_others rfl (execHeartbeatLost_hide s s' h)
  | .coilEnergise, h => only_others rfl (execCoilEnergise_hide s s' h)
  | .switchMismatch, h => only_others rfl (execSwitchMismatch_hide s s' h)
  | .mfeBoot, h => only_others rfl (execMfeBoot_hide s s' h)
  | .mfeHeartbeatLost, h => only_others rfl (execMfeHeartbeatLost_hide s s' h)
  | .mfeHoldEnd, h => only_others rfl (execMfeHoldEnd_hide s s' h)
  | .hello f, h => only_others rfl (execHello_hide f s s' h)
  | .failstate f, h => only_others rfl (execFailstate_hide f s s' h)
  | .schedule f, h => only_others rfl (execSchedule_hide f s s' h)
  | .barrierCancel f, h => only_others rfl (execBarrierCancel_hide f s s' h)
  | .setNow f, h => only_others rfl (execSetNow_hide f s s' h)
  | .timeFrame f transit, h => only_others rfl (execTimeFrame_hide f transit s s' h)
  | .config f, h => only_others rfl (execConfig_hide f s s' h)
  | .barrierQuery f, h => only_others rfl (execBarrierQuery_hide f s s' h)
  | .failnow f, h => only_others rfl (execFailnow_hide f s s' h)
  | .gate k, h => only_others rfl (execGate_hide k s s' h)
  | .overcurrent k, h => only_others rfl (execOvercurrent_hide k s s' h)
  | .hviOn k first later below, h => only_others rfl (execHviOn_hide k first later below s s' h)
  | .hviOff k last, h => only_others rfl (execHviOff_hide k last s s' h)
  | .completion atMfe f, h => only_others rfl (execCompletion_hide atMfe f s s' h)
  | .statusFrame f, h => only_others rfl (execStatusFrame_hide f s s' h)
  | .teeth f, h => only_others rfl (execTeeth_hide f s s' h)
  | .hvEvent f, h => only_others rfl (execHvEvent_hide f s s' h)
  | .measure f, h => only_others rfl (execMeasure_hide f s s' h)
  | .optime f, h => only_others rfl (execOptime_hide f s s' h)
  | .retransmission atMfe seq, h => only_others rfl (execRetransmission_hide atMfe seq s s' h)
  | .requestTimeout atMfe seq, h => only_others rfl (execRequestTimeout_hide atMfe seq s s' h)
  | .linkDown, h => only_others rfl (execLinkDown_hide s s' h)
  | .handshake, h => only_others rfl (execHandshake_hide s s' h)
  | .mailboxRequest v, h => only_others rfl (execMailboxRequest_hide v s s' h)
  | .transfer v, h => only_others rfl (execTransfer_hide v s s' h)
  | .transferEnd, h => only_others rfl (execTransferEnd_hide s s' h)
  | .imageOffer, h => only_others rfl (execImageOffer_hide s s' h)
  | .chunk, h => only_others rfl (execChunk_hide s s' h)
  | .imageStatus, h => only_others rfl (execImageStatus_hide s s' h)
  | .beacon, h => only_others rfl (execBeacon_hide s s' h)
  | .offerRound, h => only_others rfl (execOfferRound_hide s s' h)
  | .needReport, h => only_others rfl (execNeedReport_hide s s' h)
  | .arming, h => only_others rfl (execArming_hide s s' h)
  | .preload, h => only_others rfl (execPreload_hide s s' h)
  | .draining, h => only_others rfl (execDraining_hide s s' h)
  | .pageSwap, h => only_others rfl (execPageSwap_hide s s' h)
  | .ppsInEdge t, h => only_others rfl (execPpsInEdge_hide t s s' h)
  | .srcLabel v, h => only_others rfl (execSrcLabel_hide v s s' h)
  | .softSubmission v, h => only_others rfl (execSoftSubmission_hide v s s' h)
  | .sourceInvalid, h => only_others rfl (execSourceInvalid_hide s s' h)
  | .step, h => only_others rfl (execStep_hide s s' h)
  | .locked, h => only_others rfl (execLocked_hide s s' h)
  | .holdoverExpired, h => only_others rfl (execHoldoverExpired_hide s s' h)
  | .announce v, h => only_others rfl (execAnnounce_hide v s s' h)
  | .second, h => only_others rfl (execSecond_hide s s' h)
  | .refFail, h => only_node_others rfl (execRefFail_hide s s' h)
  | .coreUnlock, h => only_node_others rfl (execCoreUnlock_hide s s' h)
  | .auxUnlock, h => only_node_others rfl (execAuxUnlock_hide s s' h)
  | .rtcFail, h => only_node_others rfl (execRtcFail_hide s s' h)
  | .insert e d a b t ch, h => only_others rfl (execInsert_hide e d a b t ch s s' h)
  | .cancel e d t ch, h => only_others rfl (execCancel_hide e d t ch s s' h)
  | .flush c, h => only_others rfl (execFlush_hide c s s' h)
  | .channelEnable c v, h => only_others rfl (execChannelEnable_hide c v s s' h)
  | .dueKey c, h => only_others rfl (execDueKey_hide c s s' h)
  | .forward c, h => only_others rfl (execForward_hide c s s' h)
  | .hvEntryBegin c, h => only_others rfl (execHvEntryBegin_hide c s s' h)
  | .periodBoundary c, h => only_others rfl (execPeriodBoundary_hide c s s' h)
  | .apply g, h => only_others rfl (execApply_hide g s s' h)
  | .planesWrite g v, h => only_others rfl (execPlanesWrite_hide g v s s' h)
  | .planeBoundary g, h => only_others rfl (execPlaneBoundary_hide g s s' h)
  | .edge c level t, h => only_others rfl (execEdge_hide c level t s s' h)
  | .tooth w, h => only_others rfl (execTooth_hide w s s' h)
  | .stall w, h => only_others rfl (execStall_hide w s s' h)
  | .syntheticToothPush w hi, h => only_others rfl (execSyntheticToothPush_hide w hi s s' h)
  | .fifoFlush w, h => only_others rfl (execFifoFlush_hide w s s' h)
  | .resync w, h => only_others rfl (execResync_hide w s s' h)
  | .wheelEnable w v, h => only_others rfl (execWheelEnable_hide w v s s' h)
  | .headArming c, h => only_others rfl (execHeadArming_hide c s s' h)
  | .storeDrain e dual others, h => only_others rfl (execStoreDrain_hide e dual others s s' h)
  | .exception e c addr, h => only_others rfl (execException_hide e c addr s s' h)
  | .watchdog e, h => only_others rfl (execWatchdog_hide e s s' h)
  | .budgetWarn e, h => only_others rfl (execBudgetWarn_hide e s s' h)
  | .budgetAbort e, h => only_others rfl (execBudgetAbort_hide e s s' h)
  | .interrupt, h => only_others rfl (execInterrupt_hide s s' h)
  | .dispatch, h => only_others rfl (execDispatch_hide s s' h)
  | .ready m, h => only_others rfl (execReady_hide m s s' h)
  | .unready m, h => only_others rfl (execUnready_hide m s s' h)
  | .restart e, h => only_others rfl (execRestart_hide e s s' h)
  | .timerFire k, h => only_others rfl (execTimerFire_hide k s s' h)
  | .scrub, h => only_others rfl (execScrub_hide s s' h)
  | .csScrubbed, h => only_others rfl (execCsScrubbed_hide s s' h)
  | .csUncorr, h => only_others rfl (execCsUncorr_hide s s' h)
  | .movi e d imm, h => only_others rfl (execMovi_hide e d imm s s' h)
  | .mov e d a, h => only_others rfl (execMov_hide e d a s s' h)
  | .nop e, h => only_others rfl (execNop_hide e s s' h)
  | .add e d a b, h => only_others rfl (execAdd_hide e d a b s s' h)
  | .addi e d a imm, h => only_others rfl (execAddi_hide e d a imm s s' h)
  | .adc e d a b, h => only_others rfl (execAdc_hide e d a b s s' h)
  | .adci e d a imm, h => only_others rfl (execAdci_hide e d a imm s s' h)
  | .sub e d a b, h => only_others rfl (execSub_hide e d a b s s' h)
  | .subi e d a imm, h => only_others rfl (execSubi_hide e d a imm s s' h)
  | .sbc e d a b, h => only_others rfl (execSbc_hide e d a b s s' h)
  | .sbci e d a imm, h => only_others rfl (execSbci_hide e d a imm s s' h)
  | .and e d a b, h => only_others rfl (execAnd_hide e d a b s s' h)
  | .andi e d a imm, h => only_others rfl (execAndi_hide e d a imm s s' h)
  | .or e d a b, h => only_others rfl (execOr_hide e d a b s s' h)
  | .ori e d a imm, h => only_others rfl (execOri_hide e d a imm s s' h)
  | .xor e d a b, h => only_others rfl (execXor_hide e d a b s s' h)
  | .xori e d a imm, h => only_others rfl (execXori_hide e d a imm s s' h)
  | .andn e d a b, h => only_others rfl (execAndn_hide e d a b s s' h)
  | .andni e d a imm, h => only_others rfl (execAndni_hide e d a imm s s' h)
  | .cmp e a b, h => only_others rfl (execCmp_hide e a b s s' h)
  | .cmpi e a imm, h => only_others rfl (execCmpi_hide e a imm s s' h)
  | .tst e a b, h => only_others rfl (execTst_hide e a b s s' h)
  | .tsti e a imm, h => only_others rfl (execTsti_hide e a imm s s' h)
  | .min e d a b, h => only_others rfl (execMin_hide e d a b s s' h)
  | .mini e d a imm, h => only_others rfl (execMini_hide e d a imm s s' h)
  | .max e d a b, h => only_others rfl (execMax_hide e d a b s s' h)
  | .maxi e d a imm, h => only_others rfl (execMaxi_hide e d a imm s s' h)
  | .minu e d a b, h => only_others rfl (execMinu_hide e d a b s s' h)
  | .minui e d a imm, h => only_others rfl (execMinui_hide e d a imm s s' h)
  | .maxu e d a b, h => only_others rfl (execMaxu_hide e d a b s s' h)
  | .maxui e d a imm, h => only_others rfl (execMaxui_hide e d a imm s s' h)
  | .lsl e d a b, h => only_others rfl (execLsl_hide e d a b s s' h)
  | .lsli e d a k, h => only_others rfl (execLsli_hide e d a k s s' h)
  | .lsr e d a b, h => only_others rfl (execLsr_hide e d a b s s' h)
  | .lsri e d a k, h => only_others rfl (execLsri_hide e d a k s s' h)
  | .asr e d a b, h => only_others rfl (execAsr_hide e d a b s s' h)
  | .asri e d a k, h => only_others rfl (execAsri_hide e d a k s s' h)
  | .ror e d a b, h => only_others rfl (execRor_hide e d a b s s' h)
  | .rori e d a k, h => only_others rfl (execRori_hide e d a k s s' h)
  | .bfx e d a pos len1, h => only_others rfl (execBfx_hide e d a pos len1 s s' h)
  | .bfi e d a pos len1, h => only_others rfl (execBfi_hide e d a pos len1 s s' h)
  | .clz e d a, h => only_others rfl (execClz_hide e d a s s' h)
  | .popc e d a, h => only_others rfl (execPopc_hide e d a s s' h)
  | .mul e d a b, h => only_others rfl (execMul_hide e d a b s s' h)
  | .mulu e d a b, h => only_others rfl (execMulu_hide e d a b s s' h)
  | .muls e d a b, h => only_others rfl (execMuls_hide e d a b s s' h)
  | .dstep e d a n, h => only_others rfl (execDstep_hide e d a n s s' h)
  | .sincos e d a, h => only_others rfl (execSincos_hide e d a s s' h)
  | .atan2 e d a b, h => only_others rfl (execAtan2_hide e d a b s s' h)
  | .sqrt e d a, h => only_others rfl (execSqrt_hide e d a s s' h)
  | .ld e d a imm size signed others, h => only_others rfl (execLd_hide e d a imm size signed others s s' h)
  | .st e a b imm size, h => only_others rfl (execSt_hide e a b imm size s s' h)
  | .fence e, h => only_others rfl (execFence_hide e s s' h)
  | .time e d, h => only_others rfl (execTime_hide e d s s' h)
  | .who e d, h => only_others rfl (execWho_hide e d s s' h)
  | .shift e d g a n1, h => only_others rfl (execShift_hide e d g a n1 s s' h)
  | .wpos e d w, h => only_others rfl (execWpos_hide e d w s s' h)
  | .wpred e d b w, h => only_others rfl (execWpred_hide e d b w s s' h)
  | .bsend e d a type, h => only_others rfl (execBsend_hide e d a type s s' h)
  | .gstart e d g a, h => only_others rfl (execGstart_hide e d g a s s' h)
  | .doorbell e d, h => only_others rfl (execDoorbell_hide e d s s' h)
  | .yield e, h => only_others rfl (execYield_hide e s s' h)
  | .wait e a fn, h => only_others rfl (execWait_hide e a fn s s' h)
  | .b e c t, h => only_others rfl (execB_hide e c t s s' h)
  | .call e c t, h => only_others rfl (execCall_hide e c t s s' h)
  | .jr e a, h => only_others rfl (execJr_hide e a s s' h)
  | .ret e, h => only_others rfl (execReturn_hide e s s' h)
  | .reti e, h => only_others rfl (execReti_hide e s s' h)
  | .eret e, h => only_others rfl (execEret_hide e s s' h)
  | .bz e a t, h => only_others rfl (execBz_hide e a t s s' h)
  | .bnz e a t, h => only_others rfl (execBnz_hide e a t s s' h)
  | .dbnz e a t, h => only_others rfl (execDbnz_hide e a t s s' h)
  | .latSet k v, h => only_others rfl (execLatSet_hide k v s s' h)
  | .writeBack a, h => only_others rfl (execWriteBack_hide a s s' h)
  | .powerWrite hi v reached, h => only_others rfl (execPowerWrite_hide hi v reached s s' h)
  | .bankOn b, h => only_others rfl (execBankOn_hide b s s' h)
  | .march preserve banks, h => only_others rfl (execMarch_hide preserve banks s s' h)
  | .marchDone fails, h => only_others rfl (execMarchDone_hide fails s s' h)
  | .geyserGo g, h => only_others rfl (execGeyserGo_hide g s s' h)
  | .resume g, h => only_others rfl (execResume_hide g s s' h)
  | .abort g moved, h => only_others rfl (execAbort_hide g moved s s' h)
  | .descriptorComplete g, h => only_others rfl (execDescriptorComplete_hide g s s' h)
  | .busStop g moved, h => only_others rfl (execBusStop_hide g moved s s' h)
  | .frameReceived p full stamp power f bad corr, h =>
      only_others rfl (execFrameReceived_hide p full stamp power f bad corr s s' h)
  | .frameBuilt p stamp slips, h => only_others rfl (execFrameBuilt_hide p stamp slips s s' h)
  | .defectDeclared p d power, h => only_others rfl (execDefectDeclared_hide p d power s s' h)
  | .defectCleared p d, h => only_others rfl (execDefectCleared_hide p d s s' h)
  | .trainingStep p, h => only_others rfl (execTrainingStep_hide p s s' h)
  | .fallback p, h => only_others rfl (execFallback_hide p s s' h)
  | .retrain p write, h => only_others rfl (execRetrain_hide p write s s' h)
  | .slip p fill, h => only_others rfl (execSlip_hide p fill s s' h)
  | .masterSlip p again align, h => only_others rfl (execMasterSlip_hide p again align s s' h)
  | .wrap p, h => only_others rfl (execWrap_hide p s s' h)
  | .wtrDone p, h => only_others rfl (execWtrDone_hide p s s' h)
  | .unwrap p, h => only_others rfl (execUnwrap_hide p s s' h)
  | .insertionRequest, h => only_others rfl (execInsertionRequest_hide s s' h)
  | .insertFailed, h => only_others rfl (execInsertFailed_hide s s' h)
  | .backoff, h => only_others rfl (execBackoff_hide s s' h)
  | .bypassReq v, h => only_others rfl (execBypassReq_hide v s s' h)
  | .swap, h => only_others rfl (execSwap_hide s s' h)
  | .copy, h => only_others rfl (execCopy_hide s s' h)
  | .copyDone, h => only_others rfl (execCopyDone_hide s s' h)
  | .swapCancel, h => only_others rfl (execSwapCancel_hide s s' h)
  | .cmData write v, h => only_others rfl (execCmData_hide write v s s' h)
  | .txdFrame p, h => only_others rfl (execTxdFrame_hide p s s' h)
  | .rxdFrame p b, h => only_others rfl (execRxdFrame_hide p b s s' h)
  | .binClose, h => only_others rfl (execBinClose_hide s s' h)
  | .perfSel v, h => only_others rfl (execPerfSel_hide v s s' h)
  | .origination v, h => only_others rfl (execOrigination_hide v s s' h)
  | .custodyFull, h => only_others rfl (execCustodyFull_hide s s' h)
  | .recordCommit fails, h => only_others rfl (execRecordCommit_hide fails s s' h)
  | .offer, h => only_others rfl (execOffer_hide s s' h)
  | .report, h => only_others rfl (execReport_hide s s' h)
  | .query, h => only_others rfl (execQuery_hide s s' h)
  | .retry slot t, h => only_others rfl (execRetry_hide slot t s s' h)
  | .poll slot t, h => only_others rfl (execPoll_hide slot t s s' h)
  | .expires slot, h => only_others rfl (execExpires_hide slot s s' h)
  | .chInsert, h => only_others rfl (execChInsert_hide s s' h)
  | .chCancel, h => only_others rfl (execChCancel_hide s s' h)
  | .setValue, h => only_others rfl (execSetValue_hide s s' h)
  | .activateImage, h => only_others rfl (execActivateImage_hide s s' h)
  | .headRetry, h => only_others rfl (execHeadRetry_hide s s' h)
  | .abandon v, h => only_others rfl (execAbandon_hide v s s' h)
  | .faultMessage, h => only_others rfl (execFaultMessage_hide s s' h)
  | .warned k, h => only_others rfl (execWarned_hide k s s' h)
  | .escalation k, h => only_others rfl (execEscalation_hide k s s' h)
  | .ack v, h => only_others rfl (execAck_hide v s s' h)
  | .clearFirst, h => only_others rfl (execClearFirst_hide s s' h)
  | .pulseEnd, h => only_others rfl (execPulseEnd_hide s s' h)
  | .arm v, h => only_others rfl (execArm_hide v s s' h)
  | .selfParity off, h => only_others rfl (execSelfParity_hide off s s' h)
  | .caldera bad, h => only_node_others rfl (execCaldera_hide bad s s' h)
  | .freeze, h => only_node_others rfl (execFreeze_hide s s' h)
  | .sinterResume frzHigh, h => only_node_others rfl (execSinterResume_hide frzHigh s s' h)
  | .sinterRead seg word, h => only_node_others rfl (execSinterRead_hide seg word s s' h)
  | .memacc write addr data, h => only_node_others rfl (execMemacc_hide write addr data s s' h)
  | .extest pins shift, h => only_node_others rfl (execExtest_hide pins shift s s' h)
  | .samplePreload pins shift, h => only_node_others rfl (execSamplePreload_hide pins shift s s' h)
  | .bypass, h => only_node_others rfl (execBypass_hide s s' h)
  | .latchedRead m a, h => only_others rfl (execLatchedRead_hide m a s s' h)
  | .clearingRead m a, h => only_others rfl (execClearingRead_hide m a s s' h)
  | .registerWrite m a v, h => only_others rfl (execRegisterWrite_hide m a v s s' h)
  | .mfeSupplyLost unpowered, h => only_others rfl (execMfeSupplyLost_hide unpowered s s' h)
  | .mainsZeroCrossing p t rms freq thd cycle, h =>
      only_others rfl (execMainsZeroCrossing_hide p t rms freq thd cycle s s' h)
  | .timeFrameSend, h => only_others rfl (execTimeFrameSend_hide s s' h)
  | .statusFrameSend temp overtemp, h => only_others rfl (execStatusFrameSend_hide temp overtemp s s' h)
  | .switchPosition inserted, h => only_others rfl (execSwitchPosition_hide inserted s s' h)
  | .txFail p power, h => only_others rfl (execTxFail_hide p power s s' h)
  | .rtcLost, h => only_others rfl (execRtcLost_hide s s' h)
  | .ppsOutFall, h => only_others rfl (execPpsOutFall_hide s s' h)
  | .beaconSend, h => only_others rfl (execBeaconSend_hide s s' h)
  | .spent slot, h => only_others rfl (execSpent_hide slot s s' h)

theorem exec_pending {c : Instr} {s s' : State} (h : exec c s = .next s') : s'.pending = s.pending :=
  exec_only h .pending (by unfold mayChange; split <;> decide)

theorem exec_node {c : Instr} {s s' : State} (hc : changesNode c = false) (h : exec c s = .next s') : s'.node = s.node :=
  exec_only h .node (by simp only [mayChange, hc]; decide)

end Sys2Proof.Safety
end

section
/-! The node's standing conditions (R31, R57, R76, R500, R505, R510) through each command that changes the node, and through
a CORE cycle. -/

namespace Sys2Proof.Safety
open Sys2Proof.Machine

/-! ## The six fields the conditions speak of -/

/-- `nodeOk` asks only for what `Node.core` shows. -/
theorem nodeOk_of_core_eq {n m : Node} (h : m.core = n.core) (hn : nodeOk n) : nodeOk m := by
  rw [nodeOk_core] at *
  rwa [h]

theorem heartbeat_off_of_frozen {n : Node} (hn : nodeOk n) (h : n.freeze = .frozen) : n.heartbeat = false := by
  by_contra hb
  exact absurd (hn.1 (by simpa using hb)).1 (by simp [h])

theorem heartbeat_off_of_held {n : Node} (hn : nodeOk n) (h : n.heldInReset = true) : n.heartbeat = false := by
  by_contra hb
  exact absurd (hn.1 (by simpa using hb)).2 (by simp [h])

theorem clocked_iff (s : State) : s.clocked = true ↔ s.node.freeze = .running ∧ s.node.heldInReset = false := by
  simp [State.clocked]

theorem live_iff (s : State) :
    s.live = true ↔ s.clocked = true ∧ s.node.phase ≠ .caldera ∧ s.node.phase ≠ .hold := by
  unfold State.live
  rw [Bool.and_eq_true, Bool.and_eq_true, decide_eq_true_iff, decide_eq_true_iff, and_assoc]

theorem nodeOk_of_actWhen {c : Bool} {f : State → State} {s s' : State} (hs : nodeOk s.node)
    (h : actWhen c f s = .next s') (hf : c = true → nodeOk (f s).node) : nodeOk s'.node := by
  rw [actWhen_next] at h
  subst h
  split
  · exact hf ‹_›
  · exact hs

/-! ## Stopped clocks and the heartbeat -/

/-- The clocks may stop wherever the node is out of reset and no PWRFAIL sequence runs. -/
theorem stopClocks_nodeOk {b f : Bool} {s : State} (hs : nodeOk s.node) (hrst : s.node.heldInReset = false)
    (hpwr : s.node.pwr = .none) : nodeOk (stopClocks b f s).node := by
  rw [nodeOk_core, stopClocks_core]
  obtain ⟨-, -, -, -, hhold, -⟩ := hs
  simp_all [coreOk]

/-! ## Kindling -/

/-- A phase other than plug hold and Caldera may begin wherever the node stands. -/
theorem coreOk_of_phase {n : Node} {p : Phase} (hn : nodeOk n) (hhold : p ≠ .hold) (hcal : p ≠ .caldera) :
    coreOk (n.heartbeat, n.freeze, n.heldInReset, n.pwr, p, n.pvdd) :=
  coreOk_quiet (c := n.core) ⟨rfl, rfl, rfl, rfl, rfl, hhold, hcal⟩ hn

/-- A command of Kindling acts with the clocks running, and before step 4 of a PWRFAIL sequence. -/
theorem kindles_iff (p : Phase) (s : State) :
    s.kindles p = true ↔ (s.node.freeze = .running ∧ s.node.heldInReset = false) ∧
    s.node.phase = p ∧ s.node.kinHalted = false ∧ (s.node.pwr = .none ∨ s.node.pwr = .running) := by
  simp [State.kindles, ← clocked_iff, and_assoc]

theorem nodeOk_of_phase {n : Node} {p : Phase} {a : Nat} (hn : nodeOk n) (hhold : p ≠ .hold) (hcal : p ≠ .caldera) :
    nodeOk { n with phase := p, phaseAt := a } := coreOk_of_phase hn hhold hcal

theorem endPhase_nodeOk {f : Field} {p : Phase} {s : State} (hs : nodeOk s.node) (hhold : p ≠ .hold)
    (hcal : p ≠ .caldera) :
    nodeOk (endPhase f p s).node := by
  rw [nodeOk_core, endPhase_core]
  exact coreOk_of_phase hs hhold hcal

theorem rtcLoad_node (s : State) : (rtcLoad s).node = { s.node with rtcFailed := false } := by
  simp only [rtcLoad, State.when]
  split <;> simp

theorem k0_nodeOk {s : State} (hs : nodeOk s.node) (hrst : s.node.heldInReset = false) (hph : s.node.phase = .k0) :
    nodeOk (k0 s).node := by
  have hvio : nodeOk (s.modNode fun x => { x with vio := true, pvdd := !x.holdLow }).node := by
    simp_all [nodeOk]
  have hk1 : ∀ (f : Field) (c : Int), nodeOk (endPhase f .k1 (resetBins c (rtcLoad
      (s.modNode fun x => { x with vio := true, pvdd := !x.holdLow })))).node := fun f c => by
    refine endPhase_nodeOk ?_ (by decide) (by decide)
    rw [resetBins_node, rtcLoad_node]
    exact hvio
  unfold k0
  dsimp only
  split
  · next h => exact stopClocks_nodeOk (hk1 _ _) (by simpa [rtcLoad_node] using hrst) h.2
  · exact hk1 _ _

theorem execK0_nodeOk {s s' : State} (hs : nodeOk s.node) (h : execK0 s = .next s') : nodeOk s'.node :=
  nodeOk_of_actWhen hs h fun hk => by
    obtain ⟨⟨-, hrst⟩, hph, -⟩ := (kindles_iff _ _).1 hk
    exact k0_nodeOk hs hrst hph

/-- The fourth set's failure raises faults and halts Kindling, no more. -/
theorem samplesFailed_core (l : List Sample) (s : State) : (samplesFailed l s).node.core = s.node.core := by
  simp only [samplesFailed]
  have hone : ∀ (c : Bool) (kind : BitVec 5) (reason : BitVec 8) (detail : BitVec 24) (s : State),
      (if c = true then s else kinFatal kind reason detail s).node.core = s.node.core := fun c _ _ _ s => by
    cases c <;> simp
  rw [hone, hone, hone]
  split <;> simp

theorem sampleSets_nodeOk {ok : State → State} (hok : ∀ s : State, nodeOk s.node → nodeOk (ok s).node) {s : State}
    (hs : nodeOk s.node) : ∀ l : List (List Sample), nodeOk (sampleSets ok l s).node
  | [] => hs
  | l :: rest => by
    unfold sampleSets
    split
    · exact hok _ (by rwa [takeSamples_node])
    · split
      · exact nodeOk_of_core_eq (samplesFailed_core l s) hs
      · exact sampleSets_nodeOk hok hs rest

theorem execK1_nodeOk {sets : Vector (Vector Sample 8) 4} {s s' : State} (hs : nodeOk s.node)
    (h : execK1 sets s = .next s') : nodeOk s'.node :=
  nodeOk_of_actWhen hs h fun _ =>
    sampleSets_nodeOk (fun _ h => endPhase_nodeOk h (by decide) (by decide)) hs _

theorem execPlugAbsent_nodeOk {s s' : State} (hs : nodeOk s.node) (h : execPlugAbsent s = .next s') : nodeOk s'.node :=
  nodeOk_of_actWhen hs h fun _ => nodeOk_of_core_eq (plugAbsent_core s) hs

theorem execK2_nodeOk {fails : List (Nat × Nat)} {s s' : State} (hs : nodeOk s.node) (h : execK2 fails s = .next s') :
    nodeOk s'.node :=
  nodeOk_of_actWhen hs h fun _ => endPhase_nodeOk (nodeOk_of_core_eq (k2_core fails s) hs) (by decide) (by decide)

theorem execK3_nodeOk {bad : BitVec 2} {s s' : State} (hs : nodeOk s.node) (h : execK3 bad s = .next s') :
    nodeOk s'.node :=
  nodeOk_of_actWhen hs h fun _ => by
    have hk3 := nodeOk_of_core_eq (k3_core false (fun c => bad.getLsbD c.toNat) s) hs
    dsimp only
    split
    · exact hk3
    · exact endPhase_nodeOk hk3 (by decide) (by decide)

theorem execK4_nodeOk {s s' : State} (hs : nodeOk s.node) (h : execK4 s = .next s') : nodeOk s'.node :=
  nodeOk_of_actWhen hs h fun _ => by
    have hk4 := nodeOk_of_core_eq (k4_core s) hs
    split
    · next he => exact nodeOk_of_core_eq (imageNone_core _) (by rwa [he] at hk4)
    · next he => exact endPhase_nodeOk (by rwa [he] at hk4) (by decide) (by decide)

theorem loadChannels_core (s : State) : (loadChannels s).node.core = s.node.core := by
  rw [loadChannels, State.modNode_node, core_lvOn]
  exact each_core _ _ _ _ fun c s => by rw [loadChannel_node]

theorem loadFailed_nodeOk {k i : Nat} {s : State} (hs : nodeOk s.node) : nodeOk (loadFailed k i s).node := by
  have hload : nodeOk (if k = 1 then s else loadChannels s).node := by
    split
    · exact hs
    · exact nodeOk_of_core_eq (loadChannels_core s) hs
  unfold loadFailed
  extract_lets c s₁ s₂ s₃ s₄
  have hs₄ : nodeOk s₄.node := nodeOk_of_core_eq (n := s₁.node) (by simp [s₄, s₃, s₂]; split <;> rfl) hload
  clear_value s₄
  split
  · exact nodeOk_of_core_eq (imageNone_core _) hs₄
  · rw [State.modNode_node, State.put_node]
    exact nodeOk_of_phase hs₄ (by decide) (by decide)

theorem execK5_nodeOk {bad : Option (Fin 64)} {s s' : State} (hs : nodeOk s.node) (h : execK5 bad s = .next s') :
    nodeOk s'.node :=
  nodeOk_of_actWhen hs h fun _ => by
    split
    · exact loadFailed_nodeOk hs
    · refine endPhase_nodeOk ?_ (by decide) (by decide)
      rw [rebuildWork_node, loadTables_node]
      exact nodeOk_of_core_eq (loadChannels_core s) hs

theorem endK6_nodeOk {s : State} (hs : nodeOk s.node) : nodeOk (endK6 s).node :=
  endPhase_nodeOk (by rwa [State.put_node]) (by decide) (by decide)

theorem enterK8_nodeOk {w : State → State} {a b : Bool} {s : State} (hw : ∀ s, (w s).node = s.node)
    (hs : nodeOk s.node) :
    nodeOk (enterK8 w a b s).node := by
  rw [nodeOk_core, enterK8_core w a b s hw]
  exact coreOk_of_phase hs (by decide) (by decide)

theorem execK6_nodeOk {s s' : State} (hs : nodeOk s.node) (h : execK6 s = .next s') : nodeOk s'.node :=
  nodeOk_of_actWhen hs h fun _ => by
    split
    · split
      · exact enterK8_nodeOk warmWheels_node (endPhase_nodeOk hs (by decide) (by decide))
      · exact hs
    · split
      · exact hs
      · split
        · exact endK6_nodeOk hs
        · split
          · rwa [sendHello_node]
          · exact hs

theorem execMfeAbsent_nodeOk {s s' : State} (hs : nodeOk s.node) (h : execMfeAbsent s = .next s') : nodeOk s'.node :=
  nodeOk_of_actWhen hs h fun _ =>
    endPhase_nodeOk (by rwa [kinFault_node, State.put_node]) (by decide) (by decide)

/-- The heartbeat may start in a phase of Kindling: clocks running, and no PWRFAIL sequence past step 6. -/
theorem startHeartbeat_nodeOk {s : State} {p : Phase} (hs : nodeOk s.node) (hk : s.kindles p = true) (hhold : p ≠ .hold)
    (hcal : p ≠ .caldera) : nodeOk (startHeartbeat s).node := by
  obtain ⟨hrun, rfl, -, hpwr⟩ := (kindles_iff _ _).1 hk
  obtain ⟨-, hfrz, hcomp, -⟩ := hs
  have hstop : s.node.pwr ≠ .stopped := by rcases hpwr with h | h <;> simp [h]
  rw [startHeartbeat_node]
  exact ⟨fun _ => hrun, hfrz, hcomp, fun h => absurd h hstop, fun h => absurd h hhold, fun h => absurd h hcal⟩

theorem k7_node (s : State) : (k7 s).node = (startHeartbeat s).node := by
  unfold k7
  dsimp only
  rw [enableDrops_node]
  split <;> simp

theorem execK7_nodeOk {s s' : State} (hs : nodeOk s.node) (h : execK7 s = .next s') : nodeOk s'.node :=
  nodeOk_of_actWhen hs h fun hk => by
    rw [k7_node]
    exact startHeartbeat_nodeOk hs (Bool.and_eq_true_iff.1 hk).1 (by decide) (by decide)

theorem execK8_nodeOk {s s' : State} (hs : nodeOk s.node) (h : execK8 s = .next s') : nodeOk s'.node :=
  nodeOk_of_actWhen hs h fun _ =>
    enterK8_nodeOk wheelK8_node (endPhase_nodeOk (by rwa [State.putBit_node]) (by decide) (by decide))

theorem execWarmRestart_nodeOk {fails : List (Nat × Nat)} {rewriteBad : BitVec 2} {bad : Option (Fin 64)} {s s' : State}
    (hs : nodeOk s.node) (h : execWarmRestart fails rewriteBad bad s = .next s') : nodeOk s'.node :=
  nodeOk_of_actWhen hs h fun _ => by
    refine warmRun_ok fails rewriteBad bad _ ?_
    rw [warmK0_core]
    exact coreOk_of_phase hs (by decide) (by decide)

/-! ## Clock failures -/

theorem clockFault_nodeOk {kind : BitVec 5} {cls : BitVec 2} {reason : BitVec 8} {s : State} {n : Node} (hs : nodeOk s.node)
    (hn : n.core = s.node.core) : nodeOk (clockFault kind cls reason { s with node := n }).node := by
  rw [clockFault_node]
  exact nodeOk_of_core_eq hn hs

theorem execRefFail_nodeOk {s s' : State} (hs : nodeOk s.node) (h : execRefFail s = .next s') : nodeOk s'.node :=
  nodeOk_of_actWhen hs h fun _ => clockFault_nodeOk hs rfl

theorem execCoreUnlock_nodeOk {s s' : State} (hs : nodeOk s.node) (h : execCoreUnlock s = .next s') : nodeOk s'.node :=
  nodeOk_of_actWhen hs h fun _ => clockFault_nodeOk hs rfl

theorem execAuxUnlock_nodeOk {s s' : State} (hs : nodeOk s.node) (h : execAuxUnlock s = .next s') : nodeOk s'.node :=
  nodeOk_of_actWhen hs h fun _ => clockFault_nodeOk hs rfl

theorem execRtcFail_nodeOk {s s' : State} (hs : nodeOk s.node) (h : execRtcFail s = .next s') : nodeOk s'.node :=
  nodeOk_of_actWhen hs h fun _ => clockFault_nodeOk hs rfl

/-! ## Resets -/

theorem coldReset_fields (kind : ResetKind) (s : State) : let n := (coldReset kind s).node
    n.heartbeat = false ∧ n.freeze = .running ∧ n.heldInReset = false ∧ n.pwr = .none ∧ n.phase = .k0 := by
  have hc := coldReset_core kind s
  simp only [core_def, Prod.mk.injEq] at hc
  obtain ⟨hhb, hfrz, hrst, hpwr, hph, -⟩ := hc
  exact ⟨hhb, hfrz, hrst, hpwr, hph⟩

/-- What a reset of any kind but warm restart leaves: K0 with nothing running. -/
theorem coldReset_nodeOk (kind : ResetKind) (s : State) : nodeOk (coldReset kind s).node := by
  obtain ⟨hhb, hfrz, hrst, hpwr, hph⟩ := coldReset_fields kind s
  simp [nodeOk, hhb, hfrz, hpwr, hph]

/-- A node that a reset has just left may be held in reset. -/
theorem nodeOk_of_held {kind : ResetKind} {s : State} {n : Node} {rst : Bool}
    (hn : n.core = ((coldReset kind s).node.heartbeat, (coldReset kind s).node.freeze, rst, (coldReset kind s).node.pwr,
      (coldReset kind s).node.phase, n.pvdd)) : nodeOk n := by
  obtain ⟨hhb, hfrz, -, hpwr, hph⟩ := coldReset_fields kind s
  rw [nodeOk_core, hn, hhb, hfrz, hpwr, hph]
  simp [coreOk]

theorem beginK0_nodeOk {s : State} (hs : nodeOk s.node) (hhb : s.node.heartbeat = false) : nodeOk (beginK0 s).node := by
  rw [nodeOk_core, beginK0_core]
  obtain ⟨h1, h2, h3, h4, h5, h6⟩ := hs
  split
  · simp_all [coreOk]
  · exact ⟨h1, h2, h3, h4, h5, h6⟩

theorem execPowerOn_nodeOk {low : Bool} {vbulk : BitVec 16} {vaux conv : Bool} {off : BitVec 64} {rl hl : Bool}
    {s s' : State} (hs : nodeOk s.node) (h : execPowerOn low vbulk vaux conv off rl hl s = .next s') : nodeOk s'.node := by
  simp only [execPowerOn] at h
  refine nodeOk_of_actWhen hs h fun _ => ?_
  generalize hr : coldReset .powerOn _ = r
  have hok : nodeOk { r.node with heldInReset := rl } := hr ▸ nodeOk_of_held rfl
  have hhb : r.node.heartbeat = false := hr ▸ (coldReset_fields _ _).1
  split
  · simpa only [State.modNode_node, State.putBit_node, State.put_node] using hok
  · refine beginK0_nodeOk ?_ ?_ <;> simpa only [State.modNode_node, State.putBit_node, State.put_node]

theorem holdInReset_nodeOk (kind : ResetKind) (s : State) : nodeOk (holdInReset kind s).node := by
  rw [holdInReset, State.modNode_node]
  exact nodeOk_of_held rfl

theorem execResetN_nodeOk {s s' : State} (hs : nodeOk s.node) (h : execResetN s = .next s') : nodeOk s'.node :=
  nodeOk_of_actWhen hs h fun _ => holdInReset_nodeOk _ _

theorem execCalderaExit_nodeOk {s s' : State} (hs : nodeOk s.node) (h : execCalderaExit s = .next s') : nodeOk s'.node :=
  nodeOk_of_actWhen hs h fun _ => holdInReset_nodeOk _ _

theorem execResetNRelease_nodeOk {s s' : State} (hs : nodeOk s.node) (h : execResetNRelease s = .next s') :
    nodeOk s'.node :=
  nodeOk_of_actWhen hs h fun hc => by
    simp only [Bool.and_eq_true, beq_iff_eq] at hc
    obtain ⟨⟨hheld, -⟩, hpwr⟩ := hc
    have hhb := heartbeat_off_of_held hs hheld
    refine beginK0_nodeOk ?_ hhb
    obtain ⟨-, hfrz, -, -, hhold, -⟩ := hs
    rw [State.modNode_node]
    simp_all [nodeOk]

/-! ## The plug -/

theorem execPlugInserted_nodeOk {mem : List (Nat × Byte)} {a b : Byte} {s s' : State} (hs : nodeOk s.node)
    (h : execPlugInserted mem a b s = .next s') : nodeOk s'.node :=
  nodeOk_of_actWhen hs h fun _ => nodeOk_of_core_eq (n := s.node) (by rw [State.modNode_node, core_plugPresent]) hs

theorem execPlugRemoved_nodeOk {s s' : State} (hs : nodeOk s.node) (h : execPlugRemoved s = .next s') : nodeOk s'.node :=
  nodeOk_of_actWhen hs h fun _ => nodeOk_of_core_eq (n := s.node) (by
    rw [State.modNode_node, core_plugPresent, State.when]
    split
    · rw [plugLost_node]
    · rfl) hs

theorem enterHold_nodeOk {s : State} (hs : nodeOk s.node) : nodeOk (enterHold s).node := by
  obtain ⟨hhb, hfrz, hcomp, hstop, -, hcal⟩ := hs
  rw [nodeOk_core, enterHold_core]
  have hoff : (s.node.heartbeat && s.node.phase == .caldera) = false := by
    by_contra hb
    simp_all
  simp_all [coreOk]

theorem pwrRecord_core (s : State) : (pwrRecord s).node.core = s.node.core := by
  unfold pwrRecord
  split <;> simp

theorem nodeOk_of_pvdd_off {n : Node} (hn : nodeOk n) : nodeOk { n with pvdd := false } := by
  obtain ⟨hhb, hfrz, hcomp, hstop, hhold, hcal⟩ := hn
  exact ⟨hhb, hfrz, hcomp, hstop, fun h => ⟨rfl, (hhold h).2⟩, hcal⟩

theorem execPlugHold_nodeOk {s s' : State} (hs : nodeOk s.node) (h : execPlugHold s = .next s') : nodeOk s'.node := by
  cases h
  dsimp only
  have hpin : nodeOk (s.modNode fun x => { x with holdLow := true }).node := hs
  generalize s.modNode (fun x => { x with holdLow := true }) = r at hpin
  refine nodeOk_of_pvdd_off ?_
  split
  · split
    · exact enterHold_nodeOk hpin
    · split
      · exact nodeOk_of_core_eq (pwrRecord_core r) hpin
      · exact hpin
  · exact hpin

theorem execPlugHoldRelease_nodeOk {patch : List (Nat × Byte)} {s s' : State} (hs : nodeOk s.node)
    (h : execPlugHoldRelease patch s = .next s') : nodeOk s'.node :=
  nodeOk_of_actWhen hs h fun _ => by
    dsimp only
    generalize hr : (if s.node.plugPresent = true then _ else s) = r
    have hrs : r.node = s.node := by
      rw [← hr]
      split <;> rfl
    split
    · exact coldReset_nodeOk _ _
    · rw [State.modNode_node, hrs]
      obtain ⟨hhb, hfrz, hcomp, hstop, hhold, hcal⟩ := hs
      exact ⟨hhb, hfrz, hcomp, hstop, fun h => ⟨by simpa using h, (hhold h).2⟩, hcal⟩

/-! ## Caldera, freeze and the clocks' return -/

theorem calderaOutputs_nodeOk {r : FaultRec} {s : State} (hs : nodeOk s.node) : nodeOk (calderaOutputs r s).node := by
  obtain ⟨-, hfrz, hcomp, -⟩ := hs
  rw [nodeOk_core, calderaOutputs_core]
  simp_all [coreOk]

theorem execCaldera_nodeOk {bad : Bool} {s s' : State} (hs : nodeOk s.node) (h : execCaldera bad s = .next s') :
    nodeOk s'.node :=
  nodeOk_of_actWhen hs h fun hc => by
    obtain ⟨-, hrst⟩ := (clocked_iff s).1 (Bool.and_eq_true_iff.1 hc).1
    split
    · exact hs
    · next r _ =>
      have hout := calderaOutputs_nodeOk (r := r) hs
      have hcore := calderaOutputs_core r s
      simp only [core_def, Prod.mk.injEq] at hcore
      obtain ⟨-, -, hrst', hpwr', -, -⟩ := hcore
      dsimp only
      split
      · next hf => exact stopClocks_nodeOk hout (hrst'.trans hrst) hf.2
      · exact nodeOk_of_core_eq (calderaRest_core bad _) hout

/-- What Caldera still does before a freeze: its output actions, or nothing. -/
theorem calderaBeforeFreeze_fields (s : State) : (calderaBeforeFreeze s).node.heldInReset = s.node.heldInReset ∧
    (calderaBeforeFreeze s).node.pwr = s.node.pwr := by
  unfold calderaBeforeFreeze
  split
  · exact ⟨rfl, rfl⟩
  · next r _ =>
    have hcore := calderaOutputs_core r s
    simp only [core_def, Prod.mk.injEq] at hcore
    obtain ⟨-, -, hrst, hpwr, -, -⟩ := hcore
    repeat' split
    · exact ⟨rfl, rfl⟩
    · exact ⟨hrst, hpwr⟩
    · rw [calderaHalt_node]
      exact ⟨hrst, hpwr⟩

theorem calderaBeforeFreeze_nodeOk {s : State} (hs : nodeOk s.node) : nodeOk (calderaBeforeFreeze s).node := by
  unfold calderaBeforeFreeze
  split
  · exact hs
  · have hout : ∀ r : FaultRec, nodeOk (calderaOutputs r s).node := fun _ => calderaOutputs_nodeOk hs
    repeat' split
    · exact hs
    · exact hout ‹_›
    · rw [calderaHalt_node]
      exact hout ‹_›

theorem freezeNode_nodeOk {s : State} (hs : nodeOk s.node) (hrst : s.node.heldInReset = false) (hpwr : s.node.pwr = .none) :
    nodeOk (freezeNode s).node := by
  obtain ⟨hrst', hpwr'⟩ := calderaBeforeFreeze_fields s
  have hfirst : ∀ b : Bool, ((calderaBeforeFreeze s).when b bypassFirst).node = (calderaBeforeFreeze s).node := fun b => by
    cases b <;> simp [State.when]
  refine stopClocks_nodeOk ?_ ?_ ?_ <;> rw [hfirst]
  · exact calderaBeforeFreeze_nodeOk hs
  · exact hrst'.trans hrst
  · exact hpwr'.trans hpwr

theorem execFreeze_nodeOk {s s' : State} (hs : nodeOk s.node) (h : execFreeze s = .next s') : nodeOk s'.node :=
  nodeOk_of_actWhen hs h fun hc => by
    simp only [Bool.and_eq_true, beq_iff_eq] at hc
    split
    · exact nodeOk_of_core_eq (n := s.node) (by rw [State.modNode_node, core_frzLow]) hs
    · next hn =>
      rw [not_or, Bool.not_eq_true] at hn
      exact freezeNode_nodeOk hs hn.1 hc.1

theorem startClocks_nodeOk {reason : BitVec 8} {kind : BitVec 5} {s : State} (hs : nodeOk s.node)
    (hf : s.node.freeze = .frozen) :
    nodeOk (startClocks reason kind s).node ∧ (startClocks reason kind s).node.freeze = .running := by
  have hhb := heartbeat_off_of_frozen hs hf
  obtain ⟨-, hfrz, -, -, hhold, -⟩ := hs
  obtain ⟨hrst, hpwr⟩ := hfrz hf
  rw [startClocks_rest]
  split
  · next hl =>
    obtain ⟨-, hcal, hnhold⟩ := (live_iff _).1 (Bool.and_eq_true_iff.1 hl).2
    rw [State.modNode_node] at hcal hnhold
    simp [nodeOk, hrst, hpwr, hcal, hnhold]
  · refine ⟨?_, rfl⟩
    simp_all [nodeOk]

/-- What the node does as its clocks start never stops them again. -/
theorem afterFreeze_nodeOk {s : State} (hs : nodeOk s.node) (hrun : s.node.freeze = .running) :
    nodeOk (afterFreeze s).node ∧ (afterFreeze s).node.freeze = .running := by
  have hcore := continueCaldera_core s
  have hok := nodeOk_of_core_eq hcore hs
  simp only [core_def, Prod.mk.injEq] at hcore
  obtain ⟨-, hfrz, -, -, -, -⟩ := hcore
  rw [hrun] at hfrz
  unfold afterFreeze
  dsimp only
  split
  · split
    · exact ⟨hok, hfrz⟩
    · have hhold := enterHold_core (continueCaldera s)
      simp only [core_def, Prod.mk.injEq] at hhold
      exact ⟨enterHold_nodeOk hok, hhold.2.1.trans hfrz⟩
  · split
    · exact ⟨coldReset_nodeOk _ _, (coldReset_fields _ _).2.1⟩
    · split
      · rw [plugLost_node]
        exact ⟨hok, hfrz⟩
      · exact ⟨hok, hfrz⟩

theorem resumeNode_nodeOk {reason : BitVec 8} {kind : BitVec 5} {s : State} (hs : nodeOk s.node)
    (hf : s.node.freeze = .frozen) :
    nodeOk (resumeNode reason kind s).node ∧ (resumeNode reason kind s).node.freeze = .running := by
  obtain ⟨hok, hrun⟩ := startClocks_nodeOk (reason := reason) (kind := kind) hs hf
  exact afterFreeze_nodeOk hok hrun

/-! ## The PWRFAIL sequence (Table 02-4) -/

theorem pwrfail_nodeOk {v : BitVec 16} {s : State} (hs : nodeOk s.node) (hrun : s.node.freeze = .running) :
    nodeOk (pwrfail v s).node := by
  rw [nodeOk_core, pwrfail_core]
  split
  · exact hs
  · obtain ⟨hhb, -, -, -, hhold, hcal⟩ := hs
    simp_all [coreOk]

theorem execPwrfail_nodeOk {v : BitVec 16} {s s' : State} (hs : nodeOk s.node) (h : execPwrfail v s = .next s') :
    nodeOk s'.node :=
  nodeOk_of_actWhen hs h fun _ => by
    split
    · next hf =>
      obtain ⟨hok, hrun⟩ := resumeNode_nodeOk (reason := 0x02) (kind := kPOWER) hs hf
      exact pwrfail_nodeOk hok hrun
    · next hf =>
      refine pwrfail_nodeOk hs ?_
      cases hr : s.node.freeze with
      | running => rfl
      | frozen => exact absurd hr hf

theorem execPwrfailHalt_nodeOk {s s' : State} (hs : nodeOk s.node) (h : execPwrfailHalt s = .next s') : nodeOk s'.node :=
  nodeOk_of_actWhen hs h fun hc => by
    simp only [Bool.and_eq_true] at hc
    obtain ⟨hrun, -⟩ := (clocked_iff s).1 hc.1.1
    refine nodeOk_of_core_eq (pwrRecord_core _) ?_
    rw [haltEmbers_node, State.modNode_node]
    obtain ⟨hhb, -, -, -, hhold, hcal⟩ := hs
    simp_all [nodeOk]

theorem execPwrfailHeartbeatStop_nodeOk {s s' : State} (hs : nodeOk s.node) (h : execPwrfailHeartbeatStop s = .next s') :
    nodeOk s'.node :=
  nodeOk_of_actWhen hs h fun hc => by
    simp only [Bool.and_eq_true] at hc
    obtain ⟨hrun, -⟩ := (clocked_iff s).1 hc.1.1
    rw [State.modNode_node, stopHeartbeat_node]
    obtain ⟨-, -, -, -, hhold, -⟩ := hs
    simp_all [nodeOk]

/-! ## The TAP -/

theorem tapInstruction_core (op : BitVec 8) (s : State) : (tapInstruction op s).node.core = s.node.core := by
  rw [tapInstruction, State.modNode_node, core_tapOut_tapIr]

theorem execSinterResume_nodeOk {high : Bool} {s s' : State} (hs : nodeOk s.node) (h : execSinterResume high s = .next s') :
    nodeOk s'.node := by
  cases h
  have hok := nodeOk_of_core_eq (tapInstruction_core 0x41 s) hs
  dsimp only
  split
  · exact hok
  · next hf =>
    split
    · exact (resumeNode_nodeOk hok (by simpa [State.frozen] using hf)).1
    · exact hok

theorem sinterCapture_core (s : State) : (sinterCapture s).node.core = s.node.core := by
  unfold sinterCapture
  split <;> rfl

theorem execSinterRead_nodeOk {seg word : BitVec 16} {s s' : State} (hs : nodeOk s.node)
    (h : execSinterRead seg word s = .next s') : nodeOk s'.node := by
  cases h
  refine nodeOk_of_core_eq ?_ hs
  rw [sinterCapture_core, State.modNode_node, core_sinterSeg_sinterWord, tapInstruction_core]

theorem memaccFail_core (write uncorr off : Bool) (addr : BitVec 20) (data : BitVec 64) (s : State) :
    (memaccFail write uncorr off addr data s).node.core = s.node.core := by
  cases write <;> rfl

theorem memaccAccess_core (write : Bool) (addr : BitVec 20) (data : BitVec 64) (s : State) :
    (memaccAccess write addr data s).node.core = s.node.core := by
  simp only [memaccAccess]
  split
  · exact memaccFail_core ..
  · split
    · rw [State.modNode_node, core_memacc_memaccWritten, State.spmStore_node]
    · split
      · exact memaccFail_core ..
      · rw [State.modNode_node, core_memacc]

theorem execMemacc_nodeOk {write : Bool} {addr : BitVec 20} {data : BitVec 64} {s s' : State} (hs : nodeOk s.node)
    (h : execMemacc write addr data s = .next s') : nodeOk s'.node := by
  cases h
  exact nodeOk_of_core_eq ((memaccAccess_core ..).trans (tapInstruction_core ..)) hs

/-- A scan of the boundary register moves no part of the node's own state. -/
theorem boundaryScan_nodeOk {pins shift : BitVec 149} {op : BitVec 8} {s : State} (hs : nodeOk s.node) :
    nodeOk (boundaryScan pins shift (tapInstruction op s)).node := by
  refine nodeOk_of_core_eq ?_ hs
  simp only [boundaryScan]
  rw [State.modNode_node, core_boundary_preload, tapInstruction_core]

theorem execExtest_nodeOk {pins shift : BitVec 149} {s s' : State} (hs : nodeOk s.node)
    (h : execExtest pins shift s = .next s') : nodeOk s'.node := by
  cases h
  exact boundaryScan_nodeOk hs

theorem execSamplePreload_nodeOk {pins shift : BitVec 149} {s s' : State} (hs : nodeOk s.node)
    (h : execSamplePreload pins shift s = .next s') : nodeOk s'.node := by
  cases h
  exact boundaryScan_nodeOk hs

theorem execBypass_nodeOk {s s' : State} (hs : nodeOk s.node) (h : execBypass s = .next s') : nodeOk s'.node := by
  cases h
  exact nodeOk_of_core_eq (tapInstruction_core 0xFF s) hs

/-! ## Every command, and a cycle with none -/

theorem exec_nodeOk {s s' : State} (hs : nodeOk s.node) : ∀ {c : Instr}, exec c s = .next s' → nodeOk s'.node := by
  intro c h
  by_cases hc : changesNode c = false
  · rwa [exec_node hc h]
  · cases c with
    | powerOn => exact execPowerOn_nodeOk hs h
    | resetN => exact execResetN_nodeOk hs h
    | resetNRelease => exact execResetNRelease_nodeOk hs h
    | calderaExit => exact execCalderaExit_nodeOk hs h
    | warmRestart => exact execWarmRestart_nodeOk hs h
    | k0 => exact execK0_nodeOk hs h
    | k1 => exact execK1_nodeOk hs h
    | plugAbsent => exact execPlugAbsent_nodeOk hs h
    | k2 => exact execK2_nodeOk hs h
    | k3 => exact execK3_nodeOk hs h
    | k4 => exact execK4_nodeOk hs h
    | k5 => exact execK5_nodeOk hs h
    | k6 => exact execK6_nodeOk hs h
    | mfeAbsent => exact execMfeAbsent_nodeOk hs h
    | k7 => exact execK7_nodeOk hs h
    | k8 => exact execK8_nodeOk hs h
    | pwrfail => exact execPwrfail_nodeOk hs h
    | pwrfailHalt => exact execPwrfailHalt_nodeOk hs h
    | pwrfailHeartbeatStop => exact execPwrfailHeartbeatStop_nodeOk hs h
    | plugInserted => exact execPlugInserted_nodeOk hs h
    | plugRemoved => exact execPlugRemoved_nodeOk hs h
    | plugHold => exact execPlugHold_nodeOk hs h
    | plugHoldRelease => exact execPlugHoldRelease_nodeOk hs h
    | refFail => exact execRefFail_nodeOk hs h
    | coreUnlock => exact execCoreUnlock_nodeOk hs h
    | auxUnlock => exact execAuxUnlock_nodeOk hs h
    | rtcFail => exact execRtcFail_nodeOk hs h
    | caldera => exact execCaldera_nodeOk hs h
    | freeze => exact execFreeze_nodeOk hs h
    | sinterResume => exact execSinterResume_nodeOk hs h
    | sinterRead => exact execSinterRead_nodeOk hs h
    | memacc => exact execMemacc_nodeOk hs h
    | extest => exact execExtest_nodeOk hs h
    | samplePreload => exact execSamplePreload_nodeOk hs h
    | bypass => exact execBypass_nodeOk hs h
    | _ => exact absurd rfl hc

theorem tickOutside_core (s : State) : (tickOutside s).node.core = s.node.core := by
  simp only [tickOutside]
  split <;> simp

theorem tickPower_nodeOk {s : State} (hs : nodeOk s.node) : nodeOk (tickPower s).node := by
  unfold tickPower
  split
  · next hp =>
    obtain ⟨-, hfrz, -, hstop, hhold, -⟩ := hs
    rw [State.modNode_node]
    simp_all [nodeOk]
  · exact hs

theorem tick_nodeOk {s : State} (hs : nodeOk s.node) : nodeOk (tick s).node := by
  have hout : nodeOk (tickOutside (tickMfe (tickRtc s))).node := by
    refine nodeOk_of_core_eq ((tickOutside_core _).trans ?_) hs
    rw [node_of_hide (tickMfe_hide _ _ (by decide)), node_of_hide (tickRtc_hide _ _ (by decide))]
  unfold tick
  dsimp only
  split
  · exact hout
  · split
    · exact hout
    · refine tickPower_nodeOk ?_
      rwa [node_of_hide (tickMarch_hide _ _ (by decide)), node_of_hide (tickGeyser_hide _ _ (by decide)),
        node_of_hide (tickPending_hide _ _ (by decide)), node_of_hide (tickTime_hide _ _ (by decide)),
        node_of_hide (State.each_hide _ _ _ _ fun e s => tickEmber_hide e s _ (by decide))]

theorem tick_pending (s : State) : (tick s).pending = s.pending :=
  only_node_others (k := 67898967) (by decide) (tick_hide s _ rfl) .pending (by decide)

/-- Settles O41: each command that changes the node keeps its standing conditions, no other command touches the node, and a
cycle with no command only completes a PWRFAIL sequence. -/
theorem nodeInvariantKept : Obligations.NodeInvariantKept := by
  unfold Obligations.NodeInvariantKept
  intro s s' hs h
  unfold step at h
  split at h
  · next hp =>
    cases h
    exact ⟨tick_nodeOk hs, by rw [tick_pending, hp]; rfl⟩
  · next c cs hp =>
    exact ⟨exec_nodeOk (s := { s with pending := cs }) hs h, by rw [exec_pending h, hp]; rfl⟩

end Sys2Proof.Safety
end

section
/-! The resets that begin Kindling anew (R31, R101, R102, R487, R503): what each keeps, and when its pins are not acted on. -/

namespace Sys2Proof.Safety
open Sys2Proof.Machine

/-! ## Commands whose condition holds, or does not (log entry 8) -/

theorem actWhen_of_true {c : Bool} {f : State → State} {s : State} (hc : c = true) : actWhen c f s = .next (f s) := by
  rw [actWhen, if_pos hc]

theorem actWhen_of_false {c : Bool} {f : State → State} {s : State} (hc : c = false) : actWhen c f s = .next s := by
  rw [actWhen, if_neg (by rw [hc]; decide)]

theorem only_refl (l : List Part) (s : State) : only l s s := only_of_hide (Nat.and_zero _) rfl

/-! ## What a reset keeps (Table 03-1) -/

/-- Of an Ember, every reset but power-on keeps the W registers alone. -/
theorem coldReset_emb {kind : ResetKind} (hk : kind ≠ .powerOn) (s : State) (e : Fin 4) :
    (coldReset kind s).emb[e] = { Ember.reset with w := s.emb[e].w } := by
  cases kind with
  | powerOn => exact absurd rfl hk
  | _ => exact Vector.getElem_map ..

theorem holdInReset_emb {kind : ResetKind} (hk : kind ≠ .powerOn) (s : State) (e : Fin 4) :
    (holdInReset kind s).emb[e] = { Ember.reset with w := s.emb[e].w } := coldReset_emb hk s e

theorem keepFirst_first_valid (s r : State) :
    (keepFirst s r).get F.FLT_STATUS_FIRST_VALID = s.get F.FLT_STATUS_FIRST_VALID := by
  simp only [keepFirst, State.get_col]
  rw [State.get_put_apart _ _ _ _ (by decide) (by decide), State.get_put_same _ _ _ (by decide)]
  exact Nat.mod_eq_of_lt (State.get_lt _ s)

theorem keepFirst_first_retained (s r : State) : (keepFirst s r).get F.FLT_STATUS_FIRST_RETAINED = 1 := by
  simp only [keepFirst, State.get_col]
  exact State.get_put_same _ _ _ (by decide)

/-! ## RESET_N and CALDERA_EXIT -/

/-- With no plug read, nothing is left to do before a reset. -/
theorem beforeReset_of_no_plug {s : State} (h : s.plugKnown = false ∨ s.node.plugPresent = false) : beforeReset s = s := by
  unfold beforeReset
  rw [if_neg (by rcases h with h | h <;> simp [h])]

theorem exec_resetN {s : State} (htaken : s.resetTaken = true) (hcal : s.node.phase ≠ .caldera)
    (hplug : s.plugKnown = false ∨ s.node.plugPresent = false) : exec .resetN s = .next (holdInReset .resetN s) := by
  simp only [exec, execResetN]
  rw [actWhen_of_true (by simp [htaken, hcal]), beforeReset_of_no_plug hplug]

/-- Caldera whose steps are complete leaves nothing to go on with. -/
theorem continueCaldera_of_done {s : State} (h : s.node.calderaStep = 2) : continueCaldera s = s := by
  unfold continueCaldera
  rw [if_neg (by simp [h])]

theorem exec_calderaExit {s : State} (htaken : s.resetTaken = true) (hcal : s.node.phase = .caldera)
    (hdone : s.node.calderaStep = 2) : exec .calderaExit s =
      .next (holdInReset .calderaExit (s.modNode fun x => { x with freeze := .running })) := by
  simp only [exec, execCalderaExit]
  rw [actWhen_of_true (by simp [htaken, hcal]), continueCaldera_of_done (by exact hdone)]

/-! ## POWER_ON -/

/-- The state that POWER_ON begins from: the RTC counted on without power, and the pins as they stand. -/
def poweredUp (off : BitVec 64) (rl hl : Bool) (s : State) : State :=
  (s.modT fun t => { t with rtc := t.rtc + off }).modNode fun x => { x with resetLow := rl, holdLow := hl }

/-- The supplies as the power monitor sees them at power-on. -/
def suppliesShown (vbulk : Nat) (vaux conv : Bool) (s : State) : State :=
  ((s.put F.BAR_SUPPLY_VBULK vbulk).putBit F.BAR_SUPPLY_VAUX_OK vaux).putBit F.BAR_SUPPLY_CONV_OK conv

/-- The node after POWER_ON, before it goes on from the reset that POWER_ON makes. -/
def poweredOn (vbulk : Nat) (vaux conv rl hl : Bool) (off : BitVec 64) (s : State) : State :=
  (suppliesShown vbulk vaux conv (coldReset .powerOn (poweredUp off rl hl s))).modNode fun x => { x with heldInReset := rl }

theorem exec_powerOn {low vaux conv rl hl : Bool} {vbulk : BitVec 16} {off : BitVec 64} {s : State}
    (hv : 1650 ≤ vbulk.toNat) (hpwr : s.node.pwr = .complete) : exec (.powerOn low vbulk vaux conv off rl hl) s =
      .next (if rl = true then poweredOn vbulk.toNat vaux conv rl hl off s
        else beginK0 (poweredOn vbulk.toNat vaux conv rl hl off s)) := by
  simp only [exec, execPowerOn]
  exact actWhen_of_true (by simp [hv, hpwr])

theorem beginK0_node (s : State) : (beginK0 s).node =
    if s.node.holdLow = true then { s.node with phase := .hold, pvdd := false } else s.node := by
  unfold beginK0
  split <;> rfl

theorem beginK0_only (s : State) : only [.node] s (beginK0 s) :=
  only_of_hide (k := 16) (by decide) (beginK0_hide s 16 rfl)

theorem poweredOn_get (vbulk : Nat) (vaux conv rl hl : Bool) (off : BitVec 64) (s : State) (f : Field) :
    (poweredOn vbulk vaux conv rl hl off s).get f =
      (suppliesShown vbulk vaux conv (coldReset .powerOn (poweredUp off rl hl s))).get f := by
  rw [poweredOn, State.modNode, State.get_node]

/-- How the reset of POWER_ON goes on: held, in plug hold, or in K0. -/
theorem poweredOn_goes_on (vbulk : Nat) (vaux conv rl hl : Bool) (off : BitVec 64) (s : State) :
    let t := poweredOn vbulk vaux conv rl hl off s
    let u := if rl = true then t else beginK0 t
    only [.node] t u ∧
      u.node = { t.node with phase := if hl = true ∧ rl = false then .hold else .k0, pvdd := !hl } := by
  intro t
  cases rl with
  | true => exact ⟨only_refl _ t, by cases hl <;> rfl⟩
  | false =>
    refine ⟨beginK0_only t, (beginK0_node t).trans ?_⟩
    cases hl <;> rfl

theorem get_of_only_node {s t : State} (h : only [.node] s t) (f : Field) : t.get f = s.get f :=
  congrArg (regGet · f) (h .regs (by decide))

/-- A field cleared by its own mask reads 0. -/
theorem field_of_and_not_mask (f : Field) (hf : f.Fits) (w : Word) : f.of (w &&& ~~~f.mask) = 0 := by
  have hz : f.into 0 w = w &&& ~~~f.mask := by
    rw [Field.into, Nat.zero_mod, Nat.zero_mul]
    exact BitVec.or_zero
  rw [← hz, Field.of_into f hf, Nat.zero_mod]

theorem coldReset_pwrfail (s : State) : (coldReset .powerOn s).get F.BAR_SUPPLY_PWRFAIL = 0 := by
  have hreg : (coldReset .powerOn s).reg 0x400C0004 = s.reg 0x400C0004 &&& ~~~F.BAR_SUPPLY_PWRFAIL.mask := by
    simp only [coldReset, reduceCtorEq, if_false]
    exact tabGet_set_same ..
  exact (congrArg F.BAR_SUPPLY_PWRFAIL.of hreg).trans (field_of_and_not_mask _ (by decide) _)

theorem bit_of_get {s : State} {f : Field} {b : Bool} (h : s.get f = b.toNat) : s.bit f = b := by
  unfold State.bit
  cases b <;> simp_all

/-- The four fields of BAR.SUPPLY (Table 02-7) stand side by side: three are written, PWRFAIL is not. -/
theorem suppliesShown_supply {vbulk : Nat} (hv : vbulk < 2 ^ 16) (vaux conv : Bool) (s : State) :
    (suppliesShown vbulk vaux conv s).get F.BAR_SUPPLY_VBULK = vbulk ∧
      (suppliesShown vbulk vaux conv s).get F.BAR_SUPPLY_VAUX_OK = vaux.toNat ∧
      (suppliesShown vbulk vaux conv s).get F.BAR_SUPPLY_CONV_OK = conv.toNat ∧
      (suppliesShown vbulk vaux conv s).get F.BAR_SUPPLY_PWRFAIL = s.get F.BAR_SUPPLY_PWRFAIL := by
  simp only [suppliesShown, State.putBit]
  refine ⟨?_, ?_, ?_, ?_⟩
  · rw [State.get_put_apart _ _ _ _ (by decide) (by decide), State.get_put_apart _ _ _ _ (by decide) (by decide),
      State.get_put_same _ _ _ (by decide)]
    exact Nat.mod_eq_of_lt hv
  · rw [State.get_put_apart _ _ _ _ (by decide) (by decide), State.get_put_same _ _ _ (by decide)]
    exact Nat.mod_eq_of_lt (Bool.toNat_lt vaux)
  · rw [State.get_put_same _ _ _ (by decide)]
    exact Nat.mod_eq_of_lt (Bool.toNat_lt conv)
  · rw [State.get_put_apart _ _ _ _ (by decide) (by decide), State.get_put_apart _ _ _ _ (by decide) (by decide),
      State.get_put_apart _ _ _ _ (by decide) (by decide)]

/-! ## RESET_N_RELEASE -/

theorem exec_resetNRelease {s : State} (hheld : s.node.heldInReset = true) (hlow : s.node.resetLow = true)
    (hpwr : s.node.pwr = .none) : exec .resetNRelease s =
      .next (beginK0 (s.modNode fun x => { x with heldInReset := false, resetLow := false, phaseAt := s.cycles })) := by
  simp only [exec, execResetNRelease]
  rw [actWhen_of_true (by simp [hheld, hlow, hpwr])]

/-- Settles O35: each of the four commands is one reset of the node, whose parts read off its definition; the supplies and the
first fault are register fields written last. -/
theorem resetsBegin : Obligations.ResetsBegin := by
  unfold Obligations.ResetsBegin
  refine ⟨fun s htaken hcal hplug => ?_, fun s htaken hcal hdone => ?_,
    fun low vaux conv rl hl vbulk off s hlo hhi hpwr => ?_, fun s hheld hlow hpwr => ?_, fun s => ?_⟩
  · exact ⟨_, exec_resetN htaken hcal hplug, rfl, rfl, rfl, rfl, rfl, holdInReset_emb (by decide) s, rfl, rfl, rfl, rfl, rfl,
      rfl, rfl, rfl, rfl, rfl, rfl, rfl, rfl, rfl, rfl⟩
  · refine ⟨_, exec_calderaExit htaken hcal hdone, rfl, rfl, rfl, rfl, rfl, keepFirst_first_valid _ _,
      keepFirst_first_retained _ _, fun e => ?_, rfl, rfl, rfl, rfl⟩
    rw [holdInReset_emb (by decide)]
    rfl
  · have hv : (BitVec.ofNat 16 vbulk).toNat = vbulk := Nat.mod_eq_of_lt hhi
    have hexec := exec_powerOn (low := low) (vaux := vaux) (conv := conv) (rl := rl) (hl := hl)
      (off := BitVec.ofNat 64 off) (by rwa [hv]) hpwr
    rw [hv] at hexec
    obtain ⟨honly, hnode⟩ := poweredOn_goes_on vbulk vaux conv rl hl (BitVec.ofNat 64 off) s
    obtain ⟨hvb, hva, hcv, hpf⟩ := suppliesShown_supply hhi vaux conv
      (coldReset .powerOn (poweredUp (BitVec.ofNat 64 off) rl hl s))
    have hget := fun f => (get_of_only_node honly f).trans (poweredOn_get ..)
    refine ⟨_, hexec, ?_, ?_, ?_, ?_, (hget _).trans hvb, bit_of_get ((hget _).trans hva), bit_of_get ((hget _).trans hcv),
      bit_of_get ((hget _).trans (hpf.trans (coldReset_pwrfail _))), congrArg TimeUnit.rtc (honly .tim (by decide)),
      honly .emb (by decide), honly .mfe (by decide), honly .pending (by decide), ?_⟩ <;> rw [hnode] <;> rfl
  · refine ⟨_, exec_resetNRelease hheld hlow hpwr, only_of_hide (k := 16) (by decide) ?_, ?_⟩
    · rw [beginK0_hide _ _ rfl]
      exact hide_node _ _ _ rfl
    · beta_reduce
      rw [beginK0_node]
      split <;> exact ⟨rfl, rfl, rfl, rfl, by simp_all⟩
  · simp only [exec, execResetN, execCalderaExit, execResetNRelease]
    refine ⟨fun h => ⟨actWhen_of_false ?_, actWhen_of_false ?_⟩, fun h => actWhen_of_false ?_,
      fun h => actWhen_of_false ?_, fun h => actWhen_of_false ?_⟩ <;> simp [h]

end Sys2Proof.Safety
end

section
/-! The plug's contacts and plug hold (R54 to R59), and the bypass supervisor with its coil and switch (R76 to R78, R411). -/

namespace Sys2Proof.Safety
open Sys2Proof.Machine

/-! ## PLUG_INSERTED and PLUG_REMOVED -/

theorem plugInserted_completes (mem : List (Nat × Byte)) (a b : Byte) {s : State} (h : s.node.plugPresent = false) :
    completes (.plugInserted mem a b) s [.node, .plug] fun t =>
      t.node = { s.node with plugPresent := true } ∧ t.plug.rdid = a ∧ t.plug.rdsr = b ∧
      ∀ x y, mem = [(x, y)] → x < 0x100000 → tabGet 0 t.plug.mem x = y := by
  refine ⟨_, by simp only [exec, execPlugInserted]; exact actWhen_of_true (by simp [h]),
    only_of_hide (k := 8388624) (by decide) ?_, rfl, rfl, rfl, fun x y hm hx => ?_⟩
  · exact (hide_node _ _ _ rfl).trans (hide_plug _ _ _ rfl)
  · subst hm
    simp only [List.foldl_cons, List.foldl_nil, if_pos hx]
    exact tabGet_set_same ..

theorem exec_plugRemoved {s : State} (h : s.node.plugPresent = true) : exec .plugRemoved s =
    .next ((s.when (s.clocked && !s.node.holdLow && s.plugKnown) plugLost).modNode fun x => { x with plugPresent := false }) := by
  simp only [exec, execPlugRemoved]
  exact actWhen_of_true h

/-- With no transfer under way and no record being written, the loss of the plug is its fault alone (R55). -/
theorem plugLost_of_idle {s : State} (hpeat : s.work.peat = []) (hxfer : s.plug.xfer = none) :
    plugLost s = s.raise { src := 0x14, kind := kPROTOCOL, cls := fatal, reason := 0x01 } := by
  simp only [plugLost, abortTransfer, hxfer, tearRecord, hpeat]

/-- A fault that is not corrected is queued or held: it is never dropped, and no counter moves (R486). -/
theorem raise_hide_col {f : FaultSpec} (hf : f.cls ≠ corrected) (s : State) : (s.raise f).hide 64 = s.hide 64 := by
  unfold State.raise State.sendRecord
  split
  · exact hide_col _ _ _ rfl
  · split
    · next hc => exact absurd hc hf
    · exact hide_col _ _ _ rfl

theorem plugRemoved_completes {s : State} (hp : s.node.plugPresent = true) (hk : s.plugKnown = true)
    (hh : s.node.holdLow = false) (hc : s.clocked = true) (hpeat : s.work.peat = []) (hxfer : s.plug.xfer = none) :
    completes .plugRemoved s [.node, .col] fun t => t.node.plugPresent = false ∧
      t.col = (s.raise { src := 0x14, kind := kPROTOCOL, cls := fatal, reason := 0x01 }).col := by
  have hexec := exec_plugRemoved hp
  simp only [hc, hh, hk, State.when, Bool.not_false, Bool.and_true, if_true, plugLost_of_idle hpeat hxfer] at hexec
  refine ⟨_, hexec, only_of_hide (k := 80) (by decide) ?_, rfl, rfl⟩
  exact (hide_node _ _ _ rfl).trans (hide_mono rfl (raise_hide_col (by decide) s))

/-! ## PLUG_HOLD and its release -/

/-- Nothing for step 5 of Table 02-4 to record. -/
theorem pwrRecord_of_none {s : State} (h : s.plugRead = false ∨ s.plugReachable = false ∨ s.node.pwrLogged = true) :
    pwrRecord s = s := by
  unfold pwrRecord
  rw [if_neg]
  rintro ⟨h1, h2, h3⟩
  simp_all

/-- PLUG_HOLD_N as the node sees it low. -/
def holdSeen (s : State) : State := s.modNode fun x => { x with holdLow := true }

/-- PLUG_HOLD by its cases: the hold's own steps, the record of a PWRFAIL sequence, or the pin alone (log entry 88). -/
theorem exec_plugHold (s : State) : exec .plugHold s = .next (State.modNode (fun x => { x with pvdd := false })
    (if (s.clocked && s.node.phase != .hold) = true then
      (if s.node.pwr = .none then enterHold (holdSeen s) else if s.node.pwr = .running then pwrRecord (holdSeen s) else holdSeen s)
    else holdSeen s)) := rfl

/-- PLUG_HOLD_N low is a pin alone where the node is frozen, in reset or in hold, and in a PWRFAIL sequence with nothing to
record. -/
theorem exec_plugHold_pin {s : State} (h : s.clocked = false ∨ s.node.phase = .hold ∨ s.node.pwr ≠ .none ∧
      (s.node.pwr = .running → s.plugRead = false ∨ s.plugReachable = false ∨ s.node.pwrLogged = true)) :
    exec .plugHold s = .next { s with node := { s.node with holdLow := true, pvdd := false } } := by
  rw [exec_plugHold]
  rcases h with h | h | ⟨hn, hrec⟩
  · rw [if_neg (by simp [h])]
    rfl
  · rw [if_neg (by simp [h])]
    rfl
  · rw [if_neg hn]
    have hsame : s.node.pwr = .running → pwrRecord (holdSeen s) = holdSeen s := fun hrun => pwrRecord_of_none (hrec hrun)
    split
    · split
      · rw [hsame ‹_›]
        rfl
      · rfl
    · rfl

/-- The rest of plug hold (R57), before K4: the outputs and the engines stop. -/
def holdStops (s : State) : State :=
  let s := geyserHalt (endDrain (haltEmbers (setLeaving (stopHeartbeat (sendFailnow s)))))
  { s with hrt := { s.hrt with timersStopped := true } }

theorem enterHold_of_early {s : State}
    (h : s.node.phase = .k0 ∨ s.node.phase = .k1 ∨ s.node.phase = .k2 ∨ s.node.phase = .k3) :
    enterHold s = (holdStops s).modNode fun x => { x with phase := .hold, lvOn := false, pvdd := false } := by
  rcases h with h | h | h | h <;> simp [enterHold, holdStops, State.plugKnown, Phase.afterK3, h]

theorem holdStops_parts (s : State) : (holdStops s).spm = s.spm ∧ (holdStops s).plug = s.plug ∧
    (holdStops s).emb = (haltEmbers s).emb ∧ (holdStops s).node = { s.node with heartbeat := false } := by
  have hbefore : (setLeaving (stopHeartbeat (sendFailnow s))).emb = s.emb :=
    (only_of_hide (k := 4325393) (l := [.regs, .node, .bar, .ring]) (by decide) (by simp)) .emb (by decide)
  have hframe : (holdStops s).hide 37882641 = s.hide 37882641 := (hide_hrt _ _ _ rfl).trans (by simp)
  have hafter : ∀ r : State, (geyserHalt (endDrain r)).emb = r.emb := fun r =>
    (only_of_hide (k := 33556736) (l := [.hrt, .gsr, .dist]) (by decide) (by simp)) .emb (by decide)
  have honly := only_of_hide (l := [.regs, .node, .hrt, .emb, .gsr, .bar, .ring, .dist]) (by decide) hframe
  refine ⟨honly .spm (by decide), honly .plug (by decide), ?_, by simp [holdStops]⟩
  simp only [holdStops, hafter, haltEmbers, hbefore]

theorem modNode_modNode (f g : Node → Node) (s : State) : (s.modNode f).modNode g = s.modNode fun x => g (f x) := rfl

theorem exec_plugHold_early {s : State} (hc : s.clocked = true) (hpwr : s.node.pwr = .none)
    (h : s.node.phase = .k0 ∨ s.node.phase = .k1 ∨ s.node.phase = .k2 ∨ s.node.phase = .k3) : exec .plugHold s =
      .next ((holdStops (holdSeen s)).modNode fun x => { x with phase := .hold, lvOn := false, pvdd := false }) := by
  have hne : s.node.phase ≠ .hold := by rcases h with h | h | h | h <;> simp [h]
  rw [exec_plugHold, if_pos (by simp [hc, hne]), if_pos hpwr, enterHold_of_early (s := holdSeen s) h, modNode_modNode]

theorem plugHold_early {s : State} (hc : s.clocked = true) (hpwr : s.node.pwr = .none)
    (h : s.node.phase = .k0 ∨ s.node.phase = .k1 ∨ s.node.phase = .k2 ∨ s.node.phase = .k3) :
    ∃ t, exec .plugHold s = .next t ∧ t.node.phase = .hold ∧ t.node.pvdd = false ∧ t.node.heartbeat = false ∧
      t.node.holdLow = true ∧ t.node.lvOn = false ∧ t.spm = s.spm ∧ t.plug.mem = s.plug.mem ∧
      ∀ e : Fin 4, t.emb[e].halted = true ∧ t.emb[e].w = s.emb[e].w := by
  obtain ⟨hspm, hplug, hemb, hnode⟩ := holdStops_parts (holdSeen s)
  have hembers : ∀ e : Fin 4, (haltEmbers (holdSeen s)).emb[e].halted = true ∧
      (haltEmbers (holdSeen s)).emb[e].w = s.emb[e].w := fun e => by
    simp [haltEmbers, holdSeen, State.modNode]
  refine ⟨_, exec_plugHold_early hc hpwr h, ?_⟩
  simp only [State.modNode, hspm, hplug, hemb, hnode, hembers, true_and, and_true, implies_true]
  exact ⟨rfl, rfl, rfl⟩

/-- PLUG_HOLD_N as the node sees it high, PVDD back unless in hold. -/
def holdUnseen (s : State) : State := s.modNode fun x => { x with holdLow := false, pvdd := x.phase != .hold }

/-- PLUG_HOLD_RELEASE with no patch: a reset of the node in hold, elsewhere the pin alone (R58, log entry 88). -/
theorem exec_plugHoldRelease {s : State} (hlow : s.node.holdLow = true) : exec (.plugHoldRelease []) s = .next (
    if ((s.node.phase == .hold || s.node.phase == .caldera && s.node.calderaFrom == .hold) && s.clocked &&
      s.node.pwr == .none) = true then coldReset .resetN (holdUnseen s) else holdUnseen s) := by
  simp only [exec, execPlugHoldRelease, List.foldl_nil, ite_self]
  rw [actWhen_of_true hlow]
  rfl

theorem exec_plugHoldRelease_pin {s : State} (hlow : s.node.holdLow = true)
    (hstay : s.clocked = false ∨ s.node.pwr ≠ .none ∨
      s.node.phase ≠ .hold ∧ (s.node.phase = .caldera → s.node.calderaFrom ≠ .hold)) :
    exec (.plugHoldRelease []) s = .next (holdUnseen s) := by
  rw [exec_plugHoldRelease hlow, if_neg]
  rcases hstay with h | h | ⟨h, hcal⟩
  · simp [h]
  · simp [h]
  · by_cases hc : s.node.phase = .caldera
    · simp [hc, hcal hc]
    · simp [h, hc]

/-- Of an Ember, RESET_N's reset keeps the W registers. -/
theorem coldReset_resetN_w (s : State) (e : Fin 4) : (coldReset .resetN s).emb[e].w = s.emb[e].w := by
  rw [coldReset_emb (by decide)]

theorem exec_plugHoldRelease_begins {s : State} (hc : s.clocked = true) (hph : s.node.phase = .hold)
    (hlow : s.node.holdLow = true) (hpwr : s.node.pwr = .none) :
    exec (.plugHoldRelease []) s = .next (coldReset .resetN (holdUnseen s)) := by
  rw [exec_plugHoldRelease hlow, if_pos (by simp [hc, hph, hpwr])]

/-! ## The supervisor's coil (R77, R78) -/

theorem setCoil_sup (on : Bool) (s : State) : (setCoil on s).sup.coil = on ∧ (setCoil on s).sup.hbLost = s.sup.hbLost ∧
    (setCoil on s).sup.switchIn = s.sup.switchIn := by
  unfold setCoil
  split
  · next h => exact ⟨h, rfl, rfl⟩
  · exact ⟨rfl, rfl, rfl⟩

theorem heartbeatLost_completes {s : State} (hhb : s.node.heartbeat = false) (hl : s.sup.hbLost = false) :
    completes .heartbeatLost s [.sup] fun t =>
      t.sup.hbLost = true ∧ t.sup.coil = false ∧ t.sup.switchIn = s.sup.switchIn := by
  obtain ⟨hcoil, hlost, hswitch⟩ := setCoil_sup false { s with sup := { s.sup with hbLost := true } }
  refine ⟨_, by simp only [exec, execHeartbeatLost]; exact actWhen_of_true (by simp [hhb, hl]),
    only_of_hide (k := 32) (by decide) ?_, hlost, hcoil, hswitch⟩
  exact (setCoil_hide _ _ _ rfl).trans (hide_sup _ _ _ rfl)

theorem coilEnergise_completes {s : State} (hc : s.clocked = true) (hhb : s.node.heartbeat = true)
    (hcoil : s.sup.coil = false) (hreq : s.ring.requested = true) (ht : s.node.hbAt + msCycles 10 ≤ s.cycles) :
    completes .coilEnergise s [.sup] fun t => t.sup.coil = true ∧ t.sup.switchIn = s.sup.switchIn := by
  obtain ⟨hon, -, hswitch⟩ := setCoil_sup true s
  exact ⟨_, by simp only [exec, execCoilEnergise]; exact actWhen_of_true (by simp [hc, hhb, hcoil, hreq, ht]),
    only_of_hide (k := 32) (by decide) (setCoil_hide _ _ _ rfl), hon, hswitch⟩

/-! ## The switch (R78, R411) -/

/-- What the ring line holds of the bypass switch. -/
def switchFlags (s : State) : Option Nat × Bool × Bool := (s.ring.switchAt, s.ring.inserting, s.ring.leaving)

@[simp] theorem put_switchFlags (f : Field) (v : Nat) (s : State) : switchFlags (s.put f v) = switchFlags s := by
  simp [switchFlags]

@[simp] theorem count_switchFlags (f : Field) (n : Nat) (s : State) : switchFlags (s.count f n) = switchFlags s := by
  simp [switchFlags]

@[simp] theorem draw_switchFlags (s : State) : switchFlags s.draw.2 = switchFlags s := by
  simp [switchFlags]

@[simp] theorem modPort_switchFlags (p : Fin 4) (f : Port → Port) (s : State) :
    switchFlags (s.modPort p f) = switchFlags s := by
  simp [switchFlags, State.modPort, State.modRing]

@[simp] theorem modPerf_switchFlags (p : Fin 4) (f : PortPerf → PortPerf) (s : State) :
    switchFlags (s.modPerf p f) = switchFlags s := by
  simp [switchFlags, State.modPerf, State.modRing]

@[simp] theorem lineEvent_switchFlags (p : Fin 4) (f : Field) (b : Nat) (s : State) :
    switchFlags (s.lineEvent p f b) = switchFlags s := by
  simp [switchFlags, State.lineEvent]

theorem ite_switchFlags {c : Prop} [Decidable c] (a b : State) :
    switchFlags (if c then a else b) = if c then switchFlags a else switchFlags b := apply_ite ..

@[simp] theorem setLine_switchFlags (p : Fin 4) (st : Nat) (s : State) : switchFlags (setLine p st s) = switchFlags s := by
  simp only [setLine, modPort_switchFlags, ite_switchFlags, modPerf_switchFlags, put_switchFlags, lineEvent_switchFlags,
    ite_self]

@[simp] theorem enterT1_switchFlags (p : Fin 4) (s : State) : switchFlags (enterT1 p s) = switchFlags s := by
  simp only [enterT1, modPerf_switchFlags, ite_switchFlags, put_switchFlags, ite_snd_, draw_switchFlags, ite_self, count_switchFlags,
    setLine_switchFlags, modPort_switchFlags]

/-- The switch at the inserted position: training from T1, and INSERT reads 3 (R411, Table 12-11). -/
theorem switchInserted_inserting (s : State) : switchFlags (switchInserted s) = (some s.cycles, true, s.ring.leaving) ∧
    (switchInserted s).get F.RING_STATUS_INSERT = 3 := by
  refine ⟨?_, State.get_put_same F.RING_STATUS_INSERT 3 _ (by decide)⟩
  simp only [switchInserted, setInsert, put_switchFlags, enterT1_switchFlags]
  rfl

/-! ### The switch at bypass -/

/-- What the time election touches of the ring: neither its status register nor what it holds of the switch. -/
def switchView (s : State) : Word × (Option Nat × Bool × Bool) := (s.reg 0x40060400, switchFlags s)

theorem put_switchView {f : Field} (hf : 0x40060400 ≠ f.addr) (v : Nat) (s : State) : switchView (s.put f v) = switchView s := by
  rw [switchView, State.reg_put_ne f v s hf, put_switchFlags]
  rfl

theorem modT_switchView (f : TimeUnit → TimeUnit) (s : State) : switchView (s.modT f) = switchView s := by
  simp [switchView, switchFlags, State.reg]

theorem ite_switchView {c : Prop} [Decidable c] (a b : State) :
    switchView (if c then a else b) = if c then switchView a else switchView b := apply_ite ..

theorem raise_switchView (f : FaultSpec) (s : State) : switchView (s.raise f) = switchView s := by
  simp only [State.raise, State.sendRecord, ite_switchView, State.count]
  rw [put_switchView (by decide)]
  exact ite_eq_left_iff.2 fun _ => ite_self _

theorem timeEvent_switchView (f : Field) (hf : 0x40060400 ≠ f.addr) (s : State) :
    switchView (s.timeEvent f 95) = switchView s :=
  (put_switchView (f := cntField 95) (by decide) _ _).trans (put_switchView hf 1 s)

theorem noteValid_switchView (s : State) : switchView (noteValid s) = switchView s := by
  simp only [noteValid, ite_switchView]
  exact ite_self _

theorem setTimeState_switchView (n : Nat) (s : State) : switchView (setTimeState n s) = switchView s := by
  simp only [setTimeState, ite_switchView, modT_switchView, timeFault, raise_switchView, noteValid_switchView,
    timeEvent_switchView _ (by decide : 0x40060400 ≠ F.TIME_EVENT_STATE_CHANGED.addr),
    put_switchView (by decide : 0x40060400 ≠ F.TIME_STATUS_STATE.addr), ite_self]

theorem referenceChanged_switchView (s : State) : switchView (referenceChanged s) = switchView s := by
  simp only [referenceChanged, ite_switchView, setTimeState_switchView, modT_switchView, ite_self]

theorem leaveElection_switchView (s : State) : switchView (leaveElection s) = switchView s := by
  simp (disch := decide) only [leaveElection, adoptNothing, referenceChanged_switchView, modT_switchView, List.foldl_cons,
    List.foldl_nil, put_switchView]

theorem get_of_switchView {s t : State} (h : switchView t = switchView s) {f : Field} (hf : f.addr = 0x40060400) :
    t.get f = s.get f := by
  have hreg : t.reg 0x40060400 = s.reg 0x40060400 := congrArg Prod.fst h
  rw [State.get, State.get, regGet, regGet, hf]
  exact congrArg f.of hreg

/-- Neither port wrapped, and the switch no longer asked for. -/
def switchCleared (s : State) : Prop := s.ring.inserting = false ∧ s.ring.leaving = false ∧
  s.get F.RING_STATUS_WRAP_E = 0 ∧ s.get F.RING_STATUS_WRAP_W = 0

theorem switchCleared_of_view {s t : State} (h : switchView t = switchView s) (hs : switchCleared s) : switchCleared t := by
  obtain ⟨hins, hleav, he, hw⟩ := hs
  have hflags : switchFlags t = switchFlags s := congrArg Prod.snd h
  simp only [switchFlags, Prod.mk.injEq] at hflags
  exact ⟨hflags.2.1.trans hins, hflags.2.2.trans hleav, (get_of_switchView h rfl).trans he, (get_of_switchView h rfl).trans hw⟩

theorem switchBypassed_cleared (s : State) : switchCleared (switchBypassed s) := by
  unfold switchBypassed
  extract_lets observes st sup s₁ s₂ s₃ s₄
  have hput : ∀ f : Field, f.Fits → f.hi < F.RING_STATUS_INSERT.lo → ∀ n, (setInsert n s₄).get f = s₃.get f :=
    fun f hf hlt n => (State.get_put_apart _ _ _ _ hf (.inl hlt)).trans (State.modRing_get ..)
  refine switchCleared_of_view (leaveElection_switchView _) ⟨rfl, rfl, ?_, ?_⟩ <;> rw [hput _ (by decide) (by decide)]
  · exact (State.get_put_apart _ _ _ _ (by decide) (by decide)).trans (State.get_put_same _ _ _ (by decide))
  · exact State.get_put_same _ _ _ (by decide)

theorem switchBypassed_sup (s : State) : (switchBypassed s).sup = { s.sup with inserted := false } := by
  unfold switchBypassed
  extract_lets observes st sup s₁ s₂ s₃ s₄
  have hrest : ∀ n, (leaveElection (setInsert n s₄)).hide 4718785 = s₁.hide 4718785 := fun n => by
    simp [s₄, s₃, s₂]
  exact (only_of_hide (l := [.regs, .col, .ic, .tim, .ring]) (by decide) (hrest _)) .sup (by decide)

/-! ### SWITCH_POSITION -/

/-- The switch at its new position, as the supervisor and the node's pins see it. -/
def switchSeen (b : Bool) (s : State) : State := { s with sup := { s.sup with switchIn := b, changedAt := s.cycles } }

theorem exec_switchPosition {b : Bool} {s : State} (h : s.sup.switchIn ≠ b) : exec (.switchPosition b) s =
    .next (if s.node.freeze = .frozen then switchSeen b s else switchMoved (switchSeen b s)) := by
  simp only [exec, execSwitchPosition]
  exact actWhen_of_true (by simpa using h)

theorem exec_switchPosition_moved {b : Bool} {s : State} (h : s.sup.switchIn ≠ b) (hf : s.node.freeze ≠ .frozen) :
    exec (.switchPosition b) s = .next (switchMoved (switchSeen b s)) := by
  rw [exec_switchPosition h, if_neg hf]

theorem switchPosition_only {b : Bool} {s t : State} (h : exec (.switchPosition b) s = .next t) :
    only [.regs, .sup, .col, .ic, .tim, .ring, .free] s t :=
  only_of_hide (by decide) (execSwitchPosition_hide b s t h)

theorem switchMoved_inserted {s : State} (hin : s.sup.switchIn = true) (hlive : s.live = true)
    (hreq : s.ring.requested = true) : switchMoved s = switchInserted s := by
  rw [switchMoved, if_pos ⟨hin, hlive, hreq⟩]

theorem switchMoved_bypassed {s : State} (hin : s.sup.switchIn = false) : switchMoved s = switchBypassed s := by
  rw [switchMoved, if_neg (by simp [hin]), if_neg (by simp [hin])]

theorem switchIn_completes {s : State} (hf : s.node.freeze ≠ .frozen) (hout : s.sup.switchIn = false)
    (hlive : s.live = true) (hreq : s.ring.requested = true) :
    completes (.switchPosition true) s [.regs, .sup, .col, .ic, .tim, .ring, .free] fun t =>
        t.sup = { s.sup with switchIn := true, changedAt := s.cycles } ∧ t.ring.inserting = true ∧
        t.ring.switchAt = some s.cycles ∧ t.get F.RING_STATUS_INSERT = 3 := by
  have hexec := exec_switchPosition_moved (b := true) (by simp [hout]) hf
  rw [switchMoved_inserted (s := switchSeen true s) rfl hlive hreq] at hexec
  obtain ⟨hflags, hget⟩ := switchInserted_inserting (switchSeen true s)
  simp only [switchFlags, Prod.mk.injEq] at hflags
  refine ⟨_, hexec, switchPosition_only hexec, ?_, hflags.2.1, hflags.1, hget⟩
  exact (only_of_hide (k := 71303297) (l := [.regs, .ic, .ring, .free]) (by decide) (switchInserted_hide _ _ rfl)) .sup
    (by decide)

theorem switchOut_completes {s : State} (hf : s.node.freeze ≠ .frozen) (hin : s.sup.switchIn = true) :
    completes (.switchPosition false) s [.regs, .sup, .col, .ic, .tim, .ring, .free] fun t =>
        t.sup = { s.sup with switchIn := false, inserted := false, changedAt := s.cycles } ∧ t.ring.inserting = false ∧
        t.ring.leaving = false ∧ t.get F.RING_STATUS_WRAP_E = 0 ∧ t.get F.RING_STATUS_WRAP_W = 0 := by
  have hexec := exec_switchPosition_moved (b := false) (by simp [hin]) hf
  rw [switchMoved_bypassed rfl] at hexec
  exact ⟨_, hexec, switchPosition_only hexec, switchBypassed_sup _, switchBypassed_cleared _⟩

/-- Settles O37: each command acts in the one case its condition names and is a pin alone, or no occurrence, in the others. -/
theorem plugHoldAndBypass : Obligations.PlugHoldAndBypass := by
  unfold Obligations.PlugHoldAndBypass
  refine ⟨fun mem a b s => ⟨fun h => ?_, plugInserted_completes mem a b⟩, fun s => ⟨fun h => ?_, fun hp hno => ?_,
    plugRemoved_completes⟩, fun s => ⟨exec_plugHold_pin, plugHold_early, fun hc hph hlow hpwr _ => ?_,
      exec_plugHoldRelease_pin, fun h => ?_⟩, fun s => ⟨fun h => ?_, heartbeatLost_completes, fun hc hhb hcoil hreq =>
        ⟨coilEnergise_completes hc hhb hcoil hreq, fun ht => ?_⟩, fun hf hout => ?_, switchIn_completes, switchOut_completes,
        fun b h => ?_, fun hc hne ht => ?_, fun h => ?_⟩⟩
  · simp only [exec, execPlugInserted]
    exact actWhen_of_false (by simp [h])
  · simp only [exec, execPlugRemoved]
    exact actWhen_of_false h
  · rw [exec_plugRemoved hp, State.when, if_neg (by rcases hno with h | h | h <;> simp [h])]
    rfl
  · exact ⟨_, exec_plugHoldRelease_begins hc hph hlow hpwr, rfl, rfl, rfl, rfl, rfl, rfl, coldReset_resetN_w _⟩
  · simp only [exec, execPlugHoldRelease]
    exact actWhen_of_false h
  · simp only [exec, execHeartbeatLost]
    exact actWhen_of_false (by rcases h with h | h <;> simp [h])
  · simp only [exec, execCoilEnergise]
    exact actWhen_of_false (by simp [Nat.not_le.2 ht])
  · rw [exec_switchPosition (by simp [hout]), if_pos hf]
    rfl
  · simp only [exec, execSwitchPosition]
    exact actWhen_of_false (by simp [h])
  · simp only [exec, execSwitchMismatch]
    exact actWhen_of_true (by simp [hc, hne, ht])
  · simp only [exec, execSwitchMismatch]
    exact actWhen_of_false (by rcases h with h | h <;> simp [h])

end Sys2Proof.Safety
end

section
/-! Bytes of a block (R10, Table 02-5): a slice of a slice, of a block put together from parts, and a number read where its bytes
were written. -/

namespace Sys2Proof.Machine

/-! ## Slices -/

@[simp] theorem slice_length (l : List Byte) (off n : Nat) : (slice l off n).length = n := by simp [slice]

@[simp] theorem leBytes_length (n v : Nat) : (leBytes n v).length = n := by simp [leBytes]

theorem getD_slice (l : List Byte) (off n i : Nat) : (slice l off n).getD i 0 = if i < n then l.getD (off + i) 0 else 0 := by
  split
  · next h => simp [slice, List.getD_eq_getElem?_getD, h]
  · next h => simp [List.getD_eq_getElem?_getD, slice, h]

theorem byteAt_slice (l : List Byte) (off : Nat) {i n : Nat} (h : i < n) : byteAt (slice l off n) i = byteAt l (off + i) := by
  rw [byteAt, getD_slice, if_pos h, byteAt]

theorem slice_congr {a b : List Byte} {i j n : Nat} (h : ∀ k < n, a.getD (i + k) 0 = b.getD (j + k) 0) :
    slice a i n = slice b j n := List.map_congr_left fun k hk => h k (List.mem_range.1 hk)

theorem slice_slice (l : List Byte) {off i n m : Nat} (h : i + n ≤ m) : slice (slice l off m) i n = slice l (off + i) n :=
  slice_congr fun k hk => by rw [getD_slice, if_pos (by omega), Nat.add_assoc]

theorem slice_append_left {a : List Byte} (b : List Byte) {i n : Nat} (h : i + n ≤ a.length) : slice (a ++ b) i n = slice a i n :=
  slice_congr fun k hk => by
    simp only [List.getD_eq_getElem?_getD]
    rw [List.getElem?_append_left (by omega)]

theorem slice_append_right (a b : List Byte) (i n : Nat) : slice (a ++ b) (a.length + i) n = slice b i n :=
  slice_congr fun k hk => by
    simp only [List.getD_eq_getElem?_getD]
    rw [List.getElem?_append_right (by omega)]
    congr 2
    omega

theorem slice_self {l : List Byte} {n : Nat} (h : l.length = n) : slice l 0 n = l := by
  subst h
  refine List.ext_getElem (slice_length _ _ _) fun i h₁ h₂ => ?_
  simp [slice, h₂]

theorem leAt_slice (l : List Byte) {off i n m : Nat} (h : i + n ≤ m) : leAt (slice l off m) i n = leAt l (off + i) n := by
  rw [leAt, slice_slice l h, leAt]

/-! ## Numbers -/

theorem ofLe_lt (l : List Byte) : ofLe l < 256 ^ l.length := by
  induction l with
  | nil => simp [ofLe]
  | cons b l ih =>
    have hb := b.isLt
    simp only [ofLe, List.length_cons, Nat.pow_succ]
    omega

theorem leAt_lt (l : List Byte) (i n : Nat) : leAt l i n < 256 ^ n := by
  simpa [leAt] using ofLe_lt (slice l i n)

theorem leBytes_succ (n v : Nat) : leBytes (n + 1) v = BitVec.ofNat 8 v :: leBytes n (v / 256) := by
  simp [leBytes, List.range_succ_eq_map, Function.comp_def, Nat.pow_succ', Nat.div_div_eq_div_mul]

theorem ofLe_leBytes (n v : Nat) : ofLe (leBytes n v) = v % 256 ^ n := by
  induction n generalizing v with
  | zero => simp [leBytes, ofLe, Nat.mod_one]
  | succ n ih =>
    rw [leBytes_succ, ofLe, ih, Nat.pow_succ', Nat.mod_mul]
    simp

/-- A number is read where its bytes stand. -/
theorem leAt_written (a b : List Byte) {i : Nat} (n v : Nat) (h : a.length = i) :
    leAt (a ++ (leBytes n v ++ b)) i n = v % 256 ^ n := by
  subst h
  have hs := slice_append_right a (leBytes n v ++ b) 0 n
  rw [Nat.add_zero, slice_append_left b (by simp), slice_self (leBytes_length n v)] at hs
  rw [leAt, hs, ofLe_leBytes]

end Sys2Proof.Machine
end

section
/-! The MFE's answers to DOWN frames (02.6): what its own reports leave alone, and the one shape in which a request is carried out,
answered and stored, so that each command speaks of its own work only. -/

namespace Sys2Proof.Machine

/-! ## What no step of a repetition changes -/

theorem State.view_each {α β : Type} (view : State → β) {f : α → State → State} (h : ∀ a s, view (f a s) = view s) (l : List α)
    (s : State) : view (s.each l f) = view s := by
  induction l generalizing s with
  | nil => rfl
  | cons a l ih => exact (ih (f a s)).trans (h a s)

theorem State.view_when {β : Type} (view : State → β) {f : State → State} (h : ∀ s, view (f s) = view s) (c : Bool) (s : State) :
    view (s.when c f) = view s := by
  unfold State.when
  split
  · exact h s
  · rfl

/-! ## Reports and what they leave alone (R90, R92) -/

/-- What the MFE holds apart from its reports, the frame on its line and the teeth it has counted. -/
def Mfe.core (m : Mfe) : Mfe :=
  { m with ups := [], waiting := [], heldUps := [], nextSeq := 0, line := [], phases := m.phases.map fun x => { x with teeth := 0 } }

theorem Mfe.parts_of_core {m n : Mfe} (h : m.core = n.core) : m.powered = n.powered ∧ m.roms = n.roms ∧
    m.restarted = n.restarted ∧ m.link = n.link ∧ m.time = n.time ∧ m.offset = n.offset ∧ m.inRun = n.inRun ∧
    m.outRun = n.outRun ∧ m.sync = n.sync ∧ m.fail = n.fail ∧ m.enable = n.enable ∧ m.failHeld = n.failHeld ∧
    m.hold = n.hold ∧ m.outs = n.outs ∧ m.ins = n.ins ∧ m.store = n.store := by
  injection h with hpowered hroms hrest hlink htime hoff hin hout hsync hfail hen hheld hhold houts hins hph hstore
  exact ⟨hpowered, hroms, hrest, hlink, htime, hoff, hin, hout, hsync, hfail, hen, hheld, hhold, houts, hins, hstore⟩

theorem countTeeth_mfeCore (type : Byte) (payload : List Byte) (s : State) : (countTeeth type payload s).mfe.core = s.mfe.core := by
  unfold countTeeth
  split
  · next h =>
    simp only [State.modM, Mfe.core, Mfe.mk.injEq, true_and, and_true]
    ext i hi
    all_goals simp only [Vector.getElem_map, Vector.getElem_set]
    all_goals split <;> simp_all
  · rfl

theorem upTransmit_mfeCore (type : Byte) (payload : List Byte) (s : State) : (upTransmit type payload s).mfe.core = s.mfe.core :=
  countTeeth_mfeCore type payload _

theorem upSend_mfeCore (type : Byte) (payload : List Byte) (s : State) : (upSend type payload s).mfe.core = s.mfe.core := by
  unfold upSend
  dsimp only
  split
  · unfold State.modM holdUp
    dsimp only
    split <;> rfl
  · split
    · exact upTransmit_mfeCore type _ s
    · rfl

theorem flushHeld_mfeCore (s : State) : (flushHeld s).mfe.core = s.mfe.core :=
  State.view_each (fun s => s.mfe.core) (fun (r : UpReq) s => upSend_mfeCore r.type r.payload s) _ _

theorem sendWaitingUps_mfeCore (n : Nat) (s : State) : (sendWaitingUps n s).mfe.core = s.mfe.core := by
  induction n generalizing s with
  | zero => rfl
  | succ n ih =>
    unfold sendWaitingUps
    split
    · rfl
    · split
      · exact (ih _).trans (upTransmit_mfeCore _ _ _)
      · rfl

theorem sendHvEvent_mfeCore (what flags : Nat) (time : SysTime) (tag : Word) (s : State) :
    (sendHvEvent what flags time tag s).mfe.core = s.mfe.core :=
  State.view_when (fun s => s.mfe.core) (upSend_mfeCore _ _) _ s

theorem sendOptime_mfeCore (i : Fin 12) (s : State) : (sendOptime i s).mfe.core = s.mfe.core := upSend_mfeCore _ _ s

/-! ## A frame arrives -/

/-- The MFE once a sound frame has reached it: the link is up, heard now, and the reports held for it have gone. -/
def heardDown (s : State) : State := flushHeld (s.modM fun m => { m with link := true, heard := s.mfe.clock })

theorem heardDown_mfeCore (s : State) : (heardDown s).mfe.core = { s.mfe with link := true, heard := s.mfe.clock }.core :=
  flushHeld_mfeCore _

@[simp] theorem heardDown_parts (s : State) : let m := (heardDown s).mfe
    m.powered = s.mfe.powered ∧ m.roms = s.mfe.roms ∧ m.link = true ∧ m.time = s.mfe.time ∧ m.inRun = s.mfe.inRun ∧
    m.outRun = s.mfe.outRun ∧ m.sync = s.mfe.sync ∧ m.fail = s.mfe.fail ∧ m.enable = s.mfe.enable ∧
    m.failHeld = s.mfe.failHeld ∧ m.outs = s.mfe.outs ∧ m.ins = s.mfe.ins ∧ m.store = s.mfe.store := by
  obtain ⟨hpowered, hroms, -, hlink, htime, -, hin, hout, hsync, hfail, hen, hheld, -, houts, hins, hstore⟩ :=
    Mfe.parts_of_core (heardDown_mfeCore s)
  exact ⟨hpowered, hroms, hlink, htime, hin, hout, hsync, hfail, hen, hheld, houts, hins, hstore⟩

@[simp] theorem heardDown_enabled (s : State) : (heardDown s).mfe.enabled = s.mfe.enabled := by simp [Mfe.enabled]
@[simp] theorem heardDown_tooLate (s : State) (g : SysTime) : (heardDown s).mfe.tooLate g = s.mfe.tooLate g := by simp [Mfe.tooLate]

theorem heardDown_of_none_held {s : State} (h : s.mfe.heldUps = []) :
    heardDown s = s.modM fun m => { m with link := true, heard := s.mfe.clock } := by
  unfold heardDown flushHeld
  simp only [State.modM, h, State.each_nil]

/-- A sound frame of a type the command takes is carried out, once what it brings has been noted. -/
theorem downFrame_sound {f : List Byte} {ok : Byte → Bool} {k : State → State} {s : State} (hlen : f.length = 32)
    (hcrc : frameOk f = true) (hok : ok (fType f) = true) (hp : s.mfe.powered = true) :
    downFrame f ok k s = .next (k (heardDown s)) := by
  simp [downFrame, actWhen, hlen, hcrc, hok, hp, heardDown]

/-- A sound frame of another type is none of the command's, and nothing occurs (log entry 8). -/
theorem downFrame_otherType {f : List Byte} {ok : Byte → Bool} {k : State → State} {s : State} (hlen : f.length = 32)
    (hcrc : frameOk f = true) (hok : ok (fType f) = false) : downFrame f ok k s = .next s := by
  simp [downFrame, actWhen, hlen, hcrc, hok]

theorem downFrame_wrongCrc {f : List Byte} {ok : Byte → Bool} {k : State → State} {s : State} (hlen : f.length = 32)
    (hcrc : frameOk f = false) (hp : s.mfe.powered = true) :
    downFrame f ok k s = .next { s with mfe := { s.mfe with crcErr := BitVec.ofNat 16 (min 0xFFFF (s.mfe.crcErr.toNat + 1)) } } := by
  have hcount : (if s.mfe.crcErr = 0xFFFF then s.mfe.crcErr else s.mfe.crcErr + 1) =
      BitVec.ofNat 16 (min 0xFFFF (s.mfe.crcErr.toNat + 1)) := by
    split <;> bv_omega
  simp only [downFrame, actWhen, hlen, hcrc, hp, State.modM, ← hcount]
  rfl

theorem downFrame_otherLength {f : List Byte} {ok : Byte → Bool} {k : State → State} {s : State} (hlen : f.length ≠ 32) :
    downFrame f ok k s = .refused (.illFormed "DOWN frame") := if_pos hlen

/-! ## A request is carried out, answered and stored (R89) -/

/-- The MFE once the completion of `f` has been stored and sent. -/
def completedDown (f : List Byte) (payload : List Byte) (s : State) : State :=
  answerDown (fSeq f) payload (s.modM fun m => { m with store := (keepSeq (fSeq f) payload m.store).take 64 })

theorem downRequest_new {f : List Byte} {k : State → Byte × List Byte × State} {s : State}
    (h : ∀ x ∈ s.mfe.store, x.1 ≠ fSeq f) :
    downRequest f k s = completedDown f (complete (k s).1 (k s).2.1) (k s).2.2 := by
  have hnone : s.mfe.store.find? (fun x => x.1 == fSeq f) = none := by
    simpa [List.find?_eq_none] using h
  simp only [downRequest, hnone, completedDown]

theorem downRequest_held {f : List Byte} {k : State → Byte × List Byte × State} {s : State}
    (h : ∃ x ∈ s.mfe.store, x.1 = fSeq f) : ∃ q p, downRequest f k s = answerDown q p s := by
  cases hx : s.mfe.store.find? fun x => x.1 == fSeq f with
  | none =>
    obtain ⟨x, hmem, hseq⟩ := h
    exact absurd hseq (by simpa using List.find?_eq_none.1 hx x hmem)
  | some x => exact ⟨x.1, x.2, by simp only [downRequest, hx]⟩

end Sys2Proof.Machine

namespace Sys2Proof.Safety
open Sys2Proof.Machine

/-- Of a frame of the MFE's alone: the part that may change is the MFE. -/
theorem only_mfe_of_hide {s t : State} (h : t.hide 262144 = s.hide 262144) : only [.mfe] s t := only_of_hide rfl h

theorem answered_completedDown {f : List Byte} {status : Byte} {s s' : State} (hstore : s'.mfe.store = s.mfe.store) :
    answered f status s (completedDown f (complete status []) s') :=
  ⟨rfl, by simp only [completedDown, answerDown, sendUp, State.modM, hstore]⟩

/-- A new sound request is carried out by `k`, and what `k` answers is stored and sent. -/
theorem request_runs {c : Instr} {f : List Byte} {type : Byte} {ok : Byte → Bool} {s : State}
    {k : State → Byte × List Byte × State} (hto : toMfe f type s) (hexec : exec c s = downFrame f ok (downRequest f k) s)
    (hok : ok type = true) : exec c s =
      .next (completedDown f (complete (k (heardDown s)).1 (k (heardDown s)).2.1) (k (heardDown s)).2.2) := by
  obtain ⟨⟨hlen, hcrc, htype⟩, hp, hnew⟩ := hto
  rw [hexec, downFrame_sound hlen hcrc (by rw [htype, hok]) hp, downRequest_new (by simpa using hnew)]

/-- A new sound request that `k` answers with a bare status: what else follows is read off `k`'s state. -/
theorem request_completes {c : Instr} {f : List Byte} {type status : Byte} {ok : Byte → Bool} {s s' : State}
    {k : State → Byte × List Byte × State} {post : State → Prop} (hto : toMfe f type s)
    (hexec : exec c s = downFrame f ok (downRequest f k) s) (hok : ok type = true)
    (hframe : ∀ u, exec c s = .next u → u.hide 262144 = s.hide 262144) (hk : k (heardDown s) = (status, [], s'))
    (hstore : s'.mfe.store = s.mfe.store)
    (hpost : answered f status s (completedDown f (complete status []) s') → post (completedDown f (complete status []) s')) :
    completes c s [.mfe] post := by
  have hrun := request_runs hto hexec hok
  rw [hk] at hrun
  exact ⟨_, hrun, only_mfe_of_hide (hframe _ hrun), hpost (answered_completedDown hstore)⟩

/-- A request whose completion is held is answered again, and carried out no more (R89). -/
theorem repeat_completes {c : Instr} {f : List Byte} {ok : Byte → Bool} {k : State → Byte × List Byte × State} {s : State}
    (hexec : exec c s = downFrame f ok (downRequest f k) s)
    (hframe : ∀ u, exec c s = .next u → u.hide 262144 = s.hide 262144) (hp : s.mfe.powered = true) (hlen : f.length = 32)
    (hcrc : frameOk f = true) (hheld : ∃ x ∈ s.mfe.store, x.1 = fSeq f) :
    completes c s [.mfe] fun t => t.mfe.outs = s.mfe.outs ∧ t.mfe.ins = s.mfe.ins ∧ t.mfe.fail = s.mfe.fail ∧
      t.mfe.enable = s.mfe.enable ∧ t.mfe.failHeld = s.mfe.failHeld ∧ t.mfe.store = s.mfe.store := by
  cases hok : ok (fType f) with
  | false => exact ⟨s, hexec.trans (downFrame_otherType hlen hcrc hok), only_refl _ s, rfl, rfl, rfl, rfl, rfl, rfl⟩
  | true =>
    obtain ⟨q, p, hagain⟩ := downRequest_held (f := f) (k := k) (s := heardDown s) (by simpa using hheld)
    have hrun := hexec.trans (downFrame_sound hlen hcrc hok hp)
    rw [hagain] at hrun
    exact ⟨_, hrun, only_mfe_of_hide (hframe _ hrun), by simp [answerDown, sendUp, State.modM]⟩

end Sys2Proof.Safety
end

section
/-! SCHEDULE, BARRIER_CANCEL, BARRIER_QUERY, HELLO and COMPLETION at the MFE (R82, R88 to R90, R94). -/

namespace Sys2Proof.Machine

/-- The tag a SCHEDULE or a CANCEL carries (Table 02-6). -/
abbrev tagOf (f : List Byte) : Word := BitVec.ofNat 32 (leAt f 16 4)

/-- The gate time a SCHEDULE carries. -/
abbrev gateOf (f : List Byte) : SysTime := BitVec.ofNat 64 (leAt f 8 8)

/-- What holds the tag, if anything does, is not too late. -/
theorem holder_cases {l : List MfeEntry} {m : Mfe} {g : SysTime} {tag : Word}
    (hl : ¬ (m.tooLate g = true ∨ ∃ e, l.find? (fun e => e.tag == tag) = some e ∧ m.tooLate e.gate = true)) :
    m.tooLate g = false ∧ (l.find? (fun e => e.tag == tag) = none ∨
      ∃ e, l.find? (fun e => e.tag == tag) = some e ∧ m.tooLate e.gate = false) := by
  obtain ⟨hg, he⟩ := not_or.1 hl
  refine ⟨by simpa using hg, ?_⟩
  cases hfind : l.find? fun e => e.tag == tag with
  | none => exact .inl rfl
  | some e => exact .inr ⟨e, rfl, by simpa [hfind] using he⟩

section
variable {f : List Byte} {i : Fin 12} {s : State} (hi : (byteAt f 6).toNat = i.val)
include hi

/-! ## SCHEDULE, case by case (R94) -/

theorem mfeSchedule_disabled (he : s.mfe.enabled = false) : mfeSchedule f s = (stDISABLED, [], s) := by
  simp [mfeSchedule, hi, he]

theorem mfeSchedule_notSynced (he : s.mfe.enabled = true) (hs : s.mfe.sync = false) :
    mfeSchedule f s = (stNOT_SYNCED, [], s) := by
  simp [mfeSchedule, hi, he, hs]

theorem mfeSchedule_tooLate (he : s.mfe.enabled = true) (hs : s.mfe.sync = true)
    (hl : s.mfe.tooLate (gateOf f) = true ∨
      ∃ e, s.mfe.outs[i].sched.find? (fun e => e.tag == tagOf f) = some e ∧ s.mfe.tooLate e.gate = true) :
    mfeSchedule f s = (stTOO_LATE, [], s) := by
  rcases hl with hl | ⟨e, hfind, hl⟩
  · simp [mfeSchedule, hi, he, hs, hl]
  · simp only [Fin.getElem_fin] at hfind
    simp [mfeSchedule, hi, he, hs, hl, hfind]

theorem mfeSchedule_full (he : s.mfe.enabled = true) (hs : s.mfe.sync = true)
    (hl : s.mfe.tooLate (gateOf f) = false)
    (hfull : (∀ e ∈ s.mfe.outs[i].sched, e.tag ≠ tagOf f) ∧ 4 ≤ s.mfe.outs[i].sched.length) :
    mfeSchedule f s = (stFULL, [], s) := by
  obtain ⟨habsent, hroom⟩ := hfull
  have hfind : s.mfe.outs[i.val].sched.find? (fun e => e.tag == tagOf f) = none := by simpa using habsent
  have hlen : 4 ≤ s.mfe.outs[i.val].sched.length := hroom
  simp [mfeSchedule, hi, he, hs, hl, hfind, hlen]

theorem mfeSchedule_ok (he : s.mfe.enabled = true) (hs : s.mfe.sync = true)
    (hl : ¬ (s.mfe.tooLate (gateOf f) = true ∨
      ∃ e, s.mfe.outs[i].sched.find? (fun e => e.tag == tagOf f) = some e ∧ s.mfe.tooLate e.gate = true))
    (hfull : ¬ ((∀ e ∈ s.mfe.outs[i].sched, e.tag ≠ tagOf f) ∧ 4 ≤ s.mfe.outs[i].sched.length)) :
    mfeSchedule f s = (stOK, [], s.setOut i { s.mfe.outs[i] with
      sched := (s.mfe.outs[i].sched.filter fun x => x.tag != tagOf f) ++ [⟨tagOf f, (byteAt f 7).getLsbD 0, gateOf f, fSeq f⟩] }) := by
  obtain ⟨hg, hnone | ⟨e, hsome, hlate⟩⟩ := holder_cases hl
  · have hroom : ¬ 4 ≤ s.mfe.outs[i.val].sched.length := fun h => hfull ⟨by simpa using hnone, h⟩
    simp only [Fin.getElem_fin] at hnone
    simp [mfeSchedule, hi, he, hs, hg, hnone, hroom]
  · simp only [Fin.getElem_fin] at hsome
    simp [mfeSchedule, hi, he, hs, hg, hsome, hlate]

/-! ## CANCEL, case by case (R94) -/

theorem mfeCancel_disabled (he : s.mfe.enabled = false) : mfeCancel f s = (stDISABLED, [], s) := by
  simp [mfeCancel, hi, he]

theorem mfeCancel_absent (he : s.mfe.enabled = true) (h : ∀ e ∈ s.mfe.outs[i].sched, e.tag ≠ tagOf f) :
    mfeCancel f s = (stOK_ABSENT, [], s) := by
  have hfind : s.mfe.outs[i.val].sched.find? (fun e => e.tag == tagOf f) = none := by simpa using h
  simp [mfeCancel, hi, he, hfind]

theorem mfeCancel_tooLate {e : MfeEntry} (he : s.mfe.enabled = true)
    (hfind : s.mfe.outs[i].sched.find? (fun e => e.tag == tagOf f) = some e) (hl : s.mfe.tooLate e.gate = true) :
    mfeCancel f s = (stTOO_LATE, [], s) := by
  simp only [Fin.getElem_fin] at hfind
  simp [mfeCancel, hi, he, hfind, hl]

theorem mfeCancel_ok {e : MfeEntry} (he : s.mfe.enabled = true)
    (hfind : s.mfe.outs[i].sched.find? (fun e => e.tag == tagOf f) = some e) (hl : s.mfe.tooLate e.gate = false) :
    mfeCancel f s = (stOK, [], s.setOut i { s.mfe.outs[i] with
      sched := s.mfe.outs[i].sched.filter fun x => x.tag != tagOf f }) := by
  simp only [Fin.getElem_fin] at hfind
  simp [mfeCancel, hi, he, hfind, hl]

end

/-! ## An output number that names none (log entry 105) -/

theorem mfeSchedule_badOutput {f : List Byte} (s : State) (h : 12 ≤ (byteAt f 6).toNat) :
    mfeSchedule f s = (stBAD_REQUEST, [], s) := dif_neg (Nat.not_lt.2 h)

theorem mfeCancel_badOutput {f : List Byte} (s : State) (h : 12 ≤ (byteAt f 6).toNat) :
    mfeCancel f s = (stBAD_REQUEST, [], s) := dif_neg (Nat.not_lt.2 h)

/-! ## QUERY (R88) -/

theorem answerQuery_badItem (m : Mfe) {item : Nat} (index : Nat) (h : item = 0 ∨ 6 < item) :
    answerQuery m item index = (stBAD_REQUEST, []) := by
  unfold answerQuery
  split
  case h_7 => rfl
  all_goals omega

/-- The completion of QUERY item 4 carries the MFE's copy of system time. -/
theorem answerQuery_time (m : Mfe) : answerQuery m 4 0 = (stOK,
    [0] ++ optTime m.time ++ leBytes 4 (BitVec.ofInt 32 m.offset).toNat ++ [BitVec.ofNat 8 m.sync.toNat]) := rfl

theorem complete_length (status : Byte) (result : List Byte) : (complete status result).length = 24 := slice_length _ _ _

theorem complete_status (status : Byte) (result : List Byte) : byteAt (complete status result) 0 = status :=
  byteAt_slice _ 0 (by decide)

theorem leAt_complete_time (status : Byte) (t : Option SysTime) (l : List Byte) :
    leAt (complete status ([0] ++ optTime t ++ l)) 2 8 = (t.map BitVec.toNat).getD 0 := by
  have hlt : (t.map BitVec.toNat).getD 0 < 256 ^ 8 := by
    cases t with
    | none => simp
    | some x => exact x.isLt
  rw [complete, leAt_slice _ (by decide), ← Nat.mod_eq_of_lt hlt]
  exact leAt_written [status, 0] l 8 _ rfl

/-! ## HELLO and COMPLETION (R89, R90) -/

/-- The MFE once HELLO `f` has been carried out. -/
def greeted (f : List Byte) (s : State) : State :=
  answerDown (fSeq f) (complete stOK (romBytes s.mfe)) (s.modM fun m =>
    { m with restarted := false, hold := none, store := [(fSeq f, complete stOK (romBytes m))] })

theorem sendWaitingUps_of_none {s : State} (h : s.mfe.waiting = []) (n : Nat) : sendWaitingUps n s = s := by
  cases n with
  | zero => rfl
  | succ n => simp [sendWaitingUps, h]

theorem flushHeld_of_none {s : State} (h : s.mfe.heldUps = []) : flushHeld s = s := by
  simp only [flushHeld, h, State.each_nil, State.modM]
  rw [← h]

/-! ## Every command that a DOWN frame brings -/

theorem exec_down (f : List Byte) (transit : Nat) (s : State) : ∀ c ∈ [Instr.hello f, .failstate f, .schedule f, .barrierCancel f,
    .setNow f, .timeFrame f transit, .config f, .barrierQuery f, .failnow f, .completion true f],
    ∃ ok k, exec c s = downFrame f ok k s := by
  simp only [List.forall_mem_cons, List.not_mem_nil, false_imp_iff, implies_true, and_true]
  exact ⟨⟨_, _, (rfl : execHello f s = _)⟩, ⟨_, _, (rfl : execFailstate f s = _)⟩, ⟨_, _, (rfl : execSchedule f s = _)⟩,
    ⟨_, _, (rfl : execBarrierCancel f s = _)⟩, ⟨_, _, (rfl : execSetNow f s = _)⟩, ⟨_, _, (rfl : execTimeFrame f transit s = _)⟩,
    ⟨_, _, (rfl : execConfig f s = _)⟩, ⟨_, _, (rfl : execBarrierQuery f s = _)⟩, ⟨_, _, (rfl : execFailnow f s = _)⟩,
    ⟨_, _, (rfl : mfeCompletion f s = _)⟩⟩

/-- Those that are requests, answered once; HELLO is carried out whatever its number, TIME and COMPLETION are no requests. -/
theorem exec_downRequest (f : List Byte) (s : State) : ∀ c ∈ [Instr.failstate f, .schedule f, .barrierCancel f, .setNow f, .config f,
    .barrierQuery f, .failnow f], (∃ ok k, exec c s = downFrame f ok (downRequest f k) s) ∧
      ∀ u, exec c s = .next u → u.hide 262144 = s.hide 262144 := by
  simp only [List.forall_mem_cons, List.not_mem_nil, false_imp_iff, implies_true, and_true]
  exact ⟨⟨⟨_, _, (rfl : execFailstate f s = _)⟩, execFailstate_hide f s⟩,
    ⟨⟨_, _, (rfl : execSchedule f s = _)⟩, execSchedule_hide f s⟩,
    ⟨⟨_, _, (rfl : execBarrierCancel f s = _)⟩, execBarrierCancel_hide f s⟩,
    ⟨⟨_, _, (rfl : execSetNow f s = _)⟩, execSetNow_hide f s⟩,
    ⟨⟨_, _, (rfl : execConfig f s = _)⟩, execConfig_hide f s⟩, ⟨⟨_, _, (rfl : execBarrierQuery f s = _)⟩, execBarrierQuery_hide f s⟩,
    ⟨⟨_, _, (rfl : execFailnow f s = _)⟩, execFailnow_hide f s⟩⟩

end Sys2Proof.Machine

namespace Sys2Proof.Safety
open Sys2Proof.Machine

theorem schedule_completes {f : List Byte} {status : Byte} {s s' : State} {post : State → Prop} (hto : toMfe f tSCHEDULE s)
    (hk : mfeSchedule f (heardDown s) = (status, [], s')) (hstore : s'.mfe.store = s.mfe.store)
    (hpost : answered f status s (completedDown f (complete status []) s') → post (completedDown f (complete status []) s')) :
    completes (.schedule f) s [.mfe] post :=
  request_completes (ok := (· == tSCHEDULE)) hto rfl rfl (execSchedule_hide f s) hk hstore hpost

theorem barrierCancel_completes {f : List Byte} {status : Byte} {s s' : State} {post : State → Prop} (hto : toMfe f tCANCEL s)
    (hk : mfeCancel f (heardDown s) = (status, [], s')) (hstore : s'.mfe.store = s.mfe.store)
    (hpost : answered f status s (completedDown f (complete status []) s') → post (completedDown f (complete status []) s')) :
    completes (.barrierCancel f) s [.mfe] post :=
  request_completes (ok := (· == tCANCEL)) hto rfl rfl (execBarrierCancel_hide f s) hk hstore hpost

@[simp] theorem completedDown_outs (f payload : List Byte) (s : State) : (completedDown f payload s).mfe.outs = s.mfe.outs := rfl

/-- A refusal leaves every output as it stands. -/
theorem refused_outs {f : List Byte} {status : Byte} {s : State}
    (ha : answered f status s (completedDown f (complete status []) (heardDown s))) :
    answered f status s (completedDown f (complete status []) (heardDown s)) ∧
      (completedDown f (complete status []) (heardDown s)).mfe.outs = s.mfe.outs := ⟨ha, by simp⟩

/-- QUERY changes nothing but what is stored of its answer (R88). -/
theorem query_completes {f : List Byte} {s : State} (hto : toMfe f tQUERY s) : completes (.barrierQuery f) s [.mfe] fun t =>
    t.mfe.outs = s.mfe.outs ∧ t.mfe.ins = s.mfe.ins ∧ t.mfe.fail = s.mfe.fail ∧ t.mfe.failHeld = s.mfe.failHeld ∧
    ((byteAt f 6).toNat = 0 ∨ 6 < (byteAt f 6).toNat → answered f stBAD_REQUEST s t) ∧
    ((byteAt f 6).toNat = 4 → (byteAt f 7).toNat = 0 →
      ∃ b, t.mfe.line = barFrame tCOMPLETION false 0 (fSeq f) b ∧ b.length = 24 ∧ byteAt b 0 = stOK ∧
        leAt b 2 8 = ((s.mfe.time.map BitVec.toNat).getD 0)) := by
  have hrun := request_runs (c := .barrierQuery f) (ok := (· == tQUERY)) hto rfl rfl
  refine ⟨_, hrun, only_mfe_of_hide (execBarrierQuery_hide f s _ hrun), ?_⟩
  dsimp only
  refine ⟨by simp [completedDown, answerDown, sendUp, State.modM], by simp [completedDown, answerDown, sendUp, State.modM],
    by simp [completedDown, answerDown, sendUp, State.modM], by simp [completedDown, answerDown, sendUp, State.modM],
    fun hitem => ?_, fun hitem hindex => ?_⟩
  · rw [answerQuery_badItem _ _ hitem]
    exact answered_completedDown (by simp)
  · rw [hitem, hindex, answerQuery_time]
    refine ⟨_, rfl, complete_length _ _, complete_status _ _, ?_⟩
    rw [List.append_assoc, leAt_complete_time]
    simp

theorem hello_completes {f : List Byte} {s : State} (hf : frame f tHELLO) (hp : s.mfe.powered = true) :
    completes (.hello f) s [.mfe] fun t =>
      t.mfe.restarted = false ∧ t.mfe.hold = none ∧ t.mfe.link = true ∧ t.mfe.outs = s.mfe.outs ∧
      t.mfe.line = barFrame tCOMPLETION false 0 (fSeq f) (complete stOK (romBytes s.mfe)) ∧
      t.mfe.store = [(fSeq f, complete stOK (romBytes s.mfe))] := by
  obtain ⟨hlen, hcrc, htype⟩ := hf
  have hrun : exec (.hello f) s = .next (greeted f (heardDown s)) :=
    downFrame_sound (ok := (· == tHELLO)) (k := greeted f) hlen hcrc (by simp [htype]) hp
  refine ⟨_, hrun, only_mfe_of_hide (execHello_hide f s _ hrun), ?_⟩
  simp [greeted, answerDown, sendUp, State.modM, romBytes]

theorem completion_completes {f : List Byte} {s : State} (hf : frame f tCOMPLETION) (hp : s.mfe.powered = true)
    (hheld : s.mfe.heldUps = []) (hwait : s.mfe.waiting = []) : completes (.completion true f) s [.mfe] fun t =>
      t.mfe.outs = s.mfe.outs ∧ t.mfe.ups = s.mfe.ups.filter fun r => r.seq != fRef f := by
  obtain ⟨hlen, hcrc, htype⟩ := hf
  have hrun : mfeCompletion f s = _ := downFrame_sound hlen hcrc (by simp [htype]) hp
  rw [heardDown_of_none_held hheld, sendWaitingUps_of_none (by simpa [State.modM] using hwait),
    flushHeld_of_none (by simpa [State.modM] using hheld)] at hrun
  exact ⟨_, hrun, only_mfe_of_hide (mfeCompletion_hide f s _ hrun), rfl, rfl⟩

/-- Settles O21: SCHEDULE and CANCEL case by case of their own functions; what is no new sound request stops at the frame or at the
store. -/
theorem mfeSchedule : Obligations.MfeSchedule := by
  unfold Obligations.MfeSchedule
  refine ⟨⟨fun f i s hto hi => ?_, fun f i s hto hi => ?_, fun f s hi => ⟨fun hto => ?_, fun hto => ?_⟩⟩, ?_, ?_, ?_, ?_, ?_, ?_⟩
  · refine ⟨fun he hs hl hf => ?_, fun he => ?_, fun he hs => ?_, fun he hs hl => ?_, fun he hs hl hf => ?_⟩
    · exact schedule_completes hto (mfeSchedule_ok hi (by simpa using he) (by simpa using hs) (by simpa using hl) (by simpa using hf))
        (by simp [State.setOut, State.modM]) fun ha => ⟨ha, by simp [State.setOut, State.modM]⟩
    · exact schedule_completes hto (mfeSchedule_disabled hi (by simpa using he)) (by simp) refused_outs
    · exact schedule_completes hto (mfeSchedule_notSynced hi (by simpa using he) (by simpa using hs)) (by simp) refused_outs
    · exact schedule_completes hto (mfeSchedule_tooLate hi (by simpa using he) (by simpa using hs) (by simpa using hl)) (by simp)
        refused_outs
    · exact schedule_completes hto (mfeSchedule_full hi (by simpa using he) (by simpa using hs)
        (by simpa using (holder_cases hl).1) (by simpa using hf)) (by simp) refused_outs
  · refine ⟨fun he => ?_, fun he h => ?_, fun e he hfind hl => ?_, fun e he hfind hl => ?_⟩
    · exact barrierCancel_completes hto (mfeCancel_disabled hi (by simpa using he)) (by simp) refused_outs
    · exact barrierCancel_completes hto (mfeCancel_absent hi (by simpa using he) (by simpa using h)) (by simp) refused_outs
    · exact barrierCancel_completes hto (mfeCancel_tooLate hi (by simpa using he) (by simpa using hfind) (by simpa using hl)) (by simp) refused_outs
    · exact barrierCancel_completes hto (mfeCancel_ok hi (by simpa using he) (by simpa using hfind) (by simpa using hl))
        (by simp [State.setOut, State.modM]) fun ha => ⟨ha, by simp [State.setOut, State.modM]⟩
  · exact schedule_completes hto (mfeSchedule_badOutput _ hi) (by simp) refused_outs
  · exact barrierCancel_completes hto (mfeCancel_badOutput _ hi) (by simp) refused_outs
  · intro f s hp hlen hcrc hheld c hc
    obtain ⟨⟨ok, k, hexec⟩, hframe⟩ := exec_downRequest f s c hc
    exact repeat_completes hexec hframe hp hlen hcrc hheld
  · intro f s hp hlen hcrc c hc
    obtain ⟨ok, k, hexec⟩ := exec_down f 0 s c hc
    exact hexec.trans (downFrame_wrongCrc hlen hcrc hp)
  · intro f transit s hlen c hc
    obtain ⟨ok, k, hexec⟩ := exec_down f transit s c hc
    exact hexec.trans (downFrame_otherLength hlen)
  · exact fun f s hto => query_completes hto
  · exact fun f s hf hp => hello_completes hf hp
  · exact fun f s hf hp hheld hwait => completion_completes hf hp hheld hwait

end Sys2Proof.Safety
end

section
/-! SET_NOW, FAILSTATE, FAILNOW, GATE, OVERCURRENT and the HV inputs (R79, R81 to R84, R94, R96 to R98). -/

namespace Sys2Proof.Machine

/-! ## Levels -/

theorem applyFail_out (s : State) (i : Fin 12) : (applyFail s).mfe.outs[i] = { s.mfe.outs[i] with
    level := (s.mfe.fail.getD 0).getLsbD i && !s.mfe.outs[i].tripped, onGate := none, offGate := none } := by
  simp [applyFail, State.modM]

theorem applyFail_held (s : State) : (applyFail s).mfe.failHeld = true ∧ (applyFail s).mfe.hold = none ∧
    (applyFail s).mfe.fail = s.mfe.fail ∧ (applyFail s).mfe.enable = s.mfe.enable ∧ (applyFail s).mfe.store = s.mfe.store :=
  ⟨rfl, rfl, rfl, rfl, rfl⟩

theorem dropSchedule_out (s : State) (i : Fin 12) : (dropSchedule s).mfe.outs[i] = { s.mfe.outs[i] with sched := [] } := by
  simp [dropSchedule, State.modM]

theorem dropSchedule_kept (s : State) : (dropSchedule s).mfe.failHeld = s.mfe.failHeld ∧ (dropSchedule s).mfe.fail = s.mfe.fail ∧
    (dropSchedule s).mfe.enable = s.mfe.enable ∧ (dropSchedule s).mfe.store = s.mfe.store := ⟨rfl, rfl, rfl, rfl⟩

/-! ## FAILSTATE (R81, R82) -/

/-- FAILSTATE `f` moves the outputs: they were open since the reset, hold the fail state, or HV_ENABLE is 0. -/
def failMoves (f : List Byte) (m : Mfe) : Bool := m.fail.isNone || m.failHeld || !(byteAt f 8).getLsbD 0

/-- The MFE with the fail levels and HV_ENABLE of FAILSTATE `f`, which ends every schedule where it is 0. -/
def failGiven (f : List Byte) (s : State) : State :=
  let s := s.modM fun m => { m with fail := some (BitVec.ofNat 12 (leAt f 6 2)), enable := (byteAt f 8).getLsbD 0 }
  if (byteAt f 8).getLsbD 0 then s else dropSchedule s

/-- The MFE once FAILSTATE `f` has been carried out, before it reports the times it has measured. -/
def failTaken (f : List Byte) (s : State) : State := if failMoves f s.mfe then applyFail (failGiven f s) else failGiven f s

/-- Each output with measured times reports them (R98). -/
def reportOptimes (s : State) : State :=
  s.each (List.finRange 12) fun i s => s.when (s.mfe.outs[i].operate.isSome || s.mfe.outs[i].release.isSome) (sendOptime i)

theorem reportOptimes_mfeCore (s : State) : (reportOptimes s).mfe.core = s.mfe.core :=
  State.view_each (fun s => s.mfe.core) (fun i s => State.view_when (fun s => s.mfe.core) (sendOptime_mfeCore i) _ s) _ s

theorem execFailstate_eq (f : List Byte) (s : State) : execFailstate f s =
    downFrame f (· == tFAILSTATE) (downRequest f fun s => (stOK, [], reportOptimes (failTaken f s))) s := rfl

theorem failGiven_fields (f : List Byte) (s : State) : (failGiven f s).mfe.fail = some (BitVec.ofNat 12 (leAt f 6 2)) ∧
    (failGiven f s).mfe.enable = (byteAt f 8).getLsbD 0 ∧ (failGiven f s).mfe.failHeld = s.mfe.failHeld ∧
    (failGiven f s).mfe.store = s.mfe.store := by
  unfold failGiven
  dsimp only
  split <;> exact ⟨rfl, rfl, rfl, rfl⟩

theorem failGiven_out (f : List Byte) (s : State) (i : Fin 12) : (failGiven f s).mfe.outs[i] = { s.mfe.outs[i] with
    sched := if (byteAt f 8).getLsbD 0 then s.mfe.outs[i].sched else [] } := by
  unfold failGiven
  dsimp only
  split
  · rfl
  · rw [dropSchedule_out]
    rfl

theorem failTaken_out (f : List Byte) (s : State) (i : Fin 12) : (failTaken f s).mfe.outs[i].sched =
      (if (byteAt f 8).getLsbD 0 then s.mfe.outs[i].sched else []) ∧
    (failMoves f s.mfe = true → (failTaken f s).mfe.outs[i].level =
      ((BitVec.ofNat 12 (leAt f 6 2)).getLsbD i && !s.mfe.outs[i].tripped)) := by
  unfold failTaken
  split
  · rw [applyFail_out, failGiven_out, (failGiven_fields f s).1]
    exact ⟨rfl, fun _ => rfl⟩
  · next h =>
    rw [failGiven_out]
    exact ⟨rfl, fun hm => absurd hm h⟩

theorem failTaken_fields (f : List Byte) (s : State) : (failTaken f s).mfe.fail = some (BitVec.ofNat 12 (leAt f 6 2)) ∧
    (failTaken f s).mfe.enable = (byteAt f 8).getLsbD 0 ∧ (failTaken f s).mfe.store = s.mfe.store ∧
    (failTaken f s).mfe.failHeld = (failMoves f s.mfe || s.mfe.failHeld) := by
  obtain ⟨hfail, hen, hheld, hstore⟩ := failGiven_fields f s
  unfold failTaken
  split
  · next h => exact ⟨hfail, hen, hstore, by rw [h]; rfl⟩
  · next h => exact ⟨hfail, hen, hstore, by rw [hheld, Bool.eq_false_iff.2 h, Bool.false_or]⟩

/-- Where the outputs do not move, they stand altogether: HV_ENABLE is 1. -/
theorem failTaken_stands {f : List Byte} {s : State} (hm : failMoves f s.mfe = false) : (failTaken f s).mfe.outs = s.mfe.outs := by
  have hen : (byteAt f 8).getLsbD 0 = true := by
    unfold failMoves at hm
    simp_all
  simp [failTaken, hm, failGiven, hen, State.modM]

/-! ## SET_NOW (R94) -/

theorem gateTo_kept (level : Bool) (t : Option SysTime) (o : HvOut) : (gateTo level t o).level = level ∧
    (gateTo level t o).sched = o.sched ∧ (gateTo level t o).tripped = (o.tripped && !level) := ⟨rfl, rfl, rfl⟩

/-- The outputs as SET_NOW `f` leaves them. -/
def outsSet (f : List Byte) (m : Mfe) : Vector HvOut 12 :=
  Vector.ofFn fun i => if (leAt f 6 2).testBit i.val then gateTo ((leAt f 8 2).testBit i.val) m.time m.outs[i] else m.outs[i]

theorem outsSet_out (f : List Byte) (m : Mfe) (i : Fin 12) : (outsSet f m)[i].sched = m.outs[i].sched ∧
    (outsSet f m)[i].level = if (leAt f 6 2).testBit i then (leAt f 8 2).testBit i else m.outs[i].level := by
  simp only [outsSet, Fin.getElem_fin, Vector.getElem_ofFn]
  split <;> exact ⟨rfl, rfl⟩

theorem execSetNow_eq (f : List Byte) (s : State) : execSetNow f s = downFrame f (· == tSET_NOW) (downRequest f fun s =>
    if !s.mfe.enabled then (stDISABLED, [], s)
    else (stOK, [], s.modM fun m => { m with failHeld := false, outs := outsSet f m })) s := rfl

/-! ## GATE (R94, R96): entries in the order they execute -/

theorem mem_insertEntry {e x : MfeEntry} {l : List MfeEntry} : x ∈ insertEntry e l ↔ x = e ∨ x ∈ l := by
  induction l with
  | nil => simp [insertEntry]
  | cons y l ih =>
    unfold insertEntry
    split
    · simp
    · simp only [List.mem_cons, ih]
      tauto

/-- One entry goes before another only where its gate is no later. -/
theorem gate_le_of_before {a b : MfeEntry} (h : a.before b = true) : a.gate.toNat ≤ b.gate.toNat := by
  simp only [MfeEntry.before, Bool.or_eq_true, decide_eq_true_eq, Bool.and_eq_true, beq_iff_eq] at h
  rcases h with h | ⟨h, -⟩
  · omega
  · rw [h]

theorem gate_le_of_not_before {a b : MfeEntry} (h : ¬ a.before b = true) : b.gate.toNat ≤ a.gate.toNat := by
  simp only [MfeEntry.before, Bool.or_eq_true, decide_eq_true_eq] at h
  omega

abbrev gatesRise (l : List MfeEntry) : Prop := l.Pairwise fun a b => a.gate.toNat ≤ b.gate.toNat

theorem gatesRise_insertEntry (e : MfeEntry) {l : List MfeEntry} (h : gatesRise l) : gatesRise (insertEntry e l) := by
  induction l with
  | nil => exact List.pairwise_singleton _ _
  | cons y l ih =>
    obtain ⟨hy, hl⟩ := List.pairwise_cons.1 h
    unfold insertEntry
    split
    · next hb =>
      have he := gate_le_of_before hb
      refine List.pairwise_cons.2 ⟨fun x hx => ?_, h⟩
      rcases List.mem_cons.1 hx with rfl | hx
      · exact he
      · exact he.trans (hy x hx)
    · next hb =>
      refine List.pairwise_cons.2 ⟨fun x hx => ?_, ih hl⟩
      rcases mem_insertEntry.1 hx with rfl | hx
      · exact gate_le_of_not_before hb
      · exact hy x hx

/-- The entries of output `o` that are due at `t`, in the order they execute. -/
def dueEntries (t : SysTime) (o : HvOut) : List MfeEntry :=
  (o.sched.filter fun e => decide (e.gate.toNat ≤ t.toNat)).foldl (fun l e => insertEntry e l) []

theorem foldl_insertEntry (l a : List MfeEntry) (ha : gatesRise a) : gatesRise (l.foldl (fun l e => insertEntry e l) a) ∧
    ∀ x, x ∈ l.foldl (fun l e => insertEntry e l) a ↔ x ∈ l ∨ x ∈ a := by
  induction l generalizing a with
  | nil => exact ⟨ha, by simp⟩
  | cons e l ih =>
    obtain ⟨hrise, hmem⟩ := ih _ (gatesRise_insertEntry e ha)
    refine ⟨hrise, fun x => ?_⟩
    rw [List.foldl_cons, hmem, mem_insertEntry, List.mem_cons]
    tauto

theorem mem_dueEntries {t : SysTime} {o : HvOut} {e : MfeEntry} :
    e ∈ dueEntries t o ↔ e ∈ o.sched ∧ e.gate.toNat ≤ t.toNat := by
  simp [dueEntries, (foldl_insertEntry _ _ List.Pairwise.nil).2]

theorem dueEntries_eq_nil {t : SysTime} {o : HvOut} : dueEntries t o = [] ↔ ∀ e ∈ o.sched, t.toNat < e.gate.toNat := by
  simp [List.eq_nil_iff_forall_not_mem, mem_dueEntries]

/-- Of rising gates the last is the latest. -/
theorem gate_le_last {l : List MfeEntry} (h : gatesRise l) {last : MfeEntry} (hl : l.getLast? = some last) :
    ∀ e ∈ l, e.gate.toNat ≤ last.gate.toNat := by
  obtain ⟨init, rfl⟩ := List.getLast?_eq_some_iff.1 hl
  intro e he
  rcases List.mem_append.1 he with he | he
  · exact (List.pairwise_append.1 h).2.2 e he last (by simp)
  · rw [List.mem_singleton.1 he]

/-- The MFE's own work at a gate: the output takes the level of the last entry due, and only later ones stay. -/
def gated (i : Fin 12) (t : SysTime) (last : MfeEntry) (s : State) : State :=
  (s.setOut i { gateTo last.level (some t) s.mfe.outs[i] with
    sched := s.mfe.outs[i].sched.filter fun e => decide (t.toNat < e.gate.toNat) }).modM fun m => { m with failHeld := false }

theorem execGate_eq {i : Fin 12} {t : SysTime} {s : State} (hp : s.mfe.powered = true) (ht : s.mfe.time = some t) :
    execGate i s = .next (match (dueEntries t s.mfe.outs[i]).getLast? with
      | none => s
      | some last => (gated i t last s).each (dueEntries t s.mfe.outs[i]) fun e =>
          sendHvEvent i (e.level.toNat + 4 * (decide (e.gate.toNat + 2684 < t.toNat)).toNat) t e.tag) := by
  simp only [execGate, actWhen, hp, ht, if_true]
  rfl

/-! ## OVERCURRENT (R84) -/

def opened (o : HvOut) : HvOut := { o with level := false, tripped := true, onGate := none, offGate := none }

theorem execOvercurrent_eq (i : Fin 12) (s : State) : execOvercurrent i s = actWhen (s.mfe.powered && s.mfe.outs[i].level)
    (fun s => sendHvEvent i 8 (s.mfe.time.getD 0) 0 (s.setOut i (opened s.mfe.outs[i]))) s := rfl

/-! ## HV inputs (R97, R98) -/

/-- What an input's edge may not change of the outputs, the inputs' own state, and the time. -/
def Mfe.switching (m : Mfe) : Vector (Bool × List MfeEntry) 12 × Vector HvIn 4 × Option SysTime :=
  (m.outs.map fun o => (o.level, o.sched), m.ins, m.time)

theorem Mfe.switching_of_core {m n : Mfe} (h : m.core = n.core) : m.switching = n.switching := by
  obtain ⟨-, -, -, -, htime, -, -, -, -, -, -, -, -, houts, hins, -⟩ := Mfe.parts_of_core h
  simp only [Mfe.switching, htime, houts, hins]

theorem Mfe.outs_of_switching {m n : Mfe} (h : m.switching = n.switching) (j : Fin 12) :
    m.outs[j].level = n.outs[j].level ∧ m.outs[j].sched = n.outs[j].sched := by
  have hj := congrArg (fun x => x.1[j]) h
  simpa [Mfe.switching] using hj

theorem setOut_switching {k : Fin 12} {o : HvOut} {s : State} (hl : o.level = s.mfe.outs[k].level)
    (hs : o.sched = s.mfe.outs[k].sched) : (s.setOut k o).mfe.switching = s.mfe.switching := by
  simp only [Mfe.switching, State.setOut, State.modM, Prod.mk.injEq, and_true]
  ext j hj
  · by_cases h : k.val = j
    · subst h
      simpa using hl
    · simp [h]
  · by_cases h : k.val = j
    · subst h
      simp [hs]
    · simp [h]

theorem measured_mfe (gate edge : SysTime) (s : State) : (measured gate edge s).2.mfe = s.mfe := by
  unfold measured openQuot
  dsimp only
  split
  · rfl
  · split <;> rfl

theorem learn_mfe (old : Option Nat) (m : Nat) (s : State) : (learn old m s).2.mfe = s.mfe := by
  unfold learn openQuot
  split
  · rfl
  · dsimp only
    split <;> rfl

theorem endMeasurements_switching (i : Fin 4) (on : Bool) (t : SysTime) (s : State) :
    (endMeasurements i on t s).mfe.switching = s.mfe.switching := by
  refine State.view_each (fun s => s.mfe.switching) (fun k s => ?_) _ s
  dsimp only
  split
  · rfl
  · split
    · rfl
    · next g _ =>
      set s₁ := s.setOut k (if on then { s.mfe.outs[k] with onGate := none } else { s.mfe.outs[k] with offGate := none }) with hs₁
      have h₁ : s₁.mfe.switching = s.mfe.switching := setOut_switching (by split <;> rfl) (by split <;> rfl)
      have h₂ := measured_mfe g t s₁
      split
      · next s₂ hm =>
        rw [hm] at h₂
        rw [← h₁, ← h₂]
      · next m s₂ hm =>
        rw [hm] at h₂
        have h₃ := learn_mfe (if on then s.mfe.outs[k].operate else s.mfe.outs[k].release) m s₂
        refine (Mfe.switching_of_core (sendOptime_mfeCore k _)).trans ?_
        refine (setOut_switching (by split <;> rfl) (by split <;> rfl)).trans ?_
        rw [h₃, h₂, h₁]

/-- Input `i` after an edge. -/
def edged (on dead : Bool) (t : SysTime) (time : Option SysTime) (x : HvIn) : HvIn :=
  { x with level := on, deadzone := if on then dead else x.deadzone, edge := if time.isSome then some t else x.edge }

theorem inputEdge_switching (i : Fin 4) (on dead : Bool) (t : SysTime) (s : State) : (inputEdge i on dead t s).mfe.switching =
    ({ s.mfe with ins := s.mfe.ins.set i (edged on dead t s.mfe.time s.mfe.ins[i]) } : Mfe).switching :=
  (endMeasurements_switching i on t _).trans (Mfe.switching_of_core (sendHvEvent_mfeCore _ _ t 0 _))

theorem halfFreq_of_none {m : Mfe} (h : ∀ p : Fin 3, m.phases[p].present = false) (i : Fin 4) : m.halfFreq i = 5000 := by
  have hfeed : (m.phases[m.ins[i].feed.toNat]?).filter MainsPhase.present = none := by
    simp only [Option.filter_eq_none_iff]
    intro x hx
    obtain ⟨hlt, rfl⟩ := Vector.getElem?_eq_some_iff.1 hx
    simpa using h ⟨_, hlt⟩
  have hany : m.phases.toList.any MainsPhase.present = false := by
    rw [List.any_eq_false]
    intro x hx
    obtain ⟨k, hk, rfl⟩ := List.getElem_of_mem hx
    simpa using h ⟨k, by simpa using hk⟩
  simp only [Mfe.halfFreq, hfeed, hany, Bool.false_eq_true, false_and, if_false]

/-- With no phase present the half-period is 10 ms, 5368709.12 units. -/
theorem confirmed_iff_of_none {m : Mfe} (h : ∀ p : Fin 3, m.phases[p].present = false) (i : Fin 4) (first : SysTime)
    (later : List SysTime) : m.confirmed i first later = true ↔
      (∃ x ∈ later, 0 < timeDiff x first ∧ timeDiff x first ≤ 5368709) ∧
      (∃ x ∈ later, 5368709 < timeDiff x first ∧ timeDiff x first ≤ 10737418) ∧
      ∀ x, m.time = some x → 10737418 < timeDiff x first := by
  have hone (d : Int) : withinHalves 1 5000 d = true ↔ d ≤ 5368709 := by
    simp only [withinHalves, decide_eq_true_eq]
    omega
  have htwo (d : Int) : withinHalves 2 5000 d = true ↔ d ≤ 10737418 := by
    simp only [withinHalves, decide_eq_true_eq]
    omega
  simp only [Mfe.confirmed, halfFreq_of_none h i, Bool.and_eq_true, List.any_eq_true, hone, htwo, decide_eq_true_eq,
    Bool.not_eq_true', ← Bool.not_eq_true, not_le, and_assoc]
  refine and_congr_right fun _ => and_congr_right fun _ => ?_
  cases m.time with
  | none => simp
  | some t =>
    simp only [decide_eq_true_eq, Option.some.injEq, forall_eq']
    omega

theorem silent_iff (m : Mfe) (last : SysTime) : m.silent last = true ↔ ∀ x, m.time = some x → 6442451 ≤ timeDiff x last := by
  unfold Mfe.silent
  cases m.time with
  | none => simp
  | some t =>
    simp only [decide_eq_true_eq, Option.some.injEq, forall_eq']
    omega

end Sys2Proof.Machine

namespace Sys2Proof.Safety
open Sys2Proof.Machine

theorem setNow_completes {f : List Byte} {s : State} (hto : toMfe f tSET_NOW s) :
    (s.mfe.enabled = true → completes (.setNow f) s [.mfe] fun t => answered f stOK s t ∧ t.mfe.failHeld = false ∧
       ∀ i : Fin 12, t.mfe.outs[i].sched = s.mfe.outs[i].sched ∧ t.mfe.outs[i].level =
         if (leAt f 6 2).testBit i then (leAt f 8 2).testBit i else s.mfe.outs[i].level) ∧
    (s.mfe.enabled = false → completes (.setNow f) s [.mfe] fun t => answered f stDISABLED s t ∧ t.mfe.outs = s.mfe.outs) := by
  refine ⟨fun he => ?_, fun he => ?_⟩
  · refine request_completes hto (execSetNow_eq f s) rfl (execSetNow_hide f s) (if_neg (by simp [he])) (by simp [State.modM])
      fun ha => ⟨ha, rfl, fun i => ?_⟩
    have hout := outsSet_out f (heardDown s).mfe i
    simp only [heardDown_parts] at hout
    exact hout
  · exact request_completes hto (execSetNow_eq f s) rfl (execSetNow_hide f s) (if_pos (by simp [he])) (by simp) refused_outs

theorem failMoves_iff (f : List Byte) (m : Mfe) : failMoves f m = true ↔
    m.fail = none ∨ m.failHeld = true ∨ (byteAt f 8).getLsbD 0 = false := by
  simp [failMoves, or_assoc]

/-- What else a stored and sent completion leaves as it stands. -/
@[simp] theorem completedDown_parts (f payload : List Byte) (s : State) : let m := (completedDown f payload s).mfe
    m.fail = s.mfe.fail ∧ m.enable = s.mfe.enable ∧ m.failHeld = s.mfe.failHeld := ⟨rfl, rfl, rfl⟩

theorem failstate_completes {f : List Byte} {s : State} (hto : toMfe f tFAILSTATE s) : completes (.failstate f) s [.mfe] fun t =>
    let lv := BitVec.ofNat 12 (leAt f 6 2)
    let on := (byteAt f 8).getLsbD 0
    answered f stOK s t ∧ t.mfe.fail = some lv ∧ t.mfe.enable = on ∧
      (s.mfe.fail = none ∨ s.mfe.failHeld = true ∨ on = false → t.mfe.failHeld = true ∧
        ∀ i : Fin 12, t.mfe.outs[i].level = (lv.getLsbD i && !s.mfe.outs[i].tripped)) ∧
      (s.mfe.fail ≠ none → s.mfe.failHeld = false → on = true → t.mfe.failHeld = false ∧ t.mfe.outs = s.mfe.outs) ∧
      (∀ i : Fin 12, t.mfe.outs[i].sched = if on = true then s.mfe.outs[i].sched else []) := by
  obtain ⟨-, -, -, -, -, -, -, -, -, hfail, hen, hheld, -, houts, -, hstore⟩ :=
    Mfe.parts_of_core (reportOptimes_mfeCore (failTaken f (heardDown s)))
  obtain ⟨gfail, gen, gstore, gheld⟩ := failTaken_fields f (heardDown s)
  have gout := failTaken_out f (heardDown s)
  have gstands := failTaken_stands (f := f) (s := heardDown s)
  have hm : failMoves f (heardDown s).mfe = failMoves f s.mfe := by simp [failMoves]
  simp only [heardDown_parts, hm] at gout gstands gheld gstore
  refine request_completes hto (execFailstate_eq f s) rfl (execFailstate_hide f s) rfl (hstore.trans gstore) ?_
  obtain ⟨cfail, cen, cheld⟩ := completedDown_parts f (complete stOK []) (reportOptimes (failTaken f (heardDown s)))
  have couts := completedDown_outs f (complete stOK []) (reportOptimes (failTaken f (heardDown s)))
  generalize completedDown f (complete stOK []) (reportOptimes (failTaken f (heardDown s))) = t at cfail cen cheld couts ⊢
  rw [hfail, gfail] at cfail
  rw [hen, gen] at cen
  rw [hheld, gheld] at cheld
  rw [houts] at couts
  refine fun ha => ⟨ha, cfail, cen, fun hmove => ?_, fun hgiven hnot hon => ?_, fun i => ?_⟩
  · have hmoves := (failMoves_iff f s.mfe).2 hmove
    refine ⟨by rw [cheld, hmoves, Bool.true_or], fun i => ?_⟩
    rw [couts]
    exact (gout i).2 hmoves
  · have hstay : failMoves f s.mfe = false := by
      rw [← Bool.not_eq_true, failMoves_iff]
      simp [hgiven, hnot, hon]
    exact ⟨by rw [cheld, hstay, hnot]; rfl, couts.trans (gstands hstay)⟩
  · rw [couts]
    exact (gout i).1

theorem failnow_completes {f : List Byte} {s : State} (hto : toMfe f tFAILNOW s) : completes (.failnow f) s [.mfe] fun t =>
    answered f stOK s t ∧ t.mfe.failHeld = true ∧ t.mfe.fail = s.mfe.fail ∧ ∀ i : Fin 12, t.mfe.outs[i].sched = [] ∧
      t.mfe.outs[i].level = ((s.mfe.fail.getD 0).getLsbD i && !s.mfe.outs[i].tripped) := by
  obtain ⟨hheld, -, hfail, -, hstore⟩ := applyFail_held (dropSchedule (heardDown s))
  obtain ⟨-, gfail, -, gstore⟩ := dropSchedule_kept (heardDown s)
  rw [gfail, (by simp : (heardDown s).mfe.fail = s.mfe.fail)] at hfail
  refine request_completes hto (rfl : execFailnow f s = _) rfl (execFailnow_hide f s) rfl
    (hstore.trans (gstore.trans (by simp))) ?_
  obtain ⟨cfail, -, cheld⟩ := completedDown_parts f (complete stOK []) (applyFail (dropSchedule (heardDown s)))
  have couts := completedDown_outs f (complete stOK []) (applyFail (dropSchedule (heardDown s)))
  have gout := applyFail_out (dropSchedule (heardDown s))
  generalize completedDown f (complete stOK []) (applyFail (dropSchedule (heardDown s))) = t at cfail cheld couts ⊢
  refine fun ha => ⟨ha, cheld.trans hheld, cfail.trans hfail, fun i => ?_⟩
  rw [couts, gout, dropSchedule_out, gfail]
  simp

theorem gate_completes {i : Fin 12} {x : SysTime} {s : State} (hp : s.mfe.powered = true) (ht : s.mfe.time = some x)
    (hdue : ∃ e ∈ s.mfe.outs[i].sched, e.gate.toNat ≤ x.toNat) : completes (.gate i) s [.mfe] fun t =>
      t.mfe.failHeld = false ∧ (∀ j, j ≠ i → t.mfe.outs[j] = s.mfe.outs[j]) ∧
      t.mfe.outs[i].sched = (s.mfe.outs[i].sched.filter fun e => decide (x.toNat < e.gate.toNat)) ∧
      (∃ e ∈ s.mfe.outs[i].sched, e.gate.toNat ≤ x.toNat ∧ t.mfe.outs[i].level = e.level ∧
        (∀ e' ∈ s.mfe.outs[i].sched, e'.gate.toNat ≤ x.toNat → e'.gate.toNat ≤ e.gate.toNat)) ∧
      (t.mfe.outs[i].level = false → t.mfe.outs[i].tripped = s.mfe.outs[i].tripped) ∧
      (t.mfe.outs[i].level = true → t.mfe.outs[i].tripped = false) := by
  obtain ⟨last, hlast⟩ : ∃ last, (dueEntries x s.mfe.outs[i]).getLast? = some last := by
    obtain ⟨e, he⟩ := hdue
    exact ⟨_, List.getLast?_eq_some_getLast (List.ne_nil_of_mem (mem_dueEntries.2 he))⟩
  have hrun := execGate_eq (i := i) hp ht
  rw [hlast] at hrun
  obtain ⟨-, -, -, -, -, -, -, -, -, -, -, hheld, -, houts, -, -⟩ := Mfe.parts_of_core
    (State.view_each (fun s => s.mfe.core) (fun (e : MfeEntry) s => sendHvEvent_mfeCore i _ x e.tag s) _ (gated i x last s))
  have hout : (gated i x last s).mfe.outs = s.mfe.outs.set i { gateTo last.level (some x) s.mfe.outs[i] with
    sched := s.mfe.outs[i].sched.filter fun e => decide (x.toNat < e.gate.toNat) } := rfl
  obtain ⟨hmem, hle⟩ := mem_dueEntries.1 (List.mem_of_getLast? hlast)
  have hmax := gate_le_last (foldl_insertEntry _ _ List.Pairwise.nil).1 hlast
  refine ⟨_, hrun, only_mfe_of_hide (execGate_hide i s _ hrun), hheld, ?_⟩
  rw [houts, hout]
  refine ⟨fun j hj => by simp [Fin.val_ne_of_ne hj.symm], by simp, ⟨last, hmem, hle, by simp [gateTo], fun e he hdue =>
    hmax e (mem_dueEntries.2 ⟨he, hdue⟩)⟩, ?_, ?_⟩
  · simp +contextual [gateTo]
  · simp +contextual [gateTo]

theorem overcurrent_completes {i : Fin 12} {s : State} (hp : s.mfe.powered = true) (hl : s.mfe.outs[i].level = true) :
    completes (.overcurrent i) s [.mfe] fun t => t.mfe.outs[i].level = false ∧ t.mfe.outs[i].tripped = true ∧
      t.mfe.outs[i].sched = s.mfe.outs[i].sched ∧ (∀ j, j ≠ i → t.mfe.outs[j] = s.mfe.outs[j]) := by
  have hrun := (execOvercurrent_eq i s).trans (actWhen_of_true (by rw [hp, hl]; rfl))
  obtain ⟨-, -, -, -, -, -, -, -, -, -, -, -, -, houts, -, -⟩ := Mfe.parts_of_core
    (sendHvEvent_mfeCore i 8 (s.mfe.time.getD 0) 0 (s.setOut i (opened s.mfe.outs[i])))
  have hout : (s.setOut i (opened s.mfe.outs[i])).mfe.outs = s.mfe.outs.set i (opened s.mfe.outs[i]) := rfl
  refine ⟨_, hrun, only_mfe_of_hide (execOvercurrent_hide i s _ hrun), ?_⟩
  dsimp only
  rw [houts, hout]
  exact ⟨by simp [opened], by simp [opened], by simp [opened], fun j hj => by simp [Fin.val_ne_of_ne hj.symm]⟩

/-- What an edge of input `i` to `on` at `x` leaves: the input, and every output's level and schedule as they stood. -/
theorem inputEdge_parts (i : Fin 4) (on dead : Bool) (x : SysTime) (s : State) : let t := inputEdge i on dead x s
    t.mfe.ins[i].deadzone = (if on then dead else s.mfe.ins[i].deadzone) ∧ t.mfe.ins[i].level = on ∧
    (∀ j, j ≠ i → t.mfe.ins[j] = s.mfe.ins[j]) ∧
    (∀ j : Fin 12, t.mfe.outs[j].level = s.mfe.outs[j].level ∧ t.mfe.outs[j].sched = s.mfe.outs[j].sched) ∧
    (s.mfe.time.isSome = true → t.mfe.ins[i].edge = some x) := by
  have hsw := inputEdge_switching i on dead x s
  have hins := congrArg (fun v => v.2.1) hsw
  simp only [Mfe.switching] at hins
  dsimp only
  rw [hins]
  exact ⟨by simp [edged], by simp [edged], fun j hj => by simp [Fin.val_ne_of_ne hj.symm], fun j => Mfe.outs_of_switching hsw j,
    fun ht => by simp [edged, ht]⟩

theorem only_edge_of_hide {s t : State} (h : t.hide 67371008 = s.hide 67371008) : only [.mfe, .free] s t := only_of_hide rfl h

/-- An input that is on, or samples that do not confirm it, make no HVI_ON. -/
theorem hviOn_idle {i : Fin 4} {first : SysTime} {later : List SysTime} {below : Option (SysTime × SysTime)} {s : State}
    (h : (!s.mfe.ins[i].level && s.mfe.confirmed i first later) = false) : exec (.hviOn i first later below) s = .next s :=
  (actWhen_of_false (by rw [Bool.and_assoc, h, Bool.and_false]) : execHviOn i first later below s = _)

/-- An input that is off, or one not quiet for 12 ms, makes no HVI_OFF. -/
theorem hviOff_idle {i : Fin 4} {last : SysTime} {s : State} (h : (s.mfe.ins[i].level && s.mfe.silent last) = false) :
    exec (.hviOff i last) s = .next s :=
  (actWhen_of_false (by rw [Bool.and_assoc, h, Bool.and_false]) : execHviOff i last s = _)

/-- The samples leave no doubt of a dead interval: none lay there, or the feed is not present. -/
theorem hviOn_sound {i : Fin 4} {first : SysTime} {later : List SysTime} {below : Option (SysTime × SysTime)} {s : State}
    (hp : s.mfe.powered = true) (hoff : s.mfe.ins[i].level = false) (hc : s.mfe.confirmed i first later = true)
    (h : below = none ∨ ∀ p, s.mfe.phases[s.mfe.ins[i].feed.toNat]? = some p → p.present = false) :
    exec (.hviOn i first later below) s = .next (inputEdge i true false first s) := by
  refine (actWhen_of_true (by rw [hp, hoff, hc]; rfl) : execHviOn i first later below s = _).trans (congrArg Host.Outcome.next ?_)
  split
  · next _ _ p lo hi hf =>
    obtain ⟨hat, hpres⟩ := Option.filter_eq_some_iff.1 hf
    rcases h with h | h
    · cases h
    · exact absurd hpres (by simp [h p hat])
  · rfl

/-- A lower sample lay between the feed's crossing and the first above 60 V: the edge is dated half-way (R98). -/
theorem hviOn_dead {i : Fin 4} {first lo hi : SysTime} {later : List SysTime} {p : MainsPhase} {s : State}
    (hpow : s.mfe.powered = true) (hoff : s.mfe.ins[i].level = false) (hc : s.mfe.confirmed i first later = true)
    (hp : s.mfe.phases[s.mfe.ins[i].feed.toNat]? = some p) (hpres : p.present = true) :
    exec (.hviOn i first later (some (lo, hi))) s = .next (inputEdge i true true (Machine.midpoint lo hi) s) := by
  refine (actWhen_of_true (by rw [hpow, hoff, hc]; rfl) : execHviOn i first later (some (lo, hi)) s = _).trans
    (congrArg Host.Outcome.next ?_)
  have hf : (s.mfe.phases[s.mfe.ins[i].feed.toNat]?).filter MainsPhase.present = some p := by
    rw [hp, Option.filter_some_pos hpres]
  rw [hf]

/-- Settles O22: each command's own work is one lemma, and a report never touches a level (`Mfe.parts_of_core`). -/
theorem mfeLevelsAndGates : Obligations.MfeLevelsAndGates := by
  refine ⟨⟨fun f s => setNow_completes, fun f s => failstate_completes, fun f s => failnow_completes⟩,
    fun i x s hp ht => ⟨fun hlater => ?_, gate_completes hp ht⟩,
    fun i s hp => ⟨fun hoff => ?_, overcurrent_completes hp⟩, fun i first later below s hp => ?_⟩
  · refine (execGate_eq hp ht).trans ?_
    rw [dueEntries_eq_nil.2 hlater]
    rfl
  · exact (execOvercurrent_eq i s).trans (actWhen_of_false (by rw [hoff, Bool.and_false]))
  · refine ⟨fun hon => hviOn_idle (by rw [hon]; rfl), fun hoff hc => hviOn_idle (by rw [hc, Bool.and_false]),
      fun hoff hc => ⟨fun h => ?_, fun lo hi p hb hp' hpres => ?_⟩, fun h => confirmed_iff_of_none h i first later,
      fun hoff => hviOff_idle (by rw [hoff, Bool.false_and]), fun hloud => hviOff_idle ?_, fun hon hquiet => ?_⟩
    · have hrun := hviOn_sound hp hoff hc h
      exact ⟨_, hrun, only_edge_of_hide (execHviOn_hide i first later below s _ hrun), inputEdge_parts i true false first s⟩
    · subst hb
      have hrun := hviOn_dead (lo := lo) (hi := hi) hp hoff hc hp' hpres
      exact ⟨_, hrun, only_edge_of_hide (execHviOn_hide i first later _ s _ hrun), inputEdge_parts i true true _ s⟩
    · rw [(Bool.eq_false_iff.2 fun h => hloud ((silent_iff s.mfe first).1 h) : s.mfe.silent first = false), Bool.and_false]
    · have hrun : exec (.hviOff i first) s = .next (inputEdge i false false first s) :=
        actWhen_of_true (by rw [hp, hon, (silent_iff s.mfe first).2 hquiet]; rfl)
      exact ⟨_, hrun, only_edge_of_hide (execHviOff_hide i first s _ hrun), (inputEdge_parts i false false first s).2⟩

end Sys2Proof.Safety
end

section
/-! What counters, strobes and fault messages leave of the registers, and what they do to their own (R331, R332, R482 to R485). -/

namespace Sys2Proof.Machine

theorem State.get_of_reg {s t : State} {f : Field} (h : t.reg f.addr = s.reg f.addr) : t.get f = s.get f := congrArg f.of h

theorem State.bit_of_get {s t : State} {f : Field} (h : t.get f = s.get f) : t.bit f = s.bit f := by
  unfold State.bit
  rw [h]

/-! ## A part that is not hidden -/

theorem node_same_of_hide {s t : State} {m : Nat} (hm : m.testBit 4 = false) (h : t.hide m = s.hide m) : t.node = s.node := by
  simpa [State.hide, hm] using congrArg State.node h

theorem ic_same_of_hide {s t : State} {m : Nat} (hm : m.testBit 7 = false) (h : t.hide m = s.hide m) : t.ic = s.ic := by
  simpa [State.hide, hm] using congrArg State.ic h

theorem cycles_same_of_hide {s t : State} {m : Nat} (hm : m.testBit 2 = false) (h : t.hide m = s.hide m) : t.cycles = s.cycles := by
  simpa [State.hide, hm] using congrArg State.cycles h

theorem emb_same_of_hide {s t : State} {m : Nat} (hm : m.testBit 9 = false) (h : t.hide m = s.hide m) : t.emb = s.emb := by
  simpa [State.hide, hm] using congrArg State.emb h

theorem bar_same_of_hide {s t : State} {m : Nat} (hm : m.testBit 17 = false) (h : t.hide m = s.hide m) : t.bar = s.bar := by
  simpa [State.hide, hm] using congrArg State.bar h

/-! ## Counters, strobes, fault messages -/

theorem State.reg_putReg (a b : Nat) (w : Word) (s : State) : (s.putReg a w).reg b = if b = a then w else s.reg b :=
  tabGet_set 0 s.regs a b w

theorem State.reg_count_ne (f : Field) (n : Nat) (s : State) {a : Nat} (h : a ≠ f.addr) : (s.count f n).reg a = s.reg a :=
  State.reg_put_ne f _ s h

theorem State.get_count_same (f : Field) (n : Nat) (s : State) (h : f.Fits) :
    (s.count f n).get f = min (s.get f + n) (2 ^ f.width - 1) := by
  have hlt : min (s.get f + n) (2 ^ f.width - 1) < 2 ^ f.width := by
    have := Nat.two_pow_pos f.width
    omega
  exact (State.get_put_same f _ s h).trans (Nat.mod_eq_of_lt hlt)

theorem State.reg_strobe_ne (src : Nat) (s : State) {a : Nat} (h : a ≠ (cntField src).addr) : (s.strobe src).reg a = s.reg a := by
  unfold State.strobe
  split
  · rfl
  · exact State.reg_count_ne _ 1 s h

theorem State.reg_interrupt_ne (src : Nat) (s : State) {a : Nat} (h : a ≠ (cntField src).addr) :
    (s.interrupt src).reg a = s.reg a := by
  unfold State.interrupt
  split
  · rfl
  · exact State.reg_strobe_ne src _ h

theorem State.reg_raise_ne (f : FaultSpec) (s : State) {a : Nat} (h : a ≠ F.FLT_CNT_B_DROPPED.addr) :
    (s.raise f).reg a = s.reg a := by
  unfold State.raise State.sendRecord
  split
  · rfl
  · split
    · exact State.reg_count_ne _ 1 s h
    · rfl

/-- A strobe of a latched source keeps its latch. -/
theorem State.interrupt_lat {src : Nat} (h : reservedSource src = false) (s : State) :
    (s.interrupt src).ic.lat = s.ic.lat ||| BitVec.twoPow 128 src := by
  simp [State.interrupt, State.strobe, h]

/-- What a fault message does to the collector depends on the collector, the clocks and the failed domains alone. -/
theorem State.raise_col_congr {f : FaultSpec} {s t : State} (hcol : t.col = s.col) (hcyc : t.cycles = s.cycles)
    (hnow : t.now = s.now) (hnode : t.node = s.node) : (t.raise f).col = (s.raise f).col := by
  have hrec : t.recordOf f = s.recordOf f := by
    simp only [State.recordOf, State.stampTime, State.stampExt, hcyc, hnow, hnode]
  unfold State.raise State.sendRecord
  rw [hrec, hcol, hcyc]
  split
  · rfl
  · split
    · simpa using hcol
    · rfl

end Sys2Proof.Machine
end

section
/-! CONFIG, TIME frames and the MFE's own life: boot, supply, heartbeat, hold, STATUS and its requests (R79 to R92, R98). -/

namespace Sys2Proof.Machine

/-! ## CONFIG (R81, R98, Table 04-10) -/

/-- Output `o` as CONFIG `f` leaves it: what changes drops the times measured (R98). -/
def HvOut.configured (f : List Byte) (o : HvOut) : HvOut :=
  let op := BitVec.ofNat 16 (leAt f 9 2)
  let re := BitVec.ofNat 16 (leAt f 11 2)
  if o.paired == byteAt f 8 && o.nomOperate == op && o.nomRelease == re then
    { o with paired := byteAt f 8, nomOperate := op, nomRelease := re }
  else { o with paired := byteAt f 8, nomOperate := op, nomRelease := re, operate := none, release := none, onGate := none, offGate := none }

theorem HvOut.configured_fields (f : List Byte) (o : HvOut) : (o.configured f).paired = byteAt f 8 ∧
    (o.configured f).nomOperate = BitVec.ofNat 16 (leAt f 9 2) ∧ (o.configured f).nomRelease = BitVec.ofNat 16 (leAt f 11 2) ∧
    (o.configured f).level = o.level ∧ (o.configured f).sched = o.sched := by
  unfold HvOut.configured
  dsimp only
  split <;> exact ⟨rfl, rfl, rfl, rfl, rfl⟩

theorem HvOut.configured_same {f : List Byte} {o : HvOut} (h : o.paired = byteAt f 8 ∧ o.nomOperate = BitVec.ofNat 16 (leAt f 9 2) ∧
    o.nomRelease = BitVec.ofNat 16 (leAt f 11 2)) : o.configured f = o := by
  obtain ⟨hp, ho, hr⟩ := h
  unfold HvOut.configured
  rw [← hp, ← ho, ← hr]
  simp

theorem HvOut.configured_changed {f : List Byte} {o : HvOut} (h : ¬ (o.paired = byteAt f 8 ∧
    o.nomOperate = BitVec.ofNat 16 (leAt f 9 2) ∧ o.nomRelease = BitVec.ofNat 16 (leAt f 11 2))) :
    (o.configured f).operate = none ∧ (o.configured f).release = none := by
  unfold HvOut.configured
  dsimp only
  rw [if_neg (by simpa [and_assoc] using h)]
  exact ⟨rfl, rfl⟩

theorem mfeConfig_output {f : List Byte} {i : Fin 12} (hitem : byteAt f 6 = 0x01) (hi : (byteAt f 7).toNat = i.val) (s : State) :
    mfeConfig f s = (stOK, [], s.setOut i (s.mfe.outs[i].configured f)) := by
  have hn : (byteAt f 7).toNat < 12 := by omega
  obtain rfl : i = ⟨_, hn⟩ := Fin.ext hi.symm
  simp only [mfeConfig, hitem, if_true, dif_pos hn]
  rfl

/-- The outputs an input is paired with, once its feed phase is another (R98). -/
def Mfe.unpaired (n : Nat) (m : Mfe) : Vector HvOut 12 := m.outs.map fun o =>
  if o.paired.toNat = n then { o with operate := none, release := none, onGate := none, offGate := none } else o

/-- The MFE once CONFIG `f` has given input `i` its feed phase. -/
def fed (f : List Byte) (i : Fin 4) (s : State) : State := s.modM fun m => { m with
  ins := m.ins.set i { s.mfe.ins[i] with feed := byteAt f 8 }
  outs := if s.mfe.ins[i].feed == byteAt f 8 then m.outs else m.unpaired i }

theorem mfeConfig_input {f : List Byte} {i : Fin 4} (hitem : byteAt f 6 = 0x02) (hi : (byteAt f 7).toNat = i.val) (s : State) :
    mfeConfig f s = (stOK, [], fed f i s) := by
  have hn : (byteAt f 7).toNat < 4 := by omega
  obtain rfl : i = ⟨_, hn⟩ := Fin.ext hi.symm
  simp only [mfeConfig, hitem, if_neg (by decide : ¬ (0x02 : Byte) = 0x01), if_true, dif_pos hn]
  rfl

theorem fed_out (f : List Byte) (i : Fin 4) (s : State) (j : Fin 12) :
    (fed f i s).mfe.outs[j].level = s.mfe.outs[j].level ∧ (fed f i s).mfe.outs[j].sched = s.mfe.outs[j].sched := by
  simp only [fed, State.modM, Mfe.unpaired]
  split
  · exact ⟨rfl, rfl⟩
  · simp only [Fin.getElem_fin, Vector.getElem_map]
    split <;> exact ⟨rfl, rfl⟩

theorem mfeConfig_refused {f : List Byte} (h : byteAt f 6 ≠ 0x01 ∧ byteAt f 6 ≠ 0x02 ∨ 12 ≤ (byteAt f 7).toNat ∨
    byteAt f 6 = 0x02 ∧ 4 ≤ (byteAt f 7).toNat) (s : State) : mfeConfig f s = (stBAD_REQUEST, [], s) := by
  unfold mfeConfig
  dsimp only
  split
  · next h1 =>
    refine dif_neg fun hn => ?_
    rcases h with ⟨h, -⟩ | h | ⟨h, -⟩
    · exact h h1
    · omega
    · exact absurd (h1.symm.trans h) (by decide)
  · split
    · next h2 =>
      refine dif_neg fun hn => ?_
      rcases h with ⟨-, h⟩ | h | ⟨-, h⟩
      · exact h h2
      · omega
      · omega
    · rfl

/-! ## System time (R85) -/

theorem steerTime_kept (t : SysTime) (m : Mfe) : (steerTime t m).outs = m.outs ∧ (steerTime t m).store = m.store := by
  unfold steerTime syncRuns
  split <;> exact ⟨rfl, rfl⟩

theorem steerTime_time_of_none {m : Mfe} (h : m.time = none) (t : SysTime) : (steerTime t m).time = some t := by
  simp [steerTime, h]

/-- Out of SYNC and beyond 2 µs the copy steps; else it slews by at most 50 ns, which is 26 units (log entry 49). -/
theorem steerTime_time {m : Mfe} {c : SysTime} (h : m.time = some c) (t : SysTime) : (steerTime t m).time =
    if m.sync = false ∧ 1073 < (timeDiff t c).natAbs then some t
    else some (c + BitVec.ofInt 64 (max (-26) (min 26 (timeDiff t c)))) := by
  simp only [steerTime, h, Bool.and_eq_true, Bool.not_eq_true', decide_eq_true_eq]
  split <;> rfl

/-- SYNC is declared at the 16th near offset in a row, and dropped at the 4th far one. -/
theorem steerTime_sync {m : Mfe} {c : SysTime} (h : m.time = some c) (t : SysTime) :
    (m.sync = false → ((steerTime t m).sync = true ↔ (timeDiff t c).natAbs ≤ 268 ∧ 15 ≤ m.inRun)) ∧
    (m.sync = true → ((steerTime t m).sync = false ↔ 1073 < (timeDiff t c).natAbs ∧ 3 ≤ m.outRun)) := by
  refine ⟨fun hs => ?_, fun hs => ?_⟩
  · simp only [steerTime, h, syncRuns, hs, Bool.false_eq_true, if_false, decide_eq_true_eq]
    split <;> omega
  · simp only [steerTime, h, syncRuns, hs, if_true, decide_eq_true_eq, decide_eq_false_iff_not]
    split <;> omega

/-! ## Supply (R80, R93) -/

theorem clearMeasurements_mfe (s : State) : (clearMeasurements s).mfe = s.mfe := by
  simp [clearMeasurements, State.each, State.when, List.range_succ]
  split <;> simp

/-- The registers of the MFE's measurements read 0. -/
theorem clearMeasurements_reg (s : State) : (clearMeasurements s).reg 0x400C00B0 = 0 ∧
    ∀ p : Fin 3, (clearMeasurements s).reg (0x400C0060 + 8 * p) = 0 ∧ (clearMeasurements s).reg (0x400C0064 + 8 * p) = 0 := by
  have hoff {c : Bool} {t : State} {a : Nat} (ha : a ≠ (cntField 99).addr) : (t.when c (State.interrupt 99)).reg a = t.reg a := by
    unfold State.when
    split
    · exact State.reg_interrupt_ne 99 t ha
    · rfl
  unfold clearMeasurements
  dsimp only
  refine ⟨?_, fun p => ?_⟩
  · rw [hoff (by decide), State.reg_putReg, if_pos rfl]
  · fin_cases p <;> constructor <;> rw [hoff (by decide)] <;> simp [State.each, List.range_succ, State.reg_putReg]

/-! ## STATUS (R80, Table 02-10) -/

/-- A number put together from its bits. -/
def bitSum {n : Nat} (p : Fin n → Bool) : Nat := (List.finRange n).foldl (fun w i => if p i then w + 2 ^ i.val else w) 0

theorem bitSum_succ {n : Nat} (p : Fin (n + 1) → Bool) :
    bitSum p = bitSum (fun i => p i.castSucc) + if p (Fin.last n) then 2 ^ n else 0 := by
  unfold bitSum
  rw [List.finRange_succ_last, List.foldl_append, List.foldl_map]
  simp only [List.foldl_cons, List.foldl_nil, Fin.val_last, Fin.val_castSucc]
  split <;> rfl

theorem bitSum_lt {n : Nat} (p : Fin n → Bool) : bitSum p < 2 ^ n := by
  induction n with
  | zero => exact Nat.one_pos
  | succ n ih =>
    have := ih fun i => p i.castSucc
    rw [bitSum_succ, Nat.pow_succ]
    split <;> omega

theorem testBit_bitSum {n : Nat} (p : Fin n → Bool) (i : Fin n) : (bitSum p).testBit i = p i := by
  induction n with
  | zero => exact i.elim0
  | succ n ih =>
    have hlt := bitSum_lt fun i => p i.castSucc
    rw [bitSum_succ]
    refine Fin.lastCases ?_ (fun i => ?_) i
    · rw [Fin.val_last]
      split
      · next h => rw [Nat.add_comm, Nat.testBit_two_pow_add_eq, Nat.testBit_lt_two_pow hlt, h]; rfl
      · next h => rw [Nat.add_zero, Nat.testBit_lt_two_pow hlt, Bool.eq_false_iff.2 h]
    · rw [Fin.val_castSucc, ← ih (fun i => p i.castSucc) i]
      split
      · rw [Nat.add_comm, Nat.testBit_two_pow_add_gt i.isLt]
      · rfl

theorem Mfe.levels_eq (m : Mfe) : m.levels = bitSum fun i : Fin 12 => m.outs[i].level := rfl

/-- The flags of STATUS byte 7 stand at their bits. -/
theorem getLsbD_flags (m : Mfe) : (BitVec.ofNat 8 m.flags).getLsbD 0 = m.sync ∧ (BitVec.ofNat 8 m.flags).getLsbD 3 = m.restarted ∧
    (BitVec.ofNat 8 m.flags).getLsbD 4 = m.overtemp := by
  unfold Mfe.flags
  generalize m.sync = a, m.failHeld = b, (!m.enabled) = c, m.restarted = d, m.overtemp = e, m.outs.toList.any HvOut.tripped = g
  revert a b c d e g
  decide

/-- Bytes 6 to 29 of the STATUS frame the MFE would send. -/
def Mfe.statusBody (m : Mfe) : List Byte :=
  slice ([m.roms.headD 0, BitVec.ofNat 8 m.flags] ++ leBytes 2 m.levels ++ [BitVec.ofNat 8 m.hviLevels, 0] ++ leBytes 2 m.lost.toNat) 0 24

theorem Mfe.statusBody_fields (m : Mfe) : byteAt m.statusBody 1 = BitVec.ofNat 8 m.flags ∧ leAt m.statusBody 2 2 = m.levels ∧
    leAt m.statusBody 6 2 = m.lost.toNat := by
  have hlev : m.levels < 256 ^ 2 := (bitSum_lt _).trans (by decide)
  have hlost : m.lost.toNat < 256 ^ 2 := m.lost.isLt
  unfold Mfe.statusBody
  refine ⟨byteAt_slice _ 0 (by decide), ?_, ?_⟩
  · rw [leAt_slice _ (by decide), List.append_assoc, List.append_assoc]
    exact (leAt_written _ _ 2 _ rfl).trans (Nat.mod_eq_of_lt hlev)
  · rw [leAt_slice _ (by decide)]
    have hread := leAt_written ([m.roms.headD 0, BitVec.ofNat 8 m.flags] ++ leBytes 2 m.levels ++
      [BitVec.ofNat 8 m.hviLevels, 0]) [] (i := 6) 2 m.lost.toNat (by simp)
    rw [List.append_nil, Nat.mod_eq_of_lt hlost] at hread
    exact hread

/-! ## The MFE's own requests (R90 to R92) -/

/-- A count that stops at 0xFFFF. -/
theorem stop_at_max (x : BitVec 16) : (if x = 0xFFFF then x else x + 1) = BitVec.ofNat 16 (min 0xFFFF (x.toNat + 1)) := by
  split <;> bv_omega

theorem mfeRetransmit_of_due {q : BitVec 16} {r : UpReq} {s : State} (hp : s.mfe.powered = true)
    (hr : s.mfe.ups.find? (fun r => r.seq == q) = some r) (hsends : r.sends < 4) (hdue : r.last + 22893 ≤ s.mfe.clock) :
    mfeRetransmit q s = .next (sendUp r.type true q 0 r.payload (s.modM fun m => { m with
      retries := BitVec.ofNat 16 (min 0xFFFF (m.retries.toNat + 1))
      ups := m.ups.map fun x => if x.seq = q then { x with sends := x.sends + 1, last := s.mfe.clock } else x })) := by
  simp only [mfeRetransmit, actWhen, hp, hr, if_true, ← stop_at_max]
  rw [if_pos ⟨hsends, hdue⟩]

theorem mfeRetransmit_of_not_due {q : BitVec 16} {r : UpReq} {s : State} (hr : s.mfe.ups.find? (fun r => r.seq == q) = some r)
    (h : 4 ≤ r.sends ∨ s.mfe.clock < r.last + 22893) : mfeRetransmit q s = .next s := by
  have hnot : ¬ (r.sends < 4 ∧ r.last + retryCycles ≤ s.mfe.clock) := by
    rw [show retryCycles = 22893 from rfl]
    omega
  simp only [mfeRetransmit, actWhen, hr, if_neg hnot, ite_self]

theorem mfeTimeout_of_early {q : BitVec 16} {r : UpReq} {s : State} (hr : s.mfe.ups.find? (fun r => r.seq == q) = some r)
    (h : s.mfe.clock < r.first + usCycles 200) : mfeTimeout q s = .next s := by
  simp only [mfeTimeout, actWhen, hr, if_pos h, ite_self]

/-- A report that is not kept for another try is given up; with none waiting nothing else follows. -/
theorem mfeTimeout_of_due {q : BitVec 16} {r : UpReq} {s : State} (hp : s.mfe.powered = true)
    (hr : s.mfe.ups.find? (fun r => r.seq == q) = some r) (hdue : r.first + usCycles 200 ≤ s.mfe.clock)
    (hkept : keptReport r.type = false) (hw : s.mfe.waiting = []) :
    mfeTimeout q s = .next (s.modM fun m => { m with
      lost := BitVec.ofNat 16 (min 0xFFFF (m.lost.toNat + 1)), ups := m.ups.filter fun x => x.seq != q }) := by
  simp only [mfeTimeout, actWhen, hp, hr, if_true, if_neg (Nat.not_lt.2 hdue), hkept, Bool.false_eq_true, if_false, ← stop_at_max]
  exact congrArg Host.Outcome.next (sendWaitingUps_of_none (by exact hw) 16)

end Sys2Proof.Machine

namespace Sys2Proof.Safety
open Sys2Proof.Machine

theorem config_completes {f : List Byte} {status : Byte} {s s' : State} {post : State → Prop} (hto : toMfe f tCONFIG s)
    (hk : mfeConfig f (heardDown s) = (status, [], s')) (hstore : s'.mfe.store = s.mfe.store)
    (hpost : answered f status s (completedDown f (complete status []) s') → post (completedDown f (complete status []) s')) :
    completes (.config f) s [.mfe] post := by
  refine request_completes (ok := fun t => t == tCONFIG || t == 0 || (decide (0x09 < t.toNat) && decide (t.toNat < 0x81)))
    hto (rfl : execConfig f s = _) rfl (execConfig_hide f s) ?_ hstore hpost
  rw [if_pos hto.1.2.2, hk]

@[simp] theorem completedDown_ins (f payload : List Byte) (s : State) : (completedDown f payload s).mfe.ins = s.mfe.ins := rfl

theorem configOutput_completes {f : List Byte} {i : Fin 12} {s : State} (hto : toMfe f tCONFIG s) (hitem : byteAt f 6 = 0x01)
    (hi : (byteAt f 7).toNat = i.val) : completes (.config f) s [.mfe] fun t =>
      answered f stOK s t ∧ t.mfe.outs = s.mfe.outs.set i (s.mfe.outs[i].configured f) :=
  config_completes hto (mfeConfig_output hitem hi _) (by simp [State.setOut, State.modM])
    fun ha => ⟨ha, by simp [State.setOut, State.modM]⟩

theorem configInput_completes {f : List Byte} {i : Fin 4} {s : State} (hto : toMfe f tCONFIG s) (hitem : byteAt f 6 = 0x02)
    (hi : (byteAt f 7).toNat = i.val) : completes (.config f) s [.mfe] fun t => answered f stOK s t ∧
      t.mfe.ins = s.mfe.ins.set i { s.mfe.ins[i] with feed := byteAt f 8 } ∧
      ∀ j : Fin 12, t.mfe.outs[j].level = s.mfe.outs[j].level ∧ t.mfe.outs[j].sched = s.mfe.outs[j].sched :=
  config_completes hto (mfeConfig_input hitem hi _) (by simp [fed, State.modM])
    fun ha => ⟨ha, by simp [fed, State.modM], fun j => by simpa using fed_out f i (heardDown s) j⟩

theorem timeFrame_completes {f : List Byte} {transit : Nat} {s : State} (hf : frame f tTIME) (hp : s.mfe.powered = true) :
    completes (.timeFrame f transit) s [.mfe] fun t =>
      t.mfe = steerTime (BitVec.ofNat 64 (leAt f 8 8 + transit)) (heardDown s).mfe := by
  obtain ⟨hlen, hcrc, htype⟩ := hf
  have hrun : exec (.timeFrame f transit) s = _ :=
    downFrame_sound (ok := (· == tTIME)) (k := State.modM (steerTime (BitVec.ofNat 64 (leAt f 8 8 + transit)))) hlen hcrc (by simp [htype]) hp
  exact ⟨_, hrun, only_mfe_of_hide (execTimeFrame_hide f transit s _ hrun), rfl⟩

theorem supplyGone_completes {s : State} (hp : s.mfe.powered = true) :
    completes (.mfeSupplyLost true) s [.regs, .ic, .mfe] fun t => t.mfe = { Mfe.reset with resets := 0 } ∧ t.reg 0x400C00B0 = 0 ∧
      ∀ p : Fin 3, t.reg (0x400C0060 + 8 * p) = 0 ∧ t.reg (0x400C0064 + 8 * p) = 0 := by
  have hrun : exec (.mfeSupplyLost true) s = .next (clearMeasurements (s.modM fun _ => { Mfe.reset with resets := 0 })) :=
    (actWhen_of_true hp : execMfeSupplyLost true s = _)
  exact ⟨_, hrun, only_of_hide rfl (execMfeSupplyLost_hide true s _ hrun), clearMeasurements_mfe _, clearMeasurements_reg _⟩

theorem mfeHeartbeatLost_completes {s : State} (hp : s.mfe.powered = true) (hl : s.mfe.link = true)
    (hdue : s.mfe.heard + usCycles 1000 ≤ s.mfe.clock) : completes .mfeHeartbeatLost s [.mfe] fun t =>
      t.mfe.link = false ∧ t.mfe.sync = false ∧ t.mfe.ups = [] ∧ t.mfe.time = s.mfe.time ∧ t.mfe.fail = s.mfe.fail ∧
      (s.mfe.failHeld = false → t.mfe.hold = some s.mfe.clock) ∧
      ∀ i : Fin 12, t.mfe.outs[i].level = s.mfe.outs[i].level ∧ t.mfe.outs[i].sched = [] := by
  have hrun : exec .mfeHeartbeatLost s = _ := (actWhen_of_true (by rw [hp, hl]; exact decide_eq_true hdue) : execMfeHeartbeatLost s = _)
  refine ⟨_, hrun, only_mfe_of_hide (execMfeHeartbeatLost_hide s _ hrun), rfl, rfl, rfl, rfl, rfl, fun hh => ?_, fun i => ?_⟩
  · simp [State.modM, dropSchedule, hh]
  · simp [State.modM, dropSchedule]

theorem statusFrameSend_completes {temp : Byte} {hot : Bool} {s : State} (hp : s.mfe.powered = true) :
    completes (.statusFrameSend temp hot) s [.mfe] fun t => t.mfe.temp = temp ∧ t.mfe.overtemp = hot ∧ t.mfe.outs = s.mfe.outs ∧
      t.mfe.statusSent = ({ s.mfe with temp := temp, overtemp := hot } : Mfe).statusBody := by
  have hrun : exec (.statusFrameSend temp hot) s = _ := (actWhen_of_true hp : execStatusFrameSend temp hot s = _)
  exact ⟨_, hrun, only_mfe_of_hide (execStatusFrameSend_hide temp hot s _ hrun), rfl, rfl, rfl, rfl⟩

/-- MFE_HOLD_END does what the fail state does, 100 ms after the hold began. -/
theorem mfeHoldEnd_runs {c : Nat} {s : State} (hp : s.mfe.powered = true) (hc : s.mfe.hold = some c) :
    exec .mfeHoldEnd s = .next (if c + usCycles 100000 ≤ s.mfe.clock then applyFail s else s) := by
  refine (actWhen_of_true hp : execMfeHoldEnd s = _).trans ?_
  rw [hc]

/-- Settles O23: each command's state is written out once, and the obligation reads its fields. -/
theorem mfeOwnLife : Obligations.MfeOwnLife := by
  refine ⟨⟨fun f i s hto hitem hi => ?_, fun f i s => configInput_completes, fun f s hto hbad => ?_, fun f transit s hf hp => ?_⟩,
    fun s => ⟨fun hp => ?_, fun hp => ?_, supplyGone_completes, fun hp => ?_, rfl, rfl, rfl, rfl, rfl, fun i => ?_⟩,
    fun s hp hl => ⟨fun hearly => ?_, mfeHeartbeatLost_completes hp hl⟩, fun c s hp hc => ⟨fun hearly => ?_, fun hdue => ?_⟩,
    fun temp hot s hp => ?_, fun q r s hp hr => ⟨fun hsends hdue => ?_, mfeRetransmit_of_not_due hr, mfeTimeout_of_early hr,
      fun hdue hhv hopt hw => ?_⟩⟩
  · obtain ⟨t, hrun, honly, ha, houts⟩ := configOutput_completes hto hitem hi
    obtain ⟨hpair, hnomo, hnomr, hlevel, hsched⟩ := HvOut.configured_fields f s.mfe.outs[i]
    refine ⟨t, hrun, honly, ha, ?_⟩
    have hsame : t.mfe.outs[i] = s.mfe.outs[i].configured f := by simp [houts]
    refine ⟨fun j hj => by simp [houts, Fin.val_ne_of_ne hj.symm], ?_⟩
    rw [hsame]
    exact ⟨hpair, hnomo, hnomr, hlevel, hsched, HvOut.configured_same, HvOut.configured_changed⟩
  · exact config_completes hto (mfeConfig_refused hbad _) (by simp) fun ha => ⟨ha, by simp, by simp⟩
  · obtain ⟨t, hrun, honly, hmfe⟩ := timeFrame_completes (transit := transit) hf hp
    obtain ⟨houts, hstore⟩ := steerTime_kept (BitVec.ofNat 64 (leAt f 8 8 + transit)) (heardDown s).mfe
    refine ⟨t, hrun, honly, ?_⟩
    dsimp only
    rw [hmfe]
    refine ⟨by simp [houts], by simp [hstore], fun hnone => steerTime_time_of_none (by simp [hnone]) _, fun c hc => ?_⟩
    have htime := steerTime_time (m := (heardDown s).mfe) (by simpa using hc) (BitVec.ofNat 64 (leAt f 8 8 + transit))
    have hsync := steerTime_sync (m := (heardDown s).mfe) (by simpa using hc) (BitVec.ofNat 64 (leAt f 8 8 + transit))
    simp only [heardDown_parts] at htime hsync
    refine ⟨fun hout hfar => htime.trans (if_pos ⟨hout, hfar⟩), fun hin => htime.trans (if_neg fun h => ?_), hsync⟩
    rcases hin with hin | hin
    · exact absurd hin (by simp [h.1])
    · exact absurd h.2 (by omega)
  · exact (actWhen_of_false (by rw [hp]; rfl) : execMfeBoot s = _)
  · exact (actWhen_of_true (by rw [hp]; rfl) : execMfeBoot s = _)
  · rw [← stop_at_max]
    exact (actWhen_of_true hp : execMfeSupplyLost false s = _)
  · simp [Mfe.reset, HvOut.reset]
  · exact (actWhen_of_false (by rw [decide_eq_false (Nat.not_le.2 hearly), Bool.and_false]) : execMfeHeartbeatLost s = _)
  · rw [mfeHoldEnd_runs hp hc, if_neg (Nat.not_le.2 hearly)]
  · have hrun := mfeHoldEnd_runs hp hc
    rw [if_pos hdue] at hrun
    obtain ⟨hheld, hhold, -, -, -⟩ := applyFail_held s
    exact ⟨_, hrun, only_mfe_of_hide (execMfeHoldEnd_hide s _ hrun), hheld, hhold, fun i => by rw [applyFail_out]⟩
  · obtain ⟨t, hrun, honly, htemp, hhot, houts, hsent⟩ := statusFrameSend_completes (temp := temp) (hot := hot) hp
    obtain ⟨hflags, hlev, hlost⟩ := Mfe.statusBody_fields { s.mfe with temp := temp, overtemp := hot }
    obtain ⟨hsync, hrest, hover⟩ := getLsbD_flags { s.mfe with temp := temp, overtemp := hot }
    refine ⟨t, hrun, honly, htemp, hhot, houts, ?_⟩
    rw [hsent, hflags, hlev, hlost]
    exact ⟨slice_length _ _ _, hsync, hrest, hover, rfl, testBit_bitSum _⟩
  · have hrun : exec (.retransmission true q) s = _ := mfeRetransmit_of_due hp hr hsends hdue
    exact ⟨_, hrun, only_mfe_of_hide (mfeRetransmit_hide q s _ hrun), rfl, rfl⟩
  · have hrun : exec (.requestTimeout true q) s = _ :=
      mfeTimeout_of_due hp hr hdue (by simp [keptReport, hhv, hopt]) hw
    exact ⟨_, hrun, only_mfe_of_hide (mfeTimeout_hide q s _ hrun), rfl, rfl⟩

end Sys2Proof.Safety
end

section
/-! The logic side's frames and requests: what a frame holds, handshake, mailbox, TIME, retransmission and time-out (R81 to R93). -/

namespace Sys2Proof.Machine

/-! ## A frame's bytes (R86, R87, Table 02-5) -/

/-- Bytes 0 to 29 of a frame. -/
def frameBody (type : Byte) (retx : Bool) (q ref : BitVec 16) (payload : List Byte) : List Byte :=
  [type, if retx then 0x80 else 0] ++ leBytes 2 q.toNat ++ leBytes 2 ref.toNat ++ slice payload 0 24

theorem barFrame_eq (type : Byte) (retx : Bool) (q ref : BitVec 16) (payload : List Byte) : barFrame type retx q ref payload =
    frameBody type retx q ref payload ++ leBytes 2 (crc16 (frameBody type retx q ref payload)).toNat := rfl

theorem frameBody_length (type : Byte) (retx : Bool) (q ref : BitVec 16) (payload : List Byte) :
    (frameBody type retx q ref payload).length = 30 := by simp [frameBody]

theorem barFrame_length (type : Byte) (retx : Bool) (q ref : BitVec 16) (payload : List Byte) :
    (barFrame type retx q ref payload).length = 32 := by simp [barFrame_eq, frameBody_length]

theorem toNat_mod_bytes (x : BitVec 16) : x.toNat % 256 ^ 2 = x.toNat := Nat.mod_eq_of_lt x.isLt

theorem frameOk_barFrame (type : Byte) (retx : Bool) (q ref : BitVec 16) (payload : List Byte) :
    frameOk (barFrame type retx q ref payload) = true := by
  have hbody := frameBody_length type retx q ref payload
  have hcrc := leAt_written (frameBody type retx q ref payload) [] 2 (crc16 (frameBody type retx q ref payload)).toNat hbody
  rw [List.append_nil, ← barFrame_eq, toNat_mod_bytes] at hcrc
  rw [frameOk, hcrc, barFrame_eq, List.take_left' hbody]
  exact beq_self_eq_true _

theorem fType_barFrame (type : Byte) (retx : Bool) (q ref : BitVec 16) (payload : List Byte) :
    fType (barFrame type retx q ref payload) = type := rfl

theorem retx_barFrame (type : Byte) (retx : Bool) (q ref : BitVec 16) (payload : List Byte) :
    (byteAt (barFrame type retx q ref payload) 1).getLsbD 7 = retx := by
  change (if retx then (0x80 : Byte) else 0).getLsbD 7 = retx
  cases retx <;> rfl

theorem fSeq_barFrame (type : Byte) (retx : Bool) (q ref : BitVec 16) (payload : List Byte) :
    fSeq (barFrame type retx q ref payload) = q := by
  have hread : leAt (barFrame type retx q ref payload) 2 2 = q.toNat := by
    simp only [barFrame_eq, frameBody, List.append_assoc]
    rw [leAt_written _ _ 2 _ (by simp), toNat_mod_bytes]
  rw [fSeq, hread, BitVec.ofNat_toNat, BitVec.setWidth_eq]

theorem fRef_barFrame (type : Byte) (retx : Bool) (q ref : BitVec 16) (payload : List Byte) :
    fRef (barFrame type retx q ref payload) = ref := by
  have hread : leAt (barFrame type retx q ref payload) 4 2 = ref.toNat := by
    simp only [barFrame_eq, frameBody, List.append_assoc]
    rw [← List.append_assoc, leAt_written _ _ 2 _ (by simp), toNat_mod_bytes]
  rw [fRef, hread, BitVec.ofNat_toNat, BitVec.setWidth_eq]

theorem fPayload_barFrame (type : Byte) (retx : Bool) (q ref : BitVec 16) (payload : List Byte) :
    fPayload (barFrame type retx q ref payload) = slice payload 0 24 := by
  have hread := slice_append_right ([type, if retx then 0x80 else 0] ++ leBytes 2 q.toNat ++ leBytes 2 ref.toNat)
    (slice payload 0 24) 0 24
  rw [fPayload, barFrame_eq, slice_append_left _ (by simp [frameBody_length])]
  exact hread.trans (slice_self (slice_length _ _ _))

/-- A payload already cut to its 24 bytes makes the same frame. -/
theorem barFrame_slice (type : Byte) (retx : Bool) (q ref : BitVec 16) (payload : List Byte) :
    barFrame type retx q ref (slice payload 0 24) = barFrame type retx q ref payload := by
  rw [barFrame, barFrame, slice_self (slice_length payload 0 24)]

/-! ## Requests -/

/-- With the link up and room, a request leaves at once. -/
theorem barSend_of_room {type : Byte} {payload : List Byte} {i : Issuer} {s : State} (hl : s.linkUp = true)
    (hr : s.maySend type = true) : barSend type payload i s = transmit ⟨0, type, slice payload 0 24, i, 0, 0, 0⟩ s := by
  simp only [barSend, hl, hr, Bool.not_true, Bool.false_eq_true, if_false, if_true]

theorem barSend_of_linkDown {type : Byte} {payload : List Byte} {i : Issuer} {s : State} (hl : s.linkUp = false) :
    barSend type payload i s = returnFailed i s := by
  simp only [barSend, hl, Bool.not_false, if_true]

theorem sendWaiting_of_none {s : State} (h : s.bar.waiting = []) (n : Nat) : sendWaiting n s = s := by
  cases n with
  | zero => rfl
  | succ n => simp [sendWaiting, h]

/-- What a request leaves in the barrier unit at its first transmission. -/
theorem transmit_bar (r : Request) (s : State) : (transmit r s).bar = { s.bar with
    outs := s.bar.outs ++ [{ r with seq := s.bar.nextSeq, sends := 1, first := s.cycles, last := s.cycles }]
    nextSeq := s.bar.nextSeq + 1
    sent := ((s.bar.nextSeq, false) :: s.bar.sent).take 64
    line := barFrame r.type false s.bar.nextSeq 0 r.payload } := rfl

/-! ## The mailbox's registers (R93) -/

/-- A mailbox request that ends shows its result, is not busy, and latches source 96. -/
theorem endMailbox_fields (n : Nat) (s : State) : (endMailbox n s).get F.BAR_MBX_TXCTL_RESULT = n % 256 ∧
    (endMailbox n s).get F.BAR_MBX_TXCTL_BUSY = 0 ∧ (endMailbox n s).ic.lat = s.ic.lat ||| BitVec.twoPow 128 96 := by
  unfold endMailbox
  refine ⟨?_, ?_, ?_⟩
  · rw [State.get_of_reg (State.reg_interrupt_ne 96 _ (by decide)), State.get_put_apart _ _ _ _ (by decide) (by decide),
      State.get_put_same _ _ _ (by decide)]
    rfl
  · rw [State.get_of_reg (State.reg_interrupt_ne 96 _ (by decide)), State.get_put_same _ _ _ (by decide)]
    rfl
  · rw [State.interrupt_lat rfl]
    simp

theorem endMailbox_reg_ne (n : Nat) (s : State) {a : Nat} (h : a ≠ 0x400C0038) (hc : a ≠ (cntField 96).addr) :
    (endMailbox n s).reg a = s.reg a := by
  unfold endMailbox
  rw [State.reg_interrupt_ne 96 _ hc, State.reg_put_ne _ _ _ h, State.reg_put_ne _ _ _ h]

/-- The command sets GO, and leaves TYPE as written. -/
theorem mailboxGo_of (v : Word) : F.BAR_MBX_TXCTL_GO.of (v ||| 0x40000000) = 1 ∧
    F.BAR_MBX_TXCTL_TYPE.of (v ||| 0x40000000) = F.BAR_MBX_TXCTL_TYPE.of v := by
  constructor
  · have hbit : (v ||| 0x40000000).getLsbD 30 = true := by simp
    rw [BitVec.getLsbD, Nat.testBit_eq_decide_div_mod_eq, decide_eq_true_eq] at hbit
    exact hbit
  · change (v ||| 0x40000000).toNat / 2 ^ 0 % 2 ^ 8 = v.toNat / 2 ^ 0 % 2 ^ 8
    rw [pow_zero, Nat.div_one, Nat.div_one, BitVec.toNat_or, Nat.or_mod_two_pow]
    simp

/-- The state in which a MAILBOX_REQUEST finds the mailbox: TYPE is written. -/
def mailboxTyped (v : Word) (s : State) : State := s.put F.BAR_MBX_TXCTL_TYPE (F.BAR_MBX_TXCTL_TYPE.of v)

theorem mailboxTyped_get (v : Word) (s : State) : (mailboxTyped v s).get F.BAR_MBX_TXCTL_TYPE = F.BAR_MBX_TXCTL_TYPE.of v ∧
    (mailboxTyped v s).get F.BAR_MBX_TXCTL_BUSY = s.get F.BAR_MBX_TXCTL_BUSY := by
  refine ⟨(State.get_put_same _ _ s (by decide)).trans ?_, State.get_put_apart _ _ _ s (by decide) (by decide)⟩
  exact Nat.mod_mod _ _

theorem execMailboxRequest_of_clocked {s : State} (hc : s.clocked = true) (v : Word) :
    execMailboxRequest v s = .next (mailboxGo (mailboxTyped v s)) := by
  obtain ⟨hgo, htype⟩ := mailboxGo_of v
  rw [execMailboxRequest, Safety.actWhen_of_true hc, writeMailbox, hgo, htype]
  rfl

/-- The payload of a mailbox request: the six TX words. -/
def State.mailboxPayload (s : State) : List Byte := (List.range 6).flatMap fun i => leBytes 4 (s.get (F.BAR_MBX_TX_DATA i))

theorem mailboxPayload_length (s : State) : s.mailboxPayload.length = 24 := by
  simp [State.mailboxPayload, List.range_succ]

theorem mailboxPayload_congr {s t : State} (h : ∀ i < 6, t.get (F.BAR_MBX_TX_DATA i) = s.get (F.BAR_MBX_TX_DATA i)) :
    t.mailboxPayload = s.mailboxPayload := by
  unfold State.mailboxPayload
  refine List.flatMap_congr fun i hi => ?_
  rw [h i (List.mem_range.1 hi)]

theorem mailboxGo_cases (s : State) : mailboxGo s =
    if s.bit F.BAR_MBX_TXCTL_BUSY then s
    else if BitVec.ofNat 8 (s.get F.BAR_MBX_TXCTL_TYPE) ≠ tCONFIG ∧ BitVec.ofNat 8 (s.get F.BAR_MBX_TXCTL_TYPE) ≠ tQUERY then
      endMailbox 0xFE s
    else barSend (BitVec.ofNat 8 (s.get F.BAR_MBX_TXCTL_TYPE)) s.mailboxPayload .mailbox (s.put F.BAR_MBX_TXCTL_BUSY 1) := rfl

/-! ## Retries and time-outs (R90) -/

theorem nodeRetransmit_of_due {q : BitVec 16} {r : Request} {s : State} (hc : s.clocked = true)
    (hr : s.bar.outs.find? (fun r => r.seq == q) = some r) (hsends : r.sends < 4) (hdue : r.last + 22893 ≤ s.cycles) :
    nodeRetransmit q s = .next ((sendDown r.type true q 0 r.payload (s.setBar { s.bar with outs := s.bar.outs.map fun x =>
      if x.seq = q then { x with sends := x.sends + 1, last := s.cycles } else x })).count F.BAR_CNT_A_RETRIES 1) := by
  simp only [nodeRetransmit, actWhen, hc, hr, if_true]
  rw [if_pos ⟨hsends, hdue⟩]

theorem nodeRetransmit_of_not_due {q : BitVec 16} {r : Request} {s : State} (hr : s.bar.outs.find? (fun r => r.seq == q) = some r)
    (h : 4 ≤ r.sends ∨ s.cycles < r.last + 22893) : nodeRetransmit q s = .next s := by
  have hnot : ¬ (r.sends < 4 ∧ r.last + retryCycles ≤ s.cycles) := by
    rw [show retryCycles = 22893 from rfl]
    omega
  simp only [nodeRetransmit, actWhen, hr, if_neg hnot, ite_self]

theorem nodeTimeout_of_early {q : BitVec 16} {r : Request} {s : State} (hr : s.bar.outs.find? (fun r => r.seq == q) = some r)
    (h : s.cycles < r.first + usCycles 200) : nodeTimeout q s = .next s := by
  simp only [nodeTimeout, actWhen, hr, if_neg (Nat.not_le.2 h), ite_self]

theorem nodeTimeout_of_due {q : BitVec 16} {r : Request} {s : State} (hc : s.clocked = true)
    (hr : s.bar.outs.find? (fun r => r.seq == q) = some r) (hdue : r.first + usCycles 200 ≤ s.cycles) :
    nodeTimeout q s = .next (sendWaiting 16 (failRequest r s)) := by
  simp only [nodeTimeout, actWhen, hc, hr, if_true, if_pos hdue]

/-- A number that is not outstanding is nothing to send again or to give up. -/
theorem nodeRequests_of_absent {q : BitVec 16} {s : State} (h : ∀ r ∈ s.bar.outs, r.seq ≠ q) :
    nodeRetransmit q s = .next s ∧ nodeTimeout q s = .next s := by
  have hnone : s.bar.outs.find? (fun r => r.seq == q) = none := by simpa using h
  exact ⟨by simp only [nodeRetransmit, actWhen, hnone, ite_self], by simp only [nodeTimeout, actWhen, hnone, ite_self]⟩

/-- The state in which a failed request goes back to its issuer: taken off, its number marked, a fault raised and counted. -/
def requestFailed (r : Request) (s : State) : State :=
  (barFault kTIMEOUT 0 (s.setBar { s.bar with
    outs := s.bar.outs.filter fun x => x.seq != r.seq
    sent := s.bar.sent.map fun x => if x.1 = r.seq then (x.1, true) else x })).count F.BAR_CNT_B_TIMEOUTS 1

theorem failRequest_eq (r : Request) (s : State) : failRequest r s = returnFailed r.issuer (requestFailed r s) := rfl

theorem reg_requestFailed_ne (r : Request) (s : State) {a : Nat} (h : a ≠ F.BAR_CNT_B_TIMEOUTS.addr)
    (hd : a ≠ F.FLT_CNT_B_DROPPED.addr) : (requestFailed r s).reg a = s.reg a :=
  (State.reg_count_ne _ 1 _ h).trans (State.reg_raise_ne _ _ hd)

theorem requestFailed_fields (r : Request) (s : State) :
    (requestFailed r s).get F.BAR_CNT_B_TIMEOUTS = min 0xFFFF (s.get F.BAR_CNT_B_TIMEOUTS + 1) ∧
    (requestFailed r s).bar.outs = (s.bar.outs.filter fun x => x.seq != r.seq) ∧
    (requestFailed r s).bar.waiting = s.bar.waiting ∧
    (requestFailed r s).col = (s.raise { src := 0x16, kind := kTIMEOUT, cls := corrected }).col := by
  refine ⟨?_, ?_, ?_, ?_⟩
  · have hget : (barFault kTIMEOUT 0 (s.setBar { s.bar with
        outs := s.bar.outs.filter fun x => x.seq != r.seq
        sent := s.bar.sent.map fun x => if x.1 = r.seq then (x.1, true) else x })).get F.BAR_CNT_B_TIMEOUTS =
        s.get F.BAR_CNT_B_TIMEOUTS := State.get_of_reg (State.reg_raise_ne _ _ (by decide))
    rw [requestFailed, State.get_count_same _ _ _ (by decide), hget, Nat.min_comm]
    rfl
  · simp [requestFailed, barFault, State.setBar]
  · simp [requestFailed, barFault, State.setBar]
  · simp only [requestFailed, State.count_rest]
    exact State.raise_col_congr (by rfl) (by rfl) (by rfl) (by rfl)

end Sys2Proof.Machine

namespace Sys2Proof.Safety
open Sys2Proof.Machine

theorem handshake_completes {s : State} (hlive : s.live = true)
    (hph : s.node.phase = .k6 ∨ s.node.phase = .k7 ∨ s.node.phase = .k8) (hl : s.linkUp = true) (hidle : s.bar.step = .idle)
    (hdue : s.bit F.BAR_STATUS_HELLO_DONE = false ∨ s.bar.again = true) (hroom : s.bar.outs.length < 16) :
    completes .handshake s [.bar] fun t => t.bar.step = .hello ∧ t.bar.again = false ∧ t.bar.nextSeq = s.bar.nextSeq + 1 ∧
      t.bar.line = barFrame tHELLO false s.bar.nextSeq 0 ([BitVec.ofNat 8 (s.get F.IDENT_CODES_ADDRESS),
        BitVec.ofNat 8 (s.get F.IDENT_MODULE_RUN_LEVEL)] ++ leBytes 2 (s.bar.nextSeq + 1).toNat) ∧
      ∃ r : Request, t.bar.outs = s.bar.outs ++ [r] ∧ r.type = tHELLO ∧ r.seq = s.bar.nextSeq ∧ r.sends = 1 ∧
        r.first = s.cycles ∧ r.last = s.cycles := by
  have hact : (s.live && (s.node.phase == .k6 || s.node.phase == .k7 || s.node.phase == .k8) && s.linkUp &&
      s.bar.step == .idle && (!s.bit F.BAR_STATUS_HELLO_DONE || s.bar.again || s.mfeFlags.getLsbD 3)) = true := by
    rw [hlive, hl, hidle]
    rcases hph with h | h | h <;> rcases hdue with h' | h' <;> simp [h, h']
  have hrun : exec .handshake s = .next (sendHello s) := (actWhen_of_true hact : execHandshake s = _)
  have hsend : sendHello s = transmit ⟨0, tHELLO, slice ([BitVec.ofNat 8 (s.get F.IDENT_CODES_ADDRESS),
      BitVec.ofNat 8 (s.get F.IDENT_MODULE_RUN_LEVEL)] ++ leBytes 2 (s.bar.nextSeq + 1).toNat) 0 24, .handshake, 0, 0, 0⟩
      (s.setBar { s.bar with step := .hello, configBad := false, again := false }) :=
    barSend_of_room hl (by simp [State.maySend, State.setBar, hroom])
  rw [hsend] at hrun
  exact ⟨_, hrun, only_of_hide (k := 131072) rfl (by simp), rfl, rfl, rfl, barFrame_slice _ _ _ _ _, _, rfl, rfl, rfl, rfl, rfl, rfl⟩

theorem mailbox_busy {v : Word} {s : State} (hc : s.clocked = true) (hb : s.bit F.BAR_MBX_TXCTL_BUSY = true) :
    completes (.mailboxRequest v) s [.regs] fun t => regsBut [F.BAR_MBX_TXCTL_TYPE.addr] s t := by
  have hrun : exec (.mailboxRequest v) s = _ := execMailboxRequest_of_clocked hc v
  rw [mailboxGo_cases, if_pos ((State.bit_of_get (mailboxTyped_get v s).2).trans hb)] at hrun
  exact ⟨_, hrun, only_of_hide (k := 1) rfl (by simp [mailboxTyped]),
    fun a ha => State.reg_put_ne _ _ s (by simpa using ha)⟩

/-- How a mailbox request that is not busy goes on, by its TYPE. -/
theorem mailbox_runs {v : Word} {s : State} (hc : s.clocked = true) (hb : s.bit F.BAR_MBX_TXCTL_BUSY = false) :
    exec (.mailboxRequest v) s = .next
      (if BitVec.ofNat 8 (F.BAR_MBX_TXCTL_TYPE.of v) ≠ tCONFIG ∧ BitVec.ofNat 8 (F.BAR_MBX_TXCTL_TYPE.of v) ≠ tQUERY then
        endMailbox 0xFE (mailboxTyped v s)
      else barSend (BitVec.ofNat 8 (F.BAR_MBX_TXCTL_TYPE.of v)) (mailboxTyped v s).mailboxPayload .mailbox
        ((mailboxTyped v s).put F.BAR_MBX_TXCTL_BUSY 1)) := by
  obtain ⟨htype, hbusy⟩ := mailboxTyped_get v s
  refine (execMailboxRequest_of_clocked hc v).trans ?_
  rw [mailboxGo_cases, if_neg (by rw [State.bit_of_get hbusy, hb]; decide), htype]

theorem endMailbox_completes {v : Word} {s u : State} {n : Nat} (hu : u.hide 1 = s.hide 1)
    (hrun : exec (.mailboxRequest v) s = .next (endMailbox n u)) : completes (.mailboxRequest v) s [.regs, .ic] fun t =>
      t.get F.BAR_MBX_TXCTL_RESULT = n % 256 ∧ t.get F.BAR_MBX_TXCTL_BUSY = 0 ∧ t.ic.lat = s.ic.lat ||| BitVec.twoPow 128 96 := by
  obtain ⟨hres, hbusy, hlat⟩ := endMailbox_fields n u
  have hic : u.ic = s.ic := ic_same_of_hide rfl hu
  exact ⟨_, hrun, only_of_hide (k := 129) rfl (by rw [endMailbox_hide _ _ _ rfl, hide_mono rfl hu]), hres, hbusy, by rw [hlat, hic]⟩

theorem mailbox_badType {v : Word} {s : State} (hc : s.clocked = true) (hb : s.bit F.BAR_MBX_TXCTL_BUSY = false)
    (h1 : BitVec.ofNat 8 (F.BAR_MBX_TXCTL_TYPE.of v) ≠ tCONFIG) (h2 : BitVec.ofNat 8 (F.BAR_MBX_TXCTL_TYPE.of v) ≠ tQUERY) :
    completes (.mailboxRequest v) s [.regs, .ic] fun t => t.get F.BAR_MBX_TXCTL_RESULT = 0xFE ∧ t.get F.BAR_MBX_TXCTL_BUSY = 0 ∧
      t.ic.lat = s.ic.lat ||| BitVec.twoPow 128 96 := by
  have hrun := mailbox_runs (v := v) hc hb
  rw [if_pos ⟨h1, h2⟩] at hrun
  exact endMailbox_completes (by simp [mailboxTyped]) hrun

theorem mailboxTyped_linkUp (v : Word) (s : State) : ((mailboxTyped v s).put F.BAR_MBX_TXCTL_BUSY 1).linkUp = s.linkUp :=
  State.bit_of_get ((State.get_put_addr _ _ _ _ (by decide)).trans (State.get_put_addr _ _ _ _ (by decide)))

theorem mailbox_linkDown {v : Word} {s : State} (hc : s.clocked = true) (hb : s.bit F.BAR_MBX_TXCTL_BUSY = false)
    (ht : BitVec.ofNat 8 (F.BAR_MBX_TXCTL_TYPE.of v) = tCONFIG ∨ BitVec.ofNat 8 (F.BAR_MBX_TXCTL_TYPE.of v) = tQUERY)
    (hl : s.linkUp = false) : completes (.mailboxRequest v) s [.regs, .ic] fun t => t.get F.BAR_MBX_TXCTL_RESULT = 0xFF ∧
      t.get F.BAR_MBX_TXCTL_BUSY = 0 ∧ t.ic.lat = s.ic.lat ||| BitVec.twoPow 128 96 := by
  have hrun := mailbox_runs (v := v) hc hb
  rw [if_neg (by tauto), barSend_of_linkDown ((mailboxTyped_linkUp v s).trans hl)] at hrun
  exact endMailbox_completes (by simp [mailboxTyped]) hrun

theorem mailbox_sends {v : Word} {s : State} (hc : s.clocked = true) (hb : s.bit F.BAR_MBX_TXCTL_BUSY = false)
    (ht : BitVec.ofNat 8 (F.BAR_MBX_TXCTL_TYPE.of v) = tCONFIG ∨ BitVec.ofNat 8 (F.BAR_MBX_TXCTL_TYPE.of v) = tQUERY)
    (hl : s.linkUp = true) (hstep : s.bar.step ≠ .hello) (hroom : s.bar.outs.length < 16) :
    completes (.mailboxRequest v) s [.regs, .bar] fun t => t.get F.BAR_MBX_TXCTL_BUSY = 1 ∧
      ∃ r : Request, t.bar.outs = s.bar.outs ++ [r] ∧ r.type = BitVec.ofNat 8 (F.BAR_MBX_TXCTL_TYPE.of v) ∧
        r.seq = s.bar.nextSeq ∧ r.issuer = .mailbox ∧
        r.payload = (List.range 6).flatMap fun i => leBytes 4 (s.get (F.BAR_MBX_TX_DATA i)) := by
  have hrun := mailbox_runs (v := v) hc hb
  have hpay : slice (mailboxTyped v s).mailboxPayload 0 24 = s.mailboxPayload :=
    (slice_self (mailboxPayload_length _)).trans (mailboxPayload_congr fun i hi => State.get_put_addr _ _ _ s (by
      simp only [F.BAR_MBX_TX_DATA, F.BAR_MBX_TXCTL_TYPE]
      omega))
  rw [if_neg (by tauto), barSend_of_room ((mailboxTyped_linkUp v s).trans hl)
    (by simp [State.maySend, mailboxTyped, hroom, hstep]), hpay] at hrun
  refine ⟨_, hrun, only_of_hide (k := 131073) rfl (by simp [mailboxTyped]), ?_, _, rfl, rfl, rfl, rfl, rfl⟩
  exact State.get_put_same F.BAR_MBX_TXCTL_BUSY 1 (mailboxTyped v s) (by decide)

theorem mailboxTimeout_completes {q : BitVec 16} {r : Request} {s : State} (hc : s.clocked = true)
    (hr : s.bar.outs.find? (fun r => r.seq == q) = some r) (hdue : r.first + usCycles 200 ≤ s.cycles)
    (hw : s.bar.waiting = []) (hi : r.issuer = .mailbox) : completes (.requestTimeout false q) s [.regs, .col, .ic, .bar] fun t =>
      t.bar.outs = (s.bar.outs.filter fun x => x.seq != r.seq) ∧ t.get F.BAR_MBX_TXCTL_RESULT = 0xFF ∧
      t.get F.BAR_MBX_TXCTL_BUSY = 0 ∧ t.get F.BAR_CNT_B_TIMEOUTS = min 0xFFFF (s.get F.BAR_CNT_B_TIMEOUTS + 1) ∧
      t.col = (s.raise { src := 0x16, kind := kTIMEOUT, cls := corrected }).col := by
  obtain ⟨hcount, houts, hwait, hcol⟩ := requestFailed_fields r s
  obtain ⟨hres, hbusy, -⟩ := endMailbox_fields 0xFF (requestFailed r s)
  have hfail : failRequest r s = endMailbox 0xFF (requestFailed r s) := by rw [failRequest_eq, hi]; rfl
  have hrun : exec (.requestTimeout false q) s = .next (endMailbox 0xFF (requestFailed r s)) := by
    refine (nodeTimeout_of_due hc hr hdue).trans ?_
    rw [hfail, sendWaiting_of_none (by simp [endMailbox, hwait, hw])]
  refine ⟨_, hrun, only_of_hide (k := 131265) rfl (by simp [requestFailed]), by simp [endMailbox, houts], hres, hbusy, ?_,
    by simp [endMailbox, hcol]⟩
  rw [State.get_of_reg (endMailbox_reg_ne _ _ (by decide) (by decide)), hcount]

/-- Settles O25: a frame's fields are read where they were written, and each request goes through `barSend`. -/
theorem barrierRequests : Obligations.BarrierRequests := by
  refine ⟨fun s => handshake_completes, fun v s hc => ⟨mailbox_busy hc, mailbox_badType hc, mailbox_linkDown hc, mailbox_sends hc⟩,
    fun s hlive => ⟨fun h1 h2 => ?_, fun h => ?_⟩, fun type retx q ref payload => ⟨barFrame_length _ _ _ _ _,
      frameOk_barFrame _ _ _ _ _, fType_barFrame _ _ _ _ _, retx_barFrame _ _ _ _ _, fSeq_barFrame _ _ _ _ _,
      fRef_barFrame _ _ _ _ _, fPayload_barFrame _ _ _ _ _⟩,
    fun q r s hc hr => ⟨fun hsends hdue => ?_, nodeRetransmit_of_not_due hr, nodeTimeout_of_early hr,
      mailboxTimeout_completes hc hr⟩, fun q s => nodeRequests_of_absent⟩
  · exact (actWhen_of_true (by simp [hlive, h1, h2]) : execTimeFrameSend s = _)
  · exact (actWhen_of_false (by rcases h with h | h <;> simp [h]) : execTimeFrameSend s = _)
  · have hrun : exec (.retransmission false q) s = _ := nodeRetransmit_of_due hc hr hsends hdue
    refine ⟨_, hrun, only_of_hide rfl (nodeRetransmit_hide q s _ hrun), by simp [sendDown, State.setBar], by simp [sendDown, State.setBar], ?_⟩
    rw [State.get_count_same _ _ _ (by decide), Nat.min_comm]
    rfl

end Sys2Proof.Safety
end

section
/-! Frames from the MFE (R80, R84, R87, R89, R93, R98 to R100, R230, R240): what a frame's arrival brings, a request carried out once
and answered, and what each report puts where. -/

namespace Sys2Proof.Machine

/-! ## A frame arrives -/

/-- The logic side once a sound frame has reached it: the link is up, heard now. -/
def heardUp (s : State) : State := (s.put F.BAR_STATUS_LINK_UP 1).setBar { s.bar with heard := s.cycles }

theorem heardUp_bar (s : State) : (heardUp s).bar = { s.bar with heard := s.cycles } := rfl

theorem heardUp_reg_ne (s : State) {a : Nat} (h : a ≠ 0x400C0000) : (heardUp s).reg a = s.reg a :=
  State.reg_put_ne F.BAR_STATUS_LINK_UP 1 s h

theorem heardUp_get_ne (s : State) {f : Field} (h : f.addr ≠ 0x400C0000) : (heardUp s).get f = s.get f :=
  State.get_of_reg (heardUp_reg_ne s h)

@[simp] theorem heardUp_hide (s : State) (m : Nat) (h : m &&& 131073 = 131073) : (heardUp s).hide m = s.hide m := by
  refine hide_mono h ?_
  simp [heardUp]

theorem inject_of_unarmed {s : State} (h : s.bit F.FLT_INJ_ARM = false) (c sel : Nat) : s.inject c sel = (0, s) := by
  simp [State.inject, State.injectBits, h]

theorem upFrame_sound {f : List Byte} {type : Byte} {k : State → State} {s : State} (hlen : f.length = 32)
    (hcrc : frameOk f = true) (htype : fType f = type) (hc : s.clocked = true) (hinj : s.bit F.FLT_INJ_ARM = false) :
    upFrame f type k s = .next (k (heardUp s)) := by
  simp [upFrame, actWhen, hlen, hcrc, htype, hc, inject_of_unarmed hinj, heardUp, State.setBar]

theorem upFrame_wrongCrc {f : List Byte} {type : Byte} {k : State → State} {s : State} (hlen : f.length = 32)
    (hcrc : frameOk f = false) (hc : s.clocked = true) (hinj : s.bit F.FLT_INJ_ARM = false) :
    upFrame f type k s = .next ((s.count F.BAR_CNT_A_CRC_ERR 1).raise { src := 0x16, kind := kCRC, cls := corrected }) := by
  simp only [upFrame, actWhen, hlen, hcrc, hc, inject_of_unarmed hinj]
  rfl

theorem upFrame_otherLength {f : List Byte} {type : Byte} {k : State → State} {s : State} (hlen : f.length ≠ 32) :
    upFrame f type k s = .refused (.illFormed "UP frame") := if_pos hlen

theorem exec_up (f : List Byte) (s : State) : ∀ c ∈ [Instr.statusFrame f, .teeth f, .hvEvent f, .measure f, .optime f,
    .completion false f], ∃ type k, exec c s = upFrame f type k s := by
  simp only [List.forall_mem_cons, List.not_mem_nil, false_imp_iff, implies_true, and_true]
  exact ⟨⟨_, _, (rfl : execStatusFrame f s = _)⟩, ⟨_, _, (rfl : execTeeth f s = _)⟩, ⟨_, _, (rfl : execHvEvent f s = _)⟩,
    ⟨_, _, (rfl : execMeasure f s = _)⟩, ⟨_, _, (rfl : execOptime f s = _)⟩, ⟨_, _, (rfl : nodeCompletion f s = _)⟩⟩

/-! ## A request of the MFE is carried out, answered and stored (R89) -/

/-- The logic side once `f` has been answered OK and stored. -/
def completedUp (f : List Byte) (s : State) : State :=
  answerUp (fSeq f) stOK
    (s.setBar { s.bar with store := (keepSeq (fSeq f) stOK (s.bar.store.filter fun x => x.1 != fSeq f)).take 64 })

theorem upRequest_new {f : List Byte} {k : State → State} {s : State} (h : ∀ x ∈ s.bar.store, x.1 ≠ fSeq f) :
    upRequest f k s = completedUp f (k s) := by
  have hnone : s.bar.store.find? (fun x => x.1 == fSeq f && !s.mfeFlags.getLsbD 3) = none := by
    simp only [List.find?_eq_none, Bool.and_eq_true, beq_iff_eq, not_and]
    exact fun x hx hseq => absurd hseq (h x hx)
  simp only [upRequest, hnone, completedUp]

/-- A number held is answered as before, unless the MFE has restarted. -/
theorem upRequest_held {f : List Byte} {k : State → State} {s : State} {x : BitVec 16 × Byte} (hrest : s.mfeFlags.getLsbD 3 = false)
    (hx : s.bar.store.find? (fun x => x.1 == fSeq f) = some x) : upRequest f k s = answerUp (fSeq f) x.2 s := by
  have hseq : x.1 = fSeq f := by simpa using List.find?_some hx
  simp only [upRequest, hrest, Bool.not_false, Bool.and_true, hx, hseq]

@[simp] theorem completedUp_hide (f : List Byte) (s : State) (m : Nat) (h : m &&& 131072 = 131072) : (completedUp f s).hide m = s.hide m := by
  refine hide_mono h ?_
  simp [completedUp]

@[simp] theorem completedUp_rest (f : List Byte) (s : State) : (completedUp f s).regs = s.regs ∧ (completedUp f s).col = s.col ∧
    (completedUp f s).ic = s.ic ∧ (completedUp f s).chan = s.chan ∧ (completedUp f s).whl = s.whl := ⟨rfl, rfl, rfl, rfl, rfl⟩

/-- The barrier unit after a frame under a new number: heard now, the completion stored and on the line. -/
def answeredUp (f : List Byte) (s : State) : Barrier := { s.bar with
  heard := s.cycles, store := (keepSeq (fSeq f) stOK s.bar.store).take 64, line := barFrame tCOMPLETION false 0 (fSeq f) [stOK] }

theorem completedUp_bar {f : List Byte} {s u : State} (hnew : ∀ x ∈ s.bar.store, x.1 ≠ fSeq f) (hu : u.bar = (heardUp s).bar) :
    (completedUp f u).bar = answeredUp f s := by
  have hstore : (s.bar.store.filter fun x => x.1 != fSeq f) = s.bar.store :=
    List.filter_eq_self.2 fun x hx => by simpa using hnew x hx
  simp only [completedUp, answerUp, sendDown, State.setBar, hu, heardUp_bar, hstore, answeredUp]

/-! ## Fields -/

theorem bit_putBit_same (f : Field) (b : Bool) (s : State) (h : f.Fits) : (s.putBit f b).bit f = b := by
  have hwidth : 1 ≤ f.width := by
    have := h.1
    simp only [Field.width]
    omega
  have hlt : b.toNat < 2 ^ f.width := (Bool.toNat_lt b).trans_le (Nat.pow_le_pow_right Nat.two_pos hwidth)
  rw [State.bit, State.putBit, State.get_put_same f _ s h, Nat.mod_eq_of_lt hlt]
  cases b <;> rfl

theorem leAt_mod (f : List Byte) (i n : Nat) : leAt f i n % 256 ^ n = leAt f i n := Nat.mod_eq_of_lt (leAt_lt f i n)

/-! ## MEASURE, OPTIME (R98, R100) -/

theorem mains_fits (p : Nat) : (F.BAR_MAINS_A_RMS p).Fits ∧ (F.BAR_MAINS_A_FREQ p).Fits ∧ (F.BAR_MAINS_B_PRESENT p).Fits ∧
    (F.BAR_MAINS_B_FREQ_OK p).Fits := by
  simp [Field.Fits, F.BAR_MAINS_A_RMS, F.BAR_MAINS_A_FREQ, F.BAR_MAINS_B_PRESENT, F.BAR_MAINS_B_FREQ_OK]

theorem optime_fits (o : Nat) : (F.BAR_OPTIME_OPERATE o).Fits ∧ (F.BAR_OPTIME_RELEASE o).Fits := by
  simp [Field.Fits, F.BAR_OPTIME_OPERATE, F.BAR_OPTIME_RELEASE]

/-- Phase `p`'s registers as MEASURE `f` gives them. -/
def measuredRegs (f : List Byte) (p : Nat) (s : State) : State :=
  (((s.put (F.BAR_MAINS_A_RMS p) (leAt f 8 2)).put (F.BAR_MAINS_A_FREQ p) (leAt f 10 2)).putBit (F.BAR_MAINS_B_PRESENT p)
    ((byteAt f 12).getLsbD 0)).putBit (F.BAR_MAINS_B_FREQ_OK p) ((byteAt f 12).getLsbD 1)

theorem measuredRegs_get (f : List Byte) (p : Nat) (s : State) : (measuredRegs f p s).get (F.BAR_MAINS_A_RMS p) = leAt f 8 2 ∧
    (measuredRegs f p s).get (F.BAR_MAINS_A_FREQ p) = leAt f 10 2 ∧
    (measuredRegs f p s).bit (F.BAR_MAINS_B_PRESENT p) = (byteAt f 12).getLsbD 0 ∧
    (measuredRegs f p s).bit (F.BAR_MAINS_B_FREQ_OK p) = (byteAt f 12).getLsbD 1 := by
  obtain ⟨hrms, hfreq, hpres, hok⟩ := mains_fits p
  have hAB : (F.BAR_MAINS_A_RMS p).addr ≠ (F.BAR_MAINS_B_PRESENT p).addr := by
    simp only [F.BAR_MAINS_A_RMS, F.BAR_MAINS_B_PRESENT]
    omega
  have hkeep (f : Field) (hf : f.addr ≠ (F.BAR_MAINS_B_PRESENT p).addr) (b c : Bool) (t : State) :
      ((t.putBit (F.BAR_MAINS_B_PRESENT p) b).putBit (F.BAR_MAINS_B_FREQ_OK p) c).get f = t.get f :=
    (State.get_put_addr (F.BAR_MAINS_B_FREQ_OK p) f _ _ hf).trans (State.get_put_addr (F.BAR_MAINS_B_PRESENT p) f _ t hf)
  refine ⟨?_, ?_, ?_, bit_putBit_same _ _ _ hok⟩
  · exact (hkeep (F.BAR_MAINS_A_RMS p) hAB _ _ _).trans
      ((State.get_put_apart (F.BAR_MAINS_A_FREQ p) _ _ _ hrms (by simp [F.BAR_MAINS_A_RMS, F.BAR_MAINS_A_FREQ])).trans
      ((State.get_put_same (F.BAR_MAINS_A_RMS p) _ s hrms).trans (leAt_mod f 8 2)))
  · exact (hkeep (F.BAR_MAINS_A_FREQ p) hAB _ _ _).trans
      ((State.get_put_same (F.BAR_MAINS_A_FREQ p) _ _ hfreq).trans (leAt_mod f 10 2))
  · exact (State.bit_of_get (State.get_put_apart (F.BAR_MAINS_B_FREQ_OK p) (F.BAR_MAINS_B_PRESENT p) _ _
      hpres (by simp [F.BAR_MAINS_B_PRESENT, F.BAR_MAINS_B_FREQ_OK]))).trans
      (bit_putBit_same _ _ _ hpres)

theorem measuredRegs_reg_ne (f : List Byte) (p : Nat) (s : State) {a : Nat} (hA : a ≠ (F.BAR_MAINS_A_RMS p).addr)
    (hB : a ≠ (F.BAR_MAINS_B_PRESENT p).addr) : (measuredRegs f p s).reg a = s.reg a :=
  (State.reg_put_ne (F.BAR_MAINS_B_FREQ_OK p) _ _ hB).trans ((State.reg_put_ne (F.BAR_MAINS_B_PRESENT p) _ _ hB).trans
    ((State.reg_put_ne (F.BAR_MAINS_A_FREQ p) _ _ hA).trans (State.reg_put_ne (F.BAR_MAINS_A_RMS p) _ s hA)))

/-- MEASURE's own work on phase `p`: the registers, and source 99 when a flag changes. -/
def measureTaken (f : List Byte) (p : Nat) (s : State) : State :=
  (measuredRegs f p s).when (s.bit (F.BAR_MAINS_B_PRESENT p) != (byteAt f 12).getLsbD 0 ||
    s.bit (F.BAR_MAINS_B_FREQ_OK p) != (byteAt f 12).getLsbD 1) (State.interrupt 99)

theorem execMeasure_eq (f : List Byte) (s : State) : execMeasure f s = upFrame f tMEASURE (upRequest f fun s =>
    if (byteAt f 6).toNat < 3 then measureTaken f (byteAt f 6).toNat s else s) s := rfl

theorem measureTaken_reg_ne (f : List Byte) (p : Nat) (s : State) {a : Nat} (h : a ≠ (cntField 99).addr) :
    (measureTaken f p s).reg a = (measuredRegs f p s).reg a :=
  State.view_when (fun s => s.reg a) (fun s => State.reg_interrupt_ne 99 s h) _ _

theorem measureTaken_lat (f : List Byte) (p : Nat) (s : State) : (measureTaken f p s).ic.lat =
    if s.bit (F.BAR_MAINS_B_PRESENT p) = (byteAt f 12).getLsbD 0 ∧ s.bit (F.BAR_MAINS_B_FREQ_OK p) = (byteAt f 12).getLsbD 1
    then s.ic.lat else s.ic.lat ||| BitVec.twoPow 128 99 := by
  have hic : (measuredRegs f p s).ic = s.ic := by simp [measuredRegs]
  unfold measureTaken State.when
  by_cases h : s.bit (F.BAR_MAINS_B_PRESENT p) = (byteAt f 12).getLsbD 0 ∧ s.bit (F.BAR_MAINS_B_FREQ_OK p) = (byteAt f 12).getLsbD 1
  · rw [if_pos h, if_neg (by simp [h.1, h.2]), hic]
  · rw [if_neg h, if_pos (by rw [not_and_or] at h; simpa using h), State.interrupt_lat rfl, hic]

/-- Output `o`'s times as OPTIME `f` gives them. -/
def optimeTaken (f : List Byte) (o : Nat) (s : State) : State :=
  (s.put (F.BAR_OPTIME_OPERATE o) (leAt f 8 2)).put (F.BAR_OPTIME_RELEASE o) (leAt f 10 2)

theorem execOptime_eq (f : List Byte) (s : State) : execOptime f s = upFrame f tOPTIME (upRequest f fun s =>
    if (byteAt f 6).toNat < 12 then optimeTaken f (byteAt f 6).toNat s else s) s := rfl

theorem optimeTaken_get (f : List Byte) (o : Nat) (s : State) : (optimeTaken f o s).get (F.BAR_OPTIME_OPERATE o) = leAt f 8 2 ∧
    (optimeTaken f o s).get (F.BAR_OPTIME_RELEASE o) = leAt f 10 2 := by
  obtain ⟨hop, hrel⟩ := optime_fits o
  refine ⟨?_, ?_⟩
  · exact (State.get_put_apart (F.BAR_OPTIME_RELEASE o) _ _ _ hop
      (by simp [F.BAR_OPTIME_OPERATE, F.BAR_OPTIME_RELEASE])).trans
      ((State.get_put_same (F.BAR_OPTIME_OPERATE o) _ s hop).trans (leAt_mod f 8 2))
  · exact (State.get_put_same (F.BAR_OPTIME_RELEASE o) _ _ hrel).trans (leAt_mod f 10 2)

end Sys2Proof.Machine

namespace Sys2Proof.Safety
open Sys2Proof.Machine

theorem up_runs {c : Instr} {f : List Byte} {type : Byte} {k : State → State} {s : State} (hto : toNode f type s)
    (hexec : exec c s = upFrame f type k s) : exec c s = .next (k (heardUp s)) := by
  obtain ⟨⟨hlen, hcrc, htype⟩, hc, hinj⟩ := hto
  exact hexec.trans (upFrame_sound hlen hcrc htype hc hinj)

/-- A sound report under a new number: `k` does its work, and the answer is stored and sent. -/
theorem report_completes {c : Instr} {f : List Byte} {type : Byte} {k : State → State} {s u : State} {l : List Part}
    {post : State → Prop} (hto : toNode f type s) (hnew : ∀ x ∈ s.bar.store, x.1 ≠ fSeq f)
    (hexec : exec c s = upFrame f type (upRequest f k) s) (hk : k (heardUp s) = u) (hbar : u.bar = (heardUp s).bar)
    (hframe : only l s (completedUp f u)) (hpost : (completedUp f u).bar = answeredUp f s → post (completedUp f u)) :
    completes c s l post := by
  have hrun := up_runs hto hexec
  rw [upRequest_new (s := heardUp s) hnew, hk] at hrun
  exact ⟨_, hrun, hframe, hpost (completedUp_bar hnew hbar)⟩

/-- A report under a number that is held does nothing but answer again. -/
theorem report_again {c : Instr} {f : List Byte} {type : Byte} {k : State → State} {s : State} {x : BitVec 16 × Byte}
    (hto : toNode f type s) (hrest : s.mfeFlags.getLsbD 3 = false) (hx : s.bar.store.find? (fun x => x.1 == fSeq f) = some x)
    (hexec : exec c s = upFrame f type (upRequest f k) s) : exec c s = .next { s.put F.BAR_STATUS_LINK_UP 1 with
      bar := { s.bar with heard := s.cycles, line := barFrame tCOMPLETION false 0 (fSeq f) [x.2] } } := by
  have hrun := up_runs hto hexec
  rw [upRequest_held (s := heardUp s) hrest hx] at hrun
  exact hrun

theorem measure_completes {f : List Byte} {p : Fin 3} {s : State} (hto : toNode f tMEASURE s)
    (hnew : ∀ x ∈ s.bar.store, x.1 ≠ fSeq f) (hp : (byteAt f 6).toNat = p.val) :
    completes (.measure f) s [.regs, .ic, .bar] fun t => t.bar = answeredUp f s ∧ t.get (F.BAR_MAINS_A_RMS p) = leAt f 8 2 ∧
      t.get (F.BAR_MAINS_A_FREQ p) = leAt f 10 2 ∧ t.bit (F.BAR_MAINS_B_PRESENT p) = (byteAt f 12).getLsbD 0 ∧
      t.bit (F.BAR_MAINS_B_FREQ_OK p) = (byteAt f 12).getLsbD 1 ∧
      (t.ic.lat = if s.bit (F.BAR_MAINS_B_PRESENT p) = (byteAt f 12).getLsbD 0 ∧
        s.bit (F.BAR_MAINS_B_FREQ_OK p) = (byteAt f 12).getLsbD 1 then s.ic.lat else s.ic.lat ||| BitVec.twoPow 128 99) ∧
      regsBut [F.BAR_STATUS_LINK_UP.addr, (F.BAR_MAINS_A_RMS p).addr, (F.BAR_MAINS_B_PRESENT p).addr,
        (cntField 99).addr] s t := by
  have haddr : (F.BAR_MAINS_A_RMS p).addr ≠ (cntField 99).addr ∧ (F.BAR_MAINS_B_PRESENT p).addr ≠ (cntField 99).addr ∧
      (F.BAR_MAINS_B_PRESENT p).addr ≠ 0x400C0000 := by
    simp only [F.BAR_MAINS_A_RMS, F.BAR_MAINS_B_PRESENT, cntField]
    omega
  obtain ⟨hA, hB, hlink⟩ := haddr
  have hreg {a : Nat} (h : a ≠ (cntField 99).addr) :
      (completedUp f (measureTaken f p (heardUp s))).reg a = (measuredRegs f p (heardUp s)).reg a := measureTaken_reg_ne f p _ h
  obtain ⟨hrms, hfreq, hpres, hok⟩ := measuredRegs_get f p (heardUp s)
  have hlat := measureTaken_lat f p (heardUp s)
  rw [State.bit_of_get (heardUp_get_ne (f := F.BAR_MAINS_B_PRESENT p) s hlink),
    State.bit_of_get (heardUp_get_ne (f := F.BAR_MAINS_B_FREQ_OK p) s hlink)] at hlat
  refine report_completes (u := measureTaken f p (heardUp s)) hto hnew (execMeasure_eq f s) (by rw [hp]; exact if_pos p.isLt)
    ((State.view_when State.bar (by simp) _ _).trans (by simp [measuredRegs]))
    (only_of_hide (k := 131201) rfl (by simp [measureTaken, measuredRegs]))
    fun hbar => ⟨hbar, (State.get_of_reg (hreg hA)).trans hrms, (State.get_of_reg (f := F.BAR_MAINS_A_FREQ p) (hreg hA)).trans hfreq,
      (State.bit_of_get (State.get_of_reg (hreg hB))).trans hpres,
      (State.bit_of_get (State.get_of_reg (f := F.BAR_MAINS_B_FREQ_OK p) (hreg hB))).trans hok, hlat, fun a ha => ?_⟩
  simp only [List.mem_cons, List.not_mem_nil, or_false, not_or] at ha
  obtain ⟨hlu, ha1, ha2, hcnt⟩ := ha
  exact (hreg hcnt).trans ((measuredRegs_reg_ne f p _ ha1 ha2).trans (heardUp_reg_ne s hlu))

theorem optime_completes {f : List Byte} {o : Fin 12} {s : State} (hto : toNode f tOPTIME s)
    (hnew : ∀ x ∈ s.bar.store, x.1 ≠ fSeq f) (ho : (byteAt f 6).toNat = o.val) :
    completes (.optime f) s [.regs, .bar] fun t => t.bar = answeredUp f s ∧ t.get (F.BAR_OPTIME_OPERATE o) = leAt f 8 2 ∧
      t.get (F.BAR_OPTIME_RELEASE o) = leAt f 10 2 :=
  report_completes (u := optimeTaken f o (heardUp s)) hto hnew (execOptime_eq f s) (by rw [ho]; exact if_pos o.isLt) (by simp [optimeTaken])
    (only_of_hide (k := 131073) rfl (by simp [optimeTaken])) fun hbar => ⟨hbar, optimeTaken_get f o (heardUp s)⟩

theorem overcurrentReported_completes {f : List Byte} {o : Fin 12} {s : State} (hto : toNode f tHV_EVENT s)
    (hnew : ∀ x ∈ s.bar.store, x.1 ≠ fSeq f) (ho : (byteAt f 6).toNat = o.val) (hover : (byteAt f 7).getLsbD 3 = true) :
    completes (.hvEvent f) s [.regs, .col, .ic, .bar] fun t => t.bar = answeredUp f s ∧
      t.ic.lat = s.ic.lat ||| BitVec.twoPow 128 99 ∧
      t.col = (s.raise { src := 0x17, kind := kPOWER, cls := corrected, reason := 0x01, detail := detail3 o }).col := by
  refine report_completes (u := ((heardUp s).raise
    { src := 0x17, kind := kPOWER, cls := corrected, reason := 0x01, detail := detail3 o }).interrupt 99)
    hto hnew (rfl : execHvEvent f s = _) ?_ (by simp) (only_of_hide (k := 131265) rfl (by simp)) fun hbar => ⟨hbar, ?_, ?_⟩
  · simp only [ho, o.isLt, if_true, hover]
  · simp only [completedUp_rest]
    rw [State.interrupt_lat rfl]
    simp [heardUp, State.setBar]
  · simp only [completedUp_rest, State.interrupt_rest]
    exact State.raise_col_congr (by rfl) (by rfl) (by rfl) (by rfl)

end Sys2Proof.Safety
end

section
/-! STATUS, TEETH and HV_EVENT on the logic side (R80, R93, R99, R230, R240). -/

namespace Sys2Proof.Machine

/-! ## STATUS (R80, R93) -/

/-- What STATUS `f` puts in the barrier unit and its registers, and source 99 when the flags change. -/
def statusTaken (f : List Byte) (s : State) : State :=
  ((((s.setBar { s.bar with status := some (byteAt f 7, BitVec.ofNat 16 (leAt f 8 2)) }).putBit F.BAR_STATUS_MFE_SYNC
    ((byteAt f 7).getLsbD 0)).put F.BAR_HVI_STATE ((byteAt f 10).toNat % 16))).when (s.mfeFlags != byteAt f 7) (State.interrupt 99)

theorem execStatusFrame_eq (f : List Byte) (s : State) : execStatusFrame f s = upFrame f tSTATUS (fun s =>
    if (byteAt f 7).getLsbD 3 then
      (if (statusTaken f s).bar.step = .hello then statusTaken f s else unforward (handshakeAgain (statusTaken f s)))
    else syncReached (statusTaken f s)) s := rfl

theorem syncReached_of_idle {s : State} (h : s.bar.step = .idle) : syncReached s = s := by
  simp [syncReached, h]

theorem statusTaken_bar (f : List Byte) (s : State) : (statusTaken f s).bar =
    { s.bar with status := some (byteAt f 7, BitVec.ofNat 16 (leAt f 8 2)) } :=
  (State.view_when State.bar (by simp) _ _).trans (by simp [State.setBar])

theorem statusTaken_reg (f : List Byte) (s : State) {a : Nat} (h : a ≠ (cntField 99).addr) : (statusTaken f s).reg a =
    (((s.setBar { s.bar with status := some (byteAt f 7, BitVec.ofNat 16 (leAt f 8 2)) }).putBit F.BAR_STATUS_MFE_SYNC
      ((byteAt f 7).getLsbD 0)).put F.BAR_HVI_STATE ((byteAt f 10).toNat % 16)).reg a :=
  State.view_when (fun s => s.reg a) (fun s => State.reg_interrupt_ne 99 s h) _ _

theorem statusTaken_get (f : List Byte) (s : State) : (statusTaken f s).bit F.BAR_STATUS_MFE_SYNC = (byteAt f 7).getLsbD 0 ∧
    (statusTaken f s).get F.BAR_HVI_STATE = (byteAt f 10).toNat % 16 ∧
    (statusTaken f s).bit F.BAR_STATUS_LINK_UP = s.bit F.BAR_STATUS_LINK_UP := by
  refine ⟨?_, ?_, ?_⟩
  · rw [State.bit_of_get (State.get_of_reg (statusTaken_reg f s (by decide))),
      State.bit_of_get (State.get_put_addr _ _ _ _ (by decide)), bit_putBit_same _ _ _ (by decide)]
  · rw [State.get_of_reg (statusTaken_reg f s (by decide)), State.get_put_same _ _ _ (by decide)]
    exact Nat.mod_mod _ 16
  · rw [State.bit_of_get (State.get_of_reg (statusTaken_reg f s (by decide))),
      State.bit_of_get (State.get_put_addr _ _ _ _ (by decide)), State.putBit,
      State.bit_of_get (State.get_put_apart _ _ _ _ (by decide) (by decide))]
    rfl

theorem statusTaken_lat (f : List Byte) (s : State) : (statusTaken f s).ic.lat =
    if s.mfeFlags = byteAt f 7 then s.ic.lat else s.ic.lat ||| BitVec.twoPow 128 99 := by
  unfold statusTaken State.when
  by_cases h : s.mfeFlags = byteAt f 7
  · rw [if_pos h, if_neg (by simp [h])]
    simp [State.setBar]
  · rw [if_neg h, if_pos (by simpa using h), State.interrupt_lat rfl]
    simp [State.setBar]

/-! ## TEETH (R99) -/

/-- A mains tooth as it waits at its wheel. -/
def mainsTooth (f : List Byte) (x : SysTime × Nat) : WheelIn := ⟨x.1, (byteAt f 7).getLsbD (4 + x.2), true, false⟩

/-- One tooth of TEETH `f` reaches wheel `w`, which queues up to 8. -/
def takeTooth (f : List Byte) (w : Fin 8) (x : SysTime × Nat) (s : State) : State :=
  if s.whl[w].sync = .off ∨ 8 ≤ s.teethWaiting w then s
  else s.setW w { s.whl[w] with inbox := s.whl[w].inbox ++ [mainsTooth f x] }

theorem execTeeth_eq (f : List Byte) (s : State) : execTeeth f s = upFrame f tTEETH (upRequest f fun s =>
    if h : (byteAt f 6).toNat < 3 then s.each (teethTimes f).zipIdx (takeTooth f ⟨(byteAt f 6).toNat, by omega⟩) else s) s := rfl

theorem State.each_of_fixed {α : Type} {f : α → State → State} {s : State} (h : ∀ a, f a s = s) (l : List α) : s.each l f = s := by
  induction l with
  | nil => rfl
  | cons a l ih => rw [State.each_cons, h, ih]

theorem takeTooth_of_off {w : Fin 8} {s : State} (h : s.whl[w].sync = .off) (f : List Byte) (x : SysTime × Nat) :
    takeTooth f w x s = s := if_pos (.inl h)

/-- On a mains wheel every edge that is no index is a tooth. -/
theorem teethWaiting_mains {w : Fin 8} (hw : w.val < 3) (s : State) :
    s.teethWaiting w = (s.whl[w].inbox.filter fun x => !x.index).length := by
  simp [State.teethWaiting, State.endsTooth, State.source, hw]

theorem setW_setW (w : Fin 8) (x y : Wheel) (s : State) : (s.setW w x).setW w y = s.setW w y := by
  simp [State.setW]

theorem setW_get (w : Fin 8) (x : Wheel) (s : State) : (s.setW w x).whl[w] = x := by simp [State.setW]

theorem setW_self (w : Fin 8) (s : State) : s.setW w s.whl[w] = s := by simp [State.setW]

/-- Where there is room for all of them, all the teeth are queued, in order. -/
theorem each_takeTooth {f : List Byte} {w : Fin 8} (hw : w.val < 3) (l : List (SysTime × Nat)) {s : State}
    (hon : s.whl[w].sync ≠ .off) (hroom : s.teethWaiting w + l.length ≤ 8) :
    s.each l (takeTooth f w) = s.setW w { s.whl[w] with inbox := s.whl[w].inbox ++ l.map (mainsTooth f) } := by
  induction l generalizing s with
  | nil =>
    rw [State.each_nil, List.map_nil, List.append_nil]
    exact (setW_self w s).symm
  | cons x l ih =>
    rw [List.length_cons] at hroom
    have htake : takeTooth f w x s = s.setW w { s.whl[w] with inbox := s.whl[w].inbox ++ [mainsTooth f x] } :=
      if_neg (not_or.2 ⟨hon, by omega⟩)
    rw [State.each_cons, htake, ih (by rwa [setW_get]), setW_get, setW_setW]
    · simp
    · rw [teethWaiting_mains hw] at hroom ⊢
      rw [setW_get]
      simp only [List.filter_append, List.length_append]
      have hone : ([mainsTooth f x].filter fun x => !x.index).length = 1 := rfl
      omega

theorem teethTimes_length {f : List Byte} (h : (byteAt f 7).toNat % 8 ≤ 4) : (teethTimes f).length = (byteAt f 7).toNat % 8 := by
  simp [teethTimes, h]

theorem head_teethTimes {f : List Byte} {x : SysTime} (h : x ∈ (teethTimes f).head?) : x = BitVec.ofNat 64 (leAt f 8 8) := by
  unfold teethTimes at h
  cases hn : (byteAt f 7).toNat % 8 with
  | zero => simp [hn] at h
  | succ n => simpa [hn, eq_comm] using h

/-- Sums of deltas differ by the delta. -/
theorem sums_step {n t d₀ d₁ d₂ i : Nat} {x y : SysTime}
    (hx : ((List.map (BitVec.ofNat 64) [t, t + d₀, t + d₀ + d₁, t + d₀ + d₁ + d₂]).take n)[i]? = some x)
    (hy : ((List.map (BitVec.ofNat 64) [t, t + d₀, t + d₀ + d₁, t + d₀ + d₁ + d₂]).take n)[i + 1]? = some y) :
    i < 3 ∧ y = x + BitVec.ofNat 64 ([d₀, d₁, d₂].getD i 0) := by
  have hlt : i < 3 := by
    have := (List.getElem?_eq_some_iff.1 hy).1
    simp only [List.length_take, List.length_map, List.length_cons, List.length_nil] at this
    omega
  refine ⟨hlt, ?_⟩
  simp only [List.getElem?_take] at hx hy
  have hin : i + 1 < n := by
    by_contra hout
    rw [if_neg hout] at hy
    cases hy
  rw [if_pos (by omega)] at hx
  rw [if_pos hin] at hy
  obtain rfl | rfl | rfl : i = 0 ∨ i = 1 ∨ i = 2 := by omega
  all_goals
    cases hx
    cases hy
    exact BitVec.ofNat_add _ _

/-- Each time after the first follows by its delta. -/
theorem teethTimes_step {f : List Byte} {i : Nat} {x y : SysTime} (hx : (teethTimes f)[i]? = some x)
    (hy : (teethTimes f)[i + 1]? = some y) : y = x + BitVec.ofNat 64 (leAt f (16 + 4 * i) 4) := by
  obtain ⟨hlt, hstep⟩ := sums_step hx hy
  rw [hstep]
  obtain rfl | rfl | rfl : i = 0 ∨ i = 1 ∨ i = 2 := by omega
  all_goals rfl

end Sys2Proof.Machine

namespace Sys2Proof.Safety
open Sys2Proof.Machine

theorem statusFrame_completes {f : List Byte} {s : State} (hto : toNode f tSTATUS s) (hidle : s.bar.step = .idle)
    (hrest : (byteAt f 7).getLsbD 3 = false) : completes (.statusFrame f) s [.regs, .ic, .bar] fun t =>
      t.bar = { s.bar with heard := s.cycles, status := some (byteAt f 7, BitVec.ofNat 16 (leAt f 8 2)) } ∧
      t.bit F.BAR_STATUS_MFE_SYNC = (byteAt f 7).getLsbD 0 ∧ t.get F.BAR_HVI_STATE = (byteAt f 10).toNat % 16 ∧
      t.bit F.BAR_STATUS_LINK_UP = true ∧
      (t.ic.lat = if s.mfeFlags = byteAt f 7 then s.ic.lat else s.ic.lat ||| BitVec.twoPow 128 99) := by
  have hbar := statusTaken_bar f (heardUp s)
  have hrun := up_runs (c := .statusFrame f) hto (execStatusFrame_eq f s)
  rw [hrest, syncReached_of_idle (by rw [hbar]; exact hidle)] at hrun
  obtain ⟨hsync, hhvi, hlink⟩ := statusTaken_get f (heardUp s)
  refine ⟨_, hrun, only_of_hide (k := 131201) rfl (by simp [statusTaken]), hbar, hsync, hhvi, hlink.trans ?_,
    statusTaken_lat f (heardUp s)⟩
  exact bit_putBit_same F.BAR_STATUS_LINK_UP true s (by decide)

theorem teethOff_completes {f : List Byte} {w : Fin 3} {s : State} (hto : toNode f tTEETH s)
    (hnew : ∀ x ∈ s.bar.store, x.1 ≠ fSeq f) (hw : (byteAt f 6).toNat = w.val) (hoff : s.whl[w].sync = .off) :
    completes (.teeth f) s [.regs, .bar] fun t => t.bar = answeredUp f s := by
  refine report_completes (u := heardUp s) hto hnew (execTeeth_eq f s) ?_ rfl (only_of_hide (k := 131073) rfl (by simp)) id
  have hlt : (byteAt f 6).toNat < 3 := by omega
  rw [dif_pos hlt]
  obtain rfl : w = ⟨_, hlt⟩ := Fin.ext hw.symm
  exact State.each_of_fixed (takeTooth_of_off hoff f) _

theorem teeth_completes {f : List Byte} {p : Fin 3} {s : State} (hto : toNode f tTEETH s)
    (hnew : ∀ x ∈ s.bar.store, x.1 ≠ fSeq f) (hp : (byteAt f 6).toNat = p.val) (hon : s.whl[p].sync ≠ .off)
    (hfour : (byteAt f 7).toNat % 8 ≤ 4) (hroom : s.teethWaiting ⟨p.val, by omega⟩ + (byteAt f 7).toNat % 8 ≤ 8) :
    completes (.teeth f) s [.regs, .whl, .bar] fun t => (∀ w : Fin 8, w.val ≠ p.val → t.whl[w] = s.whl[w]) ∧
      ∃ l : List WheelIn, t.whl[p].inbox = s.whl[p].inbox ++ l ∧ l.length = (byteAt f 7).toNat % 8 ∧
        (∀ x ∈ l.head?, x.time = BitVec.ofNat 64 (leAt f 8 8)) ∧
        (∀ i, i + 1 < l.length → ∀ x y, l[i]? = some x → l[i + 1]? = some y →
          y.time = x.time + BitVec.ofNat 64 (leAt f (16 + 4 * i) 4)) := by
  have hlt : (byteAt f 6).toNat < 3 := by omega
  obtain rfl : p = ⟨_, hlt⟩ := Fin.ext hp.symm
  have hwait : (heardUp s).teethWaiting ⟨(byteAt f 6).toNat, by omega⟩ = s.teethWaiting ⟨(byteAt f 6).toNat, by omega⟩ := by
    rw [teethWaiting_mains hlt, teethWaiting_mains hlt]
    rfl
  have heach := each_takeTooth (f := f) (w := ⟨(byteAt f 6).toNat, by omega⟩) hlt (teethTimes f).zipIdx (s := heardUp s) hon
    (by rw [hwait, List.length_zipIdx, teethTimes_length hfour]; exact hroom)
  have htimes : ((teethTimes f).zipIdx.map (mainsTooth f)).map WheelIn.time = teethTimes f := by
    rw [List.map_map]
    exact List.zipIdx_map_fst 0 (teethTimes f)
  have htime {i : Nat} {x : WheelIn} (hx : ((teethTimes f).zipIdx.map (mainsTooth f))[i]? = some x) :
      (teethTimes f)[i]? = some x.time := by
    rw [← htimes, List.getElem?_map, hx]
    rfl
  refine report_completes hto hnew (execTeeth_eq f s) ((dif_pos hlt).trans heach) rfl
    (only_of_hide (k := 163841) rfl (by simp)) fun _ => ⟨fun w hw => ?_, (teethTimes f).zipIdx.map (mainsTooth f), ?_, ?_, ?_, ?_⟩
  · simp [State.setW, hw.symm, heardUp, State.setBar]
  · simp [State.setW, heardUp, State.setBar]
  · rw [List.length_map, List.length_zipIdx, teethTimes_length hfour]
  · intro x hx
    rw [List.head?_eq_getElem?] at hx
    exact head_teethTimes (by rw [List.head?_eq_getElem?]; exact htime hx)
  · exact fun i _ x y hx hy => teethTimes_step (htime hx) (htime hy)

end Sys2Proof.Safety
end

section
/-! HV_EVENT on the logic side: an entry that was executed leaves its list, an edge of an HV input sets its bit (R230, R240). -/

namespace Sys2Proof.Machine

/-! ## The entry of a tag, and its gate -/

/-- The gates stand in list order, one beside each entry. -/
theorem gatesFrom_entries (c : Fin 64) (s : State) (lo : Nat) (l : List Entry) : (s.gatesFrom c lo l).map Prod.fst = l := by
  induction l generalizing lo with
  | nil => rfl
  | cons e l ih =>
    unfold State.gatesFrom
    split
    · simp [ih]
    · split <;> simp [ih]

theorem tagged_of_find {c : Fin 64} {tag : Word} {e : Entry} {s : State} (htag : tag ≠ 0)
    (he : s.chan[c].list.find? (fun e => e.tag == tag) = some e) : ∃ g, s.tagged c tag = some (e, g) := by
  have hmap := List.find?_map (f := Prod.fst) (p := fun e : Entry => e.tag == tag) (l := s.gates c)
  rw [State.gates, gatesFrom_entries, he] at hmap
  obtain ⟨⟨e', g⟩, hfind, rfl⟩ := Option.map_eq_some_iff.1 hmap.symm
  exact ⟨g, by rw [State.tagged, if_neg htag]; exact hfind⟩

/-! ## Registers -/

theorem State.reg_event_ne (ev ien : Field) (b src : Nat) (s : State) {a : Nat} (h : a ≠ ev.addr) (hc : a ≠ (cntField src).addr) :
    (s.event ev ien b src).reg a = s.reg a := by
  unfold State.event
  refine (State.view_when (fun s => s.reg a) (fun s => State.reg_strobe_ne src s hc) _ _).trans ?_
  unfold State.setBitOf
  split
  · rfl
  · exact State.reg_put_ne _ _ s h

/-- Channel `c`'s own registers lie apart from the arrival counters. -/
theorem chan_addr_ne_cnt (c : Fin 64) (k : Nat) : 0x40020000 + 0x100 * c.val + k ≠ (cntField c).addr := by
  simp only [cntField]
  omega

theorem reg_chEvent_ne (c : Fin 64) (b k : Nat) (s : State) (h : k ≠ 8) :
    (s.chEvent c b).reg (0x40020000 + 0x100 * c.val + k) = s.reg (0x40020000 + 0x100 * c.val + k) := by
  refine State.reg_event_ne _ _ b c s ?_ (chan_addr_ne_cnt c k)
  simp only [F.CH_EVENT_EV]
  omega

theorem entryDone_reg_ne (c : Fin 64) (e : Entry) (late : Bool) (k : Nat) (s : State) (h : k ≠ 8) (hl : k ≠ 0x64) :
    (entryDone c e late s).reg (0x40020000 + 0x100 * c.val + k) = s.reg (0x40020000 + 0x100 * c.val + k) := by
  unfold entryDone
  refine (State.view_when (fun s => s.reg _) (fun s => reg_chEvent_ne c 0 k s h) _ _).trans
    (State.view_when (fun s => s.reg _) (fun s => ?_) _ _)
  refine (reg_chEvent_ne c 1 k _ h).trans (State.reg_count_ne _ 1 s ?_)
  simp only [F.CH_CNT_A_LATE]
  omega

theorem wheelDomain_congr {c : Fin 64} {s t : State} (h : t.reg (0x40020000 + 0x100 * c.val + 0) = s.reg (0x40020000 + 0x100 * c.val + 0)) :
    t.wheelDomain c = s.wheelDomain c := State.bit_of_get (State.get_of_reg h)

/-! ## An entry that was executed leaves -/

theorem armHead_of_time {c : Fin 64} {s : State} (h : s.wheelDomain c = false) : armHead c s = s := by
  simp [armHead, h]

theorem takeNewConfig_of_none {c : Fin 64} {s : State} (h : s.chan[c].newConfig = none) : takeNewConfig c s = s := by
  simp only [takeNewConfig, h]

/-- In the time domain, with no configuration waiting, a list changes and nothing follows but EMPTY. -/
theorem setList_of_time {c : Fin 64} {s : State} (l : List Entry) (hd : s.wheelDomain c = false) (hn : s.chan[c].newConfig = none) :
    setList c l s = (s.modC c fun x => { x with list := l }).when (!s.chan[c].list.isEmpty && l.isEmpty) (State.chEvent c 2) := by
  set u := (s.modC c fun x => { x with list := l }).when (!s.chan[c].list.isEmpty && l.isEmpty) (State.chEvent c 2) with hu
  have hchan : u.chan = s.chan.set c { s.chan[c] with list := l } :=
    State.view_when State.chan (by simp [State.chEvent]) _ _
  have hdu : u.wheelDomain c = false := by
    exact (wheelDomain_congr (State.view_when (fun s => s.reg _) (fun s => reg_chEvent_ne c 2 0 s (by decide)) _ _)).trans hd
  have hnu : u.chan[c].newConfig = none := by
    rw [hchan]
    simpa using hn
  unfold setList
  dsimp only
  rw [← hu, takeNewConfig_of_none hnu, armHead_of_time hdu, ite_self, ite_self]

/-- The output's level as the entry's execution shows it, unless its gate had shown it. -/
def levelGiven (c : Fin 64) (e : Entry) (s : State) : State := if e.done then s else s.putBit (F.CH_STATUS_LEVEL c) e.level

theorem levelGiven_bit (c : Fin 64) (e : Entry) (s : State) : (levelGiven c e s).bit (F.CH_STATUS_LEVEL c) =
    if e.done = true then s.bit (F.CH_STATUS_LEVEL c) else e.level := by
  unfold levelGiven
  split
  · rfl
  · exact bit_putBit_same _ _ s (by simp [Field.Fits, F.CH_STATUS_LEVEL])

theorem levelGiven_ctl (c : Fin 64) (e : Entry) (s : State) :
    (levelGiven c e s).reg (0x40020000 + 0x100 * c.val + 0) = s.reg (0x40020000 + 0x100 * c.val + 0) := by
  unfold levelGiven
  split
  · rfl
  · refine State.reg_put_ne _ _ s ?_
    simp only [F.CH_STATUS_LEVEL]
    omega

@[simp] theorem levelGiven_chan (c : Fin 64) (e : Entry) (s : State) : (levelGiven c e s).chan = s.chan := by
  unfold levelGiven
  split
  · rfl
  · simp

/-- The state in which a reported entry leaves its list. -/
def executed (c : Fin 64) (e : Entry) (late : Bool) (s : State) : State := entryDone c e (late || e.behind) (levelGiven c e s)

theorem executed_chan (c : Fin 64) (e : Entry) (late : Bool) (s : State) : (executed c e late s).chan = s.chan := by
  unfold executed entryDone
  refine (State.view_when State.chan (by simp [State.chEvent]) _ _).trans
    ((State.view_when State.chan (by simp [State.chEvent]) _ _).trans (levelGiven_chan c e s))

theorem executed_hide (c : Fin 64) (e : Entry) (late : Bool) (s : State) (m : Nat) (h : m &&& 129 = 129) :
    (executed c e late s).hide m = s.hide m := by
  refine hide_mono h ?_
  unfold executed levelGiven
  split <;> simp [entryDone]

theorem hvReported_of_tagged {c : Fin 64} {tag : Word} {late : Bool} {e : Entry} {g : Option Nat} {s : State}
    (ht : s.tagged c tag = some (e, g)) (hbad : e.bad = false) (hsent : e.fwd = .sent) :
    hvReported c tag late s = dropEntry c e (executed c e late s) := by
  simp only [hvReported, ht, hbad, hsent, Bool.false_eq_true, ne_eq, not_true, or_self, if_false]
  rfl

theorem dropEntry_of_time {c : Fin 64} {e : Entry} {s : State} (hd : s.wheelDomain c = false) (hn : s.chan[c].newConfig = none) :
    (dropEntry c e s).chan = s.chan.set c { s.chan[c] with list := s.chan[c].list.filter fun x => decide (x.tag ≠ e.tag) } ∧
    (dropEntry c e s).bar = s.bar ∧ (dropEntry c e s).hide 8321 = s.hide 8321 ∧
    (dropEntry c e s).reg (0x40020000 + 0x100 * c.val + 4) = s.reg (0x40020000 + 0x100 * c.val + 4) := by
  unfold dropEntry
  rw [setList_of_time _ hd hn]
  refine ⟨State.view_when State.chan (by simp [State.chEvent]) _ _, (State.view_when State.bar (by simp [State.chEvent]) _ _).trans ?_,
    by simp, State.view_when (fun s => s.reg _) (fun s => reg_chEvent_ne c 2 4 s (by decide)) _ _⟩
  simp

/-! ## A bit of a field, and an input whose channel does not run (R240) -/

/-- One bit of the HV inputs' field is set or cleared, the others stand. -/
theorem testBit_putBit_hvi (b : Bool) : ∀ g < 16, ∀ i j : Fin 4,
    ((if b then g ||| 2 ^ i.val else g - (g &&& 2 ^ i.val)) % 16).testBit j = if j = i then b else g.testBit j := by
  revert b
  decide

theorem putBitAt_hvi (i j : Fin 4) (b : Bool) (s : State) : ((s.putBitAt F.BAR_HVI_STATE i b).get F.BAR_HVI_STATE).testBit j =
    if j = i then b else (s.get F.BAR_HVI_STATE).testBit j := by
  rw [State.putBitAt, State.get_put_same _ _ s (by decide)]
  exact testBit_putBit_hvi b _ (State.get_lt _ s) i j

theorem takeEdge_of_stopped {c : Fin 64} {s : State} (h : s.chRuns c = false) (level : Bool) (t : SysTime) :
    takeEdge c level t s = s := by
  simp [takeEdge, h]

/-- Whether a channel runs is told by the node and the channel's CTL register. -/
theorem chRuns_congr {c : Fin 64} {s t : State} (hnode : t.node = s.node)
    (h : t.reg (0x40020000 + 0x100 * c.val) = s.reg (0x40020000 + 0x100 * c.val)) : t.chRuns c = s.chRuns c := by
  have hen : t.chEn c = s.chEn c := State.bit_of_get (State.get_of_reg h)
  have hmode : t.mode c = s.mode c := State.get_of_reg h
  simp only [State.chRuns, State.listsRun, State.live, State.clocked, hnode, hen, hmode]

/-- Input `i`'s bits as HV_EVENT `f` gives them. -/
def inputShown (f : List Byte) (i : Nat) (s : State) : State :=
  let s := s.putBitAt F.BAR_HVI_STATE i ((byteAt f 7).getLsbD 0)
  if (byteAt f 7).getLsbD 0 then s.putBitAt F.BAR_HVI_DEADZONE i ((byteAt f 7).getLsbD 1) else s

theorem inputShown_reg_ne (f : List Byte) (i : Nat) (s : State) {a : Nat} (h : a ≠ 0x400C00B0) : (inputShown f i s).reg a = s.reg a := by
  unfold inputShown
  dsimp only
  split
  · exact (State.reg_put_ne F.BAR_HVI_DEADZONE _ _ h).trans (State.reg_put_ne F.BAR_HVI_STATE _ s h)
  · exact State.reg_put_ne F.BAR_HVI_STATE _ s h

theorem inputShown_bits (f : List Byte) (i j : Fin 4) (s : State) : ((inputShown f i s).get F.BAR_HVI_STATE).testBit j =
    if j = i then (byteAt f 7).getLsbD 0 else (s.get F.BAR_HVI_STATE).testBit j := by
  unfold inputShown
  dsimp only
  split
  · rw [State.putBitAt, State.get_put_apart F.BAR_HVI_DEADZONE _ _ _ (by decide) (by decide), putBitAt_hvi]
  · exact putBitAt_hvi i j _ s

end Sys2Proof.Machine

namespace Sys2Proof.Safety
open Sys2Proof.Machine

theorem outputReported_completes {f : List Byte} {o : Fin 12} {e : Entry} {s : State} (hto : toNode f tHV_EVENT s)
    (hnew : ∀ x ∈ s.bar.store, x.1 ≠ fSeq f) (ho : (byteAt f 6).toNat = o.val) (hover : (byteAt f 7).getLsbD 3 = false) :
    let c : Fin 64 := Fin.ofNat 64 (48 + o.val)
    let tag := BitVec.ofNat 32 (leAt f 16 4)
    tag ≠ 0 → s.chan[c].list.find? (fun e => e.tag == tag) = some e → e.bad = false → e.fwd = .sent →
    s.wheelDomain c = false → s.chan[c].newConfig = none →
    completes (.hvEvent f) s [.regs, .ic, .chan, .bar] fun t =>
      t.chan[c].list = (s.chan[c].list.filter fun x => decide (x.tag ≠ tag)) ∧ (∀ d, d ≠ c → t.chan[d] = s.chan[d]) ∧
      t.bit (F.CH_STATUS_LEVEL c) = (if e.done = true then s.bit (F.CH_STATUS_LEVEL c) else e.level) := by
  intro c tag htag hfind hbad hsent hdom hnone
  have hetag : e.tag = tag := by simpa using List.find?_some hfind
  obtain ⟨g, htagged⟩ := tagged_of_find (s := heardUp s) htag hfind
  set u := executed c e ((byteAt f 7).getLsbD 2) (heardUp s) with hu
  have hchan : u.chan = s.chan := executed_chan c e _ (heardUp s)
  have hctl {k : Nat} (hk : k = 0 ∨ k = 4) : u.reg (0x40020000 + 0x100 * c.val + k) =
      (levelGiven c e (heardUp s)).reg (0x40020000 + 0x100 * c.val + k) :=
    entryDone_reg_ne c e _ k _ (by omega) (by omega)
  have hudom : u.wheelDomain c = false :=
    (wheelDomain_congr ((hctl (.inl rfl)).trans ((levelGiven_ctl c e _).trans (heardUp_reg_ne s (by omega))))).trans hdom
  have hubar : u.bar = (heardUp s).bar := bar_same_of_hide (m := 129) rfl (executed_hide c e _ _ _ rfl)
  obtain ⟨hlist, hbar, hhide, hlevel⟩ := dropEntry_of_time (e := e) hudom (by rw [hchan]; exact hnone)
  rw [hchan, hetag] at hlist
  refine report_completes (u := dropEntry c e u) hto hnew (rfl : execHvEvent f s = _) ?_ (hbar.trans hubar)
    (only_of_hide (k := 139393) rfl ?_) fun _ => ⟨?_, fun d hd => ?_, ?_⟩
  · simp only [ho, o.isLt, if_true, hover, Bool.false_eq_true, if_false]
    exact hvReported_of_tagged htagged hbad hsent
  · rw [completedUp_hide _ _ _ rfl, hide_mono rfl hhide, executed_hide _ _ _ _ _ rfl, heardUp_hide _ _ rfl]
  · simp [hlist]
  · simp only [completedUp_rest, hlist]
    simp [Fin.val_ne_of_ne hd.symm]
  · have haddr : 0x40020000 + 0x100 * c.val + 4 = (F.CH_STATUS_LEVEL c).addr := by
      simp only [F.CH_STATUS_LEVEL]
      omega
    have hreg := hlevel.trans (hctl (.inr rfl))
    rw [haddr] at hreg
    have hbit : (completedUp f (dropEntry c e u)).bit (F.CH_STATUS_LEVEL c) = (dropEntry c e u).bit (F.CH_STATUS_LEVEL c) := rfl
    have hheard : (heardUp s).get (F.CH_STATUS_LEVEL c) = s.get (F.CH_STATUS_LEVEL c) :=
      heardUp_get_ne s (by rw [← haddr]; omega)
    rw [hbit, State.bit_of_get (State.get_of_reg hreg), levelGiven_bit, State.bit_of_get hheard]

theorem inputReported_completes {f : List Byte} {i : Fin 4} {s : State} (hto : toNode f tHV_EVENT s)
    (hnew : ∀ x ∈ s.bar.store, x.1 ≠ fSeq f) (hi : (byteAt f 6).toNat = 0x80 + i.val)
    (hstop : s.chRuns (Fin.ofNat 64 (60 + i.val)) = false) : completes (.hvEvent f) s [.regs, .bar] fun t =>
      ∀ j : Fin 4, (t.get F.BAR_HVI_STATE).testBit j =
        if j = i then (byteAt f 7).getLsbD 0 else (s.get F.BAR_HVI_STATE).testBit j := by
  have hhide : (inputShown f i (heardUp s)).hide 1 = (heardUp s).hide 1 := by
    unfold inputShown
    dsimp only
    split <;> simp
  have hnode : (inputShown f i (heardUp s)).node = (heardUp s).node := node_same_of_hide rfl hhide
  have hbar : (inputShown f i (heardUp s)).bar = (heardUp s).bar := bar_same_of_hide rfl hhide
  have hstopped : (inputShown f i (heardUp s)).chRuns (Fin.ofNat 64 (60 + i.val)) = false :=
    have hlt := (Fin.ofNat 64 (60 + i.val)).isLt
    (chRuns_congr hnode (inputShown_reg_ne f i _ (by omega))).trans
      ((chRuns_congr (s := s) (by simp [heardUp, State.setBar]) (heardUp_reg_ne s (by omega))).trans hstop)
  refine report_completes (u := inputShown f i (heardUp s)) hto hnew (rfl : execHvEvent f s = _) ?_ hbar
    (only_of_hide (k := 131073) rfl ?_) fun _ j => ?_
  · have hsub : 0x80 + i.val - 0x80 = i.val := by omega
    simp only [hi, hsub, if_neg (by omega : ¬ 0x80 + i.val < 12), if_pos (by omega : 0x80 ≤ 0x80 + i.val ∧ 0x80 + i.val < 0x84)]
    exact takeEdge_of_stopped hstopped _ _
  · rw [completedUp_hide _ _ _ rfl, hide_mono rfl hhide, heardUp_hide _ _ rfl]
  · refine (inputShown_bits f i j (heardUp s)).trans ?_
    rw [heardUp_get_ne s (by decide)]

/-- Settles O26: what a frame brings is one function of the state for each type, and the answer is the same for all. -/
theorem upReports : Obligations.UpReports := by
  refine ⟨⟨fun f s => statusFrame_completes, fun f s hnew => ⟨fun hto p => measure_completes hto hnew,
    fun hto o => optime_completes hto hnew, fun hto o => overcurrentReported_completes hto hnew,
    fun hto w => teethOff_completes hto hnew⟩, fun f x s hrest hx => ⟨fun hto => ?_, fun hto => ?_, fun hto => ?_, fun hto => ?_⟩,
    fun f s c hc => ?_⟩, fun f p s => teeth_completes, fun f o e s => outputReported_completes, fun f i s => inputReported_completes⟩
  · exact report_again hto hrest hx (rfl : execMeasure f s = _)
  · exact report_again hto hrest hx (rfl : execOptime f s = _)
  · exact report_again hto hrest hx (rfl : execTeeth f s = _)
  · exact report_again hto hrest hx (rfl : execHvEvent f s = _)
  · obtain ⟨type, k, hexec⟩ := exec_up f s c hc
    refine ⟨fun hlen => hexec.trans (upFrame_otherLength hlen), fun hlen hcrc hclk hinj => ?_⟩
    have hrun := hexec.trans (upFrame_wrongCrc hlen hcrc hclk hinj)
    refine ⟨_, hrun, only_of_hide (k := 65) rfl (by simp), ?_, State.raise_col_congr (by simp) (by simp) (by simp) (by simp)⟩
    rw [State.get_of_reg (State.reg_raise_ne _ _ (by decide)), State.get_count_same _ _ s (by decide), Nat.min_comm]
    rfl

end Sys2Proof.Safety
end

section
/-! COMPLETION on the logic side, and the loss of the link (R81, R89 to R93, R121, R229). -/

namespace Sys2Proof.Machine

/-! ## What every step of a repetition keeps -/

theorem State.each_keeps {α : Type} {P : State → Prop} {f : α → State → State} {l : List α} (h : ∀ a ∈ l, ∀ s, P s → P (f a s))
    {s : State} (hs : P s) : P (s.each l f) := by
  induction l generalizing s with
  | nil => exact hs
  | cons a l ih => exact ih (fun b hb => h b (List.mem_cons_of_mem a hb)) (h a List.mem_cons_self s hs)

/-! ## A COMPLETION for the mailbox (R93) -/

/-- The RX words as a completion's payload gives them. -/
def rxGiven (payload : List Byte) (n : Nat) (s : State) : State :=
  s.each (List.range n) fun i => State.put (F.BAR_MBX_RX_DATA i) (leAt payload (4 * i) 4)

theorem rxGiven_succ (payload : List Byte) (n : Nat) (s : State) :
    rxGiven payload (n + 1) s = (rxGiven payload n s).put (F.BAR_MBX_RX_DATA n) (leAt payload (4 * n) 4) := by
  simp [rxGiven, State.each, List.range_succ]

theorem rxGiven_get (payload : List Byte) {n i : Nat} (hi : i < n) (s : State) :
    (rxGiven payload n s).get (F.BAR_MBX_RX_DATA i) = leAt payload (4 * i) 4 := by
  induction n with
  | zero => omega
  | succ n ih =>
    rw [rxGiven_succ]
    rcases Nat.lt_succ_iff_lt_or_eq.1 hi with hlt | rfl
    · rw [State.get_put_addr _ _ _ _ (by simp only [F.BAR_MBX_RX_DATA]; omega), ih hlt]
    · rw [State.get_put_same _ _ _ (by simp [Field.Fits, F.BAR_MBX_RX_DATA])]
      exact leAt_mod payload (4 * i) 4

theorem rxGiven_hide (payload : List Byte) (n : Nat) (s : State) (m : Nat) (h : m &&& 1 = 1) :
    (rxGiven payload n s).hide m = s.hide m := by
  refine hide_mono h ?_
  simp [rxGiven]

/-- A completed mailbox request: its RX words and its result. -/
def mailboxDone (status : Byte) (payload : List Byte) (s : State) : State := endMailbox status.toNat (rxGiven payload 6 s)

theorem completed_mailbox {r : Request} (h : r.issuer = .mailbox) (status : Byte) (payload : List Byte) (s : State) :
    completed r status payload s = mailboxDone status payload s := by
  simp only [completed, h]
  rfl

theorem mailboxDone_fields (status : Byte) (payload : List Byte) (s : State) :
    (mailboxDone status payload s).get F.BAR_MBX_TXCTL_RESULT = status.toNat ∧
    (mailboxDone status payload s).get F.BAR_MBX_TXCTL_BUSY = 0 ∧
    (mailboxDone status payload s).ic.lat = s.ic.lat ||| BitVec.twoPow 128 96 ∧
    (mailboxDone status payload s).bar = s.bar ∧
    ∀ i : Fin 6, (mailboxDone status payload s).get (F.BAR_MBX_RX_DATA i) = leAt payload (4 * i) 4 := by
  have hhide := rxGiven_hide payload 6 s 1 rfl
  obtain ⟨hres, hbusy, hlat⟩ := endMailbox_fields status.toNat (rxGiven payload 6 s)
  rw [ic_same_of_hide rfl hhide] at hlat
  refine ⟨hres.trans (Nat.mod_eq_of_lt status.isLt), hbusy, hlat, ?_, fun i => ?_⟩
  · exact (bar_same_of_hide (m := 129) rfl (endMailbox_hide _ _ _ rfl)).trans (bar_same_of_hide rfl hhide)
  · rw [← rxGiven_get payload i.isLt s]
    refine State.get_of_reg (endMailbox_reg_ne _ _ ?_ ?_)
    · simp only [F.BAR_MBX_RX_DATA]
      omega
    · simp only [F.BAR_MBX_RX_DATA, cntField]
      omega

/-! ## The HELLO's COMPLETION (R81, R89, R121) -/

/-- A version the MFE's ROM names is one Kindling accepts. -/
def State.romKnown (versions : List Byte) (s : State) : Bool := versions.any fun v => v != 0 && s.node.mfeRoms.contains v

/-- The logic side once a HELLO's completion has been noted. -/
def helloDone (payload : List Byte) (s : State) : State :=
  ((s.setBar { s.bar with step := .sync, store := [], status := s.bar.status.map fun (f, l) => (f &&& 0xF7, l) }).put
    F.BAR_STATUS_HELLO_DONE 1).put F.BAR_STATUS_MFE_ROM (byteAt payload 1).toNat

theorem completed_hello {r : Request} {s : State} (h : r.issuer = .handshake) (hstep : s.bar.step = .hello) (status : Byte)
    (payload : List Byte) : completed r status payload s =
      syncReached (sendWaiting 16 (decideRom (slice payload 1 8) (helloDone payload s))) := by
  simp only [completed, h, handshakeStep, hstep]
  rfl

theorem decideRom_fields (versions : List Byte) (s : State) :
    (decideRom versions s).bar = { s.bar with romOk := s.romKnown versions, roms := versions } ∧
    (decideRom versions s).bit F.KIN_STATUS_HV_REFUSED = !s.romKnown versions ∧
    ∀ a, a ≠ F.FLT_CNT_B_DROPPED.addr → a ≠ F.KIN_STATUS_HV_REFUSED.addr → (decideRom versions s).reg a = s.reg a := by
  have hreg {c : Bool} {f : FaultSpec} {t : State} {a : Nat} (ha : a ≠ F.FLT_CNT_B_DROPPED.addr) :
      (t.when c (State.raise f)).reg a = t.reg a := State.view_when (fun s => s.reg a) (fun s => State.reg_raise_ne f s ha) _ _
  unfold decideRom
  refine ⟨(State.view_when State.bar (by simp) _ _).trans ?_, ?_, fun a hd hr => (hreg hd).trans (State.reg_put_ne _ _ _ hr)⟩
  · simp [State.setBar, State.romKnown]
  · rw [State.bit_of_get (State.get_of_reg (hreg (by decide))), bit_putBit_same _ _ _ (by decide)]
    rfl

/-- Out of SYNC, the handshake goes no further. -/
theorem syncReached_of_unsynced {s : State} (h : s.mfeFlags.getLsbD 0 = false) : syncReached s = s :=
  if_neg fun hs => by rw [h] at hs; exact absurd hs.2 (by decide)

/-- What a HELLO's completion leaves where the MFE is out of SYNC and none waits. -/
theorem completed_hello_unsynced {r : Request} {s : State} (h : r.issuer = .handshake) (hstep : s.bar.step = .hello)
    (hw : s.bar.waiting = []) (hsync : s.mfeFlags.getLsbD 0 = false) (status : Byte) (payload : List Byte) :
    completed r status payload s = decideRom (slice payload 1 8) (helloDone payload s) := by
  obtain ⟨hbar, -, -⟩ := decideRom_fields (slice payload 1 8) (helloDone payload s)
  rw [completed_hello h hstep, sendWaiting_of_none (by rw [hbar]; exact hw), syncReached_of_unsynced]
  rw [State.mfeFlags, hbar]
  rw [State.mfeFlags] at hsync
  cases hst : s.bar.status with
  | none => simp [helloDone, State.setBar, hst]
  | some x =>
    rw [hst] at hsync
    simpa [helloDone, State.setBar, hst] using hsync

/-! ## The link goes down (R92, R229) -/

theorem returnFailed_reg_ne (i : Issuer) (s : State) {a : Nat} (h : a ≠ 0x400C0038) (hc : a ≠ (cntField 96).addr) :
    (returnFailed i s).reg a = s.reg a := by
  unfold returnFailed
  split
  · rfl
  · unfold State.modEntry
    split <;> rfl
  · exact endMailbox_reg_ne _ s h hc
  · rfl

theorem returnFailed_bar (i : Issuer) (s : State) : (returnFailed i s).bar.outs = s.bar.outs ∧
    (returnFailed i s).bar.waiting = s.bar.waiting := by
  unfold returnFailed
  split
  · exact ⟨rfl, rfl⟩
  · unfold State.modEntry
    split <;> exact ⟨rfl, rfl⟩
  · simp [endMailbox]
  · exact ⟨rfl, rfl⟩

/-- Source `n` is latched. -/
def State.sourceLatched (n : Nat) (s : State) : Prop := s.ic.lat.getLsbD n = true

/-- A latch that is set stays set while requests fail. -/
theorem returnFailed_latched {n : Nat} (i : Issuer) {s : State} (h : s.sourceLatched n) : (returnFailed i s).sourceLatched n := by
  unfold returnFailed
  split
  · exact h
  · unfold State.modEntry
    split <;> exact h
  · obtain ⟨-, -, hlat⟩ := endMailbox_fields 0xFF s
    rw [State.sourceLatched] at h ⊢
    rw [hlat, BitVec.getLsbD_or, h, Bool.true_or]
  · exact h

/-- What no failure and no lost link changes of a list: each entry's key, action and tag. -/
def State.listed (c : Fin 64) (s : State) : List (BitVec 64 × Word × Word) := s.chan[c].list.map fun e => (e.key, e.action, e.tag)

theorem modEntry_listed (k : Nat) (tag : Word) (c : Fin 64) (s : State) :
    (s.modEntry k tag fun e => { e with fwd := .refused }).listed c = s.listed c := by
  unfold State.modEntry
  split
  · simp only [State.listed, Fin.getElem_fin, Vector.getElem_set]
    split
    · next h =>
      subst h
      rw [List.map_map]
      refine List.map_congr_left fun e _ => ?_
      simp only [Function.comp]
      split <;> rfl
    · rfl
  · rfl

theorem returnFailed_listed (i : Issuer) (c : Fin 64) (s : State) : (returnFailed i s).listed c = s.listed c := by
  unfold returnFailed
  split
  · rfl
  · exact modEntry_listed _ _ c s
  · simp [State.listed, endMailbox]
  · rfl

/-- A channel that the issuer does not name stands. -/
theorem returnFailed_chan {i : Issuer} {c : Fin 64} (h : ∀ tag, i ≠ .schedule c tag) (s : State) :
    (returnFailed i s).chan[c] = s.chan[c] := by
  unfold returnFailed
  split
  · rfl
  · next k tag =>
    have hne : k ≠ c.val := fun hk => h tag (by rw [hk])
    unfold State.modEntry
    split
    · simp [hne]
    · rfl
  · simp [endMailbox]
  · rfl

theorem requestFailed_rest (r : Request) (s : State) : (requestFailed r s).chan = s.chan ∧ (requestFailed r s).ic = s.ic := by
  simp [requestFailed, barFault, State.setBar]

/-- All the requests outstanding fail: what that counts and takes off. -/
theorem each_failRequest (l : List Request) (s : State) :
    (s.each l failRequest).get F.BAR_CNT_B_TIMEOUTS = min 0xFFFF (s.get F.BAR_CNT_B_TIMEOUTS + l.length) ∧
    (s.each l failRequest).bar.outs = (s.bar.outs.filter fun x => l.all fun r => x.seq != r.seq) := by
  induction l generalizing s with
  | nil =>
    have := State.get_lt F.BAR_CNT_B_TIMEOUTS s
    have hw : 2 ^ F.BAR_CNT_B_TIMEOUTS.width = 0x10000 := rfl
    refine ⟨?_, by simp⟩
    rw [State.each_nil, List.length_nil]
    omega
  | cons r l ih =>
    obtain ⟨hcount, houts⟩ := ih (failRequest r s)
    obtain ⟨gcount, gouts, -, -⟩ := requestFailed_fields r s
    rw [State.each_cons, hcount, houts, failRequest_eq, (returnFailed_bar _ _).1, gouts,
      State.get_of_reg (returnFailed_reg_ne _ _ (by decide) (by decide)), gcount, List.length_cons, List.filter_filter]
    refine ⟨by omega, List.filter_congr fun x _ => ?_⟩
    rw [List.all_cons, Bool.and_comm]

/-- Nothing stays outstanding. -/
theorem outs_each_failRequest (s : State) : (s.each s.bar.outs failRequest).bar.outs = [] := by
  rw [(each_failRequest _ s).2, List.filter_eq_nil_iff]
  intro x hx
  simp only [List.all_eq_true, bne_iff_ne, ne_eq, not_forall, not_not]
  exact ⟨x, hx, rfl⟩

/-- The same change on several channels. -/
theorem chan_each_modC {l : List (Fin 64)} (hl : l.Nodup) (f : Chan → Chan) (c : Fin 64) (s : State) :
    (s.each l fun c s => s.modC c f).chan[c] = if c ∈ l then f s.chan[c] else s.chan[c] := by
  induction l generalizing s with
  | nil => simp
  | cons d l ih =>
    obtain ⟨hd, hl⟩ := List.nodup_cons.1 hl
    rw [State.each_cons, ih hl]
    by_cases hcd : d = c
    · subst hcd
      simp [hd, State.modC, State.setC]
    · have hstand : (s.modC d f).chan[c] = s.chan[c] := by
        simp [State.modC, State.setC, Fin.val_ne_of_ne hcd]
      simp only [hstand, List.mem_cons, or_iff_right (Ne.symm hcd)]

theorem unforward_chan (c : Fin 64) (s : State) : (unforward s).chan[c] =
    if isHv c then { s.chan[c] with list := s.chan[c].list.map Entry.unforwarded } else s.chan[c] := by
  rw [unforward, chan_each_modC ((List.nodup_finRange 64).filter _)]
  simp

theorem unforwarded_fields (e : Entry) : (e.unforwarded.key, e.unforwarded.action, e.unforwarded.tag) = (e.key, e.action, e.tag) ∧
    e.unforwarded.fwd = .no ∧ (e.unforwarded.begun = false → e.unforwarded.gate = none ∧ e.unforwarded.comp = none) := by
  unfold Entry.unforwarded
  split
  · next h => exact ⟨rfl, rfl, fun hb => absurd h (by rw [hb]; decide)⟩
  · exact ⟨rfl, rfl, fun _ => ⟨rfl, rfl⟩⟩

theorem unforward_listed (c : Fin 64) (s : State) : (unforward s).listed c = s.listed c := by
  unfold State.listed
  rw [unforward_chan]
  split
  · rw [List.map_map]
    exact List.map_congr_left fun e _ => (unforwarded_fields e).1
  · rfl

/-- The link is down: the bits it held are clear, and the loss is reported. -/
def linkLost (s : State) : State :=
  barFault kLOSS_OF_SYNC 0 (((((s.put F.BAR_STATUS_LINK_UP 0).put F.BAR_STATUS_HELLO_DONE 0).put F.BAR_STATUS_FAILSTATE_SENT 0).put
    F.BAR_STATUS_HV_ENABLED 0).interrupt 98)

/-- The link is down, and every request has failed. -/
def allFailed (s : State) : State :=
  let u := (linkLost s).each s.bar.outs failRequest
  (u.setBar { u.bar with waiting := [] }).each s.bar.waiting fun r => returnFailed r.issuer

theorem linkLost_bar (s : State) : (linkLost s).bar = s.bar := by simp [linkLost, barFault]

theorem linkDown_eq (s : State) : linkDown s = unforward ((allFailed s).setBar { (allFailed s).bar with step := .idle, status := none }) := by
  unfold linkDown
  dsimp only
  rw [← linkLost, linkLost_bar]
  rfl

theorem linkLost_chan (s : State) : (linkLost s).chan = s.chan := by simp [linkLost, barFault]

theorem linkLost_reg_ne (s : State) {a : Nat} (h : a ≠ 0x400C0000) (hd : a ≠ F.FLT_CNT_B_DROPPED.addr) (hc : a ≠ (cntField 98).addr) :
    (linkLost s).reg a = s.reg a :=
  (State.reg_raise_ne _ _ hd).trans ((State.reg_interrupt_ne 98 _ hc).trans
    ((State.reg_put_ne F.BAR_STATUS_HV_ENABLED _ _ h).trans ((State.reg_put_ne F.BAR_STATUS_FAILSTATE_SENT _ _ h).trans
    ((State.reg_put_ne F.BAR_STATUS_HELLO_DONE _ _ h).trans (State.reg_put_ne F.BAR_STATUS_LINK_UP _ s h)))))

theorem linkLost_bits (s : State) : (linkLost s).bit F.BAR_STATUS_LINK_UP = false ∧ (linkLost s).bit F.BAR_STATUS_HELLO_DONE = false ∧
    (linkLost s).bit F.BAR_STATUS_FAILSTATE_SENT = false ∧ (linkLost s).bit F.BAR_STATUS_HV_ENABLED = false := by
  have hkeep {f : Field} {t : State} (hf : f.addr = 0x400C0000) :
      (barFault kLOSS_OF_SYNC 0 (t.interrupt 98)).bit f = t.bit f :=
    State.bit_of_get (State.get_of_reg ((State.reg_raise_ne _ _ (by rw [hf]; decide)).trans
      (State.reg_interrupt_ne 98 _ (by rw [hf]; decide))))
  have hzero {f : Field} {t : State} (hf : f.Fits) : (t.put f 0).bit f = false := by
    rw [State.bit, State.get_put_same f 0 t hf, Nat.zero_mod]
    rfl
  have hapart {f g : Field} {t : State} (hg : g.Fits) (h : g.hi < f.lo ∨ f.hi < g.lo) : (t.put f 0).bit g = t.bit g :=
    State.bit_of_get (State.get_put_apart f g 0 t hg h)
  unfold linkLost
  refine ⟨?_, ?_, ?_, ?_⟩ <;> rw [hkeep rfl]
  · rw [hapart (by decide) (by decide), hapart (by decide) (by decide), hapart (by decide) (by decide), hzero (by decide)]
  · rw [hapart (by decide) (by decide), hapart (by decide) (by decide), hzero (by decide)]
  · rw [hapart (by decide) (by decide), hzero (by decide)]
  · rw [hzero (by decide)]

theorem linkLost_latched (s : State) : (linkLost s).sourceLatched 98 := by
  simp only [State.sourceLatched, linkLost, barFault, State.raise_rest]
  rw [State.interrupt_lat rfl, BitVec.getLsbD_or]
  simp

theorem failRequest_reg_ne (r : Request) (s : State) {a : Nat} (h : a ≠ 0x400C0038) (hc : a ≠ (cntField 96).addr)
    (ht : a ≠ F.BAR_CNT_B_TIMEOUTS.addr) (hd : a ≠ F.FLT_CNT_B_DROPPED.addr) : (failRequest r s).reg a = s.reg a :=
  (returnFailed_reg_ne _ _ h hc).trans (reg_requestFailed_ne r s ht hd)

theorem failRequest_listed (r : Request) (c : Fin 64) (s : State) : (failRequest r s).listed c = s.listed c := by
  rw [failRequest_eq, returnFailed_listed, State.listed, (requestFailed_rest r s).1, State.listed]

theorem failRequest_chan {r : Request} {c : Fin 64} (h : ∀ tag, r.issuer ≠ .schedule c tag) (s : State) :
    (failRequest r s).chan[c] = s.chan[c] := by
  rw [failRequest_eq, returnFailed_chan h, (requestFailed_rest r s).1]

theorem failRequest_latched {n : Nat} (r : Request) {s : State} (h : s.sourceLatched n) : (failRequest r s).sourceLatched n := by
  rw [failRequest_eq]
  refine returnFailed_latched _ ?_
  rw [State.sourceLatched, (requestFailed_rest r s).2]
  exact h

/-- The BAR.STATUS bits stay as the loss of the link has left them. -/
theorem allFailed_reg (s : State) : (allFailed s).reg 0x400C0000 = (linkLost s).reg 0x400C0000 :=
  (State.view_each (fun s => s.reg 0x400C0000) (fun (r : Request) s => returnFailed_reg_ne r.issuer s (by decide) (by decide)) _ _).trans
    (State.view_each (fun s => s.reg 0x400C0000)
      (fun r s => failRequest_reg_ne r s (by decide) (by decide) (by decide) (by decide)) _ _)

theorem allFailed_bar (s : State) : (allFailed s).bar.outs = [] ∧ (allFailed s).bar.waiting = [] := by
  refine ⟨(State.view_each (fun s => s.bar.outs) (fun (r : Request) s => (returnFailed_bar r.issuer s).1) _ _).trans ?_,
    State.view_each (fun s => s.bar.waiting) (fun (r : Request) s => (returnFailed_bar r.issuer s).2) _ _⟩
  have houts := outs_each_failRequest (linkLost s)
  rw [linkLost_bar] at houts
  exact houts

theorem allFailed_timeouts (s : State) : (allFailed s).get F.BAR_CNT_B_TIMEOUTS =
    min 0xFFFF (s.get F.BAR_CNT_B_TIMEOUTS + s.bar.outs.length) := by
  have hwait : (allFailed s).get F.BAR_CNT_B_TIMEOUTS = ((linkLost s).each s.bar.outs failRequest).get F.BAR_CNT_B_TIMEOUTS :=
    State.view_each (fun s => s.get F.BAR_CNT_B_TIMEOUTS)
      (fun (r : Request) s => State.get_of_reg (returnFailed_reg_ne r.issuer s (by decide) (by decide))) _ _
  have hlost : (linkLost s).get F.BAR_CNT_B_TIMEOUTS = s.get F.BAR_CNT_B_TIMEOUTS :=
    State.get_of_reg (linkLost_reg_ne s (by decide) (by decide) (by decide))
  rw [hwait, (each_failRequest _ _).1, hlost]

theorem allFailed_latched (s : State) : (allFailed s).sourceLatched 98 := by
  have hfail : ((linkLost s).each s.bar.outs failRequest).sourceLatched 98 :=
    State.each_keeps (fun r _ _ h => failRequest_latched r h) (linkLost_latched s)
  exact State.each_keeps (fun (r : Request) _ _ h => returnFailed_latched r.issuer h) hfail

theorem allFailed_listed (c : Fin 64) (s : State) : (allFailed s).listed c = s.listed c :=
  (State.view_each (fun s => s.listed c) (fun (r : Request) s => returnFailed_listed r.issuer c s) _ _).trans
    ((State.view_each (fun s => s.listed c) (fun r s => failRequest_listed r c s) _ _).trans
      (by simp only [State.listed, linkLost_chan]))

/-- A channel that no request names stands. -/
theorem allFailed_chan {c : Fin 64} {s : State} (h : ∀ r ∈ s.bar.outs ++ s.bar.waiting, ∀ tag, r.issuer ≠ .schedule c tag) :
    (allFailed s).chan[c] = s.chan[c] := by
  have hfail : ((linkLost s).each s.bar.outs failRequest).chan[c] = s.chan[c] :=
    State.each_keeps (P := fun t => t.chan[c] = s.chan[c])
      (fun r hr t ht => (failRequest_chan (h r (List.mem_append_left _ hr)) t).trans ht) (by rw [linkLost_chan])
  exact State.each_keeps (P := fun t => t.chan[c] = s.chan[c])
    (fun r hr t ht => (returnFailed_chan (h r (List.mem_append_right _ hr)) t).trans ht) hfail

end Sys2Proof.Machine

namespace Sys2Proof.Safety
open Sys2Proof.Machine

/-- How a sound COMPLETION goes on, by what its REF names. -/
theorem completion_runs {f : List Byte} {s : State} (hto : toNode f tCOMPLETION s) : exec (.completion false f) s = .next
    (match s.bar.outs.find? fun r => r.seq == fRef f with
    | some r => sendWaiting 16 (completed r (byteAt f 6) (fPayload f) (takeOut r.seq (heardUp s)))
    | none => match s.bar.sent.find? fun x => x.1 == fRef f with
      | some (_, true) => (barFault kLATE_COMPLETION 0 ((heardUp s).count F.BAR_CNT_B_LATE 1)).interrupt 97
      | some (_, false) => heardUp s
      | none => (heardUp s).raise { src := 0x16, kind := kPROTOCOL, cls := corrected, detail := (fRef f).zeroExtend 24 }) :=
  up_runs (c := .completion false f) hto (rfl : nodeCompletion f s = _)

theorem mailboxCompletion_completes {f : List Byte} {r : Request} {s : State} (hto : toNode f tCOMPLETION s)
    (hr : s.bar.outs.find? (fun r => r.seq == fRef f) = some r) (hi : r.issuer = .mailbox) (hw : s.bar.waiting = []) :
    completes (.completion false f) s [.regs, .ic, .bar] fun t => t.bar.outs = (s.bar.outs.filter fun x => x.seq != r.seq) ∧
      t.get F.BAR_MBX_TXCTL_RESULT = (byteAt f 6).toNat ∧ t.get F.BAR_MBX_TXCTL_BUSY = 0 ∧
      t.ic.lat = s.ic.lat ||| BitVec.twoPow 128 96 ∧ ∀ i : Fin 6, t.get (F.BAR_MBX_RX_DATA i) = leAt (fPayload f) (4 * i) 4 := by
  obtain ⟨hres, hbusy, hlat, hbar, hrx⟩ := mailboxDone_fields (byteAt f 6) (fPayload f) (takeOut r.seq (heardUp s))
  have hrun := completion_runs hto
  rw [hr] at hrun
  dsimp only at hrun
  rw [completed_mailbox hi, sendWaiting_of_none (by rw [hbar]; exact hw)] at hrun
  refine ⟨_, hrun, only_of_hide (k := 131201) rfl ?_, by rw [hbar]; rfl, hres, hbusy, hlat, hrx⟩
  rw [mailboxDone, endMailbox_hide _ _ _ rfl, rxGiven_hide _ _ _ _ rfl]
  simp [takeOut]

theorem helloCompletion_completes {f : List Byte} {r : Request} {s : State} (hto : toNode f tCOMPLETION s)
    (hr : s.bar.outs.find? (fun r => r.seq == fRef f) = some r) (hi : r.issuer = .handshake) (hstep : s.bar.step = .hello)
    (hw : s.bar.waiting = []) (hsync : s.mfeFlags.getLsbD 0 = false) :
    completes (.completion false f) s [.regs, .col, .bar] fun t =>
      let known := (slice (fPayload f) 1 8).any fun v => v != 0 && s.node.mfeRoms.contains v
      t.bar.step = .sync ∧ t.bar.store = [] ∧ t.bar.roms = slice (fPayload f) 1 8 ∧ t.bar.romOk = known ∧
      t.bit F.BAR_STATUS_HELLO_DONE = true ∧ t.bit F.KIN_STATUS_HV_REFUSED = !known ∧
      t.bar.outs = (s.bar.outs.filter fun x => x.seq != r.seq) := by
  obtain ⟨hbar, hrefused, hreg⟩ := decideRom_fields (slice (fPayload f) 1 8) (helloDone (fPayload f) (takeOut r.seq (heardUp s)))
  have hrun := completion_runs hto
  rw [hr] at hrun
  dsimp only at hrun
  rw [completed_hello_unsynced (s := takeOut r.seq (heardUp s)) hi hstep hw hsync, sendWaiting_of_none (by rw [hbar]; exact hw)] at hrun
  refine ⟨_, hrun, only_of_hide (k := 131137) rfl (by simp [decideRom, helloDone, takeOut]), ?_⟩
  dsimp only
  rw [hbar]
  refine ⟨rfl, rfl, rfl, rfl, ?_, hrefused, rfl⟩
  rw [State.bit_of_get (State.get_of_reg (hreg _ (by decide) (by decide))), helloDone,
    State.bit_of_get (State.get_put_apart F.BAR_STATUS_MFE_ROM _ _ _ (by decide) (by decide))]
  exact bit_putBit_same F.BAR_STATUS_HELLO_DONE true _ (by decide)

theorem lateCompletion_completes {f : List Byte} {s : State} (hto : toNode f tCOMPLETION s)
    (hr : s.bar.outs.find? (fun r => r.seq == fRef f) = none)
    (hsent : s.bar.sent.find? (fun x => x.1 == fRef f) = some (fRef f, true)) :
    completes (.completion false f) s [.regs, .col, .ic, .bar] fun t =>
      t.get F.BAR_CNT_B_LATE = min 0xFFFF (s.get F.BAR_CNT_B_LATE + 1) ∧ t.ic.lat = s.ic.lat ||| BitVec.twoPow 128 97 ∧
      t.bar = { s.bar with heard := s.cycles } ∧
      t.col = (s.raise { src := 0x16, kind := kLATE_COMPLETION, cls := corrected }).col := by
  have hrun := completion_runs hto
  rw [hr, hsent] at hrun
  refine ⟨_, hrun, only_of_hide (k := 131265) rfl (by simp), ?_, ?_, by simp [barFault, heardUp_bar], ?_⟩
  · rw [State.get_of_reg (State.reg_interrupt_ne 97 _ (by decide)), barFault, State.get_of_reg (State.reg_raise_ne _ _ (by decide)),
      State.get_count_same _ _ _ (by decide), heardUp_get_ne s (by decide), Nat.min_comm]
    rfl
  · rw [State.interrupt_lat rfl]
    simp [barFault, heardUp, State.setBar]
  · simp only [State.interrupt_rest]
    exact State.raise_col_congr (by simp [heardUp, State.setBar]) (by simp [heardUp, State.setBar])
      (by simp [heardUp, State.setBar]) (by simp [heardUp, State.setBar])

theorem unknownCompletion_completes {f : List Byte} {s : State} (hto : toNode f tCOMPLETION s)
    (hr : s.bar.outs.find? (fun r => r.seq == fRef f) = none) (hsent : ∀ x ∈ s.bar.sent, x.1 ≠ fRef f) :
    completes (.completion false f) s [.regs, .col, .bar] fun t => t.bar = { s.bar with heard := s.cycles } ∧
      t.col = (s.raise { src := 0x16, kind := kPROTOCOL, cls := corrected, detail := (fRef f).zeroExtend 24 }).col := by
  have hnone : s.bar.sent.find? (fun x => x.1 == fRef f) = none := by simpa using hsent
  have hrun := completion_runs hto
  rw [hr, hnone] at hrun
  exact ⟨_, hrun, only_of_hide (k := 131137) rfl (by simp), by simp [heardUp_bar],
    State.raise_col_congr (by simp [heardUp, State.setBar]) (by simp [heardUp, State.setBar])
      (by simp [heardUp, State.setBar]) (by simp [heardUp, State.setBar])⟩

theorem linkDown_completes {s : State} (hc : s.clocked = true) (hl : s.linkUp = true) (hdue : s.bar.heard + usCycles 1000 ≤ s.cycles) :
    completes .linkDown s [.regs, .col, .ic, .chan, .bar] fun t =>
      t.bit F.BAR_STATUS_LINK_UP = false ∧ t.bit F.BAR_STATUS_HELLO_DONE = false ∧
      t.bit F.BAR_STATUS_FAILSTATE_SENT = false ∧ t.bit F.BAR_STATUS_HV_ENABLED = false ∧
      t.ic.lat.getLsbD 98 = true ∧ t.bar.waiting = [] ∧ t.bar.step = .idle ∧ t.bar.status = none ∧
      t.bar.outs = [] ∧ t.get F.BAR_CNT_B_TIMEOUTS = min 0xFFFF (s.get F.BAR_CNT_B_TIMEOUTS + s.bar.outs.length) ∧
      (∀ c : Fin 64, (isHv c = false → t.chan[c] = s.chan[c] ∨ ∃ r ∈ s.bar.outs ++ s.bar.waiting, ∃ tag, r.issuer = .schedule c tag) ∧
        (t.chan[c].list.map fun e => (e.key, e.action, e.tag)) = (s.chan[c].list.map fun e => (e.key, e.action, e.tag)) ∧
        (isHv c = true → ∀ e ∈ t.chan[c].list, e.fwd = .no ∧ (e.begun = false → e.gate = none ∧ e.comp = none))) := by
  have hrun : exec .linkDown s = .next (linkDown s) :=
    (actWhen_of_true (by rw [hc, hl]; exact decide_eq_true hdue) : execLinkDown s = _)
  refine ⟨_, hrun, only_of_hide rfl (execLinkDown_hide s _ hrun), ?_⟩
  rw [linkDown_eq]
  set u := (allFailed s).setBar { (allFailed s).bar with step := .idle, status := none } with hu
  have hhide : (unforward u).hide 8192 = u.hide 8192 := unforward_hide u _ rfl
  have hregs : (unforward u).regs = (allFailed s).regs := (hide_parts hhide).1 rfl
  have hic : (unforward u).ic = (allFailed s).ic := (ic_same_of_hide rfl hhide :)
  have hbar : (unforward u).bar = { (allFailed s).bar with step := .idle, status := none } := bar_same_of_hide rfl hhide
  have hbit {f : Field} (hf : f.addr = 0x400C0000) : (unforward u).bit f = (linkLost s).bit f := by
    refine State.bit_of_get (State.get_of_reg ?_)
    rw [hf, ← allFailed_reg, State.reg, hregs]
    rfl
  obtain ⟨hup, hhello, hfs, hhv⟩ := linkLost_bits s
  obtain ⟨houts, hwait⟩ := allFailed_bar s
  refine ⟨(hbit rfl).trans hup, (hbit rfl).trans hhello, (hbit rfl).trans hfs, (hbit rfl).trans hhv, by rw [hic]; exact allFailed_latched s,
    by rw [hbar]; exact hwait, by rw [hbar], by rw [hbar], by rw [hbar]; exact houts, ?_, fun c => ⟨fun hc => ?_, ?_, fun hc e he => ?_⟩⟩
  · rw [State.get, hregs]
    exact allFailed_timeouts s
  · by_cases hnamed : ∃ r ∈ s.bar.outs ++ s.bar.waiting, ∃ tag, r.issuer = .schedule c tag
    · exact .inr hnamed
    · left
      rw [unforward_chan, hc]
      push Not at hnamed
      exact allFailed_chan hnamed
  · exact (unforward_listed c u).trans (allFailed_listed c s)
  · rw [unforward_chan, hc] at he
    obtain ⟨e', -, rfl⟩ := List.mem_map.1 he
    exact (unforwarded_fields e').2

/-- Settles O27: a COMPLETION by what its REF names; a lost link by what no failing request can touch. -/
theorem completionsAndLinkDown : Obligations.CompletionsAndLinkDown := by
  refine ⟨fun f s hto => ⟨fun r => mailboxCompletion_completes hto, fun r => helloCompletion_completes hto,
    lateCompletion_completes hto, fun hr hsent => ?_, unknownCompletion_completes hto⟩,
    fun s hc hl => ⟨fun hearly => ?_, linkDown_completes hc hl⟩⟩
  · have hrun := completion_runs hto
    rw [hr, hsent] at hrun
    exact hrun
  · exact (actWhen_of_false (by rw [decide_eq_false (Nat.not_le.2 hearly), Bool.and_false]) : execLinkDown s = _)

end Sys2Proof.Safety
end

section
/-! The PWRFAIL sequence (R71 to R76, Table 02-4): the steps of the shutdown. -/

namespace Sys2Proof.Machine

/-! ## Step 5: the shutdown record (R73, Table 04-13) -/

/-- A log record stands at the next place of the log, TYPE and CAUSE first. -/
theorem plugLog_record {s : State} (hw : s.plugReachable = true) (type cause : Byte) (time : SysTime) (state : Word) (verdicts : Nat) :
    tabGet 0 (plugLog type cause time state verdicts s).plug.mem (0xFE000 + 64 * s.plugLogNext.1) = type ∧
    tabGet 0 (plugLog type cause time state verdicts s).plug.mem (0xFE001 + 64 * s.plugLogNext.1) = cause := by
  unfold plugLog writePlug
  dsimp only
  rw [State.plugWrites, hw, if_pos rfl]
  dsimp only
  rw [tabGet_setRun, tabGet_setRun, if_pos (by simp), if_pos (by simp; omega)]
  constructor
  · rw [Nat.sub_self]
    rfl
  · rw [(by omega : 0xFE001 + 64 * s.plugLogNext.1 - (0xFE000 + 64 * s.plugLogNext.1) = 1)]
    rfl

theorem pwrRecord_of_not_due {s : State} (h : s.plugRead = false ∨ s.plugReachable = false ∨ s.node.pwrLogged = true) :
    pwrRecord s = s := if_neg fun hdue => by
  obtain ⟨hread, hreach, hlog⟩ := hdue
  rcases h with h | h | h
  · exact absurd h (by rw [hread]; decide)
  · exact absurd h (by rw [hreach]; decide)
  · exact absurd h (by rw [hlog]; decide)

theorem pwrRecord_of_due {s : State} (hread : s.plugRead = true) (hreach : s.plugReachable = true) (hlog : s.node.pwrLogged = false) :
    pwrRecord s = (shutdownRecord 0x01 s.node.pwrAt s.node.pwrRecords s).modNode fun x => { x with pwrLogged := true } :=
  if_pos ⟨hread, hreach, hlog⟩

/-- Step 4: every Ember halts, and the sequence has gone that far. -/
def pwrHalted (s : State) : State := haltEmbers (s.modNode fun x => { x with pwr := .halted })

theorem haltEmbers_ember (s : State) (e : Fin 4) : (haltEmbers s).emb[e].halted = true ∧ (haltEmbers s).emb[e].w = s.emb[e].w ∧
    (haltEmbers s).emb[e].sbuf = s.emb[e].sbuf := by simp [haltEmbers]

/-! ## Step 1 (R71, R73, R75) -/

/-- PWRFAIL as it shows: VBULK and the flag, the fault message and the strobe. -/
def pwrShown (v : BitVec 16) (s : State) : State :=
  (((s.put F.BAR_SUPPLY_VBULK v.toNat).put F.BAR_SUPPLY_PWRFAIL 1).raise
    { src := 0x1A, kind := kPOWER, cls := corrected, reason := 0x01, detail := BitVec.ofNat 24 v.toNat }).strobe 124

theorem pwrShown_fields (v : BitVec 16) (s : State) : (pwrShown v s).get F.BAR_SUPPLY_VBULK = v.toNat ∧
    (pwrShown v s).get F.BAR_SUPPLY_PWRFAIL = 1 ∧
    (pwrShown v s).ic = { s.ic with arrived := s.ic.arrived ||| BitVec.twoPow 128 124 } ∧
    (pwrShown v s).col =
      (s.raise { src := 0x1A, kind := kPOWER, cls := corrected, reason := 0x01, detail := BitVec.ofNat 24 v.toNat }).col := by
  have hreg {f : Field} (hf : f.addr = 0x400C0004) :
      (pwrShown v s).get f = ((s.put F.BAR_SUPPLY_VBULK v.toNat).put F.BAR_SUPPLY_PWRFAIL 1).get f :=
    State.get_of_reg ((State.reg_strobe_ne 124 _ (by rw [hf]; decide)).trans (State.reg_raise_ne _ _ (by rw [hf]; decide)))
  refine ⟨?_, ?_, ?_, ?_⟩
  · rw [hreg rfl, State.get_put_apart _ _ _ _ (by decide) (by decide), State.get_put_same _ _ s (by decide)]
    exact Nat.mod_eq_of_lt v.isLt
  · rw [hreg rfl, State.get_put_same _ _ _ (by decide)]
    rfl
  · simp [pwrShown, State.strobe, reservedSource]
  · simp only [pwrShown, State.strobe_rest]
    exact State.raise_col_congr (by simp) (by simp) (by simp) (by simp)

theorem pwrShown_rest (v : BitVec 16) (s : State) : (pwrShown v s).node = s.node ∧ (pwrShown v s).now = s.now ∧
    (pwrShown v s).cycles = s.cycles ∧ (pwrShown v s).sup = s.sup := by simp [pwrShown]

theorem pwrfail_of_hold {v : BitVec 16} {s : State} (h : s.node.phase = .hold) : pwrfail v s = pwrShown v s :=
  if_pos (by rw [← pwrShown, (pwrShown_rest v s).1]; exact h)

theorem setLeaving_of_bypass {s : State} (h : s.sup.switchIn = false) : setLeaving s = s := if_neg (by rw [h]; decide)

/-- Outside hold the sequence runs from now; with the plug not read there is nothing to drain. -/
theorem pwrfail_of_unread {v : BitVec 16} {s : State} (h : s.node.phase ≠ .hold) (hread : s.plugRead = false)
    (hsw : s.sup.switchIn = false) : pwrfail v s = (pwrShown v s).modNode fun x =>
      { x with pwr := .running, pwrAt := s.now, pwrRecords := 0, pwrCycle := s.cycles, pwrLogged := false } := by
  obtain ⟨hnode, hnow, hcyc, hsup⟩ := pwrShown_rest v s
  have hunread : ((pwrShown v s).modNode fun x => { x with
      pwr := .running, pwrAt := s.now, pwrRecords := 0, pwrCycle := s.cycles, pwrLogged := false }).plugRead = false := by
    rw [State.plugRead, State.modNode, hnode]
    exact hread
  unfold pwrfail
  dsimp only
  rw [← pwrShown, hnode, hnow, hcyc, if_neg h, setLeaving_of_bypass (by rw [← hsw, ← hsup]; rfl), if_neg (by rw [hunread]; decide)]

/-! ## A frozen node (R510) -/

/-- The node's clocks run. -/
def State.unfrozen (s : State) : Prop := s.node.freeze = .running

theorem unfrozen_of_core {s t : State} (h : t.node.core = s.node.core) (hs : s.unfrozen) : t.unfrozen := by
  simp only [core_def, Prod.mk.injEq] at h
  exact h.2.1.trans hs

theorem startClocks_unfrozen (reason : BitVec 8) (kind : BitVec 5) (s : State) : (startClocks reason kind s).unfrozen := by
  rw [State.unfrozen, startClocks_rest]
  split <;> rfl

theorem enterHold_unfrozen {s : State} (h : s.unfrozen) : (enterHold s).unfrozen := by
  have hcore := enterHold_core s
  simp only [core_def, Prod.mk.injEq] at hcore
  obtain ⟨-, hfrz, -⟩ := hcore
  exact hfrz.trans h

theorem afterFreeze_unfrozen {s : State} (h : s.unfrozen) : (afterFreeze s).unfrozen := by
  have hc := unfrozen_of_core (continueCaldera_core s) h
  unfold afterFreeze
  dsimp only
  split
  · split
    · exact hc
    · exact enterHold_unfrozen hc
  · split
    · exact (Safety.coldReset_fields _ _).2.1
    · split
      · rw [State.unfrozen, plugLost_node]
        exact hc
      · exact hc

theorem pwrfail_unfrozen (v : BitVec 16) {s : State} (h : s.unfrozen) : (pwrfail v s).unfrozen := by
  have hfrz := congrArg (fun c => c.2.1) (pwrfail_core v s)
  refine Eq.trans hfrz ?_
  split <;> exact h

/-! ## Step 8 (R72) -/

/-- The free supply values of a cycle touch nothing that the sequence stands on. -/
theorem tickOutside_node (s : State) : (tickOutside s).node.pwr = s.node.pwr ∧ (tickOutside s).node.freeze = s.node.freeze ∧
    (tickOutside s).node.heldInReset = s.node.heldInReset ∧ (tickOutside s).node.pwrCycle = s.node.pwrCycle := by
  unfold tickOutside
  dsimp only
  split <;> simp [State.modNode]

theorem tickTime_cycles (s : State) : (tickTime s).cycles = s.cycles + 1 := by
  unfold tickTime
  dsimp only
  split <;> rfl

end Sys2Proof.Machine

namespace Sys2Proof.Safety
open Sys2Proof.Machine

theorem pwrfail_completes {v : BitVec 16} {s : State} (hpwr : s.node.pwr = .none) (hheld : s.node.heldInReset = false)
    (hv : v.toNat < 1500) (hrun : s.node.freeze = .running) (hread : s.plugRead = false) (hsw : s.sup.switchIn = false) :
    completes (.pwrfail v) s [.regs, .node, .col, .ic] fun t =>
      t.get F.BAR_SUPPLY_VBULK = v.toNat ∧ t.get F.BAR_SUPPLY_PWRFAIL = 1 ∧
      t.ic = { s.ic with arrived := s.ic.arrived ||| BitVec.twoPow 128 124 } ∧
      t.col = (s.raise { src := 0x1A, kind := kPOWER, cls := corrected, reason := 0x01, detail := BitVec.ofNat 24 v.toNat }).col ∧
      (s.node.phase ≠ .hold → t.node.pwr = .running ∧ t.node.pwrAt = s.now ∧ t.node.pwrCycle = s.cycles) ∧
      (s.node.phase = .hold → t.node = s.node) := by
  have hexec : exec (.pwrfail v) s = .next (pwrfail v s) := by
    refine (actWhen_of_true (by rw [hpwr, hheld]; exact decide_eq_true hv) : execPwrfail v s = _).trans ?_
    rw [if_neg (by rw [hrun]; decide)]
  obtain ⟨hvbulk, hflag, hic, hcol⟩ := pwrShown_fields v s
  by_cases hhold : s.node.phase = .hold
  · rw [pwrfail_of_hold hhold] at hexec
    exact ⟨_, hexec, only_of_hide (k := 209) rfl (by simp [pwrShown]), hvbulk, hflag, hic, hcol, fun h => absurd hhold h,
      fun _ => (pwrShown_rest v s).1⟩
  · rw [pwrfail_of_unread hhold hread hsw] at hexec
    exact ⟨_, hexec, only_of_hide (k := 209) rfl (by simp [pwrShown]), hvbulk, hflag, hic, hcol, fun _ => ⟨rfl, rfl, rfl⟩,
      fun h => absurd h hhold⟩

/-- PWRFAIL lets a frozen node run (R510). -/
theorem pwrfail_unfreezes {v : BitVec 16} {s : State} (hpwr : s.node.pwr = .none) (hheld : s.node.heldInReset = false)
    (hv : v.toNat < 1500) (hf : s.node.freeze = .frozen) : ∃ t, exec (.pwrfail v) s = .next t ∧ t.node.freeze = .running := by
  have hexec : exec (.pwrfail v) s = .next (pwrfail v (resumeNode 0x02 kPOWER s)) := by
    refine (actWhen_of_true (by rw [hpwr, hheld]; exact decide_eq_true hv) : execPwrfail v s = _).trans ?_
    rw [if_pos hf]
  exact ⟨_, hexec, pwrfail_unfrozen v (afterFreeze_unfrozen (startClocks_unfrozen _ _ s))⟩

theorem pwrfailHalt_runs {s : State} (hc : s.clocked = true) (hpwr : s.node.pwr = .running)
    (hdue : s.node.pwrCycle + msCycles 20 ≤ s.cycles) : exec .pwrfailHalt s = .next (pwrRecord (pwrHalted s)) :=
  (actWhen_of_true (by rw [hc, hpwr, State.pwrPast, decide_eq_true hdue]; rfl) : execPwrfailHalt s = _)

theorem pwrfailHalt_unrecorded {s : State} (hc : s.clocked = true) (hpwr : s.node.pwr = .running)
    (hdue : s.node.pwrCycle + msCycles 20 ≤ s.cycles)
    (h : s.plugRead = false ∨ s.plugReachable = false ∨ s.node.pwrLogged = true) :
    completes .pwrfailHalt s [.node, .emb] fun t => t.node = { s.node with pwr := .halted } ∧
      ∀ e : Fin 4, t.emb[e].halted = true ∧ t.emb[e].w = s.emb[e].w ∧ t.emb[e].sbuf = s.emb[e].sbuf := by
  have hrun := pwrfailHalt_runs hc hpwr hdue
  rw [pwrRecord_of_not_due (s := pwrHalted s) h] at hrun
  exact ⟨_, hrun, only_of_hide (k := 528) rfl (by simp [pwrHalted]), rfl, haltEmbers_ember (s.modNode fun x => { x with pwr := .halted })⟩

theorem pwrfailHalt_recorded {s : State} (hc : s.clocked = true) (hpwr : s.node.pwr = .running)
    (hdue : s.node.pwrCycle + msCycles 20 ≤ s.cycles) (hread : s.plugRead = true) (hreach : s.plugReachable = true)
    (hlog : s.node.pwrLogged = false) : completes .pwrfailHalt s [.node, .emb, .plug] fun t =>
      t.node = { s.node with pwr := .halted, pwrLogged := true } ∧
      tabGet 0 t.plug.mem (0xFE000 + 64 * s.plugLogNext.1) = 0x01 ∧
      tabGet 0 t.plug.mem (0xFE001 + 64 * s.plugLogNext.1) = 0x01 ∧ ∀ e : Fin 4, t.emb[e].halted = true := by
  have hrun := pwrfailHalt_runs hc hpwr hdue
  rw [pwrRecord_of_due (s := pwrHalted s) hread hreach hlog] at hrun
  obtain ⟨htype, hcause⟩ := plugLog_record (s := pwrHalted s) hreach 0x01 0x01 (pwrHalted s).node.pwrAt
    (BitVec.ofNat 32 ((pwrHalted s).get F.BAR_SUPPLY_VBULK + 65536 * (pwrHalted s).node.pwrRecords)) 0
  refine ⟨_, hrun, only_of_hide rfl (execPwrfailHalt_hide s _ hrun), ?_, htype, hcause, fun e => ?_⟩
  · rw [State.modNode_node, shutdownRecord_node]
    rfl
  · have hemb : (shutdownRecord 0x01 (pwrHalted s).node.pwrAt (pwrHalted s).node.pwrRecords (pwrHalted s)).emb = (pwrHalted s).emb :=
      emb_same_of_hide (m := 8388608) rfl (shutdownRecord_hide _ _ _ _ _ rfl)
    have hhalt := (haltEmbers_ember (s.modNode fun x => { x with pwr := .halted }) e).1
    rw [← pwrHalted, ← hemb] at hhalt
    exact hhalt

/-- What a cycle does to the node before step 8 is looked at: nothing that the sequence stands on; and one more cycle is counted. -/
theorem tick_of_stopped {s : State} (hc : s.clocked = true) (hpwr : s.node.pwr = .stopped)
    (hdue : s.node.pwrCycle + msCycles 30 ≤ s.cycles) : ∃ u : State, tick s =
      u.modNode fun x => { x with pwr := .complete, heldInReset := true, lvOn := false } := by
  obtain ⟨hrun, hheld⟩ := (clocked_iff s).1 hc
  obtain ⟨gpwr, gfrz, gheld, gcyc⟩ := tickOutside_node (tickMfe (tickRtc s))
  rw [node_same_of_hide rfl (tickMfe_hide _ 262144 rfl), node_same_of_hide rfl (tickRtc_hide s 524288 rfl)] at gpwr gfrz gheld gcyc
  have hcycles : (tickOutside (tickMfe (tickRtc s))).cycles = s.cycles :=
    cycles_same_of_hide (m := 67898961) rfl (by simp)
  unfold tick
  dsimp only
  rw [if_neg (by rw [gfrz, hrun]; decide), if_neg (by rw [gheld, hheld]; decide)]
  generalize tickOutside (tickMfe (tickRtc s)) = w at gpwr gcyc hcycles ⊢
  have hnode : (tickMarch (tickGeyser (tickPending (tickTime (w.each (List.finRange 4) tickEmber))))).node = w.node :=
    node_same_of_hide (m := 3655) rfl (by simp)
  have hnext : (tickMarch (tickGeyser (tickPending (tickTime (w.each (List.finRange 4) tickEmber))))).cycles = s.cycles + 1 := by
    rw [← hcycles]
    refine (cycles_same_of_hide (s := tickTime (w.each (List.finRange 4) tickEmber)) (m := 3137) rfl (by simp)).trans ?_
    rw [tickTime_cycles, cycles_same_of_hide (s := w) (m := 513) rfl (by simp)]
  refine ⟨_, if_pos ⟨by rw [hnode, gpwr, hpwr], ?_⟩⟩
  rw [State.pwrPast, hnode, gcyc, hnext]
  exact decide_eq_true (by omega)

/-- Settles O36: each step of Table 02-4 acts in its turn and at its time, and the next idle cycle completes the sequence. -/
theorem pwrfailSequence : Obligations.PwrfailSequence := by
  refine ⟨fun v s hpwr hheld hv => ⟨pwrfail_completes hpwr hheld hv, pwrfail_unfreezes hpwr hheld hv⟩, fun v s h => ?_,
    fun s hc hpwr => ⟨fun hearly => ?_, pwrfailHalt_unrecorded hc hpwr, pwrfailHalt_recorded hc hpwr⟩,
    fun s hc hpwr => ⟨fun hearly => ?_, fun hdue => ?_⟩, fun s hidle hc hpwr hdue => ?_, fun s => ⟨fun h => ?_, fun h => ?_⟩⟩
  · refine (actWhen_of_false ?_ : execPwrfail v s = _)
    rcases h with h | h
    · rw [decide_eq_false (Nat.not_lt.2 h), Bool.and_false]
    · rw [beq_eq_false_iff_ne.2 h, Bool.false_and, Bool.false_and]
  · exact (actWhen_of_false (by rw [State.pwrPast, decide_eq_false (Nat.not_le.2 hearly), Bool.and_false]) : execPwrfailHalt s = _)
  · exact (actWhen_of_false (by rw [State.pwrPast, decide_eq_false (Nat.not_le.2 hearly), Bool.and_false]) :
      execPwrfailHeartbeatStop s = _)
  · exact (actWhen_of_true (by rw [hc, hpwr, State.pwrPast, decide_eq_true hdue]; rfl) : execPwrfailHeartbeatStop s = _)
  · obtain ⟨u, htick⟩ := tick_of_stopped hc hpwr hdue
    exact ⟨tick s, by rw [step, hidle], by rw [htick]; exact ⟨rfl, rfl, rfl⟩⟩
  · exact (actWhen_of_false (by rw [beq_eq_false_iff_ne.2 h, Bool.and_false, Bool.false_and]) : execPwrfailHalt s = _)
  · exact (actWhen_of_false (by rw [beq_eq_false_iff_ne.2 h, Bool.and_false, Bool.false_and]) : execPwrfailHeartbeatStop s = _)

end Sys2Proof.Safety
end

section
/-! The node right after a power-on reset (R101, R104, Table 03-1). -/

namespace Sys2Proof.Safety
open Sys2Proof.Machine

/-- Nothing runs, fails or is held as the node leaves a power-on reset, so none of its standing conditions is called on. -/
theorem reset_nodeOk : nodeOk State.reset.node := by
  refine ⟨?_, ?_, ?_, ?_, ?_, ?_⟩ <;> exact fun h => absurd h (by decide)

/-- What each of the node's repeated parts is at reset. -/
theorem reset_parts : (∀ c : Fin 64, State.reset.chan[c] = Chan.reset) ∧ (∀ w : Fin 8, State.reset.whl[w] = Wheel.reset) ∧
    (∀ g : Fin 8, State.reset.gsr[g] = GChan.reset) ∧ (∀ g : Fin 3, State.reset.grp[g] = Group.reset) ∧
    (∀ e : Fin 4, State.reset.emb[e] = Ember.reset) ∧ ∀ i : Fin 64, State.reset.hrt.slots[i] = Slot.reset := by
  refine ⟨?_, ?_, ?_, ?_, ?_, ?_⟩ <;> exact fun i => Vector.getElem_replicate i.isLt

/-- No slot is ready at reset, so HRT.READY reads 0 (R288). -/
theorem reset_readyMask : State.reset.readyMask = 0 := by
  have hnone : ∀ i : Fin 64, (State.reset.hrt.slots[i].st == .ready ||
      (State.reset.hrt.slots[i].st == .running && State.reset.hrt.slots[i].rerun)) = false := fun i => by
    rw [reset_parts.2.2.2.2.2]
    rfl
  simp only [State.readyMask, State.slotMask, hnone, Bool.false_eq_true, if_false, List.foldl_fixed]
  rfl

/-- Registers at reset: four the spec gives a value other than 0, and two that read 0 (R6). -/
theorem reset_registers : State.reset.get F.SPM_PSTAT_ON = 0x1FFFF ∧ State.reset.get (F.SPM_REPAIR_FIRST 0) = 0xFFFF ∧
    State.reset.get F.GSR_GSTATUS_ERR_CH = 0xF ∧ State.reset.get (F.LINE_CTL_EN 0) = 1 ∧
    State.reset.get F.BAR_STATUS_LINK_UP = 0 ∧ State.reset.get F.FLT_INJ_ARM = 0 := by
  refine ⟨?_, ?_, ?_, ?_, ?_, ?_⟩ <;> decide +kernel

/-- Settles O34: part by part the reset state is the parts' own reset values, and its registers the list of those whose value
is not 0. -/
theorem resetState : Obligations.ResetState := by
  obtain ⟨hchan, hwhl, hgsr, hgrp, hemb, -⟩ := reset_parts
  obtain ⟨hon, hrep, herr, hen, hlink, harm⟩ := reset_registers
  refine ⟨rfl, rfl, rfl, rfl, reset_nodeOk, reset_memoriesOk, rfl, rfl, rfl, rfl, rfl, rfl, fun c => ?_, fun w => ?_,
    fun g => ?_, fun g => ?_, fun e => ?_, rfl, rfl, rfl, rfl, reset_readyMask, hon, hrep, herr, hen, hlink, harm⟩
  · rw [hchan]; exact ⟨rfl, rfl⟩
  · rw [hwhl]; rfl
  · rw [hgsr]; rfl
  · rw [hgrp]; rfl
  · rw [hemb]; exact ⟨rfl, rfl, rfl, rfl⟩
end Sys2Proof.Safety
end

section
/-! Kindling K0 and K1 (R104 to R108, R197): system time from the RTC, and the straps and coding resistors as sampled. -/

namespace Sys2Proof.Machine

/-! ## What a fault of Kindling and the end of a phase leave alone -/

theorem kinFatal_hide_col (kind : BitVec 5) (reason : BitVec 8) (detail : BitVec 24) (s : State) :
    (kinFatal kind reason detail s).hide 80 = s.hide 80 :=
  (hide_node _ _ _ rfl).trans (hide_mono rfl (Safety.raise_hide_col (by decide : fatal ≠ corrected) s))

theorem endPhase_reg_ne (f : Field) (p : Phase) (s : State) {a : Nat} (h : a ≠ f.addr) : (endPhase f p s).reg a = s.reg a :=
  State.reg_put_ne f _ s h

theorem endPhase_get_ne {f g : Field} (p : Phase) (s : State) (h : g.addr ≠ f.addr) : (endPhase f p s).get g = s.get g :=
  State.get_of_reg (endPhase_reg_ne f p s h)

/-- A bit written into a field of one bit is read back. -/
theorem State.bit_putBit_same {f : Field} (hf : f.Fits) (hw : f.width = 1) (b : Bool) (s : State) : (s.putBit f b).bit f = b := by
  refine Safety.bit_of_get ((State.get_put_same f _ s hf).trans ?_)
  rw [hw]
  exact Nat.mod_eq_of_lt (Bool.toNat_lt b)

/-- A number that fits its field is read back as it was written. -/
theorem State.get_put_lt {f : Field} (hf : f.Fits) {v : Nat} (hv : v < 2 ^ f.width) (s : State) : (s.put f v).get f = v :=
  (State.get_put_same f v s hf).trans (Nat.mod_eq_of_lt hv)

/-! ## K0 -/

theorem rtcLoad_now (s : State) : (rtcLoad s).now.toNat =
    if s.tim.rtcLost = true then 0 else s.tim.rtc.toNat / 16384 * 16384 := by
  have hlt := s.tim.rtc.isLt
  have hnow : (rtcLoad s).now =
      BitVec.ofNat 64 (if s.tim.rtcLost = true then 0 else s.tim.rtc.toNat / 16384 * 16384) := by
    unfold rtcLoad
    extract_lets t n s₁ s₂ s₃
    have hs₂ : s₂.now = BitVec.ofNat 64 t := (State.put_rest _ _ _).1.trans (State.put_rest _ _ _).1
    unfold State.when
    split
    · exact (State.raise_rest _ _).1.trans hs₂
    · exact hs₂
  rw [hnow, BitVec.toNat_ofNat]
  refine Nat.mod_eq_of_lt ?_
  split <;> omega

theorem rtcLoad_rtcLost (s : State) : (rtcLoad s).bit F.TIME_STATUS_RTC_LOST = s.tim.rtcLost := by
  unfold rtcLoad
  extract_lets t n s₁ s₂ s₃
  have hs₂ : s₂.bit F.TIME_STATUS_RTC_LOST = s.tim.rtcLost :=
    (State.bit_of_get (State.get_put_apart _ _ _ _ (by decide) (by decide))).trans
      (State.bit_putBit_same (by decide) (by decide) _ s₁)
  have hs₃ : s₃.bit F.TIME_STATUS_RTC_LOST = s.tim.rtcLost := (State.bit_of_get (State.modT_get _ s₂ _)).trans hs₂
  clear_value s₃
  unfold State.when
  split
  · exact (State.bit_of_get (State.get_of_reg (State.reg_raise_ne _ _ (by decide)))).trans hs₃
  · exact hs₃

/-- K0 begun: VIO on, and PVDD unless PLUG_HOLD_N is low (R104). -/
def k0Powered (s : State) : State := s.modNode fun x => { x with vio := true, pvdd := !x.holdLow }

/-- K0 with no freeze asked for is the load of the RTC and the end of its phase. -/
theorem k0_of_no_freeze {s : State} (h : s.node.frzLow = false) : ∃ c, k0 s =
    (endPhase F.KIN_TIME0_END_K0 .k1 (resetBins c (rtcLoad (k0Powered s)))).modNode fun x => { x with frzLow := false } := by
  have hfrz : ∀ c, (endPhase F.KIN_TIME0_END_K0 .k1 (resetBins c (rtcLoad (k0Powered s)))).node.frzLow = false := fun c => by
    rw [endPhase_node, resetBins_node, Safety.rtcLoad_node]
    exact h
  exact ⟨_, if_neg fun hf => absurd ((hfrz _).symm.trans hf.1) (by decide)⟩

/-! ## K1 -/

theorem bandOf_lt {rows : List (Nat × Nat)} {code b : Nat} (h : bandOf rows code = some b) : b < rows.length :=
  (List.findIdx?_eq_some_iff_findIdx_eq.1 h).1

theorem setBand_lt {rows : List (Nat × Nat)} {codes : List Nat} {b : Nat} (h : setBand rows codes = some b) :
    b < rows.length := by
  unfold setBand at h
  split at h
  · cases h
  · next hb =>
    obtain ⟨code, -, hcode⟩ := Option.bind_eq_some_iff.1 hb
    split at h <;> cases h
    exact bandOf_lt hcode

/-- The bands of an accepted set are rows of Tables 01-10 and 01-11. -/
theorem setBands_lt {l : List Sample} {c h k : Nat} (hs : setBands l = some (c, h, k)) : c < 8 ∧ h < 8 ∧ k < 16 := by
  unfold setBands at hs
  split at hs
  · next hc hh hk =>
    cases hs
    exact ⟨setBand_lt hc, setBand_lt hh, setBand_lt hk⟩
  · cases hs

theorem takeSamples_fields (last : Sample) {c h k : Nat} (hc : c < 8) (hh : h < 8) (hk : k < 16) (s : State) :
    let t := takeSamples last (c, h, k) s
    t.get F.IDENT_CODES_CLASS = c ∧ t.get F.IDENT_CODES_KEY_HI = h ∧ t.get F.IDENT_CODES_KEY_LO = k ∧
      t.get F.IDENT_CODES_ADDRESS = 16 * h + k := by
  unfold takeSamples
  extract_lets s₁ s₂ t
  have hcodes : ∀ f : Field, f.addr = 0x400F0008 → t.get f = s₂.get f := fun f hf => by
    simp only [t]
    rw [State.get_put_addr _ _ _ _ (by rw [hf]; decide), State.get_put_addr _ _ _ _ (by rw [hf]; decide),
      State.get_put_addr _ _ _ _ (by rw [hf]; decide)]
  refine ⟨(hcodes _ rfl).trans ?_, (hcodes _ rfl).trans ?_, (hcodes _ rfl).trans ?_, (hcodes _ rfl).trans ?_⟩
  · rw [State.get_put_apart _ _ _ _ (by decide) (by decide), State.get_put_apart _ _ _ _ (by decide) (by decide),
      State.get_put_apart _ _ _ _ (by decide) (by decide)]
    exact State.get_put_lt (by decide) hc _
  · rw [State.get_put_apart _ _ _ _ (by decide) (by decide), State.get_put_apart _ _ _ _ (by decide) (by decide)]
    exact State.get_put_lt (by decide) hh _
  · rw [State.get_put_apart _ _ _ _ (by decide) (by decide)]
    exact State.get_put_lt (by decide) hk _
  · refine (State.get_put_lt (by decide) ?_ _).trans ?_
    · show h * 16 + k < 2 ^ 7
      omega
    · show h * 16 + k = 16 * h + k
      omega

/-- The first set is accepted: the others are not looked at. -/
theorem sampleSets_accepted {ok : State → State} {l : List Sample} {rest : List (List Sample)} {b : Nat × Nat × Nat}
    {last : Sample} {s : State} (h : setBands l = some b) (hlast : l.getLast? = some last) :
    sampleSets ok (l :: rest) s = ok (takeSamples last b s) := by
  rw [sampleSets, h, hlast]

/-- No set is accepted: the last one's failure is Kindling's. -/
theorem sampleSets_refused {ok : State → State} {l : List Sample} {s : State} : ∀ {rest : List (List Sample)},
    (∀ x ∈ rest ++ [l], setBands x = none) → sampleSets ok (rest ++ [l]) s = samplesFailed l s
  | [], h => by simp [sampleSets, h l (by simp)]
  | x :: rest, h => by
    have hne : (rest ++ [l]).isEmpty = false := by cases rest <;> rfl
    rw [List.cons_append, sampleSets, h x (by simp), hne]
    exact sampleSets_refused fun y hy => h y (List.mem_cons_of_mem _ hy)

/-- The fourth set has failed, stage by stage: the straps, CLASS, KEY_HI and KEY_LO. -/
def sampleStages (l : List Sample) : List (Bool × BitVec 8 × BitVec 24) :=
  let one (ok : Bool) (f : Sample → BitVec 12) (reason : BitVec 8) :=
    (ok, reason, BitVec.ofNat 24 ((codesOf f l).getLast?.getD 0))
  [(decide (disagree l = 0), 0x01, BitVec.ofNat 24 (disagree l)),
   one (setBand bands8 (codesOf Sample.cls l)).isSome Sample.cls 0x02,
   one (setBand bands8 (codesOf Sample.keyHi l)).isSome Sample.keyHi 0x03,
   one (setBand bands16 (codesOf Sample.keyLo l)).isSome Sample.keyLo 0x04]

/-- A stage that fails is a FATAL fault. -/
def failStage (s : State) (x : Bool × BitVec 8 × BitVec 24) : State :=
  if x.1 then s else kinFatal kPROTOCOL x.2.1 x.2.2 s

theorem samplesFailed_eq (l : List Sample) (s : State) : samplesFailed l s = (sampleStages l).foldl failStage s := by
  have hstraps : failStage s (decide (disagree l = 0), 0x01, BitVec.ofNat 24 (disagree l)) =
      if disagree l = 0 then s else kinFatal kPROTOCOL 0x01 (BitVec.ofNat 24 (disagree l)) s := by
    simp only [failStage, decide_eq_true_eq]
  simp only [sampleStages, List.foldl_cons, List.foldl_nil]
  rw [hstraps]
  rfl

theorem failStage_hide_col (s : State) (x : Bool × BitVec 8 × BitVec 24) : (failStage s x).hide 80 = s.hide 80 := by
  unfold failStage
  split
  · rfl
  · exact kinFatal_hide_col _ _ _ _

theorem failStage_node (s : State) (x : Bool × BitVec 8 × BitVec 24) :
    (failStage s x).node = { s.node with kinHalted := s.node.kinHalted || !x.1 } := by
  unfold failStage
  split
  · next h => simp [h]
  · next h => simp [h]

theorem failStages_hide_col (l : List (Bool × BitVec 8 × BitVec 24)) (s : State) : (l.foldl failStage s).hide 80 = s.hide 80 := by
  induction l generalizing s with
  | nil => rfl
  | cons x l ih => exact (ih _).trans (failStage_hide_col s x)

theorem failStages_node (l : List (Bool × BitVec 8 × BitVec 24)) (s : State) :
    (l.foldl failStage s).node = { s.node with kinHalted := s.node.kinHalted || l.any fun x => !x.1 } := by
  induction l generalizing s with
  | nil => simp
  | cons x l ih => rw [List.foldl_cons, ih, failStage_node, List.any_cons, Bool.or_assoc]

/-- A set is refused for its straps or for one of its resistors (R41, R48). -/
theorem sampleStages_fail {l : List Sample} (h : setBands l = none) : (sampleStages l).any (fun x => !x.1) = true := by
  by_contra hn
  simp only [sampleStages, List.any_cons, List.any_nil, Bool.or_false, Bool.not_eq_true, Bool.or_eq_false_iff,
    Bool.not_eq_false', decide_eq_true_eq, Option.isSome_iff_exists] at hn
  obtain ⟨hd, ⟨c, hc⟩, ⟨hi, hh⟩, k, hk⟩ := hn
  simp [setBands, hd, hc, hh, hk] at h

theorem samplesFailed_hide_col (l : List Sample) (s : State) : (samplesFailed l s).hide 80 = s.hide 80 := by
  rw [samplesFailed_eq]
  exact failStages_hide_col _ s

/-- A refused set halts Kindling. -/
theorem samplesFailed_node {l : List Sample} (h : setBands l = none) (s : State) :
    (samplesFailed l s).node = { s.node with kinHalted := true } := by
  rw [samplesFailed_eq, failStages_node, sampleStages_fail h, Bool.or_true]

end Sys2Proof.Machine
end

section
/-! O38, the clauses of K0, K1 and PLUG_ABSENT. -/

namespace Sys2Proof.Safety
open Sys2Proof.Machine

/-! ## K0 -/

/-- What K0 leaves in the node where no freeze is asked for. -/
theorem k0_node_of_no_freeze {s : State} (h : s.node.frzLow = false) : ∃ a, (k0 s).node =
    { s.node with vio := true, pvdd := !s.node.holdLow, rtcFailed := false, phase := .k1, phaseAt := a, frzLow := false } := by
  obtain ⟨c, hk⟩ := k0_of_no_freeze h
  refine ⟨(resetBins c (rtcLoad (k0Powered s))).cycles, ?_⟩
  rw [hk, State.modNode_node, endPhase_node, resetBins_node, rtcLoad_node]
  rfl

theorem k0_now_of_no_freeze {s : State} (h : s.node.frzLow = false) :
    (k0 s).now.toNat = if s.tim.rtcLost = true then 0 else s.tim.rtc.toNat / 16384 * 16384 := by
  obtain ⟨c, hk⟩ := k0_of_no_freeze h
  rw [hk]
  exact rtcLoad_now (k0Powered s)

theorem k0_rtcLost_of_no_freeze {s : State} (h : s.node.frzLow = false) :
    (k0 s).bit F.TIME_STATUS_RTC_LOST = s.tim.rtcLost := by
  obtain ⟨c, hk⟩ := k0_of_no_freeze h
  rw [hk]
  refine (State.bit_of_get ?_).trans (rtcLoad_rtcLost (k0Powered s))
  rw [State.modNode_get, endPhase_get_ne _ _ (by decide), resetBins, State.modRing_get]

theorem completes_k0 {s : State} (hk : s.kindles .k0 = true) (hf : s.node.frzLow = false) :
    completes .k0 s [.regs, .now, .node, .col, .tim, .ring] fun t => t.node.phase = .k1 ∧ t.node.vio = true ∧
      t.node.pvdd = !s.node.holdLow ∧ t.node.freeze = .running ∧ t.node.kinHalted = false ∧
      t.now.toNat = (if s.tim.rtcLost = true then 0 else s.tim.rtc.toNat / 16384 * 16384) ∧
      t.bit F.TIME_STATUS_RTC_LOST = s.tim.rtcLost := by
  obtain ⟨⟨hfreeze, -⟩, -, hhalt, -⟩ := (kindles_iff _ _).1 hk
  obtain ⟨a, hnode⟩ := k0_node_of_no_freeze hf
  refine ⟨k0 s, actWhen_of_true hk, only_of_hide rfl (k0_hide s 4718675 rfl), ?_, ?_, ?_, ?_, ?_, k0_now_of_no_freeze hf,
    k0_rtcLost_of_no_freeze hf⟩
  all_goals rw [hnode]
  exacts [hfreeze, hhalt]

/-! ## K1 -/

/-- The four sets, first to last. -/
theorem sets_toList (sets : Vector (Vector Sample 8) 4) :
    sets.toList.map Vector.toList = [sets[0].toList, sets[1].toList, sets[2].toList] ++ [sets[3].toList] := by
  rw [show sets.toList = [sets[0], sets[1], sets[2], sets[3]] from by
    apply List.ext_getElem
    · simp
    · intro i h₁ h₂
      match i, h₂ with
      | 0, _ | 1, _ | 2, _ | 3, _ => simp]
  rfl

theorem exec_k1 {s : State} (hk : s.kindles .k1 = true) (hp : s.node.plugPresent = true) (sets : Vector (Vector Sample 8) 4) :
    exec (.k1 sets) s = .next (sampleSets (endPhase F.KIN_TIME0_END_K1 .k2) (sets.toList.map Vector.toList) s) :=
  actWhen_of_true (by rw [hk, hp]; rfl)

theorem completes_k1_accepted {sets : Vector (Vector Sample 8) 4} {s : State} (hk : s.kindles .k1 = true)
    (hp : s.node.plugPresent = true) {c h k : Nat} (hs : setBands sets[0].toList = some (c, h, k)) :
    completes (.k1 sets) s [.regs, .node] fun t => t.node.phase = .k2 ∧ t.get F.IDENT_CODES_CLASS = c ∧
      t.get F.IDENT_CODES_KEY_HI = h ∧ t.get F.IDENT_CODES_KEY_LO = k ∧ t.get F.IDENT_CODES_ADDRESS = 16 * h + k := by
  have hlast : sets[0].toList.getLast? = some (sets[0].toList.getLast (by simp [← List.length_eq_zero_iff])) :=
    List.getLast?_eq_some_getLast _
  refine ⟨_, exec_k1 hk hp sets, ?_⟩
  rw [sets_toList, List.cons_append, sampleSets_accepted hs hlast]
  obtain ⟨hc, hh, hk⟩ := setBands_lt hs
  obtain ⟨gc, gh, gk, ga⟩ := takeSamples_fields (sets[0].toList.getLast _) hc hh hk s
  refine ⟨only_of_hide (k := 17) rfl ((endPhase_hide _ _ _ _ rfl).trans (takeSamples_hide _ _ s _ rfl)), ?_, ?_, ?_, ?_, ?_⟩
  · rw [endPhase_node]
  all_goals rw [endPhase_get_ne _ _ (by decide)]
  exacts [gc, gh, gk, ga]

theorem completes_k1_refused {sets : Vector (Vector Sample 8) 4} {s : State} (hk : s.kindles .k1 = true)
    (hp : s.node.plugPresent = true) (hs : ∀ i : Fin 4, setBands sets[i].toList = none) :
    completes (.k1 sets) s [.regs, .node, .col] fun t => t.node.phase = .k1 ∧ t.node.kinHalted = true := by
  obtain ⟨-, hphase, -⟩ := (kindles_iff _ _).1 hk
  have hrun := sampleSets_refused (ok := endPhase F.KIN_TIME0_END_K1 .k2) (s := s) (l := sets[3].toList)
    (rest := [sets[0].toList, sets[1].toList, sets[2].toList]) (by simpa using ⟨hs 0, hs 1, hs 2, hs 3⟩)
  refine ⟨_, exec_k1 hk hp sets, ?_⟩
  rw [sets_toList, hrun]
  refine ⟨only_of_hide rfl (samplesFailed_hide_col _ s), ?_, ?_⟩
  all_goals rw [samplesFailed_node (l := sets[3].toList) (hs 3)]
  exact hphase

/-! ## PLUG_ABSENT -/

/-- A FATAL Kindling fault changes the node and the fault collector only. -/
theorem only_kinFatal {kind : BitVec 5} {reason : BitVec 8} {detail : BitVec 24} {s : State} :
    only [.node, .col] s (kinFatal kind reason detail s) := only_of_hide rfl (kinFatal_hide_col kind reason detail s)

theorem completes_plugAbsent {s : State} (hk : s.kindles .k1 = true) (hp : s.node.plugPresent = false)
    (ht : s.node.phaseAt + msCycles 100 ≤ s.cycles) :
    completes .plugAbsent s [.node, .col] fun t => t.node = { s.node with kinHalted := true } ∧
      t.col = (s.raise { src := 0x18, kind := kPROTOCOL, cls := fatal, reason := 0x05 }).col :=
  ⟨plugAbsent s, actWhen_of_true (by rw [hk, hp, decide_eq_true ht]; rfl), only_kinFatal, kinFatal_node _ _ _ _, rfl⟩

/-! ## K2 -/

/-- Every bank cleared, in turn. -/
def bankCleared (s : State) : State := s.each (List.range 17) State.clearBank

/-- The rows the march has found, bank by bank. -/
def marchFound (fails : List (Nat × Nat)) (s : State) : List (Nat × Nat) :=
  if s.bit F.IDENT_STRAPS_MARCH then (List.range 17).flatMap fun b => (foundIn b fails).map fun r => (b, r) else []

theorem clearBanks_mem_zero (l : List Nat) {s : State} {a : Nat} (h : tabGet 0 s.spm.mem a = 0) :
    tabGet 0 (s.each l State.clearBank).spm.mem a = 0 := by
  refine State.each_keeps (P := fun t : State => tabGet 0 t.spm.mem a = 0) (fun b _ t ht => ?_) h
  show tabGet 0 (tabClear t.spm.mem (bankLo b) (bankHi b)) a = 0
  rw [tabGet_clear, ht, ite_self]

/-- The banks cover scratchpad: once each is cleared it reads 0 everywhere. -/
theorem bankCleared_mem (s : State) {a : Nat} (ha : a < 0x84000) : tabGet 0 (bankCleared s).spm.mem a = 0 := by
  have hb : a / 0x8000 < 17 := by omega
  unfold bankCleared
  obtain ⟨l₁, l₂, hl⟩ := List.append_of_mem (List.mem_range.2 hb)
  rw [hl, State.each, List.foldl_append, List.foldl_cons]
  refine clearBanks_mem_zero l₂ ?_
  show tabGet 0 (tabClear _ (bankLo (a / 0x8000)) (bankHi (a / 0x8000))) a = 0
  rw [tabGet_clear, if_pos]
  simp only [bankLo, bankHi, spmTop]
  omega

theorem bankCleared_get (s : State) (f : Field) : (bankCleared s).get f = s.get f := by
  refine State.each_keeps (P := fun t : State => t.get f = s.get f) (fun b _ t ht => ?_) rfl
  exact ht

theorem mem_foundIn {b r : Nat} {fails : List (Nat × Nat)} : r ∈ foundIn b fails ↔ (b, r) ∈ fails ∧ r < rowsOf b := by
  simp only [foundIn, List.mem_eraseDups, List.mem_map, List.mem_filter, decide_eq_true_eq, Prod.exists]
  constructor
  · rintro ⟨b', r', ⟨h, rfl, hr⟩, rfl⟩
    exact ⟨h, hr⟩
  · rintro ⟨h, hr⟩
    exact ⟨b, r, ⟨h, rfl, hr⟩, rfl⟩

theorem marchFound_of_off {fails : List (Nat × Nat)} {s : State} (h : s.bit F.IDENT_STRAPS_MARCH = false) :
    marchFound fails s = [] := by rw [marchFound, h]; rfl

theorem mem_marchFound {fails : List (Nat × Nat)} {s : State} (h : s.bit F.IDENT_STRAPS_MARCH = true) {b r : Nat} :
    (b, r) ∈ marchFound fails s ↔ (b, r) ∈ fails ∧ b < 17 ∧ r < rowsOf b := by
  rw [marchFound, if_pos h]
  simp only [List.mem_flatMap, List.mem_range, List.mem_map, Prod.mk.injEq, mem_foundIn]
  constructor
  · rintro ⟨b', hb, r', ⟨hf, hr⟩, rfl, rfl⟩
    exact ⟨hf, hb, hr⟩
  · rintro ⟨hf, hb, hr⟩
    exact ⟨b, hb, r, ⟨hf, hr⟩, rfl, rfl⟩

theorem k2_eq (fails : List (Nat × Nat)) (s : State) : k2 fails s =
    ((bankCleared s).put F.KIN_REPAIR_FOUND (min 0xFF (marchFound fails (bankCleared s)).length)).modNode
      fun x => { x with badRows := marchFound fails (bankCleared s) } := rfl

theorem completes_k2 {fails : List (Nat × Nat)} {s : State} (hk : s.kindles .k2 = true) :
    completes (.k2 fails) s [.regs, .node, .spm] fun t =>
      t.node.phase = .k3 ∧ (∀ a, a < 0x84000 → tabGet 0 t.spm.mem a = 0) ∧
      (s.bit F.IDENT_STRAPS_MARCH = false → t.node.badRows = [] ∧ t.get F.KIN_REPAIR_FOUND = 0) ∧
      (s.bit F.IDENT_STRAPS_MARCH = true → ∀ b r : Nat, (b, r) ∈ t.node.badRows ↔ (b, r) ∈ fails ∧ b < 17 ∧ r < rowsOf b) := by
  have hmarch : (bankCleared s).bit F.IDENT_STRAPS_MARCH = s.bit F.IDENT_STRAPS_MARCH := State.bit_of_get (bankCleared_get s _)
  refine ⟨endPhase F.KIN_TIME1_END_K2 .k3 (k2 fails s), (actWhen_of_true hk : execK2 fails s = _),
    only_of_hide (k := 1041) rfl ((endPhase_hide _ _ _ _ rfl).trans (k2_hide fails s _ rfl)), ?_⟩
  have hbad : (endPhase F.KIN_TIME1_END_K2 .k3 (k2 fails s)).node.badRows = marchFound fails (bankCleared s) := by
    rw [endPhase_node, k2_eq]
    rfl
  dsimp only
  rw [hbad]
  refine ⟨by rw [endPhase_node], fun a ha => bankCleared_mem s ha, fun h => ?_, fun h b r => mem_marchFound (hmarch.trans h)⟩
  have hnone := marchFound_of_off (fails := fails) (hmarch.trans h)
  refine ⟨hnone, ?_⟩
  rw [endPhase_get_ne _ _ (by decide), k2_eq, hnone, State.modNode_get]
  exact State.get_put_lt (by decide) (by decide) _

end Sys2Proof.Safety
end

section
/-! O38: the clauses of K3, and the theorem. -/

namespace Sys2Proof.Machine

theorem leAt_byte (l : List Byte) (i : Nat) : leAt l i 1 = (byteAt l i).toNat := by
  simp [leAt, slice, ofLe, byteAt]

/-! ## The rows of an identity's map -/

/-- The rows a map gathered bank by bank names for one bank. -/
theorem rowsIn_flatMap (g : Nat → List Nat) (k : Nat) {ks : List Nat} (hks : ks.Nodup) :
    rowsIn k (ks.flatMap fun b => (g b).map fun r => (b, r)) = if k ∈ ks then g k else [] := by
  induction ks with
  | nil => rfl
  | cons b ks ih =>
    obtain ⟨hb, hks⟩ := List.nodup_cons.1 hks
    have hhead : rowsIn k ((g b).map fun r => (b, r)) = if b = k then g k else [] := by
      unfold rowsIn
      split
      · next h => subst h; simp [List.filter_map, Function.comp_def]
      · next h => simp [List.filter_map, Function.comp_def, h]
    have happ : ∀ x y, rowsIn k (x ++ y) = rowsIn k x ++ rowsIn k y := fun x y => by simp [rowsIn]
    rw [List.flatMap_cons, happ, hhead, ih hks]
    by_cases h : b = k
    · subst h
      simp [hb]
    · simp [h, Ne.symm h]

/-- An identity maps at most two rows of a bank. -/
theorem rowsIn_takeIdent (b : List Byte) (s : State) (k : Nat) : (rowsIn k (takeIdent b s).node.ident.repair).length ≤ 2 := by
  show (rowsIn k ((List.range 17).flatMap fun k => ((repairEntries b k).filter fun r => r != 0xFFFF).map fun r => (k, r))).length ≤ 2
  rw [rowsIn_flatMap _ _ List.nodup_range]
  split
  · exact List.length_filter_le _ _
  · exact Nat.zero_le _

/-- R112 with no row found failing: each bank's mapped rows put into use, and no more. -/
theorem repairBanks_of_sound {map : List (Nat × Nat)} (hmap : ∀ k, (rowsIn k map).length ≤ 2) (ks : List Nat) {s : State}
    (hs : s.node.badRows = []) : (repairBanks map ks s).2 = s.each ks fun k => putRepair k (rowsIn k map) := by
  induction ks generalizing s with
  | nil => rfl
  | cons k ks ih =>
    have hnew : (rowsIn k s.node.badRows).filter (fun r => !(rowsIn k map).contains r) = [] := by rw [hs]; rfl
    have hbad : (putRepair k (rowsIn k map) s).node.badRows = [] := by rw [putRepair_node]; exact hs
    rw [repairBanks]
    simp only [hnew, List.append_nil, if_neg (Nat.not_lt.2 (hmap k)), List.isEmpty_nil, if_true, State.each_cons]
    exact ih hbad

theorem State.reg_setBitOf_ne (f : Field) (b : Nat) (s : State) {a : Nat} (h : a ≠ f.addr) : (s.setBitOf f b).reg a = s.reg a := by
  unfold State.setBitOf
  split
  · rfl
  · exact State.reg_put_ne _ _ _ h

/-- Rows put into use change the bank's own register and the banks repaired. -/
theorem putRepair_reg_status (k : Nat) (hk : k < 17) (rows : List Nat) (s : State) :
    (putRepair k rows s).reg F.KIN_STATUS_IDENT_COPY.addr = s.reg F.KIN_STATUS_IDENT_COPY.addr := by
  have hput : ∀ (v w : Nat), ((s.put (F.SPM_REPAIR_FIRST k) v).put (F.SPM_REPAIR_SECOND k) w).reg F.KIN_STATUS_IDENT_COPY.addr =
      s.reg F.KIN_STATUS_IDENT_COPY.addr := fun v w => by
    rw [State.reg_put_ne, State.reg_put_ne] <;> simp only [F.KIN_STATUS_IDENT_COPY, F.SPM_REPAIR_FIRST, F.SPM_REPAIR_SECOND] <;> omega
  unfold putRepair
  dsimp only
  split
  · exact hput _ _
  · exact (State.reg_setBitOf_ne _ _ _ (by decide)).trans (hput _ _)

/-! ## The identity taken -/

/-- K3 with identity `b` of copy `force` chosen, before its address is compared (R113). -/
def identTaken (force : Bool) (b : List Byte) (s : State) : State :=
  (takeIdent b (s.putBit F.KIN_STATUS_IDENT_COPY force)).modNode fun x => { x with identChosen := true }

/-- The rows of an identity in force put into use, where none is found failing. -/
def rowsPut (force : Bool) (b : List Byte) (s : State) : State :=
  (identTaken force b s).each (List.range 17) fun k => putRepair k (rowsIn k (identTaken force b s).node.ident.repair)

theorem rowsPut_node (force : Bool) (b : List Byte) (s : State) : (rowsPut force b s).node = (identTaken force b s).node :=
  State.each_keeps (P := fun t : State => t.node = (identTaken force b s).node)
    (fun k _ t ht => (putRepair_node k _ t).trans ht) rfl

theorem rowsPut_hide (force : Bool) (b : List Byte) (s : State) : (rowsPut force b s).hide 17 = s.hide 17 :=
  (State.each_hide _ _ _ _ fun k t => putRepair_hide k _ t _ rfl).trans
    ((hide_node _ _ _ rfl).trans ((hide_node _ _ _ rfl).trans (State.putBit_hide _ _ s _ rfl)))

theorem rowsPut_identCopy (force : Bool) (b : List Byte) (s : State) :
    (rowsPut force b s).bit F.KIN_STATUS_IDENT_COPY = force := by
  refine (State.bit_of_get (State.get_of_reg ?_)).trans (State.bit_putBit_same (by decide) (by decide) force s)
  exact State.each_keeps (P := fun t : State => t.reg F.KIN_STATUS_IDENT_COPY.addr =
    (identTaken force b s).reg F.KIN_STATUS_IDENT_COPY.addr)
    (fun k hk t ht => (putRepair_reg_status k (List.mem_range.1 hk) _ t).trans ht) rfl

/-- The plug answers K3's instructions (R138). -/
def PlugAnswers (s : State) : Prop := s.plug.rdid ≠ 0 ∧ s.plug.rdid ≠ 0xFF ∧ s.plug.rdsr &&& 0x0C = 0

theorem PlugAnswers.not_silent {s : State} (h : PlugAnswers s) :
    ¬(s.plug.rdid = 0 ∨ s.plug.rdid = 0xFF ∨ s.plug.rdsr &&& 0x0C ≠ 0) := by
  obtain ⟨hzero, hones, hbusy⟩ := h
  rintro (h | h | h)
  exacts [hzero h, hones h, h hbusy]

theorem k3_of_no_plug {warm : Bool} {bad : Bool → Bool} {s : State} (h : s.node.plugPresent = false) :
    k3 warm bad s = plugAbsent s := by
  rw [k3, h]
  rfl

theorem k3_of_no_ident {bad : Bool → Bool} {s : State} (hp : s.node.plugPresent = true) (ha : PlugAnswers s)
    (hc : chooseIdent (s.plugBytes 0 0x1000) (s.plugBytes 0x1000 0x1000) = none) : k3 false bad s =
      kinFatal kCRC 0x07 (detail3 (identVerdict (s.plugBytes 0 0x1000)) (identVerdict (s.plugBytes 0x1000 0x1000))) s := by
  rw [k3, hp, if_neg (by decide), if_neg ha.not_silent]
  extract_lets a b
  rw [show chooseIdent a b = none from hc]
  rfl

/-- K3 at a start-up from the identity taken: its address compared, its rows put into use, the copies rewritten (R111). -/
def identUsed (force : Bool) (x : List Byte) (other : Bool) (bad : Bool → Bool) (t : State) : State :=
  if t.node.ident.address.toNat ≠ t.get F.IDENT_CODES_ADDRESS then
    kinFatal kPROTOCOL 0x08 (detail3 t.node.ident.address.toNat (t.get F.IDENT_CODES_ADDRESS)) t
  else
    let r := repairBanks t.node.ident.repair (List.range 17) t
    if r.2.node.kinHalted then r.2
    else rewriteIdents force x (r.1.any fun q => !r.2.node.ident.repair.contains q && r.2.node.badRows.contains q) r.1 other bad r.2

theorem k3_of_ident {bad : Bool → Bool} {s : State} {force ra rb : Bool} (hp : s.node.plugPresent = true) (ha : PlugAnswers s)
    (hc : chooseIdent (s.plugBytes 0 0x1000) (s.plugBytes 0x1000 0x1000) = some (force, ra, rb))
    {x : List Byte} (hx : (if force = true then s.plugBytes 0x1000 0x1000 else s.plugBytes 0 0x1000) = x) :
    k3 false bad s = identUsed force x (ra || rb) bad (identTaken force x s) := by
  rw [k3, hp, if_neg (by decide), if_neg ha.not_silent]
  extract_lets a b
  rw [show chooseIdent a b = some (force, ra, rb) from hc]
  have hx' : (if force = true then b else a) = x := hx
  clear_value a b
  subst hx'
  unfold identUsed
  generalize repairBanks = banks
  rfl

/-- Where no row has failed and neither copy is to be rewritten, the identity's rows are put into use and no more happens. -/
theorem identUsed_of_sound {force : Bool} {x : List Byte} {bad : Bool → Bool} {t : State}
    (haddr : t.node.ident.address.toNat = t.get F.IDENT_CODES_ADDRESS) (hmap : ∀ k, (rowsIn k t.node.ident.repair).length ≤ 2)
    (hrows : t.node.badRows = []) (hhalt : t.node.kinHalted = false) :
    identUsed force x false bad t = t.each (List.range 17) fun k => putRepair k (rowsIn k t.node.ident.repair) := by
  have hrep := repairBanks_of_sound hmap (List.range 17) hrows
  have hnode : (t.each (List.range 17) fun k => putRepair k (rowsIn k t.node.ident.repair)).node = t.node :=
    State.each_keeps (P := fun u : State => u.node = t.node) (fun k _ u hu => (putRepair_node k _ u).trans hu) rfl
  rw [identUsed, if_neg (not_not_intro haddr)]
  extract_lets r
  rw [hrep, hnode, hhalt, if_neg (by decide), hrows]
  have hgrown : (r.1.any fun q => !t.node.ident.repair.contains q && ([] : List (Nat × Nat)).contains q) = false := by simp
  rw [hgrown]
  rfl

end Sys2Proof.Machine
end

section

namespace Sys2Proof.Safety
open Sys2Proof.Machine

/-- K3 ends its phase unless it has halted Kindling. -/
theorem exec_k3 {bad : BitVec 2} {s : State} (hk : s.kindles .k3 = true) : exec (.k3 bad) s =
    .next (if (k3 false (fun c => bad.getLsbD c.toNat) s).node.kinHalted = true then k3 false (fun c => bad.getLsbD c.toNat) s
      else endPhase F.KIN_TIME1_END_K3 .k4 (k3 false (fun c => bad.getLsbD c.toNat) s)) :=
  (actWhen_of_true hk : execK3 bad s = _)

/-- A FATAL fault of K3 ends it. -/
theorem exec_k3_of_fatal {bad : BitVec 2} {s : State} (hk : s.kindles .k3 = true) {kind : BitVec 5} {reason : BitVec 8}
    {detail : BitVec 24} (h : k3 false (fun c => bad.getLsbD c.toNat) s = kinFatal kind reason detail s) :
    exec (.k3 bad) s = .next (kinFatal kind reason detail s) := by
  rw [exec_k3 hk, h, if_pos (by rw [kinFatal_node])]

theorem completes_k3_of_no_plug {bad : BitVec 2} {s : State} (hk : s.kindles .k3 = true) (hp : s.node.plugPresent = false) :
    completes (.k3 bad) s [.node, .col] fun t => t.node = { s.node with kinHalted := true } :=
  ⟨_, exec_k3_of_fatal hk (k3_of_no_plug hp), only_kinFatal, kinFatal_node _ _ _ _⟩

theorem completes_k3_of_no_ident {bad : BitVec 2} {s : State} (hk : s.kindles .k3 = true) (hp : s.node.plugPresent = true)
    (ha : PlugAnswers s) (hc : chooseIdent (s.plugBytes 0 0x1000) (s.plugBytes 0x1000 0x1000) = none) :
    completes (.k3 bad) s [.node, .col] fun t => t.node = { s.node with kinHalted := true } ∧
      t.col = (s.raise { src := 0x18, kind := kCRC, cls := fatal, reason := 0x07,
                         detail := detail3 (identVerdict (s.plugBytes 0 0x1000)) (identVerdict (s.plugBytes 0x1000 0x1000)) }).col :=
  ⟨_, exec_k3_of_fatal hk (k3_of_no_ident hp ha hc), only_kinFatal, kinFatal_node _ _ _ _, rfl⟩

theorem completes_k3_of_ident {bad : BitVec 2} {s : State} {force : Bool} (hk : s.kindles .k3 = true)
    (hp : s.node.plugPresent = true) (ha : PlugAnswers s) (hrows : s.node.badRows = [])
    (hc : chooseIdent (s.plugBytes 0 0x1000) (s.plugBytes 0x1000 0x1000) = some (force, false, false))
    {x : List Byte} (hx : (if force = true then s.plugBytes 0x1000 0x1000 else s.plugBytes 0 0x1000) = x)
    (haddr : leAt x 0xC 1 = s.get F.IDENT_CODES_ADDRESS) : completes (.k3 bad) s [.regs, .node, .col] fun t =>
      t.node.phase = .k4 ∧ t.bit F.KIN_STATUS_IDENT_COPY = force ∧ t.node.identChosen = true ∧
      t.node.ident.address = byteAt x 0xC ∧ t.node.ident.epoch.toNat = leAt x 0xE 2 ∧
      t.node.ident.groups.toNat = leAt x 0x18 8 ∧ t.node.ident.sequence.toNat = leAt x 8 4 := by
  obtain ⟨-, -, hhalt, -⟩ := (kindles_iff _ _).1 hk
  have haddr' : (identTaken force x s).node.ident.address.toNat = (identTaken force x s).get F.IDENT_CODES_ADDRESS :=
    (leAt_byte x 0xC).symm.trans (haddr.trans (State.get_put_addr _ _ _ _ (by decide)).symm)
  have hmap : ∀ k, (rowsIn k (identTaken force x s).node.ident.repair).length ≤ 2 :=
    rowsIn_takeIdent x (s.putBit F.KIN_STATUS_IDENT_COPY force)
  have hk3 : k3 false (fun c => bad.getLsbD c.toNat) s = rowsPut force x s :=
    (k3_of_ident hp ha hc hx).trans (identUsed_of_sound haddr' hmap hrows hhalt)
  have hnode : (endPhase F.KIN_TIME1_END_K3 .k4 (rowsPut force x s)).node =
      { (identTaken force x s).node with phase := .k4, phaseAt := (rowsPut force x s).cycles } := by
    rw [endPhase_node, rowsPut_node]
  refine ⟨endPhase F.KIN_TIME1_END_K3 .k4 (rowsPut force x s), ?_,
    only_of_hide (k := 17) rfl ((endPhase_hide _ _ _ _ rfl).trans (rowsPut_hide force x s)), ?_⟩
  · rw [exec_k3 hk, hk3, if_neg]
    rw [rowsPut_node]
    exact ne_true_of_eq_false hhalt
  · dsimp only
    rw [hnode]
    exact ⟨rfl, (State.bit_of_get (endPhase_get_ne _ _ (by decide))).trans (rowsPut_identCopy force x s), rfl, rfl,
      leAt_mod x _ 2, leAt_mod x _ 8, leAt_mod x _ 4⟩

/-! ## Out of their phases -/

theorem kindles_of_phase {s : State} {p q : Phase} (h : s.node.phase = p) (hpq : p ≠ q) : s.kindles q = false := by
  simp [State.kindles, h, hpq]

/-- No command of Kindling acts once Kindling is over. -/
theorem kindling_in_k8 (sets : Vector (Vector Sample 8) 4) (fails : List (Nat × Nat)) (bad : BitVec 2) {s : State}
    (h : s.node.phase = .k8) : ∀ c ∈ [Instr.k0, .k1 sets, .plugAbsent, .k2 fails, .k3 bad, .k4, .k5 none, .k6, .mfeAbsent, .k7, .k8],
      exec c s = .next s := by
  have hk : ∀ p : Phase, Phase.k8 ≠ p → s.kindles p = false := fun p hp => kindles_of_phase h hp
  have h0 := hk .k0 (by decide)
  have h1 := hk .k1 (by decide)
  have h2 := hk .k2 (by decide)
  have h3 := hk .k3 (by decide)
  have h4 := hk .k4 (by decide)
  have h5 := hk .k5 (by decide)
  have h6 := hk .k6 (by decide)
  have h7 := hk .k7 (by decide)
  simp only [List.forall_mem_cons]
  exact ⟨(actWhen_of_false h0 : execK0 s = _), (actWhen_of_false (by rw [h1]; rfl) : execK1 sets s = _),
    (actWhen_of_false (by rw [h1]; rfl) : execPlugAbsent s = _), (actWhen_of_false h2 : execK2 fails s = _),
    (actWhen_of_false h3 : execK3 bad s = _), (actWhen_of_false h4 : execK4 s = _),
    (actWhen_of_false (by rw [h5]; rfl) : execK5 none s = _), (actWhen_of_false h6 : execK6 s = _),
    (actWhen_of_false (by rw [h6]; rfl) : execMfeAbsent s = _), (actWhen_of_false (by rw [h7]; rfl) : execK7 s = _),
    (actWhen_of_false (by rw [h7]; rfl) : execK8 s = _), List.forall_mem_nil _⟩

/-- Settles O38: each phase K0 to K3 as the change its command makes to the node and to the registers read. -/
theorem kindlingK0toK3 : Obligations.KindlingK0toK3 := by
  unfold Obligations.KindlingK0toK3
  refine ⟨fun s hk hf => completes_k0 hk hf, fun sets s hk hp => ⟨fun c h k hs => completes_k1_accepted hk hp hs,
    fun hs => completes_k1_refused hk hp hs⟩, fun s hk hp ht => completes_plugAbsent hk hp ht, fun fails s hk => completes_k2 hk,
    fun bad s hk => ⟨fun hp => completes_k3_of_no_plug hk hp, fun hp ha hc => completes_k3_of_no_ident hk hp ha hc,
      fun force hp ha hc hrows haddr => completes_k3_of_ident hk hp ha hrows hc rfl haddr⟩,
    fun sets fails bad s h => kindling_in_k8 sets fails bad h⟩

end Sys2Proof.Safety
end

section
/-! Kindling K4 (R114 to R118): the copy chosen, shown and put in force. -/

namespace Sys2Proof.Machine

/-! ## Parts that are not hidden -/

theorem plug_same_of_hide {s t : State} {m : Nat} (hm : m.testBit 23 = false) (h : t.hide m = s.hide m) : t.plug = s.plug := by
  simpa [State.hide, hm] using congrArg State.plug h

theorem sup_same_of_hide {s t : State} {m : Nat} (hm : m.testBit 5 = false) (h : t.hide m = s.hide m) : t.sup = s.sup := by
  simpa [State.hide, hm] using congrArg State.sup h

theorem hrt_same_of_hide {s t : State} {m : Nat} (hm : m.testBit 8 = false) (h : t.hide m = s.hide m) : t.hrt = s.hrt := by
  simpa [State.hide, hm] using congrArg State.hrt h

theorem now_same_of_hide {s t : State} {m : Nat} (hm : m.testBit 1 = false) (h : t.hide m = s.hide m) : t.now = s.now := by
  simpa [State.hide, hm] using congrArg State.now h

theorem mfe_same_of_hide {s t : State} {m : Nat} (hm : m.testBit 18 = false) (h : t.hide m = s.hide m) : t.mfe = s.mfe := by
  simpa [State.hide, hm] using congrArg State.mfe h

theorem pending_same_of_hide {s t : State} {m : Nat} (hm : m.testBit 27 = false) (h : t.hide m = s.hide m) :
    t.pending = s.pending := by
  simpa [State.hide, hm] using congrArg State.pending h

/-! ## What K4 writes -/

theorem copyVerdict_fits (n : Nat) : (F.KIN_COPY_VERDICT n).Fits := by
  simp [Field.Fits, F.KIN_COPY_VERDICT]

theorem Verdict.code_lt (v : Verdict) : v.code < 2 ^ 8 := by cases v <;> decide

theorem showVerdict_get_same (c : Bool) (v : Verdict) (s : State) :
    (showVerdict c v s).get (F.KIN_COPY_VERDICT c.toNat) = v.code := by
  unfold showVerdict
  extract_lets n known t
  have hlo : (F.KIN_COPY_LEVEL_LO n).hi < (F.KIN_COPY_VERDICT n).lo := by simp [F.KIN_COPY_LEVEL_LO, F.KIN_COPY_VERDICT]
  have hhi : (F.KIN_COPY_LEVEL_HI n).hi < (F.KIN_COPY_VERDICT n).lo := by simp [F.KIN_COPY_LEVEL_HI, F.KIN_COPY_VERDICT]
  rw [State.get_put_apart _ _ _ _ (copyVerdict_fits _) (Or.inr hhi), State.get_put_apart _ _ _ _ (copyVerdict_fits _) (Or.inr hlo)]
  exact State.get_put_lt (copyVerdict_fits _) v.code_lt s

theorem showVerdict_get_ne (c : Bool) (v : Verdict) (s : State) {f : Field} (h : f.addr ≠ (F.KIN_COPY_VERDICT c.toNat).addr) :
    (showVerdict c v s).get f = s.get f := by
  unfold showVerdict
  extract_lets n known t
  rw [State.get_put_addr (F.KIN_COPY_LEVEL_HI n) _ _ _ h, State.get_put_addr (F.KIN_COPY_LEVEL_LO n) _ _ _ h,
    State.get_put_addr (F.KIN_COPY_VERDICT n) _ _ _ h]

/-- Both verdicts shown, the chosen copy's as SELECTED. -/
def verdictsShown (chosen : Option Bool) (s : State) : State :=
  let v (c : Bool) : Verdict := if chosen = some c then .selected else s.startVerdict c
  showVerdict true (v true) (showVerdict false (v false) s)

theorem verdictsShown_get (c : Bool) (s : State) :
    (verdictsShown (some c) s).get (F.KIN_COPY_VERDICT c.toNat) = Verdict.code .selected := by
  cases c with
  | false => exact (showVerdict_get_ne _ _ _ (by decide)).trans (showVerdict_get_same _ _ _)
  | true => exact showVerdict_get_same _ _ _

theorem verdictsShown_hide (chosen : Option Bool) (s : State) : (verdictsShown chosen s).hide 1 = s.hide 1 :=
  (showVerdict_hide _ _ _ _ rfl).trans (showVerdict_hide _ _ _ _ rfl)

theorem refuseOther_get (c : Bool) (s : State) {f : Field} (h : f.addr ≠ F.FLT_CNT_B_DROPPED.addr) :
    (refuseOther c s).get f = s.get f := by
  unfold refuseOther
  extract_lets v
  split
  · rfl
  · exact State.get_of_reg (State.reg_raise_ne _ _ h)

theorem takeCopy_get (c : Bool) (s : State) : (takeCopy c s).bit F.KIN_STATUS_IMAGE_COPY = c ∧
    (takeCopy c s).get F.IDENT_MODULE_RUN_LEVEL = min (s.levelHi c) 3 ∧ (takeCopy c s).node.mfeRoms = s.romList c := by
  unfold takeCopy
  extract_lets level t
  have hlevel : level < 2 ^ 4 := by
    show min (s.levelHi c) 3 < 16
    omega
  refine ⟨?_, ?_, rfl⟩
  · refine (State.bit_of_get ?_).trans (State.bit_putBit_same (by decide) (by decide) c s)
    rw [State.modNode_get, State.putBit, State.get_put_apart _ _ _ _ (by decide) (by decide), State.get_put_addr _ _ _ _ (by decide),
      State.get_put_addr _ _ _ _ (by decide)]
  · rw [State.modNode_get, State.putBit, State.get_put_addr _ _ _ _ (by decide)]
    exact State.get_put_lt (by decide) hlevel _

/-! ## The choice -/

/-- The content of a copy is what its plug holds. -/
theorem levelHi_of_plug {s t : State} (h : t.plug = s.plug) (c : Bool) : t.levelHi c = s.levelHi c := by
  simp only [State.levelHi, State.copyLe, State.plugLe, State.plugBytes, h]

theorem romList_of_plug {s t : State} (h : t.plug = s.plug) (c : Bool) : t.romList c = s.romList c := by
  simp only [State.romList, State.copyBytes, State.plugBytes, h]

/-- No copy is chosen where neither is acceptable. -/
theorem chooseCopy_eq_none (va vb : Verdict) (s : State) :
    s.chooseCopy va vb = none ↔ va ≠ .acceptable ∧ vb ≠ .acceptable := by
  unfold State.chooseCopy
  by_cases ha : va = .acceptable <;> by_cases hb : vb = .acceptable <;> simp [ha, hb]

theorem k4_of_some {s : State} {c : Bool} (h : s.chooseCopy (s.startVerdict false) (s.startVerdict true) = some c) :
    k4 s = (some c, takeCopy c (refuseOther (!c) (verdictsShown (some c) s))) := by
  unfold k4
  extract_lets va vb shown chosen u
  have hu : u = verdictsShown chosen s := rfl
  rw [hu, show chosen = some c from h]

theorem k4_of_none {s : State} (h : s.chooseCopy (s.startVerdict false) (s.startVerdict true) = none) :
    k4 s = (none, verdictsShown none s) := by
  unfold k4
  extract_lets va vb shown chosen u
  have hu : u = verdictsShown chosen s := rfl
  rw [hu, show chosen = none from h]

/-- A copy taken keeps its verdict as shown. -/
theorem takeCopy_refuseOther_verdict (c d : Bool) (s : State) :
    (takeCopy c (refuseOther d s)).get (F.KIN_COPY_VERDICT c.toNat) = s.get (F.KIN_COPY_VERDICT c.toNat) := by
  have hb : (F.KIN_COPY_VERDICT c.toNat).addr = 0x400E0008 ∨ (F.KIN_COPY_VERDICT c.toNat).addr = 0x400E000C := by
    cases c <;> decide
  have hne : ∀ n : Nat, n ≠ 0x400E0008 → n ≠ 0x400E000C → (F.KIN_COPY_VERDICT c.toNat).addr ≠ n := fun n _ _ => by omega
  unfold takeCopy
  extract_lets level t
  rw [State.modNode_get, State.putBit, State.get_put_addr _ _ _ _ (hne _ (by decide) (by decide)),
    State.get_put_addr _ _ _ _ (hne _ (by decide) (by decide)), State.get_put_addr _ _ _ _ (hne _ (by decide) (by decide)),
    State.putBit, State.get_put_addr _ _ _ _ (hne _ (by decide) (by decide)),
    refuseOther_get _ _ (hne _ (by decide) (by decide))]

end Sys2Proof.Machine

namespace Sys2Proof.Safety
open Sys2Proof.Machine

theorem completes_k4_of_some {s : State} (hk : s.kindles .k4 = true) {c : Bool}
    (h : s.chooseCopy (s.startVerdict false) (s.startVerdict true) = some c) :
    completes .k4 s [.regs, .node, .col] fun t => t.node.phase = .k5 ∧
      t.bit F.KIN_STATUS_IMAGE_COPY = c ∧ t.get (F.KIN_COPY_VERDICT c.toNat) = Verdict.code .selected ∧
      t.get F.IDENT_MODULE_RUN_LEVEL = min (s.levelHi c) 3 ∧ t.node.mfeRoms = s.romList c := by
  have hplug : (refuseOther (!c) (verdictsShown (some c) s)).plug = s.plug :=
    plug_same_of_hide (m := 81) rfl ((refuseOther_hide _ _ 81 rfl).trans (hide_mono rfl (verdictsShown_hide (some c) s)))
  obtain ⟨hcopy, hlevel, hroms⟩ := takeCopy_get c (refuseOther (!c) (verdictsShown (some c) s))
  have hend : ∀ (u : State) {f : Field}, f.addr ≠ F.KIN_TIME2_END_K4.addr → (endPhase F.KIN_TIME2_END_K4 .k5 u).get f = u.get f :=
    fun u _ hf => endPhase_get_ne _ _ hf
  refine ⟨endPhase F.KIN_TIME2_END_K4 .k5 (takeCopy c (refuseOther (!c) (verdictsShown (some c) s))), ?_, ?_, ?_, ?_, ?_, ?_, ?_⟩
  · refine (actWhen_of_true hk : execK4 s = _).trans ?_
    rw [k4_of_some h]
  · exact only_of_hide (k := 81) rfl ((endPhase_hide _ _ _ _ rfl).trans ((takeCopy_hide _ _ _ rfl).trans
      ((refuseOther_hide _ _ _ rfl).trans (hide_mono rfl (verdictsShown_hide (some c) s)))))
  · rw [endPhase_node]
  · exact (State.bit_of_get (hend _ (by decide))).trans hcopy
  · rw [hend _ (by cases c <;> decide)]
    exact (takeCopy_refuseOther_verdict c _ _).trans (verdictsShown_get c s)
  · rw [hend _ (by decide), hlevel, levelHi_of_plug hplug]
  · rw [endPhase_node]
    dsimp only
    rw [hroms, romList_of_plug hplug]

theorem completes_k4_of_none {s : State} (hk : s.kindles .k4 = true)
    (h : s.chooseCopy (s.startVerdict false) (s.startVerdict true) = none) :
    completes .k4 s [.regs, .node, .col] fun t => t.node.phase = .k4 ∧ t.node.kinHalted = true := by
  obtain ⟨-, hphase, -⟩ := (kindles_iff _ _).1 hk
  have hnode : (imageNone (verdictsShown none s)).node = { s.node with kinHalted := true } := by
    rw [imageNone, kinFatal_node, verdictsShown, showVerdict_node, showVerdict_node]
  refine ⟨imageNone (verdictsShown none s), ?_, ?_, ?_, ?_⟩
  · refine (actWhen_of_true hk : execK4 s = _).trans ?_
    rw [k4_of_none h]
  · exact only_of_hide (k := 81) rfl ((imageNone_hide _ _ rfl).trans (hide_mono rfl (verdictsShown_hide none s)))
  · rw [hnode]
    exact hphase
  · rw [hnode]

end Sys2Proof.Safety
end

section
/-! KIN.STATUS's word (Table 03-9) through what K8 begins: tasks, channels, wheels, the work queue and the records write other
registers. -/

namespace Sys2Proof.Machine

/-- The word of KIN.STATUS as stored. -/
def State.kinWord (s : State) : Word := s.reg 0x400E0000

theorem bit_of_kinWord {f : Field} (hf : f.addr = 0x400E0000) {s t : State} (h : t.kinWord = s.kinWord) : t.bit f = s.bit f :=
  State.bit_of_get (State.get_of_reg (by rw [hf]; exact h))

theorem kinWord_of_hide {s t : State} {m : Nat} (hm : m.testBit 0 = false) (h : t.hide m = s.hide m) : t.kinWord = s.kinWord := by
  have hregs : t.regs = s.regs := by simpa [State.hide, hm] using congrArg State.regs h
  unfold State.kinWord State.reg
  rw [hregs]

theorem ite_kinWord {c : Prop} [Decidable c] (a b : State) :
    (if c then a else b).kinWord = if c then a.kinWord else b.kinWord := apply_ite ..

/-! ## Registers, interrupts, faults -/

theorem put_kinWord {f : Field} (hf : 0x400E0000 ≠ f.addr) (v : Nat) (s : State) : (s.put f v).kinWord = s.kinWord :=
  State.reg_put_ne f v s hf

theorem putReg_kinWord {a : Nat} (ha : 0x400E0000 ≠ a) (w : Word) (s : State) : (s.putReg a w).kinWord = s.kinWord :=
  (State.reg_putReg a _ w s).trans (if_neg ha)

theorem count_kinWord {f : Field} (hf : 0x400E0000 ≠ f.addr) (n : Nat) (s : State) : (s.count f n).kinWord = s.kinWord :=
  put_kinWord hf _ s

@[simp] theorem raise_kinWord (f : FaultSpec) (s : State) : (s.raise f).kinWord = s.kinWord :=
  State.reg_raise_ne f s (by decide)

/-- The counters of the interrupt controller end before KIN.STATUS. -/
theorem cntField_ne_kin {src : Nat} (h : src < 128) : 0x400E0000 ≠ (cntField src).addr := by
  simp only [cntField]
  omega

theorem strobe_kinWord {src : Nat} (h : src < 128) (s : State) : (s.strobe src).kinWord = s.kinWord :=
  State.reg_strobe_ne src s (cntField_ne_kin h)

theorem interrupt_kinWord {src : Nat} (h : src < 128) (s : State) : (s.interrupt src).kinWord = s.kinWord :=
  State.reg_interrupt_ne src s (cntField_ne_kin h)

theorem event_kinWord {ev : Field} (hev : 0x400E0000 ≠ ev.addr) (ien : Field) (b : Nat) {src : Nat} (h : src < 128) (s : State) :
    (s.event ev ien b src).kinWord = s.kinWord := State.reg_event_ne ev ien b src s hev (cntField_ne_kin h)

theorem eventBit_kinWord {ev : Field} (hev : 0x400E0000 ≠ ev.addr) (ien : Field) (b : Nat) {src : Nat} (h : src < 128) (s : State) :
    (s.eventBit ev ien b src).kinWord = s.kinWord :=
  (State.view_when State.kinWord (strobe_kinWord h) _ _).trans (put_kinWord hev 1 s)

@[simp] theorem modC_kinWord (c : Fin 64) (f : Chan → Chan) (s : State) : (s.modC c f).kinWord = s.kinWord := rfl

@[simp] theorem modW_kinWord (w : Fin 8) (f : Wheel → Wheel) (s : State) : (s.modW w f).kinWord = s.kinWord := rfl

@[simp] theorem setBar_kinWord (b : Barrier) (s : State) : (s.setBar b).kinWord = s.kinWord := rfl

@[simp] theorem modWork_kinWord (f : Work → Work) (s : State) : (s.modWork f).kinWord = s.kinWord := rfl

@[simp] theorem modDist_kinWord (f : Dist → Dist) (s : State) : (s.modDist f).kinWord = s.kinWord := rfl

/-! ## Requests to the MFE -/

@[simp] theorem endMailbox_kinWord (r : Nat) (s : State) : (endMailbox r s).kinWord = s.kinWord :=
  (interrupt_kinWord (by decide) _).trans ((put_kinWord (by decide) _ _).trans (put_kinWord (by decide) _ s))

@[simp] theorem returnFailed_kinWord (i : Issuer) (s : State) : (returnFailed i s).kinWord = s.kinWord := by
  cases i with
  | mailbox => exact endMailbox_kinWord 0xFF s
  | schedule c tag =>
    show (if h : c < 64 then _ else s : State).kinWord = _
    split <;> rfl
  | _ => rfl

@[simp] theorem transmit_kinWord (r : Request) (s : State) : (transmit r s).kinWord = s.kinWord :=
  kinWord_of_hide (m := 131072) rfl (transmit_hide r s _ rfl)

@[simp] theorem barSend_kinWord (type : Byte) (payload : List Byte) (i : Issuer) (s : State) :
    (barSend type payload i s).kinWord = s.kinWord := by
  unfold barSend
  extract_lets r
  split
  · exact returnFailed_kinWord i s
  · split
    · exact transmit_kinWord r s
    · rfl

@[simp] theorem sendSetNow_kinWord (mask levels : Nat) (i : Issuer) (s : State) :
    (sendSetNow mask levels i s).kinWord = s.kinWord := barSend_kinWord _ _ i s

@[simp] theorem sendSchedule_kinWord (c : Nat) (level : Bool) (gate : SysTime) (tag : Word) (s : State) :
    (sendSchedule c level gate tag s).kinWord = s.kinWord := barSend_kinWord _ _ _ s

@[simp] theorem sendCancel_kinWord (c : Nat) (tag : Word) (s : State) : (sendCancel c tag s).kinWord = s.kinWord :=
  barSend_kinWord _ _ _ s

@[simp] theorem setNowAll_kinWord (s : State) : (setNowAll s).kinWord = s.kinWord := by
  simp only [setNowAll, ite_kinWord, sendSetNow_kinWord, setBar_kinWord, ite_self]

/-! ## Channels -/

@[simp] theorem chEvent_kinWord (c : Fin 64) (b : Nat) (s : State) : (s.chEvent c b).kinWord = s.kinWord :=
  event_kinWord (by simp only [F.CH_EVENT_EV]; omega) _ b (by omega) s

@[simp] theorem setHvOutput_kinWord (c : Fin 64) (s : State) : (setHvOutput c s).kinWord = s.kinWord := by
  simp only [setHvOutput, ite_kinWord, sendSetNow_kinWord, ite_self]

@[simp] theorem reforward_kinWord (c : Fin 64) (s : State) : (reforward c s).kinWord = s.kinWord := by
  unfold reforward
  split
  · split
    · simp only [ite_kinWord, sendSchedule_kinWord, modC_kinWord, ite_self]
    · rfl
  · rfl

@[simp] theorem armHead_kinWord (c : Fin 64) (s : State) : (armHead c s).kinWord = s.kinWord := by
  unfold armHead
  split
  · rfl
  · split
    · rfl
    · next e l _ =>
      extract_lets w set
      have hset : ∀ e : Entry, (set e).kinWord = s.kinWord := fun _ => rfl
      have hfwd : ∀ e : Entry, (reforward c (set e)).kinWord = s.kinWord := fun e => (reforward_kinWord c _).trans (hset e)
      clear_value set
      split
      · split
        · simp only [ite_kinWord, hfwd, ite_self]
        · rfl
      · split
        · rfl
        · split
          · exact hfwd _
          · exact hset _

@[simp] theorem restartLog_kinWord (c : Fin 64) (s : State) : (restartLog c s).kinWord = s.kinWord := by
  have hput : ((s.put (F.CH_ELOG_WR_WR c) 0).put (F.CH_ELOG_RD_RD c) 0).kinWord = s.kinWord := by
    rw [put_kinWord, put_kinWord] <;> simp only [F.CH_ELOG_WR_WR, F.CH_ELOG_RD_RD] <;> omega
  unfold restartLog
  extract_lets t
  split
  · exact (State.view_when State.kinWord (chEvent_kinWord c 7) _ _).trans hput
  · exact hput

@[simp] theorem enableChan_kinWord (c : Fin 64) (s : State) : (enableChan c s).kinWord = s.kinWord := by
  have hput : (((s.put (F.CH_CTL_EN c) 1).put (F.CH_RES0_RES0 c) 0).put (F.CH_RES1_RES1 c) 0).kinWord = s.kinWord := by
    rw [put_kinWord, put_kinWord, put_kinWord] <;> simp only [F.CH_CTL_EN, F.CH_RES0_RES0, F.CH_RES1_RES1] <;> omega
  simp only [enableChan, armHead_kinWord, setHvOutput_kinWord, markBehind, modC_kinWord, restartLog_kinWord, hput]

@[simp] theorem tryEnable_kinWord (c : Fin 64) (s : State) : (tryEnable c s).2.kinWord = s.kinWord := by
  unfold tryEnable
  split
  · rfl
  · split
    · exact enableChan_kinWord c s
    · exact put_kinWord (by simp only [F.CH_STATUS_CFG_BAD]; omega) 1 s

@[simp] theorem chanK8_kinWord (s : State) : (chanK8 s).kinWord = s.kinWord :=
  State.view_each State.kinWord (fun c s => by rw [ite_kinWord, tryEnable_kinWord, ite_self]) _ s

@[simp] theorem loadChannel_kinWord (c : Fin 64) (b : List Byte) (s : State) : (loadChannel c b s).kinWord = s.kinWord := by
  unfold loadChannel
  extract_lets flags s₁ s₂ cfg s₃
  have hs₂ : s₂.kinWord = s.kinWord := by
    rw [put_kinWord, put_kinWord, put_kinWord, put_kinWord, put_kinWord, put_kinWord] <;>
      simp only [F.CH_CTL_EN, F.CH_CTL_MODE, F.CH_CTL_DOMAIN, F.CH_CTL_WHEEL, F.CH_CTL_FAIL_LEVEL, F.CH_CTL_FAIL_HIZ] <;> omega
  refine (State.each_keeps (P := fun t : State => t.kinWord = s.kinWord) (fun i hi t ht => ?_) hs₂ : s₃.kinWord = _)
  have hi := List.mem_range.1 hi
  exact (putReg_kinWord (by omega) _ t).trans ht

@[simp] theorem takeNewConfig_kinWord (c : Fin 64) (s : State) : (takeNewConfig c s).kinWord = s.kinWord := by
  unfold takeNewConfig
  split
  · rfl
  · dsimp only
    split <;> simp only [tryEnable_kinWord, loadChannel_kinWord]

@[simp] theorem setList_kinWord (c : Fin 64) (l : List Entry) (s : State) : (setList c l s).kinWord = s.kinWord := by
  simp only [setList, ite_kinWord, takeNewConfig_kinWord, armHead_kinWord, ite_self,
    State.view_when State.kinWord (chEvent_kinWord c 2), modC_kinWord]

@[simp] theorem cancelForwarded_kinWord (c : Fin 64) (e : Entry) (s : State) : (cancelForwarded c e s).kinWord = s.kinWord :=
  State.view_when State.kinWord (sendCancel_kinWord _ _) _ s

@[simp] theorem assignTag_kinWord (c : Fin 64) (tag : Word) (s : State) : (assignTag c tag s).2.kinWord = s.kinWord := by
  unfold assignTag
  split <;> rfl

@[simp] theorem listInsert_kinWord (c : Fin 64) (key : BitVec 64) (action tag : Word) (s : State) :
    (listInsert c key action tag s).2.kinWord = s.kinWord := by
  unfold listInsert
  extract_lets st u
  have hu : u.kinWord = s.kinWord := by
    show (match s.tagged c tag with | some (e, _) => _ | none => s : State).kinWord = _
    split
    · exact cancelForwarded_kinWord c _ s
    · rfl
  split
  · exact (chEvent_kinWord c 3 _).trans (count_kinWord (by simp only [F.CH_CNT_A_FULL]; omega) 1 s)
  · split
    · rfl
    · exact (setList_kinWord c _ _).trans ((assignTag_kinWord c tag u).trans hu)

@[simp] theorem listCancel_kinWord (c : Fin 64) (tag : Word) (s : State) : (listCancel c tag s).2.kinWord = s.kinWord := by
  unfold listCancel
  extract_lets st
  split
  · split
    · exact (setList_kinWord c _ _).trans (cancelForwarded_kinWord c _ s)
    · rfl
  · rfl

end Sys2Proof.Machine
end

section
/-! KIN.STATUS's word through the rest of K8, and what K8 leaves of the Embers. -/

namespace Sys2Proof.Machine

/-! ## Wheels and tasks -/

@[simp] theorem whEvent_kinWord (w : Fin 8) (b : Nat) (s : State) : (s.whEvent w b).kinWord = s.kinWord :=
  event_kinWord (by simp only [F.WHL_EVENT_EV]; omega) _ b (by omega) s

@[simp] theorem tryEnableWheel_kinWord (w : Fin 8) (s : State) : (tryEnableWheel w s).2.kinWord = s.kinWord := by
  unfold tryEnableWheel
  split
  · rfl
  · split
    · exact put_kinWord (by simp only [F.WHL_STATUS_CFG_BAD]; omega) 1 s
    · extract_lets s₁ s₂
      have hs₁ : s₁.kinWord = s.kinWord := by
        rw [put_kinWord, put_kinWord, put_kinWord] <;> simp only [F.WHL_CTL_EN, F.WHL_STATUS_REV_EST, F.WHL_STATUS_ERRS] <;> omega
      rw [whEvent_kinWord, takeConfig, modW_kinWord]
      exact (modW_kinWord w _ s₁).trans hs₁

@[simp] theorem wheelK8_kinWord (s : State) : (wheelK8 s).kinWord = s.kinWord :=
  State.view_each State.kinWord (fun w s => by rw [ite_kinWord, tryEnableWheel_kinWord, ite_self]) _ s

@[simp] theorem makeReady_kinWord (i : Fin 64) (s : State) : (makeReady i s).kinWord = s.kinWord := by
  unfold makeReady
  split
  · rfl
  · exact count_kinWord (by decide) 1 s
  · rfl

@[simp] theorem startTask_kinWord (b : List Byte) (i : Fin 64) (s : State) : (startTask b i s).kinWord = s.kinWord := by
  unfold startTask
  extract_lets p prio s₁
  have hs₁ : ((s₁.put (F.TSK_BUDGET_BUDGET i) 0).put (F.TSK_ARG_ARG i) 0).kinWord = s.kinWord := by
    rw [put_kinWord, put_kinWord, put_kinWord, put_kinWord, put_kinWord] <;>
      simp only [F.TSK_CFG_ENTRY, F.TSK_CFG_PRIO, F.TSK_CFG_AFFINITY, F.TSK_BUDGET_BUDGET, F.TSK_ARG_ARG] <;> omega
  split
  · rfl
  · exact (makeReady_kinWord i _).trans hs₁

@[simp] theorem startTasks_kinWord (s : State) : (startTasks s).kinWord = s.kinWord :=
  State.view_each State.kinWord (startTask_kinWord _) _ s

/-! ## The work queue -/

@[simp] theorem wrkEvent_kinWord {f : Field} (hf : 0x400E0000 ≠ f.addr) (b : Nat) (s : State) :
    (s.wrkEvent f b).kinWord = s.kinWord := by
  unfold State.wrkEvent
  split <;> exact eventBit_kinWord hf _ _ (by decide) s

@[simp] theorem showWork_kinWord (s : State) : (showWork s).kinWord = s.kinWord := by
  unfold showWork
  extract_lets was live s₁ s₂ s₃ s₄
  have hs₄ : s₄.kinWord = s.kinWord := by
    rw [put_kinWord, put_kinWord, put_kinWord, put_kinWord, put_kinWord, put_kinWord] <;> decide
  exact (State.view_when State.kinWord (strobe_kinWord (by decide)) _ s₄).trans hs₄

@[simp] theorem carriedOut_kinWord (r : JRec) (st : Nat) (s : State) : (carriedOut r st s).kinWord = s.kinWord := by
  unfold carriedOut
  split
  · rfl
  · exact showWork_kinWord _

@[simp] theorem blockHead_kinWord (c : Fin 64) (s : State) : (blockHead c s).kinWord = s.kinWord := by
  unfold blockHead
  extract_lets was s₁
  split
  · rfl
  · exact (raise_kinWord _ _).trans ((wrkEvent_kinWord (by decide) 4 _).trans (put_kinWord (by decide) 1 s₁))

/-- A word of eight bytes is written without being read first. -/
@[simp] theorem spmWrite8_kinWord (m a v : Nat) (s : State) : (s.spmWrite m a 8 v).2.kinWord = s.kinWord := by
  unfold State.spmWrite
  extract_lets p
  split
  · exact State.view_when State.kinWord (raise_kinWord _) _ s
  · rfl

@[simp] theorem spmWriteBlock_kinWord (m a : Nat) (bs : List (List Byte)) (s : State) :
    (s.spmWriteBlock m a bs).2.kinWord = s.kinWord := by
  induction bs generalizing a s with
  | nil => rfl
  | cons w ws ih =>
    have hw := spmWrite8_kinWord m a (ofLe w) s
    rw [State.spmWriteBlock]
    split
    · next u h =>
      rw [h] at hw
      exact (ih _ u).trans hw
    · next st u _ h =>
      rw [h] at hw
      exact hw

@[simp] theorem applyInsert_kinWord (r : JRec) (s : State) : (applyInsert r s).kinWord = s.kinWord := by
  unfold applyInsert
  extract_lets i c
  have hs := listInsert_kinWord c i.due i.arg0 i.arg1 s
  generalize listInsert c i.due i.arg0 i.arg1 s = q at hs
  obtain ⟨st, t⟩ := q
  dsimp only at hs ⊢
  split
  · exact (blockHead_kinWord c t).trans hs
  · exact (carriedOut_kinWord r st _).trans ((put_kinWord (by decide) 0 t).trans hs)

@[simp] theorem applyCancel_kinWord (r : JRec) (s : State) : (applyCancel r s).kinWord = s.kinWord :=
  (carriedOut_kinWord r _ _).trans (listCancel_kinWord _ _ s)

@[simp] theorem applyValue_kinWord (r : JRec) (s : State) : (applyValue r s).kinWord = s.kinWord := by
  unfold applyValue
  extract_lets i a
  have hs := spmWriteBlock_kinWord 6 a [leBytes 8 i.arg2.toNat, leBytes 8 i.due.toNat] s
  split
  · next t h =>
    rw [h] at hs
    exact (carriedOut_kinWord r 0 _).trans ((wrkEvent_kinWord (by decide) 3 _).trans ((put_kinWord (by decide) _ t).trans hs))
  · next x t _ h =>
    rw [h] at hs
    exact (raise_kinWord _ _).trans hs

@[simp] theorem applyAgain_kinWord (n : Nat) (s : State) : (applyAgain n s).kinWord = s.kinWord := by
  induction n generalizing s with
  | zero => rfl
  | succ n ih =>
    unfold applyAgain
    split
    · rfl
    · simp only [ite_kinWord, ih, applyInsert_kinWord, applyCancel_kinWord, applyValue_kinWord, carriedOut_kinWord, ite_self]

@[simp] theorem offerCustody_kinWord (s : State) : (offerCustody s).kinWord = s.kinWord :=
  kinWord_of_hide (m := 16777216) rfl (offerCustody_hide s _ rfl)

/-! ## Records and the delivery of images -/

@[simp] theorem startRecord_kinWord (s : State) : (startRecord s).kinWord = s.kinWord :=
  kinWord_of_hide (m := 8388608) rfl (startRecord_hide s _ rfl)

@[simp] theorem reportFault_kinWord (r : FaultRec) (s : State) : (s.reportFault r).kinWord = s.kinWord := by
  unfold State.reportFault
  split
  · rfl
  · extract_lets r₁ s₁ r₂ s₂ s₃ r₃ s₄
    have hs₃ : s₃.kinWord = s.kinWord :=
      (eventBit_kinWord (by decide) _ 4 (by decide) s₂).trans (count_kinWord (by decide) 1 s₁)
    split
    · rfl
    · split
      · exact hs₃
      · exact (raise_kinWord _ _).trans hs₃

@[simp] theorem queueReport_kinWord (r : Report) (s : State) : (s.queueReport r).kinWord = s.kinWord :=
  kinWord_of_hide (m := 4096) rfl (State.queueReport_hide r s _ rfl)

@[simp] theorem queueStart_kinWord (s : State) : (queueStart s).kinWord = s.kinWord :=
  (State.view_each State.kinWord reportFault_kinWord _ (s.queueReport (startReport s))).trans (queueReport_kinWord _ s)

@[simp] theorem setAct_kinWord (act : Nat) (s : State) : (setAct act s).kinWord = s.kinWord :=
  (put_kinWord (by decide) _ _).trans (put_kinWord (by decide) _ s)

@[simp] theorem setDist_kinWord (st : Nat) (s : State) : (setDist st s).kinWord = s.kinWord := by
  unfold setDist
  split
  · rfl
  · exact (interrupt_kinWord (by decide) _).trans (put_kinWord (by decide) st s)

@[simp] theorem showRoster_kinWord (v : Serve) (s : State) : (showRoster v s).kinWord = s.kinWord :=
  State.view_each State.kinWord (fun i s => putReg_kinWord (by omega) _ s) _ s

@[simp] theorem startDist_kinWord (s : State) : (startDist s).kinWord = s.kinWord := by
  have hrole : ∀ (t : State) (seq role : Nat), ((t.put F.PLG_DIST_SEQ_SEQUENCE seq).put F.PLG_DIST_STATE_ROLE role).kinWord =
      t.kinWord := fun t _ _ => (put_kinWord (by decide) _ _).trans (put_kinWord (by decide) _ t)
  simp only [startDist, ite_kinWord, showRoster_kinWord, setDist_kinWord, setAct_kinWord, modDist_kinWord, hrole, ite_self]

/-! ## K8 -/

/-- What every step of the entry to K8 keeps, the entry keeps from the release of the Embers on. -/
theorem enterK8_view {β : Type} (view : State → β) {wheels : State → State}
    (h : ∀ f ∈ [startTasks, chanK8, wheels, setNowAll, reapply, offerCustody, startRecord, startDist, queueStart],
      ∀ s, view (f s) = view s) (setNow again : Bool) (s : State) :
    view (enterK8 wheels setNow again s) =
      view (releaseEmbers (s.modNode fun x => { x with phase := .k8, phaseAt := s.cycles })) := by
  simp only [List.forall_mem_cons] at h
  obtain ⟨htasks, hchan, hwheels, hnow, hagain, hoffer, hrecord, hdist, hqueue, -⟩ := h
  unfold enterK8
  extract_lets s₁ s₂ s₃ s₄ s₅
  have hs₃ : view s₃ = view (releaseEmbers s₁) := (hwheels _).trans ((hchan _).trans (htasks _))
  have hs₄ : view s₄ = view s₃ := by
    show view (if setNow = true then setNowAll s₃ else s₃) = _
    split
    · exact hnow s₃
    · rfl
  have hs₅ : view s₅ = view s₄ := by
    show view (if again = true then offerCustody (reapply s₄) else s₄) = _
    split
    · exact (hoffer _).trans (hagain s₄)
    · rfl
  have hend : view (queueStart (startDist (if s₅.node.plugPresent = true then startRecord s₅ else s₅))) = view s₅ := by
    rw [hqueue, hdist]
    split
    · exact hrecord s₅
    · rfl
  exact hend.trans (hs₅.trans (hs₄.trans hs₃))

/-- K8 writes KIN.STATUS nowhere once its phase has begun. -/
theorem enterK8_kinWord {wheels : State → State} (hw : ∀ s, (wheels s).kinWord = s.kinWord) (setNow again : Bool) (s : State) :
    (enterK8 wheels setNow again s).kinWord = s.kinWord := by
  refine enterK8_view State.kinWord ?_ setNow again s
  simp only [List.forall_mem_cons]
  exact ⟨startTasks_kinWord, chanK8_kinWord, hw, setNowAll_kinWord, fun s => applyAgain_kinWord _ s, offerCustody_kinWord,
    startRecord_kinWord, startDist_kinWord, queueStart_kinWord, List.forall_mem_nil _⟩

/-- What K8 begins leaves the Embers as they are released. -/
theorem enterK8_emb {wheels : State → State} (hw : ∀ s, (wheels s).emb = s.emb) (setNow again : Bool) (s : State) :
    (enterK8 wheels setNow again s).emb = s.emb.map fun m => { m with halted := false } := by
  refine enterK8_view State.emb ?_ setNow again s
  simp only [List.forall_mem_cons]
  exact ⟨fun s => emb_same_of_hide (m := 257) rfl (startTasks_hide s _ rfl),
    fun s => emb_same_of_hide (m := 139393) rfl (chanK8_hide s _ rfl), hw,
    fun s => emb_same_of_hide (m := 139393) rfl (setNowAll_hide s _ rfl),
    fun s => emb_same_of_hide (m := 16917697) rfl (reapply_hide s _ rfl),
    fun s => emb_same_of_hide (m := 16777216) rfl (offerCustody_hide s _ rfl),
    fun s => emb_same_of_hide (m := 8388608) rfl (startRecord_hide s _ rfl),
    fun s => emb_same_of_hide (m := 33554561) rfl (startDist_hide s _ rfl),
    fun s => emb_same_of_hide (m := 4289) rfl (queueStart_hide s _ rfl), List.forall_mem_nil _⟩

end Sys2Proof.Machine
end

section
/-! O39, the clauses of K6 to K8 and MFE_ABSENT (R121 to R126). -/

namespace Sys2Proof.Safety
open Sys2Proof.Machine

/-! ## K6 -/

/-- K6 of a start-up: the handshake done, to be begun, or awaited. -/
theorem exec_k6_of_start {s : State} (hk : s.kindles .k6 = true) (hkind : s.node.kind ≠ .warm) (hidle : s.bar.step = .idle) :
    exec .k6 s = .next (if s.bit F.BAR_STATUS_FAILSTATE_SENT = true then endK6 s
      else if s.linkUp = true then sendHello s else s) := by
  refine (actWhen_of_true hk : execK6 s = _).trans ?_
  rw [if_neg hkind, if_neg (not_not_intro hidle)]

theorem completes_k6_of_sent {s : State} (hk : s.kindles .k6 = true) (hkind : s.node.kind ≠ .warm) (hidle : s.bar.step = .idle)
    (hsent : s.bit F.BAR_STATUS_FAILSTATE_SENT = true) : completes .k6 s [.regs, .node] fun t =>
      t.node.phase = .k7 ∧ t.get F.IDENT_MODULE_MFE_ROM = s.get F.BAR_STATUS_MFE_ROM := by
  refine ⟨endK6 s, ?_, only_of_hide (k := 17) rfl ((endPhase_hide _ _ _ _ rfl).trans (State.put_hide _ _ s _ rfl)), ?_, ?_⟩
  · rw [exec_k6_of_start hk hkind hidle, if_pos hsent]
  · rw [endK6, endPhase_node]
  · rw [endK6, endPhase_get_ne _ _ (by decide)]
    exact State.get_put_lt (f := F.IDENT_MODULE_MFE_ROM) (by decide) (State.get_lt F.BAR_STATUS_MFE_ROM s) s

theorem completes_k6_of_linked {s : State} (hk : s.kindles .k6 = true) (hkind : s.node.kind ≠ .warm) (hidle : s.bar.step = .idle)
    (hsent : s.bit F.BAR_STATUS_FAILSTATE_SENT = false) (hl : s.linkUp = true) (hroom : s.bar.outs.length < 16) :
    completes .k6 s [.bar] fun t => t.bar.step = .hello := by
  have hsend : sendHello s = transmit ⟨0, tHELLO, slice ([BitVec.ofNat 8 (s.get F.IDENT_CODES_ADDRESS),
      BitVec.ofNat 8 (s.get F.IDENT_MODULE_RUN_LEVEL)] ++ leBytes 2 (s.bar.nextSeq + 1).toNat) 0 24, .handshake, 0, 0, 0⟩
      (s.setBar { s.bar with step := .hello, configBad := false, again := false }) :=
    barSend_of_room hl (by simp [State.maySend, State.setBar, hroom])
  refine ⟨sendHello s, ?_, ?_, ?_⟩
  · rw [exec_k6_of_start hk hkind hidle, if_neg (ne_true_of_eq_false hsent), if_pos hl]
  · rw [hsend]
    exact only_of_hide (k := 131072) rfl (by simp)
  · rw [hsend]
    rfl

/-! ## MFE_ABSENT -/

/-- What a fault records rests on no register. -/
theorem raise_put_col (spec : FaultSpec) (f : Field) (v : Nat) (s : State) : ((s.put f v).raise spec).col = (s.raise spec).col := by
  have hrec : (s.put f v).recordOf spec = s.recordOf spec := rfl
  have hcol : (s.put f v).col = s.col := rfl
  unfold State.raise
  rw [hrec]
  unfold State.sendRecord
  rw [hcol]
  split
  · rfl
  · split <;> rfl

theorem completes_mfeAbsent {s : State} (hk : s.kindles .k6 = true) (hkind : s.node.kind ≠ .warm) (hl : s.linkUp = false)
    (ht : s.node.phaseAt + msCycles 300 ≤ s.cycles) : completes .mfeAbsent s [.regs, .node, .col] fun t =>
      t.node.phase = .k7 ∧ t.bit F.KIN_STATUS_HV_PENDING = true ∧
      t.col = (s.raise { src := 0x18, kind := kTIMEOUT, cls := corrected, reason := 0x13 }).col := by
  have hact : (s.kindles .k6 && s.node.kind != .warm && !s.linkUp && decide (s.node.phaseAt + msCycles 300 ≤ s.cycles)) = true := by
    simp [hk, hkind, hl, ht]
  have hrun : exec .mfeAbsent s = .next (endPhase F.KIN_TIME3_END_K6 .k7
      (kinFault kTIMEOUT corrected 0x13 0 (s.put F.KIN_STATUS_HV_PENDING 1))) := (actWhen_of_true hact : execMfeAbsent s = _)
  refine ⟨_, hrun, only_of_hide (k := 81) rfl (execMfeAbsent_hide s _ hrun), ?_, ?_, ?_⟩
  · rw [endPhase_node]
  · refine (State.bit_of_get ?_).trans (State.bit_putBit_same (by decide) (by decide) true s)
    rw [endPhase_get_ne _ _ (by decide)]
    exact State.get_of_reg (State.reg_raise_ne _ _ (by decide))
  · exact raise_put_col _ _ _ s

/-! ## K7 -/

theorem k7_sup (s : State) : (k7 s).sup = { s.sup with hbLost := false } := by
  have hdrops : ∀ t : State, (enableDrops t).sup = t.sup := fun t => sup_same_of_hide (m := 4194305) rfl (enableDrops_hide t _ rfl)
  have hline : ∀ (p : Fin 4) (st : Nat) (t : State), (setLine p st t).sup = t.sup := fun p st t =>
    sup_same_of_hide (m := 4194433) rfl (setLine_hide p st t _ rfl)
  have hins : ∀ (n : Nat) (t : State), (setInsert n t).sup = t.sup := fun n t => sup_same_of_hide (m := 1) rfl (setInsert_hide n t _ rfl)
  unfold k7
  extract_lets s₁ s₂
  rw [hdrops]
  show (if s₁.sup.switchIn = true then s₁ else _ : State).sup = _
  split
  · rfl
  · rw [hins, hline, hline]
    rfl

theorem completes_k7 {s : State} (hk : s.kindles .k7 = true) (hhb : s.node.heartbeat = false) :
    completes .k7 s [.regs, .node, .sup, .ic, .ring] fun t => t.node.phase = .k7 ∧
      t.node.heartbeat = true ∧ t.node.hbAt = s.cycles ∧ t.sup.hbLost = false := by
  obtain ⟨-, hphase, -⟩ := (kindles_iff _ _).1 hk
  have hnode : (k7 s).node = { s.node with heartbeat := true, hbAt := s.cycles } := by rw [k7_node, startHeartbeat_node]
  refine ⟨k7 s, (actWhen_of_true (by rw [hk, hhb]; rfl) : execK7 s = _), only_of_hide rfl (k7_hide s 4194481 rfl), ?_⟩
  dsimp only
  rw [hnode, k7_sup]
  exact ⟨hphase, rfl, rfl, rfl⟩

/-! ## K8 -/

theorem exec_k8_of_waiting {s : State} (hins : s.sup.inserted = false) (ht : s.cycles < s.node.phaseAt + msCycles 2500) :
    exec .k8 s = .next s :=
  (actWhen_of_false (by rw [hins, decide_eq_false (Nat.not_le.2 ht), Bool.false_or, Bool.and_false]) : execK8 s = _)

theorem wheelK8_emb (s : State) : (wheelK8 s).emb = s.emb := emb_same_of_hide (m := 32897) rfl (wheelK8_hide s _ rfl)

/-- K7 ends with the insertion shown. -/
def insertionShown (s : State) : State := endPhase F.KIN_TIME3_END_K7 .k8 (s.putBit F.KIN_STATUS_INSERTED s.sup.inserted)

theorem insertionShown_inserted (s : State) : (insertionShown s).bit F.KIN_STATUS_INSERTED = s.sup.inserted :=
  (State.bit_of_get (endPhase_get_ne _ _ (by decide))).trans (State.bit_putBit_same (by decide) (by decide) _ s)

theorem exec_k8_runs {s : State} (hk : s.kindles .k7 = true) (hhb : s.node.heartbeat = true)
    (hdue : s.sup.inserted = true ∨ s.node.phaseAt + msCycles 2500 ≤ s.cycles) :
    ∃ t, exec .k8 s = .next t ∧ t.node.phase = .k8 ∧ t.node.heartbeat = true ∧
      t.bit F.KIN_STATUS_INSERTED = s.sup.inserted ∧ (∀ e : Fin 4, t.emb[e].halted = false ∧ t.emb[e].w = s.emb[e].w) := by
  have hact : (s.kindles .k7 && s.node.heartbeat &&
      (s.sup.inserted || decide (s.node.phaseAt + msCycles 2500 ≤ s.cycles))) = true := by
    rw [hk, hhb]
    rcases hdue with h | h <;> simp [h]
  have hcore := enterK8_core wheelK8 true true (insertionShown s) wheelK8_node
  simp only [core_def, Prod.mk.injEq] at hcore
  obtain ⟨hheart, -, -, -, hphase, -⟩ := hcore
  have hword := enterK8_kinWord wheelK8_kinWord true true (insertionShown s)
  have hemb : (enterK8 wheelK8 true true (insertionShown s)).emb = s.emb.map fun m => { m with halted := false } :=
    enterK8_emb wheelK8_emb true true (insertionShown s)
  refine ⟨enterK8 wheelK8 true true (insertionShown s), (actWhen_of_true hact : execK8 s = _), hphase, ?_,
    (bit_of_kinWord (by decide) hword).trans (insertionShown_inserted s), fun e => ?_⟩
  · rw [hheart, insertionShown, endPhase_node, State.putBit_node, hhb]
  · rw [hemb]
    simp

end Sys2Proof.Safety
end

section
/-! Kindling K5 (R119, R120, R124): the active page's word through the tables, and a section that fails. -/

namespace Sys2Proof.Machine

/-! ## Which registers the tables leave alone -/

/-- The word that holds HRT_SWAP.ACTIVE_PAGE. -/
def State.swapWord (s : State) : Word := s.reg 0x40000008

theorem swapWord_of_hide {s t : State} {m : Nat} (hm : m.testBit 0 = false) (h : t.hide m = s.hide m) :
    t.swapWord = s.swapWord := by
  have hregs : t.regs = s.regs := by simpa [State.hide, hm] using congrArg State.regs h
  unfold State.swapWord State.reg
  rw [hregs]

theorem put_swapWord {f : Field} (hf : 0x40000008 ≠ f.addr) (v : Nat) (s : State) : (s.put f v).swapWord = s.swapWord :=
  State.reg_put_ne f v s hf

theorem putReg_swapWord {a : Nat} (ha : 0x40000008 ≠ a) (w : Word) (s : State) : (s.putReg a w).swapWord = s.swapWord :=
  (State.reg_putReg a _ w s).trans (if_neg ha)

theorem raise_swapWord (f : FaultSpec) (s : State) : (s.raise f).swapWord = s.swapWord := State.reg_raise_ne f s (by decide)

theorem strobe_swapWord (src : Nat) (s : State) : (s.strobe src).swapWord = s.swapWord :=
  State.reg_strobe_ne src s (by simp only [cntField]; omega)

theorem modT_swapWord (f : TimeUnit → TimeUnit) (s : State) : (s.modT f).swapWord = s.swapWord := rfl

theorem modWork_swapWord (f : Work → Work) (s : State) : (s.modWork f).swapWord = s.swapWord := rfl

theorem spmStore_swapWord (p : Nat) (bs : List Byte) (s : State) : (s.spmStore p bs).swapWord = s.swapWord := rfl

theorem queuePeat_swapWord (j : PeatJob) (s : State) : (queuePeat j s).swapWord = s.swapWord := rfl

/-- The wheels' configuration registers. -/
theorem loadWheel_swapWord (entry : Option (List Byte)) (w : Fin 8) (s : State) : (loadWheel entry w s).swapWord = s.swapWord := by
  unfold loadWheel
  extract_lets cfg
  have hcfg : ∀ (i v : Nat) (s : State), (cfg i v s).swapWord = s.swapWord := fun i v s => putReg_swapWord (by omega) _ s
  clear_value cfg
  split
  · split
    · exact State.view_each State.swapWord (fun x s => hcfg _ _ s) _ s
    · exact put_swapWord (by simp only [F.WHL_CTL_SOURCE]; omega) 3 s
  · next b =>
    extract_lets s₁ s₂ s₃
    have hs₃ : s₃.swapWord = s.swapWord := by
      show (if w.val < 3 then s else _ : State).swapWord = _
      split
      · rfl
      · refine (State.view_each State.swapWord (fun i s => hcfg _ _ s) _ _).trans ?_
        rw [put_swapWord, put_swapWord, put_swapWord, put_swapWord] <;>
          simp only [F.WHL_CTL_SOURCE, F.WHL_CTL_SRC_CH, F.WHL_CTL_PATTERN, F.WHL_CTL_TABLE] <;> omega
    exact (State.view_each State.swapWord (fun i s => hcfg _ _ s) _ s₃).trans hs₃

theorem loadWheels_swapWord (s : State) : (loadWheels s).swapWord = s.swapWord :=
  State.view_each State.swapWord (fun w s => loadWheel_swapWord _ w s) _ s

theorem loadTeeth_swapWord (s : State) : (loadTeeth s).swapWord = s.swapWord := by
  refine State.view_each State.swapWord (fun t s => ?_) _ s
  refine (State.view_each State.swapWord (fun x s => put_swapWord ?_ _ s) _ _).trans (put_swapWord ?_ _ s)
  · simp only [F.TBL_ANGLE_ANGLE]
    omega
  · simp only [F.TBL_COUNT_COUNT]
    omega

theorem putEntry_swapWord (page : Bool) (port slot : Nat) (w : Word) (s : State) :
    (putEntry page port slot w s).swapWord = s.swapWord := by
  unfold putEntry noteBad
  extract_lets k
  split
  · exact raise_swapWord _ _
  · rfl

theorem loadPages_swapWord (entries : List (Nat × Nat × Word)) (s : State) : (loadPages entries s).swapWord = s.swapWord := by
  refine (State.view_each State.swapWord (fun e s => ?_) _ _).trans (putReg_swapWord (by decide) 0 _)
  split
  · exact putEntry_swapWord _ _ _ _ s
  · rfl

theorem setUtc_swapWord (o : Int) (s : State) : (setUtc o s).swapWord = s.swapWord := by
  unfold setUtc
  split
  · rfl
  · exact (strobe_swapWord 95 _).trans ((put_swapWord (f := F.TIME_EVENT_LEAP_CHANGED) (by decide) 1 _).trans
      (put_swapWord (f := F.TIME_UTC_OFFSET) (by decide) _ s))

theorem takeTable_swapWord (s : State) : (takeTable s).swapWord = s.swapWord := by
  unfold takeTable
  extract_lets o
  split
  · exact setUtc_swapWord o _
  · rfl

theorem loadData_swapWord (s : State) : (loadData s).swapWord = s.swapWord := by
  unfold loadData
  extract_lets s₁ leaps s₂
  have hs₂ : s₂.swapWord = s.swapWord := by
    simp only [s₂, s₁, takeTable_swapWord, modT_swapWord, modWork_swapWord]
  clear_value s₂
  rw [← hs₂]
  refine State.view_each State.swapWord (fun k t => ?_) _ s₂
  split
  · exact spmStore_swapWord _ _ t
  · rfl

theorem showWork_swapWord (s : State) : (showWork s).swapWord = s.swapWord := by
  unfold showWork
  extract_lets was live s₁ s₂ s₃ s₄
  have hs₄ : s₄.swapWord = s.swapWord := by
    rw [put_swapWord, put_swapWord, put_swapWord, put_swapWord, put_swapWord, put_swapWord] <;> decide
  exact (State.view_when State.swapWord (strobe_swapWord _) _ s₄).trans hs₄

theorem rebuildWork_swapWord (s : State) : (rebuildWork s).swapWord = s.swapWord := by
  unfold rebuildWork
  generalize s.invalidRecords journalBase 4096 = jrnl
  generalize s.invalidRecords custodyBase 2048 = cust
  obtain ⟨ji, jn⟩ := jrnl
  obtain ⟨ci, cn⟩ := cust
  dsimp -zeta only
  extract_lets s₁ s₂ js own cs mine old order seq awq cu s₃ s₄ s₅
  have hs₁ : s₁.swapWord = s.swapWord := (put_swapWord (by decide) _ _).trans (put_swapWord (by decide) _ s)
  have hs₂ : s₂.swapWord = s.swapWord := by
    show (if jn + cn = 0 then s₁ else _ : State).swapWord = _
    split
    · exact hs₁
    · exact (raise_swapWord _ _).trans hs₁
  clear_value s₂
  have hdraw : (if order.isNone = true then s₂.draw else (0, s₂)).2.swapWord = s.swapWord := by
    split <;> exact hs₂
  have hs₅ : s₅.swapWord = s.swapWord := by
    refine (State.view_each State.swapWord (fun r t => queuePeat_swapWord _ t) _ s₄).trans ?_
    simp only [s₄, s₃]
    rw [put_swapWord (by decide), modWork_swapWord, hdraw]
  clear_value s₅
  rw [showWork_swapWord]
  split
  · exact hs₅
  · exact (raise_swapWord _ _).trans hs₅

end Sys2Proof.Machine
end

section
/-! O39, the clauses of K5. -/

namespace Sys2Proof.Machine

/-! ## Every section sound -/

theorem startScrub_get (f : Field) (s : State) : (startScrub s).get f = s.get f := rfl

theorem startScrub_hrt (s : State) : (startScrub s).hrt = { s.hrt with loaded := true, scrubAt := 0, scrubBad := [] } := rfl

/-- K5's tables leave page 0 active, and the scrubber at its first word (R285). -/
theorem loadTables_fields (s : State) : (loadTables s).get F.HRT_SWAP_ACTIVE_PAGE = 0 ∧ (loadTables s).hrt.scrubAt = 0 := by
  unfold loadTables
  extract_lets s₁ s₂ s₃
  have hpage : s₂.get F.HRT_SWAP_ACTIVE_PAGE = 0 := by
    rw [startScrub_get]
    exact State.get_put_lt (by decide) (by decide) s₁
  have hscrub : s₂.hrt.scrubAt = 0 := by rw [startScrub_hrt]
  have hword : s₃.swapWord = s₂.swapWord := (loadTeeth_swapWord _).trans (loadWheels_swapWord s₂)
  have hhrt : s₃.hrt = s₂.hrt := (hrt_same_of_hide (m := 1) rfl (loadTeeth_hide _ _ rfl)).trans
    (hrt_same_of_hide (m := 1) rfl (loadWheels_hide s₂ _ rfl))
  generalize ((s₃.sectionAt 4).map pageEntries).getD [] = entries
  clear_value s₂ s₃
  constructor
  · refine (State.get_of_reg ?_).trans hpage
    exact (loadData_swapWord _).trans ((loadPages_swapWord entries s₃).trans hword)
  · rw [hrt_same_of_hide (m := 17302657) rfl (loadData_hide _ _ rfl),
      hrt_same_of_hide (m := 1048641) rfl (loadPages_hide entries s₃ _ rfl), hhrt, hscrub]

/-! ## A section fails -/

/-- The copy that fails in K5, excluded from K4's choice and shown as LOAD_FAILED (R124). -/
def copyExcluded (k i : Nat) (s : State) : State :=
  ((kinFault kCRC corrected 0x12 (detail3 s.selected.toNat i) (if k = 1 then s else loadChannels s)).modNode fun x =>
    if s.selected then { x with excludedB := true } else { x with excludedA := true }).put
    (F.KIN_COPY_VERDICT s.selected.toNat) Verdict.loadFailed.code

theorem loadFailed_eq (k i : Nat) (s : State) : loadFailed k i s =
    if (copyExcluded k i s).bit F.KIN_STATUS_RETURNED = true then imageNone (copyExcluded k i s)
    else ((copyExcluded k i s).put F.KIN_STATUS_RETURNED 1).modNode fun x =>
      { x with phase := .k4, phaseAt := (copyExcluded k i s).cycles } := rfl

theorem modNode_kinWord (f : Node → Node) (s : State) : (s.modNode f).kinWord = s.kinWord := rfl

theorem loadChannels_kinWord (s : State) : (loadChannels s).kinWord = s.kinWord := by
  unfold loadChannels
  extract_lets b
  rw [modNode_kinWord]
  exact State.view_each State.kinWord (fun c s => loadChannel_kinWord c (chanEntry b c) s) _ s

theorem copyExcluded_kinWord (k i : Nat) (s : State) : (copyExcluded k i s).kinWord = s.kinWord := by
  have hverdict : 0x400E0000 ≠ (F.KIN_COPY_VERDICT s.selected.toNat).addr := by cases s.selected <;> decide
  rw [copyExcluded, put_kinWord hverdict, modNode_kinWord, kinFault, raise_kinWord, ite_kinWord, loadChannels_kinWord, ite_self]

/-- Beside the excluded copy the node takes at most its low-voltage outputs. -/
theorem copyExcluded_node (k i : Nat) (s : State) : ∃ lv, (copyExcluded k i s).node =
    { s.node with lvOn := lv, excludedA := s.node.excludedA || !s.selected, excludedB := s.node.excludedB || s.selected } := by
  have hload : ∃ lv, (if k = 1 then s else loadChannels s).node = { s.node with lvOn := lv } := by
    split
    · exact ⟨s.node.lvOn, rfl⟩
    · refine ⟨true, ?_⟩
      rw [loadChannels, State.modNode_node, State.each_keeps (P := fun t : State => t.node = s.node)
        (fun c _ t ht => (loadChannel_node c _ t).trans ht) rfl]
  obtain ⟨lv, hlv⟩ := hload
  refine ⟨lv, ?_⟩
  unfold copyExcluded
  rw [State.put_node, State.modNode_node, kinFault_node, hlv]
  cases s.selected <;> simp

end Sys2Proof.Machine

namespace Sys2Proof.Safety
open Sys2Proof.Machine

theorem exec_k5_of_none {bad : Option (Fin 64)} {s : State} (hk : s.kindles .k5 = true) (hp : s.node.plugPresent = true)
    (h : s.failsAt bad = none) : exec (.k5 bad) s =
      .next (endPhase F.KIN_TIME2_END_K5 .k6 (rebuildWork (loadTables (loadChannels s)))) := by
  refine (actWhen_of_true (by rw [hk, hp]; rfl) : execK5 bad s = _).trans ?_
  rw [h]

theorem exec_k5_of_some {bad : Option (Fin 64)} {s : State} (hk : s.kindles .k5 = true) (hp : s.node.plugPresent = true)
    {k i : Nat} (h : s.failsAt bad = some (k, i)) : exec (.k5 bad) s = .next (loadFailed k i s) := by
  refine (actWhen_of_true (by rw [hk, hp]; rfl) : execK5 bad s = _).trans ?_
  rw [h]

theorem exec_k5_of_sound {bad : Option (Fin 64)} {s : State} (hk : s.kindles .k5 = true) (hp : s.node.plugPresent = true)
    (hsound : s.failsAt bad = none) : ∃ t, exec (.k5 bad) s = .next t ∧ t.node.phase = .k6 ∧ t.node.lvOn = true ∧
      t.get F.HRT_SWAP_ACTIVE_PAGE = 0 ∧ t.hrt.scrubAt = 0 ∧ t.emb = s.emb ∧ t.plug = s.plug ∧ t.now = s.now := by
  have hrun := exec_k5_of_none hk hp hsound
  have hhide := execK5_hide bad s _ hrun
  refine ⟨_, hrun, ?_, ?_, ?_, ?_, emb_same_of_hide rfl hhide, plug_same_of_hide rfl hhide, now_same_of_hide rfl hhide⟩
  · rw [endPhase_node]
  · rw [endPhase_node, rebuildWork_node, loadTables_node]
    rfl
  · refine (endPhase_get_ne _ _ (by decide)).trans ((State.get_of_reg ?_).trans (loadTables_fields (loadChannels s)).1)
    exact rebuildWork_swapWord _
  · have hhrt : (endPhase F.KIN_TIME2_END_K5 .k6 (rebuildWork (loadTables (loadChannels s)))).hrt = (loadTables (loadChannels s)).hrt :=
      (hrt_same_of_hide (m := 17) rfl (endPhase_hide _ _ _ _ rfl)).trans
        (hrt_same_of_hide (m := 83886273) rfl (rebuildWork_hide _ _ rfl))
    rw [hhrt, (loadTables_fields _).2]

theorem exec_k5_of_first_failure {bad : Option (Fin 64)} {s : State} (hk : s.kindles .k5 = true) (hp : s.node.plugPresent = true)
    {k i : Nat} (hfail : s.failsAt bad = some (k, i)) (hret : s.bit F.KIN_STATUS_RETURNED = false) :
    ∃ t, exec (.k5 bad) s = .next t ∧ t.node.phase = .k4 ∧ t.node.kinHalted = false ∧ t.bit F.KIN_STATUS_RETURNED = true ∧
      (s.selected = false → t.node.excludedA = true) ∧ (s.selected = true → t.node.excludedB = true) ∧
      t.get (F.KIN_COPY_VERDICT s.selected.toNat) = Verdict.code .loadFailed := by
  obtain ⟨-, -, hhalt, -⟩ := (kindles_iff _ _).1 hk
  obtain ⟨lv, hnode⟩ := copyExcluded_node k i s
  have hret' : (copyExcluded k i s).bit F.KIN_STATUS_RETURNED = false :=
    (bit_of_kinWord (by decide) (copyExcluded_kinWord k i s)).trans hret
  refine ⟨((copyExcluded k i s).put F.KIN_STATUS_RETURNED 1).modNode fun x =>
      { x with phase := .k4, phaseAt := (copyExcluded k i s).cycles }, ?_, ?_⟩
  · rw [exec_k5_of_some hk hp hfail, loadFailed_eq, if_neg (ne_true_of_eq_false hret')]
  · rw [State.modNode_node, State.put_node, hnode]
    refine ⟨rfl, hhalt, ?_, fun h => ?_, fun h => ?_, ?_⟩
    · exact State.bit_putBit_same (by decide) (by decide) true (copyExcluded k i s)
    · simp [h]
    · simp [h]
    · rw [State.modNode_get, State.get_put_addr _ _ _ _ (by cases s.selected <;> decide)]
      exact State.get_put_lt (copyVerdict_fits _) (Verdict.code_lt _) _

theorem exec_k5_of_second_failure {bad : Option (Fin 64)} {s : State} (hk : s.kindles .k5 = true) (hp : s.node.plugPresent = true)
    {k i : Nat} (hfail : s.failsAt bad = some (k, i)) (hret : s.bit F.KIN_STATUS_RETURNED = true) :
    ∃ t, exec (.k5 bad) s = .next t ∧ t.node.phase = .k5 ∧ t.node.kinHalted = true := by
  obtain ⟨-, hphase, -⟩ := (kindles_iff _ _).1 hk
  obtain ⟨lv, hnode⟩ := copyExcluded_node k i s
  have hret' : (copyExcluded k i s).bit F.KIN_STATUS_RETURNED = true :=
    (bit_of_kinWord (by decide) (copyExcluded_kinWord k i s)).trans hret
  have hnone : (imageNone (copyExcluded k i s)).node = { (copyExcluded k i s).node with kinHalted := true } := kinFatal_node _ _ _ _
  refine ⟨imageNone (copyExcluded k i s), ?_, ?_, ?_⟩
  · rw [exec_k5_of_some hk hp hfail, loadFailed_eq, if_pos hret']
  · rw [hnone, hnode]
    exact hphase
  · rw [hnone]

end Sys2Proof.Safety
end

section
/-! WARM_RESTART (R127 to R130): the kind of restart, which Kindling's steps keep, and the clauses of O39. -/

namespace Sys2Proof.Machine

/-! ## The kind of restart -/

theorem kinFatal_kind (kind : BitVec 5) (reason : BitVec 8) (detail : BitVec 24) (s : State) :
    (kinFatal kind reason detail s).node.kind = s.node.kind := by rw [kinFatal_node]

theorem endPhase_kind (f : Field) (p : Phase) (s : State) : (endPhase f p s).node.kind = s.node.kind := by rw [endPhase_node]

theorem repairBanks_kind (map : List (Nat × Nat)) (ks : List Nat) (s : State) :
    (repairBanks map ks s).2.node.kind = s.node.kind := by
  induction ks generalizing s with
  | nil => rfl
  | cons k ks ih =>
    unfold repairBanks
    dsimp only
    split
    · exact kinFatal_kind _ _ _ s
    · rw [ih]
      split
      · rw [putRepair_node]
      · rw [kinFault_node, putRepair_node]

theorem rewriteIdents_kind (force : Bool) (b : List Byte) (grown : Bool) (map : List (Nat × Nat)) (other : Bool) (bad : Bool → Bool)
    (s : State) : (rewriteIdents force b grown map other bad s).node.kind = s.node.kind := by
  unfold rewriteIdents
  split
  · extract_lets seq new
    have hnode := commitIdent_node (!force) new (bad (!force)) s
    generalize commitIdent (!force) new (bad (!force)) s = r at hnode
    obtain ⟨ok, u⟩ := r
    dsimp only at hnode ⊢
    split
    · rw [commitIdent_node, State.modNode_node, hnode]
    · rw [State.modNode_node, hnode]
  · split
    · rw [commitIdent_node]
    · rfl

theorem k3_kind (warm : Bool) (bad : Bool → Bool) (s : State) : (k3 warm bad s).node.kind = s.node.kind := by
  unfold k3
  split
  · exact kinFatal_kind _ _ _ s
  · split
    · exact kinFatal_kind _ _ _ s
    · extract_lets a b
      split
      · exact kinFatal_kind _ _ _ s
      · next force ra rb _ =>
        extract_lets bytes s₁ address inForce
        split
        · exact kinFatal_kind _ _ _ s₁
        · have hrep := repairBanks_kind (if warm = true then inForce else s₁.node.ident.repair) (List.range 17) s₁
          generalize repairBanks (if warm = true then inForce else s₁.node.ident.repair) (List.range 17) s₁ = r at hrep
          obtain ⟨map, u⟩ := r
          dsimp -zeta only
          split
          · exact hrep
          · extract_lets grown kept
            exact (rewriteIdents_kind _ _ _ _ _ _ u).trans hrep

theorem k2Warm_kind (fails : List (Nat × Nat)) (s : State) : (k2Warm fails s).node.kind = s.node.kind := by
  unfold k2Warm
  extract_lets retain drop on s₁ spm s₂ bank march others s₃
  have hs₁ : s₁.node = s.node := by
    refine State.each_keeps (P := fun t : State => t.node = s.node) (fun b _ t ht => ?_) rfl
    show (if _ then drop b _ else _ : State).node = _
    split
    · rw [State.put_node, State.put_node, State.setOn_node, ht]
    · rw [State.put_node, State.setOn_node, ht]
  have hkind : s₁.node.kind = s.node.kind := by rw [hs₁]
  rw [State.put_node]
  refine State.each_keeps (P := fun t : State => t.node.kind = s.node.kind) (fun b _ t ht => ?_) hkind
  show (if _ then (if _ then t else _) else _ : State).node.kind = _
  split
  · split
    · exact ht
    · rw [State.modNode_node, State.put_node, State.clearBank_node]
      exact ht
  · rw [State.clearBank_node]
    exact ht

theorem takeCopy_kind (c : Bool) (s : State) : (takeCopy c s).node.kind = s.node.kind := by
  unfold takeCopy
  extract_lets level t
  rw [State.modNode_node, State.putBit_node]
  show t.node.kind = _
  simp only [t, State.put_node, State.putBit_node]

theorem k4_kind (s : State) : (k4 s).2.node.kind = s.node.kind := by
  cases h : s.chooseCopy (s.startVerdict false) (s.startVerdict true) with
  | none => rw [k4_of_none h, verdictsShown, showVerdict_node, showVerdict_node]
  | some c =>
    have hnode : (refuseOther (!c) (verdictsShown (some c) s)).node = s.node := by
      rw [refuseOther_node, verdictsShown, showVerdict_node, showVerdict_node]
    rw [k4_of_some h, takeCopy_kind, hnode]

theorem warmK6_kind (changed : Bool) (s : State) : (warmK6 changed s).node.kind = s.node.kind := by
  unfold warmK6
  extract_lets was known t
  have ht : t.node.kind = s.node.kind := by rw [show t.node = s.node from decideRom_node _ s]
  clear_value t
  split
  · exact endPhase_kind _ _ s
  · split
    · rw [sendConfig_node, State.modNode_node]
      exact ht
    · rw [endPhase_kind, ht]

theorem warmK0_kind (s : State) : (warmK0 s).node.kind = .warm := by
  unfold warmK0
  extract_lets
  rw [State.modNode_node]

theorem coldReset_kind_resetN (s : State) : (coldReset .resetN s).node.kind = .resetN := by
  unfold coldReset
  extract_lets
  rw [if_neg (by decide)]
  rfl

/-- The entry to K8 changes the phase and its time in the node, and no more. -/
theorem enterK8_node {wheels : State → State} (hw : ∀ s, (wheels s).node = s.node) (setNow again : Bool) (s : State) :
    (enterK8 wheels setNow again s).node = { s.node with phase := .k8, phaseAt := s.cycles } := by
  refine (enterK8_view State.node ?_ setNow again s).trans ?_
  · simp only [List.forall_mem_cons]
    exact ⟨startTasks_node, chanK8_node, hw, setNowAll_node, reapply_node, offerCustody_node, startRecord_node, startDist_node,
      queueStart_node, List.forall_mem_nil _⟩
  · rw [releaseEmbers_node, State.modNode_node]

/-! ## The run of a warm restart -/

/-- K2 and K3 of a warm restart, from its K0. -/
def warmIdent (fails : List (Nat × Nat)) (rb : BitVec 2) (s : State) : State :=
  k3 true (fun c => rb.getLsbD c.toNat) (endPhase F.KIN_TIME1_END_K2 .k3 (k2Warm fails (endPhase F.KIN_TIME0_END_K0 .k2 s)))

/-- K4 of a warm restart: the copy chosen and the node with it. -/
def warmChoice (fails : List (Nat × Nat)) (rb : BitVec 2) (s : State) : Option Bool × State :=
  k4 (endPhase F.KIN_TIME1_END_K3 .k4 (warmIdent fails rb s))

/-- K5 and K6 of a warm restart from the copy chosen. -/
def warmLoaded (s : State) : State :=
  warmK6 ((warmTables (endPhase F.KIN_TIME2_END_K4 .k5 s)).hvConfig != s.hvConfig)
    (endPhase F.KIN_TIME2_END_K5 .k6 (warmTables (endPhase F.KIN_TIME2_END_K4 .k5 s)))

theorem warmRun_of_halted {fails : List (Nat × Nat)} {rb : BitVec 2} {bad : Option (Fin 64)} {s : State}
    (h : (warmIdent fails rb s).node.kinHalted = true) : warmRun fails rb bad s = warmIdent fails rb s := if_pos h

/-- A warm restart with copy `c` chosen, from K4: its sections and its page checked, then K5, K6 and, where nothing is sent, K8. -/
def warmTake (running : Bool) (bad : Option (Fin 64)) (c : Bool) (u : State) : State :=
  if c = running then warmFailed (!running) 0xFF u
  else match u.failsAt bad with
    | some (_, i) => warmFailed (!running) i u
    | none =>
      if u.pageOk = false then warmFailed (!running) (u.psetIndex c 0) u
      else if (warmLoaded u).node.hvSent then warmLoaded u else warmK8 (warmLoaded u)

theorem warmTake_of_running (running : Bool) (bad : Option (Fin 64)) (u : State) :
    warmTake running bad running u = warmFailed (!running) 0xFF u := if_pos rfl

theorem warmTake_of_sound {running : Bool} {bad : Option (Fin 64)} {c : Bool} {u : State} (hne : c ≠ running)
    (hload : u.failsAt bad = none) (hpage : u.pageOk = true) : warmTake running bad c u =
      if (warmLoaded u).node.hvSent = true then warmLoaded u else warmK8 (warmLoaded u) := by
  rw [warmTake, if_neg hne, hload]
  exact if_neg (by rw [hpage]; decide)

/-- After K3 a warm restart goes on with the copy chosen, or fails where none is. -/
theorem warmRun_of_some {fails : List (Nat × Nat)} {rb : BitVec 2} {bad : Option (Fin 64)} {s : State} {c : Bool}
    (hh : (warmIdent fails rb s).node.kinHalted = false) (hc : (warmChoice fails rb s).1 = some c) :
    warmRun fails rb bad s = warmTake s.selected bad c (warmChoice fails rb s).2 := by
  refine (if_neg (ne_true_of_eq_false hh) : warmRun fails rb bad s = _).trans ?_
  change (match warmChoice fails rb s with
    | (some c, s) => _
    | (none, s) => _) = _
  generalize warmChoice fails rb s = r at hc
  obtain ⟨d, u⟩ := r
  subst hc
  rfl

theorem warmRun_of_none {fails : List (Nat × Nat)} {rb : BitVec 2} {bad : Option (Fin 64)} {s : State}
    (hh : (warmIdent fails rb s).node.kinHalted = false) (hc : (warmChoice fails rb s).1 = none) :
    warmRun fails rb bad s = warmFailed (!s.selected) 0xFF (warmChoice fails rb s).2 := by
  refine (if_neg (ne_true_of_eq_false hh) : warmRun fails rb bad s = _).trans ?_
  change (match warmChoice fails rb s with
    | (some c, s) => _
    | (none, s) => _) = _
  generalize warmChoice fails rb s = r at hc
  obtain ⟨d, u⟩ := r
  subst hc
  rfl

theorem warmRun_of_not_chosen {fails : List (Nat × Nat)} {rb : BitVec 2} {bad : Option (Fin 64)} {s : State}
    (hh : (warmIdent fails rb s).node.kinHalted = false)
    (hc : (warmChoice fails rb s).1 = none ∨ (warmChoice fails rb s).1 = some s.selected) :
    warmRun fails rb bad s = warmFailed (!s.selected) 0xFF (warmChoice fails rb s).2 := by
  rcases hc with hc | hc
  · exact warmRun_of_none hh hc
  · rw [warmRun_of_some hh hc, warmTake_of_running]

theorem warmChoice_kind (fails : List (Nat × Nat)) (rb : BitVec 2) (s : State) :
    (warmChoice fails rb s).2.node.kind = s.node.kind := by
  rw [warmChoice, k4_kind, endPhase_kind, warmIdent, k3_kind, endPhase_kind, k2Warm_kind, endPhase_kind]

theorem warmLoaded_kind (s : State) : (warmLoaded s).node.kind = s.node.kind := by
  rw [warmLoaded, warmK6_kind, endPhase_kind, warmTables_node, endPhase_kind]

theorem warmLoaded_phase (s : State) : (warmLoaded s).node.phase = .k6 := by
  have hcore := warmK6_core ((warmTables (endPhase F.KIN_TIME2_END_K4 .k5 s)).hvConfig != s.hvConfig)
    (endPhase F.KIN_TIME2_END_K5 .k6 (warmTables (endPhase F.KIN_TIME2_END_K4 .k5 s))) (by rw [endPhase_node])
  rw [endPhase_core] at hcore
  simp only [core_def, Prod.mk.injEq] at hcore
  obtain ⟨-, -, -, -, hphase, -⟩ := hcore
  exact hphase

theorem warmK8_node (s : State) : (warmK8 s).node = { s.node with phase := .k8, phaseAt := s.cycles } :=
  enterK8_node warmWheels_node s.node.hvSent false s

/-- A warm restart that fails is a reset of kind RESET_N (R130). -/
theorem warmFailed_node (activated : Bool) (index : Nat) (s : State) :
    (warmFailed activated index s).node.kind = .resetN ∧ (warmFailed activated index s).node.phase = .k0 := by
  obtain ⟨-, -, -, -, hphase⟩ := Safety.coldReset_fields .resetN (beforeReset s)
  unfold warmFailed
  rw [kinFault_node]
  exact ⟨coldReset_kind_resetN _, hphase⟩

end Sys2Proof.Machine

namespace Sys2Proof.Safety
open Sys2Proof.Machine

theorem exec_warmRestart {fails : List (Nat × Nat)} {rb : BitVec 2} {bad : Option (Fin 64)} {s : State} (hk : s.inK8 = true)
    (hdue : s.dist.warmDue = true) (hpwr : s.node.pwr = .none) :
    exec (.warmRestart fails rb bad) s = .next (warmRun fails rb bad (warmK0 s)) :=
  (actWhen_of_true (by rw [hk, hdue, hpwr]; rfl) : execWarmRestart fails rb bad s = _)

theorem exec_warmRestart_of_not_due {fails : List (Nat × Nat)} {rb : BitVec 2} {bad : Option (Fin 64)} {s : State}
    (h : s.inK8 = false ∨ s.dist.warmDue = false) : exec (.warmRestart fails rb bad) s = .next s :=
  (actWhen_of_false (by rcases h with h | h <;> simp [h]) : execWarmRestart fails rb bad s = _)

/-- Time, the MFE and the transactions under way go on over a warm restart. -/
theorem exec_warmRestart_keeps {fails : List (Nat × Nat)} {rb : BitVec 2} {bad : Option (Fin 64)} {s t : State}
    (h : exec (.warmRestart fails rb bad) s = .next t) : t.now = s.now ∧ t.mfe = s.mfe ∧ t.pending = s.pending :=
  have hhide := execWarmRestart_hide fails rb bad s t h
  ⟨now_same_of_hide rfl hhide, mfe_same_of_hide rfl hhide, pending_same_of_hide rfl hhide⟩

theorem exec_warmRestart_of_sound {fails : List (Nat × Nat)} {rb : BitVec 2} {bad : Option (Fin 64)} {s : State} {c : Bool}
    (hk : s.inK8 = true) (hdue : s.dist.warmDue = true) (hpwr : s.node.pwr = .none)
    (hh : (warmIdent fails rb (warmK0 s)).node.kinHalted = false) (hc : (warmChoice fails rb (warmK0 s)).1 = some c)
    (hne : c ≠ (warmK0 s).selected) (hload : (warmChoice fails rb (warmK0 s)).2.failsAt bad = none)
    (hpage : (warmChoice fails rb (warmK0 s)).2.pageOk = true) :
    ∃ t, exec (.warmRestart fails rb bad) s = .next t ∧ t.node.kind = .warm ∧ (t.node.phase = .k6 ∨ t.node.phase = .k8) ∧
      t.now = s.now ∧ t.mfe = s.mfe ∧ t.pending = s.pending := by
  have hrun := exec_warmRestart (fails := fails) (rb := rb) (bad := bad) hk hdue hpwr
  have hkind : (warmLoaded (warmChoice fails rb (warmK0 s)).2).node.kind = .warm :=
    (warmLoaded_kind _).trans ((warmChoice_kind fails rb _).trans (warmK0_kind s))
  refine ⟨_, hrun, ?_, ?_, exec_warmRestart_keeps hrun⟩
  all_goals rw [warmRun_of_some hh hc, warmTake_of_sound hne hload hpage]
  · split
    · exact hkind
    · rw [warmK8_node]
      exact hkind
  · split
    · exact Or.inl (warmLoaded_phase _)
    · rw [warmK8_node]
      exact Or.inr rfl

theorem exec_warmRestart_of_not_chosen {fails : List (Nat × Nat)} {rb : BitVec 2} {bad : Option (Fin 64)} {s : State}
    (hk : s.inK8 = true) (hdue : s.dist.warmDue = true) (hpwr : s.node.pwr = .none)
    (hh : (warmIdent fails rb (warmK0 s)).node.kinHalted = false)
    (hc : (warmChoice fails rb (warmK0 s)).1 = none ∨ (warmChoice fails rb (warmK0 s)).1 = some (warmK0 s).selected) :
    ∃ t, exec (.warmRestart fails rb bad) s = .next t ∧ t.node.kind = .resetN ∧ t.node.phase = .k0 ∧ t.mfe = s.mfe ∧
      t.pending = s.pending := by
  have hrun := exec_warmRestart (fails := fails) (rb := rb) (bad := bad) hk hdue hpwr
  rw [warmRun_of_not_chosen hh hc] at hrun
  obtain ⟨hkind, hphase⟩ := warmFailed_node (!(warmK0 s).selected) 0xFF (warmChoice fails rb (warmK0 s)).2
  obtain ⟨-, hmfe, hpending⟩ := exec_warmRestart_keeps hrun
  exact ⟨_, hrun, hkind, hphase, hmfe, hpending⟩

/-- Settles O39: each phase from K4 to K8, MFE_ABSENT and WARM_RESTART as the change its command makes. -/
theorem kindlingK4toK8 : Obligations.KindlingK4toK8 := by
  unfold Obligations.KindlingK4toK8
  refine ⟨fun s hk => ⟨fun c h => completes_k4_of_some hk h, chooseCopy_eq_none _ _ s, fun h => completes_k4_of_none hk h⟩,
    fun bad s hk hp => ⟨fun h => exec_k5_of_sound hk hp h, fun k i h hret => exec_k5_of_first_failure hk hp h hret,
      fun k i h hret => exec_k5_of_second_failure hk hp h hret⟩,
    fun s hk hkind => ⟨fun hidle hsent => completes_k6_of_sent hk hkind hidle hsent,
      fun hidle hsent hl hroom => completes_k6_of_linked hk hkind hidle hsent hl hroom,
      fun hl ht => completes_mfeAbsent hk hkind hl ht⟩,
    fun s hk => ⟨fun hhb => completes_k7 hk hhb, fun _ hins ht => exec_k8_of_waiting hins ht,
      fun hhb hdue => exec_k8_runs hk hhb hdue⟩,
    fun fails rb bad s hk hdue hpwr => ⟨fun hh => ?_,
      fun c hh hc hne hload hpage => exec_warmRestart_of_sound hk hdue hpwr hh hc hne hload hpage,
      fun hh hc => exec_warmRestart_of_not_chosen hk hdue hpwr hh hc⟩,
    fun fails rb bad s h => exec_warmRestart_of_not_due h⟩
  rw [exec_warmRestart hk hdue hpwr, warmRun_of_halted hh]
  rfl

end Sys2Proof.Safety
end

section
/-! The canonical form of scratchpad, plug and connection memory (log entry 3) through every shared operation of the model: an
operation that writes none of the three leaves them (`_mems`), one that writes keeps their form (`_formed`). The headings
are those of the frame lemmas. -/

namespace Sys2Proof.Machine
open Safety
set_option maxRecDepth 100000

/-- What the three addressed memories hold. -/
def State.memories (s : State) : List (Nat × Byte) × List (Nat × Byte) × List (Nat × Word) :=
  (s.spm.mem, s.plug.mem, s.tsi.cm)

/-- The memories, seen through the frame of everything else: the parts other than scratchpad, plug and TSI are set aside, so
that the `_hide` lemma of an operation that touches none of the three rewrites it away. -/
@[simp] abbrev State.mems (s : State) : List (Nat × Byte) × List (Nat × Byte) × List (Nat × Word) :=
  (s.hide 258997247).memories

/-- Each of the three stands in its canonical form. -/
def Formed (m : List (Nat × Byte) × List (Nat × Byte) × List (Nat × Word)) : Prop :=
  tabWf 0 m.1 = true ∧ tabWf 0 m.2.1 = true ∧ tabWf 0 m.2.2 = true

theorem State.mems_eq (s : State) : s.mems = (s.spm.mem, s.plug.mem, s.tsi.cm) := rfl

theorem formed_iff (s : State) : Formed s.mems ↔ memoriesOk s := Iff.rfl

@[simp] theorem mems_spm (s : State) (v : Scratchpad) (h : v.mem = s.spm.mem) :
    ({ s with spm := v } : State).mems = s.mems := by
  rw [State.mems_eq, State.mems_eq, ← h]
@[simp] theorem mems_tsi (s : State) (v : Tsi) (h : v.cm = s.tsi.cm) : ({ s with tsi := v } : State).mems = s.mems := by
  rw [State.mems_eq, State.mems_eq, ← h]
@[simp] theorem mems_plug (s : State) (v : Plug) (h : v.mem = s.plug.mem) : ({ s with plug := v } : State).mems = s.mems := by
  rw [State.mems_eq, State.mems_eq, ← h]

@[simp] theorem modTsi_mems (s : State) (f : Tsi → Tsi) (h : (f s.tsi).cm = s.tsi.cm) : (s.modTsi f).mems = s.mems :=
  mems_tsi s _ h

theorem each_mems {α : Type} (l : List α) (f : α → State → State) (s : State) (h : ∀ a s, (f a s).mems = s.mems) :
    (s.each l f).mems = s.mems := by
  unfold State.each
  induction l generalizing s with
  | nil => rfl
  | cons a l ih => rw [List.foldl_cons, ih, h]
theorem when_mems (c : Bool) (f : State → State) (s : State) (h : (f s).mems = s.mems) :
    (s.when c f).mems = s.mems := by
  unfold State.when; split
  · exact h
  · rfl
theorem each_formed {α : Type} (l : List α) (f : α → State → State) (h : ∀ a s, Formed s.mems → Formed (f a s).mems) {s : State}
    (hs : Formed s.mems) : Formed (s.each l f).mems := by
  unfold State.each
  induction l generalizing s with
  | nil => exact hs
  | cons a l ih => exact ih (h a s hs)
theorem when_formed (c : Bool) (f : State → State) {s : State} (h : Formed s.mems → Formed (f s).mems) (hs : Formed s.mems) :
    Formed (s.when c f).mems := by
  unfold State.when; split
  · exact h hs
  · exact hs

@[simp] theorem spmStore_formed (p : Nat) (bs : List Byte) {s : State} (h : Formed s.mems) : Formed (s.spmStore p bs).mems :=
  spmStore_memoriesOk p bs h
@[simp] theorem clearBank_formed (b : Nat) {s : State} (h : Formed s.mems) : Formed (s.clearBank b).mems :=
  clearBank_memoriesOk b h
@[simp] theorem undefineBank_formed (b reached : Nat) {s : State} (h : Formed s.mems) :
    Formed (s.undefineBank b reached).mems :=
  undefineBank_memoriesOk b reached h
@[simp] theorem writePlug_formed (a : Nat) (bs : List Byte) {s : State} (h : Formed s.mems) : Formed (writePlug a bs s).mems :=
  writePlug_memoriesOk a bs h
@[simp] theorem setPage_formed (page : Bool) (entries : List (Nat × Word)) {s : State} (h : Formed s.mems) :
    Formed (setPage page entries s).mems := setPage_memoriesOk page entries h
@[simp] theorem putEntry_formed (page : Bool) (port slot : Nat) (w : Word) {s : State} (h : Formed s.mems) :
    Formed (putEntry page port slot w s).mems := putEntry_memoriesOk page port slot w h

theorem formed_of_ite {c : Prop} [Decidable c] {s t : State} (hs : c → Formed s.mems) (ht : ¬ c → Formed t.mems) :
    Formed (if c then s else t).mems := by
  split
  · exact hs ‹_›
  · exact ht ‹_›

theorem formed_of_pair {α : Type} {x : α × State} {a : α} {t : State} (hx : x = (a, t)) (h : Formed x.2.mems) :
    Formed t.mems := by
  subst hx
  exact h

@[simp] theorem ite_memories {c : Prop} [Decidable c] (s t : State) :
    (if c then s else t).memories = if c then s.memories else t.memories := apply_ite _ _ _ _
@[simp] theorem formed_ite {c : Prop} [Decidable c] (m n : List (Nat × Byte) × List (Nat × Byte) × List (Nat × Word)) :
    Formed (if c then m else n) ↔ (c → Formed m) ∧ (¬ c → Formed n) := by
  split
  · next h => simp [h]
  · next h => simp [h]

/-- An operation that touches neither scratchpad, plug nor TSI keeps the form. -/
theorem Formed.keep {s t : State} {k : Nat} (hs : Formed s.mems) (ht : ∀ m, m &&& k = k → t.hide m = s.hide m)
    (hk : 258997247 &&& k = k) : Formed t.mems := by
  rw [State.mems, ht _ hk]
  exact hs

theorem Formed.spm {s : State} {v : Scratchpad} (hs : Formed s.mems) (hv : v.mem = s.spm.mem) :
    Formed ({ s with spm := v } : State).mems := by
  rwa [mems_spm s v hv]

theorem Formed.plug {s : State} {v : Plug} (hs : Formed s.mems) (hv : v.mem = s.plug.mem) :
    Formed ({ s with plug := v } : State).mems := by
  rwa [mems_plug s v hv]

theorem Formed.tsi {s : State} {v : Tsi} (hs : Formed s.mems) (hv : v.cm = s.tsi.cm) :
    Formed ({ s with tsi := v } : State).mems := by
  rwa [mems_tsi s v hv]

/-! ## Scratch -/

@[simp] theorem checkWord_mems (a m acc : Nat) (s : State) : (s.checkWord a m acc).2.mems = s.mems := by
  simp [State.checkWord, -State.put_rest, -State.put_node, -State.count_rest]

@[simp] theorem spmRead_mems (m a n : Nat) (s : State) : (State.spmRead m a n s).2.2.mems = s.mems := by
  simp [State.spmRead]

@[simp] theorem spmWrite_formed (m a n v : Nat) {s : State} (h : Formed s.mems) : Formed (s.spmWrite m a n v).2.mems := by
  have hc := checkWord_mems (s.fold a) m 2 s
  unfold State.spmWrite
  dsimp only
  repeat' split
  all_goals grind [State.offAccess_hide, spmStore_formed]

@[simp] theorem spmReadBlock_mems (m a k : Nat) (s : State) : (s.spmReadBlock m a k).2.2.mems = s.mems := by
  induction k generalizing a s with
  | zero => rfl
  | succ k ih =>
    have hr := spmRead_mems m a 8 s
    unfold State.spmReadBlock
    split <;> grind

@[simp] theorem spmWriteBlock_formed (m a : Nat) (ws : List (List Byte)) {s : State} (h : Formed s.mems) :
    Formed (s.spmWriteBlock m a ws).2.mems := by
  induction ws generalizing a s with
  | nil => exact h
  | cons w ws ih =>
    have hw := spmWrite_formed m a 8 (ofLe w) h
    unfold State.spmWriteBlock
    split <;> grind

@[simp] theorem noteGrant_mems (b g cyc : Nat) (s : State) : (State.noteGrant b g cyc s).mems = s.mems := by
  unfold State.noteGrant
  repeat' split
  all_goals simp

@[simp] theorem each_when_count_hide (l : List Nat) (c : Nat → Bool) (f : Nat → Field) (k : Nat) (s : State) (m : Nat)
    (hm : m &&& 1 = 1) : (s.each l fun x s => s.when (c x) (State.count (f x) k)).hide m = s.hide m :=
  State.each_hide l _ s m fun _ s => State.when_hide _ _ s m fun s => State.count_hide _ k s m hm

@[simp] theorem grant_mems (b m cyc : Nat) (others : BitVec 9) (s : State) : (s.grant b m cyc others).2.mems = s.mems := by
  have hn (g c : Nat) := noteGrant_mems b g c s
  unfold State.grant
  dsimp only
  repeat' split
  all_goals simp

@[simp] theorem powerBank_formed (b q reached : Nat) {s : State} (h : Formed s.mems) :
    Formed (powerBank b q reached s).mems := by
  have hw (s : State) (w : Vector (Option Wake) 17) (t : Vector Nat 17) :
      ({ s with spm := { s.spm with wake := w, wakeAt := t } } : State).mems = s.mems := mems_spm s _ rfl
  unfold powerBank
  dsimp only
  repeat' split
  · refine undefineBank_formed _ _ (clearBank_formed _ ?_)
    rw [hw]
    simpa using h
  · rw [hw]
    simpa using h
  · rw [hw]
    exact clearBank_formed _ (by simpa using h)
  · rw [hw]
    simpa using h
  · exact clearBank_formed _ (by simpa using h)
  · rw [hw]
    simpa using h
  · exact h

@[simp] theorem writePower_formed (hi : Bool) (v : Word) (reached : Nat) {s : State} (h : Formed s.mems) :
    Formed (writePower hi v reached s).mems := by
  unfold writePower
  split
  · exact powerBank_formed _ _ _ h
  · exact each_formed _ _ (fun b _ hs => powerBank_formed b _ _ hs) h

@[simp] theorem wakeBank_formed (b : Fin 17) {s : State} (h : Formed s.mems) : Formed (wakeBank b s).mems := by
  unfold wakeBank
  split
  · exact h
  · refine Formed.keep ?_ (State.setOn_hide _ _ _) rfl
    exact when_formed _ _ (clearBank_formed b) (h.spm rfl)

@[simp] theorem foundRow_mems (b row : Nat) (s : State) : (foundRow b row s).mems = s.mems := by
  simp [foundRow]

@[simp] theorem marchTake_formed (b : Nat) {s : State} (h : Formed s.mems) : Formed (marchTake b s).mems := by
  unfold marchTake
  dsimp only
  split
  · refine each_formed _ _ (fun w s hs => ?_) (h.spm rfl)
    rw [foundRow_mems]
    simpa [State.spmFault] using hs
  · exact clearBank_formed _ (h.spm rfl)

@[simp] theorem marchNext_formed (bs : List Nat) {s : State} (h : Formed s.mems) : Formed (marchNext bs s).mems := by
  induction bs generalizing s with
  | nil => exact h.spm rfl
  | cons b bs ih =>
    unfold marchNext
    dsimp only
    split
    · exact marchTake_formed _ (h.spm rfl)
    · refine ih ?_
      simpa using h

@[simp] theorem tickMarch_formed {s : State} (h : Formed s.mems) : Formed (tickMarch s).mems := by
  simp [tickMarch, h]

@[simp] theorem writeMarch_formed (v : Word) {s : State} (h : Formed s.mems) : Formed (writeMarch v s).mems := by
  unfold writeMarch
  dsimp only
  split
  · simpa using h
  · exact marchNext_formed _ (Formed.spm (by simpa using h) rfl)

/-! ## Geyser -/

@[simp] theorem readDesc_mems (g : Fin 8) (addr k : Nat) (s : State) : (readDesc g addr k s).2.mems = s.mems := by
  induction k generalizing addr s with
  | zero => rfl
  | succ k ih =>
    have hr := spmRead_mems 4 addr 8 s
    unfold readDesc
    split <;> grind [geyserCharge_hide]

@[simp] theorem geyserCheck_mems (g : Fin 8) (addr pos : Nat) (outs : List Nat) (full : Bool) (s : State) :
    (geyserCheck g addr pos outs full s).2.mems = s.mems := by
  have hr := readDesc_mems g addr 6 (s.put (F.GSR_CUR_ADDR g) addr)
  have hp : (s.put (F.GSR_CUR_ADDR g) addr).mems = s.mems := by simp
  unfold geyserCheck
  split
  · simp
  split
  · simp
  dsimp only
  split
  · next heq =>
    rw [heq] at hr
    split <;> simpa using hr.trans hp
  · next heq =>
    rw [heq] at hr
    simpa using hr.trans hp

@[simp] theorem geyserStart_mems (g : Fin 8) (addr : Nat) (s : State) : (geyserStart g addr s).2.mems = s.mems := by
  unfold geyserStart
  repeat' split
  all_goals grind [geyserCheck_mems]

@[simp] theorem geyserResume_mems (g : Fin 8) (s : State) : (geyserResume g s).mems = s.mems := by
  simp [geyserResume]

/-! ## ChannelIo -/

@[simp] theorem logEdge_formed (c : Fin 64) (t : SysTime) (level : Bool) {s : State} (h : Formed s.mems) :
    Formed (logEdge c t level s).mems := by
  unfold logEdge
  refine formed_of_ite (fun _ => ?_) fun _ => ?_
  · simpa using h
  · extract_lets rec_
    split
    · next heq => simpa using formed_of_pair heq (spmWrite_formed 5 _ 8 _ h)
    · next heq => simpa using formed_of_pair heq (spmWrite_formed 5 _ 8 _ h)

@[simp] theorem modeEdge_formed (c : Fin 64) (t : SysTime) (level : Bool) {s : State} (h : Formed s.mems) :
    Formed (modeEdge c t level s).mems := by
  have hmod (f : Chan → Chan) {s : State} (h : Formed s.mems) : Formed (s.modC c f).mems := h.keep (State.modC_hide _ _ _) rfl
  have hres (r0 r1 : Nat) (edge : Bool) {s : State} (h : Formed s.mems) : Formed (chanResult c t r0 r1 edge s).mems :=
    h.keep (chanResult_hide _ _ _ _ _ _) rfl
  unfold modeEdge
  extract_lets m n s1
  have h1 : Formed s1.mems := hmod _ h
  clear_value s1
  refine formed_of_ite (fun _ => hres _ _ _ h1) fun _ => formed_of_ite (fun _ => hres _ _ _ (hmod _ h1)) fun _ =>
    formed_of_ite (fun _ => ?_) fun _ => formed_of_ite (fun _ => hmod _ (hres _ _ _ h1)) fun _ =>
      formed_of_ite (fun _ => (hres _ _ _ h1).keep (feedWheels_hide _ _ _ _) rfl) fun _ =>
        formed_of_ite (fun _ => logEdge_formed _ _ _ (h1.keep (State.chEvent_hide _ _ _) rfl)) fun _ => h1
  refine formed_of_ite (fun _ => hmod _ h1) fun _ => ?_
  split
  · exact hmod _ h1
  · exact hres _ _ _ (hmod _ h1)

@[simp] theorem takeEdge_formed (c : Fin 64) (level : Bool) (t : SysTime) {s : State} (h : Formed s.mems) :
    Formed (takeEdge c level t s).mems := by
  unfold takeEdge
  dsimp only
  repeat' split
  all_goals grind [State.putBit_hide, modeEdge_formed, State.when]

/-! ## Tsi -/

@[simp] theorem noteBad_mems (port slot : Nat) (w : Word) (s : State) : (noteBad port slot w s).mems = s.mems := by
  simp [noteBad]

@[simp] theorem writeCmData_formed (v : Word) {s : State} (h : Formed s.mems) : Formed (writeCmData v s).mems := by
  simp [writeCmData, h]

@[simp] theorem requestSwap_mems (s : State) : (requestSwap s).mems = s.mems := by
  simp [requestSwap]

@[simp] theorem dropSwap_mems (s : State) : (dropSwap s).mems = s.mems := by
  simp [dropSwap]

@[simp] theorem cancelSwap_mems (s : State) : (cancelSwap s).mems = s.mems := by
  simp [cancelSwap]

@[simp] theorem requestCopy_mems (s : State) : (requestCopy s).mems = s.mems := by
  simp [requestCopy]

@[simp] theorem writeTsiCtl_mems (v : Word) (s : State) : (writeTsiCtl v s).mems = s.mems := by
  simp [writeTsiCtl]

@[simp] theorem swapDone_mems (s : State) : (swapDone s).mems = s.mems := by
  simp [swapDone]

@[simp] theorem portSwap_mems (p : Fin 4) (n : Nat) (s : State) : (portSwap p n s).mems = s.mems := by
  unfold portSwap
  repeat' split
  all_goals simp

@[simp] theorem loadPage_formed (page : Bool) (entries : List (Nat × Nat × Word)) {s : State} (h : Formed s.mems) :
    Formed (loadPage page entries s).mems := by
  refine each_formed _ _ (fun e s hs => ?_) (setPage_formed _ _ (h.tsi rfl))
  split
  · exact putEntry_formed _ _ _ _ hs
  · exact hs

@[simp] theorem loadPages_formed (entries : List (Nat × Nat × Word)) {s : State} (h : Formed s.mems) :
    Formed (loadPages entries s).mems := by
  exact loadPage_formed _ _ ⟨h.1, h.2.1, rfl⟩

/-! ## Flue -/

@[simp] theorem appTake_mems (k : Nat) (s : State) : (appTake k s).2.mems = s.mems := by
  induction k generalizing s with
  | zero => rfl
  | succ k ih =>
    unfold appTake
    split
    · rfl
    · extract_lets i
      have hr := spmReadBlock_mems 8 (s.get F.FLUE_APPQ_BASE_BASE / 32 * 32 + 32 * i) 3 s
      split
      · next b s1 heq =>
        rw [heq] at hr
        dsimp only at hr ⊢
        split
        · simpa [ih] using hr
        · simpa using hr
      · next heq =>
        rw [heq] at hr
        simpa using hr

@[simp] theorem takeCell_mems (s : State) : (takeCell s).2.mems = s.mems := by
  have ha := appTake_mems 256 s
  unfold takeCell
  split
  · simp
  split
  · next heq => rwa [heq] at ha
  · next heq =>
    rw [heq] at ha
    split
    · simpa using ha
    · simpa using ha
    · exact ha

@[simp] theorem lineCellStep_mems (dir : Nat) (open_ : Bool) (c : List Byte) (s : State) :
    (lineCellStep dir open_ c s).2.mems = s.mems := by
  unfold lineCellStep
  extract_lets type
  split
  next inj s1 heq1 =>
  have h1 : s1.mems = s.mems := by
    split at heq1
    · cases heq1; rfl
    · have hi := State.inject_hide 0x0A dir s 258997247 (by decide)
      rw [heq1] at hi
      exact congrArg State.memories hi
  clear heq1
  split
  next c1 freed s2 heq2 =>
  have h2 : s2.mems = s.mems := by
    rw [← h1]
    repeat' split at heq2
    all_goals cases heq2
    all_goals simp
  clear heq2
  have ht := takeCell_mems s2
  split
  · split
    · next heq => rw [← h2, ← ht, heq]
    · next heq =>
      rw [heq] at ht
      simpa [h2] using ht
  · exact h2

@[simp] theorem lineCells_mems (dir : Nat) (open_ : Bool) (cs : List (List Byte)) (s : State) :
    (lineCells dir open_ cs s).2.mems = s.mems := by
  induction cs generalizing s with
  | nil => rfl
  | cons c cs ih =>
    unfold lineCells
    dsimp only
    grind [lineCellStep_mems, toTxd_hide]

/-! ## Image -/

@[simp] theorem writeCommit_formed (c : Bool) (commit seq act source : Nat) {s : State} (h : Formed s.mems) :
    Formed (writeCommit c commit seq act source s).mems := by
  simp [writeCommit, h]

@[simp] theorem rewriteCommit_formed (c : Bool) (commit act : Nat) {s : State} (h : Formed s.mems) :
    Formed (rewriteCommit c commit act s).mems := by
  simp [rewriteCommit, h]

/-! ## Work -/

@[simp] theorem writeCompletion_formed (r : CRec) {s : State} (h : Formed s.mems) : Formed (writeCompletion r s).mems := by
  unfold writeCompletion
  refine formed_of_ite (fun _ => h) fun _ => formed_of_ite (fun _ => ?_) fun _ => ?_
  · simpa using h
  · extract_lets num lo
    split
    · next heq => exact (formed_of_pair heq (spmWriteBlock_formed 6 _ _ h)).keep (State.put_hide _ _ _) rfl
    · next heq => exact (formed_of_pair heq (spmWriteBlock_formed 6 _ _ h)).keep (State.put_hide _ _ _) rfl

@[simp] theorem endEntry_formed (slot : Nat) {s : State} (h : Formed s.mems) : Formed (endEntry slot s).mems := by
  unfold endEntry
  split
  · exact h
  · refine formed_of_ite (fun _ => h) fun _ => ?_
    refine (writeCompletion_formed _ ?_).keep (queuePeat_hide _ _) rfl
    refine when_formed _ _ (fun h => h.keep (State.wrkEvent_hide _ _ _) rfl) ?_
    split <;> simpa using h

@[simp] theorem takeReport_formed (c : List Byte) {s : State} (h : Formed s.mems) : Formed (takeReport c s).mems := by
  unfold takeReport
  repeat' split
  all_goals simp [h]

@[simp] theorem writeAbandon_formed (v : Word) {s : State} (h : Formed s.mems) : Formed (writeAbandon v s).mems := by
  unfold writeAbandon
  dsimp only
  split
  · simpa using h
  · refine Formed.keep (Formed.keep ?_ (wrkFault_hide _ _ _ _) rfl) (showWork_hide _) rfl
    exact each_formed _ _ (fun r s hs => endEntry_formed _ (by simpa using hs)) (by simpa using h)

@[simp] theorem committed_formed (j : PeatJob) {s : State} (h : Formed s.mems) : Formed (committed j s).mems := by
  unfold committed
  extract_lets s1 quiet
  have h1 : Formed s1.mems := when_formed _ _ (fun h => h.keep (State.count_hide _ _ _) rfl) h
  clear_value s1 quiet
  split
  · split
    · exact h1
    · split <;> simpa using h1
  · split
    · exact h1
    · split <;> simpa using h1
  · extract_lets s2
    have h2 : Formed s2.mems := h1.keep (modCustody_hide _ _ _) rfl
    clear_value s2
    split
    · exact h2
    · refine endEntry_formed _ ?_
      split <;> split <;> simpa using h2
  · simpa using h1

@[simp] theorem commitNext_formed (fails : Nat) {s : State} (h : Formed s.mems) : Formed (commitNext fails s).mems := by
  have hdone (j : PeatJob) {s : State} (h : Formed s.mems) : Formed (showWork (refillPeat (committed j s))).mems :=
    Formed.keep ((committed_formed j h).keep (refillPeat_hide _) rfl) (showWork_hide _) rfl
  unfold commitNext
  split
  · exact h
  · next j l _ =>
    extract_lets s1
    have h1 : Formed s1.mems := h.keep (State.modWork_hide _ _) rfl
    clear_value s1
    have hw : Formed (writePlug (jobBytes j s1).1.1 (jobBytes j s1).1.2 (jobBytes j s1).2).mems :=
      writePlug_formed _ _ (h1.keep (jobBytes_hide _ _) rfl)
    dsimp only
    generalize writePlug (jobBytes j s1).1.1 (jobBytes j s1).1.2 (jobBytes j s1).2 = s2 at hw ⊢
    split
    · exact hdone j (hw.keep (State.inject_hide _ _ _) rfl)
    · split
      · exact hdone j (by simpa using hw)
      · simpa using hw

@[simp] theorem commitAll_formed {s : State} (h : Formed s.mems) : Formed (commitAll s).mems := by
  unfold commitAll
  grind [commitNext_formed]

/-! ## Apply -/

@[simp] theorem applyValue_formed (r : JRec) {s : State} (h : Formed s.mems) : Formed (applyValue r s).mems := by
  unfold applyValue
  extract_lets i a
  have hw := spmWriteBlock_formed 6 a [leBytes 8 i.arg2.toNat, leBytes 8 i.due.toNat] h
  split
  · next heq => simpa using formed_of_pair heq hw
  · next heq => simpa using formed_of_pair heq hw

@[simp] theorem applyAgain_formed (k : Nat) {s : State} (h : Formed s.mems) : Formed (applyAgain k s).mems := by
  induction k generalizing s with
  | zero => exact h
  | succ k ih =>
    unfold applyAgain
    split
    · exact h
    · exact formed_of_ite (fun _ => h) fun _ => formed_of_ite (fun _ => ih (h.keep (applyInsert_hide _ _) rfl)) fun _ =>
        formed_of_ite (fun _ => ih (h.keep (applyCancel_hide _ _) rfl)) fun _ =>
          formed_of_ite (fun _ => ih (applyValue_formed _ h)) fun _ => ih (h.keep (carriedOut_hide _ _ _) rfl)

@[simp] theorem reapply_formed {s : State} (h : Formed s.mems) : Formed (reapply s).mems := by
  simp [reapply, h]

/-! ## RingFrame -/

@[simp] theorem cmCheck_mems (page : Bool) (port slot : Nat) (s : State) : (cmCheck page port slot s).2.mems = s.mems := by
  simp [cmCheck]

@[simp] theorem buildSlot_mems (p : Fin 4) (slot : Nat) (s : State) : (buildSlot p slot s).2.mems = s.mems := by
  unfold buildSlot
  repeat' split
  all_goals grind [cmCheck_mems, modTsi_mems, State.count_hide]

/-- `f` keeps the memories of the state that stands last in its accumulator. -/
theorem foldl5_mems {α β γ δ ε : Type} (l : List ε) (f : α × β × γ × δ × State → ε → α × β × γ × δ × State)
    (a : α × β × γ × δ × State) (hf : ∀ a e, (f a e).2.2.2.2.mems = a.2.2.2.2.mems) :
    (l.foldl f a).2.2.2.2.mems = a.2.2.2.2.mems := by
  induction l generalizing a with
  | nil => rfl
  | cons e l ih => rw [List.foldl_cons, ih, hf]

@[simp] theorem buildSlots_mems (p : Fin 4) (s : State) : (buildSlots p s).2.mems = s.mems := by
  unfold buildSlots
  dsimp only
  rw [State.mems, State.modPort_hide _ _ _ _ (by decide)]
  refine foldl5_mems _ _ _ fun a k => ?_
  dsimp only
  split <;> simp

@[simp] theorem buildCells_mems (p : Fin 4) (s : State) : (buildCells p s).2.mems = s.mems := by
  simp [buildCells]

@[simp] theorem buildBody_mems (p : Fin 4) (s : State) : (buildBody p s).2.mems = s.mems := by
  simp [buildBody]

@[simp] theorem beginFrame_mems (p : Fin 4) (stamp : SysTime) (s : State) : (beginFrame p stamp s).2.mems = s.mems := by
  simp [beginFrame]

@[simp] theorem buildFrame_mems (p : Fin 4) (stamp : SysTime) (slips : List (Fin 4)) (s : State) :
    (buildFrame p stamp slips s).mems = s.mems := by
  simp [buildFrame]

/-! ## Dist -/

@[simp] theorem startReceiving_formed (c : List Byte) (seq : Nat) {s : State} (h : Formed s.mems) :
    Formed (startReceiving c seq s).mems := by
  simp [startReceiving, h]

@[simp] theorem acceptImageOffer_formed (c : List Byte) {s : State} (h : Formed s.mems) :
    Formed (acceptImageOffer c s).mems := by
  simp [acceptImageOffer, h]

@[simp] theorem takeImageOffer_formed (c : List Byte) {s : State} (h : Formed s.mems) : Formed (takeImageOffer c s).mems := by
  unfold takeImageOffer
  repeat' split
  all_goals simp [h]

@[simp] theorem verifyImage_formed {s : State} (h : Formed s.mems) : Formed (verifyImage s).mems := by
  unfold verifyImage
  dsimp only
  repeat' split
  all_goals simp [h]

@[simp] theorem takeChunk_formed (c : List Byte) {s : State} (h : Formed s.mems) : Formed (takeChunk c s).mems := by
  simp [takeChunk, h]

@[simp] theorem armServe_formed (v : Serve) {s : State} (h : Formed s.mems) : Formed (armServe v s).mems := by
  simp [armServe, h]

@[simp] theorem activate_formed (r : JRec) {s : State} (h : Formed s.mems) : Formed (activate r s).mems := by
  simp [activate, h]

@[simp] theorem preloadMissing_formed {s : State} (h : Formed s.mems) : Formed (preloadMissing s).mems := by
  simp [preloadMissing, h]

@[simp] theorem preloadFailed_formed (index : Nat) {s : State} (h : Formed s.mems) : Formed (preloadFailed index s).mems := by
  simp [preloadFailed, h]

@[simp] theorem preload_formed {s : State} (h : Formed s.mems) : Formed (preload s).mems := by
  simp [preload, h]

@[simp] theorem swapPages_mems (w : Nat) (s : State) : (swapPages w s).mems = s.mems := by
  unfold swapPages
  extract_lets _ _ _ s4 s5 s6 s7
  have h4 : s4.mems = s.mems := rfl
  have h6 : s6.mems = s.mems := by
    simp only [s6, s5]
    repeat' split
    all_goals simpa using h4
  simpa [s7] using h6

/-! ## PlugIo -/

@[simp] theorem spmPut_formed (m a k : Nat) (bs : List Byte) {s : State} (h : Formed s.mems) :
    Formed (spmPut m a k bs s).2.mems := by
  induction k generalizing a bs s with
  | zero => exact h
  | succ k ih =>
    have hw := spmWrite_formed m a (min bs.length (8 - a % 8)) (ofLe (bs.take (min bs.length (8 - a % 8)))) h
    unfold spmPut
    dsimp only
    repeat' split
    all_goals grind

@[simp] theorem spmGet_mems (m a k n : Nat) (s : State) : (spmGet m a k n s).2.mems = s.mems := by
  induction k generalizing a n s with
  | zero => rfl
  | succ k ih =>
    have hr := spmRead_mems m a 4 s
    unfold spmGet
    dsimp only
    repeat' split
    all_goals grind

@[simp] theorem moveBytes_formed (x : Transfer) (n : Nat) {s : State} (h : Formed s.mems) :
    Formed (moveBytes x n s).2.mems := by
  unfold moveBytes
  split
  · exact writePlug_formed _ _ (by rwa [spmGet_mems])
  · exact spmPut_formed _ _ _ _ h

@[simp] theorem xferOver_mems (result done : Nat) (s : State) : (xferOver result done s).mems = s.mems := by
  unfold xferOver
  rw [State.mems, State.interrupt_hide _ _ _ (by decide)]
  rfl

@[simp] theorem writePlgCtl_mems (v : Word) (s : State) : (writePlgCtl v s).mems = s.mems := by
  unfold writePlgCtl
  extract_lets s1
  have h1 : s1.mems = s.mems := rfl
  repeat' split
  · exact h1
  · rfl
  · rw [xferOver_mems, State.mems, State.raise_hide _ _ _ (by decide)]
    exact h1

@[simp] theorem abortTransfer_formed {s : State} (h : Formed s.mems) : Formed (abortTransfer s).mems := by
  unfold abortTransfer
  dsimp only
  repeat' split
  all_goals simp [h]

@[simp] theorem plugLog_formed (type cause : Byte) (time : SysTime) (state : Word) (verdicts : Nat) {s : State}
    (h : Formed s.mems) : Formed (plugLog type cause time state verdicts s).mems := by
  simp [plugLog, h]

@[simp] theorem shutdownRecord_formed (cause : Byte) (time : SysTime) (done : Nat) {s : State} (h : Formed s.mems) :
    Formed (shutdownRecord cause time done s).mems := by
  simp [shutdownRecord, h]

/-! ## RegAccess -/

@[simp] theorem writeGsrCtl_mems (g : Fin 8) (v : Word) (s : State) : (writeGsrCtl g v s).mems = s.mems := by
  simp [writeGsrCtl]

@[simp] theorem writePowerFree_formed (hi : Bool) (v : Word) {s : State} (h : Formed s.mems) :
    Formed (writePowerFree hi v s).mems := by
  simp [writePowerFree, h]

theorem writeSpm_formed {off : Nat} {v : Word} {s t : State} (ht : writeSpm off v s = some t) (h : Formed s.mems) :
    Formed t.mems := by
  unfold writeSpm at ht
  split_ifs at ht <;> cases ht
  · exact writePowerFree_formed _ _ h
  · exact writePowerFree_formed _ _ h
  · exact h.keep (writeWinCtl_hide _ _ _) rfl
  · exact writeMarch_formed _ h

theorem writeTsi_formed {off : Nat} {v : Word} {s t : State} (ht : writeTsi off v s = some t) (h : Formed s.mems) :
    Formed t.mems := by
  unfold writeTsi at ht
  split_ifs at ht <;> cases ht
  · rwa [writeTsiCtl_mems]
  · exact writeCmData_formed _ h
  · exact h.keep (writePerfSel_hide _ _) rfl

theorem writeWork_formed {off : Nat} {v : Word} {s t : State} (ht : writeWork off v s = some t) (h : Formed s.mems) :
    Formed t.mems := by
  unfold writeWork at ht
  dsimp only at ht
  split_ifs at ht <;> cases ht
  · exact h.keep (writeOrCmd_hide _ _) rfl
  · exact writeAbandon_formed _ h
  · exact h.keep (writeCrCtl_hide _ _) rfl
  · exact h.keep (State.put_hide _ _ _) rfl
  · exact h

theorem Formed.of_hide {s t : State} {k : Nat} (hs : Formed s.mems) (ht : t.hide k = s.hide k)
    (hk : 258997247 &&& k = k) : Formed t.mems := by
  rw [State.mems, hide_mono hk ht]
  exact hs

theorem writeOwn_formed {m a : Nat} {v : Word} {s t : State} (ht : writeOwn m a v s = some t) (h : Formed s.mems) :
    Formed t.mems := by
  unfold writeOwn at ht
  dsimp only at ht
  split at ht
  · exact h.of_hide (writeHrt_hide _ _ _ _ ht) rfl
  · exact h.of_hide (writeIc_hide _ _ _ _ ht) rfl
  · exact h.of_hide (writeChan_hide _ _ _ _ ht) rfl
  · exact h.of_hide (writeWheel_hide _ _ _ _ ht) rfl
  · split_ifs at ht
    cases ht
    rwa [writeGsrCtl_mems]
  · exact writeSpm_formed ht h
  · exact h.of_hide (writeLine_hide _ _ _ _ ht) rfl
  · exact writeTsi_formed ht h
  · exact h.of_hide (writeFlue_hide _ _ _ _ ht) rfl
  · exact writeWork_formed ht h
  · exact h.of_hide (writeTime_hide _ _ _ _ ht) rfl
  · exact h.of_hide (writeBar_hide _ _ _ _ ht) rfl
  · exact h.of_hide (writeFlt_hide _ _ _ _ ht) rfl
  · split_ifs at ht
    cases ht
    rwa [writePlgCtl_mems]
  · cases ht

@[simp] theorem regWrite_formed (m a : Nat) (v : Word) {s : State} (h : Formed s.mems) : Formed (regWrite m a v s).mems := by
  cases hf : F.fieldsAt a with
  | none => rwa [regWrite_of_absent m a v s hf]
  | some fs =>
    rw [regWrite_of_present m a v s hf]
    cases ho : writeOwn m a v s with
    | none => exact h.keep (writePlain_hide fs v s) rfl
    | some t => exact writeOwn_formed ho h

/-! ## GeyserMove -/

@[simp] theorem geyserGranted_mems (a cyc : Nat) (s : State) : (geyserGranted a cyc s).2.mems = s.mems := by
  simp [geyserGranted]

@[simp] theorem gRead_mems (g : Fin 8) (a n : Nat) (s : State) : (gRead g a n s).inner.mems = s.mems := by
  unfold gRead
  dsimp only
  repeat' split
  all_goals grind [Got.inner, geyserGranted_mems, spmRead_mems, geyserCharge_hide, regRead_hide]

@[simp] theorem gWrite_formed (g : Fin 8) (a n v : Nat) {s : State} (h : Formed s.mems) :
    Formed (gWrite g a n v s).inner.mems := by
  unfold gWrite
  dsimp only
  repeat' split
  all_goals grind [Moved.inner, geyserGranted_mems, spmWrite_formed, geyserCharge_hide, regWrite_formed]

@[simp] theorem readElems_mems (g : Fin 8) (d : Desc) (k : Nat) (s : State) : (readElems g d k s).inner.mems = s.mems := by
  induction k generalizing s with
  | zero => rfl
  | succ k ih =>
    have hr := gRead_mems g (d.srcOf (s.gsr[g].pos + s.gsr[g].ins.length)).toNat d.esize s
    unfold readElems
    dsimp only
    split
    all_goals grind [Got.inner, Moved.inner, State.modG_hide]

@[simp] theorem writeElems_formed (g : Fin 8) (d : Desc) (k : Nat) {s : State} (h : Formed s.mems) :
    Formed (writeElems g d k s).inner.mems := by
  induction k generalizing s with
  | zero => exact h
  | succ k ih =>
    unfold writeElems
    repeat' split
    all_goals grind [Moved.inner, gWrite_formed, State.modG_hide]

@[simp] theorem readBlock_mems (g : Fin 8) (d : Desc) (s : State) : (readBlock g d s).inner.mems = s.mems := by
  unfold readBlock
  repeat' split
  all_goals grind [Moved.inner, readElems_mems, State.modG_hide]

@[simp] theorem moveBlock_formed (g : Fin 8) (d : Desc) {s : State} (h : Formed s.mems) :
    Formed (moveBlock g d s).inner.mems := by
  have hr := readBlock_mems g d s
  unfold moveBlock
  repeat' split
  all_goals grind [Moved.inner, writeElems_formed, State.modG_hide]

@[simp] theorem moveBlocks_formed (g : Fin 8) (k : Nat) {s : State} (h : Formed s.mems) :
    Formed (moveBlocks g k s).inner.mems := by
  induction k generalizing s with
  | zero => exact h
  | succ k ih =>
    unfold moveBlocks
    repeat' split
    all_goals grind [Moved.inner, moveBlock_formed]

@[simp] theorem geyserFinish_mems (g : Fin 8) (d : Desc) (s : State) : (geyserFinish g d s).mems = s.mems := by
  simp [geyserFinish]

@[simp] theorem moveThenFinish_formed (g : Fin 8) (k : Nat) {s : State} (h : Formed s.mems) :
    Formed (moveThenFinish g k s).mems := by
  have hm : Formed ((moveBlocks g k s).state g).mems := by
    rw [State.mems, Moved.state_hide _ _ _ (by decide)]
    exact moveBlocks_formed g k h
  unfold moveThenFinish
  extract_lets t
  repeat' split
  · exact hm
  · rwa [geyserFinish_mems]
  · exact hm

/-! ## Embers -/

@[simp] theorem performStore_formed (e : Fin 4) (t : StoreEntry) {s : State} (h : Formed s.mems) :
    Formed (performStore e t s).mems := by
  unfold performStore
  grind [spmWrite_formed, storeFaulted_hide, emberFault_hide, regWrite_formed]

@[simp] theorem drainFirst_formed (e : Fin 4) (p : StoreEntry → Bool) {s : State} (h : Formed s.mems) :
    Formed (drainFirst e p s).mems := by
  unfold drainFirst
  repeat' split
  all_goals grind [State.modE_hide, State.inject_hide, performStore_formed, parityFault_hide]

@[simp] theorem drainMany_formed (e : Fin 4) (p : StoreEntry → Bool) (n : Nat) {s : State} (h : Formed s.mems) :
    Formed (drainMany e p n s).mems := by
  induction n generalizing s with
  | zero => exact h
  | succ n ih => exact ih (drainFirst_formed _ _ h)

@[simp] theorem drainAll_formed (e : Fin 4) {s : State} (h : Formed s.mems) : Formed (drainAll e s).mems := by
  simp [drainAll, h]

@[simp] theorem drainWindow_formed (e : Fin 4) {s : State} (h : Formed s.mems) : Formed (drainWindow e s).mems := by
  simp [drainWindow, h]

@[simp] theorem doubleException_formed (e : Fin 4) (c : Exc) (eaddr : Word) {s : State} (h : Formed s.mems) :
    Formed (doubleException e c eaddr s).mems := by
  simp [doubleException, h]

@[simp] theorem enterException_formed (e : Fin 4) (c : Exc) (epc : BitVec 13) (eaddr : Word) {s : State} (h : Formed s.mems) :
    Formed (enterException e c epc eaddr s).mems := by
  simp [enterException, h]

@[simp] theorem boundary_formed (e : Fin 4) {s : State} (h : Formed s.mems) : Formed (boundary e s).mems := by
  unfold boundary
  dsimp only
  repeat' split
  all_goals simp [h]

@[simp] theorem retire_formed (e : Fin 4) (pc : BitVec 13) {s : State} (h : Formed s.mems) : Formed (retire e pc s).mems := by
  simp [retire, h]

@[simp] theorem drainCycle_formed (e : Fin 4) (others : List (BitVec 9)) (xs : List StoreEntry) {s : State}
    (h : Formed s.mems) : Formed (drainCycle e others xs s).mems := by
  induction xs generalizing s with
  | nil => exact h
  | cons x xs ih =>
    unfold drainCycle
    extract_lets t take
    have hg := grant_mems t e (if x.size = 8 then 1 else 2) (others.getD t 0) s
    repeat' split
    all_goals grind [drainFirst_formed]

/-! ## EmberMem -/

@[simp] theorem enterStore_formed (e : Fin 4) (t : StoreEntry) {s : State} (h : Formed s.mems) :
    Formed (enterStore e t s).mems := by
  simp [enterStore, h]

/-! ## Power -/

@[simp] theorem drainBuffer_formed (e : Fin 4) {s : State} (h : Formed s.mems) : Formed (drainBuffer e s).mems := by
  simp [drainBuffer, h]

@[simp] theorem completeRecords_formed {s : State} (h : Formed s.mems) : Formed (completeRecords s).2.mems := by
  simp [completeRecords, h]

@[simp] theorem drainNode_formed {s : State} (h : Formed s.mems) : Formed (drainNode s).mems := by
  have hd : Formed (endDrain (s.each (List.finRange 4) drainBuffer)).mems :=
    (each_formed _ drainBuffer (fun e _ => drainBuffer_formed e) h).keep (endDrain_hide _) rfl
  unfold drainNode
  extract_lets s1
  have h1 : Formed s1.mems := hd
  clear_value s1
  split
  next n s2 heq =>
    refine Formed.keep ?_ (State.modNode_hide _ _) rfl
    split at heq
    · have hr := completeRecords_formed (Formed.keep (abortTransfer_formed h1) (stopOriginating_hide _) rfl)
      rwa [heq] at hr
    · cases heq
      exact h1.keep (stopOriginating_hide _) rfl

@[simp] theorem pwrfail_formed (vbulk : BitVec 16) {s : State} (h : Formed s.mems) : Formed (pwrfail vbulk s).mems := by
  simp [pwrfail, h]

@[simp] theorem pwrRecord_formed {s : State} (h : Formed s.mems) : Formed (pwrRecord s).mems := by
  simp [pwrRecord, h]

/-! ## Caldera -/

@[simp] theorem writeCapture_formed (bad : Bool) (at_ : SysTime) {s : State} (h : Formed s.mems) :
    Formed (writeCapture bad at_ s).mems := by
  simp [writeCapture, h]

@[simp] theorem calderaRest_formed (bad : Bool) {s : State} (h : Formed s.mems) : Formed (calderaRest bad s).mems := by
  unfold calderaRest
  grind [calderaHalt_hide, completeRecords_formed, abortTransfer_formed, State.modNode_hide, writeCapture_formed]

@[simp] theorem continueCaldera_formed {s : State} (h : Formed s.mems) : Formed (continueCaldera s).mems := by
  simp [continueCaldera, h]

/-! ## Reset -/

@[simp] theorem coldReset_formed (kind : ResetKind) {s : State} (h : Formed s.mems) : Formed (coldReset kind s).mems := by
  unfold coldReset
  dsimp only
  split
  · rw [State.mems, keepFirst_hide _ _ _ (by decide), State.putReg_hide _ _ _ _ (by decide)]
    exact ⟨h.1, h.2.1, rfl⟩
  · rw [State.mems, State.putReg_hide _ _ _ _ (by decide)]
    exact ⟨h.1, h.2.1, rfl⟩

@[simp] theorem beforeReset_formed {s : State} (h : Formed s.mems) : Formed (beforeReset s).mems := by
  simp [beforeReset, h]

@[simp] theorem holdInReset_formed (kind : ResetKind) {s : State} (h : Formed s.mems) : Formed (holdInReset kind s).mems := by
  simp [holdInReset, h]

@[simp] theorem tearRecord_formed {s : State} (h : Formed s.mems) : Formed (tearRecord s).mems := by
  unfold tearRecord
  split
  · exact h
  · dsimp only
    rw [State.mems, State.modWork_hide _ _ _ (by decide)]
    exact writePlug_formed _ _ (by simpa using h)

@[simp] theorem plugLost_formed {s : State} (h : Formed s.mems) : Formed (plugLost s).mems := by
  simp [plugLost, h]

@[simp] theorem enterHold_formed {s : State} (h : Formed s.mems) : Formed (enterHold s).mems := by
  unfold enterHold
  extract_lets was running s1 s2 on s3 s4 hrt s5
  have h1 : Formed s1.mems := by
    simp only [s1]
    repeat' split
    · exact drainNode_formed (by simpa using h)
    · exact beforeReset_formed h
    · exact h
  clear_value s1
  have h2 : Formed s2.mems := by
    simp only [s2]
    split
    · exact shutdownRecord_formed _ _ _ h1
    · exact h1
  clear_value s2
  have h3 : Formed s3.mems := by
    simp only [s3]
    split
    · exact h2
    · simpa using h2
  clear_value s3
  have h4 : Formed s4.mems := by simpa [s4] using h3
  clear_value s4
  have h5 : Formed s5.mems := h4
  exact h5.keep (State.modNode_hide _ _) rfl

@[simp] theorem afterFreeze_formed {s : State} (h : Formed s.mems) : Formed (afterFreeze s).mems := by
  simp [afterFreeze, h]

@[simp] theorem resumeNode_formed (reason : BitVec 8) (kind : BitVec 5) {s : State} (h : Formed s.mems) :
    Formed (resumeNode reason kind s).mems := by
  simp [resumeNode, h]

/-! ## Kindling -/

@[simp] theorem k2_formed (fails : List (Nat × Nat)) {s : State} (h : Formed s.mems) : Formed (k2 fails s).mems := by
  have hc := each_formed (List.range 17) State.clearBank (fun b _ => clearBank_formed b) h
  simpa [k2] using hc

@[simp] theorem k2Warm_formed (fails : List (Nat × Nat)) {s : State} (h : Formed s.mems) : Formed (k2Warm fails s).mems := by
  unfold k2Warm
  extract_lets retain drop on s1 spm s2 bank march others s3
  have hdrop (b : Nat) {s : State} (h : Formed s.mems) : Formed (drop b s).mems := by simpa [drop] using h
  have hon (b : Nat) {s : State} (h : Formed s.mems) : Formed (on b s).mems := by
    simp only [on]
    split
    · exact hdrop b (by simpa using h)
    · simpa using h
  have h2 : Formed s2.mems := (each_formed (List.range 17) on (fun b _ => hon b) h).spm rfl
  have hbank (b : Nat) {s : State} (h : Formed s.mems) : Formed (bank b s).mems := by
    simp only [bank]
    repeat' split
    · exact h
    · simpa using hdrop b (clearBank_formed b h)
    · exact clearBank_formed b h
  have h3 : Formed s3.mems := each_formed _ bank (fun b _ => hbank b) (by simpa using h2)
  simpa using h3

@[simp] theorem commitIdent_formed (c : Bool) (bytes : List Byte) (bad : Bool) {s : State} (h : Formed s.mems) :
    Formed (commitIdent c bytes bad s).2.mems := by
  simp [commitIdent, h]

@[simp] theorem rewriteIdents_formed (force : Bool) (bytes : List Byte) (grown : Bool) (map : List (Nat × Nat)) (other : Bool)
    (bad : Bool → Bool) {s : State} (h : Formed s.mems) : Formed (rewriteIdents force bytes grown map other bad s).mems := by
  simp [rewriteIdents, h]

@[simp] theorem k3_formed (warm : Bool) (bad : Bool → Bool) {s : State} (h : Formed s.mems) : Formed (k3 warm bad s).mems := by
  unfold k3
  dsimp only
  repeat' split
  all_goals simp [h]

/-! ## Load -/

@[simp] theorem loadData_formed {s : State} (h : Formed s.mems) : Formed (loadData s).mems := by
  unfold loadData
  refine each_formed _ _ (fun k s hs => ?_) (by simpa using h)
  split
  · exact spmStore_formed _ _ hs
  · exact hs

@[simp] theorem loadTables_formed {s : State} (h : Formed s.mems) : Formed (loadTables s).mems := by
  unfold loadTables
  extract_lets s1 s2 s3
  have h1 : Formed s1.mems := by
    simp only [s1]
    split
    · simpa using h
    · exact h
  clear_value s1
  exact loadData_formed (loadPages_formed _ (by simpa [s3, s2] using h1))

@[simp] theorem startRecord_formed {s : State} (h : Formed s.mems) : Formed (startRecord s).mems := by
  simp [startRecord, h]

@[simp] theorem warmTables_formed {s : State} (h : Formed s.mems) : Formed (warmTables s).mems := by
  have hc := each_mems (List.finRange 64) (fun c => warmChannel (chanEntry ((s.sectionAt 1).getD []) c) c) s (by simp)
  exact loadData_formed (by simpa [hc] using h)

@[simp] theorem warmK0_formed {s : State} (h : Formed s.mems) : Formed (warmK0 s).mems := by
  unfold warmK0
  extract_lets s1 page s2 col s3 s4 s5
  have h2 : Formed s2.mems := by
    simpa [s2] using abortTransfer_formed (rewriteCommit_formed s.inactive 0x3C3CA5A5 0 h)
  clear_value s2
  have h3 : Formed s3.mems := by
    simp only [s3, State.mems]
    rw [geyserClear_hide _ _ (by decide), resetHearth_hide _ _ (by decide)]
    exact h2
  clear_value s3
  simpa [s5, s4] using h3

@[simp] theorem warmFailed_formed (activated : Bool) (index : Nat) {s : State} (h : Formed s.mems) :
    Formed (warmFailed activated index s).mems := by
  simp [warmFailed, h]

theorem enterK8_formed {wheels : State → State} (hw : ∀ s, (wheels s).mems = s.mems) (setNow again : Bool) {s : State}
    (h : Formed s.mems) : Formed (enterK8 wheels setNow again s).mems := by
  unfold enterK8
  extract_lets s1 s2 s3 s4 s5
  have h3 : Formed s3.mems := by
    simp only [s3, hw]
    simpa [s2, s1] using h
  clear_value s3
  have h4 : Formed s4.mems := by
    simp only [s4]
    split
    · simpa using h3
    · exact h3
  clear_value s4
  have h5 : Formed s5.mems := by
    simp only [s5]
    split
    · exact (reapply_formed h4).keep (offerCustody_hide _) rfl
    · exact h4
  clear_value s5
  refine Formed.keep (Formed.keep ?_ (startDist_hide _) rfl) (queueStart_hide _) rfl
  split
  · exact startRecord_formed h5
  · exact h5

@[simp] theorem warmK8_formed {s : State} (h : Formed s.mems) : Formed (warmK8 s).mems :=
  enterK8_formed (fun s => by simp) _ _ h

@[simp] theorem warmRun_formed (fails : List (Nat × Nat)) (rewriteBad : BitVec 2) (bad : Option (Fin 64)) {s : State}
    (h : Formed s.mems) : Formed (warmRun fails rewriteBad bad s).mems := by
  unfold warmRun
  grind [endPhase_hide, k3_formed, k2Warm_formed, k2_formed, k4_hide, warmFailed_formed, warmTables_formed, warmK6_hide,
    warmK8_formed]

/-! ## Sinter -/

@[simp] theorem memaccAccess_formed (write : Bool) (addr : BitVec 20) (data : BitVec 64) {s : State} (h : Formed s.mems) :
    Formed (memaccAccess write addr data s).mems := by
  unfold memaccAccess
  dsimp only
  repeat' split
  all_goals simp [h]

/-! ## Tick -/

@[simp] theorem tick_formed {s : State} (h : Formed s.mems) : Formed (tick s).mems := by
  unfold tick
  extract_lets s1
  have h1 : Formed s1.mems := by simpa [s1] using h
  clear_value s1
  repeat' split
  · exact h1
  · exact h1
  · exact Formed.keep (tickMarch_formed (by simpa using h1)) (tickPower_hide _) rfl

end Sys2Proof.Machine
end

section
/-! The same through the Embers' instructions: what an instruction answers carries memories in their form, and so does the
state it leaves. -/

namespace Sys2Proof.Machine
open Safety

/-- The state an instruction's outcome carries. -/
def IRes.inner : IRes → State
  | .done s => s
  | .jump _ s => s
  | .exc _ _ s => s
  | .wait _ _ s => s
  | .hold s => s

@[simp] theorem IRes.inner_done (s : State) : (IRes.done s).inner = s := rfl
@[simp] theorem IRes.inner_jump (pc : BitVec 13) (s : State) : (IRes.jump pc s).inner = s := rfl
@[simp] theorem IRes.inner_exc (c : Exc) (a : Word) (s : State) : (IRes.exc c a s).inner = s := rfl
@[simp] theorem IRes.inner_wait (a : Word) (sh : Bool) (s : State) : (IRes.wait a sh s).inner = s := rfl
@[simp] theorem IRes.inner_hold (s : State) : (IRes.hold s).inner = s := rfl

theorem IRes.apply_formed (e : Fin 4) (s : State) {r : IRes} (h : Formed r.inner.mems) : Formed (r.apply e s).mems := by
  cases r with
  | done t => exact retire_formed _ _ h
  | jump pc t => exact retire_formed _ _ h
  | exc c a t =>
    unfold IRes.apply
    dsimp only
    split
    · exact enterException_formed _ _ _ _ h
    · exact enterException_formed _ _ _ _ h
  | wait a sh t => exact Formed.keep h (State.modE_hide _ _ _) rfl
  | hold t => exact h

theorem runInstr_formed {e : Fin 4} {w : Micro} {body : State → IRes} (hb : ∀ s, Formed s.mems → Formed (body s).inner.mems)
    {s t : State} (ht : runInstr e w body s = .next t) (h : Formed s.mems) : Formed t.mems := by
  simp only [runInstr, actWhen_next] at ht
  subst ht
  split
  · have h1 := h.keep (State.csCheck_hide (s.get F.HRT_SWAP_ACTIVE_PAGE) s.emb[e].pc.toNat s) rfl
    split
    · next s1 hc =>
      rw [hc] at h1
      simpa using h1
    · next s1 hc =>
      rw [hc] at h1
      split
      · split
        · exact h1
        · exact IRes.apply_formed e s1 (r := .exc _ _ s1) h1
      · have h2 := h1.keep (readCheck_hide e w s1) rfl
        split
        · next hr =>
          rw [hr] at h2
          exact IRes.apply_formed e _ (hb _ h2)
        · next hr =>
          rw [hr] at h2
          exact h2.keep (parityFault_hide _ _ _) rfl
  · exact h

@[simp] theorem legal_formed (e : Fin 4) (ok : Bool) {s : State} {k : IRes} (h : Formed s.mems) (hk : Formed k.inner.mems) :
    Formed (legal e ok s k).inner.mems := by
  unfold legal
  split
  · exact hk
  · exact h
@[simp] theorem doneWith_formed (e : Fin 4) (f : Ember → Ember) {s : State} (h : Formed s.mems) :
    Formed (doneWith e f s).inner.mems := Formed.keep h (State.modE_hide _ _ _) rfl
theorem engine_formed (e : Fin 4) {k : State → IRes} (hk : ∀ s, Formed s.mems → Formed (k s).inner.mems) {s : State}
    (h : Formed s.mems) : Formed (engine e k s).inner.mems := hk _ (drainWindow_formed e h)

theorem loadBank_formed (e : Fin 4) (d : Fin 32) (size : Fin 4) (signed : Bool) (a : Word) (others : BitVec 9) {s : State}
    (h : Formed s.mems) : Formed (loadBank e d size signed a others s).inner.mems := by
  have hg := grant_mems (bankOf (s.fold a.toNat)) e 1 others s
  unfold loadBank
  dsimp only
  split
  · exact h
  · split
    · next hc => rw [hc] at hg; rwa [← hg] at h
    · next s1 hc =>
      rw [hc] at hg
      rw [← hg, ← spmRead_mems e a.toNat (2 ^ size.val)] at h
      exact Formed.keep h (State.modE_hide _ _ _) rfl
theorem loadSpad_formed (e : Fin 4) (d : Fin 32) (size : Fin 4) (signed : Bool) (a : Word) (others : BitVec 9) {s : State}
    (h : Formed s.mems) : Formed (loadSpad e d size signed a others s).inner.mems := by
  unfold loadSpad
  split
  · exact Formed.keep h (State.modE_hide _ _ _) rfl
  · exact loadBank_formed _ _ _ _ _ _ (drainMany_formed _ _ _ h)
  · exact loadBank_formed _ _ _ _ _ _ h
/-- An outcome whose state the frame of the three memories does not tell from `s`. -/
theorem IRes.formed_of_keeps {r : IRes} {s : State} (hr : r.Keeps 258997247 s) (h : Formed s.mems) : Formed r.inner.mems := by
  cases r <;> exact h.of_hide hr rfl
theorem loadCs_formed (e : Fin 4) (d : Fin 32) (a : Word) {s : State} (h : Formed s.mems) :
    Formed (loadCs e d a s).inner.mems := IRes.formed_of_keeps (loadCs_hide e d a s _ (by decide)) h
theorem loadWindow_formed (e : Fin 4) (d : Fin 32) (a : Word) {s : State} (h : Formed s.mems) :
    Formed (loadWindow e d a s).inner.mems :=
  Formed.keep (Formed.keep (drainWindow_formed e h) (regRead_hide e a.toNat _) rfl) (State.modE_hide _ _ _) rfl

/-- An instruction whose outcome only changes its Ember. -/
theorem computed_formed {e : Fin 4} {w : Micro} {f : State → Ember → Ember} {s t : State}
    (ht : runInstr e w (fun s => doneWith e (f s) s) s = .next t) (h : Formed s.mems) : Formed t.mems :=
  runInstr_formed (fun _ h => doneWith_formed _ _ h) ht h
/-- The same of one that may be illegal. -/
theorem legalComputed_formed {e : Fin 4} {w : Micro} {ok : State → Bool} {f : State → Ember → Ember} {s t : State}
    (ht : runInstr e w (fun s => legal e (ok s) s (doneWith e (f s) s)) s = .next t) (h : Formed s.mems) : Formed t.mems :=
  runInstr_formed (fun _ h => legal_formed _ _ h (doneWith_formed _ _ h)) ht h

theorem execLd_formed {e : Fin 4} {d a : Fin 32} {imm : Word} {size : Fin 4} {signed : Bool} {others : BitVec 9} {s t : State}
    (ht : execLd e d a imm size signed others s = .next t) (h : Formed s.mems) : Formed t.mems := by
  refine runInstr_formed (fun s h => legal_formed _ _ h ?_) ht h
  dsimp only
  repeat' split
  · exact h
  · exact loadSpad_formed _ _ _ _ _ _ h
  · exact loadCs_formed _ _ _ h
  · exact loadWindow_formed _ _ _ h
  · exact Formed.keep (h.keep (busErr_hide _ _ _ _) rfl) (State.modE_hide _ _ _) rfl

theorem execSt_formed {e : Fin 4} {a b : Fin 32} {imm : Word} {size : Fin 4} {s t : State}
    (ht : execSt e a b imm size s = .next t) (h : Formed s.mems) : Formed t.mems := by
  refine runInstr_formed (fun s h => legal_formed _ _ h ?_) ht h
  dsimp only
  split
  · exact h
  · split
    · exact h.keep (busErr_hide _ _ _ _) rfl
    · exact enterStore_formed _ _ h

theorem execFence_formed {e : Fin 4} {s s' : State} (ht : execFence e s = .next s') (h : Formed s.mems) :
    Formed s'.mems := by
  refine runInstr_formed (fun s h => ?_) ht h
  simp [h]

theorem execGstart_formed {e : Fin 4} {d : Fin 32} {g : Fin 8} {a : Fin 32} {s s' : State}
    (ht : execGstart e d g a s = .next s') (h : Formed s.mems) :
    Formed s'.mems := by
  refine runInstr_formed (fun s h => ?_) ht h
  dsimp only
  simp [h]

theorem execDoorbell_formed {e : Fin 4} {d : Bell} {s s' : State} (ht : execDoorbell e d s = .next s') (h : Formed s.mems) :
    Formed s'.mems := by
  refine runInstr_formed (fun s h => ?_) ht h
  dsimp only
  repeat' split
  all_goals simp [h]

theorem execYield_formed {e : Fin 4} {s s' : State} (ht : execYield e s = .next s') (h : Formed s.mems) :
    Formed s'.mems := by
  refine runInstr_formed (fun s h => ?_) ht h
  refine legal_formed _ _ h ?_
  simp [h]

theorem execWait_formed {e : Fin 4} {a : Fin 32} {fn : Fin 256} {s s' : State} (ht : execWait e a fn s = .next s')
    (h : Formed s.mems) :
    Formed s'.mems := by
  refine runInstr_formed (fun s h => ?_) ht h
  refine legal_formed _ _ h ?_
  dsimp only
  repeat' split
  all_goals simp [h]

theorem execB_formed {e : Fin 4} {c : Fin 16} {t : BitVec 13} {s s' : State} (ht : execB e c t s = .next s')
    (h : Formed s.mems) :
    Formed s'.mems := by
  refine runInstr_formed (fun s h => ?_) ht h
  refine legal_formed _ _ h ?_
  repeat' split
  all_goals simp [h]

theorem execCall_formed {e : Fin 4} {c : Fin 16} {t : BitVec 13} {s s' : State} (ht : execCall e c t s = .next s')
    (h : Formed s.mems) :
    Formed s'.mems := by
  refine runInstr_formed (fun s h => ?_) ht h
  refine legal_formed _ _ h ?_
  dsimp only
  repeat' split
  all_goals simp [h]

theorem execJr_formed {e : Fin 4} {a : Fin 32} {s s' : State} (ht : execJr e a s = .next s') (h : Formed s.mems) :
    Formed s'.mems := by
  refine runInstr_formed (fun s h => ?_) ht h
  simp [h]

theorem execReturn_formed {e : Fin 4} {s s' : State} (ht : execReturn e s = .next s') (h : Formed s.mems) :
    Formed s'.mems := by
  refine runInstr_formed (fun s h => ?_) ht h
  repeat' split
  all_goals simp [h]

theorem execReti_formed {e : Fin 4} {s s' : State} (ht : execReti e s = .next s') (h : Formed s.mems) :
    Formed s'.mems := by
  refine runInstr_formed (fun s h => ?_) ht h
  repeat' split
  all_goals simp [h]

theorem execEret_formed {e : Fin 4} {s s' : State} (ht : execEret e s = .next s') (h : Formed s.mems) :
    Formed s'.mems := by
  refine runInstr_formed (fun s h => ?_) ht h
  refine legal_formed _ _ h ?_
  dsimp only
  simp [h]

theorem execBz_formed {e : Fin 4} {a : Fin 32} {t : BitVec 13} {s s' : State} (ht : execBz e a t s = .next s')
    (h : Formed s.mems) :
    Formed s'.mems := by
  refine runInstr_formed (fun s h => ?_) ht h
  repeat' split
  all_goals simp [h]

theorem execBnz_formed {e : Fin 4} {a : Fin 32} {t : BitVec 13} {s s' : State} (ht : execBnz e a t s = .next s')
    (h : Formed s.mems) :
    Formed s'.mems := by
  refine runInstr_formed (fun s h => ?_) ht h
  repeat' split
  all_goals simp [h]

theorem execDbnz_formed {e : Fin 4} {a : Fin 32} {t : BitVec 13} {s s' : State} (ht : execDbnz e a t s = .next s')
    (h : Formed s.mems) :
    Formed s'.mems := by
  refine runInstr_formed (fun s h => ?_) ht h
  dsimp only
  repeat' split
  all_goals simp [h]

theorem execInsert_formed {e : Fin 4} {d a b t : Fin 32} {ch : ChanSel} {s s' : State}
    (ht : execInsert e d a b t ch s = .next s') (h : Formed s.mems) :
    Formed s'.mems := by
  refine runInstr_formed (fun s h => ?_) ht h
  refine legal_formed _ _ h ?_
  refine engine_formed _ (fun s h => ?_) h
  dsimp only
  simp [h]

theorem execCancel_formed {e : Fin 4} {d t : Fin 32} {ch : ChanSel} {s s' : State} (ht : execCancel e d t ch s = .next s')
    (h : Formed s.mems) :
    Formed s'.mems := by
  refine runInstr_formed (fun s h => ?_) ht h
  refine engine_formed _ (fun s h => ?_) h
  dsimp only
  simp [h]

theorem execShift_formed {e : Fin 4} {d : Fin 32} {g : Fin 3} {a : Fin 32} {n1 : Fin 8} {s s' : State}
    (ht : execShift e d g a n1 s = .next s') (h : Formed s.mems) :
    Formed s'.mems := by
  refine runInstr_formed (fun s h => ?_) ht h
  refine legal_formed _ _ h ?_
  refine engine_formed _ (fun s h => ?_) h
  dsimp only
  repeat' split
  all_goals simp [h]

theorem execWpos_formed {e : Fin 4} {d : Fin 32} {w : Fin 8} {s s' : State} (ht : execWpos e d w s = .next s')
    (h : Formed s.mems) :
    Formed s'.mems := by
  refine runInstr_formed (fun s h => ?_) ht h
  refine legal_formed _ _ h ?_
  refine engine_formed _ (fun s h => ?_) h
  dsimp only
  simp [h]

theorem execWpred_formed {e : Fin 4} {d b : Fin 32} {w : Fin 8} {s s' : State} (ht : execWpred e d b w s = .next s')
    (h : Formed s.mems) :
    Formed s'.mems := by
  refine runInstr_formed (fun s h => ?_) ht h
  refine legal_formed _ _ h ?_
  refine engine_formed _ (fun s h => ?_) h
  dsimp only
  repeat' split
  all_goals simp [h]

theorem execBsend_formed {e : Fin 4} {d a : Fin 32} {type : Byte} {s s' : State} (ht : execBsend e d a type s = .next s')
    (h : Formed s.mems) :
    Formed s'.mems := by
  refine runInstr_formed (fun s h => ?_) ht h
  refine legal_formed _ _ h ?_
  refine engine_formed _ (fun s h => ?_) h
  dsimp only
  repeat' split
  all_goals simp [h]

end Sys2Proof.Machine
end

section
/-! The same through every command and every CORE cycle. -/

namespace Sys2Proof.Machine
open Safety

theorem Formed.of_eq {s t : State} (h : Formed s.mems) (ht : t.mems = s.mems) : Formed t.mems := ht ▸ h

theorem actWhen_formed {c : Bool} {f : State → State} {s t : State} (ht : actWhen c f s = .next t)
    (hf : ∀ s, Formed s.mems → Formed (f s).mems) (h : Formed s.mems) : Formed t.mems := by
  rw [actWhen_next] at ht
  subst ht
  split
  · exact hf s h
  · exact h
theorem onImage_formed {type : Byte} {f : List Byte → State → State} {s t : State} (ht : onImage type f s = .next t)
    (hf : ∀ c s, Formed s.mems → Formed (f c s).mems) (h : Formed s.mems) : Formed t.mems := by
  refine actWhen_formed ht (fun s h => ?_) h
  split
  · exact h
  · next c u hp => exact hf c u (h.of_hide (popImage_hide type s c u hp) rfl)
theorem onCell_formed {type : Byte} {f : List Byte → State → State} {s t : State} (ht : onCell type f s = .next t)
    (hf : ∀ c s, Formed s.mems → Formed (f c s).mems) (h : Formed s.mems) : Formed t.mems := by
  refine actWhen_formed ht (fun s h => ?_) h
  split
  · exact h
  · next c u hp => exact hf c u (h.of_hide (popWork_hide type s c u hp) rfl)

theorem execMarchDone_formed {fails : List (Nat × Nat)} {s t : State} (ht : execMarchDone fails s = .next t)
    (h : Formed s.mems) : Formed t.mems := by
  refine actWhen_formed ht (fun s h => ?_) h
  extract_lets s1 spm s2
  have h1 : Formed s1.mems := each_formed _ _ (fun x s hs => by simpa using hs) h
  have h2 : Formed s2.mems := h1.spm rfl
  exact Formed.keep (h2.keep (State.put_hide _ _ _) rfl) (State.interrupt_hide _ _) rfl

theorem upFrame_formed {f : List Byte} {type : Byte} {k : State → State} {s t : State} (ht : upFrame f type k s = .next t)
    (hk : ∀ s, Formed s.mems → Formed (k s).mems) (h : Formed s.mems) : Formed t.mems := by
  unfold upFrame at ht
  split at ht
  · cases ht
  · refine actWhen_formed ht (fun s h => ?_) h
    dsimp only
    repeat' split
    · simpa using h
    · simpa using h
    · exact hk _ (by simpa using h)
theorem upRequest_formed (f : List Byte) {k : State → State} (hk : ∀ s, Formed s.mems → Formed (k s).mems) {s : State}
    (h : Formed s.mems) : Formed (upRequest f k s).mems := by
  unfold upRequest
  split
  · simpa using h
  · simpa using hk s h

theorem execHvEvent_formed {f : List Byte} {s t : State} (ht : execHvEvent f s = .next t) (h : Formed s.mems) :
    Formed t.mems := by
  refine upFrame_formed ht (fun s h => upRequest_formed f (fun s h => ?_) h) h
  extract_lets o fl tag i s1 s2
  repeat' split
  · simpa using h
  · simpa using h
  · refine takeEdge_formed _ _ _ ?_
    have h1 : Formed s1.mems := by simpa [s1] using h
    simp only [s2]
    split
    · simpa using h1
    · exact h1
  · exact h

theorem execCmData_formed {write : Bool} {v : Word} {s t : State} (ht : execCmData write v s = .next t)
    (h : Formed s.mems) : Formed t.mems := by
  refine actWhen_formed ht (fun s h => ?_) h
  split
  · exact writeCmData_formed v h
  · exact h.keep (readCmData_hide s) rfl

theorem execCopyDone_formed {s t : State} (ht : execCopyDone s = .next t) (h : Formed s.mems) : Formed t.mems := by
  refine actWhen_formed ht (fun s h => ?_) h
  repeat' split
  · exact h
  · exact h
  · exact setPage_formed _ _ (by simpa using h)

theorem execSetValue_formed {s t : State} (ht : execSetValue s = .next t) (h : Formed s.mems) : Formed t.mems := by
  refine actWhen_formed ht (fun s h => ?_) h
  split
  · exact applyValue_formed _ h
  · exact h

theorem execHeadRetry_formed {s t : State} (ht : execHeadRetry s = .next t) (h : Formed s.mems) : Formed t.mems := by
  refine actWhen_formed ht (fun s h => ?_) h
  split
  · exact h
  · dsimp only
    repeat' split
    · exact h.keep (applyInsert_hide _ _) rfl
    · exact applyValue_formed _ h
    · exact h

theorem execFrameBuilt_formed {p : Fin 4} {stamp : SysTime} {slips : List (Fin 4)} {s t : State}
    (ht : execFrameBuilt p stamp slips s = .next t) (h : Formed s.mems) : Formed t.mems := by
  refine actWhen_formed ht (fun s h => ?_) h
  repeat' split
  all_goals simpa using h

theorem execArming_formed {s t : State} (ht : execArming s = .next t) (h : Formed s.mems) : Formed t.mems := by
  refine actWhen_formed ht (fun s h => ?_) h
  extract_lets s1
  have h1 : Formed s1.mems := by
    simp only [s1]
    repeat' split
    · exact h
    · exact armServe_formed _ h
    · exact h
  clear_value s1
  dsimp only
  repeat' split
  all_goals simpa using h1

theorem execActivateImage_formed {s t : State} (ht : execActivateImage s = .next t) (h : Formed s.mems) :
    Formed t.mems := by
  refine actWhen_formed ht (fun s h => ?_) h
  split
  · exact activate_formed _ h
  · exact h

theorem execPageSwap_formed {s t : State} (ht : execPageSwap s = .next t) (h : Formed s.mems) : Formed t.mems := by
  refine actWhen_formed ht (fun s h => ?_) h
  repeat' split
  all_goals simpa using h

theorem execTransferEnd_formed {s t : State} (ht : execTransferEnd s = .next t) (h : Formed s.mems) : Formed t.mems := by
  refine actWhen_formed ht (fun s h => ?_) h
  split
  · exact h
  · next x hx => simpa using moveBytes_formed x x.len h

theorem execAbort_formed {g : Fin 8} {moved : Nat} {s t : State} (ht : execAbort g moved s = .next t)
    (h : Formed s.mems) : Formed t.mems := by
  refine actWhen_formed ht (fun s h => Formed.keep ?_ (geyserStop_hide _ _ _) rfl) h
  split
  · exact moveThenFinish_formed _ _ h
  · exact h

theorem Moved.state_formed (g : Fin 8) {m : Moved} (h : Formed m.inner.mems) : Formed (m.state g).mems := by
  rwa [State.mems, Moved.state_hide _ _ _ (by decide)]

theorem execBusStop_formed {g : Fin 8} {moved : List Nat} {s t : State} (ht : execBusStop g moved s = .next t)
    (h : Formed s.mems) : Formed t.mems := by
  unfold execBusStop at ht
  split at ht
  · cases ht
  · have hmove (c : Fin 8) (k : Nat) {s : State} (h : Formed s.mems) : Formed ((moveBlocks c k s).state c).mems :=
      Moved.state_formed c (moveBlocks_formed c k h)
    refine actWhen_formed ht (fun s h => ?_) h
    extract_lets s1
    have h1 : Formed s1.mems := by
      refine each_formed _ _ (fun c s hs => ?_) h
      exact when_formed _ _ (hmove c _) hs
    clear_value s1
    exact formed_of_ite (fun _ => hmove g 1 h1) fun _ => h1

theorem execWatchdog_formed {e : Fin 4} {s t : State} (ht : execWatchdog e s = .next t) (h : Formed s.mems) :
    Formed t.mems := by
  refine actWhen_formed ht (fun s h => ?_) h
  repeat' split
  · exact h
  · exact h
  · exact enterException_formed _ _ _ _ h

theorem execBudgetWarn_formed {e : Fin 4} {s t : State} (ht : execBudgetWarn e s = .next t) (h : Formed s.mems) :
    Formed t.mems := by
  refine actWhen_formed ht (fun s h => ?_) h
  have h1 : Formed (budgetFault e corrected 0x01 s).mems := h.keep (budgetFault_hide _ _ _ _) rfl
  dsimp only
  split
  · exact h1.keep (State.setE_hide _ _ _) rfl
  · exact enterException_formed _ _ _ _ (h1.keep (State.setE_hide _ _ _) rfl)

theorem execCaldera_formed {bad : Bool} {s t : State} (ht : execCaldera bad s = .next t) (h : Formed s.mems) :
    Formed t.mems := by
  refine actWhen_formed ht (fun s h => ?_) h
  dsimp only
  repeat' split
  · exact h
  · simpa using h
  · exact calderaRest_formed _ (by simpa using h)

theorem execPowerOn_formed {low : Bool} {vbulk : BitVec 16} {vaux conv : Bool} {off : BitVec 64} {resetLow holdLow : Bool}
    {s t : State} (ht : execPowerOn low vbulk vaux conv off resetLow holdLow s = .next t) (h : Formed s.mems) :
    Formed t.mems := by
  unfold execPowerOn at ht
  refine actWhen_formed ht (fun s h => ?_) h
  extract_lets s1 s2 s3 s4
  have h4 : Formed s4.mems := by
    simpa [s4, s3, s2] using coldReset_formed .powerOn (s := s1) (by simpa [s1] using h)
  split
  · exact h4
  · exact h4.keep (beginK0_hide _) rfl

theorem execPlugInserted_formed {mem : List (Nat × Byte)} {rdid rdsr : Byte} {s t : State}
    (ht : execPlugInserted mem rdid rdsr s = .next t) (h : Formed s.mems) : Formed t.mems := by
  refine actWhen_formed ht (fun s h => ?_) h
  rw [State.mems, State.modNode_hide _ _ _ (by decide)]
  exact ⟨h.1, patch_wf mem (t := []) rfl, h.2.2⟩

theorem execPlugRemoved_formed {s t : State} (ht : execPlugRemoved s = .next t) (h : Formed s.mems) : Formed t.mems :=
  actWhen_formed ht (fun _ h => Formed.keep (when_formed _ _ plugLost_formed h) (State.modNode_hide _ _) rfl) h

theorem execPlugHold_formed {s t : State} (ht : execPlugHold s = .next t) (h : Formed s.mems) : Formed t.mems := by
  cases ht
  refine Formed.keep ?_ (State.modNode_hide _ _) rfl
  have h1 := h.keep (State.modNode_hide (fun x => { x with holdLow := true }) s) rfl
  repeat' split
  · exact enterHold_formed h1
  · exact pwrRecord_formed h1
  · exact h1
  · exact h1

theorem execPlugHoldRelease_formed {patch : List (Nat × Byte)} {s t : State} (ht : execPlugHoldRelease patch s = .next t)
    (h : Formed s.mems) : Formed t.mems := by
  refine actWhen_formed ht (fun s h => ?_) h
  extract_lets held plug s1 s2
  have h1 : Formed s1.mems := by
    simp only [s1]
    split
    · exact ⟨h.1, patch_wf patch h.2.1, h.2.2⟩
    · exact h
  clear_value s1
  have h2 : Formed s2.mems := h1.keep (State.modNode_hide _ _) rfl
  split
  · exact coldReset_formed _ h2
  · exact h2

theorem execPwrfail_formed {vbulk : BitVec 16} {s t : State} (ht : execPwrfail vbulk s = .next t) (h : Formed s.mems) :
    Formed t.mems := by
  refine actWhen_formed ht (fun s h => pwrfail_formed _ ?_) h
  split
  · exact resumeNode_formed _ _ h
  · exact h

theorem execK3_formed {bad : BitVec 2} {s t : State} (ht : execK3 bad s = .next t) (h : Formed s.mems) :
    Formed t.mems := by
  refine actWhen_formed ht (fun s h => ?_) h
  have h1 := k3_formed false (fun c => bad.getLsbD c.toNat) h
  dsimp only
  split
  · exact h1
  · exact h1.keep (endPhase_hide _ _ _) rfl

theorem execK5_formed {bad : Option (Fin 64)} {s t : State} (ht : execK5 bad s = .next t) (h : Formed s.mems) :
    Formed t.mems := by
  refine actWhen_formed ht (fun s h => ?_) h
  split
  · exact h.keep (loadFailed_hide _ _ _) rfl
  · refine Formed.keep (Formed.keep ?_ (rebuildWork_hide _) rfl) (endPhase_hide _ _ _) rfl
    exact loadTables_formed (h.keep (loadChannels_hide _) rfl)

theorem execK6_formed {s t : State} (ht : execK6 s = .next t) (h : Formed s.mems) : Formed t.mems := by
  refine actWhen_formed ht (fun s h => ?_) h
  repeat' split
  · exact warmK8_formed (h.keep (endPhase_hide _ _ _) rfl)
  · exact h
  · exact h
  · exact h.keep (endK6_hide _) rfl
  · exact h.keep (sendHello_hide _) rfl
  · exact h

theorem execK8_formed {s t : State} (ht : execK8 s = .next t) (h : Formed s.mems) : Formed t.mems :=
  actWhen_formed ht (fun s h => enterK8_formed (fun s => by simp) _ _ (by simpa using h)) h

theorem execSinterResume_formed {frzHigh : Bool} {s t : State} (ht : execSinterResume frzHigh s = .next t)
    (h : Formed s.mems) : Formed t.mems := by
  cases ht
  have h1 : Formed (tapInstruction 0x41 s).mems := h.keep (tapInstruction_hide _ _) rfl
  dsimp only
  repeat' split
  · exact h1
  · exact resumeNode_formed _ _ h1
  · exact h1.keep (State.modNode_hide _ _) rfl

theorem execException_formed {e : Fin 4} {c : Exc} {addr : Word} {s t : State} (ht : execException e c addr s = .next t)
    (h : Formed s.mems) : Formed t.mems := by
  refine actWhen_formed ht (fun s h => ?_) h
  dsimp only
  repeat' split
  all_goals simp [h]

theorem execWriteBack_formed {a : Word} {s t : State} (ht : execWriteBack a s = .next t) (h : Formed s.mems) :
    Formed t.mems := actWhen_formed ht (fun _ h => h.spm rfl) h

theorem execStoreDrain_formed {e : Fin 4} {dual : BitVec 9} {others : List (BitVec 9)} {s t : State}
    (ht : execStoreDrain e dual others s = .next t) (h : Formed s.mems) :
    Formed t.mems := actWhen_formed ht (fun _ h => boundary_formed _ (drainCycle_formed _ _ _ h)) h

theorem execPwrfailHalt_formed {s t : State} (ht : execPwrfailHalt s = .next t) (h : Formed s.mems) :
    Formed t.mems := actWhen_formed ht (fun _ h => pwrRecord_formed (by simpa using h)) h

theorem execResetN_formed {s t : State} (ht : execResetN s = .next t) (h : Formed s.mems) :
    Formed t.mems := actWhen_formed ht (fun _ h => holdInReset_formed _ (beforeReset_formed h)) h

theorem execCalderaExit_formed {s t : State} (ht : execCalderaExit s = .next t) (h : Formed s.mems) :
    Formed t.mems := actWhen_formed ht (fun _ h => holdInReset_formed _
      (continueCaldera_formed (h.keep (State.modNode_hide _ _) rfl))) h

theorem execK2_formed {fails : List (Nat × Nat)} {s t : State} (ht : execK2 fails s = .next t) (h : Formed s.mems) :
    Formed t.mems := actWhen_formed ht (fun _ h => (k2_formed _ h).keep (endPhase_hide _ _ _) rfl) h

theorem execWarmRestart_formed {fails : List (Nat × Nat)} {rewriteBad : BitVec 2} {bad : Option (Fin 64)} {s t : State}
    (ht : execWarmRestart fails rewriteBad bad s = .next t) (h : Formed s.mems) :
    Formed t.mems := actWhen_formed ht (fun _ h => warmRun_formed _ _ _ (warmK0_formed h)) h

theorem execMemacc_formed {write : Bool} {addr : BitVec 20} {data : BitVec 64} {s t : State}
    (ht : execMemacc write addr data s = .next t) (h : Formed s.mems) : Formed t.mems := by
  cases ht
  exact memaccAccess_formed _ _ _ (h.keep (tapInstruction_hide _ _) rfl)

/-- Every command keeps the memories in their form. -/
theorem exec_formed {s s' : State} : ∀ {c : Instr}, exec c s = .next s' → Formed s.mems → Formed s'.mems
  | .powerOn _ _ _ _ _ _ _, h, hs => execPowerOn_formed h hs
  | .resetN, h, hs => execResetN_formed h hs
  | .resetNRelease, h, hs => hs.of_hide (execResetNRelease_hide s s' h) rfl
  | .calderaExit, h, hs => execCalderaExit_formed h hs
  | .warmRestart _ _ _, h, hs => execWarmRestart_formed h hs
  | .k0, h, hs => hs.of_hide (execK0_hide s s' h) rfl
  | .k1 sets, h, hs => hs.of_hide (execK1_hide sets s s' h) rfl
  | .plugAbsent, h, hs => hs.of_hide (execPlugAbsent_hide s s' h) rfl
  | .k2 _, h, hs => execK2_formed h hs
  | .k3 _, h, hs => execK3_formed h hs
  | .k4, h, hs => hs.of_hide (execK4_hide s s' h) rfl
  | .k5 _, h, hs => execK5_formed h hs
  | .k6, h, hs => execK6_formed h hs
  | .mfeAbsent, h, hs => hs.of_hide (execMfeAbsent_hide s s' h) rfl
  | .k7, h, hs => hs.of_hide (execK7_hide s s' h) rfl
  | .k8, h, hs => execK8_formed h hs
  | .pwrfail _, h, hs => execPwrfail_formed h hs
  | .pwrfailHalt, h, hs => execPwrfailHalt_formed h hs
  | .pwrfailHeartbeatStop, h, hs => hs.of_hide (execPwrfailHeartbeatStop_hide s s' h) rfl
  | .plugInserted _ _ _, h, hs => execPlugInserted_formed h hs
  | .plugRemoved, h, hs => execPlugRemoved_formed h hs
  | .plugHold, h, hs => execPlugHold_formed h hs
  | .plugHoldRelease _, h, hs => execPlugHoldRelease_formed h hs
  | .heartbeatLost, h, hs => hs.of_hide (execHeartbeatLost_hide s s' h) rfl
  | .coilEnergise, h, hs => hs.of_hide (execCoilEnergise_hide s s' h) rfl
  | .switchMismatch, h, hs => hs.of_hide (execSwitchMismatch_hide s s' h) rfl
  | .mfeBoot, h, hs => hs.of_hide (execMfeBoot_hide s s' h) rfl
  | .mfeHeartbeatLost, h, hs => hs.of_hide (execMfeHeartbeatLost_hide s s' h) rfl
  | .mfeHoldEnd, h, hs => hs.of_hide (execMfeHoldEnd_hide s s' h) rfl
  | .hello f, h, hs => hs.of_hide (execHello_hide f s s' h) rfl
  | .failstate f, h, hs => hs.of_hide (execFailstate_hide f s s' h) rfl
  | .schedule f, h, hs => hs.of_hide (execSchedule_hide f s s' h) rfl
  | .barrierCancel f, h, hs => hs.of_hide (execBarrierCancel_hide f s s' h) rfl
  | .setNow f, h, hs => hs.of_hide (execSetNow_hide f s s' h) rfl
  | .timeFrame f transit, h, hs => hs.of_hide (execTimeFrame_hide f transit s s' h) rfl
  | .config f, h, hs => hs.of_hide (execConfig_hide f s s' h) rfl
  | .barrierQuery f, h, hs => hs.of_hide (execBarrierQuery_hide f s s' h) rfl
  | .failnow f, h, hs => hs.of_hide (execFailnow_hide f s s' h) rfl
  | .gate k, h, hs => hs.of_hide (execGate_hide k s s' h) rfl
  | .overcurrent k, h, hs => hs.of_hide (execOvercurrent_hide k s s' h) rfl
  | .hviOn k first later below, h, hs => hs.of_hide (execHviOn_hide k first later below s s' h) rfl
  | .hviOff k last, h, hs => hs.of_hide (execHviOff_hide k last s s' h) rfl
  | .completion atMfe f, h, hs => hs.of_hide (execCompletion_hide atMfe f s s' h) rfl
  | .statusFrame f, h, hs => hs.of_hide (execStatusFrame_hide f s s' h) rfl
  | .teeth f, h, hs => hs.of_hide (execTeeth_hide f s s' h) rfl
  | .hvEvent _, h, hs => execHvEvent_formed h hs
  | .measure f, h, hs => hs.of_hide (execMeasure_hide f s s' h) rfl
  | .optime f, h, hs => hs.of_hide (execOptime_hide f s s' h) rfl
  | .retransmission atMfe seq, h, hs => hs.of_hide (execRetransmission_hide atMfe seq s s' h) rfl
  | .requestTimeout atMfe seq, h, hs => hs.of_hide (execRequestTimeout_hide atMfe seq s s' h) rfl
  | .linkDown, h, hs => hs.of_hide (execLinkDown_hide s s' h) rfl
  | .handshake, h, hs => hs.of_hide (execHandshake_hide s s' h) rfl
  | .mailboxRequest v, h, hs => hs.of_hide (execMailboxRequest_hide v s s' h) rfl
  | .transfer _, h, hs => actWhen_formed h (fun _ hs => hs.of_eq (writePlgCtl_mems _ _)) hs
  | .transferEnd, h, hs => execTransferEnd_formed h hs
  | .imageOffer, h, hs => onImage_formed h (fun _ _ => takeImageOffer_formed _) hs
  | .chunk, h, hs => onImage_formed h (fun _ _ => takeChunk_formed _) hs
  | .imageStatus, h, hs => hs.of_hide (execImageStatus_hide s s' h) rfl
  | .beacon, h, hs => hs.of_hide (execBeacon_hide s s' h) rfl
  | .offerRound, h, hs => hs.of_hide (execOfferRound_hide s s' h) rfl
  | .needReport, h, hs => hs.of_hide (execNeedReport_hide s s' h) rfl
  | .arming, h, hs => execArming_formed h hs
  | .preload, h, hs => actWhen_formed h (fun _ => preload_formed) hs
  | .draining, h, hs => hs.of_hide (execDraining_hide s s' h) rfl
  | .pageSwap, h, hs => execPageSwap_formed h hs
  | .ppsInEdge t, h, hs => hs.of_hide (execPpsInEdge_hide t s s' h) rfl
  | .srcLabel v, h, hs => hs.of_hide (execSrcLabel_hide v s s' h) rfl
  | .softSubmission v, h, hs => hs.of_hide (execSoftSubmission_hide v s s' h) rfl
  | .sourceInvalid, h, hs => hs.of_hide (execSourceInvalid_hide s s' h) rfl
  | .step, h, hs => hs.of_hide (execStep_hide s s' h) rfl
  | .locked, h, hs => hs.of_hide (execLocked_hide s s' h) rfl
  | .holdoverExpired, h, hs => hs.of_hide (execHoldoverExpired_hide s s' h) rfl
  | .announce v, h, hs => hs.of_hide (execAnnounce_hide v s s' h) rfl
  | .second, h, hs => hs.of_hide (execSecond_hide s s' h) rfl
  | .refFail, h, hs => hs.of_hide (execRefFail_hide s s' h) rfl
  | .coreUnlock, h, hs => hs.of_hide (execCoreUnlock_hide s s' h) rfl
  | .auxUnlock, h, hs => hs.of_hide (execAuxUnlock_hide s s' h) rfl
  | .rtcFail, h, hs => hs.of_hide (execRtcFail_hide s s' h) rfl
  | .insert _ _ _ _ _ _, h, hs => execInsert_formed h hs
  | .cancel _ _ _ _, h, hs => execCancel_formed h hs
  | .flush c, h, hs => hs.of_hide (execFlush_hide c s s' h) rfl
  | .channelEnable c v, h, hs => hs.of_hide (execChannelEnable_hide c v s s' h) rfl
  | .dueKey c, h, hs => hs.of_hide (execDueKey_hide c s s' h) rfl
  | .forward c, h, hs => hs.of_hide (execForward_hide c s s' h) rfl
  | .hvEntryBegin c, h, hs => hs.of_hide (execHvEntryBegin_hide c s s' h) rfl
  | .periodBoundary c, h, hs => hs.of_hide (execPeriodBoundary_hide c s s' h) rfl
  | .apply g, h, hs => hs.of_hide (execApply_hide g s s' h) rfl
  | .planesWrite g v, h, hs => hs.of_hide (execPlanesWrite_hide g v s s' h) rfl
  | .planeBoundary g, h, hs => hs.of_hide (execPlaneBoundary_hide g s s' h) rfl
  | .edge _ _ _, h, hs => actWhen_formed h (fun _ => takeEdge_formed _ _ _) hs
  | .tooth w, h, hs => hs.of_hide (execTooth_hide w s s' h) rfl
  | .stall w, h, hs => hs.of_hide (execStall_hide w s s' h) rfl
  | .syntheticToothPush w hi, h, hs => hs.of_hide (execSyntheticToothPush_hide w hi s s' h) rfl
  | .fifoFlush w, h, hs => hs.of_hide (execFifoFlush_hide w s s' h) rfl
  | .resync w, h, hs => hs.of_hide (execResync_hide w s s' h) rfl
  | .wheelEnable w v, h, hs => hs.of_hide (execWheelEnable_hide w v s s' h) rfl
  | .headArming c, h, hs => hs.of_hide (execHeadArming_hide c s s' h) rfl
  | .storeDrain _ _ _, h, hs => execStoreDrain_formed h hs
  | .exception _ _ _, h, hs => execException_formed h hs
  | .watchdog _, h, hs => execWatchdog_formed h hs
  | .budgetWarn _, h, hs => execBudgetWarn_formed h hs
  | .budgetAbort e, h, hs => hs.of_hide (execBudgetAbort_hide e s s' h) rfl
  | .interrupt, h, hs => hs.of_hide (execInterrupt_hide s s' h) rfl
  | .dispatch, h, hs => hs.of_hide (execDispatch_hide s s' h) rfl
  | .ready m, h, hs => hs.of_hide (execReady_hide m s s' h) rfl
  | .unready m, h, hs => hs.of_hide (execUnready_hide m s s' h) rfl
  | .restart e, h, hs => hs.of_hide (execRestart_hide e s s' h) rfl
  | .timerFire k, h, hs => hs.of_hide (execTimerFire_hide k s s' h) rfl
  | .scrub, h, hs => hs.of_hide (execScrub_hide s s' h) rfl
  | .csScrubbed, h, hs => hs.of_hide (execCsScrubbed_hide s s' h) rfl
  | .csUncorr, h, hs => hs.of_hide (execCsUncorr_hide s s' h) rfl
  | .movi _ _ _, h, hs => computed_formed h hs
  | .mov _ _ _, h, hs => computed_formed h hs
  | .nop _, h, hs => computed_formed h hs
  | .add _ _ _ _, h, hs => computed_formed h hs
  | .addi _ _ _ _, h, hs => computed_formed h hs
  | .adc _ _ _ _, h, hs => computed_formed h hs
  | .adci _ _ _ _, h, hs => computed_formed h hs
  | .sub _ _ _ _, h, hs => computed_formed h hs
  | .subi _ _ _ _, h, hs => computed_formed h hs
  | .sbc _ _ _ _, h, hs => computed_formed h hs
  | .sbci _ _ _ _, h, hs => computed_formed h hs
  | .and _ _ _ _, h, hs => computed_formed h hs
  | .andi _ _ _ _, h, hs => computed_formed h hs
  | .or _ _ _ _, h, hs => computed_formed h hs
  | .ori _ _ _ _, h, hs => computed_formed h hs
  | .xor _ _ _ _, h, hs => computed_formed h hs
  | .xori _ _ _ _, h, hs => computed_formed h hs
  | .andn _ _ _ _, h, hs => computed_formed h hs
  | .andni _ _ _ _, h, hs => computed_formed h hs
  | .cmp _ _ _, h, hs => computed_formed h hs
  | .cmpi _ _ _, h, hs => computed_formed h hs
  | .tst _ _ _, h, hs => computed_formed h hs
  | .tsti _ _ _, h, hs => computed_formed h hs
  | .min _ _ _ _, h, hs => computed_formed h hs
  | .mini _ _ _ _, h, hs => computed_formed h hs
  | .max _ _ _ _, h, hs => computed_formed h hs
  | .maxi _ _ _ _, h, hs => computed_formed h hs
  | .minu _ _ _ _, h, hs => computed_formed h hs
  | .minui _ _ _ _, h, hs => computed_formed h hs
  | .maxu _ _ _ _, h, hs => computed_formed h hs
  | .maxui _ _ _ _, h, hs => computed_formed h hs
  | .lsl _ _ _ _, h, hs => computed_formed h hs
  | .lsli _ _ _ _, h, hs => computed_formed h hs
  | .lsr _ _ _ _, h, hs => computed_formed h hs
  | .lsri _ _ _ _, h, hs => computed_formed h hs
  | .asr _ _ _ _, h, hs => computed_formed h hs
  | .asri _ _ _ _, h, hs => computed_formed h hs
  | .ror _ _ _ _, h, hs => computed_formed h hs
  | .rori _ _ _ _, h, hs => computed_formed h hs
  | .bfx _ _ _ _ _, h, hs => legalComputed_formed h hs
  | .bfi _ _ _ _ _, h, hs => legalComputed_formed h hs
  | .clz _ _ _, h, hs => computed_formed h hs
  | .popc _ _ _, h, hs => computed_formed h hs
  | .mul _ _ _ _, h, hs => computed_formed h hs
  | .mulu _ _ _ _, h, hs => legalComputed_formed h hs
  | .muls _ _ _ _, h, hs => legalComputed_formed h hs
  | .dstep _ _ _ _, h, hs => legalComputed_formed h hs
  | .sincos _ _ _, h, hs => legalComputed_formed h hs
  | .atan2 _ _ _ _, h, hs => legalComputed_formed h hs
  | .sqrt _ _ _, h, hs => computed_formed h hs
  | .ld _ _ _ _ _ _ _, h, hs => execLd_formed h hs
  | .st _ _ _ _ _, h, hs => execSt_formed h hs
  | .fence _, h, hs => execFence_formed h hs
  | .time _ _, h, hs => legalComputed_formed h hs
  | .who _ _, h, hs => computed_formed h hs
  | .shift _ _ _ _ _, h, hs => execShift_formed h hs
  | .wpos _ _ _, h, hs => execWpos_formed h hs
  | .wpred _ _ _ _, h, hs => execWpred_formed h hs
  | .bsend _ _ _ _, h, hs => execBsend_formed h hs
  | .gstart _ _ _ _, h, hs => execGstart_formed h hs
  | .doorbell _ _, h, hs => execDoorbell_formed h hs
  | .yield _, h, hs => execYield_formed h hs
  | .wait _ _ _, h, hs => execWait_formed h hs
  | .b _ _ _, h, hs => execB_formed h hs
  | .call _ _ _, h, hs => execCall_formed h hs
  | .jr _ _, h, hs => execJr_formed h hs
  | .ret _, h, hs => execReturn_formed h hs
  | .reti _, h, hs => execReti_formed h hs
  | .eret _, h, hs => execEret_formed h hs
  | .bz _ _ _, h, hs => execBz_formed h hs
  | .bnz _ _ _, h, hs => execBnz_formed h hs
  | .dbnz _ _ _, h, hs => execDbnz_formed h hs
  | .latSet k v, h, hs => hs.of_hide (execLatSet_hide k v s s' h) rfl
  | .writeBack _, h, hs => execWriteBack_formed h hs
  | .powerWrite _ _ _, h, hs => actWhen_formed h (fun _ => writePower_formed _ _ _) hs
  | .bankOn _, h, hs => actWhen_formed h (fun _ => wakeBank_formed _) hs
  | .march _ _, h, hs => actWhen_formed h (fun _ => writeMarch_formed _) hs
  | .marchDone _, h, hs => execMarchDone_formed h hs
  | .geyserGo _, h, hs => actWhen_formed h (fun _ hs => hs.of_eq (writeGsrCtl_mems _ _ _)) hs
  | .resume _, h, hs => actWhen_formed h (fun _ hs => hs.of_eq (geyserResume_mems _ _)) hs
  | .abort _ _, h, hs => execAbort_formed h hs
  | .descriptorComplete _, h, hs => actWhen_formed h (fun _ => moveThenFinish_formed _ _) hs
  | .busStop _ _, h, hs => execBusStop_formed h hs
  | .frameReceived p full stamp power f bad corr, h,
    hs => hs.of_hide (execFrameReceived_hide p full stamp power f bad corr s s' h) rfl
  | .frameBuilt _ _ _, h, hs => execFrameBuilt_formed h hs
  | .defectDeclared p d power, h, hs => hs.of_hide (execDefectDeclared_hide p d power s s' h) rfl
  | .defectCleared p d, h, hs => hs.of_hide (execDefectCleared_hide p d s s' h) rfl
  | .trainingStep p, h, hs => hs.of_hide (execTrainingStep_hide p s s' h) rfl
  | .fallback p, h, hs => hs.of_hide (execFallback_hide p s s' h) rfl
  | .retrain p write, h, hs => hs.of_hide (execRetrain_hide p write s s' h) rfl
  | .slip p fill, h, hs => hs.of_hide (execSlip_hide p fill s s' h) rfl
  | .masterSlip p again align, h, hs => hs.of_hide (execMasterSlip_hide p again align s s' h) rfl
  | .wrap p, h, hs => hs.of_hide (execWrap_hide p s s' h) rfl
  | .wtrDone p, h, hs => hs.of_hide (execWtrDone_hide p s s' h) rfl
  | .unwrap p, h, hs => hs.of_hide (execUnwrap_hide p s s' h) rfl
  | .insertionRequest, h, hs => hs.of_hide (execInsertionRequest_hide s s' h) rfl
  | .insertFailed, h, hs => hs.of_hide (execInsertFailed_hide s s' h) rfl
  | .backoff, h, hs => hs.of_hide (execBackoff_hide s s' h) rfl
  | .bypassReq v, h, hs => hs.of_hide (execBypassReq_hide v s s' h) rfl
  | .swap, h, hs => actWhen_formed h (fun _ hs => hs.of_eq (requestSwap_mems _)) hs
  | .copy, h, hs => actWhen_formed h (fun _ hs => hs.of_eq (requestCopy_mems _)) hs
  | .copyDone, h, hs => execCopyDone_formed h hs
  | .swapCancel, h, hs => actWhen_formed h (fun _ hs => hs.of_eq (cancelSwap_mems _)) hs
  | .cmData _ _, h, hs => execCmData_formed h hs
  | .txdFrame p, h, hs => hs.of_hide (execTxdFrame_hide p s s' h) rfl
  | .rxdFrame p b, h, hs => hs.of_hide (execRxdFrame_hide p b s s' h) rfl
  | .binClose, h, hs => hs.of_hide (execBinClose_hide s s' h) rfl
  | .perfSel v, h, hs => hs.of_hide (execPerfSel_hide v s s' h) rfl
  | .origination v, h, hs => hs.of_hide (execOrigination_hide v s s' h) rfl
  | .custodyFull, h, hs => hs.of_hide (execCustodyFull_hide s s' h) rfl
  | .recordCommit _, h, hs => actWhen_formed h (fun _ => commitNext_formed _) hs
  | .offer, h, hs => hs.of_hide (execOffer_hide s s' h) rfl
  | .report, h, hs => onCell_formed h (fun _ _ => takeReport_formed _) hs
  | .query, h, hs => hs.of_hide (execQuery_hide s s' h) rfl
  | .retry slot t, h, hs => hs.of_hide (execRetry_hide slot t s s' h) rfl
  | .poll slot t, h, hs => hs.of_hide (execPoll_hide slot t s s' h) rfl
  | .expires slot, h, hs => hs.of_hide (execExpires_hide slot s s' h) rfl
  | .chInsert, h, hs => hs.of_hide (execChInsert_hide s s' h) rfl
  | .chCancel, h, hs => hs.of_hide (execChCancel_hide s s' h) rfl
  | .setValue, h, hs => execSetValue_formed h hs
  | .activateImage, h, hs => execActivateImage_formed h hs
  | .headRetry, h, hs => execHeadRetry_formed h hs
  | .abandon _, h, hs => actWhen_formed h (fun _ => writeAbandon_formed _) hs
  | .faultMessage, h, hs => hs.of_hide (execFaultMessage_hide s s' h) rfl
  | .warned k, h, hs => hs.of_hide (execWarned_hide k s s' h) rfl
  | .escalation k, h, hs => hs.of_hide (execEscalation_hide k s s' h) rfl
  | .ack v, h, hs => hs.of_hide (execAck_hide v s s' h) rfl
  | .clearFirst, h, hs => hs.of_hide (execClearFirst_hide s s' h) rfl
  | .pulseEnd, h, hs => hs.of_hide (execPulseEnd_hide s s' h) rfl
  | .arm v, h, hs => hs.of_hide (execArm_hide v s s' h) rfl
  | .selfParity off, h, hs => hs.of_hide (execSelfParity_hide off s s' h) rfl
  | .caldera _, h, hs => execCaldera_formed h hs
  | .freeze, h, hs => hs.of_hide (execFreeze_hide s s' h) rfl
  | .sinterResume _, h, hs => execSinterResume_formed h hs
  | .sinterRead seg word, h, hs => hs.of_hide (execSinterRead_hide seg word s s' h) rfl
  | .memacc _ _ _, h, hs => execMemacc_formed h hs
  | .extest pins shift, h, hs => hs.of_hide (execExtest_hide pins shift s s' h) rfl
  | .samplePreload pins shift, h, hs => hs.of_hide (execSamplePreload_hide pins shift s s' h) rfl
  | .bypass, h, hs => hs.of_hide (execBypass_hide s s' h) rfl
  | .latchedRead m a, h, hs => hs.of_hide (execLatchedRead_hide m a s s' h) rfl
  | .clearingRead m a, h, hs => hs.of_hide (execClearingRead_hide m a s s' h) rfl
  | .registerWrite _ _ _, h, hs => actWhen_formed h (fun _ => regWrite_formed _ _ _) hs
  | .mfeSupplyLost unpowered, h, hs => hs.of_hide (execMfeSupplyLost_hide unpowered s s' h) rfl
  | .mainsZeroCrossing p t rms freq thd cycle, h,
    hs => hs.of_hide (execMainsZeroCrossing_hide p t rms freq thd cycle s s' h) rfl
  | .timeFrameSend, h, hs => hs.of_hide (execTimeFrameSend_hide s s' h) rfl
  | .statusFrameSend temp overtemp, h, hs => hs.of_hide (execStatusFrameSend_hide temp overtemp s s' h) rfl
  | .switchPosition inserted, h, hs => hs.of_hide (execSwitchPosition_hide inserted s s' h) rfl
  | .txFail p power, h, hs => hs.of_hide (execTxFail_hide p power s s' h) rfl
  | .rtcLost, h, hs => hs.of_hide (execRtcLost_hide s s' h) rfl
  | .ppsOutFall, h, hs => hs.of_hide (execPpsOutFall_hide s s' h) rfl
  | .beaconSend, h, hs => hs.of_hide (execBeaconSend_hide s s' h) rfl
  | .spent slot, h, hs => hs.of_hide (execSpent_hide slot s s' h) rfl

/-- So does every step (a CORE cycle moves none of the three but where the march has a bank whose content it loses). -/
theorem step_formed {s t : State} (h : Formed s.mems) (ht : step s = .next t) : Formed t.mems := by
  unfold step at ht
  split at ht
  · cases ht
    exact tick_formed h
  · exact exec_formed ht h

end Sys2Proof.Machine

namespace Sys2Proof.Safety
open Sys2Proof.Machine

/-- Settles O60: no shared operation of the model spoils the form, so no command and no CORE cycle does. -/
theorem memoriesCanonical : Obligations.MemoriesCanonical := fun _ _ => step_formed

end Sys2Proof.Safety
end

section
/-! Plug transfers (R160, R161): what a plug without power does to the statement about them. -/

namespace Sys2Proof.Safety
open Sys2Proof.Machine

/-- The one byte of the transfer under way in `unpoweredPlug`, from the start of scratchpad to the start of the log area. -/
def oneByteOut : Transfer := { toPlug := true, addr := 0xFA000, spad := 0, len := 1 }

/-- A running node whose plug is present while PVDD is off, with every bank On, a 1 in the first byte of scratchpad and
`oneByteOut` under way. -/
def unpoweredPlug : State :=
  ({ State.reset with
      node := { Node.reset with plugPresent := true, pvdd := false }
      spm := { Scratchpad.reset with mem := [(0, 1)], ecc := [] }
      plug := { Plug.reset with xfer := some oneByteOut } } : State).put F.SPM_PSTAT_ON 0x1FFFF

theorem unpoweredPlug_meets : unpoweredPlug.live = true ∧ unpoweredPlug.node.plugPresent = true ∧
    unpoweredPlug.node.pwr = .none ∧ unpoweredPlug.plug.xfer = some oneByteOut ∧ unpoweredPlug.spm.ecc = [] ∧
    (∀ w, w < 8 → unpoweredPlug.window? w = none) ∧ unpoweredPlug.bit F.FLT_INJ_ARM = false ∧
    unpoweredPlug.get F.SPM_PSTAT_ON = 0x1FFFF := by
  decide +kernel

/-- TRANSFER_END writes nothing to a plug that cannot be written. -/
theorem moveBytes_plug_of_not_plugWrites {x : Transfer} (hx : x.toPlug = true) (n : Nat) {s : State}
    (h : s.plugWrites = false) : (moveBytes x n s).2.plug = s.plug := by
  have hplug := plug_same_of_hide (m := 1089) rfl (spmGet_hide 7 x.spad 1025 n s _ rfl)
  have hnode := node_of_hide (spmGet_hide 7 x.spad 1025 n s _ (by decide))
  have hw : (spmGet 7 x.spad 1025 n s).2.plugWrites = false := by
    rwa [State.plugWrites, State.plugReachable, hnode]
  simp only [moveBytes, hx, if_true, writePlug, hw, Bool.false_eq_true, if_false, hplug]

theorem transferEnd_plugMem_of_not_plugWrites {x : Transfer} {s t : State} (hxfer : s.plug.xfer = some x)
    (hx : x.toPlug = true) (h : s.plugWrites = false) (ht : exec .transferEnd s = .next t) : t.plug.mem = s.plug.mem := by
  replace ht : execTransferEnd s = .next t := ht
  simp only [execTransferEnd, actWhen_next] at ht
  subst ht
  split
  · rw [hxfer]
    simp [xferOver, moveBytes_plug_of_not_plugWrites hx x.len h]
  · rfl

/-- Refutes O43: a plug that is present but without PVDD takes no byte (R57 turns PVDD off at the hold, and `writePlug` asks
for it), and the statement's premises say nothing of PVDD. In `unpoweredPlug` the one byte to be moved is 1 and the plug
holds 0 there before and after TRANSFER_END. -/
theorem not_plugTransfers : ¬ Obligations.PlugTransfers := by
  unfold Obligations.PlugTransfers
  rintro ⟨-, hend, -⟩
  obtain ⟨hlive, hplug, hpwr, hxfer, hecc, hwin, harm, hon⟩ := unpoweredPlug_meets
  obtain ⟨hto, -, -⟩ := hend oneByteOut unpoweredPlug hlive hplug hpwr hxfer (by decide) (by decide) (by decide) (by decide)
    hecc hwin harm
  obtain ⟨t, ht, -, -, hbytes, -⟩ := hto hon rfl
  have hmem := transferEnd_plugMem_of_not_plugWrites hxfer rfl (by decide +kernel) ht
  have hbyte := hbytes 0 (by decide)
  rw [hmem] at hbyte
  exact absurd hbyte (by decide +kernel)
end Sys2Proof.Safety
end

section
/-! The laws the delivery of an image rests on: which part a step leaves, which field a write leaves, and what stands in the plug
after a WRITE of it. -/

namespace Sys2Proof.Machine
open Safety

/-! ## Parts -/

theorem col_same_of_hide {s t : State} {m : Nat} (hm : m.testBit 6 = false) (h : t.hide m = s.hide m) : t.col = s.col := by
  simpa [State.hide, hm] using congrArg State.col h

theorem tsi_same_of_hide {s t : State} {m : Nat} (hm : m.testBit 20 = false) (h : t.hide m = s.hide m) : t.tsi = s.tsi := by
  simpa [State.hide, hm] using congrArg State.tsi h

theorem work_same_of_hide {s t : State} {m : Nat} (hm : m.testBit 24 = false) (h : t.hide m = s.hide m) : t.work = s.work := by
  simpa [State.hide, hm] using congrArg State.work h

theorem dist_same_of_hide {s t : State} {m : Nat} (hm : m.testBit 25 = false) (h : t.hide m = s.hide m) : t.dist = s.dist := by
  simpa [State.hide, hm] using congrArg State.dist h

/-! ## Registers -/

/-- A field that shares no bit with the one written reads as before. -/
theorem State.get_put_ne {f g : Field} (hg : g.Fits) (h : g.addr ≠ f.addr ∨ g.hi < f.lo ∨ f.hi < g.lo) (v : Nat) (s : State) :
    (s.put f v).get g = s.get g := by
  by_cases ha : g.addr = f.addr
  · exact State.get_put_apart f g v s hg (by tauto)
  · exact State.get_put_addr f g v s ha

theorem State.get_interrupt_ne {src : Nat} {f : Field} (h : f.addr ≠ (cntField src).addr) (s : State) :
    (s.interrupt src).get f = s.get f := State.get_of_reg (State.reg_interrupt_ne src s h)

theorem State.get_raise_ne {f : Field} (h : f.addr ≠ F.FLT_CNT_B_DROPPED.addr) (x : FaultSpec) (s : State) :
    (s.raise x).get f = s.get f := State.get_of_reg (State.reg_raise_ne x s h)

/-! ## What the plug holds -/

theorem plugBytes_of_mem {s t : State} (h : t.plug.mem = s.plug.mem) (a n : Nat) : t.plugBytes a n = s.plugBytes a n := by
  rw [State.plugBytes, h, State.plugBytes]

theorem copyLe_of_mem {s t : State} (h : t.plug.mem = s.plug.mem) (c : Bool) (off n : Nat) : t.copyLe c off n = s.copyLe c off n := by
  simp only [State.copyLe, State.plugLe, plugBytes_of_mem h]

theorem copyBytes_of_mem {s t : State} (h : t.plug.mem = s.plug.mem) (c : Bool) (off n : Nat) :
    t.copyBytes c off n = s.copyBytes c off n := plugBytes_of_mem h _ _

/-- Each byte after a WRITE to a plug that can be written. -/
theorem tabGet_writePlug {s : State} (h : s.plugReachable = true) (a : Nat) (bs : List Byte) (j : Nat) :
    tabGet 0 (writePlug a bs s).plug.mem j =
      if a ≤ j ∧ j < a + bs.length then bs.getD (j - a) 0 else tabGet 0 s.plug.mem j := by
  rw [writePlug, if_pos (by rwa [State.plugWrites])]
  exact tabGet_setRun 0 bs s.plug.mem a j

/-- No WRITE reaches a byte outside its own. -/
theorem tabGet_writePlug_apart (a : Nat) (bs : List Byte) (s : State) {j : Nat} (h : j < a ∨ a + bs.length ≤ j) :
    tabGet 0 (writePlug a bs s).plug.mem j = tabGet 0 s.plug.mem j := by
  unfold writePlug
  split
  · exact (tabGet_setRun 0 bs s.plug.mem a j).trans (if_neg (by omega))
  · rfl

theorem plugBytes_writePlug {s : State} (h : s.plugReachable = true) (a : Nat) {bs : List Byte} {off n : Nat}
    (hin : off + n ≤ bs.length) : (writePlug a bs s).plugBytes (a + off) n = slice bs off n := by
  refine List.map_congr_left fun i hi => ?_
  rw [List.mem_range] at hi
  rw [tabGet_writePlug h, if_pos (by omega)]
  congr 1
  omega

@[simp] theorem commitBlock_length (commit seq act source : Nat) : (commitBlock commit seq act source).length = 64 := by
  simp [commitBlock]

theorem copyLe_writeCommit {s : State} (h : s.plugReachable = true) (c : Bool) (commit seq act source : Nat) {off n : Nat}
    (hin : off + n ≤ 64) :
    (writeCommit c commit seq act source s).copyLe c off n = leAt (commitBlock commit seq act source) off n := by
  rw [State.copyLe, State.plugLe, writeCommit, plugBytes_writePlug h _ (by rwa [commitBlock_length]), leAt]

/-- The fields of a commit block (Table 04-4). -/
theorem commitBlock_fields (commit seq act source : Nat) :
    leAt (commitBlock commit seq act source) 0 4 = commit % 2 ^ 32 ∧ leAt (commitBlock commit seq act source) 4 4 = seq % 2 ^ 32 ∧
    leAt (commitBlock commit seq act source) 8 8 = act % 2 ^ 64 ∧ leAt (commitBlock commit seq act source) 16 1 = source % 256 := by
  simp only [commitBlock, List.append_assoc]
  refine ⟨leAt_written [] _ 4 commit rfl, leAt_written _ _ 4 seq (by simp), ?_, ?_⟩
  · rw [← List.append_assoc]
    exact leAt_written _ _ 8 act (by simp)
  · rw [← List.append_assoc, ← List.append_assoc]
    exact leAt_written _ _ 1 source (by simp)

theorem writeCommit_apart (c : Bool) (commit seq act source : Nat) (s : State) {j : Nat}
    (h : j < copyBase c ∨ copyBase c + 64 ≤ j) :
    tabGet 0 (writeCommit c commit seq act source s).plug.mem j = tabGet 0 s.plug.mem j :=
  tabGet_writePlug_apart _ _ _ (by rwa [commitBlock_length])

end Sys2Proof.Machine
end

section
/-! What each shared step of the delivery of an image (04.10) leaves and sets. -/

namespace Sys2Proof.Machine
open Safety

theorem State.get_of_regs {s t : State} (h : t.regs = s.regs) (f : Field) : t.get f = s.get f := by
  rw [State.get, h, State.get]

/-! ## The steps of an image's delivery -/

@[simp] theorem setAct_rest (act : Nat) (s : State) : (setAct act s).dist = s.dist ∧ (setAct act s).plug = s.plug ∧
    (setAct act s).work = s.work ∧ (setAct act s).col = s.col ∧ (setAct act s).hrt = s.hrt ∧ (setAct act s).tsi = s.tsi ∧
    (setAct act s).node = s.node ∧ (setAct act s).cycles = s.cycles ∧ (setAct act s).ic = s.ic ∧ (setAct act s).bar = s.bar ∧
    (setAct act s).now = s.now :=
  ⟨rfl, rfl, rfl, rfl, rfl, rfl, rfl, rfl, rfl, rfl, rfl⟩

@[simp] theorem setDist_rest (st : Nat) (s : State) : (setDist st s).dist = s.dist ∧ (setDist st s).plug = s.plug ∧
    (setDist st s).work = s.work ∧ (setDist st s).col = s.col ∧ (setDist st s).hrt = s.hrt ∧ (setDist st s).tsi = s.tsi ∧
    (setDist st s).node = s.node ∧ (setDist st s).cycles = s.cycles ∧ (setDist st s).bar = s.bar ∧
    (setDist st s).now = s.now := by
  unfold setDist
  split <;> simp

theorem setDist_get {f : Field} (hf : f.Fits)
    (h : f.addr ≠ F.PLG_DIST_STATE_STATE.addr ∨ f.hi < F.PLG_DIST_STATE_STATE.lo ∨ F.PLG_DIST_STATE_STATE.hi < f.lo)
    (hc : f.addr ≠ (cntField 91).addr) (st : Nat) (s : State) : (setDist st s).get f = s.get f := by
  unfold setDist
  split
  · rfl
  · rw [State.get_interrupt_ne hc, State.get_put_ne hf h]

theorem distState_setDist {st : Nat} (h : st < 16) (s : State) : (setDist st s).distState = st := by
  unfold setDist
  split
  · assumption
  · rw [State.distState, State.get_interrupt_ne (by decide), State.get_put_lt (by decide) (show st < 2 ^ F.PLG_DIST_STATE_STATE.width from h)]

theorem setDist_lat {st : Nat} {s : State} (h : s.distState ≠ st) :
    (setDist st s).ic.lat = s.ic.lat ||| BitVec.twoPow 128 91 := by
  rw [setDist, if_neg h, State.interrupt_lat (by decide)]
  rfl

theorem setAct_get {f : Field} (hhi : f.addr ≠ F.PLG_DIST_ACT_HI_ACT.addr) (hlo : f.addr ≠ F.PLG_DIST_ACT_LO_ACT.addr)
    (act : Nat) (s : State) : (setAct act s).get f = s.get f := by
  rw [setAct, State.get_put_addr _ _ _ _ hlo, State.get_put_addr _ _ _ _ hhi]

theorem setAct_distState (act : Nat) (s : State) : (setAct act s).distState = s.distState := setAct_get (by decide) (by decide) _ _

theorem act_setAct {act : Nat} (h : act < 2 ^ 64) (s : State) : (setAct act s).act = act := by
  have hhi : (setAct act s).get F.PLG_DIST_ACT_HI_ACT = act / 2 ^ 32 := by
    rw [setAct, State.get_put_addr _ _ _ _ (by decide), State.get_put_lt (by decide)
      (show act / 2 ^ 32 < 2 ^ F.PLG_DIST_ACT_HI_ACT.width from Nat.div_lt_of_lt_mul h)]
  have hlo : (setAct act s).get F.PLG_DIST_ACT_LO_ACT = act % 2 ^ 32 := by
    rw [setAct, State.get_put_same _ _ _ (by decide)]
    rfl
  rw [State.act, hhi, hlo]
  omega

/-- ACT is what its two registers hold. -/
theorem act_of_get {s t : State} (hhi : t.get F.PLG_DIST_ACT_HI_ACT = s.get F.PLG_DIST_ACT_HI_ACT)
    (hlo : t.get F.PLG_DIST_ACT_LO_ACT = s.get F.PLG_DIST_ACT_LO_ACT) : t.act = s.act := by
  rw [State.act, hhi, hlo, State.act]

theorem setDist_act (st : Nat) (s : State) : (setDist st s).act = s.act :=
  act_of_get (setDist_get (by decide) (by decide) (by decide) _ _) (setDist_get (by decide) (by decide) (by decide) _ _)

@[simp] theorem sendStatus_rest (seq st code dst : Nat) (mm : Bool) (l : List (Nat × Nat)) (s : State) :
    (sendStatus seq st code dst mm l s).regs = s.regs ∧ (sendStatus seq st code dst mm l s).dist = s.dist ∧
    (sendStatus seq st code dst mm l s).plug = s.plug ∧ (sendStatus seq st code dst mm l s).col = s.col ∧
    (sendStatus seq st code dst mm l s).hrt = s.hrt ∧ (sendStatus seq st code dst mm l s).ic = s.ic ∧
    (sendStatus seq st code dst mm l s).cycles = s.cycles ∧ (sendStatus seq st code dst mm l s).node = s.node :=
  ⟨rfl, rfl, rfl, rfl, rfl, rfl, rfl, rfl⟩

@[simp] theorem sendStatus_get (seq st code dst : Nat) (mm : Bool) (l : List (Nat × Nat)) (s : State) (f : Field) :
    (sendStatus seq st code dst mm l s).get f = s.get f := rfl

/-- A STATUS cell depends on the node's address alone. -/
theorem sendStatus_images_congr {s t : State} (hnode : t.node = s.node) (hwork : t.work.images = s.work.images)
    (seq st code dst : Nat) (mm : Bool) (l : List (Nat × Nat)) :
    (sendStatus seq st code dst mm l t).work.images = (sendStatus seq st code dst mm l s).work.images := by
  simp only [sendStatus, State.modWork, State.address, hnode, hwork]

theorem sendStatus_images_length (seq st code dst : Nat) (mm : Bool) (l : List (Nat × Nat)) (s : State) :
    (sendStatus seq st code dst mm l s).work.images.length = s.work.images.length + 1 := by
  simp [sendStatus, State.modWork]

@[simp] theorem imgFault_rest (kind : BitVec 5) (reason : BitVec 8) (detail : Nat) (s : State) :
    (imgFault kind reason detail s).dist = s.dist ∧ (imgFault kind reason detail s).plug = s.plug ∧
    (imgFault kind reason detail s).work = s.work ∧ (imgFault kind reason detail s).hrt = s.hrt ∧
    (imgFault kind reason detail s).tsi = s.tsi ∧ (imgFault kind reason detail s).node = s.node ∧
    (imgFault kind reason detail s).cycles = s.cycles ∧ (imgFault kind reason detail s).ic = s.ic ∧
    (imgFault kind reason detail s).bar = s.bar ∧ (imgFault kind reason detail s).now = s.now := by
  unfold imgFault wrkFault
  simp

theorem imgFault_get {f : Field} (h : f.addr ≠ F.FLT_CNT_B_DROPPED.addr) (kind : BitVec 5) (reason : BitVec 8) (detail : Nat)
    (s : State) : (imgFault kind reason detail s).get f = s.get f := State.get_raise_ne h _ s

@[simp] theorem clearChunks_rest (s : State) : (clearChunks s).dist = { s.dist with chunks := 0 } ∧ (clearChunks s).plug = s.plug ∧
    (clearChunks s).work = s.work ∧ (clearChunks s).col = s.col ∧ (clearChunks s).hrt = s.hrt ∧ (clearChunks s).ic = s.ic ∧
    (clearChunks s).cycles = s.cycles :=
  ⟨rfl, rfl, rfl, rfl, rfl, rfl, rfl⟩

theorem clearChunks_get {f : Field} (hf : f.Fits)
    (h : f.addr ≠ F.PLG_DIST_STATE_CHUNKS.addr ∨ f.hi < F.PLG_DIST_STATE_CHUNKS.lo ∨ F.PLG_DIST_STATE_CHUNKS.hi < f.lo) (s : State) :
    (clearChunks s).get f = s.get f := State.get_put_ne hf h 0 s

@[simp] theorem clearChunks_get_chunks (s : State) : (clearChunks s).get F.PLG_DIST_STATE_CHUNKS = 0 :=
  State.get_put_same _ 0 s (by decide)

@[simp] theorem dropPreload_rest (s : State) : (dropPreload s).dist = s.dist ∧ (dropPreload s).plug = s.plug ∧
    (dropPreload s).work = s.work ∧ (dropPreload s).hrt = s.hrt ∧ (dropPreload s).ic = s.ic ∧ (dropPreload s).node = s.node ∧
    (dropPreload s).cycles = s.cycles ∧ (dropPreload s).bar = s.bar :=
  ⟨rfl, rfl, rfl, rfl, rfl, rfl, rfl, rfl⟩

theorem dropPreload_get {f : Field} (hf : f.Fits)
    (hp : f.addr ≠ F.HRT_SWAP_PRELOADED.addr ∨ f.hi < F.HRT_SWAP_PRELOADED.lo ∨ F.HRT_SWAP_PRELOADED.hi < f.lo)
    (ht : f.addr ≠ F.TSI_STATUS_PRELOADED.addr ∨ f.hi < F.TSI_STATUS_PRELOADED.lo ∨ F.TSI_STATUS_PRELOADED.hi < f.lo)
    (s : State) : (dropPreload s).get f = s.get f := by
  rw [dropPreload, State.get_put_ne hf ht, State.get_put_ne hf hp]

theorem dropPreload_cleared (s : State) : (dropPreload s).get F.HRT_SWAP_PRELOADED = 0 ∧
    (dropPreload s).get F.TSI_STATUS_PRELOADED = 0 := by
  refine ⟨?_, State.get_put_same _ 0 _ (by decide)⟩
  rw [dropPreload, State.get_put_addr _ _ _ _ (by decide), State.get_put_same _ _ _ (by decide)]
  rfl

@[simp] theorem endDrain_rest (s : State) : (endDrain s).dist = { s.dist with window := none } ∧
    (endDrain s).hrt = { s.hrt with draining := false } ∧ (endDrain s).regs = s.regs ∧ (endDrain s).plug = s.plug ∧
    (endDrain s).work = s.work ∧ (endDrain s).col = s.col ∧ (endDrain s).ic = s.ic ∧ (endDrain s).tsi = s.tsi ∧
    (endDrain s).cycles = s.cycles ∧ (endDrain s).bar = s.bar :=
  ⟨rfl, rfl, rfl, rfl, rfl, rfl, rfl, rfl, rfl, rfl⟩

@[simp] theorem endDrain_get (s : State) (f : Field) : (endDrain s).get f = s.get f := rfl

@[simp] theorem writeCommit_rest (c : Bool) (commit seq act source : Nat) (s : State) :
    (writeCommit c commit seq act source s).regs = s.regs ∧ (writeCommit c commit seq act source s).dist = s.dist ∧
    (writeCommit c commit seq act source s).work = s.work ∧ (writeCommit c commit seq act source s).col = s.col ∧
    (writeCommit c commit seq act source s).hrt = s.hrt ∧ (writeCommit c commit seq act source s).ic = s.ic ∧
    (writeCommit c commit seq act source s).node = s.node ∧ (writeCommit c commit seq act source s).cycles = s.cycles ∧
    (writeCommit c commit seq act source s).bar = s.bar := by
  unfold writeCommit writePlug
  split <;> simp

@[simp] theorem writeCommit_get (c : Bool) (commit seq act source : Nat) (s : State) (f : Field) :
    (writeCommit c commit seq act source s).get f = s.get f := State.get_of_regs (writeCommit_rest c commit seq act source s).1 f

@[simp] theorem sendNeed_rest (s : State) : (sendNeed s).dist = { s.dist with needAt := some s.cycles } ∧
    (sendNeed s).regs = s.regs ∧ (sendNeed s).plug = s.plug ∧ (sendNeed s).hrt = s.hrt ∧ (sendNeed s).ic = s.ic ∧
    (sendNeed s).col = s.col :=
  ⟨rfl, rfl, rfl, rfl, rfl, rfl⟩

@[simp] theorem sendNeed_get (s : State) (f : Field) : (sendNeed s).get f = s.get f := rfl

theorem sendNeed_images_length (s : State) : (sendNeed s).work.images.length = s.work.images.length + 1 :=
  sendStatus_images_length _ _ _ _ _ _ s

theorem sendNeed_act (s : State) : (sendNeed s).act = s.act := rfl

theorem sendNeed_distState (s : State) : (sendNeed s).distState = s.distState := rfl

/-! ## Cells acted on, times due -/

/-- The state in which a received cell is acted on: the cell has left the inbox. -/
def State.without (c : List Byte) (s : State) : State := { s with dist := { s.dist with inbox := s.dist.inbox.erase c } }

/-- A working node acts on the first cell of the type, which leaves the inbox. -/
theorem onImage_of_found {type : Byte} {c : List Byte} {s : State} (f : List Byte → State → State) (hs : s.working = true)
    (hc : (s.dist.inbox.find? fun x => byteAt x 0 == type) = some c) :
    onImage type f s = .next (f c (s.without c)) := by
  rw [onImage, actWhen_of_true hs, popImage, hc]
  rfl

/-- A working node's step on an image cell, from what acting on the cell changes and reaches. -/
theorem onImage_completes {type : Byte} {c : List Byte} {s : State} {f : List Byte → State → State} {l : List Part}
    {post : State → Prop} (hs : s.working = true) (hc : (s.dist.inbox.find? fun x => byteAt x 0 == type) = some c)
    (hl : maskOf l &&& 33554432 = 33554432) (hf : (f c (s.without c)).hide (maskOf l) = (s.without c).hide (maskOf l))
    (hp : post (f c (s.without c))) : ∃ t, onImage type f s = .next t ∧ only l s t ∧ post t :=
  ⟨_, onImage_of_found f hs hc, only_of_hide (Nat.and_self _) (hf.trans (hide_dist s _ _ hl)), hp⟩

theorem dueSince_iff {c : Option Nat} {n : Nat} {s : State} : dueSince c n s = true ↔ ∀ x, c = some x → x + n ≤ s.cycles := by
  cases c <;> simp [dueSince]

end Sys2Proof.Machine
end

section
/-! OFFERs of an image (R165): why one is refused, and what a node that becomes a receiver shows. -/

namespace Sys2Proof.Machine
open Safety

theorem beAt_lt (l : List Byte) (i n : Nat) : beAt l i n < 256 ^ n := by
  have h := ofLe_lt (slice l i n).reverse
  rwa [List.length_reverse, slice_length] at h

/-! ## What an OFFER meets (R165) -/

/-- An image that is not newer than the running one is OLDER. -/
theorem olderThan_of_not_newer {q : Nat} {s : State} (h : newer 32 q (s.get F.KIN_IMAGE_SEQ_SEQUENCE) ≠ true) :
    s.olderThan q = some (s.get F.KIN_IMAGE_SEQ_SEQUENCE) := by
  simp [State.olderThan, h]

/-- An image newer than the running one is not OLDER where no other is held. -/
theorem olderThan_eq_none {q : Nat} {s : State} (h : newer 32 q (s.get F.KIN_IMAGE_SEQ_SEQUENCE) = true) (hd : s.distState ≠ 1)
    (hheld : s.commitOf s.inactive = .staged → s.imageSeq s.inactive = q) : s.olderThan q = none := by
  have hd' : s.distState ≠ dRECEIVING := hd
  simp only [State.olderThan, h, hd', false_or, if_false, Bool.not_true, Bool.false_eq_true]
  rw [if_neg]
  rintro ⟨hst, hne, -⟩
  exact hne (hheld hst)

theorem holdsStaged_iff {q : Nat} {s : State} :
    s.holdsStaged q = true ↔ s.commitOf s.inactive = .staged ∧ s.imageSeq s.inactive = q := by
  simp [State.holdsStaged]

/-- No refusal of an image is remembered. -/
theorem find?_refusals_eq_none {s : State} {q : Nat} (h : ∀ r ∈ s.dist.refusals, r.1.toNat ≠ q) :
    (s.dist.refusals.find? fun r => r.1.toNat == q) = none := by
  simpa using h

theorem offerRefusal_of_older {c : List Byte} {s : State} {q : Nat} (hr : ∀ r ∈ s.dist.refusals, r.1.toNat ≠ beAt c 2 4)
    (h : s.olderThan (beAt c 2 4) = some q) : s.offerRefusal c = some (1, q) := by
  rw [State.offerRefusal, find?_refusals_eq_none hr, h]

theorem offerRefusal_of_newest {c : List Byte} {s : State} (hr : ∀ r ∈ s.dist.refusals, r.1.toNat ≠ beAt c 2 4)
    (h : s.olderThan (beAt c 2 4) = none) :
    s.offerRefusal c = if levelBad (byteAt c 32).toNat (byteAt c 33).toNat then some (2, beAt c 2 4) else none := by
  rw [State.offerRefusal, find?_refusals_eq_none hr, h]

theorem levelBad_iff {lo hi : Nat} : levelBad lo hi = true ↔ hi < 1 ∨ 3 < lo ∨ hi < lo := by
  simp [levelBad, or_assoc]

/-- The node is named in the ROSTER of an OFFER. -/
def State.namedIn (c : List Byte) (s : State) : Bool := (byteAt c (16 + s.address / 8)).getLsbD (s.address % 8)

theorem takeImageOffer_of_not_named {c : List Byte} {s : State} (h : s.namedIn c = false) : takeImageOffer c s = s := by
  rw [State.namedIn] at h
  simp [takeImageOffer, h]

theorem takeImageOffer_of_refused {c : List Byte} {s : State} {code q : Nat} (hn : s.namedIn c = true)
    (h : s.offerRefusal c = some (code, q)) :
    takeImageOffer c s = imgRefused code (beAt c 2 4) (sendStatus q sREFUSED code (cellFrom c) false [] s) := by
  rw [State.namedIn] at hn
  simp [takeImageOffer, hn, h]

theorem takeImageOffer_of_accepted {c : List Byte} {s : State} (hn : s.namedIn c = true) (h : s.offerRefusal c = none) :
    takeImageOffer c s = acceptImageOffer c s := by
  rw [State.namedIn] at hn
  simp [takeImageOffer, hn, h]

theorem acceptImageOffer_of_staged {c : List Byte} {s : State} (hd : s.distState ≠ 1) (h : s.holdsStaged (beAt c 2 4) = true) :
    acceptImageOffer c s = sendStatus (beAt c 2 4) sSTAGED 0 (cellFrom c) s.mismatch [] s := by
  have hd' : s.distState ≠ dRECEIVING := hd
  simp [acceptImageOffer, hd', h]

theorem acceptImageOffer_of_new {c : List Byte} {s : State} (hd : s.distState ≠ 1) (h : s.commitOf s.inactive ≠ .staged) :
    acceptImageOffer c s = startReceiving c (beAt c 2 4) s := by
  have hd' : s.distState ≠ dRECEIVING := hd
  have hh : s.holdsStaged (beAt c 2 4) ≠ true := fun hs => h (holdsStaged_iff.mp hs).1
  simp [acceptImageOffer, hd', hh]

/-! ## A refusal -/

@[simp] theorem imgRefused_rest (code seq : Nat) (s : State) : (imgRefused code seq s).dist = s.dist ∧
    (imgRefused code seq s).work = s.work ∧ (imgRefused code seq s).plug = s.plug := by
  unfold imgRefused
  simp

theorem imgRefused_refusal {code : Nat} (h : code < 256) (seq : Nat) (s : State) :
    (imgRefused code seq s).get F.PLG_DIST_STATE_REFUSAL = code := by
  rw [imgRefused, imgFault_get (by decide), State.get_put_lt (by decide) (show code < 2 ^ F.PLG_DIST_STATE_REFUSAL.width from h)]

/-! ## Reception begins -/

/-- The inactive copy is given up: its COMMIT is 0, and no preload of it and no drain for it is left. -/
def giveUpCopy (s : State) : State := writeCommit s.inactive 0 (s.copyLe s.inactive 4 4) 0 0xFF (endDrain (dropPreload s))

/-- The registers and the record of a receiver that holds no chunk. -/
def beReceiver (c : List Byte) (seq : Nat) (s : State) : State :=
  (clearChunks ((s.put F.PLG_DIST_STATE_ROLE 1).put F.PLG_DIST_SEQ_SEQUENCE seq)).modDist fun d =>
    { d with origin := BitVec.ofNat 8 (cellFrom c), len := beAt c 8 4, serve := none }

theorem giveUpCopy_rest (s : State) : (giveUpCopy s).dist = { s.dist with window := none } ∧
    (giveUpCopy s).hrt = { s.hrt with draining := false } ∧ (giveUpCopy s).work = s.work ∧ (giveUpCopy s).ic = s.ic := by
  simp [giveUpCopy]

theorem giveUpCopy_get {f : Field} (hf : f.Fits)
    (hp : f.addr ≠ F.HRT_SWAP_PRELOADED.addr ∨ f.hi < F.HRT_SWAP_PRELOADED.lo ∨ F.HRT_SWAP_PRELOADED.hi < f.lo)
    (ht : f.addr ≠ F.TSI_STATUS_PRELOADED.addr ∨ f.hi < F.TSI_STATUS_PRELOADED.lo ∨ F.TSI_STATUS_PRELOADED.hi < f.lo)
    (s : State) : (giveUpCopy s).get f = s.get f := by
  rw [giveUpCopy, writeCommit_get, endDrain_get, dropPreload_get hf hp ht]

theorem giveUpCopy_preload (s : State) : (giveUpCopy s).get F.HRT_SWAP_PRELOADED = 0 ∧
    (giveUpCopy s).get F.TSI_STATUS_PRELOADED = 0 := by
  simpa [giveUpCopy] using dropPreload_cleared s

theorem giveUpCopy_commit {s : State} (h : s.plugReachable = true) : (giveUpCopy s).copyLe s.inactive 0 4 = 0 := by
  rw [giveUpCopy, copyLe_writeCommit (by exact h) _ _ _ _ _ (by decide), (commitBlock_fields _ _ _ _).1, Nat.zero_mod]

theorem giveUpCopy_apart (s : State) {a : Nat} (h : a < copyBase s.inactive ∨ copyBase s.inactive + 64 ≤ a) :
    tabGet 0 (giveUpCopy s).plug.mem a = tabGet 0 s.plug.mem a :=
  writeCommit_apart _ _ _ _ _ (endDrain (dropPreload s)) h

theorem beReceiver_rest (c : List Byte) (seq : Nat) (s : State) :
    (beReceiver c seq s).dist = { s.dist with chunks := 0, origin := BitVec.ofNat 8 (cellFrom c), len := beAt c 8 4, serve := none } ∧
    (beReceiver c seq s).hrt = s.hrt ∧ (beReceiver c seq s).work = s.work ∧ (beReceiver c seq s).ic = s.ic ∧
    (beReceiver c seq s).plug = s.plug :=
  ⟨rfl, rfl, rfl, rfl, rfl⟩

/-- ROLE, SEQUENCE and CHUNKS of a receiver. -/
theorem beReceiver_shown (c : List Byte) {seq : Nat} (h : seq < 2 ^ 32) (s : State) :
    (beReceiver c seq s).get F.PLG_DIST_STATE_ROLE = 1 ∧ (beReceiver c seq s).get F.PLG_DIST_SEQ_SEQUENCE = seq ∧
    (beReceiver c seq s).get F.PLG_DIST_STATE_CHUNKS = 0 := by
  refine ⟨?_, ?_, clearChunks_get_chunks _⟩
  · refine (clearChunks_get (by decide) (by decide) _).trans ?_
    rw [State.get_put_addr _ _ _ _ (by decide), State.get_put_same _ _ _ (by decide)]
    rfl
  · refine (clearChunks_get (by decide) (by decide) _).trans ?_
    rw [State.get_put_lt (by decide) (show seq < 2 ^ F.PLG_DIST_SEQ_SEQUENCE.width from h)]

theorem beReceiver_get_apart {f : Field} (h : f.addr ≠ F.PLG_DIST_STATE_CHUNKS.addr) (hs : f.addr ≠ F.PLG_DIST_SEQ_SEQUENCE.addr)
    (c : List Byte) (seq : Nat) (s : State) : (beReceiver c seq s).get f = s.get f := by
  refine (State.get_put_addr _ _ _ _ h).trans ?_
  rw [State.get_put_addr _ _ _ _ hs]
  exact State.get_put_addr F.PLG_DIST_STATE_ROLE f 1 s h

theorem beReceiver_distState (c : List Byte) (seq : Nat) (s : State) : (beReceiver c seq s).distState = s.distState := by
  refine (clearChunks_get (by decide) (by decide) _).trans ?_
  rw [State.get_put_ne (by decide) (by decide), State.get_put_ne (by decide) (by decide)]
  rfl

theorem startReceiving_eq (c : List Byte) (seq : Nat) {s : State} (hd : s.distState ≠ 1) :
    startReceiving c seq s = sendNeed (setAct 0 (setDist 1 (beReceiver c seq (giveUpCopy s)))) := by
  have h : (beReceiver c seq (giveUpCopy s)).distState ≠ dRECEIVING := by
    rw [beReceiver_distState]
    exact fun h => hd ((giveUpCopy_get (by decide) (by decide) (by decide) s).symm.trans h)
  show sendNeed (setAct 0 (if (beReceiver c seq (giveUpCopy s)).distState = dRECEIVING then _ else _)) = _
  rw [if_neg h]
  rfl

/-- What a node that becomes the receiver of an image shows and holds. -/
theorem startReceiving_done (c : List Byte) {seq : Nat} (hseq : seq < 2 ^ 32) {s : State} (hd : s.distState ≠ 1)
    (hplug : s.plugReachable = true) {t : State} (ht : t = startReceiving c seq s) : t.distState = 1 ∧
    t.get F.PLG_DIST_STATE_ROLE = 1 ∧ t.get F.PLG_DIST_SEQ_SEQUENCE = seq ∧ t.get F.PLG_DIST_STATE_CHUNKS = 0 ∧ t.act = 0 ∧
    t.dist.chunks = 0 ∧ t.dist.len = beAt c 8 4 ∧ t.dist.origin = BitVec.ofNat 8 (cellFrom c) ∧
    t.copyLe s.inactive 0 4 = 0 ∧ t.get F.HRT_SWAP_PRELOADED = 0 ∧ t.get F.TSI_STATUS_PRELOADED = 0 ∧
    t.hrt.draining = false ∧ t.dist.window = none ∧
    (∀ a, a < copyBase s.inactive ∨ copyBase s.inactive + 64 ≤ a → tabGet 0 t.plug.mem a = tabGet 0 s.plug.mem a) ∧
    t.ic.lat = s.ic.lat ||| BitVec.twoPow 128 91 ∧ t.work.images.length = s.work.images.length + 1 := by
  obtain ⟨gdist, ghrt, gwork, gic⟩ := giveUpCopy_rest s
  obtain ⟨ghp, gtp⟩ := giveUpCopy_preload s
  obtain ⟨rdist, rhrt, rwork, ric, rplug⟩ := beReceiver_rest c seq (giveUpCopy s)
  obtain ⟨rrole, rseq, rchunks⟩ := beReceiver_shown c hseq (giveUpCopy s)
  have hplug' : t.plug = (giveUpCopy s).plug := by simp [ht, startReceiving_eq c seq hd, rplug]
  rw [startReceiving_eq c seq hd] at ht
  have hget : ∀ {f : Field}, f.Fits → (f.addr ≠ 0x400E0050 ∨ f.hi < 24 ∨ 27 < f.lo) → f.addr ≠ 0x400E0058 → f.addr ≠ 0x400E005C →
      f.addr ≠ 0x400100D8 → t.get f = (beReceiver c seq (giveUpCopy s)).get f := fun hf h hlo hhi hc => by
    rw [ht, sendNeed_get, setAct_get hhi hlo, setDist_get hf h hc]
  refine ⟨?_, ?_, ?_, ?_, ?_, ?_, ?_, ?_, ?_, ?_, ?_, ?_, ?_, ?_, ?_, ?_⟩
  · rw [ht, sendNeed_distState, setAct_distState, distState_setDist (by decide)]
  · rw [hget (by decide) (by decide) (by decide) (by decide) (by decide), rrole]
  · rw [hget (by decide) (by decide) (by decide) (by decide) (by decide), rseq]
  · rw [hget (by decide) (by decide) (by decide) (by decide) (by decide), rchunks]
  · rw [ht, sendNeed_act, act_setAct (by decide)]
  · simp [ht, rdist]
  · simp [ht, rdist]
  · simp [ht, rdist]
  · rw [copyLe_of_mem (congrArg Plug.mem hplug'), giveUpCopy_commit hplug]
  · rw [hget (by decide) (by decide) (by decide) (by decide) (by decide),
      beReceiver_get_apart (by decide) (by decide), ghp]
  · rw [hget (by decide) (by decide) (by decide) (by decide) (by decide),
      beReceiver_get_apart (by decide) (by decide), gtp]
  · simp [ht, rhrt, ghrt]
  · simp [ht, rdist, gdist]
  · intro a ha
    rw [hplug', giveUpCopy_apart s ha]
  · have hd' : (beReceiver c seq (giveUpCopy s)).distState ≠ 1 := by
      rw [beReceiver_distState]
      exact fun h => hd ((giveUpCopy_get (by decide) (by decide) (by decide) s).symm.trans h)
    simp [ht, setDist_lat hd', ric, gic]
  · rw [ht, sendNeed_images_length]
    simp [rwork, gwork]

end Sys2Proof.Machine
end

section
/-! IMAGE_OFFER, NEED_REPORT, BEACON and the STATUS cell, each as a step. -/

namespace Sys2Proof.Machine
open Safety

/-! ## OFFER (R165) -/

/-- An OFFER that names the node, of an image it has not refused. -/
def State.offered (c : List Byte) (s : State) : Prop :=
  s.namedIn c = true ∧ ∀ r ∈ s.dist.refusals, r.1.toNat ≠ beAt c 2 4

theorem takeImageOffer_older {c : List Byte} {s : State} (h : s.offered c)
    (hnew : newer 32 (beAt c 2 4) (s.get F.KIN_IMAGE_SEQ_SEQUENCE) ≠ true) :
    takeImageOffer c s =
      imgRefused 1 (beAt c 2 4) (sendStatus (s.get F.KIN_IMAGE_SEQ_SEQUENCE) 3 1 (cellFrom c) false [] s) :=
  takeImageOffer_of_refused h.1 (offerRefusal_of_older h.2 (olderThan_of_not_newer hnew))

theorem takeImageOffer_levels {c : List Byte} {s : State} (h : s.offered c)
    (hnew : newer 32 (beAt c 2 4) (s.get F.KIN_IMAGE_SEQ_SEQUENCE) = true) (hd : s.distState ≠ 1)
    (hst : s.commitOf s.inactive ≠ .staged)
    (hl : (byteAt c 33).toNat < 1 ∨ 3 < (byteAt c 32).toNat ∨ (byteAt c 33).toNat < (byteAt c 32).toNat) :
    takeImageOffer c s = imgRefused 2 (beAt c 2 4) (sendStatus (beAt c 2 4) 3 2 (cellFrom c) false [] s) :=
  takeImageOffer_of_refused h.1 ((offerRefusal_of_newest h.2 (olderThan_eq_none hnew hd fun hs => absurd hs hst)).trans
    (if_pos (levelBad_iff.mpr hl)))

/-- An OFFER of an image that is newer, of no other than the one held, with levels in range. -/
theorem takeImageOffer_accepted {c : List Byte} {s : State} (h : s.offered c)
    (hnew : newer 32 (beAt c 2 4) (s.get F.KIN_IMAGE_SEQ_SEQUENCE) = true) (hd : s.distState ≠ 1)
    (hheld : s.commitOf s.inactive = .staged → s.imageSeq s.inactive = beAt c 2 4)
    (hhi : 1 ≤ (byteAt c 33).toNat) (hlo : (byteAt c 32).toNat ≤ 3) (hle : (byteAt c 32).toNat ≤ (byteAt c 33).toNat) :
    takeImageOffer c s = acceptImageOffer c s := by
  refine takeImageOffer_of_accepted h.1 ((offerRefusal_of_newest h.2 (olderThan_eq_none hnew hd hheld)).trans (if_neg ?_))
  rw [levelBad_iff]
  omega

section
variable {c : List Byte} {s : State} (hs : s.working = true) (hc : (s.dist.inbox.find? fun x => byteAt x 0 == 0x20) = some c)
include hs hc

theorem imageOffer_not_named (h : s.namedIn c = false) : exec .imageOffer s = .next (s.without c) := by
  refine (onImage_of_found takeImageOffer hs hc).trans ?_
  rw [takeImageOffer_of_not_named (by exact h)]

theorem imageOffer_older (h : s.offered c) (hnew : newer 32 (beAt c 2 4) (s.get F.KIN_IMAGE_SEQ_SEQUENCE) ≠ true) :
    completes .imageOffer s [.regs, .col, .ic, .work, .dist] fun t => t.dist = (s.without c).dist ∧
      t.get F.PLG_DIST_STATE_REFUSAL = 1 ∧
      t.work.images = (sendStatus (s.get F.KIN_IMAGE_SEQ_SEQUENCE) 3 1 (cellFrom c) false [] s).work.images ∧
      t.col = (s.raise { src := 0x12, kind := kCOMPAT, cls := corrected, reason := 0x20,
                         detail := BitVec.ofNat 24 (1 + 256 * (beAt c 2 4 % 65536)) }).col := by
  have ht : takeImageOffer c (s.without c) = _ := takeImageOffer_older (by exact h) (by exact hnew)
  refine onImage_completes hs hc rfl ?_ ?_ <;> rw [ht]
  · exact (imgRefused_hide _ _ _ _ rfl).trans (sendStatus_hide _ _ _ _ _ _ _ _ rfl)
  · refine ⟨by simp, imgRefused_refusal (by decide) _ _, by simp; rfl, ?_⟩
    exact (raise_put_col _ _ _ _).trans (State.raise_col_congr rfl rfl rfl rfl)

theorem imageOffer_staged (h : s.offered c) (hnew : newer 32 (beAt c 2 4) (s.get F.KIN_IMAGE_SEQ_SEQUENCE) = true)
    (hd : s.distState ≠ 1) (hst : s.holdsStaged (beAt c 2 4) = true)
    (hhi : 1 ≤ (byteAt c 33).toNat) (hlo : (byteAt c 32).toNat ≤ 3) (hle : (byteAt c 32).toNat ≤ (byteAt c 33).toNat) :
    completes .imageOffer s [.work, .dist] fun t => t.dist = (s.without c).dist ∧
      t.work.images = (sendStatus (beAt c 2 4) 2 0 (cellFrom c) s.mismatch [] s).work.images := by
  have ht : takeImageOffer c (s.without c) = _ := (takeImageOffer_accepted (s := s.without c) (by exact h) (by exact hnew) (by exact hd)
    (fun _ => (holdsStaged_iff.mp hst).2) hhi hlo hle).trans (acceptImageOffer_of_staged (by exact hd) (by exact hst))
  refine onImage_completes hs hc rfl ?_ ?_ <;> rw [ht]
  · exact sendStatus_hide _ _ _ _ _ _ _ _ rfl
  · exact ⟨rfl, rfl⟩

theorem imageOffer_levels (h : s.offered c) (hnew : newer 32 (beAt c 2 4) (s.get F.KIN_IMAGE_SEQ_SEQUENCE) = true)
    (hd : s.distState ≠ 1) (hst : s.commitOf s.inactive ≠ .staged)
    (hl : (byteAt c 33).toNat < 1 ∨ 3 < (byteAt c 32).toNat ∨ (byteAt c 33).toNat < (byteAt c 32).toNat) :
    completes .imageOffer s [.regs, .col, .ic, .work, .dist] fun t => t.dist = (s.without c).dist ∧
      t.get F.PLG_DIST_STATE_REFUSAL = 2 := by
  have ht : takeImageOffer c (s.without c) = _ := takeImageOffer_levels (by exact h) (by exact hnew) (by exact hd) (by exact hst) hl
  refine onImage_completes hs hc rfl ?_ ?_ <;> rw [ht]
  · exact (imgRefused_hide _ _ _ _ rfl).trans (sendStatus_hide _ _ _ _ _ _ _ _ rfl)
  · exact ⟨by simp, imgRefused_refusal (by decide) _ _⟩

/-- A new image: the node becomes its receiver. -/
theorem imageOffer_new (h : s.offered c) (hnew : newer 32 (beAt c 2 4) (s.get F.KIN_IMAGE_SEQ_SEQUENCE) = true)
    (hd : s.distState ≠ 1) (hst : s.commitOf s.inactive ≠ .staged)
    (hhi : 1 ≤ (byteAt c 33).toNat) (hlo : (byteAt c 32).toNat ≤ 3) (hle : (byteAt c 32).toNat ≤ (byteAt c 33).toNat) :
    completes .imageOffer s [.regs, .ic, .hrt, .plug, .work, .dist] fun t => t = startReceiving c (beAt c 2 4) (s.without c) := by
  have ht : takeImageOffer c (s.without c) = _ := (takeImageOffer_accepted (s := s.without c) (by exact h) (by exact hnew) (by exact hd)
    (fun hs => absurd hs hst) hhi hlo hle).trans (acceptImageOffer_of_new (by exact hd) (by exact hst))
  refine onImage_completes hs hc rfl ?_ ?_ <;> rw [ht]
  exact startReceiving_hide _ _ _ _ rfl

end

/-! ## STATUS cells (Table 04-15) -/

theorem beBytes_length (n v : Nat) : (beBytes n v).length = n := by simp [beBytes]

/-- A number written most significant byte first reads back. -/
theorem beAt_written (a b : List Byte) {i : Nat} (n v : Nat) (h : a.length = i) :
    beAt (a ++ beBytes n v ++ b) i n = v % 256 ^ n := by
  rw [List.append_assoc, ← h, beAt, ← Nat.add_zero a.length, slice_append_right,
    slice_append_left _ (by simp [beBytes_length]), slice_self (beBytes_length n v), ofBe, beBytes, List.reverse_reverse,
    ofLe_leBytes]

theorem workCell_length (b : List Byte) : (workCell b).length = 64 := by
  simp [workCell, crcBe, beBytes_length]

/-- Below its CRC a cell holds the bytes it was given. -/
theorem slice_workCell (b : List Byte) {i n : Nat} (h : i + n ≤ 60) : slice (workCell b) i n = slice b i n := by
  rw [workCell, slice_append_left _ (by simpa using h), slice_slice _ h, Nat.zero_add]

theorem byteAt_workCell (b : List Byte) {i : Nat} (h : i < 60) : byteAt (workCell b) i = byteAt b i := by
  have := slice_workCell b (i := i) (n := 1) (by omega)
  simpa [slice, byteAt] using this

theorem beAt_workCell (b : List Byte) {i n : Nat} (h : i + n ≤ 60) : beAt (workCell b) i n = beAt b i n :=
  congrArg ofBe (slice_workCell b h)

/-- The fields of a STATUS cell. -/
theorem sendStatus_cell (seq st code dst : Nat) (mm : Bool) (l : List (Nat × Nat)) (s : State) : ∃ c : List Byte,
    (sendStatus seq st code dst mm l s).work.images = s.work.images ++ [c] ∧ c.length = 64 ∧ byteAt c 0 = 0x22 ∧
    byteAt c 1 = BitVec.ofNat 8 s.address ∧ beAt c 2 4 = seq % 2 ^ 32 ∧ byteAt c 6 = BitVec.ofNat 8 st ∧
    byteAt c 7 = BitVec.ofNat 8 code ∧ byteAt c 8 = BitVec.ofNat 8 dst := by
  refine ⟨_, rfl, workCell_length _, ?_⟩
  rw [byteAt_workCell _ (by decide), byteAt_workCell _ (by decide), beAt_workCell _ (by decide), byteAt_workCell _ (by decide),
    byteAt_workCell _ (by decide), byteAt_workCell _ (by decide)]
  refine ⟨rfl, rfl, ?_, rfl, rfl, rfl⟩
  rw [List.append_assoc]
  exact beAt_written [0x22, BitVec.ofNat 8 s.address] _ 4 seq rfl

/-! ## NEED_REPORT and BEACON (R166, R173) -/

theorem needReport_completes {s : State} (hs : s.working = true) (hd : s.distState = 1)
    (hdue : ∀ x, s.dist.needAt = some x → x + 0x20000000 ≤ s.cycles) :
    completes .needReport s [.work, .dist] fun t => t.dist = { s.dist with needAt := some s.cycles } ∧
      t.work.images = (sendStatus (s.get F.PLG_DIST_SEQ_SEQUENCE) 1 0 s.dist.origin.toNat false s.missing s).work.images := by
  have h : (s.working && s.distState == dRECEIVING && dueSince s.dist.needAt 536870912 s) = true := by
    simp [hs, hd, dRECEIVING, dueSince_iff.mpr hdue]
  exact ⟨_, actWhen_of_true h, only_of_hide (Nat.and_self _) (sendNeed_hide s _ rfl), rfl, rfl⟩

theorem needReport_not_due {s : State} (h : ¬ (s.distState = 1 ∧ ∀ x, s.dist.needAt = some x → x + 0x20000000 ≤ s.cycles)) :
    exec .needReport s = .next s := by
  refine actWhen_of_false (Bool.eq_false_iff.mpr fun hb => h ?_)
  rw [Bool.and_eq_true, Bool.and_eq_true, beq_iff_eq] at hb
  exact ⟨hb.1.2, dueSince_iff.mp hb.2⟩

/-- A BEACON of a newer image that the node neither receives nor holds STAGED. -/
def State.beaconWanted (seq : Nat) (s : State) : Prop := newer 32 seq (s.get F.KIN_IMAGE_SEQ_SEQUENCE) = true ∧
  ¬ (s.distState = 1 ∧ s.get F.PLG_DIST_SEQ_SEQUENCE = seq) ∧ s.holdsStaged seq = false

theorem takeBeacon_of_wanted {c : List Byte} {s : State} (h : s.beaconWanted (beAt c 2 4)) :
    takeBeacon c s = sendStatus (beAt c 2 4) 1 0 (cellFrom c) false [(0, 0xFFFF)] s := by
  obtain ⟨hnew, hrec, hst⟩ := h
  have hrec' : ¬ (s.distState = dRECEIVING ∧ s.get F.PLG_DIST_SEQ_SEQUENCE = beAt c 2 4) := hrec
  simp only [takeBeacon, hnew, hst, hrec', Bool.not_true, Bool.false_eq_true, or_false, if_false]
  rfl

theorem takeBeacon_of_unwanted {c : List Byte} {s : State} (h : ¬ s.beaconWanted (beAt c 2 4)) : takeBeacon c s = s := by
  refine if_pos ?_
  by_contra hno
  rw [not_or, not_or] at hno
  obtain ⟨hnew, hrec, hst⟩ := hno
  exact h ⟨by simpa using hnew, hrec, by simpa using hst⟩

theorem beacon_completes {c : List Byte} {s : State} (hs : s.working = true)
    (hc : (s.dist.inbox.find? fun x => byteAt x 0 == 0x23) = some c) (h : s.beaconWanted (beAt c 2 4)) :
    completes .beacon s [.work, .dist] fun t => t.dist = (s.without c).dist ∧
      t.work.images = (sendStatus (beAt c 2 4) 1 0 (cellFrom c) false [(0, 0xFFFF)] s).work.images := by
  have ht : takeBeacon c (s.without c) = _ := takeBeacon_of_wanted (by exact h)
  refine onImage_completes hs hc rfl ?_ ?_ <;> rw [ht]
  · exact sendStatus_hide _ _ _ _ _ _ _ _ rfl
  · exact ⟨rfl, rfl⟩

theorem beacon_unwanted {c : List Byte} {s : State} (hs : s.working = true)
    (hc : (s.dist.inbox.find? fun x => byteAt x 0 == 0x23) = some c) (h : ¬ s.beaconWanted (beAt c 2 4)) :
    exec .beacon s = .next (s.without c) := by
  refine (onImage_of_found takeBeacon hs hc).trans ?_
  rw [takeBeacon_of_unwanted (by exact h)]

end Sys2Proof.Machine
end

section
/-! CHUNK (R166) and the check of a whole copy (R167). -/

namespace Sys2Proof.Machine
open Safety

/-! ## CHUNK (R166, R167) -/

/-- A chunk of the image being received that the copy has room for and lacks. -/
def State.lacks (c : List Byte) (s : State) : Prop := s.distState = 1 ∧ beAt c 2 4 = s.get F.PLG_DIST_SEQ_SEQUENCE ∧
  beAt c 6 2 < chunksFor s.dist.len ∧ beAt c 6 2 < 5460 ∧ s.dist.chunks.getLsbD (beAt c 6 2) = false

/-- Where the bytes of a chunk go. -/
def State.chunkAt (c : List Byte) (s : State) : Nat := copyBase s.inactive + 0x40 + 48 * beAt c 6 2

/-- The record of a receiver with one more chunk. -/
def Dist.gained (c : List Byte) (d : Dist) : Dist := { d with chunks := d.chunks ||| BitVec.twoPow 5462 (beAt c 6 2) }

/-- A chunk is written into the copy and counted. -/
def keepChunk (c : List Byte) (s : State) : State :=
  ((writePlug (s.chunkAt c) (slice c 8 48) s).modDist (Dist.gained c)).wrap F.PLG_DIST_STATE_CHUNKS 1

theorem takeChunk_of_not_lacked {c : List Byte} {s : State} (h : ¬ s.lacks c) : takeChunk c s = s := by
  refine if_pos ?_
  by_contra hno
  simp only [not_or, not_not, Bool.not_eq_true] at hno
  obtain ⟨hd, hq, hn, hk, hb⟩ := hno
  exact h ⟨hd, hq, by omega, not_le.mp hk, hb⟩

theorem takeChunk_of_lacked {c : List Byte} {s : State} (h : s.lacks c) : takeChunk c s =
    if (keepChunk c s).get F.PLG_DIST_STATE_CHUNKS = chunksFor s.dist.len then verifyImage (keepChunk c s) else keepChunk c s := by
  obtain ⟨hd, hq, hn, hk, hb⟩ := h
  refine if_neg ?_
  simp only [not_or, not_not, Bool.not_eq_true]
  exact ⟨hd, hq, by omega, not_le.mpr hk, hb⟩

@[simp] theorem writePlug_rest (a : Nat) (bs : List Byte) (s : State) : (writePlug a bs s).regs = s.regs ∧
    (writePlug a bs s).dist = s.dist ∧ (writePlug a bs s).work = s.work ∧ (writePlug a bs s).node = s.node ∧
    (writePlug a bs s).cycles = s.cycles ∧ (writePlug a bs s).ic = s.ic ∧ (writePlug a bs s).col = s.col := by
  unfold writePlug
  split <;> simp

theorem keepChunk_rest (c : List Byte) (s : State) : (keepChunk c s).dist = s.dist.gained c ∧ (keepChunk c s).work = s.work ∧
    (keepChunk c s).node = s.node ∧ (keepChunk c s).plug = (writePlug (s.chunkAt c) (slice c 8 48) s).plug := by
  simp [keepChunk, State.modDist]

theorem keepChunk_get {f : Field} (hf : f.Fits)
    (h : f.addr ≠ F.PLG_DIST_STATE_CHUNKS.addr ∨ f.hi < F.PLG_DIST_STATE_CHUNKS.lo ∨ F.PLG_DIST_STATE_CHUNKS.hi < f.lo)
    (c : List Byte) (s : State) : (keepChunk c s).get f = s.get f :=
  (State.get_put_ne hf h _ _).trans (State.get_of_regs (writePlug_rest _ _ s).1 f)

theorem keepChunk_chunks {c : List Byte} {s : State} (h : s.get F.PLG_DIST_STATE_CHUNKS + 1 < 65536) :
    (keepChunk c s).get F.PLG_DIST_STATE_CHUNKS = s.get F.PLG_DIST_STATE_CHUNKS + 1 := by
  have hget : ((writePlug (s.chunkAt c) (slice c 8 48) s).modDist (Dist.gained c)).get F.PLG_DIST_STATE_CHUNKS =
      s.get F.PLG_DIST_STATE_CHUNKS := State.get_of_regs (writePlug_rest _ _ s).1 _
  rw [keepChunk, State.wrap, hget]
  exact State.get_put_lt (by decide) h _

theorem keepChunk_without_chunks (c : List Byte) {s : State} (h : s.get F.PLG_DIST_STATE_CHUNKS + 1 < 65536) :
    (keepChunk c (s.without c)).get F.PLG_DIST_STATE_CHUNKS = s.get F.PLG_DIST_STATE_CHUNKS + 1 := keepChunk_chunks h

theorem keepChunk_hide (c : List Byte) (s : State) (m : Nat) (h : m &&& 41943041 = 41943041) :
    (keepChunk c s).hide m = s.hide m := by
  rw [keepChunk, State.wrap_hide _ _ _ _ (mask_sub h 1 rfl), State.modDist_hide _ _ _ (mask_sub h 33554432 rfl),
    writePlug_hide _ _ _ _ (mask_sub h 8388608 rfl)]

/-- The bytes of the chunk stand in the plug, every other byte is as before. -/
theorem keepChunk_bytes {c : List Byte} {s : State} (h : s.plugReachable = true) :
    (∀ i, i < 48 → tabGet 0 (keepChunk c s).plug.mem (s.chunkAt c + i) = byteAt c (8 + i)) ∧
    (∀ a, a < s.chunkAt c ∨ s.chunkAt c + 48 ≤ a → tabGet 0 (keepChunk c s).plug.mem a = tabGet 0 s.plug.mem a) := by
  rw [(keepChunk_rest c s).2.2.2]
  refine ⟨fun i hi => ?_, fun a ha => tabGet_writePlug_apart _ _ _ (by simpa using ha)⟩
  rw [tabGet_writePlug h, if_pos (by simpa using hi), getD_slice, Nat.add_sub_cancel_left, if_pos hi]
  rfl

/-! ## The last chunk -/

/-- A copy that passes is staged. -/
theorem verifyImage_acceptable {s : State} (hh : s.headerOk s.inactive = true) (hv : s.contentVerdict s.inactive = .acceptable) :
    verifyImage s = setDist dSTAGED (sendStatus (s.get F.PLG_DIST_SEQ_SEQUENCE) sSTAGED 0 s.dist.origin.toNat
      (writeCommit s.inactive 0x3C3C5A5A (s.imageSeq s.inactive) 0 s.dist.origin.toNat s).mismatch []
      (writeCommit s.inactive 0x3C3C5A5A (s.imageSeq s.inactive) 0 s.dist.origin.toNat s)) := by
  simp only [verifyImage, hh, hv, if_true]
  simp

/-- A copy whose header or a section of which fails its check: asked for again, or refused where it failed before. -/
def copyFailed (code : Nat) (s : State) : State :=
  let t := clearChunks (imgFault kCRC 0x21 code s)
  let seq := s.get F.PLG_DIST_SEQ_SEQUENCE
  if t.dist.failedOnce = some (BitVec.ofNat 32 seq) then
    setDist dREFUSED ((sendStatus seq sREFUSED 4 t.dist.origin.toNat false [] t).put F.PLG_DIST_STATE_REFUSAL 4)
  else sendNeed (t.modDist fun d => { d with failedOnce := some (BitVec.ofNat 32 seq) })

theorem verifyImage_bad {s : State} (h : s.headerOk s.inactive = false ∨ s.contentVerdict s.inactive = .sectionBad) :
    ∃ code, verifyImage s = copyFailed code s := by
  by_cases hh : s.headerOk s.inactive = true
  · have hv := h.resolve_left (by simp [hh])
    refine ⟨Verdict.sectionBad.code, ?_⟩
    unfold verifyImage
    simp only [hh, hv, if_true]
    rfl
  · refine ⟨Verdict.headerBad.code, ?_⟩
    unfold verifyImage
    simp only [hh]
    rfl

theorem copyFailed_hide (code : Nat) (s : State) (m : Nat) (h : m &&& 50331841 = 50331841) :
    (copyFailed code s).hide m = s.hide m := by
  have hreg := mask_sub h 1 rfl
  have hrec : (clearChunks (imgFault kCRC 0x21 code s)).hide m = s.hide m :=
    (clearChunks_hide _ _ (mask_sub h 33554433 rfl)).trans (imgFault_hide _ _ _ _ _ (mask_sub h 65 rfl))
  unfold copyFailed
  dsimp only
  split
  · rw [setDist_hide _ _ _ (mask_sub h 129 rfl), State.put_hide _ _ _ _ hreg,
      sendStatus_hide _ _ _ _ _ _ _ _ (mask_sub h 16777216 rfl), hrec]
  · rw [sendNeed_hide _ _ (mask_sub h 50331648 rfl), State.modDist_hide _ _ _ (mask_sub h 33554432 rfl), hrec]

/-- The first time, every chunk is asked for again. -/
theorem copyFailed_first {code : Nat} {s : State}
    (h : s.dist.failedOnce ≠ some (BitVec.ofNat 32 (s.get F.PLG_DIST_SEQ_SEQUENCE))) :
    (copyFailed code s).distState = s.distState ∧ (copyFailed code s).dist.chunks = 0 ∧
    (copyFailed code s).get F.PLG_DIST_STATE_CHUNKS = 0 ∧
    (copyFailed code s).dist.failedOnce = some (BitVec.ofNat 32 (s.get F.PLG_DIST_SEQ_SEQUENCE)) := by
  have hf : (clearChunks (imgFault kCRC 0x21 code s)).dist.failedOnce ≠ some (BitVec.ofNat 32 (s.get F.PLG_DIST_SEQ_SEQUENCE)) := by
    simpa using h
  rw [copyFailed, if_neg hf]
  refine ⟨?_, rfl, clearChunks_get_chunks _, rfl⟩
  exact (clearChunks_get (by decide) (by decide) _).trans (imgFault_get (by decide) _ _ _ _)

/-- The second time, the image is refused. -/
theorem copyFailed_again {code : Nat} {s : State}
    (h : s.dist.failedOnce = some (BitVec.ofNat 32 (s.get F.PLG_DIST_SEQ_SEQUENCE))) :
    (copyFailed code s).distState = 5 ∧ (copyFailed code s).get F.PLG_DIST_STATE_REFUSAL = 4 ∧
    (copyFailed code s).dist.chunks = 0 := by
  have hf : (clearChunks (imgFault kCRC 0x21 code s)).dist.failedOnce = some (BitVec.ofNat 32 (s.get F.PLG_DIST_SEQ_SEQUENCE)) := by
    simpa using h
  rw [copyFailed, if_pos hf]
  refine ⟨distState_setDist (by decide) _, ?_, by simp⟩
  rw [setDist_get (by decide) (by decide) (by decide), State.get_put_lt (by decide) (by decide)]

/-- A staged copy: STATE, the commit block and the STATUS sent. -/
theorem verifyImage_staged {s : State} (hplug : s.plugReachable = true) (hh : s.headerOk s.inactive = true)
    (hv : s.contentVerdict s.inactive = .acceptable) {t : State} (ht : t = verifyImage s) :
    (∀ m, m &&& 25165953 = 25165953 → t.hide m = s.hide m) ∧ t.distState = 2 ∧ t.dist = s.dist ∧
    t.copyLe s.inactive 0 4 = 0x3C3C5A5A ∧ t.copyLe s.inactive 8 8 = 0 ∧ t.copyLe s.inactive 0x10 1 = s.dist.origin.toNat ∧
    t.work.images.length = s.work.images.length + 1 := by
  obtain ⟨fcommit, -, fact, fsource⟩ :=
    commitBlock_fields 0x3C3C5A5A (s.imageSeq s.inactive) 0 s.dist.origin.toNat
  have hcopy := fun off n (hin : off + n ≤ 64) =>
    copyLe_writeCommit hplug s.inactive 0x3C3C5A5A (s.imageSeq s.inactive) 0 s.dist.origin.toNat hin
  rw [verifyImage_acceptable hh hv] at ht
  have hmem : t.plug.mem = (writeCommit s.inactive 0x3C3C5A5A (s.imageSeq s.inactive) 0 s.dist.origin.toNat s).plug.mem := by simp [ht]
  refine ⟨fun m hm => ?_, ?_, by simp [ht], ?_, ?_, ?_, ?_⟩
  · rw [ht, setDist_hide _ _ _ (mask_sub hm 129 rfl), sendStatus_hide _ _ _ _ _ _ _ _ (mask_sub hm 16777216 rfl),
      writeCommit_hide _ _ _ _ _ _ _ (mask_sub hm 8388608 rfl)]
  · rw [ht]
    exact distState_setDist (by decide) _
  · rw [copyLe_of_mem hmem, hcopy 0 4 (by decide), fcommit]
    rfl
  · rw [copyLe_of_mem hmem, hcopy 8 8 (by decide), fact, Nat.zero_mod]
  · rw [copyLe_of_mem hmem, hcopy 16 1 (by decide), fsource, Nat.mod_eq_of_lt s.dist.origin.isLt]
  · rw [ht, (setDist_rest _ _).2.2.1, sendStatus_images_length]
    simp

section
variable {c : List Byte} {s : State} (hs : s.working = true) (hc : (s.dist.inbox.find? fun x => byteAt x 0 == 0x21) = some c)
include hs hc

theorem chunk_not_lacked (h : ¬ s.lacks c) : exec .chunk s = .next (s.without c) := by
  refine (onImage_of_found takeChunk hs hc).trans ?_
  rw [takeChunk_of_not_lacked (by exact h)]

/-- A chunk that is not the last. -/
theorem chunk_kept (h : s.lacks c) (hn : chunksFor s.dist.len ≤ 5460)
    (hless : s.get F.PLG_DIST_STATE_CHUNKS + 1 < chunksFor s.dist.len) :
    completes .chunk s [.regs, .plug, .dist] fun t => t = keepChunk c (s.without c) := by
  have hk := keepChunk_without_chunks c (show s.get F.PLG_DIST_STATE_CHUNKS + 1 < 65536 by omega)
  have hne : (keepChunk c (s.without c)).get F.PLG_DIST_STATE_CHUNKS ≠ chunksFor s.dist.len := by omega
  have ht : takeChunk c (s.without c) = keepChunk c (s.without c) := (takeChunk_of_lacked (by exact h)).trans (if_neg hne)
  refine onImage_completes hs hc rfl ?_ ht
  rw [ht]
  exact keepChunk_hide c (s.without c) _ rfl

/-- The last chunk lacked: the copy is checked. -/
theorem chunk_last {l : List Part} (h : s.lacks c) (hn : chunksFor s.dist.len ≤ 5460)
    (hlast : s.get F.PLG_DIST_STATE_CHUNKS + 1 = chunksFor s.dist.len) (hl : maskOf l &&& 41943041 = 41943041)
    (hv : (verifyImage (keepChunk c (s.without c))).hide (maskOf l) = (keepChunk c (s.without c)).hide (maskOf l)) :
    completes .chunk s l fun t => t = verifyImage (keepChunk c (s.without c)) := by
  have hk : (keepChunk c (s.without c)).get F.PLG_DIST_STATE_CHUNKS = chunksFor s.dist.len :=
    (keepChunk_without_chunks c (show s.get F.PLG_DIST_STATE_CHUNKS + 1 < 65536 by omega)).trans hlast
  have ht : takeChunk c (s.without c) = verifyImage (keepChunk c (s.without c)) :=
    (takeChunk_of_lacked (by exact h)).trans (if_pos hk)
  refine onImage_completes hs hc (mask_sub hl 33554432 rfl) ?_ ht
  rw [ht, hv]
  exact keepChunk_hide _ _ _ hl

end

theorem completes_mono {i : Instr} {s : State} {l : List Part} {p q : State → Prop} (h : completes i s l p) (hpq : ∀ t, p t → q t) :
    completes i s l q := by
  obtain ⟨t, ht, honly, hp⟩ := h
  exact ⟨t, ht, honly, hpq t hp⟩

/-- What a WRITE does has nothing to do with the delivery's record. -/
theorem writePlug_with_dist (a : Nat) (bs : List Byte) (s : State) (d : Dist) :
    writePlug a bs { s with dist := d } = { writePlug a bs s with dist := d } := by
  have h : ({ s with dist := d } : State).plugWrites = s.plugWrites := rfl
  unfold writePlug
  rw [h]
  split <;> rfl

/-- The state in which the last chunk is counted, as the count shown is the number of chunks. -/
theorem keepChunk_eq {c : List Byte} {s : State} {n : Nat} (h : s.get F.PLG_DIST_STATE_CHUNKS + 1 = n) :
    keepChunk c (s.without c) =
      ({ writePlug (s.chunkAt c) (slice c 8 48) s with dist := (s.without c).dist.gained c } : State).put F.PLG_DIST_STATE_CHUNKS n := by
  have hget : ((writePlug (s.chunkAt c) (slice c 8 48) (s.without c)).modDist (Dist.gained c)).get F.PLG_DIST_STATE_CHUNKS =
      s.get F.PLG_DIST_STATE_CHUNKS := State.get_of_regs (writePlug_rest _ _ (s.without c)).1 _
  have hat : (s.without c).chunkAt c = s.chunkAt c := rfl
  rw [keepChunk, State.wrap, hat, hget, h, State.without, writePlug_with_dist]
  rfl

end Sys2Proof.Machine
end

section
/-! O44: the delivery of an image at its receiver. -/

namespace Sys2Proof.Machine
open Safety

theorem keepChunk_inactive (c : List Byte) (s : State) : (keepChunk c s).inactive = s.inactive :=
  congrArg (!·) (State.bit_of_get (keepChunk_get (by decide) (by decide) c s))

theorem keepChunk_seq (c : List Byte) (s : State) :
    (keepChunk c s).get F.PLG_DIST_SEQ_SEQUENCE = s.get F.PLG_DIST_SEQ_SEQUENCE := keepChunk_get (by decide) (by decide) c s

section
variable {c : List Byte} {s u : State} (hs : s.working = true) (hc : (s.dist.inbox.find? fun x => byteAt x 0 == 0x21) = some c)
  (h : s.lacks c) (hn : chunksFor s.dist.len ≤ 5460) (hlast : s.get F.PLG_DIST_STATE_CHUNKS + 1 = chunksFor s.dist.len)
  (hu : keepChunk c (s.without c) = u)
include hs hc h hn hlast hu

/-- The last chunk of a copy that passes. -/
theorem chunk_staged (hplug : s.plugReachable = true) (hh : u.headerOk s.inactive = true)
    (hv : u.contentVerdict s.inactive = .acceptable) :
    completes .chunk s [.regs, .ic, .plug, .work, .dist] fun t => t.distState = 2 ∧ t.dist = (s.without c).dist.gained c ∧
      t.copyLe s.inactive 0 4 = 0x3C3C5A5A ∧ t.copyLe s.inactive 8 8 = 0 ∧ t.copyLe s.inactive 0x10 1 = s.dist.origin.toNat ∧
      t.work.images.length = s.work.images.length + 1 := by
  have hin : u.inactive = s.inactive := hu ▸ keepChunk_inactive c (s.without c)
  obtain ⟨udist, uwork, unode, -⟩ := keepChunk_rest c (s.without c)
  rw [hu] at udist uwork unode
  rw [← hin] at hh hv
  have hup : u.plugReachable = true := by rwa [State.plugReachable, unode]
  obtain ⟨vhide, vstate, vdist, vcommit, vact, vsource, vimages⟩ := verifyImage_staged hup hh hv rfl
  refine completes_mono (chunk_last hs hc h hn hlast rfl (by rw [hu]; exact vhide _ rfl)) ?_
  rintro t rfl
  rw [hu, ← hin]
  refine ⟨vstate, vdist.trans udist, vcommit, vact, ?_, ?_⟩
  · rw [vsource, udist]
    rfl
  · rw [vimages, uwork]
    rfl

/-- The last chunk of a copy that fails, not failed before. -/
theorem chunk_asked_again (hbad : u.headerOk s.inactive = false ∨ u.contentVerdict s.inactive = .sectionBad)
    (hf : s.dist.failedOnce ≠ some (BitVec.ofNat 32 (s.get F.PLG_DIST_SEQ_SEQUENCE))) :
    completes .chunk s [.regs, .col, .ic, .plug, .work, .dist] fun t => t.distState = 1 ∧ t.dist.chunks = 0 ∧
      t.get F.PLG_DIST_STATE_CHUNKS = 0 ∧ t.dist.failedOnce = some (BitVec.ofNat 32 (s.get F.PLG_DIST_SEQ_SEQUENCE)) := by
  have hin : u.inactive = s.inactive := hu ▸ keepChunk_inactive c (s.without c)
  have hseq : u.get F.PLG_DIST_SEQ_SEQUENCE = s.get F.PLG_DIST_SEQ_SEQUENCE := hu ▸ keepChunk_seq c (s.without c)
  have hd : u.distState = 1 := (hu ▸ keepChunk_get (by decide) (by decide) c (s.without c) : u.distState = s.distState).trans h.1
  have hfu : u.dist.failedOnce = s.dist.failedOnce := by rw [← hu, (keepChunk_rest c (s.without c)).1]; rfl
  rw [← hin] at hbad
  obtain ⟨code, hv⟩ := verifyImage_bad hbad
  refine completes_mono (chunk_last hs hc h hn hlast rfl (by rw [hu, hv]; exact copyFailed_hide _ _ _ rfl)) ?_
  rintro t rfl
  rw [hu, hv]
  rw [← hfu, ← hseq] at hf
  have := copyFailed_first (code := code) hf
  rwa [hd, hseq] at this

/-- The last chunk of a copy that fails for the second time. -/
theorem chunk_refused (hbad : u.headerOk s.inactive = false ∨ u.contentVerdict s.inactive = .sectionBad)
    (hf : s.dist.failedOnce = some (BitVec.ofNat 32 (s.get F.PLG_DIST_SEQ_SEQUENCE))) :
    completes .chunk s [.regs, .col, .ic, .plug, .work, .dist] fun t => t.distState = 5 ∧
      t.get F.PLG_DIST_STATE_REFUSAL = 4 ∧ t.dist.chunks = 0 := by
  have hin : u.inactive = s.inactive := hu ▸ keepChunk_inactive c (s.without c)
  have hseq : u.get F.PLG_DIST_SEQ_SEQUENCE = s.get F.PLG_DIST_SEQ_SEQUENCE := hu ▸ keepChunk_seq c (s.without c)
  have hfu : u.dist.failedOnce = s.dist.failedOnce := by rw [← hu, (keepChunk_rest c (s.without c)).1]; rfl
  rw [← hin] at hbad
  obtain ⟨code, hv⟩ := verifyImage_bad hbad
  refine completes_mono (chunk_last hs hc h hn hlast rfl (by rw [hu, hv]; exact copyFailed_hide _ _ _ rfl)) ?_
  rintro t rfl
  rw [hu, hv]
  rw [← hfu, ← hseq] at hf
  exact copyFailed_again hf

end

end Sys2Proof.Machine

namespace Sys2Proof.Safety
open Sys2Proof.Machine

/-- Settles O44: an OFFER by the reason it is refused for (`State.offerRefusal`) or the reception it begins
(`startReceiving_done`), a CHUNK by what is kept (`keepChunk`) and what the check of the whole copy finds (`verifyImage_staged`,
`copyFailed`). -/
theorem imageReception : Obligations.ImageReception := by
  unfold Obligations.ImageReception
  refine ⟨fun c s hs hc => ?_, fun c s hs hc => ?_, fun s hs => ?_, fun c s hs hc => ?_, sendStatus_cell⟩
  · exact ⟨imageOffer_not_named hs hc, imageOffer_older hs hc, fun h hnew hd hst hhi hlo hle =>
      imageOffer_staged hs hc h hnew hd hst hhi hlo hle, imageOffer_levels hs hc, fun h hnew hd hst hhi hlo hle hplug =>
      completes_mono (imageOffer_new hs hc h hnew hd hst hhi hlo hle) fun t ht =>
        startReceiving_done (s := s.without c) c (beAt_lt c 2 4) (by exact hd) (by exact hplug) ht⟩
  · refine ⟨chunk_not_lacked hs hc, fun h hplug hn hless => ?_, fun ⟨h, hplug, hn, hlast⟩ => ?_, fun ⟨h, hplug, hn, hlast⟩ => ?_,
      fun ⟨h, hplug, hn, hlast⟩ => ?_⟩
    · refine completes_mono (chunk_kept hs hc h hn hless) ?_
      rintro t rfl
      exact ⟨keepChunk_without_chunks c (show s.get F.PLG_DIST_STATE_CHUNKS + 1 < 65536 by omega),
        (keepChunk_rest c (s.without c)).1, keepChunk_bytes (by exact hplug)⟩
    · exact chunk_staged hs hc h hn hlast (keepChunk_eq hlast) hplug
    · exact chunk_asked_again hs hc h hn hlast (keepChunk_eq hlast)
    · exact chunk_refused hs hc h hn hlast (keepChunk_eq hlast)
  · exact ⟨fun ⟨hd, hdue⟩ => needReport_completes hs hd hdue, needReport_not_due⟩
  · exact ⟨beacon_unwanted hs hc, beacon_completes hs hc⟩

end Sys2Proof.Safety
end

section
/-! The ledger of items as the delivery of an image meets it, and what a STATUS does at a distributor (R163, R166, R173). -/

namespace Sys2Proof.Machine
open Safety

/-! ## The registers of the ledger of items -/

/-- The registers that custody and the application of items write. -/
def workRegs : List Nat := [F.WRK_OR_STATUS_STATE.addr, F.WRK_NEXT_SEQ_SEQUENCE.addr, F.WRK_AWQ_ACCEPTED.addr, F.WRK_CUST_LIVE.addr,
  F.PEAT_STATUS_QUEUED.addr, (cntField 88).addr]

theorem showWork_reg {a : Nat} (h : a ∉ workRegs) (s : State) : (showWork s).reg a = s.reg a := by
  simp only [workRegs, List.mem_cons, List.not_mem_nil, or_false, not_or] at h
  obtain ⟨-, -, hawq, hcust, hpeat, hcnt⟩ := h
  have hput : ∀ (f : Field) (v : Nat) (t : State), a ≠ f.addr → (t.put f v).reg a = t.reg a := fun f v t hf =>
    State.reg_put_ne f v t hf
  have hshow : ∀ t : State, ∀ b : Bool, (t.when b (State.strobe 88)).reg a = t.reg a := fun t b => by
    unfold State.when
    split
    · exact State.reg_strobe_ne 88 t hcnt
    · rfl
  unfold showWork
  dsimp only
  rw [hshow, hput F.PEAT_STATUS_JRNL_FREE _ _ hpeat, hput F.PEAT_STATUS_QUEUED _ _ hpeat, hput F.WRK_CUST_UNACCEPTED _ _ hcust,
    hput F.WRK_CUST_LIVE _ _ hcust, hput F.WRK_AWQ_USED _ _ hawq, hput F.WRK_AWQ_ACCEPTED _ _ hawq]

theorem commitItem_reg {a : Nat} (h : a ∉ workRegs) (slot : Nat) (i : Item) (set : BitVec 128) (expires : Word) (inner : Bool)
    (s : State) : (commitItem slot i set expires inner s).reg a = s.reg a := by
  refine (showWork_reg h _).trans (State.reg_put_ne F.WRK_NEXT_SEQ_SEQUENCE _ s fun ha => h ?_)
  simp [workRegs, ha]

theorem originate_reg {a : Nat} (h : a ∉ workRegs) (at_ sec : Nat) (s : State) : (originate at_ sec s).reg a = s.reg a := by
  have ha : a ≠ F.WRK_OR_STATUS_STATE.addr := fun ha => h (by simp [workRegs, ha])
  unfold originate
  dsimp only
  split
  · exact State.reg_put_ne F.WRK_OR_STATUS_STATE 1 s ha
  · exact (commitItem_reg h _ _ _ _ _ _).trans (State.reg_put_ne F.WRK_OR_STATUS_STATE 2 s ha)

theorem originateArming_reg {a : Nat} (h : a ∉ workRegs) (k : Nat) (s : State) : (originateArming k s).reg a = s.reg a := by
  induction k generalizing s with
  | zero => rfl
  | succ k ih =>
    unfold originateArming
    split
    · exact (ih _).trans (commitItem_reg h _ _ _ _ _ _)
    · rfl

theorem serveHeld_reg {a : Nat} (h : a ∉ workRegs) (s : State) : (serveHeld s).reg a = s.reg a := by
  unfold serveHeld
  split
  · rfl
  · refine (originateArming_reg h _ _).trans ?_
    split
    · split
      · exact originate_reg h _ _ s
      · rfl
    · rfl

theorem armNodes_get {f : Field} (h : f.addr ∉ workRegs) (m : BitVec 128) (seq : Word) (act : Nat) (s : State) :
    (armNodes m seq act s).get f = s.get f :=
  State.get_of_reg (serveHeld_reg h (s.modWork fun w => { w with arming := w.arming ++ (targetsOf m).map fun n =>
    (n, seq, BitVec.ofNat 64 act) }))

theorem carriedOut_get {f : Field} (h : f.addr ∉ workRegs) (r : JRec) (st : Nat) (s : State) :
    (carriedOut r st s).get f = s.get f := by
  unfold carriedOut
  split
  · rfl
  · exact State.get_of_reg (showWork_reg h _)

/-- With no custody record free nothing is originated. -/
theorem serveHeld_of_full {s : State} (h : s.custodySlot = none) : serveHeld s = s := by
  have harm : ∀ k, originateArming k s = s := fun k => by
    cases k with
    | zero => rfl
    | succ k => simp [originateArming, h]
  unfold serveHeld
  split
  · rfl
  · cases s.work.hold <;> simp [h, harm]

theorem armNodes_of_full {s : State} (h : s.custodySlot = none) (m : BitVec 128) (seq : Word) (act : Nat) :
    (armNodes m seq act s).work.arming = s.work.arming ++ (targetsOf m).map fun n => (n, seq, BitVec.ofNat 64 act) := by
  have hfull : ∀ l, ({ s with work := { s.work with arming := l } } : State).custodySlot = none := fun l => h
  exact congrArg (·.work.arming) (serveHeld_of_full (hfull _))

/-! ## What is served (R166, R168) -/

/-- Every node of a mask is in one of two others. -/
theorem and_not_or_eq_zero {r a b : BitVec 128} (h : ∀ n, n < 128 → r.getLsbD n = true → a.getLsbD n = true ∨ b.getLsbD n = true) :
    r &&& ~~~(a ||| b) = 0 := by
  refine BitVec.eq_of_getLsbD_eq fun n hn => ?_
  cases hr : r.getLsbD n with
  | false => simp [hr]
  | true => rcases h n hn hr with ha | hb <;> simp [*]

theorem serveOver_of_reported {v : Serve} {c : Bool} {s : State}
    (h : ∀ n, n < 128 → v.roster.getLsbD n = true → v.staged.getLsbD n = true ∨ v.refused.getLsbD n = true) :
    s.serveOver v c = true := by
  simp [State.serveOver, and_not_or_eq_zero h]

theorem roundsOver_of_reported {inRing : BitVec 128} {v : Serve} {c : Bool} {s : State}
    (h : ∀ n, n < 128 → v.roster.getLsbD n = true → inRing.getLsbD n = true →
      v.staged.getLsbD n = true ∨ v.refused.getLsbD n = true) : s.roundsOver inRing v c = true := by
  have hz : v.roster &&& inRing &&& ~~~(v.staged ||| v.refused) = 0 := and_not_or_eq_zero fun n hn hr => by
    rw [BitVec.getLsbD_and, Bool.and_eq_true] at hr
    exact h n hn hr.1 hr.2
  simp [State.roundsOver, hz]

/-! ## IMAGE_STATUS (R166) -/

theorem Serve.take_need {c : List Byte} (h : byteAt c 6 = 1) (v : Serve) (n : Nat) :
    v.take c n = if v.round = 0 then { v with needed := v.needed ||| rangeBits c n } else v := by
  simp [Serve.take, h]

theorem Serve.take_staged {c : List Byte} (h : byteAt c 6 = 2) (v : Serve) (n : Nat) :
    v.take c n = { v with staged := v.staged ||| BitVec.twoPow 128 (cellFrom c) } := by
  simp [Serve.take, h]

theorem Serve.take_refused {c : List Byte} (h : byteAt c 6 = 3) (v : Serve) (n : Nat) :
    v.take c n = { v with refused := v.refused ||| BitVec.twoPow 128 (cellFrom c) } := by
  simp [Serve.take, h]

@[simp] theorem showRoster_rest (v : Serve) (s : State) : (showRoster v s).dist = s.dist ∧ (showRoster v s).node = s.node ∧
    (showRoster v s).plug = s.plug :=
  ⟨rfl, rfl, rfl⟩

/-- PLG.DIST_ROSTER, a word at a time. -/
theorem showRoster_reg (v : Serve) (s : State) {k : Nat} (h : k < 4) :
    (showRoster v s).reg (0x400E0060 + 4 * k) = v.staged.extractLsb' (32 * k) 32 := by
  show (State.each [0, 1, 2, 3] _ s).reg _ = _
  simp only [State.each, List.foldl_cons, List.foldl_nil, State.reg_putReg]
  interval_cases k <;> rfl

theorem showRoster_get {f : Field} (h : f.addr < 0x400E0060) (v : Serve) (s : State) : (showRoster v s).get f = s.get f := by
  refine State.get_of_reg ?_
  show (State.each [0, 1, 2, 3] _ s).reg _ = _
  simp only [State.each, List.foldl_cons, List.foldl_nil, State.reg_putReg]
  rw [if_neg (by omega), if_neg (by omega), if_neg (by omega), if_neg (by omega)]

theorem newer_self (n q : Nat) : newer n q q = false := by
  have h : (q + 2 ^ n - q % 2 ^ n) % 2 ^ n = 0 := by
    have hq := Nat.div_add_mod q (2 ^ n)
    have : q + 2 ^ n - q % 2 ^ n = 2 ^ n * (q / 2 ^ n + 1) := by
      rw [Nat.mul_add, Nat.mul_one]
      omega
    rw [this, Nat.mul_mod_right]
  simp [newer, h]

/-- What a STATUS does to the service of the image it names. -/
def serveStatus (c : List Byte) (s : State) : State :=
  match s.dist.serve with
  | none => s
  | some v =>
    if v.seq.toNat = beAt c 2 4 then
      showRoster (v.take c (s.chunkCount s.inactive)) (s.modDist fun d => { d with serve := some (v.take c (s.chunkCount s.inactive)) })
    else if ((byteAt c 6).toNat = sREFUSED ∧ byteAt c 7 = 1) ∧ newer 32 (beAt c 2 4) v.seq.toNat then endServe s
    else s

/-- A STATUS for another distributor. -/
theorem takeStatus_of_other {c : List Byte} {s : State} (h : (byteAt c 8).toNat ≠ s.address) : takeStatus c s = s := if_pos h

/-- What a STATUS does to the catch-up of the running image. -/
def catchUpStatus (c : List Byte) (s : State) : State :=
  if beAt c 2 4 = s.get F.KIN_IMAGE_SEQ_SEQUENCE ∧ s.distributes s.selected ∧ (s.rosterOf s.selected).getLsbD (cellFrom c) then
    let v := s.dist.catchUp.getD (newServe (beAt c 2 4) 0 0)
    if v.roster.getLsbD (cellFrom c) then s.modDist fun d => { d with catchUp := some (v.take c (s.chunkCount s.selected)) }
    else if (byteAt c 6).toNat = sNEED then
      s.modDist fun d => { d with catchUp := some { v with
        roster := v.roster ||| BitVec.twoPow 128 (cellFrom c), staged := v.staged &&& ~~~(BitVec.twoPow 128 (cellFrom c)),
        refused := v.refused &&& ~~~(BitVec.twoPow 128 (cellFrom c)), firstAt := none, offerAt := none } }
    else s
  else s

theorem takeStatus_eq {c : List Byte} {s : State} (h : (byteAt c 8).toNat = s.address) :
    takeStatus c s = catchUpStatus c (serveStatus c s) := if_neg (not_not.mpr h)

/-- A STATUS of an image that is not the running one. -/
theorem catchUpStatus_of_other {c : List Byte} {s : State} (h : beAt c 2 4 ≠ s.get F.KIN_IMAGE_SEQ_SEQUENCE) :
    catchUpStatus c s = s := if_neg fun hall => h hall.1

theorem serveStatus_of_served {c : List Byte} {s : State} {v : Serve} (hv : s.dist.serve = some v) (hq : beAt c 2 4 = v.seq.toNat) :
    serveStatus c s = showRoster (v.take c (s.chunkCount s.inactive))
      (s.modDist fun d => { d with serve := some (v.take c (s.chunkCount s.inactive)) }) := by
  rw [serveStatus, hv]
  exact if_pos hq.symm

theorem serveStatus_of_older {c : List Byte} {s : State} {v : Serve} (hv : s.dist.serve = some v) (h6 : byteAt c 6 = 3)
    (h7 : byteAt c 7 = 1) (hnew : newer 32 (beAt c 2 4) v.seq.toNat = true) : serveStatus c s = endServe s := by
  have hne : v.seq.toNat ≠ beAt c 2 4 := fun he => by
    rw [he, newer_self] at hnew
    exact absurd hnew (by decide)
  rw [serveStatus, hv]
  exact (if_neg hne).trans (if_pos ⟨⟨by rw [h6]; rfl, h7⟩, hnew⟩)

theorem serveStatus_of_none {c : List Byte} {s : State} (h : s.dist.serve = none) : serveStatus c s = s := by
  rw [serveStatus, h]

/-- The catch-up that a NEED from a node opens. -/
def catchUpOf (c : List Byte) : Serve := newServe (beAt c 2 4) (BitVec.twoPow 128 (cellFrom c)) 0

/-- A STATUS of the running image from a node of its roster, with no catch-up open. -/
theorem catchUpStatus_of_named {c : List Byte} {s : State} (hc : s.dist.catchUp = none)
    (hq : beAt c 2 4 = s.get F.KIN_IMAGE_SEQ_SEQUENCE) (hd : s.distributes s.selected = true)
    (hr : (s.rosterOf s.selected).getLsbD (cellFrom c) = true) : catchUpStatus c s =
      if byteAt c 6 = 1 then s.modDist fun d => { d with catchUp := some (catchUpOf c) } else s := by
  have hneed : (byteAt c 6).toNat = sNEED ↔ byteAt c 6 = 1 := (BitVec.toNat_inj (y := 1)).trans Iff.rfl
  unfold catchUpStatus
  rw [if_pos ⟨hq, hd, hr⟩, hc]
  simp [hneed, newServe, catchUpOf]

end Sys2Proof.Machine
end

section
/-! O45: the service of an image at its distributor. -/

namespace Sys2Proof.Machine
open Safety

section
variable {c : List Byte} {s : State} (hs : s.working = true) (hc : (s.dist.inbox.find? fun x => byteAt x 0 == 0x22) = some c)
include hs hc

theorem imageStatus_other (h : (byteAt c 8).toNat ≠ s.address) : exec .imageStatus s = .next (s.without c) := by
  refine (onImage_of_found takeStatus hs hc).trans ?_
  rw [takeStatus_of_other (by exact h)]

theorem imageStatus_completes {l : List Part} (h : (byteAt c 8).toNat = s.address) (hl : maskOf l &&& 33554432 = 33554432)
    (hf : (catchUpStatus c (serveStatus c (s.without c))).hide (maskOf l) = (s.without c).hide (maskOf l)) :
    completes .imageStatus s l fun t => t = catchUpStatus c (serveStatus c (s.without c)) := by
  have ht : takeStatus c (s.without c) = _ := takeStatus_eq (by exact h)
  refine onImage_completes hs hc hl ?_ ht
  rwa [ht]

/-- A report about the image served, not the running one. -/
theorem imageStatus_served {v : Serve} (h : (byteAt c 8).toNat = s.address) (hv : s.dist.serve = some v)
    (hq : beAt c 2 4 = v.seq.toNat) (hrun : beAt c 2 4 ≠ s.get F.KIN_IMAGE_SEQ_SEQUENCE) :
    completes .imageStatus s [.regs, .dist] fun t => t.dist = { (s.without c).dist with
        serve := some (v.take c (s.chunkCount s.inactive)) } ∧
      ∀ k, k < 4 → t.reg (0x400E0060 + 4 * k) = (v.take c (s.chunkCount s.inactive)).staged.extractLsb' (32 * k) 32 := by
  have hserve : serveStatus c (s.without c) = _ := serveStatus_of_served (by exact hv) hq
  have hend : catchUpStatus c (serveStatus c (s.without c)) = serveStatus c (s.without c) := by
    refine catchUpStatus_of_other ?_
    rw [hserve, showRoster_get (by decide)]
    exact hrun
  refine completes_mono (imageStatus_completes hs hc h rfl ?_) ?_
  · rw [hend, hserve]
    exact (showRoster_hide _ _ _ rfl).trans (State.modDist_hide _ _ _ rfl)
  · rintro t rfl
    rw [hend, hserve]
    exact ⟨rfl, fun k hk => showRoster_reg _ _ hk⟩

/-- The image served is OLDER than one a node holds. -/
theorem imageStatus_older {v : Serve} (h : (byteAt c 8).toNat = s.address) (hv : s.dist.serve = some v) (h6 : byteAt c 6 = 3)
    (h7 : byteAt c 7 = 1) (hnew : newer 32 (beAt c 2 4) v.seq.toNat = true) (hrun : beAt c 2 4 ≠ s.get F.KIN_IMAGE_SEQ_SEQUENCE) :
    completes .imageStatus s [.regs, .dist] fun t => t.dist = { (s.without c).dist with serve := none } ∧
      t.get F.PLG_DIST_STATE_ROLE = 0 := by
  have hserve : serveStatus c (s.without c) = _ := serveStatus_of_older (by exact hv) h6 h7 hnew
  have hend : catchUpStatus c (serveStatus c (s.without c)) = serveStatus c (s.without c) := by
    refine catchUpStatus_of_other ?_
    rw [hserve]
    exact fun he => hrun (he.trans (State.get_put_addr F.PLG_DIST_STATE_ROLE F.KIN_IMAGE_SEQ_SEQUENCE 0 _ (by decide)))
  refine completes_mono (imageStatus_completes hs hc h rfl ?_) ?_
  · rw [hend, hserve]
    exact endServe_hide _ _ rfl
  · rintro t rfl
    rw [hend, hserve]
    exact ⟨rfl, State.get_put_same F.PLG_DIST_STATE_ROLE 0 _ (by decide)⟩

theorem imageStatus_named (h : (byteAt c 8).toNat = s.address) (hv : s.dist.serve = none) (hcu : s.dist.catchUp = none)
    (hq : beAt c 2 4 = s.get F.KIN_IMAGE_SEQ_SEQUENCE) (hd : s.distributes s.selected = true)
    (hr : (s.rosterOf s.selected).getLsbD (cellFrom c) = true) :
    (byteAt c 6 = 1 → completes .imageStatus s [.dist] fun t => t.dist = { (s.without c).dist with catchUp := some (catchUpOf c) }) ∧
    (byteAt c 6 ≠ 1 → exec .imageStatus s = .next (s.without c)) := by
  have hserve : serveStatus c (s.without c) = _ := serveStatus_of_none (by exact hv)
  have hend := catchUpStatus_of_named (c := c) (s := s.without c) (by exact hcu) (by exact hq) (by exact hd) (by exact hr)
  rw [← hserve, hserve] at hend
  refine ⟨fun h6 => ?_, fun h6 => ?_⟩
  · rw [if_pos h6] at hend
    refine completes_mono (imageStatus_completes hs hc h rfl ?_) ?_
    · rw [hserve, hend]
      exact State.modDist_hide _ _ _ rfl
    · rintro t rfl
      rw [hserve, hend]
      rfl
  · rw [if_neg h6] at hend
    refine (onImage_of_found takeStatus hs hc).trans ?_
    rw [takeStatus_eq (by exact h), hserve, hend]

end

theorem catchUpOf_seq (c : List Byte) : (catchUpOf c).seq.toNat = beAt c 2 4 := by
  rw [catchUpOf, newServe, BitVec.toNat_ofNat, Nat.mod_eq_of_lt (by exact beAt_lt c 2 4)]

/-! ## OFFER_ROUND (R166) -/

@[simp] theorem nodesInRing_rest (s : State) : s.nodesInRing.2 = { s with free := s.free + 2 } := rfl

/-- The chunks to send in this second: all with the first OFFER, none past STAGE_LIMIT, those reported missing when a round is over
with nodes of the ring still to report. -/
def State.nextRound (v : Serve) (c : Bool) (s : State) : BitVec 5462 :=
  if v.firstAt = none then BitVec.ofNat 5462 (2 ^ s.chunkCount c - 1)
  else if s.limitOver v c = true then 0
  else if v.round = 0 ∧ s.roundsOver s.nodesInRing.1 v c = false then v.needed else v.round

theorem serveRound_record (v : Serve) (c : Bool) (s : State) : (serveRound v c s).1.round = s.nextRound v c ∧
    (serveRound v c s).1.roster = v.roster ∧ (serveRound v c s).1.staged = v.staged ∧ (serveRound v c s).1.refused = v.refused ∧
    (serveRound v c s).1.armed = v.armed ∧ (serveRound v c s).1.firstAt = some (v.firstAt.getD s.cycles) := by
  have hfree : ∀ r w, ({ s with free := s.free + 2 } : State).roundsOver r w c = s.roundsOver r w c := fun _ _ => rfl
  have hlim : ∀ w, ({ s with free := s.free + 2 } : State).limitOver w c = s.limitOver w c := fun _ => rfl
  have hcount : ({ s with free := s.free + 2 } : State).chunkCount c = s.chunkCount c := rfl
  unfold serveRound State.nextRound
  dsimp only
  rw [nodesInRing_rest]
  simp only [hfree, hlim, hcount]
  cases hf : v.firstAt <;> split <;> simp

theorem serveRound_offer (v : Serve) (c : Bool) (s : State) :
    (dueSince v.offerAt 0x20000000 s = true → (serveRound v c s).1.offerAt = some s.cycles ∧
      (serveRound v c s).2.work.images = s.work.images ++ [imageOffer c s]) ∧
    (dueSince v.offerAt 0x20000000 s = false → (serveRound v c s).1.offerAt = v.offerAt ∧
      (serveRound v c s).2.work.images = s.work.images) := by
  have hdue : dueSince v.offerAt 536870912 { s with free := s.free + 2 } = dueSince v.offerAt 0x20000000 s := rfl
  unfold serveRound
  dsimp only
  rw [nodesInRing_rest, hdue]
  refine ⟨fun h => ?_, fun h => ?_⟩
  · rw [if_pos h]
    exact ⟨rfl, rfl⟩
  · rw [if_neg (by simp [h])]
    exact ⟨rfl, rfl⟩

theorem copyBytes_length (c : Bool) (off n : Nat) (s : State) : (s.copyBytes c off n).length = n := by
  simp [State.copyBytes, State.plugBytes, tabGetRun]

/-- The fields of an OFFER cell. -/
theorem imageOffer_fields (c : Bool) (s : State) : byteAt (imageOffer c s) 0 = 0x20 ∧
    byteAt (imageOffer c s) 1 = BitVec.ofNat 8 s.address ∧ beAt (imageOffer c s) 2 4 = s.imageSeq c % 2 ^ 32 ∧
    slice (imageOffer c s) 16 16 = s.copyBytes c 0x58 16 := by
  unfold imageOffer
  rw [byteAt_workCell _ (by decide), byteAt_workCell _ (by decide), beAt_workCell _ (by decide), slice_workCell _ (by decide)]
  simp only [List.append_assoc]
  refine ⟨rfl, rfl, ?_, ?_⟩
  · rw [← List.append_assoc]
    exact beAt_written [0x20, BitVec.ofNat 8 s.address] _ 4 _ rfl
  · simp only [← List.append_assoc]
    rw [slice_append_left _ (by simp [beBytes_length, copyBytes_length])]
    have hlen : ([0x20, BitVec.ofNat 8 s.address] ++ beBytes 4 (s.imageSeq c) ++ beBytes 2 (s.chunkCount c) ++
      beBytes 4 (s.copyLe c 0x68 4) ++ beBytes 4 (s.copyLe c 0xFC 4)).length = 16 := by simp [beBytes_length]
    have h := slice_append_right ([0x20, BitVec.ofNat 8 s.address] ++ beBytes 4 (s.imageSeq c) ++ beBytes 2 (s.chunkCount c) ++
      beBytes 4 (s.copyLe c 0x68 4) ++ beBytes 4 (s.copyLe c 0xFC 4)) (s.copyBytes c 0x58 16) 0 16
    rw [hlen] at h
    exact h.trans (slice_self (copyBytes_length c 0x58 16 s))

theorem offerRound_none {s : State} (hs : s.working = true) (hc : s.dist.catchUp = none) (hv : s.dist.serve = none) :
    exec .offerRound s = .next s := by
  show execOfferRound s = _
  rw [execOfferRound, actWhen_of_true hs]
  simp only [hv, hc]

theorem offerRound_completes {s : State} (hs : s.working = true) (hc : s.dist.catchUp = none) {v : Serve}
    (hv : s.dist.serve = some v) : completes .offerRound s [.work, .dist, .free] fun t =>
      t.dist = { s.dist with serve := some (serveRound v s.inactive s).1 } ∧
      t.work.images = (serveRound v s.inactive s).2.work.images := by
  have hdist : (serveRound v s.inactive s).2.dist = s.dist :=
    dist_same_of_hide (m := 83886080) rfl (serveRound_hide _ _ _ _ rfl)
  refine ⟨(serveRound v s.inactive s).2.modDist fun d => { d with serve := some (serveRound v s.inactive s).1 }, ?_,
    only_of_hide (Nat.and_self _) ?_, ?_, rfl⟩
  · show execOfferRound s = _
    rw [execOfferRound, actWhen_of_true hs]
    simp only [hv, State.modDist, hdist, hc]
  · exact (State.modDist_hide _ _ _ rfl).trans (serveRound_hide _ _ _ _ rfl)
  · simp only [State.modDist, hdist]

/-! ## BEACON_SEND (R173) -/

/-- A BEACON waits to be sent, and the time is noted. -/
def beaconSent (s : State) : State :=
  (s.modWork fun w => { w with images := w.images ++ [workCell ([0x23, BitVec.ofNat 8 s.address] ++
    beBytes 4 (s.get F.KIN_IMAGE_SEQ_SEQUENCE) ++ [BitVec.ofNat 8 (s.get F.IDENT_MODULE_RUN_LEVEL)])] }).modDist fun d =>
      { d with beaconAt := some s.cycles }

theorem beaconSend_completes {s : State} (hs : s.working = true) (hd : s.distributes s.selected = true)
    (hdue : ∀ x, s.dist.beaconAt = some x → x + 0x140000000 ≤ s.cycles) :
    completes .beaconSend s [.work, .dist] fun t => t.dist = { s.dist with beaconAt := some s.cycles } ∧
      ∃ x : List Byte, t.work.images = s.work.images ++ [x] ∧ byteAt x 0 = 0x23 ∧ byteAt x 1 = BitVec.ofNat 8 s.address ∧
        beAt x 2 4 = s.get F.KIN_IMAGE_SEQ_SEQUENCE := by
  have h : (s.working && s.distributes s.selected && dueSince s.dist.beaconAt 5368709120 s) = true := by
    simp [hs, hd, dueSince_iff.mpr hdue]
  have hexec : execBeaconSend s = .next (beaconSent s) := by
    rw [execBeaconSend, actWhen_of_true h]
    rfl
  refine ⟨_, hexec, only_of_hide (Nat.and_self _) ?_, rfl, _, rfl, ?_⟩
  · exact (State.modDist_hide _ _ _ rfl).trans (State.modWork_hide _ _ _ rfl)
  · rw [byteAt_workCell _ (by decide), byteAt_workCell _ (by decide), beAt_workCell _ (by decide)]
    refine ⟨rfl, rfl, ?_⟩
    exact (beAt_written [0x23, BitVec.ofNat 8 s.address] _ 4 _ rfl).trans
      (Nat.mod_eq_of_lt (State.get_lt F.KIN_IMAGE_SEQ_SEQUENCE s))

theorem beaconSend_not_due {s : State}
    (h : ¬ (s.distributes s.selected = true ∧ ∀ x, s.dist.beaconAt = some x → x + 0x140000000 ≤ s.cycles)) :
    exec .beaconSend s = .next s := by
  show execBeaconSend s = _
  rw [execBeaconSend]
  refine actWhen_of_false (Bool.eq_false_iff.mpr fun hb => h ?_)
  rw [Bool.and_eq_true, Bool.and_eq_true] at hb
  obtain ⟨⟨-, hd⟩, hdue⟩ := hb
  exact ⟨hd, dueSince_iff.mp hdue⟩

/-! ## ARMING (R168) -/

/-- The seconds at which an image can be activated: whole minutes, not before either of two times. -/
theorem minute_least {x y a : Nat} (ha : a = (max x y + 59) / 60 * 60) :
    a % 60 = 0 ∧ x ≤ a ∧ y ≤ a ∧ ∀ b, b % 60 = 0 → x ≤ b → y ≤ b → a ≤ b := by
  refine ⟨by omega, by omega, by omega, fun b hb hx hy => ?_⟩
  omega

/-- The service of an image is over and its activation second not yet chosen. -/
def State.armsNow (v : Serve) (s : State) : Prop := v.armed = false ∧ v.firstAt.isSome ∧ s.serveOver v s.inactive

theorem arming_none {s : State} (hs : s.working = true) (hc : s.dist.catchUp = none) (hv : s.dist.serve = none) :
    exec .arming s = .next s := by
  show execArming s = _
  rw [execArming, actWhen_of_true hs]
  simp only [hv, hc]

theorem arming_waits {s : State} (hs : s.working = true) (hc : s.dist.catchUp = none) {v : Serve} (hv : s.dist.serve = some v)
    (h : ¬ s.armsNow v) : exec .arming s = .next s := by
  rw [State.armsNow] at h
  show execArming s = _
  rw [execArming, actWhen_of_true hs]
  simp only [hv, h, if_false, hc]

theorem armServe_dist (v : Serve) (s : State) : (armServe v s).dist = { s.dist with serve := some { v with armed := true } } := by
  refine (dist_same_of_hide (m := 16777345) rfl (armNodes_hide _ _ _ _ _ rfl)).trans ?_
  simp [State.modDist, rewriteCommit]

theorem arming_completes {s : State} (hs : s.working = true) (hc : s.dist.catchUp = none) {v : Serve} (hv : s.dist.serve = some v)
    (h : s.armsNow v) : completes .arming s [.regs, .ic, .plug, .work, .dist] fun t => t = armServe v s := by
  rw [State.armsNow] at h
  have hcu : (armServe v s).dist.catchUp = none := by rw [armServe_dist, hc]
  refine ⟨armServe v s, ?_, only_of_hide (Nat.and_self _) (armServe_hide _ _ _ rfl), rfl⟩
  show execArming s = _
  rw [execArming, actWhen_of_true hs]
  simp only [hv, h, and_self, if_true, hcu]

/-- The state in which the distributor tells the nodes of its ACT. -/
def armed (v : Serve) (act : Nat) (s : State) : State :=
  setDist dARMED (setAct act ((rewriteCommit s.inactive 0x3C3C5A5A act s).modDist fun d =>
    { d with serve := some { v with armed := true } }))

theorem armServe_eq (v : Serve) (s : State) : armServe v s =
    armNodes (v.staged &&& ~~~ (BitVec.twoPow 128 s.address)) v.seq (s.chooseAct s.inactive) (armed v (s.chooseAct s.inactive) s) := by
  have haddr : (armed v (s.chooseAct s.inactive) s).address = s.address := by
    simp [State.address, armed, rewriteCommit, State.modDist]
  rw [← haddr]
  rfl

/-- The nodes told are those that reported STAGED, but the distributor itself. -/
theorem targetsOf_others (m : BitVec 128) (a : Nat) : targetsOf (m &&& ~~~ (BitVec.twoPow 128 a)) =
    (List.range 128).filter fun n => m.getLsbD n && decide (n ≠ a) := by
  refine List.filter_congr fun n hn => ?_
  rw [List.mem_range] at hn
  simp [hn, eq_comm]

/-- What a distributor that arms its image shows, holds and sends. -/
theorem armServe_done (v : Serve) {s : State} (hplug : s.plugReachable = true) {t : State} (ht : t = armServe v s) :
    t.distState = 3 ∧ t.copyLe s.inactive 0 4 = 0x3C3C5A5A ∧
    (s.chooseAct s.inactive < 2 ^ 64 → t.act = s.chooseAct s.inactive ∧ t.copyLe s.inactive 8 8 = s.chooseAct s.inactive) ∧
    (s.custodySlot = none → t.work.arming = s.work.arming ++
      ((List.range 128).filter fun n => v.staged.getLsbD n && decide (n ≠ s.address)).map fun n =>
        (n, v.seq, BitVec.ofNat 64 (s.chooseAct s.inactive))) := by
  rw [armServe_eq] at ht
  generalize s.chooseAct s.inactive = a at ht ⊢
  have hplug' : t.plug = (rewriteCommit s.inactive 0x3C3C5A5A a s).plug := by
    rw [ht, plug_same_of_hide (m := 16777345) rfl (armNodes_hide _ _ _ _ _ rfl)]
    simp [armed, State.modDist]
  have hcopy := fun off n (hin : off + n ≤ 64) =>
    copyLe_writeCommit hplug s.inactive 0x3C3C5A5A (s.copyLe s.inactive 4 4) a (s.copyLe s.inactive 0x10 1) hin
  obtain ⟨fcommit, -, fact, -⟩ := commitBlock_fields 0x3C3C5A5A (s.copyLe s.inactive 4 4) a (s.copyLe s.inactive 0x10 1)
  have hwork : (armed v a s).work = s.work := by simp [armed, State.modDist, rewriteCommit]
  refine ⟨?_, ?_, fun ha => ⟨?_, ?_⟩, fun hfull => ?_⟩
  · rw [ht, State.distState, armNodes_get (by decide)]
    exact distState_setDist (by decide) _
  · rw [copyLe_of_mem (congrArg Plug.mem hplug')]
    exact (hcopy 0 4 (by decide)).trans fcommit
  · rw [ht, act_of_get (armNodes_get (by decide) _ _ _ _) (armNodes_get (by decide) _ _ _ _), armed, setDist_act, act_setAct ha]
  · rw [copyLe_of_mem (congrArg Plug.mem hplug')]
    exact (hcopy 8 8 (by decide)).trans (fact.trans (Nat.mod_eq_of_lt ha))
  · have hfull' : (armed v a s).custodySlot = none := by rwa [State.custodySlot, hwork]
    rw [ht, armNodes_of_full hfull', hwork, targetsOf_others]

end Sys2Proof.Machine

namespace Sys2Proof.Safety
open Sys2Proof.Machine

/-- Settles O45: a STATUS by what it does to the service (`serveStatus`) and to the catch-up (`catchUpStatus`), an OFFER_ROUND by
`serveRound`, an ARMING by the state that tells the nodes of the ACT chosen (`armServe_done`). -/
theorem imageServing : Obligations.ImageServing := by
  unfold Obligations.ImageServing
  refine ⟨fun c s hs hc => ?_, fun s hs hc => ?_, fun s hs hc => ?_, fun v c s h => serveOver_of_reported h,
    fun r v c s h => roundsOver_of_reported h, fun s hs => ⟨fun ⟨hd, hdue⟩ => beaconSend_completes hs hd hdue, beaconSend_not_due⟩⟩
  · refine ⟨imageStatus_other hs hc, fun v h hv hq hrun => ?_, fun v h hv h6 h7 hnew hrun => imageStatus_older hs hc h hv h6 h7 hnew hrun,
      fun h hv hcu hq hd hr => ?_⟩
    · refine completes_mono (imageStatus_served hs hc h hv hq hrun) ?_
      rintro t ⟨hdist, hreg⟩
      refine ⟨fun h6 => ?_, fun h6 => ?_, fun h6 hround => ?_, fun h6 hround => ?_⟩
      · rw [Serve.take_staged h6] at hdist hreg
        exact ⟨hdist, hreg⟩
      · rwa [Serve.take_refused h6] at hdist
      · rwa [Serve.take_need h6, if_neg hround] at hdist
      · rwa [Serve.take_need h6, if_pos hround] at hdist
    · obtain ⟨hneed, hother⟩ := imageStatus_named hs hc h hv hcu hq hd hr
      exact ⟨fun h6 => completes_mono (hneed h6) fun t ht => ⟨_, ht, rfl, rfl, rfl, (catchUpOf_seq c).trans hq⟩, hother⟩
  · refine ⟨offerRound_none hs hc, fun v hv => completes_mono (offerRound_completes hs hc hv) ?_⟩
    rintro t ⟨hdist, himages⟩
    obtain ⟨rround, rroster, rstaged, rrefused, rarmed, rfirst⟩ := serveRound_record v s.inactive s
    obtain ⟨rdue, rnot⟩ := serveRound_offer v s.inactive s
    refine ⟨_, hdist, rround, rroster, rstaged, rrefused, rarmed, rfirst, fun h => ?_, fun h => ?_⟩
    · obtain ⟨hat, him⟩ := rdue (dueSince_iff.mpr h)
      exact ⟨hat, _, himages.trans him, imageOffer_fields s.inactive s⟩
    · obtain ⟨hat, him⟩ := rnot (Bool.eq_false_iff.mpr fun hd => h (dueSince_iff.mp hd))
      exact ⟨hat, himages.trans him⟩
  · refine ⟨arming_none hs hc, fun v hv h => arming_waits hs hc hv ?_, fun v hv harm hfirst hover hplug => ?_⟩
    · rintro ⟨harm, hfirst, hover⟩
      rcases h with h | h | h
      · exact absurd (h.symm.trans harm) (by decide)
      · exact absurd (Option.isSome_iff_ne_none.mp hfirst) (not_not.mpr h)
      · exact absurd (h.symm.trans hover) (by decide)
    · refine completes_mono (arming_completes hs hc hv ⟨harm, Option.isSome_iff_ne_none.mpr hfirst, hover⟩) ?_
      rintro t rfl
      obtain ⟨hstate, hcommit, hact, htold⟩ := armServe_done v hplug rfl
      refine ⟨hstate, by rw [armServe_dist], hcommit, s.chooseAct s.inactive, ?_⟩
      obtain ⟨hminute, hear, hsoon, hleast⟩ := minute_least (rfl : s.chooseAct s.inactive = _)
      exact ⟨hminute, hear, hsoon, hleast, hact, htold⟩

end Sys2Proof.Safety
end

section
/-! ACTIVATE_IMAGE (R169): the copy that an item arms or disarms. -/

namespace Sys2Proof.Machine
open Safety

/-! ## ACTIVATE_IMAGE (R169) -/

/-- A STATUS about the staged copy, unless the node staged it itself. -/
def tellSource (dst seq st : Nat) (s : State) : State := if dst = 0xFF then s else sendStatus seq st 0 dst s.mismatch [] s

@[simp] theorem tellSource_rest (dst seq st : Nat) (s : State) : (tellSource dst seq st s).dist = s.dist ∧
    (tellSource dst seq st s).plug = s.plug ∧ (tellSource dst seq st s).hrt = s.hrt := by
  unfold tellSource
  split <;> simp

@[simp] theorem tellSource_get (dst seq st : Nat) (s : State) (f : Field) : (tellSource dst seq st s).get f = s.get f := by
  unfold tellSource
  split <;> simp

theorem tellSource_hide (dst seq st : Nat) (s : State) (m : Nat) (h : m &&& 16777216 = 16777216) :
    (tellSource dst seq st s).hide m = s.hide m := by
  unfold tellSource
  split
  · rfl
  · exact sendStatus_hide _ _ _ _ _ _ _ _ h

/-- ACT and the sequence are written; a change of ACT ends a drain. -/
def writeAct (seq act : Nat) (s : State) : State :=
  setAct act ((rewriteCommit s.inactive 0x3C3C5A5A act (if act = s.act then s else endDrain s)).put F.PLG_DIST_SEQ_SEQUENCE seq)

theorem writeAct_hide (seq act : Nat) (s : State) (m : Nat) (h : m &&& 41943297 = 41943297) :
    (writeAct seq act s).hide m = s.hide m := by
  rw [writeAct, setAct_hide _ _ _ (mask_sub h 1 rfl), State.put_hide _ _ _ _ (mask_sub h 1 rfl),
    rewriteCommit_hide _ _ _ _ _ (mask_sub h 8388608 rfl)]
  split
  · rfl
  · exact endDrain_hide _ _ (mask_sub h 33554688 rfl)

theorem writeAct_seq {seq : Nat} (h : seq < 2 ^ 32) (act : Nat) (s : State) :
    (writeAct seq act s).get F.PLG_DIST_SEQ_SEQUENCE = seq := by
  rw [writeAct, setAct_get (by decide) (by decide),
    State.get_put_lt (by decide) (show seq < 2 ^ F.PLG_DIST_SEQ_SEQUENCE.width from h)]

theorem writeAct_distState (seq act : Nat) (s : State) : (writeAct seq act s).distState = s.distState := by
  rw [writeAct, setAct_distState, State.distState, State.get_put_addr _ _ _ _ (by decide), rewriteCommit, writeCommit_get]
  split <;> rfl

/-- Another ACT ends a drain. -/
theorem writeAct_drain {seq act : Nat} {s : State} (h : act ≠ s.act) :
    (writeAct seq act s).hrt.draining = false ∧ (writeAct seq act s).dist.window = none := by
  simp [writeAct, h, rewriteCommit]

theorem writeAct_copy {seq act : Nat} {s : State} (hplug : s.plugReachable = true) (h : act < 2 ^ 64) :
    (writeAct seq act s).copyLe s.inactive 0 4 = 0x3C3C5A5A ∧ (writeAct seq act s).copyLe s.inactive 8 8 = act := by
  have hplug' : (if act = s.act then s else endDrain s).plugReachable = true := by
    split
    · exact hplug
    · exact hplug
  obtain ⟨fcommit, -, fact, -⟩ := commitBlock_fields 0x3C3C5A5A ((if act = s.act then s else endDrain s).copyLe s.inactive 4 4) act
    ((if act = s.act then s else endDrain s).copyLe s.inactive 0x10 1)
  refine ⟨?_, ?_⟩
  · exact (copyLe_writeCommit hplug' _ _ _ _ _ (by decide)).trans fcommit
  · exact (copyLe_writeCommit hplug' _ _ _ _ _ (by decide)).trans (fact.trans (Nat.mod_eq_of_lt h))

/-- The copy is armed: ACT is written, and STATE stays where the copy is preloaded. -/
def armCopy (seq act : Nat) (s : State) : State :=
  if (writeAct seq act s).distState = dPRELOADED then writeAct seq act s else setDist dARMED (writeAct seq act s)

/-- The copy is disarmed. -/
def disarmCopy (seq act : Nat) (s : State) : State := setDist dSTAGED (dropPreload (writeAct seq act s))

theorem activate_of_held {r : JRec} {s : State} (h : s.holdsStaged r.item.arg0.toNat = true) : activate r s = carriedOut r 0
    (if r.item.arg2.toNat = 0 then
      tellSource (s.copyLe s.inactive 0x10 1) r.item.arg0.toNat sSTAGED (disarmCopy r.item.arg0.toNat r.item.arg2.toNat s)
    else
      tellSource (s.copyLe s.inactive 0x10 1) r.item.arg0.toNat sARMED (armCopy r.item.arg0.toNat r.item.arg2.toNat s)) := by
  unfold activate
  simp only [h, Bool.not_true, Bool.false_eq_true, if_false]
  split <;> rfl

theorem activate_of_not_held {r : JRec} {s : State} (h : s.holdsStaged r.item.arg0.toNat = false) :
    activate r s = carriedOut r 0 (imgFault kCOMPAT 0x23 (r.item.arg0.toNat % 65536) s) := by
  unfold activate
  simp only [h, Bool.not_false, if_true]

theorem armCopy_hide (seq act : Nat) (s : State) (m : Nat) (h : m &&& 41943425 = 41943425) :
    (armCopy seq act s).hide m = s.hide m := by
  have hw := writeAct_hide seq act s m (mask_sub h 41943297 rfl)
  unfold armCopy
  split
  · exact hw
  · exact (setDist_hide _ _ _ (mask_sub h 129 rfl)).trans hw

@[simp] theorem armCopy_rest (seq act : Nat) (s : State) : (armCopy seq act s).dist = (writeAct seq act s).dist ∧
    (armCopy seq act s).plug = (writeAct seq act s).plug ∧ (armCopy seq act s).hrt = (writeAct seq act s).hrt := by
  unfold armCopy
  split <;> simp

theorem armCopy_shown {seq act : Nat} (hseq : seq < 2 ^ 32) (hact : act < 2 ^ 64) (s : State) :
    (armCopy seq act s).act = act ∧ (armCopy seq act s).get F.PLG_DIST_SEQ_SEQUENCE = seq ∧
    (armCopy seq act s).distState = if s.distState = 4 then 4 else 3 := by
  have hd := writeAct_distState seq act s
  have ha : (writeAct seq act s).act = act := act_setAct hact _
  have hq := writeAct_seq hseq act s
  unfold armCopy
  rw [hd]
  by_cases h : s.distState = 4
  · rw [if_pos (show s.distState = dPRELOADED from h), if_pos h]
    exact ⟨ha, hq, hd.trans h⟩
  · rw [if_neg (show ¬ s.distState = dPRELOADED from h), if_neg h]
    exact ⟨(setDist_act _ _).trans ha, (setDist_get (by decide) (by decide) (by decide) _ _).trans hq, distState_setDist (by decide) _⟩

theorem disarmCopy_hide (seq act : Nat) (s : State) (m : Nat) (h : m &&& 41943425 = 41943425) :
    (disarmCopy seq act s).hide m = s.hide m := by
  rw [disarmCopy, setDist_hide _ _ _ (mask_sub h 129 rfl), dropPreload_hide _ _ (mask_sub h 1 rfl),
    writeAct_hide _ _ _ _ (mask_sub h 41943297 rfl)]

@[simp] theorem disarmCopy_rest (seq act : Nat) (s : State) : (disarmCopy seq act s).dist = (writeAct seq act s).dist ∧
    (disarmCopy seq act s).plug = (writeAct seq act s).plug ∧ (disarmCopy seq act s).hrt = (writeAct seq act s).hrt := by
  simp [disarmCopy]

theorem disarmCopy_shown (seq : Nat) {act : Nat} (h : act < 2 ^ 64) (s : State) : (disarmCopy seq act s).act = act ∧
    (disarmCopy seq act s).distState = 2 ∧ (disarmCopy seq act s).get F.HRT_SWAP_PRELOADED = 0 ∧
    (disarmCopy seq act s).get F.TSI_STATUS_PRELOADED = 0 := by
  have ha : (writeAct seq act s).act = act := act_setAct h _
  obtain ⟨hh, ht⟩ := dropPreload_cleared (writeAct seq act s)
  refine ⟨?_, distState_setDist (by decide) _, ?_, ?_⟩
  · rw [disarmCopy, setDist_act, act_of_get (dropPreload_get (by decide) (by decide) (by decide) _)
      (dropPreload_get (by decide) (by decide) (by decide) _), ha]
  · rw [disarmCopy, setDist_get (by decide) (by decide) (by decide), hh]
  · rw [disarmCopy, setDist_get (by decide) (by decide) (by decide), ht]

/-- What carrying an item out and telling of it leaves. -/
theorem carriedOut_tellSource_rest (r : JRec) (dst seq st : Nat) (u : State) :
    (carriedOut r 0 (tellSource dst seq st u)).dist = u.dist ∧ (carriedOut r 0 (tellSource dst seq st u)).hrt = u.hrt ∧
    (carriedOut r 0 (tellSource dst seq st u)).plug = u.plug := by
  have h := carriedOut_hide r 0 (tellSource dst seq st u) 16777345 rfl
  obtain ⟨hdist, hplug, hhrt⟩ := tellSource_rest dst seq st u
  exact ⟨(dist_same_of_hide rfl h).trans hdist, (hrt_same_of_hide rfl h).trans hhrt, (plug_same_of_hide rfl h).trans hplug⟩

theorem carriedOut_tellSource_get {f : Field} (hf : f.addr ∉ workRegs) (r : JRec) (dst seq st : Nat) (u : State) :
    (carriedOut r 0 (tellSource dst seq st u)).get f = u.get f := by
  rw [carriedOut_get hf, tellSource_get]

theorem carriedOut_tellSource_hide (r : JRec) (dst seq st : Nat) (u : State) (m : Nat) (h : m &&& 16777345 = 16777345) :
    (carriedOut r 0 (tellSource dst seq st u)).hide m = u.hide m :=
  (carriedOut_hide _ _ _ _ h).trans (tellSource_hide _ _ _ _ _ (mask_sub h 16777216 rfl))

section
variable {s : State} (hs : s.working = true)
include hs

theorem activateImage_none (h : s.headReady 4 = none) : exec .activateImage s = .next s := by
  show execActivateImage s = _
  rw [execActivateImage, actWhen_of_true hs, show s.headReady aIMAGE = none from h]

theorem exec_activateImage {r : JRec} (h : s.headReady 4 = some r) : exec .activateImage s = .next (activate r s) := by
  show execActivateImage s = _
  rw [execActivateImage, actWhen_of_true hs, show s.headReady aIMAGE = some r from h]

theorem activateImage_armed {r : JRec} (h : s.headReady 4 = some r) (hst : s.holdsStaged r.item.arg0.toNat = true)
    (hact : r.item.arg2.toNat ≠ 0) (hplug : s.plugReachable = true) :
    completes .activateImage s [.regs, .ic, .hrt, .plug, .work, .dist] fun t =>
      (r.item.arg2.toNat ≠ s.act → t.hrt.draining = false ∧ t.dist.window = none) ∧
      t.act = r.item.arg2.toNat ∧ t.get F.PLG_DIST_SEQ_SEQUENCE = r.item.arg0.toNat ∧
      t.distState = (if s.distState = 4 then 4 else 3) ∧
      t.copyLe s.inactive 0 4 = 0x3C3C5A5A ∧ t.copyLe s.inactive 8 8 = r.item.arg2.toNat := by
  have hexec := exec_activateImage hs h
  rw [activate_of_held hst, if_neg hact] at hexec
  obtain ⟨aact, aseq, astate⟩ := armCopy_shown r.item.arg0.isLt r.item.arg2.isLt s
  obtain ⟨adist, aplug, ahrt⟩ := armCopy_rest r.item.arg0.toNat r.item.arg2.toNat s
  obtain ⟨wcommit, wact⟩ := writeAct_copy (seq := r.item.arg0.toNat) hplug r.item.arg2.isLt
  obtain ⟨hdist, hhrt, hplug'⟩ := carriedOut_tellSource_rest r (s.copyLe s.inactive 0x10 1) r.item.arg0.toNat sARMED
    (armCopy r.item.arg0.toNat r.item.arg2.toNat s)
  have hmem := congrArg Plug.mem (hplug'.trans aplug)
  refine ⟨_, hexec, only_of_hide (Nat.and_self _) ?_, ?_, ?_, ?_, ?_, ?_, ?_⟩
  · exact (carriedOut_tellSource_hide _ _ _ _ _ _ rfl).trans (armCopy_hide _ _ _ _ rfl)
  · rw [hdist, hhrt, adist, ahrt]
    exact writeAct_drain
  · exact (act_of_get (carriedOut_tellSource_get (by decide) _ _ _ _ _) (carriedOut_tellSource_get (by decide) _ _ _ _ _)).trans aact
  · exact (carriedOut_tellSource_get (by decide) _ _ _ _ _).trans aseq
  · exact (carriedOut_tellSource_get (by decide) _ _ _ _ _).trans astate
  · exact (copyLe_of_mem hmem _ _ _).trans wcommit
  · exact (copyLe_of_mem hmem _ _ _).trans wact

theorem activateImage_disarmed {r : JRec} (h : s.headReady 4 = some r) (hst : s.holdsStaged r.item.arg0.toNat = true)
    (hact : r.item.arg2.toNat = 0) (hplug : s.plugReachable = true) :
    completes .activateImage s [.regs, .ic, .hrt, .plug, .work, .dist] fun t =>
      (r.item.arg2.toNat ≠ s.act → t.hrt.draining = false ∧ t.dist.window = none) ∧
      t.act = 0 ∧ t.distState = 2 ∧ t.get F.HRT_SWAP_PRELOADED = 0 ∧ t.get F.TSI_STATUS_PRELOADED = 0 ∧
      t.copyLe s.inactive 8 8 = 0 := by
  have hexec := exec_activateImage hs h
  rw [activate_of_held hst, if_pos hact] at hexec
  obtain ⟨dact, dstate, dhp, dtp⟩ := disarmCopy_shown r.item.arg0.toNat r.item.arg2.isLt s
  obtain ⟨ddist, dplug, dhrt⟩ := disarmCopy_rest r.item.arg0.toNat r.item.arg2.toNat s
  obtain ⟨-, wact⟩ := writeAct_copy (seq := r.item.arg0.toNat) hplug r.item.arg2.isLt
  obtain ⟨hdist, hhrt, hplug'⟩ := carriedOut_tellSource_rest r (s.copyLe s.inactive 0x10 1) r.item.arg0.toNat sSTAGED
    (disarmCopy r.item.arg0.toNat r.item.arg2.toNat s)
  refine ⟨_, hexec, only_of_hide (Nat.and_self _) ?_, ?_, ?_, ?_, ?_, ?_, ?_⟩
  · exact (carriedOut_tellSource_hide _ _ _ _ _ _ rfl).trans (disarmCopy_hide _ _ _ _ rfl)
  · rw [hdist, hhrt, ddist, dhrt]
    exact writeAct_drain
  · exact ((act_of_get (carriedOut_tellSource_get (by decide) _ _ _ _ _)
      (carriedOut_tellSource_get (by decide) _ _ _ _ _)).trans dact).trans hact
  · exact (carriedOut_tellSource_get (by decide) _ _ _ _ _).trans dstate
  · exact (carriedOut_tellSource_get (by decide) _ _ _ _ _).trans dhp
  · exact (carriedOut_tellSource_get (by decide) _ _ _ _ _).trans dtp
  · exact ((copyLe_of_mem (congrArg Plug.mem (hplug'.trans dplug)) _ _ _).trans wact).trans hact

theorem activateImage_not_held {r : JRec} (h : s.headReady 4 = some r) (hst : s.holdsStaged r.item.arg0.toNat = false) :
    completes .activateImage s [.regs, .col, .ic, .work] fun t => t.distState = s.distState ∧ t.act = s.act ∧
      t.col = (s.raise { src := 0x12, kind := kCOMPAT, cls := corrected, reason := 0x23,
                         detail := BitVec.ofNat 24 (r.item.arg0.toNat % 65536) }).col := by
  have heq := activate_of_not_held hst
  have hget : ∀ {f : Field}, f.addr ∉ workRegs → f.addr ≠ F.FLT_CNT_B_DROPPED.addr → (activate r s).get f = s.get f := fun hf hb => by
    rw [heq, carriedOut_get hf, imgFault_get hb]
  refine ⟨_, exec_activateImage hs h, only_of_hide (Nat.and_self _) ?_, hget (by decide) (by decide),
    act_of_get (hget (by decide) (by decide)) (hget (by decide) (by decide)), ?_⟩
  · rw [heq]
    exact (carriedOut_hide _ _ _ _ rfl).trans (imgFault_hide _ _ _ _ _ rfl)
  · rw [heq]
    exact col_same_of_hide (m := 16777345) rfl (carriedOut_hide _ _ _ _ rfl)

end

end Sys2Proof.Machine
end

section
/-! A block spliced into a table, and PRELOAD by what the armed copy holds (R170). -/

namespace Sys2Proof.Machine
open Safety

/-! ## A block of a table -/

theorem tabGet_append_of_unlisted_left {α : Type} (d : α) {l : List (Nat × α)} (r : List (Nat × α)) {j : Nat} (h : ∀ e ∈ l, e.1 ≠ j) :
    tabGet d (l ++ r) j = tabGet d r j := by
  induction l with
  | nil => rfl
  | cons e l ih =>
    rw [List.forall_mem_cons] at h
    rw [List.cons_append, tabGet, if_neg h.1, ih h.2]

theorem tabGet_append_of_unlisted_right {α : Type} (d : α) (l : List (Nat × α)) {r : List (Nat × α)} {j : Nat} (h : ∀ e ∈ r, e.1 ≠ j) :
    tabGet d (l ++ r) j = tabGet d l j := by
  induction l with
  | nil =>
    rw [List.nil_append, tabGet_nil]
    simpa using tabGet_append_of_unlisted_left d [] h
  | cons e l ih => rw [List.cons_append, tabGet, tabGet, ih]

section
variable {α : Type} [DecidableEq α]

/-- The entries of a block that are listed. -/
def tabBlock (d : α) (lo : Nat) (vs : List α) : List (Nat × α) :=
  ((vs.zipIdx lo).map fun p => (p.2, p.1)).filter fun e => decide (e.2 ≠ d)

theorem mem_tabBlock {d : α} {lo : Nat} {vs : List α} {e : Nat × α} (h : e ∈ tabBlock d lo vs) : lo ≤ e.1 ∧ e.1 < lo + vs.length :=
  zipIdx_range (List.mem_of_mem_filter h)

theorem tabGet_block (d : α) (vs : List α) {lo j : Nat} (hlo : lo ≤ j) : tabGet d (tabBlock d lo vs) j = vs.getD (j - lo) d := by
  induction vs generalizing lo with
  | nil => rfl
  | cons v vs ih =>
    have hcons : tabBlock d lo (v :: vs) = if v = d then tabBlock d (lo + 1) vs else (lo, v) :: tabBlock d (lo + 1) vs := by
      rw [tabBlock, List.zipIdx_cons, List.map_cons, List.filter_cons]
      by_cases hv : v = d <;> simp [hv, tabBlock]
    have hout : tabGet d (tabBlock d (lo + 1) vs) lo = d := by
      have h : ∀ e ∈ tabBlock d (lo + 1) vs, e.1 ≠ lo := fun e he => by
        have := mem_tabBlock he
        omega
      simpa using tabGet_append_of_unlisted_left d [] h
    rw [hcons]
    rcases Nat.eq_or_lt_of_le hlo with rfl | hlt
    · split
      · next hv => simp [hout, hv]
      · simp [tabGet]
    · obtain ⟨k, rfl⟩ : ∃ k, j = lo + 1 + k := ⟨j - (lo + 1), by omega⟩
      have hk : lo + 1 + k - lo = k + 1 := by omega
      rw [hk, List.getD_cons_succ]
      have htail : tabGet d (tabBlock d (lo + 1) vs) (lo + 1 + k) = vs.getD k d := by
        rw [ih (by omega), Nat.add_sub_cancel_left]
      split
      · exact htail
      · rw [tabGet, if_neg (by simp; omega), htail]

/-- A key of the block spliced in reads from the block, every other as before. -/
theorem tabGet_splice (d : α) (t : List (Nat × α)) (lo : Nat) (vs : List α) (j : Nat) :
    tabGet d (tabSplice d t lo vs) j = if lo ≤ j ∧ j < lo + vs.length then vs.getD (j - lo) d else tabGet d t j := by
  have hbelow : ∀ e ∈ t.filter fun e => decide (e.1 < lo), e.1 < lo := fun e he => by simpa using (List.mem_filter.mp he).2
  have habove : ∀ e ∈ t.filter fun e => decide (lo + vs.length ≤ e.1), lo + vs.length ≤ e.1 := fun e he => by
    simpa using (List.mem_filter.mp he).2
  have hblock : ∀ e ∈ tabBlock d lo vs, lo ≤ e.1 ∧ e.1 < lo + vs.length := fun e he => mem_tabBlock he
  show tabGet d (t.filter _ ++ tabBlock d lo vs ++ t.filter _) j = _
  split
  · next h =>
    rw [tabGet_append_of_unlisted_right d _ fun e he => by have := habove e he; omega,
      tabGet_append_of_unlisted_left d _ fun e he => by have := hbelow e he; omega, tabGet_block d vs h.1]
  · next h =>
    rcases Nat.lt_or_ge j lo with hj | hj
    · rw [tabGet_append_of_unlisted_right d _ fun e he => by have := habove e he; omega,
        tabGet_append_of_unlisted_right d _ fun e he => by have := hblock e he; omega,
        tabGet_filter d (fun k => decide (k < lo)), if_pos (by simpa using hj)]
    · rw [tabGet_append_of_unlisted_left d _ fun e he => by
          rcases List.mem_append.mp he with he | he
          · have := hbelow e he
            omega
          · have := hblock e he
            omega,
        tabGet_filter d (fun k => decide (lo + vs.length ≤ k)), if_pos (by simp; omega)]

end

/-! ## PRELOAD (R170) -/

/-- A word of the page loaded is that of the MICROCODE section. -/
theorem loadMicrocode_word {page i : Nat} (h : i < 8192) (c : Bool) (m : Section) (s : State) :
    (loadMicrocode page c m s).csWord page i = BitVec.ofNat 96 (leAt (s.body c m) (12 * i) 12) := by
  have hlen : (microwords (s.body c m)).length = 8192 := by simp [microwords]
  refine (tabGet_splice _ _ _ _ _).trans ?_
  rw [if_pos (by simp only [hlen, csKey]; omega)]
  have hi : csKey page i - csKey page 0 = i := by simp [csKey]
  rw [hi, List.getD_eq_getElem _ _ (by rwa [hlen])]
  simp [microwords]

/-- The other page is as before. -/
theorem loadMicrocode_apart {page p i : Nat} (h : i < 8192) (hp : p ≠ page) (c : Bool) (m : Section) (s : State) :
    (loadMicrocode page c m s).csWord p i = s.csWord p i := by
  have hlen : (microwords (s.body c m)).length = 8192 := by simp [microwords]
  refine (tabGet_splice _ _ _ _ _).trans (if_neg ?_)
  simp only [hlen, csKey]
  omega

/-- An armed copy is to be preloaded now. -/
def State.preloadDue (s : State) : Prop := s.working = true ∧ s.distState = 3 ∧ s.act ≠ 0 ∧ s.tsi.copy = none ∧ s.act ≤ s.secNow + 10

/-- The copy armed is still staged, and holds a personality for the node. -/
def State.preloadHeld (s : State) : Prop :=
  s.holdsStaged (s.get F.PLG_DIST_SEQ_SEQUENCE) = true ∧ s.pset s.inactive s.band ≠ 0xFFFF

/-- A MICROCODE section that can be loaded. -/
def State.codeSound (c : Bool) (m : Section) (s : State) : Prop :=
  s.sectionCrc c m = true ∧ ∀ w ∈ microwords (s.body c m), parityOk w = true

theorem exec_preload {s : State} (h : s.preloadDue) : exec .preload s = .next (preload s) := by
  obtain ⟨hs, hd, ha, hc, hsec⟩ := h
  show execPreload s = _
  rw [execPreload, actWhen_of_true]
  simp [hs, hd, ha, hc, hsec, dARMED]

theorem preload_not_due {s : State} (h : ¬ s.preloadDue) : exec .preload s = .next s := by
  show execPreload s = _
  rw [execPreload]
  refine actWhen_of_false (Bool.eq_false_iff.mpr fun hb => h ?_)
  simpa [State.preloadDue, dARMED, and_assoc] using hb

theorem preload_of_not_held {s : State} (h : ¬ s.preloadHeld) : preload s = preloadMissing s := by
  refine if_pos ?_
  by_contra hno
  rw [not_or] at hno
  exact h ⟨by simpa using hno.1, hno.2⟩

theorem preload_of_unsound {s : State} (hh : s.preloadHeld) (h : ¬ s.codeSound s.inactive (s.entry s.inactive (s.psetIndex s.inactive 0))) :
    preload s = preloadFailed (s.psetIndex s.inactive 0) s := by
  refine (if_neg ?_).trans (if_pos ?_)
  · rw [not_or]
    exact ⟨by simp [hh.1], hh.2⟩
  · by_contra hno
    rw [not_or] at hno
    obtain ⟨hcrc, hpar⟩ := hno
    exact h ⟨by simpa using hcrc, by simpa using hpar⟩

/-- The pages as the preload leaves them, where the copy has no connection section and no swap is pending. -/
def preloadPages (s : State) : State :=
  loadPage (!s.activePage) [] (loadMicrocode (1 - s.get F.HRT_SWAP_ACTIVE_PAGE) s.inactive (s.entry s.inactive (s.psetIndex s.inactive 0)) s)

theorem preload_of_sound {s : State} (hh : s.preloadHeld) (h : s.codeSound s.inactive (s.entry s.inactive (s.psetIndex s.inactive 0)))
    (ht : s.psetIndex s.inactive 4 = 0xFFFF) (hw : s.tsi.swap = none) :
    preload s = setDist 4 (((preloadPages s).put F.HRT_SWAP_PRELOADED 1).put F.TSI_STATUS_PRELOADED 1) := by
  have hcode : ¬ ((!s.sectionCrc s.inactive (s.entry s.inactive (s.psetIndex s.inactive 0))) = true ∨
      (!(microwords (s.body s.inactive (s.entry s.inactive (s.psetIndex s.inactive 0)))).all parityOk) = true) := by
    simpa [State.codeSound] using h
  have hswap : ∀ p c m, (loadMicrocode p c m s).tsi.swap.isSome = false := fun p c m => by
    show s.tsi.swap.isSome = false
    rw [hw]
    rfl
  refine (if_neg ?_).trans ((if_neg hcode).trans ((if_neg fun hno => hno.1 ht).trans ?_))
  · rw [not_or]
    exact ⟨by simp [hh.1], hh.2⟩
  · simp only [hswap, Bool.false_eq_true, if_false, ht, if_true]
    rfl

end Sys2Proof.Machine
end

section
/-! What a PRELOAD leaves and shows, and the window a DRAINING takes (R170, R172, R297). -/

namespace Sys2Proof.Machine
open Safety

theorem preloadPages_get (s : State) (f : Field) : (preloadPages s).get f = s.get f := rfl

theorem preloadPages_hrt (s : State) : (preloadPages s).hrt = (loadMicrocode (1 - s.get F.HRT_SWAP_ACTIVE_PAGE) s.inactive
    (s.entry s.inactive (s.psetIndex s.inactive 0)) s).hrt := rfl

theorem preloadPages_hide (s : State) (m : Nat) (h : m &&& 1048832 = 1048832) : (preloadPages s).hide m = s.hide m :=
  (setPage_hide _ _ _ _ (mask_sub h 1048576 rfl)).trans ((State.modTsi_hide _ _ _ (mask_sub h 1048576 rfl)).trans
    (loadMicrocode_hide _ _ _ _ _ (mask_sub h 256 rfl)))

/-- A preload that succeeds. -/
theorem preload_completes {s : State} (hdue : s.preloadDue) (hh : s.preloadHeld)
    (h : s.codeSound s.inactive (s.entry s.inactive (s.psetIndex s.inactive 0))) (ht : s.psetIndex s.inactive 4 = 0xFFFF)
    (hw : s.tsi.swap = none) : completes .preload s [.regs, .ic, .hrt, .tsi] fun t =>
      t.distState = 4 ∧ t.get F.HRT_SWAP_PRELOADED = 1 ∧ t.get F.TSI_STATUS_PRELOADED = 1 ∧
      t.get F.HRT_SWAP_ACTIVE_PAGE = s.get F.HRT_SWAP_ACTIVE_PAGE ∧ t.activePage = s.activePage ∧
      (∀ i, i < 8192 → t.csWord (1 - s.get F.HRT_SWAP_ACTIVE_PAGE) i =
          BitVec.ofNat 96 (leAt (s.body s.inactive (s.entry s.inactive (s.psetIndex s.inactive 0))) (12 * i) 12) ∧
        t.csWord (s.get F.HRT_SWAP_ACTIVE_PAGE) i = s.csWord (s.get F.HRT_SWAP_ACTIVE_PAGE) i) := by
  have hexec := exec_preload hdue
  rw [preload_of_sound hh h ht hw] at hexec
  generalize hu : ((preloadPages s).put F.HRT_SWAP_PRELOADED 1).put F.TSI_STATUS_PRELOADED 1 = u at hexec
  have hhrt : (setDist 4 u).hrt = (preloadPages s).hrt := by rw [(setDist_rest 4 u).2.2.2.2.1, ← hu]; rfl
  have hword : ∀ p i, (setDist 4 u).csWord p i = (loadMicrocode (1 - s.get F.HRT_SWAP_ACTIVE_PAGE) s.inactive
      (s.entry s.inactive (s.psetIndex s.inactive 0)) s).csWord p i := fun p i => by
    rw [State.csWord, hhrt, preloadPages_hrt, State.csWord]
  have hget : ∀ {f : Field}, f.Fits → f.addr ≠ (cntField 91).addr → f.addr ≠ F.PLG_DIST_STATE_STATE.addr →
      (setDist 4 u).get f = u.get f := fun hf hc ha => setDist_get hf (Or.inl ha) hc 4 u
  have hpage : (setDist 4 u).get F.HRT_SWAP_ACTIVE_PAGE = s.get F.HRT_SWAP_ACTIVE_PAGE := by
    rw [hget (by decide) (by decide) (by decide), ← hu, State.get_put_ne (by decide) (by decide),
      State.get_put_ne (by decide) (by decide), preloadPages_get]
  have hlt : s.get F.HRT_SWAP_ACTIVE_PAGE < 2 := State.get_lt F.HRT_SWAP_ACTIVE_PAGE s
  refine ⟨_, hexec, only_of_hide (Nat.and_self _) ?_, distState_setDist (by decide) u, ?_, ?_, hpage, State.bit_of_get ?_,
    fun i hi => ⟨?_, ?_⟩⟩
  · rw [← hu]
    exact (setDist_hide _ _ _ rfl).trans ((State.put_hide _ _ _ _ rfl).trans
      ((State.put_hide _ _ _ _ rfl).trans (preloadPages_hide s _ rfl)))
  · rw [hget (by decide) (by decide) (by decide), ← hu, State.get_put_ne (by decide) (by decide),
      State.get_put_lt (by decide) (by decide)]
  · rw [hget (by decide) (by decide) (by decide), ← hu, State.get_put_lt (by decide) (by decide)]
  · rw [hget (by decide) (by decide) (by decide), ← hu, State.get_put_ne (by decide) (by decide),
      State.get_put_ne (by decide) (by decide), preloadPages_get]
  · exact (hword _ i).trans (loadMicrocode_word hi _ _ s)
  · exact (hword _ i).trans (loadMicrocode_apart hi (by omega) _ _ s)

/-- A MICROCODE section that cannot be loaded: disarmed, and every chunk asked for. -/
theorem preloadFailed_done (index : Nat) (s : State) : (preloadFailed index s).distState = 1 ∧ (preloadFailed index s).act = 0 ∧
    (preloadFailed index s).dist.chunks = 0 ∧ (preloadFailed index s).work.images.length = s.work.images.length + 1 := by
  refine ⟨?_, ?_, by simp [preloadFailed], ?_⟩
  · rw [preloadFailed, sendNeed_distState]
    exact distState_setDist (by decide) _
  · rw [preloadFailed, sendNeed_act, setDist_act]
    exact (act_of_get (clearChunks_get (by decide) (by decide) _) (clearChunks_get (by decide) (by decide) _)).trans
      (act_setAct (by decide) _)
  · rw [preloadFailed, sendNeed_images_length]
    simp [rewriteCommit, State.modDist]

theorem preload_unsound {s : State} (hdue : s.preloadDue) (hh : s.preloadHeld)
    (h : ¬ s.codeSound s.inactive (s.entry s.inactive (s.psetIndex s.inactive 0))) :
    completes .preload s [.regs, .col, .ic, .plug, .work, .dist] fun t => t.distState = 1 ∧ t.act = 0 ∧
      t.dist.chunks = 0 ∧ t.work.images.length = s.work.images.length + 1 := by
  have hexec := exec_preload hdue
  rw [preload_of_unsound hh h] at hexec
  exact ⟨_, hexec, only_of_hide (Nat.and_self _) (preloadFailed_hide _ _ _ rfl), preloadFailed_done _ s⟩

/-- No preload can be made: disarmed, with the fault. -/
theorem preloadMissing_done (s : State) : (preloadMissing s).act = 0 ∧
    ((preloadMissing s).distState = 2 ∨ (preloadMissing s).distState = 0) ∧
    (preloadMissing s).col = (imgFault kCRC 0x22 0xFFFF s).col := by
  unfold preloadMissing
  extract_lets c seq s₁ staged s₂
  have hcol : s₂.col = s₁.col := by
    show (if _ then _ else _ : State).col = _
    split
    · simp [rewriteCommit]
    · rfl
  refine ⟨(setDist_act _ _).trans (act_setAct (by decide) _), ?_, ?_⟩
  · cases staged
    · exact Or.inr (distState_setDist (by decide) _)
    · exact Or.inl (distState_setDist (by decide) _)
  · rw [(setDist_rest _ _).2.2.2.1, (setAct_rest _ _).2.2.2.1, hcol]

theorem preload_missing {s : State} (hdue : s.preloadDue) (hh : ¬ s.preloadHeld) :
    completes .preload s [.regs, .col, .ic, .plug] fun t => t.act = 0 ∧ (t.distState = 2 ∨ t.distState = 0) ∧
      t.col = (s.raise { src := 0x12, kind := kCRC, cls := corrected, reason := 0x22, detail := 0xFFFF }).col := by
  have hexec := exec_preload hdue
  rw [preload_of_not_held hh] at hexec
  exact ⟨_, hexec, only_of_hide (Nat.and_self _) (preloadMissing_hide _ _ rfl), preloadMissing_done s⟩

/-! ## DRAINING (R172, R297) -/

/-- A second ACT + 60k that has not begun and lies 10 s or more after K8 entry. -/
def State.isWindow (w : Nat) (s : State) : Prop :=
  (∃ k, w = s.act + 60 * k) ∧ s.dist.k8At + 10 * 0x20000000 ≤ w * 0x20000000 ∧ s.secNow + 1 ≤ w

theorem nextWindow_isWindow (s : State) : s.isWindow s.nextWindow := by
  unfold State.isWindow State.nextWindow
  dsimp only
  split
  · exact ⟨⟨0, by omega⟩, by omega, by omega⟩
  · refine ⟨⟨(max ((s.dist.k8At + 536870911) / 536870912 + 10) (s.secNow + 1) - s.act + 59) / 60, by omega⟩, by omega, by omega⟩

theorem nextWindow_le {w : Nat} {s : State} (h : s.isWindow w) : s.nextWindow ≤ w := by
  obtain ⟨⟨k, hk⟩, hk8, hsec⟩ := h
  unfold State.nextWindow
  dsimp only
  split <;> omega

theorem eq_nextWindow {w : Nat} {s : State} (h : s.isWindow w) (hl : ∀ v, s.isWindow v → w ≤ v) : w = s.nextWindow :=
  Nat.le_antisymm (hl _ (nextWindow_isWindow s)) (nextWindow_le h)

/-- A preloaded copy waits for its window. -/
def State.mayDrain (s : State) : Prop := s.working = true ∧ s.distState = 4 ∧ s.dist.window = none

/-- A window lies within SWAPWAIT. -/
def State.windowNear (w : Nat) (s : State) : Prop :=
  w * 0x20000000 ≤ s.now.toNat + max 1 (s.get F.HRT_SWAP_SWAPWAIT) * 1024

theorem draining_completes {s : State} (h : s.mayDrain) (hn : s.windowNear s.nextWindow) :
    completes .draining s [.hrt, .dist] fun t => t.hrt = { s.hrt with draining := true } ∧
      t.dist = { s.dist with window := some s.nextWindow } := by
  obtain ⟨hs, hd, hw⟩ := h
  refine ⟨{ (s.modDist fun d => { d with window := some s.nextWindow }) with hrt := { s.hrt with draining := true } }, ?_,
    only_of_hide (Nat.and_self _) ((hide_hrt _ _ _ rfl).trans (State.modDist_hide _ _ _ rfl)), rfl, rfl⟩
  show execDraining s = _
  rw [State.windowNear] at hn
  rw [execDraining, actWhen_of_true]
  simp [hs, hd, hw, hn, dPRELOADED]

theorem draining_waits {s : State} (h : ¬ (s.mayDrain ∧ s.windowNear s.nextWindow)) : exec .draining s = .next s := by
  show execDraining s = _
  rw [execDraining]
  refine actWhen_of_false (Bool.eq_false_iff.mpr fun hb => h ?_)
  simpa [State.mayDrain, State.windowNear, dPRELOADED, and_assoc] using hb

end Sys2Proof.Machine
end

section
/-! O46: PAGE_SWAP (R171, R298), and the activation of an image as a whole. -/

namespace Sys2Proof.Machine
open Safety

/-! ## PAGE_SWAP (R171, R298) -/

/-- A drain is over without a swap. -/
def State.drained (s : State) : Prop := s.hrt.draining = false ∧ s.dist.window = none

theorem pageSwap_idle {s : State} (h : s.working = false ∨ s.hrt.draining = false ∨ s.preloaded = false ∨ s.dist.window = none) :
    exec .pageSwap s = .next s := by
  show execPageSwap s = _
  rw [execPageSwap]
  by_cases hw : s.dist.window = none
  · rw [actWhen, hw]
    split <;> rfl
  · refine actWhen_of_false ?_
    rcases h with h | h | h | h
    · rw [h, Bool.false_and, Bool.false_and]
    · rw [h, Bool.and_false, Bool.false_and]
    · rw [h, Bool.and_false]
    · exact absurd h hw

section
variable {w : Nat} {s : State} (hs : s.working = true) (hd : s.hrt.draining = true) (hp : s.preloaded = true)
  (hw : s.dist.window = some w)
include hs hd hp hw

theorem exec_pageSwap : exec .pageSwap s = .next
    (if s.nextFrame < 8000 * w then s else if 8000 * (w + 1) ≤ s.nextFrame then endDrain s
      else if s.quiescent then swapPages w s else abandonSwap s) := by
  show execPageSwap s = _
  rw [execPageSwap, actWhen_of_true (by rw [hs, hd, hp]; rfl), hw]

theorem pageSwap_early (h : s.nextFrame < 8000 * w) : exec .pageSwap s = .next s := by
  rw [exec_pageSwap hs hd hp hw, if_pos h]

theorem pageSwap_past (h : 8000 * (w + 1) ≤ s.nextFrame) : completes .pageSwap s [.hrt, .dist] State.drained := by
  refine ⟨endDrain s, ?_, only_of_hide (Nat.and_self _) (endDrain_hide _ _ rfl), rfl, rfl⟩
  rw [exec_pageSwap hs hd hp hw, if_neg (by omega), if_pos h]

theorem exec_pageSwap_due (hlo : 8000 * w ≤ s.nextFrame) (hhi : s.nextFrame < 8000 * (w + 1)) :
    exec .pageSwap s = .next (if s.quiescent then swapPages w s else abandonSwap s) := by
  rw [exec_pageSwap hs hd hp hw, if_neg (by omega), if_neg (by omega)]

end

/-- Where an Ember still runs neither page changes. -/
theorem abandonSwap_done (s : State) : (abandonSwap s).drained ∧
    (abandonSwap s).get F.HRT_SWAP_ACTIVE_PAGE = s.get F.HRT_SWAP_ACTIVE_PAGE ∧ (abandonSwap s).activePage = s.activePage ∧
    (abandonSwap s).distState = s.distState ∧ (abandonSwap s).get F.HRT_SWAP_LAST_ABANDONED = 1 := by
  have hget : ∀ {f : Field}, f.addr ≠ F.FLT_CNT_B_DROPPED.addr →
      (abandonSwap s).get f = (s.put F.HRT_SWAP_LAST_ABANDONED 1).get f := fun hf => by
    unfold abandonSwap
    rw [endDrain_get, State.get_raise_ne hf]
  have hdrained : (abandonSwap s).drained := by
    unfold abandonSwap
    exact ⟨rfl, rfl⟩
  refine ⟨hdrained, ?_, State.bit_of_get ?_, ?_, ?_⟩
  · rw [hget (by decide), State.get_put_ne (by decide) (by decide)]
  · rw [hget (by decide), State.get_put_ne (by decide) (by decide)]
  · rw [State.distState, hget (by decide), State.get_put_ne (by decide) (by decide), State.distState]
  · rw [hget (by decide), State.get_put_lt (by decide) (by decide)]

/-! ### Both pages change -/

/-- The control-store page is the other one, and the connection page is to change with the frames of second `w`. -/
def turnPage (w : Nat) (s : State) : State :=
  let s := ((s.put F.HRT_SWAP_ACTIVE_PAGE (1 - s.get F.HRT_SWAP_ACTIVE_PAGE)).put F.HRT_SWAP_PRELOADED 0).put F.HRT_SWAP_LAST_ABANDONED 0
  ({ s with hrt := { s.hrt with scrubAt := 0, scrubBad := [] } } : State).modTsi fun t =>
    { t with swap := some (8000 * w), swapImage := true }

/-- The activation is over: a window after the first one that was due is reported, and a warm restart follows. -/
def closeActivation (w : Nat) (s : State) : State :=
  (endServe (setDist dIDLE (setAct 0 (endDrain (if w = s.act then s else imgFault kTIMEOUT 0x24 ((w - s.act) / 60) s))))).modDist
    fun d => { d with warmDue := true }

theorem swapPages_eq (w : Nat) (s : State) : swapPages w s = closeActivation w
    (if (List.finRange 4).any (turnPage w s).transmitting then turnPage w s else swapDone (turnPage w s)) := rfl

theorem turnPage_get {f : Field} (h : f.addr ≠ F.HRT_SWAP_ACTIVE_PAGE.addr) (w : Nat) (s : State) : (turnPage w s).get f = s.get f := by
  refine (State.get_put_addr F.HRT_SWAP_LAST_ABANDONED f 0 _ h).trans ?_
  exact (State.get_put_addr F.HRT_SWAP_PRELOADED f 0 _ h).trans (State.get_put_addr F.HRT_SWAP_ACTIVE_PAGE f _ s h)

theorem turnPage_shown (w : Nat) (s : State) :
    (turnPage w s).get F.HRT_SWAP_ACTIVE_PAGE = 1 - s.get F.HRT_SWAP_ACTIVE_PAGE ∧ (turnPage w s).get F.HRT_SWAP_PRELOADED = 0 := by
  have hlt : s.get F.HRT_SWAP_ACTIVE_PAGE < 2 := State.get_lt F.HRT_SWAP_ACTIVE_PAGE s
  refine ⟨?_, ?_⟩
  · refine (State.get_put_ne (f := F.HRT_SWAP_LAST_ABANDONED) (by decide) (by decide) 0 _).trans ?_
    rw [State.get_put_ne (by decide) (by decide),
      State.get_put_lt (by decide) (show 1 - s.get F.HRT_SWAP_ACTIVE_PAGE < 2 ^ F.HRT_SWAP_ACTIVE_PAGE.width by
        show _ < 2
        omega)]
  · refine (State.get_put_ne (f := F.HRT_SWAP_LAST_ABANDONED) (by decide) (by decide) 0 _).trans ?_
    rw [State.get_put_lt (by decide) (by decide)]

theorem turnPage_transmitting (w : Nat) (s : State) : (turnPage w s).transmitting = s.transmitting := by
  funext p
  have h : (turnPage w s).lineState p = s.lineState p := turnPage_get (by
    have := p.isLt
    simp only [F.LINE_STATUS_STATE, F.HRT_SWAP_ACTIVE_PAGE]
    omega) w s
  rw [State.transmitting, State.transmitting, h]

theorem enableDrops_get {f : Field} (h2 : f.addr ≠ (F.LINE_CTL_EN 2).addr) (h3 : f.addr ≠ (F.LINE_CTL_EN 3).addr) (s : State) :
    (enableDrops s).get f = s.get f := by
  unfold enableDrops
  extract_lets used turn
  have hturn : ∀ (p : Fin 4) (s : State), f.addr ≠ (F.LINE_CTL_EN p).addr → (turn p s).get f = s.get f := fun p s hp => by
    show (if _ then _ else _ : State).get f = _
    split
    · exact State.get_put_addr _ _ _ _ hp
    · rfl
  rw [hturn 3 _ h3, hturn 2 _ h2]

/-- A preload in the page that becomes active stands by no longer. -/
def endPreload (s : State) : State := if s.tsi.swapImage then s.put F.TSI_STATUS_PRELOADED 0 else s

/-- ACTIVE_PAGE shows the other page, and no swap is pending. -/
def showOtherPage (s : State) : State := (s.put F.TSI_STATUS_ACTIVE_PAGE (!s.activePage).toNat).put F.TSI_STATUS_SWAP_PENDING 0

theorem swapDone_get_shown {f : Field} (hc : f.addr ≠ (cntField 84).addr) (h2 : f.addr ≠ (F.LINE_CTL_EN 2).addr)
    (h3 : f.addr ≠ (F.LINE_CTL_EN 3).addr) (s : State) : (swapDone s).get f = (showOtherPage (endPreload s)).get f := by
  show (enableDrops (((showOtherPage (endPreload s)).modTsi _).interrupt 84)).get f = _
  rw [enableDrops_get h2 h3, State.get_interrupt_ne hc, State.modTsi_get]

theorem endPreload_get {f : Field} (hf : f.Fits)
    (h : f.addr ≠ F.TSI_STATUS_PRELOADED.addr ∨ f.hi < F.TSI_STATUS_PRELOADED.lo ∨ F.TSI_STATUS_PRELOADED.hi < f.lo) (s : State) :
    (endPreload s).get f = s.get f := by
  unfold endPreload
  split
  · exact State.get_put_ne hf h 0 s
  · rfl

/-- The registers a change of the connection page does not write. -/
theorem swapDone_get {f : Field} (hf : f.Fits) (ht : f.addr ≠ F.TSI_STATUS_PRELOADED.addr) (hc : f.addr ≠ (cntField 84).addr)
    (h2 : f.addr ≠ (F.LINE_CTL_EN 2).addr) (h3 : f.addr ≠ (F.LINE_CTL_EN 3).addr) (s : State) : (swapDone s).get f = s.get f := by
  rw [swapDone_get_shown hc h2 h3, showOtherPage, State.get_put_addr _ _ _ _ (by exact ht), State.get_put_addr _ _ _ _ (by exact ht),
    endPreload_get hf (Or.inl ht)]

/-- A swap that an image asked for: the other page is active, and no preload is left. -/
theorem swapDone_shown {s : State} (h : s.tsi.swapImage = true) : (swapDone s).activePage = !s.activePage ∧
    (swapDone s).get F.TSI_STATUS_PRELOADED = 0 := by
  have hpage : (endPreload s).activePage = s.activePage := State.bit_of_get (endPreload_get (by decide) (by decide) s)
  have hbit : ∀ b : Bool, decide (b.toNat ≠ 0) = b := by decide
  refine ⟨?_, ?_⟩
  · rw [State.activePage, State.bit, swapDone_get_shown (by decide) (by decide) (by decide), showOtherPage,
      State.get_put_ne (by decide) (by decide), State.get_put_lt (by decide) (Bool.toNat_lt _), hpage, hbit]
  · rw [swapDone_get_shown (by decide) (by decide) (by decide), showOtherPage, State.get_put_ne (by decide) (by decide),
      State.get_put_ne (by decide) (by decide), endPreload, if_pos h, State.get_put_same _ _ _ (by decide), Nat.zero_mod]

theorem endServe_get (s : State) (f : Field) : (endServe s).get f = (s.put F.PLG_DIST_STATE_ROLE 0).get f := rfl

theorem closeActivation_rest (w : Nat) (s : State) : (closeActivation w s).tsi = s.tsi ∧
    (closeActivation w s).hrt = { s.hrt with draining := false } ∧ (closeActivation w s).dist.window = none ∧
    (closeActivation w s).dist.warmDue = true := by
  have h : ∀ u : State, u = (if w = s.act then s else imgFault kTIMEOUT 0x24 ((w - s.act) / 60) s) → u.tsi = s.tsi ∧ u.hrt = s.hrt :=
    fun u hu => by
      subst hu
      split <;> simp
  obtain ⟨htsi, hhrt⟩ := h _ rfl
  simp only [closeActivation, endServe, State.modDist, State.put_rest, setDist_rest, setAct_rest, endDrain_rest, htsi, hhrt]
  simp

theorem closeActivation_get {f : Field} (hs : f.addr ≠ F.PLG_DIST_STATE_STATE.addr) (hlo : f.addr ≠ F.PLG_DIST_ACT_LO_ACT.addr)
    (hhi : f.addr ≠ F.PLG_DIST_ACT_HI_ACT.addr) (hc : f.addr ≠ (cntField 91).addr) (hb : f.addr ≠ F.FLT_CNT_B_DROPPED.addr)
    (hf : f.Fits) (w : Nat) (s : State) : (closeActivation w s).get f = s.get f := by
  rw [closeActivation, State.modDist_get, endServe_get, State.get_put_addr _ _ _ _ (by exact hs), setDist_get hf (Or.inl hs) hc, setAct_get hhi hlo, endDrain_get]
  split
  · rfl
  · exact imgFault_get hb _ _ _ _

theorem closeActivation_shown (w : Nat) (s : State) : (closeActivation w s).distState = 0 ∧ (closeActivation w s).act = 0 ∧
    (closeActivation w s).get F.PLG_DIST_STATE_ROLE = 0 := by
  have hget : ∀ f : Field, (closeActivation w s).get f = ((setDist dIDLE (setAct 0 (endDrain (if w = s.act then s
      else imgFault kTIMEOUT 0x24 ((w - s.act) / 60) s)))).put F.PLG_DIST_STATE_ROLE 0).get f := fun f => by
    rw [closeActivation, State.modDist_get, endServe_get]
  refine ⟨?_, ?_, ?_⟩
  · rw [State.distState, hget, State.get_put_ne (by decide) (by decide)]
    exact distState_setDist (by decide) _
  · rw [State.act, hget, hget, State.get_put_addr _ _ _ _ (by decide), State.get_put_addr _ _ _ _ (by decide)]
    exact (setDist_act _ _).trans (act_setAct (by decide) _)
  · rw [hget, State.get_put_same _ _ _ (by decide), Nat.zero_mod]

/-- What a swap of both pages leaves and shows. -/
theorem swapPages_done (w : Nat) {s t : State} (ht : t = swapPages w s) : t.drained ∧
    t.get F.HRT_SWAP_ACTIVE_PAGE = 1 - s.get F.HRT_SWAP_ACTIVE_PAGE ∧ t.get F.HRT_SWAP_PRELOADED = 0 ∧
    t.distState = 0 ∧ t.act = 0 ∧ t.get F.PLG_DIST_STATE_ROLE = 0 ∧ t.hrt.cs = s.hrt.cs ∧ t.dist.warmDue = true ∧
    ((∃ p, s.transmitting p = true) → t.tsi.swap = some (8000 * w) ∧ t.tsi.swapImage = true ∧ t.activePage = s.activePage) ∧
    ((∀ p, s.transmitting p = false) → t.activePage = !s.activePage ∧ t.get F.TSI_STATUS_PRELOADED = 0) := by
  rw [swapPages_eq] at ht
  generalize hu : (if (List.finRange 4).any (turnPage w s).transmitting then turnPage w s else swapDone (turnPage w s)) = u at ht
  rw [turnPage_transmitting] at hu
  have huhrt : u.hrt = (turnPage w s).hrt := by
    rw [← hu]
    split
    · rfl
    · exact hrt_same_of_hide (m := 5243009) rfl (swapDone_hide _ _ rfl)
  have huget : ∀ {f : Field}, f.Fits → f.addr = F.HRT_SWAP_ACTIVE_PAGE.addr → u.get f = (turnPage w s).get f := fun hfit hf => by
    rw [← hu]
    split
    · rfl
    · exact swapDone_get hfit (by rw [hf]; decide) (by rw [hf]; decide) (by rw [hf]; decide) (by rw [hf]; decide) _
  obtain ⟨hap, hpre⟩ := turnPage_shown w s
  obtain ⟨ctsi, chrt, cwin, cwarm⟩ := closeActivation_rest w u
  obtain ⟨cstate, cact, crole⟩ := closeActivation_shown w u
  subst ht
  refine ⟨⟨by rw [chrt], cwin⟩, ?_, ?_, cstate, cact, crole, ?_, cwarm, fun ⟨p, hp⟩ => ?_, fun hno => ?_⟩
  · rw [closeActivation_get (by decide) (by decide) (by decide) (by decide) (by decide) (by decide), huget (f := F.HRT_SWAP_ACTIVE_PAGE) (by decide) rfl, hap]
  · rw [closeActivation_get (by decide) (by decide) (by decide) (by decide) (by decide) (by decide), huget (f := F.HRT_SWAP_PRELOADED) (by decide) rfl, hpre]
  · rw [chrt, huhrt]
    rfl
  · have hu' : u = turnPage w s := by
      rw [← hu, if_pos (List.any_eq_true.mpr ⟨p, List.mem_finRange p, hp⟩)]
    rw [ctsi, hu']
    refine ⟨rfl, rfl, State.bit_of_get ?_⟩
    rw [closeActivation_get (by decide) (by decide) (by decide) (by decide) (by decide) (by decide), turnPage_get (by decide)]
  · have hu' : u = swapDone (turnPage w s) := by
      rw [← hu, if_neg (by simp [hno])]
    obtain ⟨dpage, dpre⟩ := swapDone_shown (s := turnPage w s) rfl
    have hpage : (turnPage w s).activePage = s.activePage := State.bit_of_get (turnPage_get (by decide) w s)
    refine ⟨?_, ?_⟩
    · rw [← hpage, ← dpage, ← hu']
      exact State.bit_of_get (closeActivation_get (by decide) (by decide) (by decide) (by decide) (by decide) (by decide) w u)
    · rw [closeActivation_get (by decide) (by decide) (by decide) (by decide) (by decide) (by decide), hu', dpre]

section
variable {w : Nat} {s : State} (hs : s.working = true) (hd : s.hrt.draining = true) (hp : s.preloaded = true)
  (hw : s.dist.window = some w) (hlo : 8000 * w ≤ s.nextFrame) (hhi : s.nextFrame < 8000 * (w + 1))
include hs hd hp hw hlo hhi

theorem pageSwap_swaps (hq : s.quiescent = true) :
    completes .pageSwap s [.regs, .col, .ic, .hrt, .tsi, .ring, .dist] fun t => t = swapPages w s := by
  have hexec := exec_pageSwap_due hs hd hp hw hlo hhi
  rw [if_pos hq] at hexec
  exact ⟨_, hexec, only_of_hide (Nat.and_self _) (swapPages_hide _ _ _ rfl), rfl⟩

theorem pageSwap_abandons (hq : s.quiescent = false) :
    completes .pageSwap s [.regs, .col, .hrt, .dist] fun t => t = abandonSwap s := by
  have hexec := exec_pageSwap_due hs hd hp hw hlo hhi
  rw [if_neg (by rw [hq]; decide)] at hexec
  exact ⟨_, hexec, only_of_hide (Nat.and_self _) (abandonSwap_hide _ _ rfl), rfl⟩

end

end Sys2Proof.Machine

namespace Sys2Proof.Safety
open Sys2Proof.Machine

/-- Settles O46: an ACTIVATE_IMAGE by the copy it arms or disarms (`armCopy`, `disarmCopy`), a PRELOAD by the section it loads
(`preload_of_sound`), a DRAINING by the window it takes (`eq_nextWindow`), a PAGE_SWAP by `swapPages_done`. -/
theorem imageActivation : Obligations.ImageActivation := by
  unfold Obligations.ImageActivation
  refine ⟨fun s hs => ?_, fun s => ?_, fun s => ?_, fun s => pageSwap_idle, fun w s hs hd hp hw => ?_⟩
  · exact ⟨activateImage_none hs, fun r h => ⟨activateImage_armed hs h, activateImage_disarmed hs h, activateImage_not_held hs h⟩⟩
  · exact ⟨preload_not_due, preload_completes, preload_unsound, preload_missing⟩
  · refine ⟨fun w hmay hwin hleast => ?_, fun hmay => draining_waits fun h => hmay h.1⟩
    obtain rfl := eq_nextWindow (w := w) hwin hleast
    exact ⟨draining_completes hmay, fun hn => draining_waits fun h => hn h.2⟩
  · exact ⟨pageSwap_early hs hd hp hw, pageSwap_past hs hd hp hw, fun hlo hhi hq =>
      completes_mono (pageSwap_swaps hs hd hp hw hlo hhi hq) fun t ht => swapPages_done w ht, fun hlo hhi hq =>
      completes_mono (pageSwap_abandons hs hd hp hw hlo hhi hq) fun t ht => ht ▸ abandonSwap_done s⟩

end Sys2Proof.Safety
end

section
/-! The registers of the time unit (Table 05-9): which of their fields an operation of the time unit leaves as they stand. -/

namespace Sys2Proof.Machine

/-- Field `g` stands in the time unit's window and shares no bit with a field of `l`. -/
abbrev Field.timeApart (g : Field) (l : List Field) : Prop :=
  g.Fits ∧ 0x400B0000 ≤ g.addr ∧ g.addr < 0x400C0000 ∧ ∀ f ∈ l, g.addr ≠ f.addr ∨ g.hi < f.lo ∨ f.hi < g.lo

theorem Field.timeApart_mono {g : Field} {l k : List Field} (h : g.timeApart l) (hk : ∀ f ∈ k, f ∈ l) : g.timeApart k := by
  obtain ⟨hfit, hlo, hhi, hne⟩ := h
  exact ⟨hfit, hlo, hhi, fun f hf => hne f (hk f hf)⟩

theorem State.get_ite {c : Prop} [Decidable c] (a b : State) (g : Field) :
    (if c then a else b).get g = if c then a.get g else b.get g := apply_ite (State.get · g) c a b

section
variable {g : Field} {l : List Field} (h : g.timeApart l)
include h

theorem State.get_put_of_timeApart {f : Field} (hf : f ∈ l) (v : Nat) (s : State) : (s.put f v).get g = s.get g := by
  obtain ⟨hfit, -, -, hne⟩ := h
  exact State.get_put_ne hfit (hne f hf) v s

/-- The arrival counters end before the time unit's window. -/
theorem get_strobe_of_timeApart {src : Nat} (hsrc : src < 128) (s : State) : (s.strobe src).get g = s.get g := by
  obtain ⟨-, hlo, -, -⟩ := h
  exact State.get_of_reg (State.reg_strobe_ne src s (by simp only [cntField]; omega))

theorem get_timeEvent_of_timeApart {f : Field} (hf : f ∈ l) {src : Nat} (hsrc : src < 128) (s : State) :
    (s.timeEvent f src).get g = s.get g :=
  (get_strobe_of_timeApart h hsrc _).trans (State.get_put_of_timeApart h hf 1 s)

theorem get_raise_of_timeApart (x : FaultSpec) (s : State) : (s.raise x).get g = s.get g := by
  obtain ⟨-, -, hhi, -⟩ := h
  exact State.get_raise_ne (Nat.ne_of_lt (hhi.trans (by decide))) x s

theorem get_timeFault_of_timeApart (kind : BitVec 5) (reason : BitVec 8) (detail : BitVec 24) (s : State) :
    (timeFault kind reason detail s).get g = s.get g := get_raise_of_timeApart h _ s

end

/-- An event bit of the time unit, once set, reads 1. -/
theorem get_timeEvent_same {f : Field} (h : f.timeApart []) (hw : f.width = 1) {src : Nat} (hsrc : src < 128) (s : State) :
    (s.timeEvent f src).get f = 1 := by
  rw [State.timeEvent, get_strobe_of_timeApart h hsrc, State.get_put_same f 1 s h.1, hw]
  rfl

theorem noteValid_get (s : State) (g : Field) : (noteValid s).get g = s.get g := by
  unfold noteValid
  split
  · rfl
  · exact State.modRing_get ..

theorem noteValid_tim (s : State) : (noteValid s).tim = s.tim := by
  unfold noteValid
  split <;> rfl

/-! ## Time states (Table 05-3) -/

/-- The node in time state `n`, before what that state itself brings. -/
def stateEntered (n : Nat) (s : State) : State :=
  noteValid (((s.put F.TIME_STATUS_STATE n).timeEvent F.TIME_EVENT_STATE_CHANGED 95).modT fun t =>
    { t with inSince := none, outSince := none })

/-- The fields that a change of the time state writes. -/
abbrev stateFields : List Field := [F.TIME_STATUS_STATE, F.TIME_EVENT_STATE_CHANGED]

theorem stateEntered_get {g : Field} (h : g.timeApart stateFields) (n : Nat) (s : State) : (stateEntered n s).get g = s.get g := by
  rw [stateEntered, noteValid_get, State.modT_get, get_timeEvent_of_timeApart h (by simp) (by decide),
    State.get_put_of_timeApart h (by simp)]

theorem stateEntered_shown (n : Nat) (s : State) : (stateEntered n s).timeState = n % 8 ∧
    (stateEntered n s).get F.TIME_EVENT_STATE_CHANGED = 1 := by
  refine ⟨?_, ?_⟩
  · rw [State.timeState, stateEntered, noteValid_get, State.modT_get,
      get_timeEvent_of_timeApart (l := [F.TIME_EVENT_STATE_CHANGED]) (by decide) (by simp) (by decide),
      State.get_put_same _ _ _ (by decide)]
    rfl
  · rw [stateEntered, noteValid_get, State.modT_get, get_timeEvent_same (by decide) rfl (by decide)]

theorem stateEntered_tim (n : Nat) (s : State) : (stateEntered n s).tim = { s.tim with inSince := none, outSince := none } := by
  rw [stateEntered, noteValid_tim]
  simp [State.modT, State.timeEvent]

theorem setTimeState_of_ne {n : Nat} {s : State} (h : s.timeState ≠ n) : setTimeState n s =
    if n = tLOCKED then (stateEntered n s).modT fun t => { t with lockedSeen := true }
    else if n = tHOLDOVER then
      timeFault kLOSS_OF_SYNC 0x02 0 ((stateEntered n s).modT fun t =>
        { t with holdAt := (stateEntered n s).cycles, agree := 0, stepDue := none })
    else if n = tFREE then timeFault kTIMEOUT 0x03 0 (stateEntered n s)
    else stateEntered n s := if_neg h

theorem setTimeState_get {g : Field} (h : g.timeApart stateFields) (n : Nat) (s : State) : (setTimeState n s).get g = s.get g := by
  by_cases hn : s.timeState = n
  · rw [setTimeState, if_pos hn]
  · simp only [setTimeState_of_ne hn, State.get_ite, State.modT_get, get_timeFault_of_timeApart h, stateEntered_get h, ite_self]

theorem referenceChanged_get {g : Field} (h : g.timeApart stateFields) (s : State) : (referenceChanged s).get g = s.get g := by
  simp only [referenceChanged, State.get_ite, setTimeState_get h, State.modT_get, ite_self]

end Sys2Proof.Machine
end

section
/-! The own source (R182a, R186 to R188): what the node holds of it through each operation of the time unit, and when it is valid. -/

namespace Sys2Proof.Machine

/-- What the time unit holds of the samples of its own source. -/
structure OwnSource where
  stamp : Option SysTime
  label : Option Word
  good : Nat
  path : Bool
  acc : Nat
  soft : Option (Int × Nat)
  badSoft : Nat

def TimeUnit.source (t : TimeUnit) : OwnSource := ⟨t.stamp, t.label, t.good, t.path, t.acc, t.soft, t.badSoft⟩

theorem source_ite {c : Prop} [Decidable c] (a b : State) :
    (if c then a else b).tim.source = if c then a.tim.source else b.tim.source := apply_ite (fun s : State => s.tim.source) c a b

/-! ## What leaves the source as it is -/

theorem timeFault_tim (kind : BitVec 5) (reason : BitVec 8) (detail : BitVec 24) (s : State) :
    (timeFault kind reason detail s).tim = s.tim := by simp [timeFault]

theorem stateEntered_source (n : Nat) (s : State) : (stateEntered n s).tim.source = s.tim.source := by
  rw [stateEntered_tim]
  rfl

theorem setTimeState_source (n : Nat) (s : State) : (setTimeState n s).tim.source = s.tim.source := by
  by_cases hn : s.timeState = n
  · rw [setTimeState, if_pos hn]
  · have hs := stateEntered_source n s
    rw [setTimeState_of_ne hn]
    split
    · exact hs
    split
    · rw [timeFault_tim]
      exact hs
    · rw [source_ite, timeFault_tim, ite_self, hs]

theorem referenceChanged_source (s : State) : (referenceChanged s).tim.source = s.tim.source := by
  unfold referenceChanged
  extract_lets has s₁
  have hs : s₁.tim.source = s.tim.source := rfl
  simp only [source_ite, setTimeState_source, hs, ite_self]

theorem nearest_tim (n : Int) (d : Nat) (s : State) : (nearest n d s).2.tim = s.tim := by
  unfold nearest
  split <;> rfl

theorem nearest_get (n : Int) (d : Nat) (s : State) (g : Field) : (nearest n d s).2.get g = s.get g := by
  unfold nearest
  split <;> rfl

/-- A filtered offset as TIME.OFFSET shows it. -/
def offsetShown (x : Int) (s : State) : State :=
  (nearest x offScale.toNat s).2.put F.TIME_OFFSET_OFFSET (satInt 32 (nearest x offScale.toNat s).1)

/-- What a filtered offset calls for: steering, or a step. -/
def offsetAnswered (x : Int) (source : Bool) (s : State) : State :=
  if offWithin x 1000 then steer x (s.modT fun t => { t with agree := 0, stepDue := none })
  else s.modT fun t => { t with agree := t.agree + 1, stepDue := if source = false ∨ 3 ≤ t.agree + 1 then some x else none }

/-- Since when the offset has been within ±1 µs, and beyond ±10 µs. -/
def offsetTimed (x : Int) (s : State) : State :=
  let since (b : Bool) (o : Option Nat) : Option Nat := if b then some (o.getD s.cycles) else none
  s.modT fun t =>
    { t with inSince := since (offWithin x 1000000) t.inSince, outSince := since (!offWithin x 100000) t.outSince }

/-- After a filtered offset the node may go back to LOCKING. -/
theorem offsetSample_eq (x : Int) (source : Bool) (s : State) : let t := offsetTimed x (offsetAnswered x source (offsetShown x s))
    offsetSample x source s = t ∨ offsetSample x source s = setTimeState tLOCKING t := by
  intro t
  have heq : offsetSample x source s = match t.tim.outSince with
    | some c => if t.timeState = tLOCKED ∧ c + second ≤ t.cycles then setTimeState tLOCKING t else t
    | none => t := rfl
  rw [heq]
  split
  · split
    · exact .inr rfl
    · exact .inl rfl
  · exact .inl rfl

theorem offsetAnswered_source (x : Int) (source : Bool) (s : State) : (offsetAnswered x source s).tim.source = s.tim.source := by
  unfold offsetAnswered
  split <;> rfl

/-- The fields that a filtered offset writes. -/
abbrev offsetFields : List Field := [F.TIME_OFFSET_OFFSET, F.TIME_FREQ_FREQ, F.TIME_STATUS_STATE, F.TIME_EVENT_STATE_CHANGED]

theorem offsetAnswered_get {g : Field} (h : g.timeApart offsetFields) (x : Int) (source : Bool) (s : State) :
    (offsetAnswered x source s).get g = s.get g := by
  unfold offsetAnswered
  split
  · exact State.get_put_of_timeApart h (by simp) _ _
  · rfl

theorem offsetTimed_get (x : Int) (s : State) (g : Field) : (offsetTimed x s).get g = s.get g := State.modT_get ..

theorem offsetTimed_source (x : Int) (s : State) : (offsetTimed x s).tim.source = s.tim.source :=
  have hsince : ∀ (i o : Option Nat) (t : TimeUnit), ({ t with inSince := i, outSince := o } : TimeUnit).source = t.source :=
    fun _ _ _ => rfl
  hsince _ _ s.tim

theorem offsetShown_source (x : Int) (s : State) : (offsetShown x s).tim.source = s.tim.source := by
  have hput : ∀ (v : Nat) (t : State), (t.put F.TIME_OFFSET_OFFSET v).tim = t.tim := fun _ _ => rfl
  rw [offsetShown, hput, nearest_tim]

theorem offsetShown_get {g : Field} (h : g.timeApart offsetFields) (x : Int) (s : State) : (offsetShown x s).get g = s.get g := by
  rw [offsetShown, State.get_put_of_timeApart h (by simp), nearest_get]

/-- A filtered offset leaves the own source as it is. -/
theorem offsetSample_source (x : Int) (source : Bool) (s : State) : (offsetSample x source s).tim.source = s.tim.source := by
  rcases offsetSample_eq x source s with heq | heq
  · rw [heq, offsetTimed_source, offsetAnswered_source, offsetShown_source]
  · rw [heq, setTimeState_source, offsetTimed_source, offsetAnswered_source, offsetShown_source]

theorem offsetSample_get {g : Field} (h : g.timeApart offsetFields) (x : Int) (source : Bool) (s : State) :
    (offsetSample x source s).get g = s.get g := by
  rcases offsetSample_eq x source s with heq | heq
  · rw [heq, offsetTimed_get, offsetAnswered_get h, offsetShown_get h]
  · rw [heq, setTimeState_get (Field.timeApart_mono h (by simp)), offsetTimed_get, offsetAnswered_get h, offsetShown_get h]

/-! ## Samples -/

theorem sourceSample_source (x : Int) (s : State) : (sourceSample x s).tim.source = s.tim.source := by
  unfold sourceSample
  extract_lets s₁
  split
  · exact offsetSample_source _ true s₁
  · rfl

theorem sourceSample_get {g : Field} (h : g.timeApart offsetFields) (x : Int) (s : State) : (sourceSample x s).get g = s.get g := by
  unfold sourceSample
  extract_lets s₁
  split
  · exact offsetSample_get h _ true s₁
  · exact State.get_put_of_timeApart h (by simp) _ s₁

theorem satInt_lt (w : Nat) (v : Int) : satInt w v < 2 ^ w := BitVec.isLt _

/-- On a node that is not the master a sample of the own source is only shown (R188). -/
theorem sourceSample_offset {s : State} (h : s.isMaster = false) (x : Int) :
    (sourceSample x s).get F.TIME_OFFSET_OFFSET = satInt 32 x := by
  unfold sourceSample
  extract_lets s₁
  have hm : s₁.isMaster = false := h
  rw [if_neg (by simp [hm]), State.get_put_same _ _ _ (by decide)]
  exact Nat.mod_eq_of_lt (satInt_lt 32 x)

/-! ## Valid and invalid -/

/-- The fields that a change of SRC_OK writes. -/
abbrev sourceFields : List Field :=
  [F.TIME_STATUS_SRC_OK, F.TIME_EVENT_SRC_CHANGED, F.TIME_STATUS_STATE, F.TIME_EVENT_STATE_CHANGED]

/-- SRC_OK becomes `n`. -/
def sourceTurned (n : Nat) (s : State) : State :=
  referenceChanged ((s.put F.TIME_STATUS_SRC_OK n).timeEvent F.TIME_EVENT_SRC_CHANGED 95)

theorem sourceTurned_get {g : Field} (h : g.timeApart sourceFields) (n : Nat) (s : State) : (sourceTurned n s).get g = s.get g := by
  rw [sourceTurned, referenceChanged_get (Field.timeApart_mono h (by simp)),
    get_timeEvent_of_timeApart h (by simp) (by decide), State.get_put_of_timeApart h (by simp)]

theorem sourceTurned_ok (n : Nat) (s : State) : (sourceTurned n s).get F.TIME_STATUS_SRC_OK = n % 2 := by
  rw [sourceTurned, referenceChanged_get (by decide),
    get_timeEvent_of_timeApart (l := [F.TIME_EVENT_SRC_CHANGED]) (by decide) (by simp) (by decide),
    State.get_put_same _ _ _ (by decide)]
  rfl

theorem sourceTurned_source (n : Nat) (s : State) : (sourceTurned n s).tim.source = s.tim.source := by
  rw [sourceTurned, referenceChanged_source]
  simp [State.timeEvent]

theorem srcOk_of_bit {s : State} (b : Bool) (h : s.bit F.TIME_STATUS_SRC_OK = b) : s.get F.TIME_STATUS_SRC_OK = b.toNat := by
  have hlt : s.get F.TIME_STATUS_SRC_OK < 2 := State.get_lt F.TIME_STATUS_SRC_OK s
  cases b <;> simp [State.bit] at h ⊢ <;> omega

theorem sourceGood_source (need : Nat) (s : State) : (sourceGood need s).tim.source = s.tim.source := by
  rw [sourceGood, source_ite]
  exact ite_eq_right_iff.2 fun _ => sourceTurned_source 1 s

theorem sourceGood_get {g : Field} (h : g.timeApart sourceFields) (need : Nat) (s : State) : (sourceGood need s).get g = s.get g := by
  rw [sourceGood, State.get_ite]
  exact ite_eq_right_iff.2 fun _ => sourceTurned_get h 1 s

/-- Enough samples make the source valid. -/
theorem sourceGood_ok (need : Nat) (s : State) : (sourceGood need s).get F.TIME_STATUS_SRC_OK =
    if need ≤ s.tim.good then 1 else s.get F.TIME_STATUS_SRC_OK := by
  unfold sourceGood
  by_cases hn : need ≤ s.tim.good
  · rw [if_pos hn]
    cases hb : s.bit F.TIME_STATUS_SRC_OK with
    | true => simpa using srcOk_of_bit true hb
    | false =>
      rw [if_pos ⟨hn, rfl⟩]
      exact sourceTurned_ok 1 s
  · rw [if_neg hn, if_neg fun h => hn h.1]

/-- The source without a sample. -/
def OwnSource.cleared (o : OwnSource) : OwnSource :=
  { o with stamp := none, label := none, good := 0, soft := none, badSoft := 0 }

theorem sourceInvalid_source (s : State) : (sourceInvalid s).tim.source = s.tim.source.cleared := by
  unfold sourceInvalid
  extract_lets s₁
  split
  · exact sourceTurned_source 0 s₁
  · rfl

theorem sourceInvalid_get {g : Field} (h : g.timeApart sourceFields) (s : State) : (sourceInvalid s).get g = s.get g := by
  unfold sourceInvalid
  extract_lets s₁
  split
  · exact sourceTurned_get h 0 s₁
  · rfl

theorem sourceInvalid_ok (s : State) : (sourceInvalid s).get F.TIME_STATUS_SRC_OK = 0 := by
  unfold sourceInvalid
  extract_lets s₁
  split
  case isTrue => exact sourceTurned_ok 0 s₁
  case isFalse hb => exact srcOk_of_bit false (by simpa using hb)

/-! ## A rejection (R182a, R186, R187) -/

theorem sourceReject_tim (path : Nat) (s : State) : (sourceReject path s).tim = s.tim := timeFault_tim ..

theorem sourceReject_get {g : Field} (h : g.timeApart [F.TIME_CNT_SRC_REJECTS]) (path : Nat) (s : State) :
    (sourceReject path s).get g = s.get g :=
  (get_timeFault_of_timeApart h _ _ _ _).trans (State.get_put_of_timeApart h (by simp) _ s)

theorem sourceReject_counted (path : Nat) (s : State) : (sourceReject path s).get F.TIME_CNT_SRC_REJECTS =
    min (s.get F.TIME_CNT_SRC_REJECTS + 1) (2 ^ F.TIME_CNT_SRC_REJECTS.width - 1) :=
  (get_timeFault_of_timeApart (l := []) (by decide) _ _ _ _).trans (State.get_count_same _ 1 s (by decide))

end Sys2Proof.Machine
end

section
/-! O48: edges on PPS_IN (R186), case by case. -/

namespace Sys2Proof.Machine
open Safety

/-- An edge in this cycle follows the last accepted one by 2^29 cycles ± 250 ppm (log entry 107). -/
abbrev State.edgeOnTime (s : State) : Prop :=
  ∀ c, s.tim.edgeAt = some c → (((s.cycles - c : Nat) : Int) - 0x20000000).natAbs * 1000000 ≤ 250 * 0x20000000

/-- The stamp of an edge at `x`, less what TIME.PPS_COMP holds. -/
abbrev State.edgeStamp (x : SysTime) (s : State) : SysTime := x - (BitVec.ofNat 32 (s.get F.TIME_PPS_COMP_COMP)).signExtend 64

/-- An edge has been seen in this cycle. -/
def edgeSeen (s : State) : State := s.modT fun t => { t with edgeSeen := s.cycles }

/-- An edge accepted with stamp `st` is shown in TIME.PPS_IN and waits for its label. -/
def edgeAccepted (st : SysTime) (s : State) : State :=
  ((s.put F.TIME_PPS_IN_LO_EDGE st.toNat).put F.TIME_PPS_IN_HI_EDGE (st.toNat / 2 ^ 32)).modT fun t =>
    { t with edgeAt := some s.cycles, stamp := some st, rejects := 0 }

/-- An edge is rejected, and the run of good ones ends. -/
def edgeRejected (s : State) : State := (sourceReject 0 s).modT fun t => { t with rejects := t.rejects + 1, good := 0 }

theorem ppsEdge_of_onTime {s : State} (hok : s.edgeOnTime) (hst : s.tim.stamp = none) (x : SysTime) :
    ppsEdge x s = edgeAccepted (s.edgeStamp x) (edgeSeen s) := by
  unfold ppsEdge
  extract_lets s₁ ok late s₂ st s₃ s₄
  have hlate : late = false := by simp [late, s₁, State.modT, hst]
  have hs₂ : s₂ = s₁ := by
    simp only [s₂, hlate]
    rfl
  have htrue : ok = true := by
    simp only [ok]
    split
    · rfl
    next c hc => exact decide_eq_true (hok c hc)
  rw [if_pos htrue]
  simp only [s₃, st, hs₂]
  rfl

theorem ppsEdge_of_not_onTime {s : State} (hok : ¬ s.edgeOnTime) (x : SysTime) :
    ppsEdge x s = if 2 ≤ s.tim.rejects + 1 then sourceInvalid (edgeRejected (edgeSeen s)) else edgeRejected (edgeSeen s) := by
  unfold ppsEdge
  extract_lets s₁ ok late s₂ st s₃ s₄
  have hfalse : ¬ ok = true := fun h => hok fun c hc => by
    have hc₁ : s₁.tim.edgeAt = some c := hc
    simp only [ok, hc₁] at h
    exact of_decide_eq_true h
  rw [if_neg hfalse]
  have hrej : s₄.tim.rejects = s.tim.rejects + 1 := by
    simp only [s₄, State.modT, sourceReject_tim, s₁]
  rw [hrej]
  rfl

theorem exec_ppsInEdge {s : State} (hs : s.live = true) (h1 : s.srcEn = 1) (x : SysTime) :
    exec (.ppsInEdge x) s = .next (ppsEdge x s) := by
  show execPpsInEdge x s = _
  exact actWhen_of_true (by simp [hs, h1])

theorem ppsInEdge_idle {s : State} (h : s.live = false ∨ s.srcEn ≠ 1) (x : SysTime) : exec (.ppsInEdge x) s = .next s := by
  show execPpsInEdge x s = _
  exact actWhen_of_false (by rcases h with h | h <;> simp [h])

/-- What TIME.PPS_IN shows of an accepted edge. -/
theorem edgeAccepted_shown (st : SysTime) (s : State) :
    (edgeAccepted st s).get F.TIME_PPS_IN_LO_EDGE + 2 ^ 32 * (edgeAccepted st s).get F.TIME_PPS_IN_HI_EDGE = st.toNat := by
  have hlo : (edgeAccepted st s).get F.TIME_PPS_IN_LO_EDGE = st.toNat % 2 ^ 32 := by
    rw [edgeAccepted, State.modT_get, State.get_put_ne (by decide) (by decide), State.get_put_same _ _ _ (by decide)]
    rfl
  have hhi : (edgeAccepted st s).get F.TIME_PPS_IN_HI_EDGE = st.toNat / 2 ^ 32 % 2 ^ 32 := by
    rw [edgeAccepted, State.modT_get, State.get_put_same _ _ _ (by decide)]
    rfl
  have hlt := st.isLt
  omega

theorem edgeRejected_get {g : Field} (h : g.timeApart [F.TIME_CNT_SRC_REJECTS]) (s : State) : (edgeRejected s).get g = s.get g :=
  (State.modT_get ..).trans (sourceReject_get h 0 s)

theorem edgeRejected_counted (s : State) : (edgeRejected s).get F.TIME_CNT_SRC_REJECTS =
    min (s.get F.TIME_CNT_SRC_REJECTS + 1) (2 ^ F.TIME_CNT_SRC_REJECTS.width - 1) :=
  (State.modT_get ..).trans (sourceReject_counted 0 s)

theorem edgeRejected_tim (s : State) : (edgeRejected s).tim = { s.tim with rejects := s.tim.rejects + 1, good := 0 } := by
  simp only [edgeRejected, State.modT, sourceReject_tim]

theorem ppsInEdge_accepted {s : State} (hs : s.live = true) (h1 : s.srcEn = 1) (hok : s.edgeOnTime) (hst : s.tim.stamp = none)
    (x : SysTime) : completes (.ppsInEdge x) s [.regs, .tim] fun t =>
      t.tim = { s.tim with edgeSeen := s.cycles, edgeAt := some s.cycles, stamp := some (s.edgeStamp x), rejects := 0 } ∧
      t.get F.TIME_PPS_IN_LO_EDGE + 2 ^ 32 * t.get F.TIME_PPS_IN_HI_EDGE = (s.edgeStamp x).toNat := by
  refine ⟨_, (exec_ppsInEdge hs h1 x).trans (congrArg _ (ppsEdge_of_onTime hok hst x)), only_of_hide (k := 524289) (by decide) ?_,
    rfl, edgeAccepted_shown _ _⟩
  simp [edgeAccepted, edgeSeen]

section
variable {s : State} (hs : s.live = true) (h1 : s.srcEn = 1) (hok : ¬ s.edgeOnTime)
include hs h1 hok

theorem ppsInEdge_rejected_first (hr : s.tim.rejects = 0) (x : SysTime) : completes (.ppsInEdge x) s [.regs, .col, .tim] fun t =>
    t.tim = { s.tim with edgeSeen := s.cycles, rejects := 1, good := 0 } ∧ t.get F.TIME_CNT_SRC_REJECTS =
      min (s.get F.TIME_CNT_SRC_REJECTS + 1) (2 ^ F.TIME_CNT_SRC_REJECTS.width - 1) ∧
    t.get F.TIME_STATUS_SRC_OK = s.get F.TIME_STATUS_SRC_OK := by
  have hstep : ppsEdge x s = edgeRejected (edgeSeen s) := by
    rw [ppsEdge_of_not_onTime hok, if_neg (by omega)]
  refine ⟨_, (exec_ppsInEdge hs h1 x).trans (congrArg _ hstep), only_of_hide (k := 524353) (by decide) ?_, ?_,
    edgeRejected_counted _, edgeRejected_get (by decide) _⟩
  · simp [edgeRejected, edgeSeen]
  · rw [edgeRejected_tim, edgeSeen, State.modT, hr]

theorem ppsInEdge_rejected_again (hr : 1 ≤ s.tim.rejects) (x : SysTime) :
    completes (.ppsInEdge x) s [.regs, .col, .ic, .tim, .ring] fun t => t.get F.TIME_STATUS_SRC_OK = 0 ∧ t.tim.good = 0 ∧
      t.get F.TIME_CNT_SRC_REJECTS = min (s.get F.TIME_CNT_SRC_REJECTS + 1) (2 ^ F.TIME_CNT_SRC_REJECTS.width - 1) := by
  have hstep : ppsEdge x s = sourceInvalid (edgeRejected (edgeSeen s)) := by
    rw [ppsEdge_of_not_onTime hok, if_pos (by omega)]
  refine ⟨_, (exec_ppsInEdge hs h1 x).trans (congrArg _ hstep), only_of_hide (k := 4718785) (by decide) ?_, sourceInvalid_ok _,
    congrArg OwnSource.good (sourceInvalid_source _), (sourceInvalid_get (by decide) _).trans (edgeRejected_counted _)⟩
  simp [edgeRejected, edgeSeen]

end

end Sys2Proof.Machine
end

section
/-! O48: a write of TIME.SRC_CMD with GO set, and labels of edges (R182a, R186). -/

namespace Sys2Proof.Machine
open Safety

/-! ## The write (R182a) -/

/-- TIME.SRC_CMD as a write of `v` on path `p` leaves it. -/
def srcCmdTaken (p : Nat) (v : Word) (s : State) : State :=
  ((s.put F.TIME_SRC_CMD_PATH p).put F.TIME_SRC_CMD_LEAP60 (F.TIME_SRC_CMD_LEAP60.of v)).put F.TIME_SRC_CMD_ACC
    (F.TIME_SRC_CMD_ACC.of v)

theorem srcCmdTaken_get {g : Field} (h : g.timeApart [F.TIME_SRC_CMD_PATH, F.TIME_SRC_CMD_LEAP60, F.TIME_SRC_CMD_ACC])
    (p : Nat) (v : Word) (s : State) : (srcCmdTaken p v s).get g = s.get g := by
  rw [srcCmdTaken, State.get_put_of_timeApart h (by simp), State.get_put_of_timeApart h (by simp),
    State.get_put_of_timeApart h (by simp)]

theorem srcCmdTaken_reg {a : Nat} (h : a ≠ 0x400B002C) (p : Nat) (v : Word) (s : State) : (srcCmdTaken p v s).reg a = s.reg a := by
  rw [srcCmdTaken, State.reg_put_ne _ _ _ h, State.reg_put_ne _ _ _ h, State.reg_put_ne _ _ _ h]

theorem srcCmdTaken_shown (p : Nat) (v : Word) (s : State) :
    (srcCmdTaken p v s).get F.TIME_SRC_CMD_LEAP60 = F.TIME_SRC_CMD_LEAP60.of v ∧
    (srcCmdTaken p v s).get F.TIME_SRC_CMD_ACC = F.TIME_SRC_CMD_ACC.of v := by
  refine ⟨?_, ?_⟩
  · rw [srcCmdTaken, State.get_put_ne (by decide) (by decide), State.get_put_same _ _ _ (by decide)]
    exact Nat.mod_eq_of_lt (Field.of_lt _ v)
  · rw [srcCmdTaken, State.get_put_same _ _ _ (by decide)]
    exact Nat.mod_eq_of_lt (Field.of_lt _ v)

theorem srcCmdTaken_srcEn (p : Nat) (v : Word) (s : State) : (srcCmdTaken p v s).srcEn = s.srcEn := by
  simp only [State.srcEn, srcCmdTaken_get (by decide : F.TIME_CTL_SRC_EN.timeApart _)]

/-- A GO on path `p`, by the source enabled. -/
theorem writeSrcCmd_go {p : Nat} (hp : p < 2) (v : Word) (s : State) :
    writeSrcCmd (F.TIME_SRC_CMD_PATH.into p (F.TIME_SRC_CMD_GO.into 1 v)) s =
      if s.srcEn = 0 then srcCmdTaken p v s
      else if p + 1 ≠ s.srcEn then sourceReject p (srcCmdTaken p v s)
      else if p = 0 then labelEdge (srcCmdTaken p v s) else softSubmission (srcCmdTaken p v s) := by
  have hpath : F.TIME_SRC_CMD_PATH.of (F.TIME_SRC_CMD_PATH.into p (F.TIME_SRC_CMD_GO.into 1 v)) = p := by
    rw [Field.of_into _ (by decide)]
    exact Nat.mod_eq_of_lt hp
  have hgo : F.TIME_SRC_CMD_GO.of (F.TIME_SRC_CMD_PATH.into p (F.TIME_SRC_CMD_GO.into 1 v)) = 1 := by
    rw [Field.of_into_apart _ _ (by decide) (by decide), Field.of_into _ (by decide)]
    rfl
  have hkept : ∀ f : Field, f.Fits → f.hi < 7 →
      f.of (F.TIME_SRC_CMD_PATH.into p (F.TIME_SRC_CMD_GO.into 1 v)) = f.of v := fun f hf hlt => by
    rw [Field.of_into_apart _ _ hf (.inl hlt), Field.of_into_apart _ _ hf (.inl (hlt.trans (by decide)))]
  have htaken : [F.TIME_SRC_CMD_PATH, F.TIME_SRC_CMD_LEAP60, F.TIME_SRC_CMD_ACC].foldl (fun s f =>
      s.put f (f.of (F.TIME_SRC_CMD_PATH.into p (F.TIME_SRC_CMD_GO.into 1 v)))) s = srcCmdTaken p v s := by
    simp only [List.foldl_cons, List.foldl_nil, hpath, (hkept F.TIME_SRC_CMD_LEAP60 (by decide) (by decide)),
      (hkept F.TIME_SRC_CMD_ACC (by decide) (by decide)), srcCmdTaken]
  simp only [writeSrcCmd, htaken, hpath, hgo, srcCmdTaken_srcEn, Nat.one_ne_zero, false_or]

section
variable {s : State} (hc : s.clocked = true) (v : Word)
include hc

theorem exec_srcLabel : exec (.srcLabel v) s = .next (writeSrcCmd (F.TIME_SRC_CMD_PATH.into 0 (F.TIME_SRC_CMD_GO.into 1 v)) s) :=
  actWhen_of_true hc

theorem exec_softSubmission :
    exec (.softSubmission v) s = .next (writeSrcCmd (F.TIME_SRC_CMD_PATH.into 1 (F.TIME_SRC_CMD_GO.into 1 v)) s) :=
  actWhen_of_true hc

end

/-! ## The path that is not enabled (R182a) -/

section
variable {s t : State} {c : Instr} {p : Nat} {v : Word} (hexec : exec c s = .next t)
include hexec

/-- With no source enabled the write is only taken. -/
theorem srcCmd_ignored (ht : t = srcCmdTaken p v s) : completes c s [.regs] fun t => regsBut [0x400B002C] s t := by
  refine ⟨t, hexec, only_of_hide (k := 1) (by decide) (by simp [ht, srcCmdTaken]), fun a ha => ?_⟩
  rw [ht, srcCmdTaken_reg (by simpa using ha)]

theorem srcCmd_rejected (ht : t = sourceReject p (srcCmdTaken p v s)) : completes c s [.regs, .col] fun t =>
    t.get F.TIME_CNT_SRC_REJECTS = min (s.get F.TIME_CNT_SRC_REJECTS + 1) (2 ^ F.TIME_CNT_SRC_REJECTS.width - 1) := by
  refine ⟨t, hexec, only_of_hide (k := 65) (by decide) (by simp [ht, srcCmdTaken]), ?_⟩
  have hget := srcCmdTaken_get (by decide : F.TIME_CNT_SRC_REJECTS.timeApart _) p v s
  exact hget ▸ ht ▸ sourceReject_counted p (srcCmdTaken p v s)

end

/-! ## Labels (R186) -/

/-- The label continues the sequence, or repeats it over a leap second. -/
abbrev State.labelFollows (s : State) : Prop := ∀ l, s.tim.label = some l →
  s.reg 0x400B0028 = l + 1 ∨ (s.get F.TIME_SRC_CMD_LEAP60 ≠ 0 ∧ s.reg 0x400B0028 = l)

/-- The edge came at most 900 ms ago. -/
abbrev State.labelInTime (s : State) : Prop := ∀ e, s.tim.edgeAt = some e → s.cycles ≤ e + 483183820

theorem labelEdge_of_none {s : State} (h : s.tim.stamp = none) : labelEdge s = sourceReject 0 s := by
  unfold labelEdge
  extract_lets c leap60
  rw [h]

/-- An edge labelled `c` has counted. -/
def edgeLabelled (c : Word) (s : State) : State :=
  s.modT fun t => { t with stamp := none, label := some c, good := t.good + 1, path := false }

theorem labelEdge_of_good {s : State} {x : SysTime} (hx : s.tim.stamp = some x) (hnext : s.labelFollows) (hearly : s.labelInTime) :
    ∃ o, labelEdge s = sourceSample o (sourceGood 8 (edgeLabelled (s.reg 0x400B0028) s)) := by
  unfold labelEdge
  extract_lets c leap60 s₁ ok late s₂
  rw [hx]
  dsimp only
  have hok : ok = true := by
    simp only [ok]
    split
    · rfl
    next l hl => simpa [leap60, State.bit] using hnext l hl
  have hlate : ¬ late = true := by
    simp only [late]
    split
    next e he => exact fun h => Nat.not_lt.2 (hearly e he) (of_decide_eq_true h)
    · simp
  rw [if_neg (by simp [hok, hlate])]
  exact ⟨_, rfl⟩

theorem labelEdge_of_bad {s : State} {x : SysTime} (hx : s.tim.stamp = some x) (h : ¬ s.labelFollows ∨ ¬ s.labelInTime) :
    labelEdge s = (sourceInvalid (s.modT fun t => { t with stamp := none })).modT fun t =>
      { t with label := some (s.reg 0x400B0028) } := by
  unfold labelEdge
  extract_lets c leap60 s₁ ok late s₂
  rw [hx]
  dsimp only
  have hbad : ok = false ∨ late = true := by
    rcases h with hn | hn
    · refine .inl (Bool.eq_false_iff.2 fun hok => hn fun l hl => ?_)
      have hl₁ : s₁.tim.label = some l := hl
      simp only [ok, hl₁] at hok
      simpa [leap60, State.bit] using hok
    · obtain ⟨e, he, hlt⟩ : ∃ e, s.tim.edgeAt = some e ∧ e + 483183820 < s.cycles := by simpa using hn
      have he₁ : s₁.tim.edgeAt = some e := he
      refine .inr ?_
      simp only [late, he₁]
      exact decide_eq_true hlt
  rw [if_pos hbad]

end Sys2Proof.Machine
end

section
/-! O48: SRC_LABEL (R186) and SOURCE_INVALID (R186, R187) as commands. -/

namespace Sys2Proof.Machine
open Safety

theorem srcCmdTaken_labelFollows (v : Word) (s : State) : (srcCmdTaken 0 v s).labelFollows ↔ ∀ l, s.tim.label = some l →
    s.reg 0x400B0028 = l + 1 ∨ (F.TIME_SRC_CMD_LEAP60.of v ≠ 0 ∧ s.reg 0x400B0028 = l) := by
  unfold State.labelFollows
  rw [(srcCmdTaken_shown 0 v s).1, srcCmdTaken_reg (by decide)]
  rfl

section
variable {s : State} (hc : s.clocked = true) (v : Word)
include hc

theorem srcLabel_ignored (h0 : s.srcEn = 0) : completes (.srcLabel v) s [.regs] fun t => regsBut [0x400B002C] s t :=
  srcCmd_ignored (exec_srcLabel hc v) ((writeSrcCmd_go (by decide) v s).trans (if_pos h0))

theorem exec_srcLabel_of_enabled (h1 : s.srcEn = 1) : exec (.srcLabel v) s = .next (labelEdge (srcCmdTaken 0 v s)) := by
  rw [exec_srcLabel hc, writeSrcCmd_go (by decide), if_neg (by omega), if_neg (by omega), if_pos rfl]

theorem srcLabel_rejected (h : s.srcEn = 2 ∨ s.tim.stamp = none ∧ s.srcEn = 1) : completes (.srcLabel v) s [.regs, .col] fun t =>
    t.get F.TIME_CNT_SRC_REJECTS = min (s.get F.TIME_CNT_SRC_REJECTS + 1) (2 ^ F.TIME_CNT_SRC_REJECTS.width - 1) := by
  rcases h with h2 | ⟨hst, h1⟩
  · refine srcCmd_rejected (p := 0) (v := v) (exec_srcLabel hc v) ((writeSrcCmd_go (by decide) v s).trans ?_)
    rw [if_neg (by omega), if_pos (by omega)]
  · exact srcCmd_rejected (exec_srcLabel_of_enabled hc v h1) (labelEdge_of_none hst)

theorem srcLabel_good {x : SysTime} (h1 : s.srcEn = 1) (hx : s.tim.stamp = some x) (hnext : (srcCmdTaken 0 v s).labelFollows)
    (hearly : s.labelInTime) : completes (.srcLabel v) s [.regs, .col, .ic, .tim, .ring, .free] fun t =>
      t.tim.stamp = none ∧ t.tim.label = some (s.reg 0x400B0028) ∧ t.tim.good = s.tim.good + 1 ∧ t.tim.path = false ∧
      (8 ≤ s.tim.good + 1 → t.get F.TIME_STATUS_SRC_OK = 1) ∧
      (s.tim.good + 1 < 8 → t.get F.TIME_STATUS_SRC_OK = s.get F.TIME_STATUS_SRC_OK) := by
  obtain ⟨o, ho⟩ := labelEdge_of_good (s := srcCmdTaken 0 v s) hx hnext hearly
  rw [srcCmdTaken_reg (by decide)] at ho
  have hsrc : (labelEdge (srcCmdTaken 0 v s)).tim.source =
      { s.tim.source with stamp := none, label := some (s.reg 0x400B0028), good := s.tim.good + 1, path := false } := by
    rw [ho, sourceSample_source, sourceGood_source]
    rfl
  have hok : (labelEdge (srcCmdTaken 0 v s)).get F.TIME_STATUS_SRC_OK =
      if 8 ≤ s.tim.good + 1 then 1 else s.get F.TIME_STATUS_SRC_OK := by
    rw [ho, sourceSample_get (by decide), sourceGood_ok, edgeLabelled, State.modT_get, srcCmdTaken_get (by decide)]
    rfl
  refine ⟨_, exec_srcLabel_of_enabled hc v h1, only_of_hide (k := 71827649) (by decide) (by simp [srcCmdTaken]),
    congrArg OwnSource.stamp hsrc, congrArg OwnSource.label hsrc, congrArg OwnSource.good hsrc, congrArg OwnSource.path hsrc,
    fun h8 => hok.trans (if_pos h8), fun h8 => hok.trans (if_neg (by omega))⟩

theorem srcLabel_bad {x : SysTime} (h1 : s.srcEn = 1) (hx : s.tim.stamp = some x)
    (h : ¬ (srcCmdTaken 0 v s).labelFollows ∨ ¬ s.labelInTime) : completes (.srcLabel v) s [.regs, .col, .ic, .tim, .ring] fun t =>
      t.tim.stamp = none ∧ t.tim.label = some (s.reg 0x400B0028) ∧ t.tim.good = 0 ∧ t.get F.TIME_STATUS_SRC_OK = 0 := by
  have ho := labelEdge_of_bad (s := srcCmdTaken 0 v s) hx h
  rw [srcCmdTaken_reg (by decide)] at ho
  have hsrc := sourceInvalid_source ((srcCmdTaken 0 v s).modT fun t => { t with stamp := none })
  refine ⟨_, (exec_srcLabel_of_enabled hc v h1).trans (congrArg _ ho), only_of_hide (k := 4718785) (by decide)
    (by simp [srcCmdTaken]), congrArg OwnSource.stamp hsrc, rfl, congrArg OwnSource.good hsrc, ?_⟩
  exact (State.modT_get ..).trans (sourceInvalid_ok _)

end

/-! ## A source that falls silent (R186, R187) -/

/-- The source enabled has been without an edge, a label or a submission for its limit. -/
abbrev State.sourceSilent (s : State) : Prop := s.live = true ∧
  (s.srcEn = 1 ∧ (s.tim.edgeSeen + 805306368 ≤ s.cycles ∨
      s.tim.stamp ≠ none ∧ ∃ e, s.tim.edgeAt = some e ∧ e + 483183820 < s.cycles) ∨
    s.srcEn = 2 ∧ s.tim.softAt + 5368709120 ≤ s.cycles)

theorem sourceSilent_iff (s : State) : (s.live && s.sourceStale) = true ↔ s.sourceSilent := by
  have hnum : 3 * second / 2 = 805306368 ∧ 9 * second / 10 = 483183820 ∧ 10 * second = 5368709120 := by decide
  obtain ⟨hedge, hlabel, hsoft⟩ := hnum
  rw [Bool.and_eq_true, State.sourceStale, hedge, hlabel, hsoft]
  by_cases h1 : s.srcEn = 1
  · cases he : s.tim.edgeAt <;> simp [h1, he, State.sourceSilent, Option.isSome_iff_ne_none]
  · by_cases h2 : s.srcEn = 2 <;> simp [h1, h2]

theorem sourceInvalid_idle {s : State} (h : ¬ s.sourceSilent) : exec .sourceInvalid s = .next s :=
  actWhen_of_false (Bool.eq_false_iff.2 fun hs => h ((sourceSilent_iff s).1 hs))

theorem sourceInvalid_completes {s : State} (h : s.sourceSilent) :
    completes .sourceInvalid s [.regs, .col, .ic, .tim, .ring] fun t => t.get F.TIME_STATUS_SRC_OK = 0 ∧ t.tim.good = 0 ∧
      t.tim.stamp = none ∧ t.tim.label = none ∧ t.tim.soft = none := by
  have hsrc := sourceInvalid_source s
  exact ⟨_, actWhen_of_true ((sourceSilent_iff s).2 h), only_of_hide (k := 4718785) (by decide) (sourceInvalid_hide s _ rfl),
    sourceInvalid_ok s, congrArg OwnSource.good hsrc, congrArg OwnSource.stamp hsrc, congrArg OwnSource.label hsrc,
    congrArg OwnSource.soft hsrc⟩

end Sys2Proof.Machine
end

section
/-! O48: SOFT_SUBMISSION (R187), case by case. -/

namespace Sys2Proof.Machine
open Safety

/-! ## What a submission says -/

/-- The edge time a submission gives. -/
abbrev State.softEdge (s : State) : SysTime := s.reg 0x400B0024 ++ s.reg 0x400B0020

/-- The offset it implies, its label read with `leap` seconds more. -/
abbrev State.softOffset (leap : Nat) (s : State) : Int :=
  (s.softEdge.toNat : Int) - (((s.reg 0x400B0028).toNat : Int) + s.utcOffset + leap) * 0x20000000

/-- A submission out of bounds: `n` above 17, or its edge over 2 s away. -/
abbrev State.softFar (n : Nat) (s : State) : Prop := 17 < n ∨ 2 * 0x20000000 < ((s.softEdge.toNat : Int) - s.now.toNat).natAbs

/-- An offset `x` within `2^n` µs agrees with the last submission. -/
abbrev State.softAgrees (x : Int) (n : Nat) (s : State) : Prop :=
  ∀ y m, s.tim.soft = some (y, m) → (x - y).natAbs * 1000000 ≤ 2 * 2 ^ max n m * 0x20000000

/-- A submission has come in this cycle. -/
def softSeen (s : State) : State := s.modT fun t => { t with softAt := s.cycles }

/-- A submission of offset `x` within `2^n` µs has counted. -/
def softTaken (x : Int) (n : Nat) (s : State) : State :=
  s.modT fun t => { t with soft := some (x, n), good := t.good + 1, badSoft := 0, path := true, acc := n }

/-- A submission that disagrees with the last. -/
def softDisagrees (s : State) : State :=
  (timeFault kPROTOCOL 0x01 (detail3 1) s).modT fun t => { t with good := 0, badSoft := t.badSoft + 1 }

theorem softDisagrees_tim (s : State) : (softDisagrees s).tim = { s.tim with good := 0, badSoft := s.tim.badSoft + 1 } := by
  simp only [softDisagrees, State.modT, timeFault_tim]

theorem softDisagrees_get {g : Field} (h : g.timeApart []) (s : State) : (softDisagrees s).get g = s.get g :=
  (State.modT_get ..).trans (get_timeFault_of_timeApart h _ _ _ s)

/-- LEAP60 as a count. -/
theorem leap60_toNat (s : State) : (s.bit F.TIME_SRC_CMD_LEAP60).toNat = s.get F.TIME_SRC_CMD_LEAP60 := by
  have hlt : s.get F.TIME_SRC_CMD_LEAP60 < 2 := State.get_lt F.TIME_SRC_CMD_LEAP60 s
  have hor : s.get F.TIME_SRC_CMD_LEAP60 = 0 ∨ s.get F.TIME_SRC_CMD_LEAP60 = 1 := by omega
  rcases hor with h | h <;> simp [State.bit, h]

section
variable {s : State} {n : Nat} (hn : s.get F.TIME_SRC_CMD_ACC = n)
include hn

theorem softSubmission_of_far (h : s.softFar n) :
    softSubmission s = (sourceReject 1 (softSeen s)).modT fun t => { t with good := 0 } := by
  subst hn
  exact if_pos h

variable (hfar : ¬ s.softFar n) {x : Int} (hx : s.softOffset (s.get F.TIME_SRC_CMD_LEAP60) = x)
include hfar hx

theorem softSubmission_of_agrees (h : s.softAgrees x n) :
    softSubmission s = sourceSample x (sourceGood 3 (softTaken x n (softSeen s))) := by
  unfold softSubmission
  extract_lets s₁ k e d x' consistent s₂ s₃ s₄
  have hk : k = n := hn
  have hx' : x' = x := by
    rw [← hx, ← leap60_toNat]
    rfl
  have hcons : consistent = true := by
    simp only [consistent]
    split
    · rfl
    next y m hs => exact decide_eq_true (by rw [hk, hx']; exact h y m hs)
  rw [if_neg (by rw [hk]; exact hfar), if_pos hcons]
  simp only [s₂, hx', hk]
  rfl

theorem softSubmission_of_disagrees (h : ¬ s.softAgrees x n) : softSubmission s =
    if 2 ≤ s.tim.badSoft + 1 then sourceInvalid (softDisagrees (softSeen s)) else softDisagrees (softSeen s) := by
  unfold softSubmission
  extract_lets s₁ k e d x' consistent s₂ s₃ s₄
  have hk : k = n := hn
  have hx' : x' = x := by
    rw [← hx, ← leap60_toNat]
    rfl
  have hcons : ¬ consistent = true := fun hc => h fun y m hs => by
    have hs₁ : s₁.tim.soft = some (y, m) := hs
    simp only [consistent, hs₁] at hc
    rw [← hk, ← hx']
    exact of_decide_eq_true hc
  have hbad : s₄.tim.badSoft = s.tim.badSoft + 1 := congrArg TimeUnit.badSoft (softDisagrees_tim s₁)
  rw [if_neg (by rw [hk]; exact hfar), if_neg hcons, hbad]
  rfl

end

end Sys2Proof.Machine
end

section
/-! O48: SOFT_SUBMISSION (R187) as a command. -/

namespace Sys2Proof.Machine
open Safety

theorem utcOffset_of_get {s t : State} (h : t.get F.TIME_UTC_OFFSET = s.get F.TIME_UTC_OFFSET) : t.utcOffset = s.utcOffset := by
  rw [State.utcOffset, h, State.utcOffset]

theorem srcCmdTaken_softEdge (p : Nat) (v : Word) (s : State) : (srcCmdTaken p v s).softEdge = s.softEdge := by
  rw [State.softEdge, srcCmdTaken_reg (by decide), srcCmdTaken_reg (by decide)]

theorem srcCmdTaken_softOffset (p : Nat) (v : Word) (s : State) (leap : Nat) :
    (srcCmdTaken p v s).softOffset leap = s.softOffset leap := by
  rw [State.softOffset, srcCmdTaken_softEdge, srcCmdTaken_reg (by decide), utcOffset_of_get (srcCmdTaken_get (by decide) p v s)]

theorem srcCmdTaken_softFar (p : Nat) (v : Word) (s : State) (n : Nat) : (srcCmdTaken p v s).softFar n ↔ s.softFar n := by
  rw [State.softFar, srcCmdTaken_softEdge]
  rfl

section
variable {s : State} (hc : s.clocked = true) (v : Word)
include hc

theorem softSubmission_ignored (h0 : s.srcEn = 0) : completes (.softSubmission v) s [.regs] fun t => regsBut [0x400B002C] s t :=
  srcCmd_ignored (exec_softSubmission hc v) ((writeSrcCmd_go (by decide) v s).trans (if_pos h0))

theorem softSubmission_rejected (h1 : s.srcEn = 1) : completes (.softSubmission v) s [.regs, .col] fun t =>
    t.get F.TIME_CNT_SRC_REJECTS = min (s.get F.TIME_CNT_SRC_REJECTS + 1) (2 ^ F.TIME_CNT_SRC_REJECTS.width - 1) := by
  refine srcCmd_rejected (p := 1) (v := v) (exec_softSubmission hc v) ((writeSrcCmd_go (by decide) v s).trans ?_)
  rw [if_neg (by omega), if_pos (by omega)]

variable (h2 : s.srcEn = 2)
include h2

theorem exec_softSubmission_of_enabled : exec (.softSubmission v) s = .next (softSubmission (srcCmdTaken 1 v s)) := by
  rw [exec_softSubmission hc, writeSrcCmd_go (by decide), if_neg (by omega), if_neg (by omega), if_neg (by decide)]

theorem softSubmission_far (hfar : s.softFar (F.TIME_SRC_CMD_ACC.of v)) : completes (.softSubmission v) s [.regs, .col, .tim] fun t =>
    t.tim = { s.tim with softAt := s.cycles, good := 0 } ∧ t.get F.TIME_CNT_SRC_REJECTS =
      min (s.get F.TIME_CNT_SRC_REJECTS + 1) (2 ^ F.TIME_CNT_SRC_REJECTS.width - 1) := by
  have ht := softSubmission_of_far (srcCmdTaken_shown 1 v s).2 ((srcCmdTaken_softFar 1 v s _).2 hfar)
  refine ⟨_, (exec_softSubmission_of_enabled hc v h2).trans (congrArg _ ht), only_of_hide (k := 524353) (by decide)
    (by simp [srcCmdTaken, softSeen]), ?_, ?_⟩
  · simp only [State.modT, sourceReject_tim, softSeen]
    rfl
  · rw [State.modT_get, sourceReject_counted, softSeen, State.modT_get, srcCmdTaken_get (by decide)]

variable (hfar : ¬ s.softFar (F.TIME_SRC_CMD_ACC.of v)) {x : Int} (hx : s.softOffset (F.TIME_SRC_CMD_LEAP60.of v) = x)
include hfar hx

theorem softSubmission_good (hag : s.softAgrees x (F.TIME_SRC_CMD_ACC.of v)) :
    completes (.softSubmission v) s [.regs, .col, .ic, .tim, .ring, .free] fun t =>
      t.tim.soft = some (x, F.TIME_SRC_CMD_ACC.of v) ∧ t.tim.good = s.tim.good + 1 ∧ t.tim.path = true ∧
      t.tim.acc = F.TIME_SRC_CMD_ACC.of v ∧ t.tim.badSoft = 0 ∧
      (s.isMaster = false → t.get F.TIME_OFFSET_OFFSET = satInt 32 x) ∧
      (3 ≤ s.tim.good + 1 → t.get F.TIME_STATUS_SRC_OK = 1) ∧
      (s.tim.good + 1 < 3 → t.get F.TIME_STATUS_SRC_OK = s.get F.TIME_STATUS_SRC_OK) := by
  obtain ⟨hleap, hacc⟩ := srcCmdTaken_shown 1 v s
  have ht := softSubmission_of_agrees hacc (fun h => hfar ((srcCmdTaken_softFar 1 v s _).1 h)) (x := x)
    (by rw [hleap, srcCmdTaken_softOffset, hx]) hag
  generalize hu : softTaken x (F.TIME_SRC_CMD_ACC.of v) (softSeen (srcCmdTaken 1 v s)) = u at ht
  have hsrc : (sourceSample x (sourceGood 3 u)).tim.source = { s.tim.source with
      soft := some (x, F.TIME_SRC_CMD_ACC.of v), good := s.tim.good + 1, badSoft := 0, path := true,
      acc := F.TIME_SRC_CMD_ACC.of v } := by
    rw [sourceSample_source, sourceGood_source, ← hu]
    rfl
  have hget : ∀ g : Field, g.timeApart [F.TIME_SRC_CMD_PATH, F.TIME_SRC_CMD_LEAP60, F.TIME_SRC_CMD_ACC] → u.get g = s.get g :=
    fun g hg => by rw [← hu, softTaken, State.modT_get, softSeen, State.modT_get, srcCmdTaken_get hg]
  have hok : (sourceSample x (sourceGood 3 u)).get F.TIME_STATUS_SRC_OK =
      if 3 ≤ s.tim.good + 1 then 1 else s.get F.TIME_STATUS_SRC_OK := by
    rw [sourceSample_get (by decide), sourceGood_ok, hget _ (by decide), ← hu]
    rfl
  have hmaster : (sourceGood 3 u).isMaster = s.isMaster :=
    State.bit_of_get ((sourceGood_get (by decide) 3 u).trans (hget _ (by decide)))
  refine ⟨_, (exec_softSubmission_of_enabled hc v h2).trans (congrArg _ ht), only_of_hide (k := 71827649) (by decide)
    (by simp [← hu, srcCmdTaken, softSeen, softTaken]), congrArg OwnSource.soft hsrc, congrArg OwnSource.good hsrc,
    congrArg OwnSource.path hsrc, congrArg OwnSource.acc hsrc, congrArg OwnSource.badSoft hsrc,
    fun hm => sourceSample_offset (hmaster.trans hm) x, fun h3 => hok.trans (if_pos h3), fun h3 => hok.trans (if_neg (by omega))⟩

variable (hag : ¬ s.softAgrees x (F.TIME_SRC_CMD_ACC.of v))
include hag

/-- A submission that disagrees: its count, and whether it ends the source. -/
theorem softSubmission_of_bad : exec (.softSubmission v) s = .next
    (if 2 ≤ s.tim.badSoft + 1 then sourceInvalid (softDisagrees (softSeen (srcCmdTaken 1 v s)))
      else softDisagrees (softSeen (srcCmdTaken 1 v s))) := by
  obtain ⟨hleap, hacc⟩ := srcCmdTaken_shown 1 v s
  exact (exec_softSubmission_of_enabled hc v h2).trans (congrArg _ (softSubmission_of_disagrees hacc
    (fun h => hfar ((srcCmdTaken_softFar 1 v s _).1 h)) (x := x) (by rw [hleap, srcCmdTaken_softOffset, hx]) hag))

theorem softSubmission_bad_first (hb : s.tim.badSoft = 0) : completes (.softSubmission v) s [.regs, .col, .tim] fun t =>
    t.tim = { s.tim with softAt := s.cycles, good := 0, badSoft := 1 } ∧
    t.get F.TIME_STATUS_SRC_OK = s.get F.TIME_STATUS_SRC_OK := by
  refine ⟨_, (softSubmission_of_bad hc v h2 hfar hx hag).trans (congrArg _ (if_neg (by omega))),
    only_of_hide (k := 524353) (by decide) (by simp [srcCmdTaken, softSeen, softDisagrees]), ?_, ?_⟩
  · rw [softDisagrees_tim]
    exact congrArg (fun b : Nat => ({ s.tim with softAt := s.cycles, good := 0, badSoft := b + 1 } : TimeUnit)) hb
  · rw [softDisagrees_get (by decide), softSeen, State.modT_get, srcCmdTaken_get (by decide)]

theorem softSubmission_bad_again (hb : 1 ≤ s.tim.badSoft) : completes (.softSubmission v) s [.regs, .col, .ic, .tim, .ring] fun t =>
    t.get F.TIME_STATUS_SRC_OK = 0 ∧ t.tim.good = 0 :=
  ⟨_, (softSubmission_of_bad hc v h2 hfar hx hag).trans (congrArg _ (if_pos (by omega))),
    only_of_hide (k := 4718785) (by decide) (by simp [srcCmdTaken, softSeen, softDisagrees]), sourceInvalid_ok _,
    congrArg OwnSource.good (sourceInvalid_source _)⟩

end

end Sys2Proof.Machine
end

section
/-! Performance counts and system time (R179, R185, R190, R445 to R447): what the end of a second and a step of system time leave
of the time unit, and how near a rounded quotient lies. -/

namespace Sys2Proof.Machine

/-! ## Rounding -/

/-- How far the quotient rounded down, or up (`b`), lies from the exact one. -/
theorem fdiv_add_mul_sub (n : Int) (d : Nat) (b : Bool) :
    (n.fdiv d + b.toNat) * d - n = if b then (d : Int) - n % d else -(n % d) := by
  have hn := Int.mul_ediv_add_emod n d
  rw [Int.fdiv_eq_ediv_of_nonneg n (by omega), Int.add_mul, Int.mul_comm (n / d)]
  cases b <;> simp <;> omega

/-- The nearest whole number is at most half a part away. -/
theorem nearest_near (n : Int) {d : Nat} (hd : 0 < d) (s : State) : 2 * ((nearest n d s).1 * d - n).natAbs ≤ d := by
  unfold nearest
  split
  case isTrue hhalf =>
    obtain ⟨v, s'⟩ := s.draw
    simp only [fdiv_add_mul_sub]
    split <;> omega
  case isFalse =>
    have hq := Int.mul_ediv_add_emod (2 * n + d) (2 * d)
    have hlo := Int.emod_nonneg (2 * n + d) (show (2 * d : Int) ≠ 0 by omega)
    have hhi := Int.emod_lt_of_pos (2 * n + d) (show (0 : Int) < 2 * d by omega)
    simp only [Int.fdiv_eq_ediv_of_nonneg (2 * n + d) (show (0 : Int) ≤ 2 * d by omega)]
    rw [Int.mul_assoc] at hq
    rw [Int.mul_comm _ (d : Int)]
    omega

/-- An open quotient is less than one whole part away. -/
theorem openDiv_near (n : Int) {d : Nat} (hd : 0 < d) (s : State) : ((openDiv n d s).1 * d - n).natAbs < d := by
  have hlo := Int.emod_nonneg n (show (d : Int) ≠ 0 by omega)
  have hhi := Int.emod_lt_of_pos n (show (0 : Int) < d by omega)
  unfold openDiv
  split
  case isTrue hzero =>
    simp only [Int.ediv_mul_cancel_of_emod_eq_zero hzero]
    omega
  case isFalse hne =>
    obtain ⟨v, s'⟩ := s.draw
    simp only [fdiv_add_mul_sub]
    split <;> omega

theorem openDiv_get (n : Int) (d : Nat) (s : State) (g : Field) : (openDiv n d s).2.get g = s.get g := by
  unfold openDiv
  split <;> rfl

/-! ## What is not hidden -/

theorem get_of_hide {s t : State} {m : Nat} (hm : m.testBit 0 = false) (h : t.hide m = s.hide m) (g : Field) : t.get g = s.get g := by
  have hregs : t.regs = s.regs := by simpa [State.hide, hm] using congrArg State.regs h
  rw [State.get, hregs, State.get]

theorem tim_same_of_hide {s t : State} {m : Nat} (hm : m.testBit 19 = false) (h : t.hide m = s.hide m) : t.tim = s.tim := by
  simpa [State.hide, hm] using congrArg State.tim h

/-! ## The registers at the end of a second -/

section
variable {g : Field} (h : g.timeApart [])
include h

/-- The line registers end before the time unit's window. -/
theorem portSecond_get (c : Int) (p : Fin 4) (s : State) : (portSecond c p s).get g = s.get g := by
  obtain ⟨-, hlo, -, -⟩ := h
  have hline : ∀ a : Nat, a < 0x40070000 → ∀ (hi lo v : Nat) (acc : Access) (r : Nat) (t : State),
      (t.put ⟨a, hi, lo, acc, r⟩ v).get g = t.get g :=
    fun a ha _ _ v _ _ t => State.get_put_addr _ g v t (show g.addr ≠ a by omega)
  unfold portSecond
  extract_lets q half ns thr corr steady degraded x sat s₁ s₂ next sf en up
  rw [State.modPerf_get, State.modPort_get]
  exact (hline _ (by omega) _ _ _ _ _ _).trans (hline _ (by omega) _ _ _ _ _ _)

theorem secondEnds_get (c : Int) (valid : Bool) (s : State) : (secondEnds c valid s).get g = s.get g :=
  State.view_each (State.get · g) (fun p t => portSecond_get h c p t) _ s

theorem interrupt_get_of_timeApart {src : Nat} (hsrc : src < 128) (s : State) : (s.interrupt src).get g = s.get g := by
  obtain ⟨-, hlo, -, -⟩ := h
  exact State.get_interrupt_ne (by simp only [cntField]; omega) s

theorem stepPerf_get (forward : Bool) (before after : Int) (valid : Bool) (s : State) :
    (stepPerf forward before after valid s).get g = s.get g := by
  have h15 : ∀ (a b : Bool) (start : Int) (t : State), (t.each (List.finRange 4) (close15 a b start)).get g = t.get g :=
    fun a b start t => get_of_hide (m := 4198400) rfl (by simp) g
  have h24 : ∀ (a b : Bool) (start : Int) (t : State), (t.each (List.finRange 4) (close24 a b start)).get g = t.get g :=
    fun a b start t => get_of_hide (m := 4198400) rfl (by simp) g
  simp only [stepPerf, State.get_ite, interrupt_get_of_timeApart h (by decide : 85 < 128), State.get_rep, State.modRing_get,
    h15, h24, dayDip, secondEnds_get h, ite_self]

end

end Sys2Proof.Machine
end

section
/-! O48: STEP (R179, R185). -/

namespace Sys2Proof.Machine
open Safety

/-! ## A step of system time -/

/-- System time moved by `d` units, and what the performance counts and the event lists make of it. -/
def timeMoved (d : Int) (s : State) : State :=
  let before := s.utcCount (s.now.toNat / second)
  let s := { s with now := s.now + BitVec.ofInt 64 d }
  let s := stepPerf (decide (0 < d)) before (s.utcCount (s.now.toNat / second)) s.timeValid s
  s.each (List.finRange 64) fun c s => if d ≤ 0 ∨ s.wheelDomain c then s else markBehind c s

/-- The step in microseconds. -/
def stepMicros (d : Int) (s : State) : Int × State := openDiv (d * 1000000) second (timeMoved d s)

/-- The step in milliseconds, found after that in microseconds. -/
def stepMillis (d : Int) (s : State) : Int × State := openDiv (d * 1000) second (stepMicros d s).2

/-- The step as TIME.STEP and TIME.EVENT show it. -/
def stepShown (d : Int) (s : State) : State :=
  ((stepMillis d s).2.put F.TIME_STEP_STEP (satInt 32 (stepMicros d s).1)).timeEvent F.TIME_EVENT_STEPPED 94

/-- A step: the time unit notes when it took place, and that none is due any more. -/
theorem stepTime_eq (d : Int) (s : State) : ∃ f : TimeUnit → TimeUnit, ∃ detail : BitVec 24,
    (∀ t, (f t).stepAt = some (stepShown d s).cycles ∧ (f t).stepDue = none) ∧
    stepTime d s = timeFault kLOSS_OF_SYNC 0x04 detail ((stepShown d s).modT f) := by
  refine ⟨_, _, ?_, rfl⟩
  exact fun _ => ⟨rfl, rfl⟩

theorem timeMoved_get {g : Field} (h : g.timeApart []) (d : Int) (s : State) : (timeMoved d s).get g = s.get g := by
  refine (State.view_each (State.get · g) (fun c t => ?_) _ _).trans (stepPerf_get h _ _ _ _ _)
  split
  · rfl
  · exact get_of_hide (m := 8192) rfl (markBehind_hide c t _ rfl) g

theorem stepMillis_get {g : Field} (h : g.timeApart []) (d : Int) (s : State) : (stepMillis d s).2.get g = s.get g := by
  rw [stepMillis, openDiv_get, stepMicros, openDiv_get, timeMoved_get h]

theorem stepTime_get {g : Field} (h : g.timeApart [F.TIME_STEP_STEP, F.TIME_EVENT_STEPPED]) (d : Int) (s : State) :
    (stepTime d s).get g = s.get g := by
  obtain ⟨f, detail, -, heq⟩ := stepTime_eq d s
  rw [heq, get_timeFault_of_timeApart h, State.modT_get, stepShown, get_timeEvent_of_timeApart h (by simp) (by decide),
    State.get_put_of_timeApart h (by simp), stepMillis_get (Field.timeApart_mono h (by simp))]

theorem stepTime_shown (d : Int) (s : State) : (stepTime d s).get F.TIME_EVENT_STEPPED = 1 ∧
    (stepTime d s).get F.TIME_STEP_STEP = satInt 32 (stepMicros d s).1 := by
  obtain ⟨f, detail, -, heq⟩ := stepTime_eq d s
  refine ⟨?_, ?_⟩
  · rw [heq, get_timeFault_of_timeApart (l := []) (by decide), State.modT_get, stepShown,
      get_timeEvent_same (by decide) rfl (by decide)]
  · rw [heq, get_timeFault_of_timeApart (l := []) (by decide), State.modT_get, stepShown,
      get_timeEvent_of_timeApart (l := [F.TIME_EVENT_STEPPED]) (by decide) (by simp) (by decide),
      State.get_put_same _ _ _ (by decide)]
    exact Nat.mod_eq_of_lt (satInt_lt 32 _)

theorem stepMicros_near (d : Int) (s : State) : ((stepMicros d s).1 * 0x20000000 - d * 1000000).natAbs < 0x20000000 :=
  openDiv_near (d * 1000000) (d := second) (by decide) (timeMoved d s)

theorem stepTime_now (d : Int) (s : State) : (stepTime d s).now = s.now + BitVec.ofInt 64 d := by
  have hhide : (stepTime d s).hide 73937089 = ({ s with now := s.now + BitVec.ofInt 64 d } : State).hide 73937089 := by
    simp [stepTime]
  exact now_same_of_hide rfl hhide

theorem stepTime_tim (d : Int) (s : State) : (stepTime d s).tim.stepAt = some s.cycles ∧ (stepTime d s).tim.stepDue = none := by
  obtain ⟨f, detail, hf, heq⟩ := stepTime_eq d s
  obtain ⟨hat, hdue⟩ := hf (stepShown d s).tim
  have hhide : (stepShown d s).hide 73412803 = s.hide 73412803 := by
    simp [stepShown, stepMillis, stepMicros, timeMoved]
  rw [heq, timeFault_tim]
  exact ⟨hat.trans (congrArg some (cycles_same_of_hide rfl hhide)), hdue⟩

/-! ## STEP -/

/-- A step may be taken: outside Caldera and hold, with a reference. -/
abbrev State.mayStep (s : State) : Prop := s.live = true ∧ s.tim.hasRef = true

theorem step_idle {s : State} (h : ¬ s.mayStep ∨ s.tim.stepDue = none) : exec .step s = .next s := by
  show execStep s = _
  rw [execStep]
  by_cases hm : s.mayStep
  · rw [actWhen_of_true (by simp [hm]), (h.resolve_left (absurd hm))]
  · exact actWhen_of_false (Bool.eq_false_iff.2 fun hb => hm (by simpa using hb))

/-- The whole units that an offset `x` is stepped by. -/
def stepUnits (x : Int) (s : State) : Int × State := nearest (-x) offScale.toNat s

theorem exec_step {s : State} {x : Int} (hm : s.mayStep) (hx : s.tim.stepDue = some x) :
    exec .step s = .next (stepTime (stepUnits x s).1 (stepUnits x s).2) := by
  show execStep s = _
  rw [execStep, actWhen_of_true (by simp [hm]), hx]
  rfl

theorem stepUnits_near (x : Int) (s : State) : 2 * ((stepUnits x s).1 * 20000000000 + x).natAbs ≤ 20000000000 := by
  have hscale : offScale.toNat = 20000000000 := by decide
  have h := nearest_near (-x) (d := offScale.toNat) (by rw [hscale]; decide) s
  rw [hscale, Int.sub_neg] at h
  rw [stepUnits, hscale]
  exact h

theorem step_completes {s : State} {x : Int} (hm : s.mayStep) (hx : s.tim.stepDue = some x) :
    completes .step s [.regs, .now, .col, .ic, .rep, .chan, .tim, .flue, .ring, .free] fun t => ∃ d us : Int,
      2 * (d * 20000000000 + x).natAbs ≤ 20000000000 ∧ t.now = s.now + BitVec.ofInt 64 d ∧ t.get F.TIME_EVENT_STEPPED = 1 ∧
      (us * 0x20000000 - d * 1000000).natAbs < 0x20000000 ∧ t.get F.TIME_STEP_STEP = satInt 32 us ∧
      t.tim.stepAt = some s.cycles ∧ t.tim.stepDue = none ∧ t.timeState = s.timeState := by
  have hhide : (stepUnits x s).2.hide 67108864 = s.hide 67108864 := nearest_hide _ _ s _ rfl
  generalize hu : (stepUnits x s).2 = u at hhide
  have hnear := stepUnits_near x s
  generalize hd : (stepUnits x s).1 = d at hnear
  have hexec := exec_step hm hx
  rw [hu, hd] at hexec
  obtain ⟨hstepped, hmicros⟩ := stepTime_shown d u
  obtain ⟨hat, hdue⟩ := stepTime_tim d u
  refine ⟨_, hexec, only_of_hide (k := 73937091) (by decide) (execStep_hide s _ hexec), d, (stepMicros d u).1, hnear, ?_, hstepped,
    stepMicros_near d u, hmicros, ?_, hdue, ?_⟩
  · rw [stepTime_now, now_same_of_hide rfl hhide]
  · rw [hat, cycles_same_of_hide rfl hhide]
  · exact (stepTime_get (by decide) d u).trans (get_of_hide rfl hhide _)

end Sys2Proof.Machine
end

section
/-! O48: LOCKED and HOLDOVER_EXPIRED (R182), the clock monitor's faults (R201), and the time sources as a whole. -/

namespace Sys2Proof.Machine
open Safety

/-! ## LOCKED (R182) -/

theorem locked_idle {s : State} (h : ¬ s.mayStep ∨ s.timeState ≠ 2 ∨ s.tim.inSince = none ∨
    (∃ c, s.tim.inSince = some c ∧ s.cycles < c + 0x40000000)) : exec .locked s = .next s := by
  show execLocked s = _
  rw [execLocked]
  by_cases hm : s.mayStep ∧ s.timeState = 2
  · rw [actWhen_of_true (by simp [hm, tLOCKING])]
    rcases h with h | h | h | ⟨c, hc, hlt⟩
    · exact absurd hm.1 h
    · exact absurd hm.2 h
    · rw [h]
    · rw [hc]
      exact congrArg _ (if_neg (Nat.not_le.2 hlt))
  · refine actWhen_of_false (Bool.eq_false_iff.2 fun hb => ?_)
    rw [Bool.and_eq_true, Bool.and_eq_true] at hb
    exact hm ⟨hb.1, of_decide_eq_true hb.2⟩

theorem locked_completes {s : State} {c : Nat} (hm : s.mayStep) (h2 : s.timeState = 2) (hc : s.tim.inSince = some c)
    (hle : c + 0x40000000 ≤ s.cycles) : completes .locked s [.regs, .ic, .tim, .ring] fun t => t.timeState = 3 ∧
      t.get F.TIME_EVENT_STATE_CHANGED = 1 ∧ t.tim.lockedSeen = true := by
  have hexec : exec .locked s = .next ((stateEntered 3 s).modT fun t => { t with lockedSeen := true }) := by
    show execLocked s = _
    rw [execLocked, actWhen_of_true (by simp [hm, h2, tLOCKING]), hc]
    exact congrArg _ ((if_pos hle).trans (setTimeState_of_ne (n := 3) (by rw [h2]; decide)))
  obtain ⟨hstate, hchanged⟩ := stateEntered_shown 3 s
  exact ⟨_, hexec, only_of_hide (k := 4718721) (by decide) (by simp [stateEntered]), hstate, hchanged, rfl⟩

/-! ## HOLDOVER_EXPIRED (R182) -/

/-- HOLD_MAX hours have passed in holdover; 0 acts as 1. -/
abbrev State.holdoverDue (s : State) : Prop :=
  s.tim.holdAt + max 1 (s.get F.TIME_CTL_HOLD_MAX) * 3600 * 0x20000000 ≤ s.cycles

theorem holdoverExpired_idle {s : State} (h : s.live = false ∨ s.timeState ≠ 4 ∨ ¬ s.holdoverDue) :
    exec .holdoverExpired s = .next s := by
  show execHoldoverExpired s = _
  refine actWhen_of_false ?_
  rw [Bool.and_eq_false_iff, Bool.and_eq_false_iff, or_assoc]
  exact h.imp id fun h => h.imp (fun h => decide_eq_false h) fun h => decide_eq_false h

theorem holdoverExpired_completes {s : State} (hs : s.live = true) (h4 : s.timeState = 4) (hdue : s.holdoverDue) :
    completes .holdoverExpired s [.regs, .col, .ic, .tim, .ring] fun t =>
      t.timeState = 5 ∧ t.get F.TIME_EVENT_STATE_CHANGED = 1 ∧
      t.col = (s.raise { src := 0x15, kind := kTIMEOUT, cls := corrected, reason := 0x03, detail := 0 }).col := by
  have hfree : setTimeState tFREE s = timeFault kTIMEOUT 0x03 0 (stateEntered 5 s) := by
    rw [setTimeState_of_ne (by rw [h4]; decide), if_neg (by decide), if_neg (by decide), if_pos rfl, tFREE]
  have hexec : exec .holdoverExpired s = .next (timeFault kTIMEOUT 0x03 0 (stateEntered 5 s)) := by
    show execHoldoverExpired s = _
    rw [execHoldoverExpired, actWhen_of_true, hfree]
    rw [hs, decide_eq_true (show s.timeState = tHOLDOVER from h4), Bool.true_and, Bool.true_and,
      decide_eq_true_iff]
    exact hdue
  have hhide : (stateEntered 5 s).hide 4718721 = s.hide 4718721 := by simp [stateEntered]
  obtain ⟨hstate, hchanged⟩ := stateEntered_shown 5 s
  refine ⟨_, hexec, only_of_hide (k := 4718785) (by decide) (by simp [stateEntered]), ?_, ?_, ?_⟩
  · exact (get_timeFault_of_timeApart (l := []) (by decide) _ _ _ _).trans hstate
  · exact (get_timeFault_of_timeApart (l := []) (by decide) _ _ _ _).trans hchanged
  · exact State.raise_col_congr (col_same_of_hide rfl hhide) (cycles_same_of_hide rfl hhide) (now_same_of_hide rfl hhide)
      (node_same_of_hide rfl hhide)

/-! ## The clock monitor (R201) -/

/-- A fault of the clock monitor. -/
abbrev clockSpec (cls : BitVec 2) (reason : BitVec 8) : FaultSpec :=
  { src := 0x1B, kind := kCLOCK_FAIL, cls := cls, reason := reason }

/-- A clock fails: the node notes it by `g` and the fault is raised. -/
theorem clockFault_completes {c : Instr} {s : State} {g : Node → Node} {cls : BitVec 2} {reason : BitVec 8} (hc : s.clocked = true)
    (h : exec c s = actWhen s.clocked (fun s => clockFault kCLOCK_FAIL cls reason { s with node := g s.node }) s) :
    completes c s [.regs, .node, .col] fun t => t.node = g s.node ∧
      t.col = (({ s with node := g s.node } : State).raise (clockSpec cls reason)).col :=
  ⟨_, h.trans (actWhen_of_true hc), only_of_hide (k := 81) (by decide) (by simp), clockFault_node _ _ _ _, rfl⟩

end Sys2Proof.Machine

namespace Sys2Proof.Safety
open Sys2Proof.Machine

/-- Settles O48: each command by its cases. An edge by whether it comes on time, a label by whether it follows the last in time, a
submission by whether it lies in bounds and agrees with the last; a source that falls silent by `sourceSilent_iff`; a step by
`stepTime_eq`, with the rounding of `nearest_near` and `openDiv_near`. -/
theorem timeSourcesAndStates : Obligations.TimeSourcesAndStates := by
  unfold Obligations.TimeSourcesAndStates
  refine ⟨⟨fun x s => ?_, fun v s hc => ?_, fun v s hc => ?_, fun s => ⟨sourceInvalid_idle, sourceInvalid_completes⟩⟩,
    fun s => ⟨step_idle, fun x hm hx => step_completes hm hx, fun c hm h2 hin hle => locked_completes hm h2 hin hle, locked_idle,
      holdoverExpired_completes, holdoverExpired_idle⟩, fun s => ⟨fun hc => ?_, fun hc => ?_, rfl⟩⟩
  case refine_1 =>
    exact ⟨fun h => ppsInEdge_idle h x, fun hs h1 hok hst => ppsInEdge_accepted hs h1 hok hst x,
      fun hs h1 hok hr => ppsInEdge_rejected_first hs h1 hok hr x, fun hs h1 hok hr => ppsInEdge_rejected_again hs h1 hok hr x⟩
  case refine_2 =>
    have hfollows := srcCmdTaken_labelFollows v s
    exact ⟨srcLabel_ignored hc v, srcLabel_rejected hc v,
      fun x h1 hx hnext hearly => srcLabel_good hc v h1 hx (hfollows.2 hnext) hearly,
      fun x h1 hx h => srcLabel_bad hc v h1 hx (h.imp_left (mt hfollows.1))⟩
  case refine_3 =>
    exact ⟨softSubmission_ignored hc v, softSubmission_rejected hc v, softSubmission_far hc v,
      fun h2 hfar hag => softSubmission_good hc v h2 hfar rfl hag,
      fun h2 hfar hag hb => softSubmission_bad_first hc v h2 hfar rfl hag hb,
      fun h2 hfar hag hb => softSubmission_bad_again hc v h2 hfar rfl hag hb⟩
  case refine_4 =>
    exact ⟨clockFault_completes (g := fun n => { n with coreFailed := true, auxFailed := true }) hc rfl,
      clockFault_completes (g := fun n => { n with coreFailed := true }) hc rfl,
      clockFault_completes (g := fun n => { n with auxFailed := true }) hc rfl,
      clockFault_completes (g := fun n => { n with rtcFailed := true }) hc rfl⟩
  case refine_5 =>
    exact ⟨show execRefFail s = _ from actWhen_of_false hc, show execCoreUnlock s = _ from actWhen_of_false hc,
      show execAuxUnlock s = _ from actWhen_of_false hc, show execRtcFail s = _ from actWhen_of_false hc⟩

end Sys2Proof.Safety
end

section
/-! Leap seconds and UTC (R198): what sets the UTC offset and the pending leap, what each leaves of the time unit, and ANNOUNCE. -/

namespace Sys2Proof.Machine
open Safety

/-! ## The UTC offset -/

/-- The fields that a change of the UTC offset writes. -/
abbrev utcFields : List Field := [F.TIME_UTC_OFFSET, F.TIME_EVENT_LEAP_CHANGED]

theorem setUtc_get {g : Field} (h : g.timeApart utcFields) (o : Int) (s : State) : (setUtc o s).get g = s.get g := by
  unfold setUtc
  split
  · rfl
  · rw [get_timeEvent_of_timeApart h (by simp) (by decide), State.get_put_of_timeApart h (by simp)]

theorem setUtc_tim (o : Int) (s : State) : (setUtc o s).tim = s.tim := tim_same_of_hide (m := 129) rfl (setUtc_hide o s _ rfl)

theorem setUtc_offset (o : Int) (s : State) : (setUtc o s).get F.TIME_UTC_OFFSET = (BitVec.ofInt 16 o).toNat := by
  unfold setUtc
  split
  case isTrue heq =>
    have hlt : s.get F.TIME_UTC_OFFSET < 2 ^ 16 := State.get_lt F.TIME_UTC_OFFSET s
    rw [← heq, State.utcOffset, BitVec.ofInt_toInt, BitVec.toNat_ofNat, Nat.mod_eq_of_lt hlt]
  case isFalse =>
    rw [get_timeEvent_of_timeApart (l := [F.TIME_EVENT_LEAP_CHANGED]) (by decide) (by simp) (by decide),
      State.get_put_same _ _ _ (by decide)]
    exact Nat.mod_eq_of_lt (BitVec.isLt _)

/-- The table gives the offset at most: of the time unit only the entry last taken changes. -/
theorem takeTable_get {g : Field} (h : g.timeApart utcFields) (s : State) : (takeTable s).get g = s.get g := by
  unfold takeTable
  extract_lets o
  split
  · exact setUtc_get h o _
  · rfl

theorem takeTable_tim (s : State) : ∃ k, (takeTable s).tim = { s.tim with taken := k } := by
  unfold takeTable
  extract_lets o
  split
  · exact ⟨_, setUtc_tim o _⟩
  · exact ⟨_, rfl⟩

/-- A node that follows a time port takes no offset from its own table. -/
theorem takeTable_of_follower {s : State} (hm : s.isMaster = false) (hp : s.tim.port ≠ none) : takeTable s = s := by
  unfold takeTable
  extract_lets o
  exact if_neg fun ⟨_, h⟩ => h.elim (by simp [hm]) fun h => hp h.1

/-! ## The pending leap -/

/-- The fields that a change of the pending leap writes. -/
abbrev leapFields : List Field :=
  [F.TIME_UTC_LEAP_DIR, F.TIME_STATUS_LEAP_PENDING, F.TIME_LEAP_LO_S_L, F.TIME_LEAP_HI_S_L, F.TIME_EVENT_LEAP_CHANGED]

/-- The second of the pending leap. -/
abbrev State.leapSecond (s : State) : Nat := s.get F.TIME_LEAP_LO_S_L + 2 ^ 32 * s.get F.TIME_LEAP_HI_S_L

theorem setLeap_get {g : Field} (h : g.timeApart leapFields) (dir sec : Nat) (s : State) : (setLeap dir sec s).get g = s.get g := by
  unfold setLeap
  split
  · rfl
  · rw [get_timeEvent_of_timeApart h (by simp) (by decide), State.get_put_of_timeApart h (by simp),
      State.get_put_of_timeApart h (by simp), State.get_put_of_timeApart h (by simp), State.get_put_of_timeApart h (by simp)]

theorem setLeap_shown {dir sec : Nat} (hd : dir < 4) (hsec : sec < 2 ^ 64) (s : State) :
    (setLeap dir sec s).get F.TIME_UTC_LEAP_DIR = dir ∧ (setLeap dir sec s).leapSecond = sec := by
  unfold setLeap
  split
  case isTrue heq => exact heq
  case isFalse =>
    extract_lets s₁
    have hev : ∀ g : Field, g.timeApart [F.TIME_EVENT_LEAP_CHANGED] → ∀ t : State,
        (t.timeEvent F.TIME_EVENT_LEAP_CHANGED 95).get g = t.get g :=
      fun g hg t => get_timeEvent_of_timeApart hg (by simp) (by decide) t
    refine ⟨?_, ?_⟩
    · rw [hev _ (by decide), State.get_put_ne (by decide) (by decide), State.get_put_ne (by decide) (by decide),
        State.get_put_ne (by decide) (by decide), State.get_put_same _ _ _ (by decide)]
      exact Nat.mod_eq_of_lt hd
    · rw [State.leapSecond, hev _ (by decide), hev _ (by decide), State.get_put_ne (by decide) (by decide),
        State.get_put_same _ _ _ (by decide), State.get_put_same _ _ _ (by decide)]
      show sec % 2 ^ 32 + 2 ^ 32 * (sec / 2 ^ 32 % 2 ^ 32) = sec
      omega

/-! ## The leap takes effect -/

theorem applyLeap_get {g : Field} (h : g.timeApart (utcFields ++ leapFields)) (s : State) : (applyLeap s).get g = s.get g := by
  unfold applyLeap
  extract_lets dir sec
  split
  · rw [setLeap_get (Field.timeApart_mono h (by simp)), setUtc_get (Field.timeApart_mono h (by simp))]
  · rfl

theorem applyLeap_tim (s : State) : (applyLeap s).tim = s.tim := tim_same_of_hide (m := 129) rfl (applyLeap_hide s _ rfl)

/-- At its second the pending leap changes the offset, and is gone. -/
theorem applyLeap_shown {s : State} (hdir : s.get F.TIME_UTC_LEAP_DIR ≠ 0) (hsec : s.leapSecond = s.now.toNat / 0x20000000) :
    (applyLeap s).get F.TIME_UTC_OFFSET = (BitVec.ofInt 16 (s.utcOffset + leapDelta (s.get F.TIME_UTC_LEAP_DIR))).toNat ∧
    (applyLeap s).get F.TIME_UTC_LEAP_DIR = 0 := by
  have heq : applyLeap s = setLeap 0 0 (setUtc (s.utcOffset + leapDelta (s.get F.TIME_UTC_LEAP_DIR)) s) :=
    if_pos ⟨hdir, hsec.symm⟩
  rw [heq, setLeap_get (by decide), setUtc_offset]
  exact ⟨rfl, (setLeap_shown (by decide) (by decide) _).1⟩

theorem ofInt_utcOffset_add (s : State) (i : Int) : (BitVec.ofInt 16 (s.utcOffset + i)).toNat =
    (s.get F.TIME_UTC_OFFSET + (BitVec.ofInt 16 i).toNat) % 65536 := by
  rw [BitVec.ofInt_add, State.utcOffset, BitVec.ofInt_toInt, BitVec.toNat_add, BitVec.toNat_ofNat]
  omega

/-! ## ANNOUNCE (R198) -/

section
variable {s : State} (hc : s.clocked = true) (v : Word)
include hc

/-- A write of TIME.LEAP_CMD with ANNOUNCE takes DIR, and on the master acts on it. -/
theorem exec_announce : exec (.announce v) s = .next (
    let t := s.put F.TIME_LEAP_CMD_DIR (F.TIME_LEAP_CMD_DIR.of v)
    if s.isMaster = false ∨ F.TIME_LEAP_CMD_DIR.of v = 3 then t
    else setLeap (F.TIME_LEAP_CMD_DIR.of v)
      (if F.TIME_LEAP_CMD_DIR.of v = 0 then 0 else s.tim.leapHi.toNat * 2 ^ 32 + s.tim.leapLo.toNat) t) := by
  show execAnnounce v s = _
  have hann : F.TIME_LEAP_CMD_ANNOUNCE.of (F.TIME_LEAP_CMD_ANNOUNCE.into 1 v) = 1 := by
    rw [Field.of_into _ (by decide)]
    rfl
  have hdir : F.TIME_LEAP_CMD_DIR.of (F.TIME_LEAP_CMD_ANNOUNCE.into 1 v) = F.TIME_LEAP_CMD_DIR.of v :=
    Field.of_into_apart _ _ (by decide) (by decide) 1 v
  have hmaster : ∀ n, (s.put F.TIME_LEAP_CMD_DIR n).isMaster = s.isMaster :=
    fun n => State.bit_of_get (State.get_put_ne (by decide) (by decide) n s)
  rw [execAnnounce, actWhen_of_true hc, writeLeapCmd]
  simp only [hann, hdir, hmaster, Nat.one_ne_zero, false_or]
  have hlt : F.TIME_LEAP_CMD_DIR.of v < 4 := Field.of_lt F.TIME_LEAP_CMD_DIR v
  by_cases hm : s.isMaster = false
  · rw [if_pos hm, if_pos (.inl hm)]
  · rw [if_neg hm]
    generalize F.TIME_LEAP_CMD_DIR.of v = d at hlt
    split
    · rw [if_neg (not_or.2 ⟨hm, by decide⟩), if_pos rfl]
    · rw [if_pos (.inr rfl)]
    next h0 h3 =>
      rw [if_neg (not_or.2 ⟨hm, h3⟩), if_neg h0]
      rfl

theorem announce_sets {sec : Nat} (hm : s.isMaster = true) (h3 : F.TIME_LEAP_CMD_DIR.of v ≠ 3) (hsec : sec < 2 ^ 64)
    (hval : (if F.TIME_LEAP_CMD_DIR.of v = 0 then 0 else s.tim.leapHi.toNat * 2 ^ 32 + s.tim.leapLo.toNat) = sec) :
    completes (.announce v) s [.regs, .ic] fun t => t.get F.TIME_UTC_LEAP_DIR = F.TIME_LEAP_CMD_DIR.of v ∧ t.leapSecond = sec ∧
      t.get F.TIME_UTC_OFFSET = s.get F.TIME_UTC_OFFSET := by
  have hexec := exec_announce hc v
  rw [hval] at hexec
  have hlt : F.TIME_LEAP_CMD_DIR.of v < 4 := Field.of_lt F.TIME_LEAP_CMD_DIR v
  obtain ⟨hdir, hleap⟩ := setLeap_shown hlt hsec (s.put F.TIME_LEAP_CMD_DIR (F.TIME_LEAP_CMD_DIR.of v))
  refine ⟨_, hexec.trans (congrArg _ (if_neg (by simp [hm, h3]))), only_of_hide (k := 129) (by decide) (by simp), hdir, hleap, ?_⟩
  rw [setLeap_get (by decide), State.get_put_ne (by decide) (by decide)]

theorem announce_takes_dir (h : s.isMaster = false ∨ F.TIME_LEAP_CMD_DIR.of v = 3) : completes (.announce v) s [.regs] fun t =>
    t.get F.TIME_LEAP_CMD_DIR = F.TIME_LEAP_CMD_DIR.of v ∧ regsBut [0x400B004C] s t := by
  refine ⟨_, (exec_announce hc v).trans (congrArg _ (if_pos h)), only_of_hide (k := 1) (by decide) (by simp), ?_, fun a ha => ?_⟩
  · rw [State.get_put_same _ _ _ (by decide)]
    exact Nat.mod_eq_of_lt (Field.of_lt _ v)
  · exact State.reg_put_ne _ _ s fun h => ha (List.mem_singleton.2 h)

end

end Sys2Proof.Machine
end

section
/-! O49: SECOND (R193, R197, R199, R200, R446), PPS_OUT_FALL (R199), and the seconds and leaps as a whole. -/

namespace Sys2Proof.Machine
open Safety

/-! ## Valid time -/

/-- Whether time is valid rests on no field that a leap or a second writes (R183). -/
theorem timeValid_congr {s t : State} (hget : ∀ g : Field, g.timeApart (utcFields ++ leapFields) → t.get g = s.get g)
    (hpath : t.tim.path = s.tim.path) (hacc : t.tim.acc = s.tim.acc) : t.timeValid = s.timeValid := by
  have hbest : ∀ u : State, (u.reg 0x400B003C).toNat = u.get F.TIME_BEST_BEST := fun u => by
    show _ = (u.reg 0x400B003C).toNat / 2 ^ 0 % 2 ^ 32
    have := (u.reg 0x400B003C).isLt
    omega
  have hmaster : t.isMaster = s.isMaster := State.bit_of_get (hget _ (by decide))
  have hok : t.bit F.TIME_STATUS_SRC_OK = s.bit F.TIME_STATUS_SRC_OK := State.bit_of_get (hget _ (by decide))
  have hstate : t.timeState = s.timeState := hget _ (by decide)
  have hclass : t.masterClass = s.masterClass := by rw [State.masterClass, hbest, hget _ (by decide), ← hbest, State.masterClass]
  have hown : t.ownClass = s.ownClass := by simp only [State.ownClass, hok, hpath, hacc]
  simp only [State.timeValid, hstate, hmaster, hown, hclass]

/-! ## The second begun -/

/-- The second in progress has ended. -/
def secondOver (s : State) : State :=
  (secondEnds (s.utcCount s.tim.second) s.timeValid s).modWork fun w => { w with fullRaised := false, cellRaised := false }

/-- The next second begins: it is noted, and the leap and the table's offset due with it are taken. -/
def secondBegun (s : State) : State :=
  takeTable (applyLeap (s.modT fun t => { t with second := s.now.toNat / second, gen := t.gen + 1 }))

/-- With valid time the second is shown, and a working RTC takes system time. -/
def secondTold (s : State) : State :=
  let s := s.timeEvent F.TIME_EVENT_SECOND 93
  if s.node.rtcFailed then s else s.modT fun t => { t with rtc := s.now, rtcLost := false }

/-- PPS_OUT rises for the width set. -/
def ppsRisen (s : State) : State :=
  s.modT fun t => { t with ppsOut := true, ppsEnd := s.cycles + ppsWidth (s.get F.TIME_CTL_PPS_OUT_WIDTH) }

/-- PPS_OUT is to rise: in K8, enabled, and no step in the last 100 ms. -/
abbrev State.ppsRises (s : State) : Prop := s.inK8 = true ∧ s.bit F.TIME_CTL_PPS_OUT_EN = true ∧
  ∀ c, s.tim.stepAt = some c → c + 53687091 < s.cycles

theorem secondBoundary_of_invalid {s : State} (h : (secondBegun s).timeValid = false) : secondBoundary s = secondBegun s :=
  if_neg (Bool.eq_false_iff.1 h)

section
variable {s : State} (h : (secondBegun s).timeValid = true)
include h

theorem secondBoundary_of_rises (hr : (secondTold (secondBegun s)).ppsRises) :
    secondBoundary s = ppsRisen (secondTold (secondBegun s)) := by
  obtain ⟨hk8, hen, hstep⟩ := hr
  unfold secondBoundary
  extract_lets sec s₁ s₂ s₃ s₄ recent
  have hrecent : recent = false := by
    simp only [recent]
    split
    next c hc => exact decide_eq_false (Nat.not_le.2 (hstep c hc))
    · rfl
  exact (if_pos h).trans (if_pos ⟨hk8, hen, hrecent⟩)

theorem secondBoundary_of_not_rises (hr : ¬ (secondTold (secondBegun s)).ppsRises) :
    secondBoundary s = secondTold (secondBegun s) := by
  unfold secondBoundary
  extract_lets sec s₁ s₂ s₃ s₄ recent
  refine (if_pos h).trans (if_neg fun ⟨hk8, hen, hrecent⟩ => hr ⟨hk8, hen, fun c hc => ?_⟩)
  have hc₄ : s₄.tim.stepAt = some c := hc
  simp only [recent, hc₄] at hrecent
  exact Nat.not_le.1 (of_decide_eq_false hrecent)

end

/-! ## What the parts of a second leave -/

theorem secondOver_hide (s : State) : (secondOver s).hide 23072769 = s.hide 23072769 := by simp [secondOver]

theorem secondOver_get {g : Field} (h : g.timeApart []) (s : State) : (secondOver s).get g = s.get g :=
  (State.modWork_get ..).trans (secondEnds_get h _ _ s)

theorem secondBegun_hide (s : State) : (secondBegun s).hide 524417 = s.hide 524417 := by simp [secondBegun]

theorem secondBegun_get {g : Field} (h : g.timeApart (utcFields ++ leapFields)) (s : State) : (secondBegun s).get g = s.get g := by
  rw [secondBegun, takeTable_get (Field.timeApart_mono h (by simp)), applyLeap_get h, State.modT_get]

theorem secondBegun_tim (s : State) : ∃ k, (secondBegun s).tim =
    { s.tim with second := s.now.toNat / second, gen := s.tim.gen + 1, taken := k } := by
  obtain ⟨k, hk⟩ := takeTable_tim (applyLeap (s.modT fun t => { t with second := s.now.toNat / second, gen := t.gen + 1 }))
  refine ⟨k, hk.trans ?_⟩
  rw [applyLeap_tim]
  rfl

theorem secondTold_hide (s : State) : (secondTold s).hide 524417 = s.hide 524417 := by simp [secondTold]

theorem secondTold_get {g : Field} (h : g.timeApart [F.TIME_EVENT_SECOND]) (s : State) : (secondTold s).get g = s.get g := by
  unfold secondTold
  extract_lets s₁
  rw [State.get_ite, State.modT_get, ite_self]
  exact get_timeEvent_of_timeApart h (by simp) (by decide) s

theorem secondTold_event (s : State) : (secondTold s).get F.TIME_EVENT_SECOND = 1 := by
  unfold secondTold
  extract_lets s₁
  rw [State.get_ite, State.modT_get, ite_self]
  exact get_timeEvent_same (by decide) rfl (by decide) s

theorem secondTold_tim (s : State) : (secondTold s).tim =
    if s.node.rtcFailed then s.tim else { s.tim with rtc := s.now, rtcLost := false } := by
  unfold secondTold
  extract_lets s₁
  have hhide : s₁.hide 129 = s.hide 129 := State.timeEvent_hide _ _ s _ rfl
  have htim := tim_same_of_hide rfl hhide
  rw [node_same_of_hide rfl hhide]
  split
  · exact htim
  · exact congrArg₂ (fun (t : TimeUnit) (n : SysTime) => { t with rtc := n, rtcLost := false }) htim (now_same_of_hide rfl hhide)

end Sys2Proof.Machine
end

section
/-! O49: SECOND as a command, PPS_OUT_FALL, and the seconds and leaps as a whole. -/

namespace Sys2Proof.Machine
open Safety

/-! ## The next second, from the state before -/

/-- The second begun after the one over, before it is told. -/
abbrev secondNew (s : State) : State := secondBegun (secondOver s)

theorem secondNew_get {g : Field} (h : g.timeApart (utcFields ++ leapFields)) (s : State) : (secondNew s).get g = s.get g :=
  (secondBegun_get h _).trans (secondOver_get (Field.timeApart_mono h (by simp)) s)

theorem secondNew_hide (s : State) : (secondNew s).hide 23597185 = s.hide 23597185 :=
  (hide_mono (by decide) (secondBegun_hide _)).trans (hide_mono (by decide) (secondOver_hide s))

theorem secondNew_tim (s : State) : ∃ k, (secondNew s).tim =
    { s.tim with second := s.now.toNat / 0x20000000, gen := s.tim.gen + 1, taken := k } := by
  obtain ⟨k, hk⟩ := secondBegun_tim (secondOver s)
  refine ⟨k, hk.trans ?_⟩
  rw [tim_same_of_hide rfl (secondOver_hide s), now_same_of_hide rfl (secondOver_hide s)]
  rfl

theorem secondNew_timeValid (s : State) : (secondNew s).timeValid = s.timeValid := by
  obtain ⟨k, hk⟩ := secondNew_tim s
  exact timeValid_congr (fun g hg => secondNew_get hg s) (by rw [hk]) (by rw [hk])

/-- The second told: the RTC takes system time if it works. -/
theorem secondTold_new_tim (s : State) : ∃ k, (secondTold (secondNew s)).tim =
    let t := { s.tim with second := s.now.toNat / 0x20000000, gen := s.tim.gen + 1, taken := k }
    if s.node.rtcFailed then t else { t with rtc := s.now, rtcLost := false } := by
  obtain ⟨k, hk⟩ := secondNew_tim s
  refine ⟨k, ?_⟩
  rw [secondTold_tim, hk, node_same_of_hide rfl (secondNew_hide s), now_same_of_hide rfl (secondNew_hide s)]

/-- The second is noted, the RTC written if it works, and PPS_OUT as before. -/
theorem secondTold_new_noted (s : State) : let t := (secondTold (secondNew s)).tim
    t.second = s.now.toNat / 0x20000000 ∧ t.gen = s.tim.gen + 1 ∧
    (s.node.rtcFailed = false → t.rtc = s.now ∧ t.rtcLost = false) ∧
    (s.node.rtcFailed = true → t.rtc = s.tim.rtc ∧ t.rtcLost = s.tim.rtcLost) ∧
    t.ppsOut = s.tim.ppsOut ∧ t.ppsEnd = s.tim.ppsEnd ∧ t.stepAt = s.tim.stepAt := by
  obtain ⟨k, hk⟩ := secondTold_new_tim s
  rw [hk]
  cases s.node.rtcFailed <;> simp

theorem secondTold_new_hide (s : State) : (secondTold (secondNew s)).hide 23597185 = s.hide 23597185 :=
  (hide_mono (by decide) (secondTold_hide _)).trans (secondNew_hide s)

theorem secondTold_new_ctl {g : Field} (h : g.timeApart (F.TIME_EVENT_SECOND :: utcFields ++ leapFields)) (s : State) :
    (secondTold (secondNew s)).get g = s.get g :=
  (secondTold_get (Field.timeApart_mono h (by simp)) _).trans (secondNew_get (Field.timeApart_mono h (by simp)) s)

theorem secondTold_new_rises (s : State) : (secondTold (secondNew s)).ppsRises ↔ s.ppsRises := by
  have hnode := node_same_of_hide rfl (secondTold_new_hide s)
  have hk8 : (secondTold (secondNew s)).inK8 = s.inK8 := by simp only [State.inK8, State.live, State.clocked, hnode]
  obtain ⟨-, -, -, -, -, -, hstep⟩ := secondTold_new_noted s
  have hen : (secondTold (secondNew s)).bit F.TIME_CTL_PPS_OUT_EN = s.bit F.TIME_CTL_PPS_OUT_EN :=
    State.bit_of_get (secondTold_new_ctl (by decide) s)
  rw [State.ppsRises, hk8, hen, hstep, cycles_same_of_hide rfl (secondTold_new_hide s)]

/-! ## SECOND -/

/-- The parts of the node that a second changes. -/
abbrev secondParts : List Part := [.regs, .ic, .rep, .tim, .flue, .ring, .work]

theorem second_idle {s : State} (h : s.clocked = false ∨ s.now.toNat / 0x20000000 ≤ s.tim.second) : exec .second s = .next s := by
  show execSecond s = _
  refine actWhen_of_false ?_
  rw [Bool.and_eq_false_iff]
  exact h.imp id fun h => decide_eq_false (Nat.not_lt.2 h)

section
variable {s : State} (hc : s.clocked = true) (hlt : s.tim.second < s.now.toNat / 0x20000000)
include hc hlt

/-- A second that is due: what it leaves is what `secondBoundary` leaves, but for the report queued. -/
theorem second_completes {post : State → Prop} (h : ∀ t, t.tim = (secondBoundary (secondOver s)).tim →
    (∀ g, t.get g = (secondBoundary (secondOver s)).get g) → post t) : completes .second s secondParts post := by
  have hexec : exec .second s = .next (queueState (secondBoundary (secondOver s))) := by
    show execSecond s = _
    refine actWhen_of_true ?_
    rw [hc, Bool.true_and]
    exact decide_eq_true hlt
  have hhide := queueState_hide (secondBoundary (secondOver s)) 4096 rfl
  exact ⟨_, hexec, only_of_hide (k := 23597185) (by decide) (execSecond_hide s _ hexec),
    h _ (tim_same_of_hide rfl hhide) (get_of_hide rfl hhide)⟩

theorem second_of_valid (hv : s.timeValid = true) : completes .second s secondParts fun t =>
    t.tim.second = s.now.toNat / 0x20000000 ∧ t.tim.gen = s.tim.gen + 1 ∧ t.get F.TIME_EVENT_SECOND = 1 ∧
    (s.node.rtcFailed = false → t.tim.rtc = s.now ∧ t.tim.rtcLost = false) ∧
    (s.node.rtcFailed = true → t.tim.rtc = s.tim.rtc ∧ t.tim.rtcLost = s.tim.rtcLost) ∧
    (s.ppsRises → t.tim.ppsOut = true ∧ t.tim.ppsEnd = s.cycles + ppsWidth (s.get F.TIME_CTL_PPS_OUT_WIDTH)) ∧
    (¬ s.ppsRises → t.tim.ppsOut = s.tim.ppsOut ∧ t.tim.ppsEnd = s.tim.ppsEnd) := by
  have hvalid : (secondNew s).timeValid = true := (secondNew_timeValid s).trans hv
  have hevent := secondTold_event (secondNew s)
  obtain ⟨hsec, hgen, hrtc, hfailed, hout, hend, -⟩ := secondTold_new_noted s
  refine second_completes hc hlt fun t htim hget => ?_
  by_cases hr : s.ppsRises
  · have hnext := secondBoundary_of_rises hvalid ((secondTold_new_rises s).2 hr)
    have hpps : (ppsRisen (secondTold (secondNew s))).tim.ppsEnd = s.cycles + ppsWidth (s.get F.TIME_CTL_PPS_OUT_WIDTH) := by
      rw [← cycles_same_of_hide rfl (secondTold_new_hide s), ← secondTold_new_ctl (by decide) s]
      rfl
    rw [htim, hget, hnext]
    exact ⟨hsec, hgen, hevent, hrtc, hfailed, fun _ => ⟨rfl, hpps⟩, absurd hr⟩
  · have hnext := secondBoundary_of_not_rises hvalid fun h => hr ((secondTold_new_rises s).1 h)
    rw [htim, hget, hnext]
    exact ⟨hsec, hgen, hevent, hrtc, hfailed, fun h => absurd h hr, fun _ => ⟨hout, hend⟩⟩

theorem second_of_invalid (hv : s.timeValid = false) : completes .second s secondParts fun t =>
    t.tim.second = s.now.toNat / 0x20000000 ∧ t.tim.gen = s.tim.gen + 1 ∧ t.get F.TIME_EVENT_SECOND = s.get F.TIME_EVENT_SECOND ∧
    t.tim.rtc = s.tim.rtc ∧ t.tim.rtcLost = s.tim.rtcLost ∧ t.tim.ppsOut = s.tim.ppsOut := by
  have hnext := secondBoundary_of_invalid ((secondNew_timeValid s).trans hv)
  obtain ⟨k, hk⟩ := secondNew_tim s
  refine second_completes hc hlt fun t htim hget => ?_
  rw [htim, hget, hnext, hk]
  exact ⟨rfl, rfl, secondNew_get (by decide) s, rfl, rfl, rfl⟩

end

/-! ## A leap due with the second (R198) -/

/-- Whether time is valid or not, SECOND and PPS_OUT touch no other field. -/
theorem secondBoundary_get {g : Field} (h : g.timeApart [F.TIME_EVENT_SECOND]) (s : State) :
    (secondBoundary s).get g = (secondBegun s).get g := by
  cases hv : (secondBegun s).timeValid with
  | false => rw [secondBoundary_of_invalid hv]
  | true =>
    by_cases hr : (secondTold (secondBegun s)).ppsRises
    · rw [secondBoundary_of_rises hv hr, ppsRisen, State.modT_get, secondTold_get h]
    · rw [secondBoundary_of_not_rises hv hr, secondTold_get h]

/-- On a node that follows its time port, the leap of the second that begins takes effect. -/
theorem secondNew_leap {s : State} (hm : s.isMaster = false) (hp : s.tim.port ≠ none) (hdir : s.get F.TIME_UTC_LEAP_DIR ≠ 0)
    (hsec : s.leapSecond = s.now.toNat / 0x20000000) :
    (secondNew s).get F.TIME_UTC_OFFSET =
      (s.get F.TIME_UTC_OFFSET + (BitVec.ofInt 16 (leapDelta (s.get F.TIME_UTC_LEAP_DIR))).toNat) % 65536 ∧
    (secondNew s).get F.TIME_UTC_LEAP_DIR = 0 := by
  let u := (secondOver s).modT fun t => { t with second := (secondOver s).now.toNat / second, gen := t.gen + 1 }
  have hget : ∀ g : Field, g.timeApart [] → u.get g = s.get g := fun g hg => (State.modT_get ..).trans (secondOver_get hg s)
  have hport : u.tim.port = s.tim.port := by
    show (secondOver s).tim.port = _
    rw [tim_same_of_hide rfl (secondOver_hide s)]
  have hnow : u.now = s.now := now_same_of_hide (t := secondOver s) rfl (secondOver_hide s)
  have hnew : secondNew s = applyLeap u := by
    refine takeTable_of_follower ?_ (by rw [applyLeap_tim]; exact hport ▸ hp)
    exact (State.bit_of_get ((applyLeap_get (by decide) u).trans (hget _ (by decide)))).trans hm
  have hleap : u.leapSecond = s.leapSecond := by rw [State.leapSecond, hget _ (by decide), hget _ (by decide)]
  obtain ⟨hoff, hgone⟩ := applyLeap_shown (s := u) (by rwa [hget _ (by decide)]) (by rw [hleap, hnow, hsec])
  rw [hnew, hoff, ofInt_utcOffset_add, hget _ (by decide), hget _ (by decide)]
  exact ⟨rfl, hgone⟩

theorem second_leap {s : State} (hc : s.clocked = true) (hlt : s.tim.second < s.now.toNat / 0x20000000) (hm : s.isMaster = false)
    (hp : s.tim.port ≠ none) (hsec : s.leapSecond = s.now.toNat / 0x20000000) {dir n : Nat} (hdir : s.get F.TIME_UTC_LEAP_DIR = dir)
    (h0 : dir ≠ 0) (hn : (BitVec.ofInt 16 (leapDelta dir)).toNat = n) : completes .second s secondParts fun t =>
      t.get F.TIME_UTC_OFFSET = (s.get F.TIME_UTC_OFFSET + n) % 65536 ∧ t.get F.TIME_UTC_LEAP_DIR = 0 := by
  subst hdir
  obtain ⟨hoff, hgone⟩ := secondNew_leap hm hp h0 hsec
  refine second_completes hc hlt fun t _ hget => ?_
  rw [hget, hget, secondBoundary_get (by decide), secondBoundary_get (by decide), hoff, hn]
  exact ⟨rfl, hgone⟩

/-! ## PPS_OUT_FALL (R199) -/

/-- A pulse on PPS_OUT has lasted its width. -/
abbrev State.pulseOver (s : State) : Prop := s.live = true ∧ s.tim.ppsOut = true ∧ s.tim.ppsEnd ≤ s.cycles

theorem pulseOver_iff (s : State) : (s.live && s.tim.ppsOut && decide (s.tim.ppsEnd ≤ s.cycles)) = true ↔ s.pulseOver := by
  rw [Bool.and_eq_true, Bool.and_eq_true, decide_eq_true_iff, and_assoc]

theorem ppsOutFall_falls {s : State} (h : s.pulseOver) :
    exec .ppsOutFall s = .next { s with tim := { s.tim with ppsOut := false } } := by
  show execPpsOutFall s = _
  rw [execPpsOutFall, actWhen_of_true ((pulseOver_iff s).2 h)]
  rfl

theorem ppsOutFall_idle {s : State} (h : ¬ s.pulseOver) : exec .ppsOutFall s = .next s := by
  show execPpsOutFall s = _
  exact actWhen_of_false (Bool.eq_false_iff.2 (mt (pulseOver_iff s).1 h))

end Sys2Proof.Machine

namespace Sys2Proof.Safety
open Sys2Proof.Machine

/-- Settles O49: SECOND by whether time is valid (`secondBoundary_of_rises` and its two companions), its leap by `applyLeap_shown`;
ANNOUNCE by what it makes of the pending leap (`setLeap_shown`). -/
theorem secondsAndLeaps : Obligations.SecondsAndLeaps := by
  unfold Obligations.SecondsAndLeaps
  refine ⟨fun s => ⟨second_idle, second_of_valid, second_of_invalid, fun hc hlt hm hp hsec => ⟨fun h1 => ?_, fun h2 => ?_⟩⟩,
    fun s => ⟨ppsOutFall_falls, ppsOutFall_idle⟩, fun v s hc => ⟨fun hm hdir => ?_, fun hm h0 => ?_, announce_takes_dir hc v⟩⟩
  · exact second_leap hc hlt hm hp hsec h1 (by decide) (by decide)
  · exact second_leap hc hlt hm hp hsec h2 (by decide) (by decide)
  · have hhi := s.tim.leapHi.isLt
    have hlo := s.tim.leapLo.isLt
    exact announce_sets hc v hm (by omega) (by omega) (if_neg (by omega))
  · have hset := announce_sets hc v hm (by omega) (by decide) (if_pos h0)
    rw [h0] at hset
    exact completes_mono hset fun t ⟨hdir, hleap, _⟩ => ⟨hdir, hleap⟩

end Sys2Proof.Safety
end
